-- ==== Sys2Proof/Word.lean ====
section
/-!
DEFINITION. The plain data types every other file uses: register words, bytes, the place of a field in a register
word, and a map from numbers to values held as a list in one canonical form.
-/
namespace Sys2Proof

/-- A register word or the data bits of an ingot word (R13, R24). -/
abbrev Word := BitVec 32

/-- A byte of memory. -/
abbrev Byte := BitVec 8

/-- The place of a field in a register word: its lowest bit and its width (R8). -/
structure Fld where
  lo : Nat
  wid : Nat
deriving DecidableEq, Repr

/-- A map from numbers to values, as the list of its entries in rising order of their keys. A key that the list does
not hold has the value that the reader of the map names. -/
structure SMap (α : Type) where
  entries : List (Nat × α)
deriving DecidableEq, Repr

/-- The map that lists nothing. -/
def SMap.empty {α : Type} : SMap α := ⟨[]⟩

end Sys2Proof
end

