-- ==== Sys2Proof/Operand.lean ====
section
/-!
DEFINITION. The kinds of operand a command names: the part, islands, the masters that write registers, and the bit
streams a Drawplate channel captured.
-/
namespace Sys2Proof

/-- The parts of the family (R2). -/
inductive Part where
  | pdl16 | pdl32 | pdl64
deriving DecidableEq, Repr

/-- The clock islands (R15). -/
inductive Island where
  | hi | mi | li | ai | si | ao
  | cl (c : Fin 4)
deriving DecidableEq, Repr

/-- The masters that write registers (R12, R18, R475): an Anvil core by its global number and its ring, the Ladle
engine, the host through BAR0, and a debugger through the debug access port. -/
inductive Writer where
  | core (k : Fin 19) (ring : Fin 4)
  | ladle
  | host
  | dap
deriving DecidableEq, Repr

/-- The bits a Drawplate channel captured, oldest first: those before the stretch a step concerns, counted from the
latest of channel enable, clock start and clock recovery, and those inside it (R100, R105 to R110). -/
structure ChanBits where
  before : List Bool
  inside : List Bool
deriving DecidableEq, Repr

/-- An edge of a feedback channel's pair Z, with the levels that the balls of its P and N sides now have (R138, R146). -/
structure IndexEdge where
  axis : Fin 64
  p : Bool
  n : Bool
deriving DecidableEq, Repr

/-- The pairs of a feedback channel, as bits of A, B and Z, whose wires no longer disagree (R149). -/
structure PairsEnd where
  axis : Fin 64
  pairs : Fin 8
deriving DecidableEq, Repr

/-- A core image that the bench firmware places before a release (R465): local core, byte mode, the offset of its load
address in the cluster's ingot, its entry offset and its body. -/
structure CoreImage where
  core : Fin 4
  byteMode : Bool
  load : Fin 16
  entry : Nat
  body : List Byte
deriving DecidableEq, Repr

/-- A configuration request of the host (R320, R321). -/
inductive CfgReq where
  /-- A read of the doubleword of this number. -/
  | read (dw : Fin 1024)
  /-- Memory Space Enable and Bus Master Enable written. -/
  | command (mem bus : Bool)
  /-- MSI-X Enable and the function mask written. -/
  | msix (en mask : Bool)
  /-- PME_En written, and PME_Status cleared. -/
  | pme (en clear : Bool)
  /-- Any other doubleword written. -/
  | other (dw : Fin 1024) (v : Word)
deriving DecidableEq, Repr

/-- A Seam frame between its /S/ and /T/, without the CRC (R395); crcOk says whether its CRC checks. -/
structure Frame where
  typ : Nat
  pass : Bool
  healed : Bool
  src : Nat
  dst : Nat
  hops : Nat
  pay : List Byte
  crcOk : Bool
deriving DecidableEq, Repr

end Sys2Proof
end

