-- ==== Sys2Proof/Syntax.lean ====
section
/-!
DEFINITION. The commands of the block: one constructor for each row of spec/opcode_table.json, in the table's order,
with the operands the row's rule names.
-/
namespace Sys2Proof

/-- The commands. The docstring of each constructor is the table's own summary of its row and the rule it cites. -/
inductive Instr where
  /-- R10: A write to a register that has no row of its own takes effect as its access codes, unlock rules and writer restrictions allow. -/
  | registerWrite (w : Writer) (addr : Word) (v : Word)
  /-- R12: Writing 0x0000_A5C3 to a block's _UNLOCK register opens that writer's 32-cycle window for RWP writes. -/
  | unlockWrite (w : Writer) (addr : Word)
  /-- R12: The unlock window closes at the end of cycle 32 when no write of that writer to the block has closed it earlier. -/
  | unlockWindowExpiry (w : Writer) (addr : Word)
  /-- R33: A handshake crossing delivers an item 4 to 6 destination cycles after it was presented, or discards it into a halted cluster. -/
  | crossingDelivery (src dst : Island)
  /-- R32: The resonator has stopped or deviated by more than 1 % for 4 µs; all PWM balls go off, a Touchmark record is written and the device is held in reset. -/
  | clockFail (ppm : Option Nat)
  /-- R37: At each 1,024-tick boundary, copies are loaded or compared with the master and pending steps and mode changes apply. -/
  | deviceTimeBoundary
  /-- R41: A write of GLB_TIME_STEP schedules a step for the next boundary, or is discarded in SEAM mode with step_refused set. -/
  | glbTimeStepWrite (w : Writer) (v : Word)
  /-- R31: A write of GLB_CLK_TRIM scales both PLL references by 1 + trim × 10^-9, saturating, or is discarded in SEAM mode. -/
  | glbClkTrimWrite (w : Writer) (v : Word)
  /-- R43: A read of GLB_TIME_LO or GLB_SYNC_IN_LAT_LO captures the matching high half into its HI_SNAP register. -/
  | glbTimeLoRead (lat : Bool)
  /-- R40: A rising SYNC_IN edge latches device time and, in SYNC_IN mode, corrects the trim or counts a spurious edge. -/
  | syncInEdge
  /-- R40: After four expected SYNC_IN edges are missing in a row, locked clears, the trim freezes and SYNC_LOST is queued. -/
  | syncLost
  /-- R42: The master copy reaches a multiple of out_period plus out_offset and SYNC_OUT goes high. -/
  | syncOutRise
  /-- R42: After out_width ticks high, SYNC_OUT returns low. -/
  | syncOutFall
  /-- R106: The tile's window delay expires and the sampling window of its channels opens. -/
  | windowOpen (a : Fin 64)
  /-- R106: The window closes at the sample instant S; window results are formed and DRW_TS takes S. -/
  | windowClose (a : Fin 64) (b0 b1 b2 : ChanBits)
  /-- R60: At S + 4 the Drawplate results stand on the tile path and the axis block evaluates its sample. -/
  | sampleResultsValid (a : Fin 64)
  /-- R60: At S + 8 the lane checks the input mask and starts the current law on the foreground bank or records a miss. -/
  | currentLawDispatch (a : Fin 64)
  /-- R62: With the lane free, the released background job with the earliest deadline starts on the background bank. -/
  | backgroundJobStart (n : Fin 16)
  /-- R62: A background job that has not executed END by its deadline is abandoned, its publish buffer discarded and a miss counted. -/
  | backgroundDeadline (n : Fin 16)
  /-- R60: At S + 280 the duties leave the output stage and stand in the PWM shadow registers at S + 288. -/
  | dutyRelease (a : Fin 64)
  /-- R67: At the first clear ccyc the staged slot registers of a lane apply together, with the sample counts, jobs and laws adjusted. -/
  | admissionCommit (n : Fin 16)
  /-- R70: A bench-core write of PLN_COMMIT marks slots for the commit; their bits read 1 until applied. -/
  | plnCommitWrite (w : Writer) (c : Fin 4) (v : Word)
  /-- R47: A bench-core write of PLN_LS_DATA_HI stores a law-store word unless it is bound, and increments word. -/
  | lawStoreWrite (w : Writer) (c : Fin 4) (v : Word)
  /-- R70: A read of PLN_LS_DATA_LO fetches a word, captures its high half and increments word. -/
  | lawStoreRead (c : Fin 4)
  /-- R50: A bench-core gain-store write is applied, or staged for an ARMED, ENABLED or FAULTED axis; other writers are refused. -/
  | gainStoreWrite (w : Writer) (n : Fin 16) (ls : Fin 4) (ix : Fin 256) (v : Word)
  /-- R49: A fabric write of a variable-file word takes effect between two instructions, or is refused for private words outside ADMITTED. -/
  | variableFileWrite (w : Writer) (n : Fin 16) (ls : Fin 4) (ix : Fin 256) (v : Word)
  /-- R52: Lane NOP does nothing for 1 ccyc. -/
  | laneNop (n : Fin 16)
  /-- R62: END ends the law and, in a background law, commits the publish buffer. -/
  | laneEnd (n : Fin 16)
  /-- R52: LDI loads an immediate into a working register. -/
  | laneLdi (n : Fin 16)
  /-- R52: LDV loads a variable-file word, or the buffered value in a background law. -/
  | laneLdv (n : Fin 16)
  /-- R52: STV writes a variable-file word, through the publish buffer in a background law. -/
  | laneStv (n : Fin 16)
  /-- R56: IN reads an input port of the sample. -/
  | laneIn (n : Fin 16)
  /-- R56: OUT writes an output port such as a phase duty or EMU. -/
  | laneOut (n : Fin 16)
  /-- R52: LDG reads a gain word of the active region. -/
  | laneLdg (n : Fin 16)
  /-- R55: LDM reads ingot data through the share port in 3 to 6 ccyc. -/
  | laneLdm (n : Fin 16)
  /-- R55: STM writes an ingot word with tag RAW through the share port. -/
  | laneStm (n : Fin 16)
  /-- R52: ADD adds two registers, wrapping or saturating. -/
  | laneAdd (n : Fin 16)
  /-- R52: SUB subtracts two registers. -/
  | laneSub (n : Fin 16)
  /-- R52: ADDI adds an immediate. -/
  | laneAddi (n : Fin 16)
  /-- R52: NEG negates a register. -/
  | laneNeg (n : Fin 16)
  /-- R52: ABS takes the magnitude of a register. -/
  | laneAbs (n : Fin 16)
  /-- R52: MIN takes the smaller of two registers. -/
  | laneMin (n : Fin 16)
  /-- R52: MAX takes the larger of two registers. -/
  | laneMax (n : Fin 16)
  /-- R52: LIM clamps a register to ±|b| and sets S when it clamps. -/
  | laneLim (n : Fin 16)
  /-- R52: AND forms a bitwise AND. -/
  | laneAnd (n : Fin 16)
  /-- R52: OR forms a bitwise OR. -/
  | laneOr (n : Fin 16)
  /-- R52: XOR forms a bitwise exclusive OR. -/
  | laneXor (n : Fin 16)
  /-- R52: SHL shifts left. -/
  | laneShl (n : Fin 16)
  /-- R52: SHR shifts right arithmetically, optionally rounding. -/
  | laneShr (n : Fin 16)
  /-- R52: CMP sets flags from a − b and clears S. -/
  | laneCmp (n : Fin 16)
  /-- R52: MOV copies a register. -/
  | laneMov (n : Fin 16)
  /-- R52: MUL forms a shifted 64-bit product in 2 ccyc. -/
  | laneMul (n : Fin 16)
  /-- R52: MULI multiplies by an immediate and shifts. -/
  | laneMuli (n : Fin 16)
  /-- R52: CLA clears the accumulator. -/
  | laneCla (n : Fin 16)
  /-- R53: LDA loads the 48-bit accumulator from a shifted register. -/
  | laneLda (n : Fin 16)
  /-- R53: MAC adds a shifted product to the accumulator. -/
  | laneMac (n : Fin 16)
  /-- R53: MSU subtracts a shifted product from the accumulator. -/
  | laneMsu (n : Fin 16)
  /-- R53: MACI adds a shifted immediate product to the accumulator. -/
  | laneMaci (n : Fin 16)
  /-- R53: ACX extracts shifted accumulator bits into a register. -/
  | laneAcx (n : Fin 16)
  /-- R53: DIV divides in 20 ccyc, with defined results for division by zero. -/
  | laneDiv (n : Fin 16)
  /-- R53: SINCOS writes the sine and cosine of an angle to two registers in 16 ccyc. -/
  | laneSincos (n : Fin 16)
  /-- R53: ROT rotates a vector by an angle in 16 ccyc. -/
  | laneRot (n : Fin 16)
  /-- R53: ATAN2 writes angle and magnitude of a vector in 18 ccyc. -/
  | laneAtan2 (n : Fin 16)
  /-- R54: SKIP omits the next imm words when its condition holds. -/
  | laneSkip (n : Fin 16)
  /-- R59: FAULT requests a law-raised fault cause of the slot's axis, recorded at END. -/
  | laneFault (n : Fin 16)
  /-- R52: EVT pulses one of the lane's law-event Flux sources. -/
  | laneEvt (n : Fin 16)
  /-- R98: A bench-core write of req ARM takes an ADMITTED axis to ARMED, or sets refused. -/
  | axsCtlArm (w : Writer) (a : Fin 64)
  /-- R98: A write of req ENABLE takes the axis towards ENABLED under R93. -/
  | axsCtlEnable (w : Writer) (a : Fin 64)
  /-- R98: A write of req STOP_RAMP ramps an ENABLED axis to ARMED. -/
  | axsCtlStopRamp (w : Writer) (a : Fin 64)
  /-- R98: A write of req STOP_STO stops an ENABLED axis to ARMED with outputs safe at once. -/
  | axsCtlStopSto (w : Writer) (a : Fin 64)
  /-- R98: A write of req DISARM takes an ARMED axis to ADMITTED. -/
  | axsCtlDisarm (w : Writer) (a : Fin 64)
  /-- R98: A write of req ACK acknowledges a FAULTED axis back to ADMITTED when allowed. -/
  | axsCtlAck (w : Writer) (a : Fin 64)
  /-- R89: Writing 0x0E to AXS_FAULT_REQ records cause SOFTWARE on a non-retired axis. -/
  | axsFaultReq (w : Writer) (a : Fin 64) (v : Word)
  /-- R92: After ramp_hold µs at rest, the ramp applies FR_STO and resp_done sets. -/
  | rampHoldEnd (a : Fin 64)
  /-- R92: A ramp that has not finished within ramp_tmax µs applies FR_STO at once. -/
  | rampTimeout (a : Fin 64)
  /-- R99: A DRW_CLK write starts or drains the modulator clock, or is discarded when it would change clk_div while running. -/
  | drwClkWrite (w : Writer) (n : Fin 16) (v : Word)
  /-- R99: A disabled modulator clock finishes its period and holds its ball low. -/
  | clockDrainEnd (n : Fin 16)
  /-- R101: The clock ball fails read-back at 4 consecutive edges; clk_fault and clk_lost set and an event is queued. -/
  | sdcReadbackFail (n : Fin 16)
  /-- R101: The first correctly read edge clears clk_lost and restarts settling. -/
  | sdcReadbackRecover (n : Fin 16)
  /-- R105: A continuous-mode channel delivers a decimated result every OSR bits. -/
  | continuousResult (h : Fin 192) (b : ChanBits)
  /-- R109: A run of stuck_len identical bits sets stuck and queues a measurement event. -/
  | stuckRun (h : Fin 192)
  /-- R111: oc_qual consecutive sinc2 outputs beyond a threshold qualify an overcurrent and act by oc_act. -/
  | overcurrentQualify (h : Fin 192) (b : ChanBits)
  /-- R110: A qualified overcurrent ends at the first output within both thresholds. -/
  | overcurrentRelease (h : Fin 192) (b : ChanBits)
  /-- R114: A DRW_OC_CFG write restarts qualification and applies a new oc_act to a qualified condition. -/
  | drwOcCfgWrite (w : Writer) (h : Fin 192) (v : Word)
  /-- R114: A DRW_OC_TH write sets new thresholds, or is discarded with th_err when lo_th ≥ hi_th. -/
  | drwOcThWrite (w : Writer) (h : Fin 192) (v : Word)
  /-- R115: A channel configuration write, admission-locked, may disable capture and discard the running window. -/
  | drwChCfgWrite (w : Writer) (h : Fin 192) (v : Word)
  /-- R117: The PWM counter reaches PEAK, pulsing PWM_PEAK and offering the event to the Drawplate tile. -/
  | pwmPeak (a : Fin 64)
  /-- R117: The PWM counter reaches VALLEY, pulsing PWM_VALLEY and offering the event to the Drawplate tile. -/
  | pwmValley (a : Fin 64)
  /-- R128: A qualified FLTaa_N assertion forces the axis's balls safe within 50 ns and records FLT_INPUT. -/
  | fltAssert (a : Fin 64)
  /-- R128: FLTaa_N high for flt_filt + 1 ccyc clears flt_live and removes FLT_INPUT from AXS_CAUSE_ACT. -/
  | fltRelease (a : Fin 64)
  /-- R129: A qualified STO_Ng assertion forces every mapped axis safe and records STO_REQUEST. -/
  | stoAssert (c : Fin 4) (g : Fin 8)
  /-- R129: STO_Ng high for sto_filt + 1 ccyc ends the assertion. -/
  | stoRelease (c : Fin 4) (g : Fin 8)
  /-- R130: A PWM_STO_MAP write adds bits, or is discarded with sto_refused when it would clear an active axis. -/
  | pwmStoMapWrite (w : Writer) (c : Fin 4) (g : Fin 8) (v : Word)
  /-- R141: An accepted A or B change moves the position counter by the cnt_mode. -/
  | encoderCount (a : Fin 64) (lvA lvB : Bool × Bool)
  /-- R146: A gated Z edge enters the counter and stamp into the index history and pulses FBK_IDX. -/
  | indexEvent (e : IndexEdge)
  /-- R143: A write of FBK_POS presets the counter while RETIRED or ADMITTED, or sets adm_lock. -/
  | fbkPosPreset (w : Writer) (a : Fin 64) (v : Word)
  /-- R147: A read of FBK_IDX_STAT copies the four index entries into their registers. -/
  | fbkIdxStatRead (a : Fin 64)
  /-- R149: A wire disagreement stands for dis_filt ccyc; dis_live and dis_seen set. -/
  | disagreementQualified (a : Fin 64) (pair : Fin 3)
  /-- R151: A disagreement qualified for dis_persist × 1,024 ccyc is classified as a cable fault. -/
  | disPersistExpiry (a : Fin 64)
  /-- R152: The regular-spacing compare hits, advances cmp, counts and may start a pulse on its ball and RSC. -/
  | rscHit (a : Fin 64)
  /-- R154: After pw ccyc the regular-spacing output pulse ends. -/
  | rscPulseEnd (a : Fin 64)
  /-- R152: A write of FBK_RSC_CMP evaluates the compare value against the count. -/
  | fbkRscCmpWrite (w : Writer) (a : Fin 64) (v : Word)
  /-- R152: A FBK_RSC_CFG write that arms or changes direction re-evaluates cmp. -/
  | fbkRscCfgWrite (w : Writer) (a : Fin 64) (v : Word)
  /-- R153: A step write sets the advance, or is discarded with cfg_err for 0 or an opposing sign. -/
  | fbkRscStepWrite (w : Writer) (a : Fin 64) (v : Word)
  /-- R158: A ratio write sets n and m, or is discarded with cfg_err for n = 0 or n > m. -/
  | fbkEoRatioWrite (w : Writer) (k : Fin 16) (v : Word)
  /-- R160: Setting or clearing en starts or stops an encoder output channel without a burst. -/
  | fbkEoCfgWrite (w : Writer) (k : Fin 16) (v : Word)
  /-- R175: A segment reaches T0 + dur, pulses SEG_END and counts; a CHAIN successor starts. -/
  | segmentEnd (a : Fin 64)
  /-- R174: A TIME segment's start compare against device time matches and T0 is set. -/
  | timeStart (a : Fin 64)
  /-- R179: The Ladle refills an axis queue with up to 16 stream records once 16 entries are free. -/
  | stRefill (a : Fin 64)
  /-- R173: A pulse on SEG_START starts a waiting EVENT segment, latches early, or only sets seen. -/
  | segStart (a : Fin 64)
  /-- R182: A pulse on GRP_START starts the next step of a coordination group. -/
  | grpStart (g : Fin 32)
  /-- R132: A pulse on PWM_HOLD starts or restarts skipping hold_cnt update points. -/
  | pwmHold (a : Fin 64)
  /-- R200: A pulse on TMR_IN acts on a timer by its input role. -/
  | tmrIn (t : Fin 128)
  /-- R192: A pulse on CAP stores an axis's live counter and device time, setting full or ovr. -/
  | cap (k : Fin 64)
  /-- R222: A pulse on CHS_SYNC releases an engine waiting at SYNC with src = 1. -/
  | chsSync (e : Fin 32)
  /-- R483: A pulse on EVC_IN snapshots cluster event counter n when snap_en is set. -/
  | evcIn (n : Fin 64)
  /-- R233: A pulse on CRU_START sends the trigger's device time to the analogue island. -/
  | cruStart (c : Fin 4) (k : Fin 4)
  /-- R190: A pulse on COMB_ARM re-arms a combiner and clears its latches. -/
  | combArm (k : Fin 32)
  /-- R190: The combiner's condition holds while armed; COMB pulses, latches clear and a one-shot disarms. -/
  | combinerFire (k : Fin 32)
  /-- R190: A write of rearm re-arms a combiner and clears its latches. -/
  | combRearm (w : Writer) (k : Fin 32) (v : Word)
  /-- R191: An exported source arrives over the timed crossing and IMP pulses in the importing cluster. -/
  | importPulse (tgt src : Fin 4) (k : Fin 8)
  /-- R192: A write of FLX_SWFIRE pulses the selected SW sources in the next ccyc. -/
  | flxSwfire (w : Writer) (c : Fin 4) (v : Word)
  /-- R189: Enabling a window or writing lo or hi re-evaluates it and may pulse late. -/
  | flxWinWrite (w : Writer) (a : Fin 64) (r : Fin 3) (v : Word)
  /-- R192: A read of the capture's high snap clears full. -/
  | flxCapTHiSnapRead (k : Fin 64)
  /-- R191: An import write that names its own or a disabled cluster is discarded with cfg_err. -/
  | flxImportWrite (w : Writer) (c : Fin 4) (k : Fin 8) (v : Word)
  /-- R181: A group-table write changes membership only while members are RETIRED or ADMITTED. -/
  | flxGrpWrite (w : Writer) (g : Fin 32) (r : Fin 3) (v : Word)
  /-- R197: An increment from top yields 0, performs the overflow actions and, with opm, stops the timer. -/
  | timerOverflow (t : Fin 128)
  /-- R198: Compare A or B matches, sets its flag, acts on the output level and may pulse TMR and interrupt. -/
  | timerMatch (t : Fin 128) (isB : Bool)
  /-- R199: A GPIO ball edge acts on a timer by its input role 3 ccyc later. -/
  | timerInputEdge (c : Fin 4) (b : Fin 16) (rising : Bool)
  /-- R208: A write of TMR_CNT presets the count and evaluates both compares. -/
  | tmrCntWrite (w : Writer) (t : Fin 128) (v : Word)
  /-- R198: A write of CMPA or CMPB evaluates the compare against the count. -/
  | tmrCmpWrite (w : Writer) (t : Fin 128) (isB : Bool) (v : Word)
  /-- R202: A write of out_set or out_clr sets, clears or toggles the output level. -/
  | tmrOutWrite (w : Writer) (t : Fin 128) (v : Word)
  /-- R209: A TMR_CFG write enables, disables or links a timer, or is discarded for a reserved combination. -/
  | tmrCfgWrite (w : Writer) (t : Fin 128) (v : Word)
  /-- R205: A read of a linked low TMR_CNT captures the high half, delayed by the carry guard. -/
  | tmrCntRead (t : Fin 128)
  /-- R205: A read of TMR_CAP clears cap_full. -/
  | tmrCapRead (t : Fin 128)
  /-- R207: A write of snap copies all 32 counts and the device time in one ccyc. -/
  | tmrSnap (w : Writer) (c : Fin 4)
  /-- R203: A GPIO function write assigns the ball, or is discarded with cfg_err. -/
  | tmrGpioCfgWrite (w : Writer) (c : Fin 4) (n : Fin 16) (v : Word)
  /-- R216: Engine NOP applies only its side field. -/
  | chsNop (e : Fin 32)
  /-- R217: SHIFT moves n bits through FRM, sending, receiving or both. -/
  | shift (e : Fin 32) (rx : List Bool)
  /-- R216: EXPECT receives k bits against a pattern and sets M on a difference. -/
  | expect (e : Fin 32) (rx : List Bool)
  /-- R216: WAITEDGE waits for an edge on a pin, with an optional timeout. -/
  | waitedge (e : Fin 32)
  /-- R216: The awaited edge is seen; the successor begins next ccyc with the step timer restarted. -/
  | waitedgeEdge (e : Fin 32)
  /-- R216: The WAITEDGE timeout expires; T sets and the instruction ends. -/
  | waitedgeTimeout (e : Fin 32)
  /-- R216: COUNT loads LC with an immediate and sets Z. -/
  | countLoad (e : Fin 32)
  /-- R216: COUNT decrements LC, stopping at 0, and sets Z. -/
  | countDecrement (e : Fin 32)
  /-- R216: COUNT waits for imm steps. -/
  | countWait (e : Fin 32)
  /-- R216: EMIT pulses CHS and or sets irq. -/
  | emit (e : Fin 32)
  /-- R219: LATCH stamps device time and or publishes a word to the position port. -/
  | latch (e : Fin 32)
  /-- R218: CRCSTEP INIT loads crc_init, clears C and stops feeding. -/
  | crcstepInit (e : Fin 32)
  /-- R218: CRCSTEP FEED starts feeding bits to the CRC unit. -/
  | crcstepFeed (e : Fin 32)
  /-- R218: CRCSTEP HALT stops feeding. -/
  | crcstepHalt (e : Fin 32)
  /-- R218: CRCSTEP CHECK sets C when crc equals crc_res. -/
  | crcstepCheck (e : Fin 32)
  /-- R216: BRANCH sets PC to target when its condition holds. -/
  | branch (e : Fin 32)
  /-- R222: SYNC waits at a group barrier or for a CHS_SYNC pulse. -/
  | sync (e : Fin 32)
  /-- R220: PUT pushes a word to the outbound queue or writes it to ingot. -/
  | put (e : Fin 32)
  /-- R220: GET loads FRM[63:32] from the inbound queue, stalling while empty. -/
  | get (e : Fin 32)
  /-- R216: LDF loads FRM[63:48] with an immediate. -/
  | ldf (e : Fin 32)
  /-- R216: CLR clears the selected items of FRM, bit count, flags and LC. -/
  | clr (e : Fin 32)
  /-- R221: Setting en starts an engine at start_pc with cleared state. -/
  | chsEnable (w : Writer) (e : Fin 32) (v : Word)
  /-- R225: Clearing en stops the engine next ccyc, drops its frame and clears the port's valid flag. -/
  | chsDisable (w : Writer) (e : Fin 32) (v : Word)
  /-- R221: A CHS_GSTART write starts every named stopped engine in the same ccyc. -/
  | chsGstart (w : Writer) (c : Fin 4) (v : Word)
  /-- R223: Setting hold stops the engine at the end of its step. -/
  | chsHold (w : Writer) (e : Fin 32) (v : Word)
  /-- R223: Clearing hold resumes the engine and applies a remembered SYNC release. -/
  | chsResume (w : Writer) (e : Fin 32) (v : Word)
  /-- R220: A write of CHS_INQ pushes a word, or sets inq_ovr when full. -/
  | chsInqWrite (w : Writer) (e : Fin 32) (v : Word)
  /-- R220: A read of CHS_OUTQ pops a word, or returns 0 and sets outq_udr. -/
  | chsOutqRead (e : Fin 32)
  /-- R224: A program or loop write to a running engine is refused unless live_patch is set. -/
  | chsProgWrite (w : Writer) (e : Fin 32) (ix : Option (Fin 64)) (v : Word)
  /-- R233: A Crucible trigger reaches the analogue island and its delay counter starts. -/
  | triggerArrival (k : Fin 4) (l : Fin 3)
  /-- R234: The delay counter matches dly and the selected converters start integration. -/
  | triggerDelayMatch (k : Fin 4)
  /-- R234: A write of dly while counting evaluates it against the count. -/
  | cruTrgDlyWrite (w : Writer) (k : Fin 4) (v : Word)
  /-- R234: Writing go starts the converter in the next icyc. -/
  | cruGo (w : Writer) (j : Fin 16) (v : Word)
  /-- R232: T_int icyc of integration end and the 400-icyc rundown begins. -/
  | integrationEnd (j : Fin 16)
  /-- R232: Rundown ends and the result stands with its flags. -/
  | conversionEnd (j : Fin 16) (ain : List Int) (exc : Option Nat)
  /-- R235: Clearing en aborts a conversion; other writes while busy are discarded with cfg_err. -/
  | cruCfgWrite (w : Writer) (j : Fin 16) (v : Word)
  /-- R231: Setting ref_en starts the reference; clearing it aborts conversions and drives EXC to 0 V. -/
  | cruRefCtlWrite (w : Writer) (v : Word)
  /-- R231: 2 ms after ref_en, ref_ok sets. -/
  | refOk
  /-- R231: 2 ms after an excitation output is enabled, its exc_ok bit sets. -/
  | excOk (k : Fin 4)
  /-- R230: An excitation output exceeds 12 mA, limits and sets exc_ilim. -/
  | excCurrentLimit (k : Fin 4)
  /-- R250: Anvil NOP does nothing for 2 acyc. -/
  | nop (k : Fin 19)
  /-- R247: ADD adds two registers under the tag rules. -/
  | add (k : Fin 19)
  /-- R247: SUB subtracts two registers under the tag rules. -/
  | sub (k : Fin 19)
  /-- R247: AND forms a bitwise AND. -/
  | and (k : Fin 19)
  /-- R247: OR forms a bitwise OR. -/
  | or (k : Fin 19)
  /-- R247: XOR forms a bitwise exclusive OR. -/
  | xor (k : Fin 19)
  /-- R247: SHL shifts left by a register count. -/
  | shl (k : Fin 19)
  /-- R247: SHR shifts right arithmetically. -/
  | shr (k : Fin 19)
  /-- R247: SHRU shifts right logically. -/
  | shru (k : Fin 19)
  /-- R247: MIN takes the signed minimum. -/
  | min (k : Fin 19)
  /-- R247: MAX takes the signed maximum. -/
  | max (k : Fin 19)
  /-- R247: MOV copies a register with its tag. -/
  | mov (k : Fin 19)
  /-- R247: NEG negates a register. -/
  | neg (k : Fin 19)
  /-- R247: ABS takes a register's magnitude. -/
  | abs (k : Fin 19)
  /-- R240: MFS reads a special register. -/
  | mfs (k : Fin 19)
  /-- R240: MTS writes a special register where the ring allows. -/
  | mts (k : Fin 19)
  /-- R247: ADDI adds a signed immediate. -/
  | addi (k : Fin 19)
  /-- R247: ANDI ANDs an immediate. -/
  | andi (k : Fin 19)
  /-- R247: ORI ORs an immediate. -/
  | ori (k : Fin 19)
  /-- R247: XORI XORs an immediate. -/
  | xori (k : Fin 19)
  /-- R247: SHLI shifts left by an immediate. -/
  | shli (k : Fin 19)
  /-- R247: SHRI shifts right arithmetically by an immediate. -/
  | shri (k : Fin 19)
  /-- R247: SHRUI shifts right logically by an immediate. -/
  | shrui (k : Fin 19)
  /-- R256: REP repeats the next instruction a counted number of times, interruptibly. -/
  | rep (k : Fin 19)
  /-- R250: LDI loads a sign-extended immediate, RAW. -/
  | ldi (k : Fin 19)
  /-- R250: LDIH sets the upper half of a register. -/
  | ldih (k : Fin 19)
  /-- R250: TAG copies a register with a new tag. -/
  | tag (k : Fin 19)
  /-- R250: GTAG reads a register's tag as INT. -/
  | gtag (k : Fin 19)
  /-- R249: CMP sets a predicate from a condition on two registers. -/
  | cmp (k : Fin 19)
  /-- R249: CMPI sets a predicate from a condition against an immediate. -/
  | cmpi (k : Fin 19)
  /-- R249: PLOG combines two predicates. -/
  | plog (k : Fin 19)
  /-- R257: REPN repeats the next simple instruction 1 to 4 times without interrupts. -/
  | repn (k : Fin 19)
  /-- R247: MUL dispatches a multiplication to the MUL unit. -/
  | mul (k : Fin 19)
  /-- R250: MULH dispatches the high half of a signed product. -/
  | mulh (k : Fin 19)
  /-- R250: MAC dispatches a 64-bit multiply-accumulate into a register pair. -/
  | mac (k : Fin 19)
  /-- R250: FADD dispatches a binary32 addition. -/
  | fadd (k : Fin 19)
  /-- R250: FSUB dispatches a binary32 subtraction. -/
  | fsub (k : Fin 19)
  /-- R250: FMUL dispatches a binary32 multiplication. -/
  | fmul (k : Fin 19)
  /-- R249: FCMP dispatches a binary32 comparison into a predicate. -/
  | fcmp (k : Fin 19)
  /-- R250: FCVT dispatches a conversion between F32 and integer or fixed point. -/
  | fcvt (k : Fin 19)
  /-- R250: SQRT dispatches a square root. -/
  | sqrt (k : Fin 19)
  /-- R250: DIV dispatches a division. -/
  | div (k : Fin 19)
  /-- R250: REM dispatches a remainder. -/
  | rem (k : Fin 19)
  /-- R250: SINCOS dispatches sine and cosine of an angle. -/
  | sincos (k : Fin 19)
  /-- R250: ATAN2 dispatches angle and magnitude of a vector. -/
  | atan2 (k : Fin 19)
  /-- R258: INA reads an agreed input port, once for a pair. -/
  | ina (k : Fin 19)
  /-- R259: CHKPT folds the core state and store signature into a checkpoint value for Assay. -/
  | chkpt (k : Fin 19)
  /-- R252: SYNC.S drains the store buffer, makes a late store error precise and flushes the prefetch queue. -/
  | syncS (k : Fin 19)
  /-- R246: LD loads a word with its tag from ingot, or RAW elsewhere. -/
  | ld (k : Fin 19)
  /-- R246: LDR loads a word as RAW. -/
  | ldr (k : Fin 19)
  /-- R246: ST stores a word with its tag into the store buffer. -/
  | st (k : Fin 19)
  /-- R246: STR stores a word as RAW. -/
  | str (k : Fin 19)
  /-- R246: LDB loads a zero-extended byte. -/
  | ldb (k : Fin 19)
  /-- R246: STB stores a byte and makes the word's tag RAW. -/
  | stb (k : Fin 19)
  /-- R279: LDX loads a word and sets the exclusive monitor. -/
  | ldx (k : Fin 19)
  /-- R279: STX stores only while the monitor holds its address and reports success. -/
  | stx (k : Fin 19)
  /-- R250: MOVBK sets the bank register. -/
  | movbk (k : Fin 19)
  /-- R263: CALLG calls through a gate descriptor into a lower ring. -/
  | callg (k : Fin 19)
  /-- R250: BR branches by a word offset. -/
  | br (k : Fin 19)
  /-- R250: CALL writes the return address to W14 and branches. -/
  | call (k : Fin 19)
  /-- R250: JR jumps to the address in a register. -/
  | jr (k : Fin 19)
  /-- R264: RETG returns through the gate return slot of the current ring. -/
  | retg (k : Fin 19)
  /-- R274: RETI restores the interrupted context from its task-state block and re-dispatches saved stations. -/
  | reti (k : Fin 19)
  /-- R277: WAIT halts execution until a pending input exceeds ipl. -/
  | wait (k : Fin 19)
  /-- R277: A pending input above ipl ends WAIT; it is taken if ie = 1. -/
  | waitEnd (k : Fin 19)
  /-- R267: BRK raises the BRK exception or halts under a debug session. -/
  | brk (k : Fin 19)
  /-- R250: TRAP raises the TRAP exception with a code. -/
  | trap (k : Fin 19)
  /-- R260: A reserved encoding raises UNDEF whatever the guard. -/
  | undefEncoding (k : Fin 19)
  /-- R253: A side unit's result reaches the register file through the write port. -/
  | sideUnitResult (k : Fin 19) (n : Fin 12)
  /-- R251: The data of a core load arrives after its crossing and the core continues. -/
  | loadComplete (k : Fin 19)
  /-- R252: A buffered store completes at its target in the background. -/
  | storeComplete (k : Fin 19) (n : Fin 4)
  /-- R270: A held store failure is taken as LATE_STORE_ERROR at the next instruction boundary. -/
  | lateStoreError (k : Fin 19)
  /-- R277: The highest pending input above ipl is recognised and its entry runs. -/
  | interruptRecognition (k : Fin 19)
  /-- R281: The core watchdog expires: WDT_WARN at first, LOCKOUT at a second expiry. -/
  | coreWdtExpiry (k : Fin 18)
  /-- R281: The core's own write of 0x3C96 reloads its watchdog. -/
  | anvWdtKick (w : Writer) (k : Fin 18) (v : Word)
  /-- R282: The cluster watchdog expires; axes record CLUSTER_WDT and an event is posted. -/
  | clusterWdtExpiry (c : Fin 4)
  /-- R282: Half a period after a reload the warning source asserts. -/
  | clusterWdtWarning (c : Fin 4)
  /-- R282: A core marks itself kicked; the count reloads when all of kick_mask are marked. -/
  | anvCwdtKick (w : Writer) (c : Fin 4) (v : Word)
  /-- R285: An owner-field write from an entitled writer starts a hand-over, otherwise sets own_refused. -/
  | ingBankOwnWrite (w : Writer) (b : Fin 72) (v : Word)
  /-- R285: After the old owner's stores drain, the new owner holds the owner port. -/
  | ownerHandover (b : Fin 72)
  /-- R293: The bank march test finishes with the bank cleared and its outcome reported. -/
  | marchTestEnd (b : Fin 72) (first : Option (Fin 16384))
  /-- R295: Every scrub_iv µs the controller reads one DDR4 block and writes back corrected data. -/
  | patrolScrub
  /-- R296: A BAR2 request is served in 4-byte pieces inside enabled host windows. -/
  | bar2Access (wr poisoned : Bool) (x : Fin 0x10000000) (ps : List (Option Word))
  /-- R304: Both cores' output entries stand and are compared; agreed writes leave as the primary's. -/
  | outputCompare (q : Fin 9)
  /-- R305: Both cores' checkpoint values stand and are compared. -/
  | checkpointCompare (q : Fin 9)
  /-- R306: The lag timer reaches lag_max × 64 acyc and a lag mismatch is recorded. -/
  | lagExpiry (q : Fin 9)
  /-- R309: A bench-core write of req_split requests SPLIT of a core pair. -/
  | reqSplit (w : Writer) (q : Fin 9)
  /-- R310: A bench-core write of req_merge requests MERGE of a core pair. -/
  | reqMerge (w : Writer) (q : Fin 9)
  /-- R309: At an agreed checkpoint or blocked boundary the pair splits and the shadow restores a new task. -/
  | splitApply (q : Fin 9)
  /-- R310: When both cores wait in CHKPT, mirror banks and primary state are copied to the shadow. -/
  | mergeCopy (q : Fin 9)
  /-- R310: The copy ends, comparison starts and both cores continue. -/
  | mergeComplete (q : Fin 9)
  /-- R303: An input-map write outside the register range or naming ASY is discarded with cfg_err. -/
  | asyInaMapWrite (w : Writer) (c : Fin 5) (n : Fin 8) (v : Word)
  /-- R321: A configuration request is served, or retried until fw_ready. -/
  | configRequest (q : CfgReq)
  /-- R323: A BAR0 memory request is performed, treated as reserved, or completes with Completer Abort. -/
  | bar0Request (wr poisoned : Bool) (off : Fin 0x1000000) (len : Fin 4096) (lo hi : Word)
  /-- R324: A host completion with UR, CA or poison fails the Ladle transfer that requested it. -/
  | hostCompletionError (sq : Fin 4096) (fetch poison : Bool) (n : Nat)
  /-- R324: A Ladle request's completion timeout expires and its transfer fails. -/
  | completionTimeout (sq : Fin 4096) (fetch : Bool) (n : Nat)
  /-- R327: PERST_N assertion optionally stops axes and resets the host island, or the device with perst_dev. -/
  | perstAssert
  /-- R327: PERST_N release reloads bench firmware and the link trains. -/
  | perstRelease (refclk : Bool)
  /-- R327: A hot reset, link disable or DL_Down acts as a PERST_N assertion. -/
  | dlDown
  /-- R318: Writing retrain retrains the PCIe link under max_gen and max_width. -/
  | linkRetrain (w : Writer) (v : Word) (gen : Fin 8) (width : Fin 4)
  /-- R326: Entry to D3hot stops Ladle fetching after fetched commands complete. -/
  | d3hotEntry
  /-- R326: Return to D0 resumes the Ladle from its kept ring state. -/
  | d0Return
  /-- R325: tmo µs after the first unsignalled record, a vector sends its message. -/
  | msixTimeout (v : Fin 64)
  /-- R325: Unmasking a vector with its pending bit set sends one message. -/
  | msixUnmask (v : Fin 64)
  /-- R334: A BAR0 doorbell write advances a ring's tail or head, or is discarded with db_err. -/
  | doorbell (w : Writer) (r : Fin 4096) (v : Word)
  /-- R340: A fetched burst of descriptors is checked and dispatched to the fast path or firmware. -/
  | descriptorFetch (r : Fin 4096)
  /-- R344: A completed command's record is written when its CQ has room. -/
  | completionWrite (r : Fin 4096)
  /-- R350: A buffered event record is written to its EQ when room exists. -/
  | eventRecordWrite (q : Fin 4096)
  /-- R331: Setting en creates the admin rings; clearing it deletes them when no other ring exists. -/
  | ldlAdminCtlWrite (w : Writer) (v : Word)
  /-- R359: NOP command completes with OK. -/
  | cmdNop (sq : Fin 4096)
  /-- R5: IDENTIFY returns GLB_ID and the bench firmware version. -/
  | identify (sq : Fin 4096)
  /-- R332: RING_CREATE creates a ring of the given type, size and settings. -/
  | ringCreate (sq : Fin 4096)
  /-- R348: RING_DELETE deletes a ring by its type's rules. -/
  | ringDelete (sq : Fin 4096)
  /-- R360: EVT_ROUTE routes an event class to an EQ. -/
  | evtRoute (sq : Fin 4096)
  /-- R361: RESET scope 1 resets a cluster whose axes are at rest. -/
  | resetCluster (sq : Fin 4096)
  /-- R361: RESET scope 2 acts as PERST_N 1 ms after completion. -/
  | resetHostIsland (sq : Fin 4096)
  /-- R361: RESET scope 3 acts as SYS_RST_N 1 ms after completion. -/
  | resetDevice (sq : Fin 4096)
  /-- R361: 1 ms after a scope 2 or 3 completion, the reset takes effect. -/
  | resetCommandEffect
  /-- R362: SESSION_NONCE writes a fresh 32-byte nonce. -/
  | sessionNonce (sq : Fin 4096)
  /-- R362: SESSION_OPEN checks the owner signature and establishes a session key. -/
  | sessionOpen (sq : Fin 4096)
  /-- R363: AXIS_ADMIT admits axes onto lanes through admission and commit. -/
  | axisAdmit (sq : Fin 4096)
  /-- R364: AXIS_RETIRE runs the fault response and clears the slot. -/
  | axisRetire (sq : Fin 4096)
  /-- R364: AXIS_ENABLE stage ARM takes an ADMITTED axis to ARMED. -/
  | axisEnableArm (sq : Fin 4096)
  /-- R364: AXIS_ENABLE stage ENABLE takes the axis to ENABLED, or times out in ARMED. -/
  | axisEnable (sq : Fin 4096)
  /-- R364: AXIS_DISABLE with stop RAMP ramps an ENABLED axis down, disarms or acknowledges. -/
  | axisDisableRamp (sq : Fin 4096)
  /-- R364: AXIS_DISABLE with stop STO stops an ENABLED axis at once, disarms or acknowledges. -/
  | axisDisableSto (sq : Fin 4096)
  /-- R365: LAW_LOAD checks a law image, writes it to the law store and optionally binds it. -/
  | lawLoad (sq : Fin 4096)
  /-- R366: GAINSET_WRITE writes or stages gain words into regions. -/
  | gainsetWrite (sq : Fin 4096)
  /-- R178: SEG_APPEND checks and enqueues a segment entry. -/
  | segAppend (sq : Fin 4096)
  /-- R180: SEG_FLUSH discards unstarted segments and unbinds the stream. -/
  | segFlush (sq : Fin 4096)
  /-- R367: SEG_STREAM op 1 binds an ST ring to an axis. -/
  | segStreamBind (sq : Fin 4096)
  /-- R367: SEG_STREAM op 0 unbinds the ring, keeping queued records. -/
  | segStreamUnbind (sq : Fin 4096)
  /-- R368: CAM_LOAD writes a cam table unless a running CAM segment reads it. -/
  | camLoad (sq : Fin 4096)
  /-- R368: GROUP_SET writes a coordination group's table. -/
  | groupSet (sq : Fin 4096)
  /-- R369: SETPOINT_PUT writes parameter words of the axis's slot. -/
  | setpointPut (sq : Fin 4096)
  /-- R369: FLUX_FIRE pulses the masked SW sources and reports the time. -/
  | fluxFire (sq : Fin 4096)
  /-- R370: FEEDER_POLL_SET stages a poll list that applies at a round boundary. -/
  | feederPollSet (sq : Fin 4096)
  /-- R370: FEEDER_READ copies node mailboxes to a buffer. -/
  | feederRead (sq : Fin 4096)
  /-- R370: FEEDER_CMD writes a node's command mailbox and marks it pending. -/
  | feederCmd (sq : Fin 4096)
  /-- R371: CAPTURE_START starts a variable capture into DDR4. -/
  | captureStart (sq : Fin 4096)
  /-- R486: CAPTURE_STOP stops a capture and posts CAPTURE_STOPPED. -/
  | captureStop (sq : Fin 4096)
  /-- R372: TMR_SNAPSHOT takes a cluster timer snapshot. -/
  | tmrSnapshot (sq : Fin 4096)
  /-- R372: CRU_CONVERT starts a conversion and completes with its result. -/
  | cruConvert (sq : Fin 4096)
  /-- R403: SEAM_MBOX_SEND sends a mailbox message and waits for its ack. -/
  | seamMboxSend (sq : Fin 4096)
  /-- R402: SEAM_EVENT sends a scheduled event frame. -/
  | seamEvent (sq : Fin 4096)
  /-- R404: SEAM_MEMBER op 1 joins the Seam network at an epoch boundary. -/
  | seamMemberJoin (sq : Fin 4096)
  /-- R405: SEAM_MEMBER op 2 leaves the network at an epoch boundary. -/
  | seamMemberLeave (sq : Fin 4096)
  /-- R414: FLASH_READ reads flash through the ROM routine. -/
  | flashRead (sq : Fin 4096)
  /-- R416: FLASH_ERASE erases sectors with journal bracketing. -/
  | flashErase (sq : Fin 4096)
  /-- R415: FLASH_PROGRAM blank-checks, programs and verifies pages. -/
  | flashProgram (sq : Fin 4096)
  /-- R421: REGION_WRITE writes and commits a new region generation. -/
  | regionWrite (sq : Fin 4096)
  /-- R422: REGION_READ returns the current region generation. -/
  | regionRead (sq : Fin 4096)
  /-- R425: FW_UPDATE writes and verifies a bench image into the non-booted slot. -/
  | fwUpdate (sq : Fin 4096)
  /-- R425: FW_SELECT programs the next select sequence into a verified slot. -/
  | fwSelect (sq : Fin 4096)
  /-- R375: SESSION_CLOSE ends a session. -/
  | sessionClose (sq : Fin 4096)
  /-- R375: AUTH_MARK sets the mask of classes requiring authentication. -/
  | authMark (sq : Fin 4096)
  /-- R441: LIFECYCLE_SET programs an allowed lifecycle transition. -/
  | lifecycleSet (sq : Fin 4096)
  /-- R375: SECURITY_STATUS returns lifecycle, certification, debug level and mask. -/
  | securityStatus (sq : Fin 4096)
  /-- R443: PROVISION programs owner key, image key, IDs and serial in BLANK. -/
  | provision (sq : Fin 4096)
  /-- R376: EVC_DUMP writes all 96 counters taken at one instant. -/
  | evcDump (sq : Fin 4096)
  /-- R293: BANK_MARCH starts the march test of a free bank. -/
  | bankMarch (sq : Fin 4096)
  /-- R376: TOUCHMARK_READ writes Touchmark records to a buffer. -/
  | touchmarkRead (sq : Fin 4096)
  /-- R377: DEBUG_CHALLENGE writes a fresh debug challenge. -/
  | debugChallenge (sq : Fin 4096)
  /-- R377: DEBUG_UNLOCK grants OBSERVE over PCI Express against an owner signature. -/
  | debugUnlock (sq : Fin 4096)
  /-- R448: DEBUG_LOCK lapses the PCI Express grant. -/
  | debugLock (sq : Fin 4096)
  /-- R377: PEEK reads fabric memory through the peek path. -/
  | peek (sq : Fin 4096)
  /-- R378: MEM_READ copies fabric memory to host memory. -/
  | memRead (sq : Fin 4096)
  /-- R378: MEM_WRITE copies host memory to fabric memory. -/
  | memWrite (sq : Fin 4096)
  /-- R378: MEM_COPY copies between fabric ranges. -/
  | memCopy (sq : Fin 4096)
  /-- R378: MEM_FILL fills a fabric range with a pattern word. -/
  | memFill (sq : Fin 4096)
  /-- R379: CORE_LOAD checks and places a cluster core image. -/
  | coreLoad (sq : Fin 4096)
  /-- R379: CORE_START starts a stopped cluster core at its entry. -/
  | coreStart (sq : Fin 4096)
  /-- R379: CORE_RESET stops a core and ends its LOCKOUT. -/
  | coreReset (sq : Fin 4096)
  /-- R380: PAIR op SPLIT splits a core pair or a lane pair. -/
  | pairSplit (sq : Fin 4096)
  /-- R380: PAIR op MERGE merges a core pair or a lane pair. -/
  | pairMerge (sq : Fin 4096)
  /-- R380: ENGINE_GSTART starts engines together as a CHS_GSTART write. -/
  | engineGstart (sq : Fin 4096)
  /-- R385: A poll round begins over the active list, with a staged list applied. -/
  | solderRoundStart (p : Fin 8)
  /-- R384: A POLL transaction with a node is decided at the end of its slot. -/
  | slotPoll (p : Fin 8) (r : Option (List Bool))
  /-- R384: A READ transaction stores the node's status block. -/
  | slotRead (p : Fin 8) (r : Option (List Bool))
  /-- R384: A CMD transaction sends the node's command mailbox. -/
  | slotCmd (p : Fin 8) (r : Option (List Bool))
  /-- R384: A BROADCAST slot opens the round and sends the broadcast mailbox. -/
  | slotBroadcast (p : Fin 8)
  /-- R385: A write of list_req stages SLD_LIST_NEXT for the next round. -/
  | sldListReq (w : Writer) (p : Fin 8) (v : Word)
  /-- R389: A write of SLD_CMD_PEND marks node commands pending. -/
  | sldCmdPendWrite (w : Writer) (p : Fin 8) (ix : Fin 4) (v : Word)
  /-- R391: An SLD_CTL write enables a port or drains it after the current slot. -/
  | sldCtlWrite (w : Writer) (p : Fin 8) (v : Word)
  /-- R398: The keeper starts a cycle by sending TIME and CYCLIC frames. -/
  | seamCycleStart
  /-- R401: A TIME frame is corrected, forwarded and disciplines the member's time. -/
  | timeFrame (a : Fin 2) (f : Frame)
  /-- R399: A CYCLIC frame visit writes the member's section or stores the receive bank. -/
  | cyclicFrame (a : Fin 2) (f : Frame)
  /-- R402: A received EVENT frame schedules event k at device time t. -/
  | eventFrame (a : Fin 2) (f : Frame)
  /-- R39: A scheduled Seam event pulses SEAM[k] where the cluster copy equals t. -/
  | seamEventFire (c : Fin 4) (k : Fin 8)
  /-- R403: A received MBOX fragment completes and stores a message, replying with MBOX_ACK. -/
  | mboxFrame (a : Fin 2) (f : Frame)
  /-- R403: A received MBOX_ACK completes the message or schedules a resend. -/
  | mboxAckFrame (a : Fin 2) (f : Frame)
  /-- R403: A message without ack for 4 cycles, or refused, is resent. -/
  | mboxResend (n : Fin 1024)
  /-- R404: A received EPOCH frame carries the next layout. -/
  | epochFrame (a : Fin 2) (f : Frame)
  /-- R404: At an epoch boundary the new layout applies, admitting and removing members. -/
  | epochBoundary
  /-- R401: A received PROBE is answered 240 ns later with PROBE_REPLY. -/
  | probeFrame (a : Fin 2) (f : Frame)
  /-- R401: A PROBE_REPLY updates the link delay estimate. -/
  | probeReplyFrame (a : Fin 2) (f : Frame)
  /-- R404: A JOIN request reaches the keeper for the next boundary. -/
  | joinFrame (a : Fin 2) (f : Frame)
  /-- R405: A LEAVE request removes the member at the next boundary. -/
  | leaveFrame (a : Fin 2) (f : Frame)
  /-- R406: A CLAIM from a lower node stops this device's claim. -/
  | claimFrame (a : Fin 2) (f : Frame)
  /-- R406: No TIME frame for 4 cycles ends membership or starts claiming. -/
  | timeFrameLoss
  /-- R406: After 4 cycles without a lower CLAIM the device becomes keeper. -/
  | keeperElected
  /-- R407: A port loses sync or exceeds crc_lim and loops frames back, posting LINK_DOWN. -/
  | portDown (n : Fin 2) (crc : Bool)
  /-- R407: A port regains sync, completes 16 probes and posts LINK_UP. -/
  | portUp (n : Fin 2)
  /-- R408: Clearing en stops the device's Seam services and aborts pending work. -/
  | semCtlWrite (w : Writer) (v : Word)
  /-- R403: Writing rel frees mailbox slots. -/
  | semMbxRel (w : Writer) (v : Word)
  /-- R415: A flash page program ends and is read back. -/
  | pageProgramDone (bad : Bool)
  /-- R416: A sector erase ends, verifies blank and clears its journal flag. -/
  | eraseDone (bad : Bool)
  /-- R417: A suspended erase resumes after the request is served. -/
  | eraseResume
  /-- R417: An erase reaching its forced-completion limit posts ERASE_FORCED and stops yielding. -/
  | eraseForced
  /-- R429: The writer commits a queued Touchmark record into the next slot. -/
  | touchmarkCommit
  /-- R455: Both supplies stand above warning plus 20 mV for 100 µs and power-on reset ends. -/
  | suppliesValid (vcore vaux : Fin 65536)
  /-- R458: A warning crossing freezes flash work, opens a provisional record and queues SUPPLY_WARN. -/
  | supplyWarning (aux : Bool) (mv : Fin 65536)
  /-- R433: The supply stands above warning plus 20 mV for 50 µs; the dip record commits and flash work resumes. -/
  | supplyRecovered (aux : Bool) (mv low : Fin 65536)
  /-- R459: A supply reaches its reset level; the device resets and commits SUPPLY_LOSS from hold-up energy. -/
  | supplyResetLevel (aux : Bool) (mv other : Fin 65536)
  /-- R434: The hold-up reservoir charges and holdup_ok sets. -/
  | holdupCharged (mv : Fin 65536)
  /-- R440: A health test fails; the DRBG stops and ENTROPY_FAIL is posted. -/
  | entropyFail (test : Fin 2)
  /-- R440: The once-per-second retest passes and ent_ok sets. -/
  | entropyRetest
  /-- R362: An unused session nonce expires after 10 s. -/
  | nonceExpiry
  /-- R377: An unused debug challenge expires after 10 s. -/
  | challengeExpiry (tap : Bool)
  /-- R460: SYS_RST_N low for 2 µs resets the device. -/
  | sysRstN
  /-- R460: An OTP, self-test or Hallmark lockout failure resets the device. -/
  | hallmarkReset
  /-- R466: The device watchdog expires and the device resets. -/
  | deviceWdtExpiry
  /-- R466: A bench-core write of 0x3C96 reloads the device watchdog. -/
  | tchWdtKick (w : Writer) (v : Word)
  /-- R463: After a device reset the device starts in stages up to fw_ready. -/
  | startup (bm : Fin 4)
  /-- R463: The main and link PLLs lock in stage 1. -/
  | pllLock
  /-- R463: DDR4 training completes and init_done sets. -/
  | ddr4InitDone
  /-- R321: The bench firmware can serve the rings; fw_ready sets. -/
  | fwReady
  /-- R465: Setting a cl_rel bit releases a cluster from reset. -/
  | clusterRelease (w : Writer) (c : Fin 4) (imgs : List CoreImage)
  /-- R465: Clearing a cl_rel bit resets the cluster, or is refused with rst_refused. -/
  | clRelClear (w : Writer) (c : Fin 4)
  /-- R470: TAP EXTEST drives boundary-scan cells at the required level. -/
  | extest (si : Nat)
  /-- R470: TAP SAMPLE/PRELOAD accesses the boundary-scan register. -/
  | samplePreload (si : Nat)
  /-- R471: TAP IDCODE shifts the device's identification code. -/
  | idcode
  /-- R470: TAP BYPASS selects the 1-bit register. -/
  | bypass (ir : Fin 64)
  /-- R473: TAP DAP_CHAL reads the current challenge. -/
  | dapChal
  /-- R473: TAP DAP_RESP shifts a signed response and starts verification. -/
  | dapResp (sig : List Byte) (level : Fin 256)
  /-- R473: Verification of a DAP_RESP ends and a level is granted or refused. -/
  | tapGrant
  /-- R470: TAP DAP_CTL shifts the shadow of DBG_CTL at FULL. -/
  | dapCtl (v : Word)
  /-- R472: TAP DAP_ACC selects the debug access register. -/
  | dapAcc
  /-- R474: A DAP_ACC read through the peek path without side effects. -/
  | dapRead (addr : Word)
  /-- R475: A DAP_ACC read with consume at FULL performs the real read. -/
  | dapConsume (addr : Word)
  /-- R475: A DAP_ACC write at FULL performs a real write outside unlock windows. -/
  | dapWrite (addr v : Word) (tag : Option (Fin 16))
  /-- R472: A pending debug access completes with its status. -/
  | dapAccessDone
  /-- R448: TRST_N low resets the TAP and lapses the TAP grant. -/
  | trstN
  /-- R476: A halt of a cluster drives its outputs safe and stops its clock. -/
  | dbgHalt (c : Fin 4)
  /-- R477: Release bits restart named halted clusters in one ccyc. -/
  | dbgRelease (cs : Fin 16)
  /-- R478: A bench-core halt stops the core or the bench pair. -/
  | benchHalt (j : Fin 2)
  /-- R478: bench_release releases halted bench cores in one acyc. -/
  | benchRelease (js : Fin 4)
  /-- R478: step releases a halted bench core or pair for one instruction. -/
  | dbgStep
  /-- R467: Setting or clearing the freeze stops or reloads the device watchdog. -/
  | dbgWdtFreeze (w : Writer) (v : Word)
  /-- R482: An event counter reaches its threshold and signals by its kind. -/
  | evcThreshold (e : Fin 96)
  /-- R481: An event counter wraps at 2^48 and sets ovf. -/
  | evcOverflow (e : Fin 96)
  /-- R482: A write of EVC_THR_HI evaluates the threshold. -/
  | evcThrHiWrite (w : Writer) (e : Fin 96) (v : Word)
  /-- R488: Writing clr clears an event counter. -/
  | evcClr (w : Writer) (e : Fin 96) (v : Word)
  /-- R483: A write of EVC_GSNAP snapshots every host and global counter. -/
  | evcGsnap (w : Writer) (v : Word)
  /-- R483: A read of EVC_CNT_LO captures the high half. -/
  | evcCntLoRead (e : Fin 96)
  /-- R485: At S + 288 of the reference slot, one capture record is formed and queued. -/
  | captureRecord (k : Fin 8) (full : Bool)
  /-- R149: The wire disagreement on every supervised pair ends, dis_live clears and FBK_CABLE leaves AXS_CAUSE_ACT. -/
  | disagreementEnd (e : PairsEnd)
  /-- R358: A command's timeout parameter expires and the command completes with TIMEOUT, leaving the axis ARMED, withdrawing a MERGE or abandoning a mailbox send. -/
  | commandTimeout (sq : Fin 4096)
  /-- R157: The emulated encoder output generator emits its next quadrature edge, spaced evenly over the sample period, and moves the output count. -/
  | encoderOutputEdge (k : Fin 16)
  /-- R123: The counter passes an edge of a command interval: a switch of a phase turns on or off after dead time, or its pulse is dropped and pulse_drop sets. -/
  | switchEdge (a : Fin 64) (ph : Fin 3) (low turnOn : Bool)
  /-- R327: Link training completes, the Data Link Layer comes up and link_up sets. -/
  | pcieLinkUp (gen : Fin 8) (width : Fin 4) (rev : Bool)
  /-- R318: The link enters ASPM L1, l1 sets and due MSI-X messages start to wait. -/
  | l1Entry
  /-- R325: The link leaves L1 for L0, l1 clears and messages that waited for the exit are sent. -/
  | l1Exit
  /-- R401: Every 16 cycles a port with a link partner sends a PROBE to measure the link delay. -/
  | probeSend (a : Fin 2)
  /-- R406: A claiming device with keeper_cap sends CLAIM on both ports once per cycle. -/
  | claimSend
deriving DecidableEq, Repr

end Sys2Proof
end

