-- ==== Sys2Proof/Decode.lean ====
section
/-!
DEFINITION. Reading a command from a word. No row of spec/opcode_table.json gives bits: commands come from outside the
block as bus requests, descriptors and events, not as words.
-/
namespace Sys2Proof

/-- The command that the table's bits spell: none, since no row gives any. Assumption 2 (DESIGN CHOICE). -/
def decodeTableWord (_nbits _w : Nat) : Option Instr := none

end Sys2Proof
end

