-- ==== Sys2Proof/Config.lean ====
section
/-!
DEFINITION. What the spec leaves open, as constants without a body: nothing in Lean can evaluate them, so a statement
about the model holds whatever they are. Each is named in the assumption log.
-/
namespace Sys2Proof.Config

/-- The free values of the machine, numbered by the counter State holds: where the spec leaves a result open and the
machine goes on, the step takes the next one of these. Assumption 6 (DESIGN CHOICE). -/
opaque freeNat : Nat → Nat

/-- How many ticks (its remainder by 3) the device-time copy of the link island lies behind the master so many ccyc after
a coincident edge: the spec bounds its fixed pattern and does not give it (R36). Assumption 17 (DEDUCED). -/
opaque liLag : Nat → Nat

/-- The low byte of the code of an event record for which the spec names the class but no code: the class and which
of its records it is. Assumption 7 (PRESUMED). -/
opaque eventLow : Nat → Nat → Nat

/-- The first 8 bytes of HMAC-SHA-256 under a session key over a byte string (R342). The spec names the function by
its standard and does not describe it. Assumption 7 (PRESUMED). -/
opaque hmacTag : Nat → List Byte → Nat

/-- Does this ECDSA P-384 signature (r then s) by the key of this number verify over these bytes (R362, R377, R473)?
Assumption 7 (PRESUMED). -/
opaque ecdsaOk : Nat → List Byte → List Byte → Bool

/-- The ECDSA P-384 signature (r then s) by the private key of this number over these bytes (R362, R439).
Assumption 7 (PRESUMED). -/
opaque ecdsaSign : Nat → List Byte → List Byte

/-- Are these 96 bytes, x then y, a point on P-384 (R443)? Assumption 7 (PRESUMED). -/
opaque onCurve : List Byte → Bool

/-- The session key that SESSION_OPEN derives from the two parties' values (R362). Assumption 7 (PRESUMED). -/
opaque sessionKey : Nat → List Byte → Nat

/-- The device's public identity key and its ephemeral public value, as the bytes it sends (R362, R439).
Assumption 7 (PRESUMED). -/
opaque pubBytes : Nat → Nat → List Byte

/-- The bytes the DRBG delivers at its n-th use (R440). Assumption 7 (PRESUMED). -/
opaque drbg : Nat → Nat → List Byte

/-- The plaintext that AES-GCM under the image key gives for an image body, none where its tag fails (R423).
Assumption 7 (PRESUMED). -/
opaque aesGcmOpen : Nat → List Byte → Option (List Byte)

/-- SHA-384 of a byte string, as 48 bytes (R362, R420, R423). The spec names the function by its standard.
Assumption 7 (PRESUMED). -/
opaque sha384 : List Byte → List Byte

/-- Two checkpoint values folded over the contents of a core and its stores (R259): the fold function is not given.
Assumption 7 (PRESUMED). -/
opaque checkpointFold : Nat → List Nat → Nat

end Sys2Proof.Config
end

