-- ==== Sys2Proof/Machine/Regs.lean ====
section
/-! DEFINITION. The registers of the fabric address map: every register the spec names, its address (R7, R26, R27 and the register table of its chapter) and the place of each of its fields. -/
namespace Sys2Proof.Machine

/-- The registers by name; an indexed register is one name. -/
inductive RegName where
  | GLB_ID | GLB_UNLOCK | GLB_CLK_STAT | GLB_CLK_TRIM | GLB_TIME_CTL | GLB_TIME_LO 
  | GLB_TIME_HI_SNAP | GLB_TIME_HI | GLB_TIME_STEP | GLB_SYNC_IN_PERIOD | GLB_SYNC_IN_LAT_LO 
  | GLB_SYNC_IN_LAT_HI_SNAP | GLB_SYNC_OUT_PERIOD | GLB_SYNC_OUT_OFFSET | GLB_SYNC_OUT_CTL 
  | PLN_LANE_STAT | PLN_OCC | PLN_HYPER | PLN_BG_STAT | PLN_SLOT_CFG | PLN_SLOT_VEL | PLN_SLOT_POS 
  | PLN_SLOT_SCHED | PLN_SLOT_PHASE | PLN_SLOT_RUN | PLN_LAC_CFG | PLN_LAC_CNT | PLN_COMMIT 
  | PLN_LS_ADDR | PLN_LS_DATA_LO | PLN_LS_DATA_HI | PLN_LS_STAT | AXS_STATE | AXS_CTL | AXS_FAULT 
  | AXS_CAUSE_SEEN | AXS_CAUSE_ACT | AXS_FAULT_TIME_LO | AXS_FAULT_TIME_HI_SNAP | AXS_FAULT_REQ 
  | AXS_FRMAP | AXS_MISS_CFG | AXS_MISS_STAT | AXS_MISS_CUR_CNT | AXS_MISS_BG_CNT | AXS_RGN_CFG 
  | AXS_RGN_TH | AXS_RGN_HYST | AXS_LOAD_EST | AXS_RGN_STAT | AXS_SEL_VAL | AXS_RGN_DWELL 
  | AXS_RAMP_DECEL | AXS_RAMP_TMAX | AXS_RAMP_HOLD | AXS_RAMP_STAT | DRW_CLK | DRW_STAT | DRW_CFG 
  | DRW_WIN_CFG | DRW_WIN_LEN | DRW_TS_LO | DRW_TS_HI_SNAP | DRW_CH_CFG | DRW_CH_CORR | DRW_OC_CFG 
  | DRW_OC_TH | DRW_RES | DRW_CH_STAT | DRW_OC_VAL | PWM_CFG | PWM_PER | PWM_OFS | PWM_DT | PWM_POL 
  | PWM_FLT | PWM_HOLD | PWM_SHD_U | PWM_SHD_V | PWM_SHD_W | PWM_ACT_U | PWM_ACT_V | PWM_ACT_W 
  | PWM_STAT | PWM_STO_MAP | PWM_STO_CFG | PWM_STO_STAT | PWM_GSTAT | FBK_CFG | FBK_POS 
  | FBK_LAT_POS | FBK_SPD | FBK_SPD_CFG | FBK_STAT | FBK_SUP_CFG | FBK_LC_NOM | FBK_LC_TOL 
  | FBK_LC_LAST | FBK_IDX_STAT | FBK_IDX_POS | FBK_IDX_T_LO | FBK_IDX_T_HI | FBK_RSC_CFG 
  | FBK_RSC_CMP | FBK_RSC_STEP | FBK_RSC_REM | FBK_RSC_HITS | FBK_SER_CFG | FBK_SER_POS 
  | FBK_EO_CFG | FBK_EO_RATIO | FBK_EO_SCALE | FBK_EO_STAT | FBK_GSTAT | FLX_ROUTE | FLX_EXPORT 
  | FLX_IMPORT | FLX_COMB_CFG | FLX_COMB_IN | FLX_SWFIRE | FLX_STAT | FLX_WIN_CFG | FLX_WIN_LO 
  | FLX_WIN_HI | FLX_WIN_CNT | FLX_CAP_CFG | FLX_CAP_POS | FLX_CAP_T_LO | FLX_CAP_T_HI_SNAP 
  | FLX_GRP_CFG | FLX_GRP_MEM_LO | FLX_GRP_MEM_HI | FLX_GRP_STAT | AXS_SEG_STAT | AXS_SEG_TAG 
  | AXS_SEG_T0_LO | AXS_SEG_T0_HI_SNAP | AXS_SEG_SETP | AXS_SEG_SETPF | AXS_SEG_SETV | AXS_SEG_SETA 
  | AXS_SEG_DONE | AXS_SEG_DROP | TMR_CFG | TMR_CNT | TMR_HI_SNAP | TMR_TOP | TMR_CMPA | TMR_CMPB 
  | TMR_CAP | TMR_PSC | TMR_OUT | TMR_STAT | TMR_SNAP_CTL | TMR_SNAP_T_LO | TMR_SNAP_T_HI_SNAP 
  | TMR_GSTAT | TMR_SNAP | TMR_GPIO_CFG | TMR_GPIO_OUT | TMR_GPIO_IN | CHS_CTL | CHS_CFG | CHS_LOOP 
  | CHS_PIN_CFG | CHS_SMP | CHS_CRC_CFG | CHS_CRC_VAL | CHS_STAT | CHS_FRM_LO | CHS_FRM_HI 
  | CHS_LOOP_CNT | CHS_LC | CHS_POS_WORD | CHS_POS_T_LO | CHS_POS_T_HI_SNAP | CHS_POS_STAT 
  | CHS_INQ | CHS_OUTQ | CHS_Q_STAT | CHS_MEM_BASE | CHS_MEM_LEN | CHS_PAC_CFG | CHS_PAC_CNT 
  | CHS_GSTART | CHS_GSTAT | CRU_REF_CTL | CRU_TRG_CFG | CRU_TRG_DLY | CRU_FSRC | CRU_CFG | CRU_RES 
  | CRU_T_LO | CRU_T_HI_SNAP | CRU_STAT | CRU_PAIR_CFG | CRU_XTH | CRU_XRES | CRU_PAIR_STAT 
  | ANV_CTL | ANV_VBASE | ANV_GATE_BASE | ANV_GATE_CNT | ANV_SUPV | ANV_WDT_CFG | ANV_WDT_KICK 
  | ANV_WDT_LEFT | ANV_INT_PEND_LO | ANV_INT_PEND_HI | ANV_EXC_CNT | ANV_RGN_BASE | ANV_RGN_LIMIT 
  | ANV_RGN_RIGHTS | ANV_INT_CFG | ANV_EMB | ANV_CWDT_CFG | ANV_CWDT_KICK | ANV_CWDT_STAT 
  | ING_BANK_OWN | ING_BANK_SHARE | ING_BANK_STAT | ING_ERR_ADDR | ING_MARCH | ING_SHARE_STALL 
  | MEM_STAT | MEM_ERR_ADDR | MEM_SCRUB | MEM_SCRUB_PASS | MEM_BAR2_BASE | MEM_HWIN_LO 
  | MEM_HWIN_HI | MEM_HOST_DENY | ASY_PAIR_CTL | ASY_PAIR_STAT | ASY_CHK_CNT | ASY_OUT_CNT 
  | ASY_MIS_A | ASY_MIS_B | ASY_MIS_ID | ASY_MIR | ASY_OUT_LO | ASY_OUT_HI | ASY_INA_MAP 
  | ASY_LANE_STAT | ASY_LANE_LAST | ASY_LANE_T_LO | ASY_LANE_T_HI_SNAP | ASY_GSTAT | GLB_PCIE_CTL 
  | GLB_PCIE_STAT | GLB_PCIE_ERR | GLB_MSIX_MOD | LDL_ADMIN_CTL | LDL_ADMIN_VEC | LDL_ASQ_BASE_LO 
  | LDL_ASQ_BASE_HI | LDL_ACQ_BASE_LO | LDL_ACQ_BASE_HI | LDL_AEQ_BASE_LO | LDL_AEQ_BASE_HI 
  | LDL_GSTAT | LDL_DB_ERR | LDL_EVT_DROP | LDL_EVT_ROUTE | LDL_RING_BASE_LO | LDL_RING_BASE_HI 
  | LDL_RING_CFG | LDL_RING_PTR | LDL_RING_STAT | LDL_RING_MIR_LO | LDL_RING_MIR_HI | SLD_CTL 
  | SLD_STAT | SLD_ROUND | SLD_ROUND_LEN | SLD_LIST | SLD_LIST_NEXT | SLD_CMD_PEND | SLD_PRESENT 
  | SLD_ERR | SEM_CTL | SEM_CYC | SEM_KEEP | SEM_SECT | SEM_TX_BASE | SEM_RX_BASE | SEM_MBX_BASE 
  | SEM_STAT | SEM_EPOCH | SEM_CYC_STAT | SEM_GSTAT | SEM_MBX_STAT | SEM_MBX_REL | SEM_PORT_STAT 
  | SEM_PORT_CFG | SEM_LINK_DLY | SEM_PORT_ERR | TCH_STAT | TCH_NEWEST | TCH_SEQ | TCH_CFG 
  | TCH_HOLDUP | TCH_DIP_CNT | HLM_STAT | HLM_SESSIONS | HLM_FLOOR | HLM_AUTH_MASK | HLM_IMG_REJ 
  | HLM_ID_PUB | HLM_SERIAL_LO | HLM_SERIAL_HI | TCH_SUP_STAT | TCH_SUP_VCORE | TCH_SUP_VAUX 
  | TCH_RST_CAUSE | TCH_BOOT | TCH_WDT_CFG | TCH_WDT_KICK | TCH_WDT_LEFT | GLB_RST_CTL | DBG_STAT 
  | DBG_CTL | DBG_WDT_FREEZE | DBG_HALT_CAUSE | DBG_HALT_T_LO | DBG_HALT_T_HI_SNAP | DBG_BW_CFG 
  | DBG_BW_START | DBG_BW_END | DBG_BW_VAL | DBG_CAP_STAT | DBG_CAP_WPTR | DBG_CAP_SEQ | EVC_CFG 
  | EVC_CNT_LO | EVC_CNT_HI_SNAP | EVC_THR_LO | EVC_THR_HI | EVC_SNAP_LO | EVC_SNAP_HI | GLB_TEMP 
  | PLN_UNLOCK | AXS_UNLOCK | DRW_UNLOCK | PWM_UNLOCK | FBK_UNLOCK | FLX_UNLOCK | CHS_UNLOCK 
  | ANV_UNLOCK | ING_UNLOCK | MEM_UNLOCK | ASY_UNLOCK | LDL_UNLOCK | SLD_UNLOCK | SEM_UNLOCK 
  | TCH_UNLOCK | CHS_PROG | EVC_GSNAP | EVC_GSNAP_T_LO | EVC_GSNAP_T_HI_SNAP 
deriving DecidableEq, Repr

/-- The fabric address of GLB_ID (R5). -/
def GLB_ID : Nat := 0x2000000
/-- The fabric address of GLB_UNLOCK (R43). -/
def GLB_UNLOCK : Nat := 0x20000FC
/-- The fabric address of GLB_CLK_STAT (R43). -/
def GLB_CLK_STAT : Nat := 0x2000100
/-- The fabric address of GLB_CLK_TRIM (R43). -/
def GLB_CLK_TRIM : Nat := 0x2000104
/-- The fabric address of GLB_TIME_CTL (R43). -/
def GLB_TIME_CTL : Nat := 0x2000110
/-- The fabric address of GLB_TIME_LO (R43). -/
def GLB_TIME_LO : Nat := 0x2000120
/-- The fabric address of GLB_TIME_HI_SNAP (R43). -/
def GLB_TIME_HI_SNAP : Nat := 0x2000124
/-- The fabric address of GLB_TIME_HI (R43). -/
def GLB_TIME_HI : Nat := 0x2000128
/-- The fabric address of GLB_TIME_STEP (R43). -/
def GLB_TIME_STEP : Nat := 0x2000130
/-- The fabric address of GLB_SYNC_IN_PERIOD (R43). -/
def GLB_SYNC_IN_PERIOD : Nat := 0x2000140
/-- The fabric address of GLB_SYNC_IN_LAT_LO (R43). -/
def GLB_SYNC_IN_LAT_LO : Nat := 0x2000144
/-- The fabric address of GLB_SYNC_IN_LAT_HI_SNAP (R43). -/
def GLB_SYNC_IN_LAT_HI_SNAP : Nat := 0x2000148
/-- The fabric address of GLB_SYNC_OUT_PERIOD (R43). -/
def GLB_SYNC_OUT_PERIOD : Nat := 0x2000150
/-- The fabric address of GLB_SYNC_OUT_OFFSET (R43). -/
def GLB_SYNC_OUT_OFFSET : Nat := 0x2000154
/-- The fabric address of GLB_SYNC_OUT_CTL (R43). -/
def GLB_SYNC_OUT_CTL : Nat := 0x2000158
/-- The fabric address of PLN_LANE_STAT (R70). -/
def PLN_LANE_STAT (i : Nat) : Nat := 0x2800000 + i / 4 * 0x200000 + i % 4 * 0x100
/-- The fabric address of PLN_OCC (R70). -/
def PLN_OCC (i : Nat) : Nat := 0x2800004 + i / 4 * 0x200000 + i % 4 * 0x100
/-- The fabric address of PLN_HYPER (R70). -/
def PLN_HYPER (i : Nat) : Nat := 0x2800008 + i / 4 * 0x200000 + i % 4 * 0x100
/-- The fabric address of PLN_BG_STAT (R70). -/
def PLN_BG_STAT (i : Nat) : Nat := 0x280000C + i / 4 * 0x200000 + i % 4 * 0x100
/-- The fabric address of PLN_SLOT_CFG (R70). -/
def PLN_SLOT_CFG (i j : Nat) : Nat := 0x2800010 + i / 4 * 0x200000 + i % 4 * 0x100 + j * 0x20
/-- The fabric address of PLN_SLOT_VEL (R70). -/
def PLN_SLOT_VEL (i j : Nat) : Nat := 0x2800014 + i / 4 * 0x200000 + i % 4 * 0x100 + j * 0x20
/-- The fabric address of PLN_SLOT_POS (R70). -/
def PLN_SLOT_POS (i j : Nat) : Nat := 0x2800018 + i / 4 * 0x200000 + i % 4 * 0x100 + j * 0x20
/-- The fabric address of PLN_SLOT_SCHED (R70). -/
def PLN_SLOT_SCHED (i j : Nat) : Nat := 0x280001C + i / 4 * 0x200000 + i % 4 * 0x100 + j * 0x20
/-- The fabric address of PLN_SLOT_PHASE (R70). -/
def PLN_SLOT_PHASE (i j : Nat) : Nat := 0x2800020 + i / 4 * 0x200000 + i % 4 * 0x100 + j * 0x20
/-- The fabric address of PLN_SLOT_RUN (R70). -/
def PLN_SLOT_RUN (i j : Nat) : Nat := 0x2800024 + i / 4 * 0x200000 + i % 4 * 0x100 + j * 0x20
/-- The fabric address of PLN_LAC_CFG (R70). -/
def PLN_LAC_CFG (i j : Nat) : Nat := 0x28000A0 + i / 4 * 0x200000 + i % 4 * 0x100 + j * 8
/-- The fabric address of PLN_LAC_CNT (R70). -/
def PLN_LAC_CNT (i j : Nat) : Nat := 0x28000A4 + i / 4 * 0x200000 + i % 4 * 0x100 + j * 8
/-- The fabric address of PLN_COMMIT (R70). -/
def PLN_COMMIT (i : Nat) : Nat := 0x2800400 + i * 0x200000
/-- The fabric address of PLN_LS_ADDR (R70). -/
def PLN_LS_ADDR (i : Nat) : Nat := 0x2800410 + i * 0x200000
/-- The fabric address of PLN_LS_DATA_LO (R70). -/
def PLN_LS_DATA_LO (i : Nat) : Nat := 0x2800414 + i * 0x200000
/-- The fabric address of PLN_LS_DATA_HI (R70). -/
def PLN_LS_DATA_HI (i : Nat) : Nat := 0x2800418 + i * 0x200000
/-- The fabric address of PLN_LS_STAT (R70). -/
def PLN_LS_STAT (i : Nat) : Nat := 0x280041C + i * 0x200000
/-- The fabric address of AXS_STATE (R98). -/
def AXS_STATE (i : Nat) : Nat := 0x2810000 + i / 16 * 0x200000 + i % 16 * 0x400
/-- The fabric address of AXS_CTL (R98). -/
def AXS_CTL (i : Nat) : Nat := 0x2810004 + i / 16 * 0x200000 + i % 16 * 0x400
/-- The fabric address of AXS_FAULT (R98). -/
def AXS_FAULT (i : Nat) : Nat := 0x2810008 + i / 16 * 0x200000 + i % 16 * 0x400
/-- The fabric address of AXS_CAUSE_SEEN (R98). -/
def AXS_CAUSE_SEEN (i : Nat) : Nat := 0x281000C + i / 16 * 0x200000 + i % 16 * 0x400
/-- The fabric address of AXS_CAUSE_ACT (R98). -/
def AXS_CAUSE_ACT (i : Nat) : Nat := 0x2810010 + i / 16 * 0x200000 + i % 16 * 0x400
/-- The fabric address of AXS_FAULT_TIME_LO (R98). -/
def AXS_FAULT_TIME_LO (i : Nat) : Nat := 0x2810014 + i / 16 * 0x200000 + i % 16 * 0x400
/-- The fabric address of AXS_FAULT_TIME_HI_SNAP (R98). -/
def AXS_FAULT_TIME_HI_SNAP (i : Nat) : Nat := 0x2810018 + i / 16 * 0x200000 + i % 16 * 0x400
/-- The fabric address of AXS_FAULT_REQ (R98). -/
def AXS_FAULT_REQ (i : Nat) : Nat := 0x281001C + i / 16 * 0x200000 + i % 16 * 0x400
/-- The fabric address of AXS_FRMAP (R98). -/
def AXS_FRMAP (i j : Nat) : Nat := 0x2810020 + i / 16 * 0x200000 + i % 16 * 0x400 + j * 4
/-- The fabric address of AXS_MISS_CFG (R98). -/
def AXS_MISS_CFG (i : Nat) : Nat := 0x2810040 + i / 16 * 0x200000 + i % 16 * 0x400
/-- The fabric address of AXS_MISS_STAT (R98). -/
def AXS_MISS_STAT (i : Nat) : Nat := 0x2810044 + i / 16 * 0x200000 + i % 16 * 0x400
/-- The fabric address of AXS_MISS_CUR_CNT (R98). -/
def AXS_MISS_CUR_CNT (i : Nat) : Nat := 0x2810048 + i / 16 * 0x200000 + i % 16 * 0x400
/-- The fabric address of AXS_MISS_BG_CNT (R98). -/
def AXS_MISS_BG_CNT (i : Nat) : Nat := 0x281004C + i / 16 * 0x200000 + i % 16 * 0x400
/-- The fabric address of AXS_RGN_CFG (R98). -/
def AXS_RGN_CFG (i : Nat) : Nat := 0x2810060 + i / 16 * 0x200000 + i % 16 * 0x400
/-- The fabric address of AXS_RGN_TH (R98). -/
def AXS_RGN_TH (i j : Nat) : Nat := 0x2810064 + i / 16 * 0x200000 + i % 16 * 0x400 + (j - 1) * 4
/-- The fabric address of AXS_RGN_HYST (R98). -/
def AXS_RGN_HYST (i : Nat) : Nat := 0x2810080 + i / 16 * 0x200000 + i % 16 * 0x400
/-- The fabric address of AXS_LOAD_EST (R98). -/
def AXS_LOAD_EST (i : Nat) : Nat := 0x2810084 + i / 16 * 0x200000 + i % 16 * 0x400
/-- The fabric address of AXS_RGN_STAT (R98). -/
def AXS_RGN_STAT (i : Nat) : Nat := 0x2810088 + i / 16 * 0x200000 + i % 16 * 0x400
/-- The fabric address of AXS_SEL_VAL (R98). -/
def AXS_SEL_VAL (i : Nat) : Nat := 0x281008C + i / 16 * 0x200000 + i % 16 * 0x400
/-- The fabric address of AXS_RGN_DWELL (R98). -/
def AXS_RGN_DWELL (i j : Nat) : Nat := 0x28100A0 + i / 16 * 0x200000 + i % 16 * 0x400 + j * 4
/-- The fabric address of AXS_RAMP_DECEL (R98). -/
def AXS_RAMP_DECEL (i : Nat) : Nat := 0x28100C0 + i / 16 * 0x200000 + i % 16 * 0x400
/-- The fabric address of AXS_RAMP_TMAX (R98). -/
def AXS_RAMP_TMAX (i : Nat) : Nat := 0x28100C4 + i / 16 * 0x200000 + i % 16 * 0x400
/-- The fabric address of AXS_RAMP_HOLD (R98). -/
def AXS_RAMP_HOLD (i : Nat) : Nat := 0x28100C8 + i / 16 * 0x200000 + i % 16 * 0x400
/-- The fabric address of AXS_RAMP_STAT (R98). -/
def AXS_RAMP_STAT (i : Nat) : Nat := 0x28100CC + i / 16 * 0x200000 + i % 16 * 0x400
/-- The fabric address of DRW_CLK (R116). -/
def DRW_CLK (i : Nat) : Nat := 0x2840000 + i / 4 * 0x200000 + i % 4 * 4
/-- The fabric address of DRW_STAT (R116). -/
def DRW_STAT (i : Nat) : Nat := 0x2840010 + i * 0x200000
/-- The fabric address of DRW_CFG (R116). -/
def DRW_CFG (i : Nat) : Nat := 0x2840014 + i * 0x200000
/-- The fabric address of DRW_WIN_CFG (R116). -/
def DRW_WIN_CFG (i : Nat) : Nat := 0x2840100 + i / 16 * 0x200000 + i % 16 * 0x10
/-- The fabric address of DRW_WIN_LEN (R116). -/
def DRW_WIN_LEN (i : Nat) : Nat := 0x2840104 + i / 16 * 0x200000 + i % 16 * 0x10
/-- The fabric address of DRW_TS_LO (R116). -/
def DRW_TS_LO (i : Nat) : Nat := 0x2840108 + i / 16 * 0x200000 + i % 16 * 0x10
/-- The fabric address of DRW_TS_HI_SNAP (R116). -/
def DRW_TS_HI_SNAP (i : Nat) : Nat := 0x284010C + i / 16 * 0x200000 + i % 16 * 0x10
/-- The fabric address of DRW_CH_CFG (R116). -/
def DRW_CH_CFG (i : Nat) : Nat := 0x2841000 + i / 48 * 0x200000 + i % 48 * 0x20
/-- The fabric address of DRW_CH_CORR (R116). -/
def DRW_CH_CORR (i : Nat) : Nat := 0x2841004 + i / 48 * 0x200000 + i % 48 * 0x20
/-- The fabric address of DRW_OC_CFG (R116). -/
def DRW_OC_CFG (i : Nat) : Nat := 0x2841008 + i / 48 * 0x200000 + i % 48 * 0x20
/-- The fabric address of DRW_OC_TH (R116). -/
def DRW_OC_TH (i : Nat) : Nat := 0x284100C + i / 48 * 0x200000 + i % 48 * 0x20
/-- The fabric address of DRW_RES (R116). -/
def DRW_RES (i : Nat) : Nat := 0x2841010 + i / 48 * 0x200000 + i % 48 * 0x20
/-- The fabric address of DRW_CH_STAT (R116). -/
def DRW_CH_STAT (i : Nat) : Nat := 0x2841014 + i / 48 * 0x200000 + i % 48 * 0x20
/-- The fabric address of DRW_OC_VAL (R116). -/
def DRW_OC_VAL (i : Nat) : Nat := 0x2841018 + i / 48 * 0x200000 + i % 48 * 0x20
/-- The fabric address of PWM_CFG (R136). -/
def PWM_CFG (i : Nat) : Nat := 0x2820000 + i / 16 * 0x200000 + i % 16 * 0x40
/-- The fabric address of PWM_PER (R136). -/
def PWM_PER (i : Nat) : Nat := 0x2820004 + i / 16 * 0x200000 + i % 16 * 0x40
/-- The fabric address of PWM_OFS (R136). -/
def PWM_OFS (i : Nat) : Nat := 0x2820008 + i / 16 * 0x200000 + i % 16 * 0x40
/-- The fabric address of PWM_DT (R136). -/
def PWM_DT (i : Nat) : Nat := 0x282000C + i / 16 * 0x200000 + i % 16 * 0x40
/-- The fabric address of PWM_POL (R136). -/
def PWM_POL (i : Nat) : Nat := 0x2820010 + i / 16 * 0x200000 + i % 16 * 0x40
/-- The fabric address of PWM_FLT (R136). -/
def PWM_FLT (i : Nat) : Nat := 0x2820014 + i / 16 * 0x200000 + i % 16 * 0x40
/-- The fabric address of PWM_HOLD (R136). -/
def PWM_HOLD (i : Nat) : Nat := 0x2820018 + i / 16 * 0x200000 + i % 16 * 0x40
/-- The fabric address of PWM_SHD_U (R136). -/
def PWM_SHD_U (i : Nat) : Nat := 0x282001C + i / 16 * 0x200000 + i % 16 * 0x40
/-- The fabric address of PWM_SHD_V (R136). -/
def PWM_SHD_V (i : Nat) : Nat := 0x2820020 + i / 16 * 0x200000 + i % 16 * 0x40
/-- The fabric address of PWM_SHD_W (R136). -/
def PWM_SHD_W (i : Nat) : Nat := 0x2820024 + i / 16 * 0x200000 + i % 16 * 0x40
/-- The fabric address of PWM_ACT_U (R136). -/
def PWM_ACT_U (i : Nat) : Nat := 0x2820028 + i / 16 * 0x200000 + i % 16 * 0x40
/-- The fabric address of PWM_ACT_V (R136). -/
def PWM_ACT_V (i : Nat) : Nat := 0x282002C + i / 16 * 0x200000 + i % 16 * 0x40
/-- The fabric address of PWM_ACT_W (R136). -/
def PWM_ACT_W (i : Nat) : Nat := 0x2820030 + i / 16 * 0x200000 + i % 16 * 0x40
/-- The fabric address of PWM_STAT (R136). -/
def PWM_STAT (i : Nat) : Nat := 0x2820034 + i / 16 * 0x200000 + i % 16 * 0x40
/-- The fabric address of PWM_STO_MAP (R136). -/
def PWM_STO_MAP (i : Nat) : Nat := 0x2820400 + i / 8 * 0x200000 + i % 8 * 4
/-- The fabric address of PWM_STO_CFG (R136). -/
def PWM_STO_CFG (i : Nat) : Nat := 0x2820420 + i * 0x200000
/-- The fabric address of PWM_STO_STAT (R136). -/
def PWM_STO_STAT (i : Nat) : Nat := 0x2820424 + i * 0x200000
/-- The fabric address of PWM_GSTAT (R136). -/
def PWM_GSTAT (i : Nat) : Nat := 0x2820428 + i * 0x200000
/-- The fabric address of FBK_CFG (R163). -/
def FBK_CFG (i : Nat) : Nat := 0x2830000 + i / 16 * 0x200000 + i % 16 * 0x80
/-- The fabric address of FBK_POS (R163). -/
def FBK_POS (i : Nat) : Nat := 0x2830004 + i / 16 * 0x200000 + i % 16 * 0x80
/-- The fabric address of FBK_LAT_POS (R163). -/
def FBK_LAT_POS (i : Nat) : Nat := 0x2830008 + i / 16 * 0x200000 + i % 16 * 0x80
/-- The fabric address of FBK_SPD (R163). -/
def FBK_SPD (i : Nat) : Nat := 0x2830010 + i / 16 * 0x200000 + i % 16 * 0x80
/-- The fabric address of FBK_SPD_CFG (R163). -/
def FBK_SPD_CFG (i : Nat) : Nat := 0x2830014 + i / 16 * 0x200000 + i % 16 * 0x80
/-- The fabric address of FBK_STAT (R163). -/
def FBK_STAT (i : Nat) : Nat := 0x283000C + i / 16 * 0x200000 + i % 16 * 0x80
/-- The fabric address of FBK_SUP_CFG (R163). -/
def FBK_SUP_CFG (i : Nat) : Nat := 0x2830018 + i / 16 * 0x200000 + i % 16 * 0x80
/-- The fabric address of FBK_LC_NOM (R163). -/
def FBK_LC_NOM (i : Nat) : Nat := 0x283001C + i / 16 * 0x200000 + i % 16 * 0x80
/-- The fabric address of FBK_LC_TOL (R163). -/
def FBK_LC_TOL (i : Nat) : Nat := 0x2830020 + i / 16 * 0x200000 + i % 16 * 0x80
/-- The fabric address of FBK_LC_LAST (R163). -/
def FBK_LC_LAST (i : Nat) : Nat := 0x2830024 + i / 16 * 0x200000 + i % 16 * 0x80
/-- The fabric address of FBK_IDX_STAT (R163). -/
def FBK_IDX_STAT (i : Nat) : Nat := 0x2830028 + i / 16 * 0x200000 + i % 16 * 0x80
/-- The fabric address of FBK_IDX_POS (R163). -/
def FBK_IDX_POS (i j : Nat) : Nat := 0x2830030 + i / 16 * 0x200000 + i % 16 * 0x80 + j * 0xC
/-- The fabric address of FBK_IDX_T_LO (R163). -/
def FBK_IDX_T_LO (i j : Nat) : Nat := 0x2830034 + i / 16 * 0x200000 + i % 16 * 0x80 + j * 0xC
/-- The fabric address of FBK_IDX_T_HI (R163). -/
def FBK_IDX_T_HI (i j : Nat) : Nat := 0x2830038 + i / 16 * 0x200000 + i % 16 * 0x80 + j * 0xC
/-- The fabric address of FBK_RSC_CFG (R163). -/
def FBK_RSC_CFG (i : Nat) : Nat := 0x2830060 + i / 16 * 0x200000 + i % 16 * 0x80
/-- The fabric address of FBK_RSC_CMP (R163). -/
def FBK_RSC_CMP (i : Nat) : Nat := 0x2830064 + i / 16 * 0x200000 + i % 16 * 0x80
/-- The fabric address of FBK_RSC_STEP (R163). -/
def FBK_RSC_STEP (i : Nat) : Nat := 0x2830068 + i / 16 * 0x200000 + i % 16 * 0x80
/-- The fabric address of FBK_RSC_REM (R163). -/
def FBK_RSC_REM (i : Nat) : Nat := 0x283006C + i / 16 * 0x200000 + i % 16 * 0x80
/-- The fabric address of FBK_RSC_HITS (R163). -/
def FBK_RSC_HITS (i : Nat) : Nat := 0x2830070 + i / 16 * 0x200000 + i % 16 * 0x80
/-- The fabric address of FBK_SER_CFG (R163). -/
def FBK_SER_CFG (i : Nat) : Nat := 0x2830074 + i / 16 * 0x200000 + i % 16 * 0x80
/-- The fabric address of FBK_SER_POS (R163). -/
def FBK_SER_POS (i : Nat) : Nat := 0x2830078 + i / 16 * 0x200000 + i % 16 * 0x80
/-- The fabric address of FBK_EO_CFG (R163). -/
def FBK_EO_CFG (i : Nat) : Nat := 0x2830800 + i / 4 * 0x200000 + i % 4 * 0x10
/-- The fabric address of FBK_EO_RATIO (R163). -/
def FBK_EO_RATIO (i : Nat) : Nat := 0x2830804 + i / 4 * 0x200000 + i % 4 * 0x10
/-- The fabric address of FBK_EO_SCALE (R163). -/
def FBK_EO_SCALE (i : Nat) : Nat := 0x2830808 + i / 4 * 0x200000 + i % 4 * 0x10
/-- The fabric address of FBK_EO_STAT (R163). -/
def FBK_EO_STAT (i : Nat) : Nat := 0x283080C + i / 4 * 0x200000 + i % 4 * 0x10
/-- The fabric address of FBK_GSTAT (R163). -/
def FBK_GSTAT (i : Nat) : Nat := 0x2830840 + i * 0x200000
/-- The fabric address of FLX_ROUTE (R194). -/
def FLX_ROUTE (i j : Nat) : Nat := 0x2870000 + i * 0x200000 + j * 4
/-- The fabric address of FLX_EXPORT (R194). -/
def FLX_EXPORT (i j : Nat) : Nat := 0x2870200 + i * 0x200000 + j * 4
/-- The fabric address of FLX_IMPORT (R194). -/
def FLX_IMPORT (i j : Nat) : Nat := 0x2870220 + i * 0x200000 + j * 4
/-- The fabric address of FLX_COMB_CFG (R194). -/
def FLX_COMB_CFG (i j : Nat) : Nat := 0x2870240 + i * 0x200000 + j * 8
/-- The fabric address of FLX_COMB_IN (R194). -/
def FLX_COMB_IN (i j : Nat) : Nat := 0x2870244 + i * 0x200000 + j * 8
/-- The fabric address of FLX_SWFIRE (R194). -/
def FLX_SWFIRE (i : Nat) : Nat := 0x2870280 + i * 0x200000
/-- The fabric address of FLX_STAT (R194). -/
def FLX_STAT (i : Nat) : Nat := 0x2870284 + i * 0x200000
/-- The fabric address of FLX_WIN_CFG (R194). -/
def FLX_WIN_CFG (i : Nat) : Nat := 0x2870300 + i / 16 * 0x200000 + i % 16 * 0x10
/-- The fabric address of FLX_WIN_LO (R194). -/
def FLX_WIN_LO (i : Nat) : Nat := 0x2870304 + i / 16 * 0x200000 + i % 16 * 0x10
/-- The fabric address of FLX_WIN_HI (R194). -/
def FLX_WIN_HI (i : Nat) : Nat := 0x2870308 + i / 16 * 0x200000 + i % 16 * 0x10
/-- The fabric address of FLX_WIN_CNT (R194). -/
def FLX_WIN_CNT (i : Nat) : Nat := 0x287030C + i / 16 * 0x200000 + i % 16 * 0x10
/-- The fabric address of FLX_CAP_CFG (R194). -/
def FLX_CAP_CFG (i j : Nat) : Nat := 0x2870400 + i * 0x200000 + j * 0x10
/-- The fabric address of FLX_CAP_POS (R194). -/
def FLX_CAP_POS (i j : Nat) : Nat := 0x2870404 + i * 0x200000 + j * 0x10
/-- The fabric address of FLX_CAP_T_LO (R194). -/
def FLX_CAP_T_LO (i j : Nat) : Nat := 0x2870408 + i * 0x200000 + j * 0x10
/-- The fabric address of FLX_CAP_T_HI_SNAP (R194). -/
def FLX_CAP_T_HI_SNAP (i j : Nat) : Nat := 0x287040C + i * 0x200000 + j * 0x10
/-- The fabric address of FLX_GRP_CFG (R194). -/
def FLX_GRP_CFG (i : Nat) : Nat := 0x2870500 + i / 8 * 0x200000 + i % 8 * 0x10
/-- The fabric address of FLX_GRP_MEM_LO (R194). -/
def FLX_GRP_MEM_LO (i : Nat) : Nat := 0x2870504 + i / 8 * 0x200000 + i % 8 * 0x10
/-- The fabric address of FLX_GRP_MEM_HI (R194). -/
def FLX_GRP_MEM_HI (i : Nat) : Nat := 0x2870508 + i / 8 * 0x200000 + i % 8 * 0x10
/-- The fabric address of FLX_GRP_STAT (R194). -/
def FLX_GRP_STAT (i : Nat) : Nat := 0x287050C + i / 8 * 0x200000 + i % 8 * 0x10
/-- The fabric address of AXS_SEG_STAT (R195). -/
def AXS_SEG_STAT (i : Nat) : Nat := 0x2810100 + i / 16 * 0x200000 + i % 16 * 0x400
/-- The fabric address of AXS_SEG_TAG (R195). -/
def AXS_SEG_TAG (i : Nat) : Nat := 0x2810104 + i / 16 * 0x200000 + i % 16 * 0x400
/-- The fabric address of AXS_SEG_T0_LO (R195). -/
def AXS_SEG_T0_LO (i : Nat) : Nat := 0x2810108 + i / 16 * 0x200000 + i % 16 * 0x400
/-- The fabric address of AXS_SEG_T0_HI_SNAP (R195). -/
def AXS_SEG_T0_HI_SNAP (i : Nat) : Nat := 0x281010C + i / 16 * 0x200000 + i % 16 * 0x400
/-- The fabric address of AXS_SEG_SETP (R195). -/
def AXS_SEG_SETP (i : Nat) : Nat := 0x2810110 + i / 16 * 0x200000 + i % 16 * 0x400
/-- The fabric address of AXS_SEG_SETPF (R195). -/
def AXS_SEG_SETPF (i : Nat) : Nat := 0x2810114 + i / 16 * 0x200000 + i % 16 * 0x400
/-- The fabric address of AXS_SEG_SETV (R195). -/
def AXS_SEG_SETV (i : Nat) : Nat := 0x2810118 + i / 16 * 0x200000 + i % 16 * 0x400
/-- The fabric address of AXS_SEG_SETA (R195). -/
def AXS_SEG_SETA (i : Nat) : Nat := 0x281011C + i / 16 * 0x200000 + i % 16 * 0x400
/-- The fabric address of AXS_SEG_DONE (R195). -/
def AXS_SEG_DONE (i : Nat) : Nat := 0x2810120 + i / 16 * 0x200000 + i % 16 * 0x400
/-- The fabric address of AXS_SEG_DROP (R195). -/
def AXS_SEG_DROP (i : Nat) : Nat := 0x2810124 + i / 16 * 0x200000 + i % 16 * 0x400
/-- The fabric address of TMR_CFG (R211). -/
def TMR_CFG (i : Nat) : Nat := 0x2850000 + i / 32 * 0x200000 + i % 32 * 0x40
/-- The fabric address of TMR_CNT (R211). -/
def TMR_CNT (i : Nat) : Nat := 0x2850004 + i / 32 * 0x200000 + i % 32 * 0x40
/-- The fabric address of TMR_HI_SNAP (R211). -/
def TMR_HI_SNAP (i : Nat) : Nat := 0x2850008 + i / 32 * 0x200000 + i % 32 * 0x40
/-- The fabric address of TMR_TOP (R211). -/
def TMR_TOP (i : Nat) : Nat := 0x285000C + i / 32 * 0x200000 + i % 32 * 0x40
/-- The fabric address of TMR_CMPA (R211). -/
def TMR_CMPA (i : Nat) : Nat := 0x2850010 + i / 32 * 0x200000 + i % 32 * 0x40
/-- The fabric address of TMR_CMPB (R211). -/
def TMR_CMPB (i : Nat) : Nat := 0x2850014 + i / 32 * 0x200000 + i % 32 * 0x40
/-- The fabric address of TMR_CAP (R211). -/
def TMR_CAP (i : Nat) : Nat := 0x2850018 + i / 32 * 0x200000 + i % 32 * 0x40
/-- The fabric address of TMR_PSC (R211). -/
def TMR_PSC (i : Nat) : Nat := 0x2850024 + i / 32 * 0x200000 + i % 32 * 0x40
/-- The fabric address of TMR_OUT (R211). -/
def TMR_OUT (i : Nat) : Nat := 0x285001C + i / 32 * 0x200000 + i % 32 * 0x40
/-- The fabric address of TMR_STAT (R211). -/
def TMR_STAT (i : Nat) : Nat := 0x2850020 + i / 32 * 0x200000 + i % 32 * 0x40
/-- The fabric address of TMR_SNAP_CTL (R211). -/
def TMR_SNAP_CTL (i : Nat) : Nat := 0x2850800 + i * 0x200000
/-- The fabric address of TMR_SNAP_T_LO (R211). -/
def TMR_SNAP_T_LO (i : Nat) : Nat := 0x2850804 + i * 0x200000
/-- The fabric address of TMR_SNAP_T_HI_SNAP (R211). -/
def TMR_SNAP_T_HI_SNAP (i : Nat) : Nat := 0x2850808 + i * 0x200000
/-- The fabric address of TMR_GSTAT (R211). -/
def TMR_GSTAT (i : Nat) : Nat := 0x285080C + i * 0x200000
/-- The fabric address of TMR_SNAP (R211). -/
def TMR_SNAP (i : Nat) : Nat := 0x2850880 + i / 32 * 0x200000 + i % 32 * 4
/-- The fabric address of TMR_GPIO_CFG (R211). -/
def TMR_GPIO_CFG (i j : Nat) : Nat := 0x2850900 + i * 0x200000 + j * 4
/-- The fabric address of TMR_GPIO_OUT (R211). -/
def TMR_GPIO_OUT (i : Nat) : Nat := 0x2850940 + i * 0x200000
/-- The fabric address of TMR_GPIO_IN (R211). -/
def TMR_GPIO_IN (i : Nat) : Nat := 0x2850944 + i * 0x200000
/-- The fabric address of CHS_CTL (R228). -/
def CHS_CTL (i : Nat) : Nat := 0x2860000 + i / 8 * 0x200000 + i % 8 * 0x80
/-- The fabric address of CHS_CFG (R228). -/
def CHS_CFG (i : Nat) : Nat := 0x2860004 + i / 8 * 0x200000 + i % 8 * 0x80
/-- The fabric address of CHS_LOOP (R228). -/
def CHS_LOOP (i : Nat) : Nat := 0x2860008 + i / 8 * 0x200000 + i % 8 * 0x80
/-- The fabric address of CHS_PIN_CFG (R228). -/
def CHS_PIN_CFG (i : Nat) : Nat := 0x286000C + i / 8 * 0x200000 + i % 8 * 0x80
/-- The fabric address of CHS_SMP (R228). -/
def CHS_SMP (i : Nat) : Nat := 0x2860010 + i / 8 * 0x200000 + i % 8 * 0x80
/-- The fabric address of CHS_CRC_CFG (R228). -/
def CHS_CRC_CFG (i : Nat) : Nat := 0x2860014 + i / 8 * 0x200000 + i % 8 * 0x80
/-- The fabric address of CHS_CRC_VAL (R228). -/
def CHS_CRC_VAL (i : Nat) : Nat := 0x2860018 + i / 8 * 0x200000 + i % 8 * 0x80
/-- The fabric address of CHS_STAT (R228). -/
def CHS_STAT (i : Nat) : Nat := 0x286001C + i / 8 * 0x200000 + i % 8 * 0x80
/-- The fabric address of CHS_FRM_LO (R228). -/
def CHS_FRM_LO (i : Nat) : Nat := 0x2860020 + i / 8 * 0x200000 + i % 8 * 0x80
/-- The fabric address of CHS_FRM_HI (R228). -/
def CHS_FRM_HI (i : Nat) : Nat := 0x2860024 + i / 8 * 0x200000 + i % 8 * 0x80
/-- The fabric address of CHS_LOOP_CNT (R228). -/
def CHS_LOOP_CNT (i : Nat) : Nat := 0x2860028 + i / 8 * 0x200000 + i % 8 * 0x80
/-- The fabric address of CHS_LC (R228). -/
def CHS_LC (i : Nat) : Nat := 0x286002C + i / 8 * 0x200000 + i % 8 * 0x80
/-- The fabric address of CHS_POS_WORD (R228). -/
def CHS_POS_WORD (i : Nat) : Nat := 0x2860030 + i / 8 * 0x200000 + i % 8 * 0x80
/-- The fabric address of CHS_POS_T_LO (R228). -/
def CHS_POS_T_LO (i : Nat) : Nat := 0x2860034 + i / 8 * 0x200000 + i % 8 * 0x80
/-- The fabric address of CHS_POS_T_HI_SNAP (R228). -/
def CHS_POS_T_HI_SNAP (i : Nat) : Nat := 0x2860038 + i / 8 * 0x200000 + i % 8 * 0x80
/-- The fabric address of CHS_POS_STAT (R228). -/
def CHS_POS_STAT (i : Nat) : Nat := 0x286003C + i / 8 * 0x200000 + i % 8 * 0x80
/-- The fabric address of CHS_INQ (R228). -/
def CHS_INQ (i : Nat) : Nat := 0x2860040 + i / 8 * 0x200000 + i % 8 * 0x80
/-- The fabric address of CHS_OUTQ (R228). -/
def CHS_OUTQ (i : Nat) : Nat := 0x2860044 + i / 8 * 0x200000 + i % 8 * 0x80
/-- The fabric address of CHS_Q_STAT (R228). -/
def CHS_Q_STAT (i : Nat) : Nat := 0x2860048 + i / 8 * 0x200000 + i % 8 * 0x80
/-- The fabric address of CHS_MEM_BASE (R228). -/
def CHS_MEM_BASE (i : Nat) : Nat := 0x286004C + i / 8 * 0x200000 + i % 8 * 0x80
/-- The fabric address of CHS_MEM_LEN (R228). -/
def CHS_MEM_LEN (i : Nat) : Nat := 0x2860050 + i / 8 * 0x200000 + i % 8 * 0x80
/-- The fabric address of CHS_PAC_CFG (R228). -/
def CHS_PAC_CFG (i j : Nat) : Nat := 0x2860058 + i / 8 * 0x200000 + i % 8 * 0x80 + j * 8
/-- The fabric address of CHS_PAC_CNT (R228). -/
def CHS_PAC_CNT (i j : Nat) : Nat := 0x286005C + i / 8 * 0x200000 + i % 8 * 0x80 + j * 8
/-- The fabric address of CHS_GSTART (R228). -/
def CHS_GSTART (i : Nat) : Nat := 0x2860800 + i * 0x200000
/-- The fabric address of CHS_GSTAT (R228). -/
def CHS_GSTAT (i : Nat) : Nat := 0x2860804 + i * 0x200000
/-- The fabric address of CRU_REF_CTL (R238). -/
def CRU_REF_CTL : Nat := 0x2500000
/-- The fabric address of CRU_TRG_CFG (R238). -/
def CRU_TRG_CFG (i : Nat) : Nat := 0x2500010 + i * 8
/-- The fabric address of CRU_TRG_DLY (R238). -/
def CRU_TRG_DLY (i : Nat) : Nat := 0x2500014 + i * 8
/-- The fabric address of CRU_FSRC (R238). -/
def CRU_FSRC (i : Nat) : Nat := 0x2500030 + i * 4
/-- The fabric address of CRU_CFG (R238). -/
def CRU_CFG (i : Nat) : Nat := 0x2500100 + i * 0x20
/-- The fabric address of CRU_RES (R238). -/
def CRU_RES (i : Nat) : Nat := 0x2500104 + i * 0x20
/-- The fabric address of CRU_T_LO (R238). -/
def CRU_T_LO (i : Nat) : Nat := 0x2500108 + i * 0x20
/-- The fabric address of CRU_T_HI_SNAP (R238). -/
def CRU_T_HI_SNAP (i : Nat) : Nat := 0x250010C + i * 0x20
/-- The fabric address of CRU_STAT (R238). -/
def CRU_STAT (i : Nat) : Nat := 0x2500110 + i * 0x20
/-- The fabric address of CRU_PAIR_CFG (R238). -/
def CRU_PAIR_CFG (i : Nat) : Nat := 0x2500300 + i * 0x10
/-- The fabric address of CRU_XTH (R238). -/
def CRU_XTH (i : Nat) : Nat := 0x2500304 + i * 0x10
/-- The fabric address of CRU_XRES (R238). -/
def CRU_XRES (i : Nat) : Nat := 0x2500308 + i * 0x10
/-- The fabric address of CRU_PAIR_STAT (R238). -/
def CRU_PAIR_STAT (i : Nat) : Nat := 0x250030C + i * 0x10
/-- The fabric address of ANV_CTL (R283). -/
def ANV_CTL (i : Nat) : Nat := if i < 16 then 0x2890000 + i / 4 * 0x200000 + i % 4 * 0x400 else 0x2000800 + (i - 16) * 0x400
/-- The fabric address of ANV_VBASE (R283). -/
def ANV_VBASE (i : Nat) : Nat := if i < 16 then 0x2890004 + i / 4 * 0x200000 + i % 4 * 0x400 else 0x2000804 + (i - 16) * 0x400
/-- The fabric address of ANV_GATE_BASE (R283). -/
def ANV_GATE_BASE (i : Nat) : Nat := if i < 16 then 0x2890008 + i / 4 * 0x200000 + i % 4 * 0x400 else 0x2000808 + (i - 16) * 0x400
/-- The fabric address of ANV_GATE_CNT (R283). -/
def ANV_GATE_CNT (i : Nat) : Nat := if i < 16 then 0x289000C + i / 4 * 0x200000 + i % 4 * 0x400 else 0x200080C + (i - 16) * 0x400
/-- The fabric address of ANV_SUPV (R283). -/
def ANV_SUPV (i : Nat) : Nat := if i < 16 then 0x2890010 + i / 4 * 0x200000 + i % 4 * 0x400 else 0x2000810 + (i - 16) * 0x400
/-- The fabric address of ANV_WDT_CFG (R283). -/
def ANV_WDT_CFG (i : Nat) : Nat := if i < 16 then 0x2890014 + i / 4 * 0x200000 + i % 4 * 0x400 else 0x2000814 + (i - 16) * 0x400
/-- The fabric address of ANV_WDT_KICK (R283). -/
def ANV_WDT_KICK (i : Nat) : Nat := if i < 16 then 0x2890018 + i / 4 * 0x200000 + i % 4 * 0x400 else 0x2000818 + (i - 16) * 0x400
/-- The fabric address of ANV_WDT_LEFT (R283). -/
def ANV_WDT_LEFT (i : Nat) : Nat := if i < 16 then 0x289001C + i / 4 * 0x200000 + i % 4 * 0x400 else 0x200081C + (i - 16) * 0x400
/-- The fabric address of ANV_INT_PEND_LO (R283). -/
def ANV_INT_PEND_LO (i : Nat) : Nat := if i < 16 then 0x2890020 + i / 4 * 0x200000 + i % 4 * 0x400 else 0x2000820 + (i - 16) * 0x400
/-- The fabric address of ANV_INT_PEND_HI (R283). -/
def ANV_INT_PEND_HI (i : Nat) : Nat := if i < 16 then 0x2890024 + i / 4 * 0x200000 + i % 4 * 0x400 else 0x2000824 + (i - 16) * 0x400
/-- The fabric address of ANV_EXC_CNT (R283). -/
def ANV_EXC_CNT (i : Nat) : Nat := if i < 16 then 0x2890028 + i / 4 * 0x200000 + i % 4 * 0x400 else 0x2000828 + (i - 16) * 0x400
/-- The fabric address of ANV_RGN_BASE (R283). -/
def ANV_RGN_BASE (i j : Nat) : Nat := if i < 16 then 0x2890040 + i / 4 * 0x200000 + i % 4 * 0x400 + j * 0x10 else 0x2000840 + (i - 16) * 0x400 + j * 0x10
/-- The fabric address of ANV_RGN_LIMIT (R283). -/
def ANV_RGN_LIMIT (i j : Nat) : Nat := if i < 16 then 0x2890044 + i / 4 * 0x200000 + i % 4 * 0x400 + j * 0x10 else 0x2000844 + (i - 16) * 0x400 + j * 0x10
/-- The fabric address of ANV_RGN_RIGHTS (R283). -/
def ANV_RGN_RIGHTS (i j : Nat) : Nat := if i < 16 then 0x2890048 + i / 4 * 0x200000 + i % 4 * 0x400 + j * 0x10 else 0x2000848 + (i - 16) * 0x400 + j * 0x10
/-- The fabric address of ANV_INT_CFG (R283). -/
def ANV_INT_CFG (i j : Nat) : Nat := if i < 16 then 0x2890200 + i / 4 * 0x200000 + i % 4 * 0x400 + j * 4 else 0x2000A00 + (i - 16) * 0x400 + j * 4
/-- The fabric address of ANV_EMB (R283). -/
def ANV_EMB (i j : Nat) : Nat := if i < 16 then 0x2890300 + i / 4 * 0x200000 + i % 4 * 0x400 + j * 4 else 0x2000B00 + (i - 16) * 0x400 + j * 4
/-- The fabric address of ANV_CWDT_CFG (R283). -/
def ANV_CWDT_CFG (i : Nat) : Nat := 0x2891000 + i * 0x200000
/-- The fabric address of ANV_CWDT_KICK (R283). -/
def ANV_CWDT_KICK (i : Nat) : Nat := 0x2891004 + i * 0x200000
/-- The fabric address of ANV_CWDT_STAT (R283). -/
def ANV_CWDT_STAT (i : Nat) : Nat := 0x2891008 + i * 0x200000
/-- The fabric address of ING_BANK_OWN (R297). -/
def ING_BANK_OWN (i : Nat) : Nat := if i < 64 then 0x2880000 + i / 16 * 0x200000 + i % 16 * 0x10 else 0x2001000 + (i - 64) * 0x10
/-- The fabric address of ING_BANK_SHARE (R297). -/
def ING_BANK_SHARE (i : Nat) : Nat := if i < 64 then 0x2880004 + i / 16 * 0x200000 + i % 16 * 0x10 else 0x2001004 + (i - 64) * 0x10
/-- The fabric address of ING_BANK_STAT (R297). -/
def ING_BANK_STAT (i : Nat) : Nat := if i < 64 then 0x2880008 + i / 16 * 0x200000 + i % 16 * 0x10 else 0x2001008 + (i - 64) * 0x10
/-- The fabric address of ING_ERR_ADDR (R297). -/
def ING_ERR_ADDR (i : Nat) : Nat := if i < 64 then 0x288000C + i / 16 * 0x200000 + i % 16 * 0x10 else 0x200100C + (i - 64) * 0x10
/-- The fabric address of ING_MARCH (R297). -/
def ING_MARCH (i : Nat) : Nat := if i < 64 then 0x2880100 + i / 16 * 0x200000 + i % 16 * 4 else 0x2001100 + (i - 64) * 4
/-- The fabric address of ING_SHARE_STALL (R297). -/
def ING_SHARE_STALL (i : Nat) : Nat := if i < 4 then 0x2880140 + i * 0x200000 else 0x2001140
/-- The fabric address of MEM_STAT (R298). -/
def MEM_STAT : Nat := 0x2200000
/-- The fabric address of MEM_ERR_ADDR (R298). -/
def MEM_ERR_ADDR : Nat := 0x2200004
/-- The fabric address of MEM_SCRUB (R298). -/
def MEM_SCRUB : Nat := 0x2200008
/-- The fabric address of MEM_SCRUB_PASS (R298). -/
def MEM_SCRUB_PASS : Nat := 0x220000C
/-- The fabric address of MEM_BAR2_BASE (R298). -/
def MEM_BAR2_BASE : Nat := 0x2200010
/-- The fabric address of MEM_HWIN_LO (R298). -/
def MEM_HWIN_LO (i : Nat) : Nat := 0x2200020 + i * 8
/-- The fabric address of MEM_HWIN_HI (R298). -/
def MEM_HWIN_HI (i : Nat) : Nat := 0x2200024 + i * 8
/-- The fabric address of MEM_HOST_DENY (R298). -/
def MEM_HOST_DENY : Nat := 0x2200040
/-- The fabric address of ASY_PAIR_CTL (R317). -/
def ASY_PAIR_CTL (i : Nat) : Nat := if i < 8 then 0x28A0000 + i / 2 * 0x200000 + i % 2 * 0x40 else 0x2001800
/-- The fabric address of ASY_PAIR_STAT (R317). -/
def ASY_PAIR_STAT (i : Nat) : Nat := if i < 8 then 0x28A0004 + i / 2 * 0x200000 + i % 2 * 0x40 else 0x2001804
/-- The fabric address of ASY_CHK_CNT (R317). -/
def ASY_CHK_CNT (i : Nat) : Nat := if i < 8 then 0x28A0008 + i / 2 * 0x200000 + i % 2 * 0x40 else 0x2001808
/-- The fabric address of ASY_OUT_CNT (R317). -/
def ASY_OUT_CNT (i : Nat) : Nat := if i < 8 then 0x28A000C + i / 2 * 0x200000 + i % 2 * 0x40 else 0x200180C
/-- The fabric address of ASY_MIS_A (R317). -/
def ASY_MIS_A (i j : Nat) : Nat := if i < 8 then 0x28A0010 + i / 2 * 0x200000 + i % 2 * 0x40 + j * 4 else 0x2001810 + j * 4
/-- The fabric address of ASY_MIS_B (R317). -/
def ASY_MIS_B (i j : Nat) : Nat := if i < 8 then 0x28A0018 + i / 2 * 0x200000 + i % 2 * 0x40 + j * 4 else 0x2001818 + j * 4
/-- The fabric address of ASY_MIS_ID (R317). -/
def ASY_MIS_ID (i : Nat) : Nat := if i < 8 then 0x28A0020 + i / 2 * 0x200000 + i % 2 * 0x40 else 0x2001820
/-- The fabric address of ASY_MIR (R317). -/
def ASY_MIR (i j : Nat) : Nat := if i < 8 then 0x28A0024 + i / 2 * 0x200000 + i % 2 * 0x40 + j * 4 else 0x2001824 + j * 4
/-- The fabric address of ASY_OUT_LO (R317). -/
def ASY_OUT_LO (i j : Nat) : Nat := if i < 8 then 0x28A0100 + i / 2 * 0x200000 + i % 2 * 0x20 + j * 8 else 0x2001900 + j * 8
/-- The fabric address of ASY_OUT_HI (R317). -/
def ASY_OUT_HI (i j : Nat) : Nat := if i < 8 then 0x28A0104 + i / 2 * 0x200000 + i % 2 * 0x20 + j * 8 else 0x2001904 + j * 8
/-- The fabric address of ASY_INA_MAP (R317). -/
def ASY_INA_MAP (i j : Nat) : Nat := if i < 4 then 0x28A0200 + i * 0x200000 + j * 4 else 0x2001A00 + j * 4
/-- The fabric address of ASY_LANE_STAT (R317). -/
def ASY_LANE_STAT (i : Nat) : Nat := 0x28A0300 + i / 2 * 0x200000 + i % 2 * 0x10
/-- The fabric address of ASY_LANE_LAST (R317). -/
def ASY_LANE_LAST (i : Nat) : Nat := 0x28A0304 + i / 2 * 0x200000 + i % 2 * 0x10
/-- The fabric address of ASY_LANE_T_LO (R317). -/
def ASY_LANE_T_LO (i : Nat) : Nat := 0x28A0308 + i / 2 * 0x200000 + i % 2 * 0x10
/-- The fabric address of ASY_LANE_T_HI_SNAP (R317). -/
def ASY_LANE_T_HI_SNAP (i : Nat) : Nat := 0x28A030C + i / 2 * 0x200000 + i % 2 * 0x10
/-- The fabric address of ASY_GSTAT (R317). -/
def ASY_GSTAT (i : Nat) : Nat := if i < 4 then 0x28A0380 + i * 0x200000 else 0x2001B80
/-- The fabric address of GLB_PCIE_CTL (R328). -/
def GLB_PCIE_CTL : Nat := 0x2000200
/-- The fabric address of GLB_PCIE_STAT (R328). -/
def GLB_PCIE_STAT : Nat := 0x2000204
/-- The fabric address of GLB_PCIE_ERR (R328). -/
def GLB_PCIE_ERR : Nat := 0x2000208
/-- The fabric address of GLB_MSIX_MOD (R328). -/
def GLB_MSIX_MOD (i : Nat) : Nat := 0x2004800 + i * 4
/-- The fabric address of LDL_ADMIN_CTL (R353). -/
def LDL_ADMIN_CTL : Nat := 0x2100000
/-- The fabric address of LDL_ADMIN_VEC (R353). -/
def LDL_ADMIN_VEC : Nat := 0x2100004
/-- The fabric address of LDL_ASQ_BASE_LO (R353). -/
def LDL_ASQ_BASE_LO : Nat := 0x2100010
/-- The fabric address of LDL_ASQ_BASE_HI (R353). -/
def LDL_ASQ_BASE_HI : Nat := 0x2100014
/-- The fabric address of LDL_ACQ_BASE_LO (R353). -/
def LDL_ACQ_BASE_LO : Nat := 0x2100018
/-- The fabric address of LDL_ACQ_BASE_HI (R353). -/
def LDL_ACQ_BASE_HI : Nat := 0x210001C
/-- The fabric address of LDL_AEQ_BASE_LO (R353). -/
def LDL_AEQ_BASE_LO : Nat := 0x2100020
/-- The fabric address of LDL_AEQ_BASE_HI (R353). -/
def LDL_AEQ_BASE_HI : Nat := 0x2100024
/-- The fabric address of LDL_GSTAT (R353). -/
def LDL_GSTAT : Nat := 0x2100040
/-- The fabric address of LDL_DB_ERR (R353). -/
def LDL_DB_ERR : Nat := 0x2100044
/-- The fabric address of LDL_EVT_DROP (R353). -/
def LDL_EVT_DROP : Nat := 0x2100048
/-- The fabric address of LDL_EVT_ROUTE (R353). -/
def LDL_EVT_ROUTE (i : Nat) : Nat := 0x2100084 + (i - 1) * 4
/-- The fabric address of LDL_RING_BASE_LO (R353). -/
def LDL_RING_BASE_LO (i : Nat) : Nat := 0x2110000 + i * 0x20
/-- The fabric address of LDL_RING_BASE_HI (R353). -/
def LDL_RING_BASE_HI (i : Nat) : Nat := 0x2110004 + i * 0x20
/-- The fabric address of LDL_RING_CFG (R353). -/
def LDL_RING_CFG (i : Nat) : Nat := 0x2110008 + i * 0x20
/-- The fabric address of LDL_RING_PTR (R353). -/
def LDL_RING_PTR (i : Nat) : Nat := 0x211000C + i * 0x20
/-- The fabric address of LDL_RING_STAT (R353). -/
def LDL_RING_STAT (i : Nat) : Nat := 0x2110010 + i * 0x20
/-- The fabric address of LDL_RING_MIR_LO (R353). -/
def LDL_RING_MIR_LO (i : Nat) : Nat := 0x2110014 + i * 0x20
/-- The fabric address of LDL_RING_MIR_HI (R353). -/
def LDL_RING_MIR_HI (i : Nat) : Nat := 0x2110018 + i * 0x20
/-- The fabric address of SLD_CTL (R392). -/
def SLD_CTL (i : Nat) : Nat := 0x2410000 + i * 0x100
/-- The fabric address of SLD_STAT (R392). -/
def SLD_STAT (i : Nat) : Nat := 0x2410004 + i * 0x100
/-- The fabric address of SLD_ROUND (R392). -/
def SLD_ROUND (i : Nat) : Nat := 0x2410008 + i * 0x100
/-- The fabric address of SLD_ROUND_LEN (R392). -/
def SLD_ROUND_LEN (i : Nat) : Nat := 0x241000C + i * 0x100
/-- The fabric address of SLD_LIST (R392). -/
def SLD_LIST (i j : Nat) : Nat := 0x2410010 + i * 0x100 + j * 4
/-- The fabric address of SLD_LIST_NEXT (R392). -/
def SLD_LIST_NEXT (i j : Nat) : Nat := 0x2410020 + i * 0x100 + j * 4
/-- The fabric address of SLD_CMD_PEND (R392). -/
def SLD_CMD_PEND (i j : Nat) : Nat := 0x2410030 + i * 0x100 + j * 4
/-- The fabric address of SLD_PRESENT (R392). -/
def SLD_PRESENT (i j : Nat) : Nat := 0x2410040 + i * 0x100 + j * 4
/-- The fabric address of SLD_ERR (R392). -/
def SLD_ERR (i : Nat) : Nat := 0x2410050 + i * 0x100
/-- The fabric address of SEM_CTL (R410). -/
def SEM_CTL : Nat := 0x2400000
/-- The fabric address of SEM_CYC (R410). -/
def SEM_CYC : Nat := 0x2400004
/-- The fabric address of SEM_KEEP (R410). -/
def SEM_KEEP : Nat := 0x2400008
/-- The fabric address of SEM_SECT (R410). -/
def SEM_SECT : Nat := 0x240000C
/-- The fabric address of SEM_TX_BASE (R410). -/
def SEM_TX_BASE : Nat := 0x2400010
/-- The fabric address of SEM_RX_BASE (R410). -/
def SEM_RX_BASE : Nat := 0x2400014
/-- The fabric address of SEM_MBX_BASE (R410). -/
def SEM_MBX_BASE : Nat := 0x2400018
/-- The fabric address of SEM_STAT (R410). -/
def SEM_STAT : Nat := 0x2400020
/-- The fabric address of SEM_EPOCH (R410). -/
def SEM_EPOCH : Nat := 0x2400028
/-- The fabric address of SEM_CYC_STAT (R410). -/
def SEM_CYC_STAT : Nat := 0x240002C
/-- The fabric address of SEM_GSTAT (R410). -/
def SEM_GSTAT : Nat := 0x2400030
/-- The fabric address of SEM_MBX_STAT (R410). -/
def SEM_MBX_STAT : Nat := 0x2400034
/-- The fabric address of SEM_MBX_REL (R410). -/
def SEM_MBX_REL : Nat := 0x2400038
/-- The fabric address of SEM_PORT_STAT (R410). -/
def SEM_PORT_STAT (i : Nat) : Nat := 0x2400100 + i * 0x20
/-- The fabric address of SEM_PORT_CFG (R410). -/
def SEM_PORT_CFG (i : Nat) : Nat := 0x2400104 + i * 0x20
/-- The fabric address of SEM_LINK_DLY (R410). -/
def SEM_LINK_DLY (i : Nat) : Nat := 0x2400108 + i * 0x20
/-- The fabric address of SEM_PORT_ERR (R410). -/
def SEM_PORT_ERR (i : Nat) : Nat := 0x240010C + i * 0x20
/-- The fabric address of TCH_STAT (R437). -/
def TCH_STAT : Nat := 0x2600000
/-- The fabric address of TCH_NEWEST (R437). -/
def TCH_NEWEST : Nat := 0x2600004
/-- The fabric address of TCH_SEQ (R437). -/
def TCH_SEQ : Nat := 0x2600008
/-- The fabric address of TCH_CFG (R437). -/
def TCH_CFG : Nat := 0x260000C
/-- The fabric address of TCH_HOLDUP (R437). -/
def TCH_HOLDUP : Nat := 0x2600010
/-- The fabric address of TCH_DIP_CNT (R437). -/
def TCH_DIP_CNT : Nat := 0x2600014
/-- The fabric address of HLM_STAT (R453). -/
def HLM_STAT : Nat := 0x2300000
/-- The fabric address of HLM_SESSIONS (R453). -/
def HLM_SESSIONS : Nat := 0x2300004
/-- The fabric address of HLM_FLOOR (R453). -/
def HLM_FLOOR : Nat := 0x2300008
/-- The fabric address of HLM_AUTH_MASK (R453). -/
def HLM_AUTH_MASK : Nat := 0x230000C
/-- The fabric address of HLM_IMG_REJ (R453). -/
def HLM_IMG_REJ : Nat := 0x2300010
/-- The fabric address of HLM_ID_PUB (R453). -/
def HLM_ID_PUB (i : Nat) : Nat := 0x2300040 + i * 4
/-- The fabric address of HLM_SERIAL_LO (R453). -/
def HLM_SERIAL_LO : Nat := 0x23000A0
/-- The fabric address of HLM_SERIAL_HI (R453). -/
def HLM_SERIAL_HI : Nat := 0x23000A4
/-- The fabric address of TCH_SUP_STAT (R468). -/
def TCH_SUP_STAT : Nat := 0x2600100
/-- The fabric address of TCH_SUP_VCORE (R468). -/
def TCH_SUP_VCORE : Nat := 0x2600104
/-- The fabric address of TCH_SUP_VAUX (R468). -/
def TCH_SUP_VAUX : Nat := 0x2600108
/-- The fabric address of TCH_RST_CAUSE (R468). -/
def TCH_RST_CAUSE : Nat := 0x2600110
/-- The fabric address of TCH_BOOT (R468). -/
def TCH_BOOT : Nat := 0x2600114
/-- The fabric address of TCH_WDT_CFG (R468). -/
def TCH_WDT_CFG : Nat := 0x2600120
/-- The fabric address of TCH_WDT_KICK (R468). -/
def TCH_WDT_KICK : Nat := 0x2600124
/-- The fabric address of TCH_WDT_LEFT (R468). -/
def TCH_WDT_LEFT : Nat := 0x2600128
/-- The fabric address of GLB_RST_CTL (R469). -/
def GLB_RST_CTL : Nat := 0x2000300
/-- The fabric address of DBG_STAT (R487). -/
def DBG_STAT : Nat := 0x2700000
/-- The fabric address of DBG_CTL (R487). -/
def DBG_CTL : Nat := 0x2700004
/-- The fabric address of DBG_WDT_FREEZE (R487). -/
def DBG_WDT_FREEZE : Nat := 0x2700008
/-- The fabric address of DBG_HALT_CAUSE (R487). -/
def DBG_HALT_CAUSE (i : Nat) : Nat := 0x2700010 + i * 4
/-- The fabric address of DBG_HALT_T_LO (R487). -/
def DBG_HALT_T_LO : Nat := 0x2700020
/-- The fabric address of DBG_HALT_T_HI_SNAP (R487). -/
def DBG_HALT_T_HI_SNAP : Nat := 0x2700024
/-- The fabric address of DBG_BW_CFG (R487). -/
def DBG_BW_CFG (i j : Nat) : Nat := 0x2701000 + i * 0x40 + j * 0x10
/-- The fabric address of DBG_BW_START (R487). -/
def DBG_BW_START (i j : Nat) : Nat := 0x2701004 + i * 0x40 + j * 0x10
/-- The fabric address of DBG_BW_END (R487). -/
def DBG_BW_END (i j : Nat) : Nat := 0x2701008 + i * 0x40 + j * 0x10
/-- The fabric address of DBG_BW_VAL (R487). -/
def DBG_BW_VAL (i j : Nat) : Nat := 0x270100C + i * 0x40 + j * 0x10
/-- The fabric address of DBG_CAP_STAT (R487). -/
def DBG_CAP_STAT (i : Nat) : Nat := 0x2702000 + i * 0x10
/-- The fabric address of DBG_CAP_WPTR (R487). -/
def DBG_CAP_WPTR (i : Nat) : Nat := 0x2702004 + i * 0x10
/-- The fabric address of DBG_CAP_SEQ (R487). -/
def DBG_CAP_SEQ (i : Nat) : Nat := 0x2702008 + i * 0x10
/-- The fabric address of EVC_CFG (R488). -/
def EVC_CFG (i : Nat) : Nat := if i < 64 then 0x28B0000 + i / 16 * 0x200000 + i % 16 * 0x20 else 0x2708000 + (i - 64) * 0x20
/-- The fabric address of EVC_CNT_LO (R488). -/
def EVC_CNT_LO (i : Nat) : Nat := if i < 64 then 0x28B0004 + i / 16 * 0x200000 + i % 16 * 0x20 else 0x2708004 + (i - 64) * 0x20
/-- The fabric address of EVC_CNT_HI_SNAP (R488). -/
def EVC_CNT_HI_SNAP (i : Nat) : Nat := if i < 64 then 0x28B0008 + i / 16 * 0x200000 + i % 16 * 0x20 else 0x2708008 + (i - 64) * 0x20
/-- The fabric address of EVC_THR_LO (R488). -/
def EVC_THR_LO (i : Nat) : Nat := if i < 64 then 0x28B000C + i / 16 * 0x200000 + i % 16 * 0x20 else 0x270800C + (i - 64) * 0x20
/-- The fabric address of EVC_THR_HI (R488). -/
def EVC_THR_HI (i : Nat) : Nat := if i < 64 then 0x28B0010 + i / 16 * 0x200000 + i % 16 * 0x20 else 0x2708010 + (i - 64) * 0x20
/-- The fabric address of EVC_SNAP_LO (R488). -/
def EVC_SNAP_LO (i : Nat) : Nat := if i < 64 then 0x28B0014 + i / 16 * 0x200000 + i % 16 * 0x20 else 0x2708014 + (i - 64) * 0x20
/-- The fabric address of EVC_SNAP_HI (R488). -/
def EVC_SNAP_HI (i : Nat) : Nat := if i < 64 then 0x28B0018 + i / 16 * 0x200000 + i % 16 * 0x20 else 0x2708018 + (i - 64) * 0x20
/-- The fabric address of GLB_TEMP (R506). -/
def GLB_TEMP : Nat := 0x2000400
/-- The fabric address of PLN_UNLOCK (R43). -/
def PLN_UNLOCK (i : Nat) : Nat := 0x28004FC + i * 0x200000
/-- The fabric address of AXS_UNLOCK (R43). -/
def AXS_UNLOCK (i : Nat) : Nat := 0x28100FC + i / 16 * 0x200000 + i % 16 * 0x400
/-- The fabric address of DRW_UNLOCK (R43). -/
def DRW_UNLOCK (i : Nat) : Nat := 0x28400FC + i * 0x200000
/-- The fabric address of PWM_UNLOCK (R43). -/
def PWM_UNLOCK (i : Nat) : Nat := 0x28204FC + i * 0x200000
/-- The fabric address of FBK_UNLOCK (R43). -/
def FBK_UNLOCK (i : Nat) : Nat := 0x28308FC + i * 0x200000
/-- The fabric address of FLX_UNLOCK (R43). -/
def FLX_UNLOCK (i : Nat) : Nat := 0x28705FC + i * 0x200000
/-- The fabric address of CHS_UNLOCK (R43). -/
def CHS_UNLOCK (i : Nat) : Nat := 0x28608FC + i * 0x200000
/-- The fabric address of ANV_UNLOCK (R43). -/
def ANV_UNLOCK (i : Nat) : Nat := 0x28910FC + i * 0x200000
/-- The fabric address of ING_UNLOCK (R43). -/
def ING_UNLOCK (i : Nat) : Nat := 0x28801FC + i * 0x200000
/-- The fabric address of MEM_UNLOCK (R43). -/
def MEM_UNLOCK : Nat := 0x22000FC
/-- The fabric address of ASY_UNLOCK (R43). -/
def ASY_UNLOCK (i : Nat) : Nat := 0x28A03FC + i * 0x200000
/-- The fabric address of LDL_UNLOCK (R43). -/
def LDL_UNLOCK : Nat := 0x21000FC
/-- The fabric address of SLD_UNLOCK (R43). -/
def SLD_UNLOCK : Nat := 0x24108FC
/-- The fabric address of SEM_UNLOCK (R43). -/
def SEM_UNLOCK : Nat := 0x24000FC
/-- The fabric address of TCH_UNLOCK (R43). -/
def TCH_UNLOCK : Nat := 0x26000FC
/-- The fabric address of CHS_PROG (R228). -/
def CHS_PROG (i j : Nat) : Nat := 0x2861000 + i / 8 * 0x200000 + i % 8 * 0x100 + j * 4
/-- The fabric address of EVC_GSNAP (R488). -/
def EVC_GSNAP : Nat := 0x2708400
/-- The fabric address of EVC_GSNAP_T_LO (R488). -/
def EVC_GSNAP_T_LO : Nat := 0x2708404
/-- The fabric address of EVC_GSNAP_T_HI_SNAP (R488). -/
def EVC_GSNAP_T_HI_SNAP : Nat := 0x2708408

/-! ## Fields: lowest bit and width, as the register tables give them. -/

def GLB_ID_family : Fld := ⟨16, 16⟩
def GLB_ID_cluster_mask : Fld := ⟨12, 4⟩
def GLB_ID_step_letter : Fld := ⟨8, 4⟩
def GLB_ID_step_digit : Fld := ⟨4, 4⟩
def GLB_ID_part : Fld := ⟨0, 4⟩
def GLB_UNLOCK_lock_violation : Fld := ⟨31, 1⟩
def GLB_UNLOCK_key : Fld := ⟨0, 16⟩
def GLB_CLK_STAT_main_lock : Fld := ⟨31, 1⟩
def GLB_CLK_STAT_link_lock : Fld := ⟨30, 1⟩
def GLB_CLK_STAT_locked : Fld := ⟨29, 1⟩
def GLB_CLK_STAT_copy_err : Fld := ⟨28, 1⟩
def GLB_CLK_STAT_step_refused : Fld := ⟨27, 1⟩
def GLB_CLK_STAT_spurious_edges : Fld := ⟨16, 8⟩
def GLB_CLK_STAT_flux_drop : Fld := ⟨0, 16⟩
def GLB_CLK_TRIM_trim : Fld := ⟨0, 32⟩
def GLB_TIME_CTL_lock_tol : Fld := ⟨2, 8⟩
def GLB_TIME_CTL_time_mode : Fld := ⟨0, 2⟩
def GLB_TIME_LO_time_lo : Fld := ⟨0, 32⟩
def GLB_TIME_HI_SNAP_time_hi_snap : Fld := ⟨0, 32⟩
def GLB_TIME_HI_time_hi : Fld := ⟨0, 32⟩
def GLB_TIME_STEP_step : Fld := ⟨0, 32⟩
def GLB_SYNC_IN_PERIOD_sync_period : Fld := ⟨0, 32⟩
def GLB_SYNC_IN_LAT_LO_lat_lo : Fld := ⟨0, 32⟩
def GLB_SYNC_IN_LAT_HI_SNAP_lat_hi_snap : Fld := ⟨0, 32⟩
def GLB_SYNC_OUT_PERIOD_out_period : Fld := ⟨0, 32⟩
def GLB_SYNC_OUT_OFFSET_out_offset : Fld := ⟨0, 32⟩
def GLB_SYNC_OUT_CTL_out_width : Fld := ⟨0, 16⟩
def PLN_LANE_STAT_paired : Fld := ⟨31, 1⟩
def PLN_LANE_STAT_primary : Fld := ⟨30, 1⟩
def PLN_LANE_STAT_fg_busy : Fld := ⟨29, 1⟩
def PLN_LANE_STAT_bg_busy : Fld := ⟨28, 1⟩
def PLN_LANE_STAT_bg_queued : Fld := ⟨24, 4⟩
def PLN_LANE_STAT_var_protect : Fld := ⟨2, 1⟩
def PLN_LANE_STAT_sat_seen : Fld := ⟨1, 1⟩
def PLN_LANE_STAT_ecc_fault : Fld := ⟨0, 1⟩
def PLN_OCC_occ : Fld := ⟨0, 20⟩
def PLN_HYPER_hyper : Fld := ⟨0, 17⟩
def PLN_BG_STAT_min_slack : Fld := ⟨16, 16⟩
def PLN_BG_STAT_abandoned : Fld := ⟨0, 16⟩
def PLN_SLOT_CFG_valid : Fld := ⟨31, 1⟩
def PLN_SLOT_CFG_emu_en : Fld := ⟨30, 1⟩
def PLN_SLOT_CFG_laxis : Fld := ⟨26, 4⟩
def PLN_SLOT_CFG_inmask : Fld := ⟨22, 4⟩
def PLN_SLOT_CFG_cur_len : Fld := ⟨11, 8⟩
def PLN_SLOT_CFG_cur_base : Fld := ⟨0, 11⟩
def PLN_SLOT_VEL_en : Fld := ⟨31, 1⟩
def PLN_SLOT_VEL_div : Fld := ⟨28, 3⟩
def PLN_SLOT_VEL_len : Fld := ⟨12, 12⟩
def PLN_SLOT_VEL_base : Fld := ⟨0, 11⟩
def PLN_SLOT_POS_en : Fld := ⟨31, 1⟩
def PLN_SLOT_POS_div : Fld := ⟨28, 3⟩
def PLN_SLOT_POS_len : Fld := ⟨12, 12⟩
def PLN_SLOT_POS_base : Fld := ⟨0, 11⟩
def PLN_SLOT_SCHED_bg_phase : Fld := ⟨28, 4⟩
def PLN_SLOT_SCHED_samp_period : Fld := ⟨0, 17⟩
def PLN_SLOT_PHASE_samp_phase : Fld := ⟨0, 17⟩
def PLN_SLOT_RUN_last_len : Fld := ⟨24, 8⟩
def PLN_SLOT_RUN_max_len : Fld := ⟨16, 8⟩
def PLN_LAC_CFG_en : Fld := ⟨31, 1⟩
def PLN_LAC_CFG_action : Fld := ⟨29, 2⟩
def PLN_LAC_CFG_slot_q : Fld := ⟨28, 1⟩
def PLN_LAC_CFG_slot : Fld := ⟨26, 2⟩
def PLN_LAC_CFG_addr : Fld := ⟨0, 11⟩
def PLN_LAC_CNT_hits : Fld := ⟨0, 32⟩
def PLN_COMMIT_slots : Fld := ⟨0, 16⟩
def PLN_LS_ADDR_lane : Fld := ⟨11, 2⟩
def PLN_LS_ADDR_word : Fld := ⟨0, 11⟩
def PLN_LS_DATA_LO_data_lo : Fld := ⟨0, 32⟩
def PLN_LS_DATA_HI_data_hi : Fld := ⟨0, 32⟩
def PLN_LS_STAT_ls_protect : Fld := ⟨31, 1⟩
def PLN_LS_STAT_ecc_uncorr : Fld := ⟨8, 8⟩
def PLN_LS_STAT_ecc_corr : Fld := ⟨0, 8⟩
def AXS_STATE_stopping : Fld := ⟨31, 1⟩
def AXS_STATE_ramp : Fld := ⟨30, 1⟩
def AXS_STATE_resp_done : Fld := ⟨29, 1⟩
def AXS_STATE_cause_act : Fld := ⟨28, 1⟩
def AXS_STATE_lane : Fld := ⟨20, 2⟩
def AXS_STATE_slot : Fld := ⟨18, 2⟩
def AXS_STATE_state : Fld := ⟨0, 3⟩
def AXS_CTL_refused : Fld := ⟨31, 1⟩
def AXS_CTL_req : Fld := ⟨0, 4⟩
def AXS_FAULT_fault_count : Fld := ⟨16, 8⟩
def AXS_FAULT_response : Fld := ⟨8, 3⟩
def AXS_FAULT_cause : Fld := ⟨0, 8⟩
def AXS_CAUSE_SEEN_seen : Fld := ⟨0, 32⟩
def AXS_CAUSE_ACT_act : Fld := ⟨0, 32⟩
def AXS_FAULT_TIME_LO_t_lo : Fld := ⟨0, 32⟩
def AXS_FAULT_TIME_HI_SNAP_t_hi_snap : Fld := ⟨0, 32⟩
def AXS_FAULT_REQ_cause : Fld := ⟨0, 8⟩
def AXS_FRMAP_map : Fld := ⟨0, 32⟩
def AXS_MISS_CFG_miss_limit : Fld := ⟨0, 8⟩
def AXS_MISS_STAT_miss : Fld := ⟨31, 1⟩
def AXS_MISS_STAT_last_kind : Fld := ⟨28, 3⟩
def AXS_MISS_STAT_cons_miss : Fld := ⟨8, 8⟩
def AXS_MISS_STAT_max_cons : Fld := ⟨0, 8⟩
def AXS_MISS_CUR_CNT_cur_miss : Fld := ⟨0, 32⟩
def AXS_MISS_BG_CNT_bg_miss : Fld := ⟨0, 32⟩
def AXS_RGN_CFG_fix : Fld := ⟨31, 1⟩
def AXS_RGN_CFG_fix_region : Fld := ⟨28, 3⟩
def AXS_RGN_CFG_evt_en : Fld := ⟨27, 1⟩
def AXS_RGN_CFG_region_err : Fld := ⟨26, 1⟩
def AXS_RGN_CFG_top : Fld := ⟨2, 3⟩
def AXS_RGN_CFG_selector : Fld := ⟨0, 2⟩
def AXS_RGN_TH_th : Fld := ⟨0, 32⟩
def AXS_RGN_HYST_hyst : Fld := ⟨0, 32⟩
def AXS_LOAD_EST_load : Fld := ⟨0, 32⟩
def AXS_RGN_STAT_changes : Fld := ⟨16, 16⟩
def AXS_RGN_STAT_prev_region : Fld := ⟨8, 3⟩
def AXS_RGN_STAT_region : Fld := ⟨0, 3⟩
def AXS_SEL_VAL_sel : Fld := ⟨0, 32⟩
def AXS_RGN_DWELL_dwell : Fld := ⟨0, 32⟩
def AXS_RAMP_DECEL_ramp_decel : Fld := ⟨0, 32⟩
def AXS_RAMP_TMAX_ramp_tmax : Fld := ⟨0, 24⟩
def AXS_RAMP_HOLD_ramp_hold : Fld := ⟨0, 16⟩
def AXS_RAMP_STAT_outcome : Fld := ⟨30, 2⟩
def AXS_RAMP_STAT_elapsed : Fld := ⟨0, 24⟩
def DRW_CLK_en : Fld := ⟨31, 1⟩
def DRW_CLK_running : Fld := ⟨30, 1⟩
def DRW_CLK_clk_fault : Fld := ⟨29, 1⟩
def DRW_CLK_clk_lost : Fld := ⟨28, 1⟩
def DRW_CLK_clk_div : Fld := ⟨0, 8⟩
def DRW_STAT_adm_lock : Fld := ⟨31, 1⟩
def DRW_STAT_cfg_refused : Fld := ⟨30, 1⟩
def DRW_STAT_oc_axes : Fld := ⟨0, 16⟩
def DRW_CFG_stuck_len : Fld := ⟨0, 8⟩
def DRW_WIN_CFG_win_evt : Fld := ⟨31, 1⟩
def DRW_WIN_CFG_two_sensor : Fld := ⟨30, 1⟩
def DRW_WIN_CFG_win_delay : Fld := ⟨0, 16⟩
def DRW_WIN_LEN_win_len : Fld := ⟨0, 16⟩
def DRW_TS_LO_ts_lo : Fld := ⟨0, 32⟩
def DRW_TS_HI_SNAP_ts_hi_snap : Fld := ⟨0, 32⟩
def DRW_CH_CFG_ch_en : Fld := ⟨31, 1⟩
def DRW_CH_CFG_win_mode : Fld := ⟨30, 1⟩
def DRW_CH_CFG_order : Fld := ⟨29, 1⟩
def DRW_CH_CFG_width : Fld := ⟨24, 5⟩
def DRW_CH_CFG_sdc_sel : Fld := ⟨22, 2⟩
def DRW_CH_CFG_src : Fld := ⟨16, 6⟩
def DRW_CH_CFG_osr_m1 : Fld := ⟨8, 8⟩
def DRW_CH_CFG_cap_dly : Fld := ⟨0, 8⟩
def DRW_CH_CORR_offset : Fld := ⟨16, 16⟩
def DRW_CH_CORR_gain : Fld := ⟨0, 16⟩
def DRW_OC_CFG_oc_act : Fld := ⟨30, 2⟩
def DRW_OC_CFG_oc_osr : Fld := ⟨16, 6⟩
def DRW_OC_CFG_oc_qual_m1 : Fld := ⟨0, 4⟩
def DRW_OC_TH_hi_th : Fld := ⟨16, 16⟩
def DRW_OC_TH_lo_th : Fld := ⟨0, 16⟩
def DRW_RES_valid : Fld := ⟨31, 1⟩
def DRW_RES_seq : Fld := ⟨24, 7⟩
def DRW_RES_res : Fld := ⟨0, 24⟩
def DRW_CH_STAT_oc_hi : Fld := ⟨31, 1⟩
def DRW_CH_STAT_oc_lo : Fld := ⟨30, 1⟩
def DRW_CH_STAT_oc_now : Fld := ⟨29, 1⟩
def DRW_CH_STAT_stuck : Fld := ⟨28, 1⟩
def DRW_CH_STAT_no_data : Fld := ⟨27, 1⟩
def DRW_CH_STAT_overrun : Fld := ⟨26, 1⟩
def DRW_CH_STAT_clip : Fld := ⟨25, 1⟩
def DRW_CH_STAT_th_err : Fld := ⟨24, 1⟩
def DRW_CH_STAT_unsettled : Fld := ⟨23, 1⟩
def DRW_CH_STAT_clk_lost : Fld := ⟨22, 1⟩
def DRW_CH_STAT_inval_cnt : Fld := ⟨0, 16⟩
def DRW_OC_VAL_oc_val : Fld := ⟨0, 16⟩
def PWM_CFG_center : Fld := ⟨31, 1⟩
def PWM_CFG_dbl : Fld := ⟨30, 1⟩
def PWM_CFG_upd_pt : Fld := ⟨29, 1⟩
def PWM_CFG_upd_div : Fld := ⟨27, 2⟩
def PWM_PER_per : Fld := ⟨0, 17⟩
def PWM_OFS_ofs : Fld := ⟨0, 17⟩
def PWM_DT_min_pulse : Fld := ⟨16, 10⟩
def PWM_DT_dt_f : Fld := ⟨10, 5⟩
def PWM_DT_dt_c : Fld := ⟨0, 10⟩
def PWM_POL_pol : Fld := ⟨0, 6⟩
def PWM_FLT_flt_en : Fld := ⟨31, 1⟩
def PWM_FLT_flt_filt : Fld := ⟨0, 5⟩
def PWM_HOLD_hold_en : Fld := ⟨31, 1⟩
def PWM_HOLD_hold_left : Fld := ⟨8, 8⟩
def PWM_HOLD_hold_cnt : Fld := ⟨0, 8⟩
def PWM_SHD_U_shd_u : Fld := ⟨0, 32⟩
def PWM_SHD_V_shd_v : Fld := ⟨0, 32⟩
def PWM_SHD_W_shd_w : Fld := ⟨0, 32⟩
def PWM_ACT_U_act_u : Fld := ⟨0, 32⟩
def PWM_ACT_V_act_v : Fld := ⟨0, 32⟩
def PWM_ACT_W_act_w : Fld := ⟨0, 32⟩
def PWM_STAT_out_mode : Fld := ⟨30, 2⟩
def PWM_STAT_forced : Fld := ⟨29, 1⟩
def PWM_STAT_flt_live : Fld := ⟨28, 1⟩
def PWM_STAT_flt_seen : Fld := ⟨27, 1⟩
def PWM_STAT_sto_live : Fld := ⟨26, 1⟩
def PWM_STAT_pulse_drop : Fld := ⟨25, 1⟩
def PWM_STAT_held : Fld := ⟨24, 1⟩
def PWM_STAT_cnt : Fld := ⟨0, 17⟩
def PWM_STO_MAP_axes : Fld := ⟨0, 16⟩
def PWM_STO_CFG_sto_filt : Fld := ⟨0, 5⟩
def PWM_STO_STAT_seen : Fld := ⟨8, 8⟩
def PWM_STO_STAT_live : Fld := ⟨0, 8⟩
def PWM_GSTAT_adm_lock : Fld := ⟨31, 1⟩
def PWM_GSTAT_cfg_err : Fld := ⟨30, 1⟩
def PWM_GSTAT_sto_refused : Fld := ⟨29, 1⟩
def PWM_GSTAT_safe_axes : Fld := ⟨0, 16⟩
def FBK_CFG_enc_en : Fld := ⟨31, 1⟩
def FBK_CFG_in_mode : Fld := ⟨30, 1⟩
def FBK_CFG_cnt_mode : Fld := ⟨28, 2⟩
def FBK_CFG_swap_ab : Fld := ⟨27, 1⟩
def FBK_CFG_inv_z : Fld := ⟨26, 1⟩
def FBK_CFG_idx_gate : Fld := ⟨24, 2⟩
def FBK_CFG_dir_irq : Fld := ⟨23, 1⟩
def FBK_CFG_filt : Fld := ⟨0, 8⟩
def FBK_POS_pos : Fld := ⟨0, 32⟩
def FBK_LAT_POS_lat_pos : Fld := ⟨0, 32⟩
def FBK_SPD_spd : Fld := ⟨0, 32⟩
def FBK_SPD_CFG_spd_tmo : Fld := ⟨16, 16⟩
def FBK_SPD_CFG_spd_min : Fld := ⟨0, 16⟩
def FBK_STAT_lat_valid : Fld := ⟨31, 1⟩
def FBK_STAT_dir : Fld := ⟨30, 1⟩
def FBK_STAT_dir_chg : Fld := ⟨29, 1⟩
def FBK_STAT_qerr : Fld := ⟨28, 1⟩
def FBK_STAT_dis_live : Fld := ⟨27, 1⟩
def FBK_STAT_dis_seen : Fld := ⟨26, 1⟩
def FBK_STAT_lc_err : Fld := ⟨25, 1⟩
def FBK_STAT_cable : Fld := ⟨24, 1⟩
def FBK_STAT_scale : Fld := ⟨23, 1⟩
def FBK_STAT_restart : Fld := ⟨22, 1⟩
def FBK_STAT_ser_stale : Fld := ⟨21, 1⟩
def FBK_STAT_qerr_cnt : Fld := ⟨0, 16⟩
def FBK_SUP_CFG_sup_act : Fld := ⟨30, 2⟩
def FBK_SUP_CFG_dis_mask : Fld := ⟨27, 3⟩
def FBK_SUP_CFG_dis_inval : Fld := ⟨26, 1⟩
def FBK_SUP_CFG_lc_en : Fld := ⟨25, 1⟩
def FBK_SUP_CFG_dis_filt : Fld := ⟨16, 8⟩
def FBK_SUP_CFG_dis_persist : Fld := ⟨0, 16⟩
def FBK_LC_NOM_nom : Fld := ⟨0, 32⟩
def FBK_LC_TOL_lc_skip : Fld := ⟨24, 8⟩
def FBK_LC_TOL_tol : Fld := ⟨0, 16⟩
def FBK_LC_LAST_dev : Fld := ⟨0, 32⟩
def FBK_IDX_STAT_idx_seq : Fld := ⟨24, 8⟩
def FBK_IDX_STAT_n_valid : Fld := ⟨0, 3⟩
def FBK_IDX_POS_idx_pos : Fld := ⟨0, 32⟩
def FBK_IDX_T_LO_t_lo : Fld := ⟨0, 32⟩
def FBK_IDX_T_HI_t_hi : Fld := ⟨0, 32⟩
def FBK_RSC_CFG_rsc_en : Fld := ⟨31, 1⟩
def FBK_RSC_CFG_dir_rsc : Fld := ⟨30, 1⟩
def FBK_RSC_CFG_rem_en : Fld := ⟨29, 1⟩
def FBK_RSC_CFG_late : Fld := ⟨28, 1⟩
def FBK_RSC_CFG_overrun : Fld := ⟨27, 1⟩
def FBK_RSC_CFG_pw : Fld := ⟨0, 16⟩
def FBK_RSC_CMP_cmp : Fld := ⟨0, 32⟩
def FBK_RSC_STEP_step : Fld := ⟨0, 32⟩
def FBK_RSC_REM_rem : Fld := ⟨0, 32⟩
def FBK_RSC_HITS_rsc_hits : Fld := ⟨0, 32⟩
def FBK_SER_CFG_ser_signed : Fld := ⟨23, 1⟩
def FBK_SER_CFG_bits : Fld := ⟨16, 6⟩
def FBK_SER_CFG_shift : Fld := ⟨8, 5⟩
def FBK_SER_CFG_eng : Fld := ⟨0, 3⟩
def FBK_SER_POS_ser_pos : Fld := ⟨0, 32⟩
def FBK_EO_CFG_en : Fld := ⟨31, 1⟩
def FBK_EO_CFG_src : Fld := ⟨24, 4⟩
def FBK_EO_CFG_z_mode : Fld := ⟨20, 2⟩
def FBK_EO_CFG_z_lines : Fld := ⟨0, 16⟩
def FBK_EO_RATIO_n : Fld := ⟨16, 16⟩
def FBK_EO_RATIO_m : Fld := ⟨0, 16⟩
def FBK_EO_SCALE_scale : Fld := ⟨0, 32⟩
def FBK_EO_STAT_lag : Fld := ⟨31, 1⟩
def FBK_EO_STAT_run : Fld := ⟨30, 1⟩
def FBK_EO_STAT_out_cnt : Fld := ⟨0, 16⟩
def FBK_GSTAT_adm_lock : Fld := ⟨31, 1⟩
def FBK_GSTAT_cfg_err : Fld := ⟨30, 1⟩
def FLX_ROUTE_en_a : Fld := ⟨31, 1⟩
def FLX_ROUTE_en_b : Fld := ⟨30, 1⟩
def FLX_ROUTE_seen : Fld := ⟨29, 1⟩
def FLX_ROUTE_src_b : Fld := ⟨8, 8⟩
def FLX_ROUTE_src_a : Fld := ⟨0, 8⟩
def FLX_EXPORT_en : Fld := ⟨31, 1⟩
def FLX_EXPORT_src : Fld := ⟨0, 8⟩
def FLX_IMPORT_en : Fld := ⟨31, 1⟩
def FLX_IMPORT_cl : Fld := ⟨4, 2⟩
def FLX_IMPORT_exp : Fld := ⟨0, 3⟩
def FLX_COMB_CFG_en : Fld := ⟨31, 1⟩
def FLX_COMB_CFG_one_shot : Fld := ⟨30, 1⟩
def FLX_COMB_CFG_armed : Fld := ⟨29, 1⟩
def FLX_COMB_CFG_fired : Fld := ⟨28, 1⟩
def FLX_COMB_CFG_rearm : Fld := ⟨27, 1⟩
def FLX_COMB_CFG_in_en : Fld := ⟨0, 4⟩
def FLX_COMB_IN_in : Fld := ⟨0, 32⟩
def FLX_SWFIRE_fire : Fld := ⟨0, 4⟩
def FLX_STAT_cfg_err : Fld := ⟨31, 1⟩
def FLX_STAT_adm_lock : Fld := ⟨30, 1⟩
def FLX_WIN_CFG_en : Fld := ⟨31, 1⟩
def FLX_WIN_CFG_mode : Fld := ⟨29, 2⟩
def FLX_WIN_CFG_late : Fld := ⟨28, 1⟩
def FLX_WIN_CFG_inside : Fld := ⟨27, 1⟩
def FLX_WIN_LO_lo : Fld := ⟨0, 32⟩
def FLX_WIN_HI_hi : Fld := ⟨0, 32⟩
def FLX_WIN_CNT_hits : Fld := ⟨0, 32⟩
def FLX_CAP_CFG_en : Fld := ⟨31, 1⟩
def FLX_CAP_CFG_full : Fld := ⟨30, 1⟩
def FLX_CAP_CFG_ovr : Fld := ⟨29, 1⟩
def FLX_CAP_CFG_cap_axis : Fld := ⟨0, 4⟩
def FLX_CAP_POS_pos : Fld := ⟨0, 32⟩
def FLX_CAP_T_LO_t_lo : Fld := ⟨0, 32⟩
def FLX_CAP_T_HI_SNAP_t_hi_snap : Fld := ⟨0, 32⟩
def FLX_GRP_CFG_en : Fld := ⟨31, 1⟩
def FLX_GRP_CFG_span : Fld := ⟨30, 1⟩
def FLX_GRP_CFG_mem_en : Fld := ⟨0, 8⟩
def FLX_GRP_MEM_LO_mem03 : Fld := ⟨0, 32⟩
def FLX_GRP_MEM_HI_mem47 : Fld := ⟨0, 32⟩
def FLX_GRP_STAT_gst : Fld := ⟨30, 2⟩
def FLX_GRP_STAT_dur_mismatch : Fld := ⟨29, 1⟩
def FLX_GRP_STAT_steps : Fld := ⟨0, 16⟩
def AXS_SEG_STAT_ist : Fld := ⟨30, 2⟩
def AXS_SEG_STAT_underrun : Fld := ⟨29, 1⟩
def AXS_SEG_STAT_vel_step : Fld := ⟨28, 1⟩
def AXS_SEG_STAT_late : Fld := ⟨27, 1⟩
def AXS_SEG_STAT_seg_err : Fld := ⟨26, 1⟩
def AXS_SEG_STAT_early : Fld := ⟨25, 1⟩
def AXS_SEG_STAT_str : Fld := ⟨24, 1⟩
def AXS_SEG_STAT_valid : Fld := ⟨23, 1⟩
def AXS_SEG_STAT_queued : Fld := ⟨16, 7⟩
def AXS_SEG_STAT_str_ring : Fld := ⟨0, 12⟩
def AXS_SEG_TAG_tag : Fld := ⟨0, 16⟩
def AXS_SEG_T0_LO_t0_lo : Fld := ⟨0, 32⟩
def AXS_SEG_T0_HI_SNAP_t0_hi_snap : Fld := ⟨0, 32⟩
def AXS_SEG_SETP_setp : Fld := ⟨0, 32⟩
def AXS_SEG_SETPF_setpf : Fld := ⟨0, 32⟩
def AXS_SEG_SETV_setv : Fld := ⟨0, 32⟩
def AXS_SEG_SETA_seta : Fld := ⟨0, 32⟩
def AXS_SEG_DONE_done : Fld := ⟨0, 32⟩
def AXS_SEG_DROP_dropped : Fld := ⟨0, 32⟩
def TMR_CFG_en : Fld := ⟨31, 1⟩
def TMR_CFG_run : Fld := ⟨30, 1⟩
def TMR_CFG_link : Fld := ⟨29, 1⟩
def TMR_CFG_cmp64 : Fld := ⟨28, 1⟩
def TMR_CFG_opm : Fld := ⟨27, 1⟩
def TMR_CFG_irole : Fld := ⟨24, 3⟩
def TMR_CFG_isel : Fld := ⟨22, 2⟩
def TMR_CFG_imst : Fld := ⟨17, 5⟩
def TMR_CFG_ievt : Fld := ⟨15, 2⟩
def TMR_CNT_cnt : Fld := ⟨0, 32⟩
def TMR_HI_SNAP_hi_snap : Fld := ⟨0, 32⟩
def TMR_TOP_top : Fld := ⟨0, 32⟩
def TMR_CMPA_cmpa : Fld := ⟨0, 32⟩
def TMR_CMPB_cmpb : Fld := ⟨0, 32⟩
def TMR_CAP_cap : Fld := ⟨0, 32⟩
def TMR_PSC_psc : Fld := ⟨0, 16⟩
def TMR_OUT_act_a : Fld := ⟨30, 2⟩
def TMR_OUT_act_b : Fld := ⟨28, 2⟩
def TMR_OUT_act_o : Fld := ⟨26, 2⟩
def TMR_OUT_fsrc : Fld := ⟨24, 2⟩
def TMR_OUT_ie_a : Fld := ⟨23, 1⟩
def TMR_OUT_ie_b : Fld := ⟨22, 1⟩
def TMR_OUT_ie_o : Fld := ⟨21, 1⟩
def TMR_OUT_out_set : Fld := ⟨1, 1⟩
def TMR_OUT_out_clr : Fld := ⟨0, 1⟩
def TMR_STAT_match_a : Fld := ⟨31, 1⟩
def TMR_STAT_match_b : Fld := ⟨30, 1⟩
def TMR_STAT_ovf : Fld := ⟨29, 1⟩
def TMR_STAT_late_a : Fld := ⟨28, 1⟩
def TMR_STAT_late_b : Fld := ⟨27, 1⟩
def TMR_STAT_cap_full : Fld := ⟨26, 1⟩
def TMR_STAT_cap_ovr : Fld := ⟨25, 1⟩
def TMR_STAT_out : Fld := ⟨24, 1⟩
def TMR_STAT_gate_open : Fld := ⟨23, 1⟩
def TMR_SNAP_CTL_done : Fld := ⟨31, 1⟩
def TMR_SNAP_CTL_snap : Fld := ⟨0, 1⟩
def TMR_SNAP_T_LO_t_lo : Fld := ⟨0, 32⟩
def TMR_SNAP_T_HI_SNAP_t_hi_snap : Fld := ⟨0, 32⟩
def TMR_GSTAT_cfg_err : Fld := ⟨31, 1⟩
def TMR_SNAP_snap_cnt : Fld := ⟨0, 32⟩
def TMR_GPIO_CFG_func : Fld := ⟨29, 3⟩
def TMR_GPIO_CFG_oe : Fld := ⟨28, 1⟩
def TMR_GPIO_CFG_idx : Fld := ⟨0, 5⟩
def TMR_GPIO_OUT_out : Fld := ⟨0, 16⟩
def TMR_GPIO_IN_in : Fld := ⟨0, 16⟩
def CHS_CTL_en : Fld := ⟨31, 1⟩
def CHS_CTL_hold : Fld := ⟨30, 1⟩
def CHS_CTL_live_patch : Fld := ⟨29, 1⟩
def CHS_CTL_ie : Fld := ⟨28, 1⟩
def CHS_CTL_st : Fld := ⟨26, 2⟩
def CHS_CTL_pc : Fld := ⟨0, 6⟩
def CHS_CFG_grp : Fld := ⟨30, 2⟩
def CHS_CFG_grp_en : Fld := ⟨29, 1⟩
def CHS_CFG_start_pc : Fld := ⟨16, 6⟩
def CHS_CFG_step_len : Fld := ⟨0, 16⟩
def CHS_LOOP_loop_en : Fld := ⟨31, 1⟩
def CHS_LOOP_armed : Fld := ⟨30, 1⟩
def CHS_LOOP_passes : Fld := ⟨16, 8⟩
def CHS_LOOP_last : Fld := ⟨8, 6⟩
def CHS_LOOP_first : Fld := ⟨0, 6⟩
def CHS_PIN_CFG_dir : Fld := ⟨28, 4⟩
def CHS_PIN_CFG_idle : Fld := ⟨24, 4⟩
def CHS_PIN_CFG_side_en : Fld := ⟨20, 4⟩
def CHS_PIN_CFG_clk_en : Fld := ⟨19, 1⟩
def CHS_PIN_CFG_clk_pin : Fld := ⟨16, 2⟩
def CHS_PIN_CFG_in_pin : Fld := ⟨14, 2⟩
def CHS_PIN_CFG_out_pin : Fld := ⟨12, 2⟩
def CHS_SMP_samp_pt : Fld := ⟨31, 1⟩
def CHS_SMP_samp_dly : Fld := ⟨0, 8⟩
def CHS_CRC_CFG_width : Fld := ⟨16, 5⟩
def CHS_CRC_CFG_poly : Fld := ⟨0, 16⟩
def CHS_CRC_VAL_crc_init : Fld := ⟨16, 16⟩
def CHS_CRC_VAL_crc_res : Fld := ⟨0, 16⟩
def CHS_STAT_m : Fld := ⟨31, 1⟩
def CHS_STAT_c : Fld := ⟨30, 1⟩
def CHS_STAT_t : Fld := ⟨29, 1⟩
def CHS_STAT_z : Fld := ⟨28, 1⟩
def CHS_STAT_irq : Fld := ⟨27, 1⟩
def CHS_STAT_patch_refused : Fld := ⟨26, 1⟩
def CHS_STAT_aborted : Fld := ⟨25, 1⟩
def CHS_STAT_cfg_refused : Fld := ⟨24, 1⟩
def CHS_STAT_inq_ovr : Fld := ⟨23, 1⟩
def CHS_STAT_outq_udr : Fld := ⟨22, 1⟩
def CHS_STAT_outq_ovr : Fld := ⟨21, 1⟩
def CHS_STAT_mem_err : Fld := ⟨20, 1⟩
def CHS_STAT_bitcnt : Fld := ⟨0, 7⟩
def CHS_FRM_LO_frm_lo : Fld := ⟨0, 32⟩
def CHS_FRM_HI_frm_hi : Fld := ⟨0, 32⟩
def CHS_LOOP_CNT_pass_cnt : Fld := ⟨0, 8⟩
def CHS_LC_lc : Fld := ⟨0, 12⟩
def CHS_POS_WORD_word : Fld := ⟨0, 32⟩
def CHS_POS_T_LO_t_lo : Fld := ⟨0, 32⟩
def CHS_POS_T_HI_SNAP_t_hi_snap : Fld := ⟨0, 32⟩
def CHS_POS_STAT_valid : Fld := ⟨31, 1⟩
def CHS_POS_STAT_seq : Fld := ⟨16, 8⟩
def CHS_POS_STAT_bad : Fld := ⟨0, 16⟩
def CHS_INQ_inq : Fld := ⟨0, 32⟩
def CHS_OUTQ_outq : Fld := ⟨0, 32⟩
def CHS_Q_STAT_inq_lvl : Fld := ⟨8, 4⟩
def CHS_Q_STAT_outq_lvl : Fld := ⟨0, 4⟩
def CHS_MEM_BASE_mem_base : Fld := ⟨2, 18⟩
def CHS_MEM_LEN_ptr : Fld := ⟨16, 16⟩
def CHS_MEM_LEN_len : Fld := ⟨0, 13⟩
def CHS_PAC_CFG_en : Fld := ⟨31, 1⟩
def CHS_PAC_CFG_action : Fld := ⟨29, 2⟩
def CHS_PAC_CFG_addr : Fld := ⟨0, 6⟩
def CHS_PAC_CNT_hits : Fld := ⟨0, 32⟩
def CHS_GSTART_start : Fld := ⟨0, 8⟩
def CHS_GSTAT_running : Fld := ⟨0, 8⟩
def CRU_REF_CTL_ref_en : Fld := ⟨31, 1⟩
def CRU_REF_CTL_ref_ok : Fld := ⟨30, 1⟩
def CRU_REF_CTL_mains : Fld := ⟨29, 1⟩
def CRU_REF_CTL_exc_ilim : Fld := ⟨12, 4⟩
def CRU_REF_CTL_exc_ok : Fld := ⟨8, 4⟩
def CRU_REF_CTL_exc_hv : Fld := ⟨4, 4⟩
def CRU_REF_CTL_exc_en : Fld := ⟨0, 4⟩
def CRU_TRG_CFG_en : Fld := ⟨31, 1⟩
def CRU_TRG_CFG_late : Fld := ⟨30, 1⟩
def CRU_TRG_CFG_trg_ovr : Fld := ⟨29, 1⟩
def CRU_TRG_CFG_counting : Fld := ⟨28, 1⟩
def CRU_TRG_CFG_cl : Fld := ⟨24, 2⟩
def CRU_TRG_CFG_conv : Fld := ⟨0, 16⟩
def CRU_TRG_DLY_dly : Fld := ⟨0, 32⟩
def CRU_FSRC_en : Fld := ⟨31, 1⟩
def CRU_FSRC_evt : Fld := ⟨4, 2⟩
def CRU_FSRC_conv : Fld := ⟨0, 4⟩
def CRU_CFG_en : Fld := ⟨31, 1⟩
def CRU_CFG_go : Fld := ⟨30, 1⟩
def CRU_CFG_ratio : Fld := ⟨29, 1⟩
def CRU_CFG_exc : Fld := ⟨27, 2⟩
def CRU_CFG_gain : Fld := ⟨25, 2⟩
def CRU_CFG_diff : Fld := ⟨24, 1⟩
def CRU_CFG_frac : Fld := ⟨20, 3⟩
def CRU_CFG_ch : Fld := ⟨0, 5⟩
def CRU_RES_valid : Fld := ⟨31, 1⟩
def CRU_RES_ref_unsettled : Fld := ⟨30, 1⟩
def CRU_RES_aborted : Fld := ⟨29, 1⟩
def CRU_RES_clip : Fld := ⟨28, 1⟩
def CRU_RES_seq : Fld := ⟨24, 4⟩
def CRU_RES_res : Fld := ⟨0, 24⟩
def CRU_T_LO_t_lo : Fld := ⟨0, 32⟩
def CRU_T_HI_SNAP_t_hi_snap : Fld := ⟨0, 32⟩
def CRU_STAT_busy : Fld := ⟨31, 1⟩
def CRU_STAT_overrun : Fld := ⟨30, 1⟩
def CRU_STAT_no_ref : Fld := ⟨29, 1⟩
def CRU_STAT_cfg_err : Fld := ⟨28, 1⟩
def CRU_STAT_lat : Fld := ⟨24, 4⟩
def CRU_STAT_conv_cnt : Fld := ⟨0, 16⟩
def CRU_PAIR_CFG_xen : Fld := ⟨31, 1⟩
def CRU_PAIR_CFG_xdiv : Fld := ⟨0, 8⟩
def CRU_XTH_xth : Fld := ⟨0, 24⟩
def CRU_XRES_valid : Fld := ⟨31, 1⟩
def CRU_XRES_res : Fld := ⟨0, 24⟩
def CRU_PAIR_STAT_plausibility : Fld := ⟨31, 1⟩
def CRU_PAIR_STAT_xskip : Fld := ⟨8, 8⟩
def CRU_PAIR_STAT_xfail : Fld := ⟨0, 8⟩
def ANV_CTL_lockout : Fld := ⟨31, 1⟩
def ANV_CTL_halted : Fld := ⟨30, 1⟩
def ANV_CTL_df : Fld := ⟨29, 1⟩
def ANV_CTL_lock_reason : Fld := ⟨16, 8⟩
def ANV_CTL_last_exc : Fld := ⟨0, 8⟩
def ANV_VBASE_vbase : Fld := ⟨10, 22⟩
def ANV_GATE_BASE_gate_base : Fld := ⟨3, 29⟩
def ANV_GATE_CNT_gate_cnt : Fld := ⟨0, 13⟩
def ANV_SUPV_axes : Fld := ⟨0, 16⟩
def ANV_WDT_CFG_en : Fld := ⟨31, 1⟩
def ANV_WDT_CFG_debug_resumed : Fld := ⟨30, 1⟩
def ANV_WDT_CFG_warned : Fld := ⟨29, 1⟩
def ANV_WDT_CFG_period : Fld := ⟨0, 24⟩
def ANV_WDT_KICK_key : Fld := ⟨0, 16⟩
def ANV_WDT_LEFT_left : Fld := ⟨0, 32⟩
def ANV_INT_PEND_LO_pend : Fld := ⟨0, 32⟩
def ANV_INT_PEND_HI_pend : Fld := ⟨0, 32⟩
def ANV_EXC_CNT_ints : Fld := ⟨16, 16⟩
def ANV_EXC_CNT_excs : Fld := ⟨0, 16⟩
def ANV_RGN_BASE_base : Fld := ⟨5, 27⟩
def ANV_RGN_BASE_en : Fld := ⟨0, 1⟩
def ANV_RGN_LIMIT_limit : Fld := ⟨5, 27⟩
def ANV_RGN_LIMIT_ones : Fld := ⟨0, 5⟩
def ANV_RGN_RIGHTS_rights : Fld := ⟨0, 12⟩
def ANV_INT_CFG_level : Fld := ⟨16, 4⟩
def ANV_INT_CFG_src : Fld := ⟨0, 8⟩
def ANV_EMB_emb : Fld := ⟨0, 32⟩
def ANV_CWDT_CFG_en : Fld := ⟨31, 1⟩
def ANV_CWDT_CFG_debug_resumed : Fld := ⟨30, 1⟩
def ANV_CWDT_CFG_expired : Fld := ⟨29, 1⟩
def ANV_CWDT_CFG_kick_mask : Fld := ⟨24, 4⟩
def ANV_CWDT_CFG_period : Fld := ⟨0, 24⟩
def ANV_CWDT_KICK_key : Fld := ⟨0, 16⟩
def ANV_CWDT_STAT_kicked : Fld := ⟨0, 4⟩
def ING_BANK_OWN_owner : Fld := ⟨0, 4⟩
def ING_BANK_SHARE_share_rd : Fld := ⟨4, 4⟩
def ING_BANK_SHARE_share_wr : Fld := ⟨0, 4⟩
def ING_BANK_STAT_march_busy : Fld := ⟨31, 1⟩
def ING_BANK_STAT_own_pend : Fld := ⟨30, 1⟩
def ING_BANK_STAT_own_refused : Fld := ⟨29, 1⟩
def ING_BANK_STAT_share_denied : Fld := ⟨28, 1⟩
def ING_BANK_STAT_uncorr : Fld := ⟨27, 1⟩
def ING_BANK_STAT_uncorr_cnt : Fld := ⟨8, 8⟩
def ING_BANK_STAT_corr_cnt : Fld := ⟨0, 8⟩
def ING_ERR_ADDR_kind : Fld := ⟨31, 1⟩
def ING_ERR_ADDR_offset : Fld := ⟨0, 16⟩
def ING_MARCH_done : Fld := ⟨31, 1⟩
def ING_MARCH_fail : Fld := ⟨30, 1⟩
def ING_MARCH_first : Fld := ⟨0, 16⟩
def ING_SHARE_STALL_stalls : Fld := ⟨0, 32⟩
def MEM_STAT_init_done : Fld := ⟨31, 1⟩
def MEM_STAT_uncorr : Fld := ⟨8, 8⟩
def MEM_STAT_corr : Fld := ⟨0, 8⟩
def MEM_ERR_ADDR_addr : Fld := ⟨3, 29⟩
def MEM_ERR_ADDR_kind : Fld := ⟨0, 1⟩
def MEM_SCRUB_scrub_iv : Fld := ⟨0, 16⟩
def MEM_SCRUB_PASS_passes : Fld := ⟨0, 32⟩
def MEM_BAR2_BASE_base : Fld := ⟨28, 4⟩
def MEM_HWIN_LO_first : Fld := ⟨12, 20⟩
def MEM_HWIN_LO_wr : Fld := ⟨1, 1⟩
def MEM_HWIN_LO_en : Fld := ⟨0, 1⟩
def MEM_HWIN_HI_last : Fld := ⟨12, 20⟩
def MEM_HOST_DENY_deny_cnt : Fld := ⟨0, 32⟩
def ASY_PAIR_CTL_paired : Fld := ⟨31, 1⟩
def ASY_PAIR_CTL_req_split : Fld := ⟨30, 1⟩
def ASY_PAIR_CTL_req_merge : Fld := ⟨29, 1⟩
def ASY_PAIR_CTL_pair_at_release : Fld := ⟨28, 1⟩
def ASY_PAIR_CTL_lag_max : Fld := ⟨0, 8⟩
def ASY_PAIR_STAT_chk_mis : Fld := ⟨31, 1⟩
def ASY_PAIR_STAT_out_mis : Fld := ⟨30, 1⟩
def ASY_PAIR_STAT_lag : Fld := ⟨29, 1⟩
def ASY_PAIR_STAT_partner_lock : Fld := ⟨28, 1⟩
def ASY_PAIR_STAT_switched : Fld := ⟨27, 1⟩
def ASY_PAIR_STAT_blocked : Fld := ⟨26, 1⟩
def ASY_PAIR_STAT_mis_kind : Fld := ⟨16, 3⟩
def ASY_PAIR_STAT_out_drop : Fld := ⟨0, 16⟩
def ASY_CHK_CNT_chk_cnt : Fld := ⟨0, 32⟩
def ASY_OUT_CNT_out_cnt : Fld := ⟨0, 32⟩
def ASY_MIS_A_a : Fld := ⟨0, 32⟩
def ASY_MIS_B_b : Fld := ⟨0, 32⟩
def ASY_MIS_ID_id_a : Fld := ⟨8, 8⟩
def ASY_MIS_ID_id_b : Fld := ⟨0, 8⟩
def ASY_MIR_en : Fld := ⟨31, 1⟩
def ASY_MIR_copy : Fld := ⟨30, 1⟩
def ASY_MIR_pbank : Fld := ⟨4, 4⟩
def ASY_MIR_sbank : Fld := ⟨0, 4⟩
def ASY_OUT_LO_lo : Fld := ⟨2, 30⟩
def ASY_OUT_LO_en : Fld := ⟨0, 1⟩
def ASY_OUT_HI_hi : Fld := ⟨2, 30⟩
def ASY_INA_MAP_addr : Fld := ⟨2, 30⟩
def ASY_INA_MAP_en : Fld := ⟨0, 1⟩
def ASY_LANE_STAT_paired : Fld := ⟨31, 1⟩
def ASY_LANE_STAT_mis : Fld := ⟨30, 1⟩
def ASY_LANE_STAT_mis_cnt : Fld := ⟨0, 16⟩
def ASY_LANE_LAST_laxis : Fld := ⟨0, 4⟩
def ASY_LANE_T_LO_t_lo : Fld := ⟨0, 32⟩
def ASY_LANE_T_HI_SNAP_t_hi_snap : Fld := ⟨0, 32⟩
def ASY_GSTAT_cfg_err : Fld := ⟨31, 1⟩
def GLB_PCIE_CTL_perst_dev : Fld := ⟨31, 1⟩
def GLB_PCIE_CTL_perst_stop : Fld := ⟨30, 1⟩
def GLB_PCIE_CTL_refclk_sel : Fld := ⟨28, 2⟩
def GLB_PCIE_CTL_max_gen : Fld := ⟨4, 3⟩
def GLB_PCIE_CTL_max_width : Fld := ⟨2, 2⟩
def GLB_PCIE_CTL_retrain : Fld := ⟨0, 1⟩
def GLB_PCIE_STAT_link_up : Fld := ⟨31, 1⟩
def GLB_PCIE_STAT_fw_ready : Fld := ⟨30, 1⟩
def GLB_PCIE_STAT_sep_ref : Fld := ⟨29, 1⟩
def GLB_PCIE_STAT_l1 : Fld := ⟨28, 1⟩
def GLB_PCIE_STAT_dstate : Fld := ⟨26, 2⟩
def GLB_PCIE_STAT_gen : Fld := ⟨23, 3⟩
def GLB_PCIE_STAT_width : Fld := ⟨21, 2⟩
def GLB_PCIE_STAT_lane_rev : Fld := ⟨20, 1⟩
def GLB_PCIE_STAT_link_downs : Fld := ⟨0, 8⟩
def GLB_PCIE_ERR_poison_rx : Fld := ⟨24, 8⟩
def GLB_PCIE_ERR_cpl_tmo : Fld := ⟨16, 8⟩
def GLB_PCIE_ERR_ca_sent : Fld := ⟨8, 8⟩
def GLB_PCIE_ERR_ur_sent : Fld := ⟨0, 8⟩
def GLB_MSIX_MOD_cnt_th : Fld := ⟨24, 8⟩
def GLB_MSIX_MOD_tmo : Fld := ⟨0, 16⟩
def LDL_ADMIN_CTL_en : Fld := ⟨31, 1⟩
def LDL_ADMIN_CTL_ready : Fld := ⟨30, 1⟩
def LDL_ADMIN_CTL_cfg_refused : Fld := ⟨29, 1⟩
def LDL_ADMIN_CTL_aeq_lg : Fld := ⟨8, 4⟩
def LDL_ADMIN_CTL_acq_lg : Fld := ⟨4, 4⟩
def LDL_ADMIN_CTL_asq_lg : Fld := ⟨0, 4⟩
def LDL_ADMIN_VEC_acq_ven : Fld := ⟨31, 1⟩
def LDL_ADMIN_VEC_acq_vec : Fld := ⟨24, 6⟩
def LDL_ADMIN_VEC_aeq_ven : Fld := ⟨23, 1⟩
def LDL_ADMIN_VEC_aeq_vec : Fld := ⟨16, 6⟩
def LDL_ASQ_BASE_LO_lo : Fld := ⟨6, 26⟩
def LDL_ASQ_BASE_HI_hi : Fld := ⟨0, 32⟩
def LDL_ACQ_BASE_LO_lo : Fld := ⟨6, 26⟩
def LDL_ACQ_BASE_HI_hi : Fld := ⟨0, 32⟩
def LDL_AEQ_BASE_LO_lo : Fld := ⟨6, 26⟩
def LDL_AEQ_BASE_HI_hi : Fld := ⟨0, 32⟩
def LDL_GSTAT_db_err : Fld := ⟨31, 1⟩
def LDL_GSTAT_evt_lvl : Fld := ⟨16, 9⟩
def LDL_GSTAT_auth_fail : Fld := ⟨0, 16⟩
def LDL_DB_ERR_reason : Fld := ⟨12, 4⟩
def LDL_DB_ERR_ring : Fld := ⟨0, 12⟩
def LDL_EVT_DROP_dropped : Fld := ⟨0, 32⟩
def LDL_EVT_ROUTE_eq : Fld := ⟨0, 12⟩
def LDL_RING_BASE_LO_lo : Fld := ⟨6, 26⟩
def LDL_RING_BASE_HI_hi : Fld := ⟨0, 32⟩
def LDL_RING_CFG_valid : Fld := ⟨31, 1⟩
def LDL_RING_CFG_type : Fld := ⟨28, 3⟩
def LDL_RING_CFG_lg : Fld := ⟨24, 4⟩
def LDL_RING_CFG_ven : Fld := ⟨23, 1⟩
def LDL_RING_CFG_vec : Fld := ⟨17, 6⟩
def LDL_RING_CFG_mir : Fld := ⟨16, 1⟩
def LDL_RING_CFG_link : Fld := ⟨0, 12⟩
def LDL_RING_PTR_phase : Fld := ⟨31, 1⟩
def LDL_RING_PTR_tail : Fld := ⟨16, 15⟩
def LDL_RING_PTR_head : Fld := ⟨0, 15⟩
def LDL_RING_STAT_err : Fld := ⟨31, 1⟩
def LDL_RING_STAT_err_code : Fld := ⟨28, 3⟩
def LDL_RING_STAT_fence_wait : Fld := ⟨27, 1⟩
def LDL_RING_STAT_fw_busy : Fld := ⟨26, 1⟩
def LDL_RING_STAT_cq_stall : Fld := ⟨25, 1⟩
def LDL_RING_STAT_del_pend : Fld := ⟨24, 1⟩
def LDL_RING_STAT_lost : Fld := ⟨0, 16⟩
def LDL_RING_MIR_LO_lo : Fld := ⟨2, 30⟩
def LDL_RING_MIR_HI_hi : Fld := ⟨0, 32⟩
def SLD_CTL_en : Fld := ⟨31, 1⟩
def SLD_CTL_evt_en : Fld := ⟨30, 1⟩
def SLD_CTL_mbx_evt : Fld := ⟨29, 1⟩
def SLD_CTL_rdy_flux : Fld := ⟨28, 1⟩
def SLD_CTL_retries : Fld := ⟨26, 2⟩
def SLD_CTL_fail_lim : Fld := ⟨16, 8⟩
def SLD_CTL_round_iv : Fld := ⟨0, 16⟩
def SLD_STAT_running : Fld := ⟨31, 1⟩
def SLD_STAT_list_req : Fld := ⟨30, 1⟩
def SLD_STAT_att : Fld := ⟨29, 1⟩
def SLD_STAT_cmd_lost : Fld := ⟨28, 1⟩
def SLD_STAT_cmd_refused : Fld := ⟨27, 1⟩
def SLD_ROUND_round : Fld := ⟨0, 32⟩
def SLD_ROUND_LEN_len : Fld := ⟨0, 24⟩
def SLD_LIST_list : Fld := ⟨0, 32⟩
def SLD_LIST_NEXT_next : Fld := ⟨0, 32⟩
def SLD_CMD_PEND_pend : Fld := ⟨0, 32⟩
def SLD_PRESENT_present : Fld := ⟨0, 32⟩
def SLD_ERR_tmo : Fld := ⟨24, 8⟩
def SLD_ERR_crc : Fld := ⟨16, 8⟩
def SLD_ERR_frm : Fld := ⟨8, 8⟩
def SLD_ERR_failed : Fld := ⟨0, 8⟩
def SEM_CTL_en : Fld := ⟨31, 1⟩
def SEM_CTL_keeper_cap : Fld := ⟨30, 1⟩
def SEM_CTL_auto_join : Fld := ⟨29, 1⟩
def SEM_CTL_node : Fld := ⟨0, 10⟩
def SEM_CYC_epoch_len : Fld := ⟨20, 12⟩
def SEM_CYC_cyc_q : Fld := ⟨0, 14⟩
def SEM_KEEP_miss_lim : Fld := ⟨24, 8⟩
def SEM_KEEP_crc_lim : Fld := ⟨16, 8⟩
def SEM_SECT_sel : Fld := ⟨31, 1⟩
def SEM_SECT_len : Fld := ⟨0, 9⟩
def SEM_TX_BASE_base : Fld := ⟨9, 23⟩
def SEM_RX_BASE_base : Fld := ⟨19, 13⟩
def SEM_MBX_BASE_base : Fld := ⟨13, 19⟩
def SEM_STAT_member : Fld := ⟨31, 1⟩
def SEM_STAT_keeper : Fld := ⟨30, 1⟩
def SEM_STAT_topo : Fld := ⟨28, 2⟩
def SEM_STAT_keeper_node : Fld := ⟨16, 10⟩
def SEM_STAT_hops : Fld := ⟨0, 10⟩
def SEM_EPOCH_epoch : Fld := ⟨0, 32⟩
def SEM_CYC_STAT_cycle : Fld := ⟨0, 32⟩
def SEM_GSTAT_cfg_err : Fld := ⟨31, 1⟩
def SEM_GSTAT_evt_late : Fld := ⟨30, 1⟩
def SEM_GSTAT_evt_drop : Fld := ⟨0, 16⟩
def SEM_MBX_STAT_full : Fld := ⟨0, 8⟩
def SEM_MBX_REL_rel : Fld := ⟨0, 8⟩
def SEM_PORT_STAT_up : Fld := ⟨31, 1⟩
def SEM_PORT_STAT_sync : Fld := ⟨30, 1⟩
def SEM_PORT_STAT_loop : Fld := ⟨29, 1⟩
def SEM_PORT_STAT_att : Fld := ⟨28, 1⟩
def SEM_PORT_STAT_downs : Fld := ⟨0, 8⟩
def SEM_PORT_CFG_rx_inv : Fld := ⟨31, 1⟩
def SEM_PORT_CFG_tx_inv : Fld := ⟨30, 1⟩
def SEM_LINK_DLY_dly : Fld := ⟨0, 32⟩
def SEM_PORT_ERR_crc : Fld := ⟨16, 16⟩
def SEM_PORT_ERR_lost : Fld := ⟨0, 16⟩
def TCH_STAT_ready : Fld := ⟨31, 1⟩
def TCH_STAT_holdup_ok : Fld := ⟨30, 1⟩
def TCH_STAT_prov_open : Fld := ⟨29, 1⟩
def TCH_STAT_new_rec : Fld := ⟨28, 1⟩
def TCH_STAT_queued : Fld := ⟨16, 4⟩
def TCH_STAT_dropped : Fld := ⟨0, 16⟩
def TCH_NEWEST_slot : Fld := ⟨0, 11⟩
def TCH_SEQ_seq : Fld := ⟨0, 32⟩
def TCH_CFG_axis_sev : Fld := ⟨0, 3⟩
def TCH_HOLDUP_mv : Fld := ⟨0, 16⟩
def TCH_DIP_CNT_dips : Fld := ⟨0, 32⟩
def HLM_STAT_ent_ok : Fld := ⟨31, 1⟩
def HLM_STAT_certified : Fld := ⟨30, 1⟩
def HLM_STAT_cert_fail : Fld := ⟨16, 7⟩
def HLM_STAT_dbg_level : Fld := ⟨4, 2⟩
def HLM_STAT_lifecycle : Fld := ⟨0, 3⟩
def HLM_SESSIONS_open : Fld := ⟨1, 15⟩
def HLM_FLOOR_floor : Fld := ⟨0, 8⟩
def HLM_AUTH_MASK_mask : Fld := ⟨0, 16⟩
def HLM_IMG_REJ_rejected : Fld := ⟨0, 16⟩
def HLM_ID_PUB_pub : Fld := ⟨0, 32⟩
def HLM_SERIAL_LO_serial_lo : Fld := ⟨0, 32⟩
def HLM_SERIAL_HI_serial_hi : Fld := ⟨0, 32⟩
def TCH_SUP_STAT_vcore_warn : Fld := ⟨31, 1⟩
def TCH_SUP_STAT_vaux_warn : Fld := ⟨30, 1⟩
def TCH_SUP_STAT_warn_seen : Fld := ⟨29, 1⟩
def TCH_SUP_STAT_dip_seen : Fld := ⟨28, 1⟩
def TCH_SUP_VCORE_min_mv : Fld := ⟨16, 16⟩
def TCH_SUP_VCORE_mv : Fld := ⟨0, 16⟩
def TCH_SUP_VAUX_min_mv : Fld := ⟨16, 16⟩
def TCH_SUP_VAUX_mv : Fld := ⟨0, 16⟩
def TCH_RST_CAUSE_seen : Fld := ⟨4, 12⟩
def TCH_RST_CAUSE_src : Fld := ⟨0, 4⟩
def TCH_BOOT_stage : Fld := ⟨8, 8⟩
def TCH_BOOT_bm_err : Fld := ⟨4, 1⟩
def TCH_BOOT_slot : Fld := ⟨2, 2⟩
def TCH_BOOT_boot_mode : Fld := ⟨0, 2⟩
def TCH_WDT_CFG_en : Fld := ⟨31, 1⟩
def TCH_WDT_CFG_frozen : Fld := ⟨30, 1⟩
def TCH_WDT_CFG_debug_resumed : Fld := ⟨29, 1⟩
def TCH_WDT_CFG_period : Fld := ⟨0, 16⟩
def TCH_WDT_KICK_key : Fld := ⟨0, 16⟩
def TCH_WDT_LEFT_left : Fld := ⟨0, 16⟩
def GLB_RST_CTL_rst_refused : Fld := ⟨31, 1⟩
def GLB_RST_CTL_in_rst : Fld := ⟨4, 4⟩
def GLB_RST_CTL_cl_rel : Fld := ⟨0, 4⟩
def DBG_STAT_dap_ovr : Fld := ⟨31, 1⟩
def DBG_STAT_resp_busy : Fld := ⟨30, 1⟩
def DBG_STAT_tap_level : Fld := ⟨28, 2⟩
def DBG_STAT_pcie_level : Fld := ⟨26, 2⟩
def DBG_STAT_bench_halted : Fld := ⟨8, 2⟩
def DBG_STAT_halt_pend : Fld := ⟨4, 4⟩
def DBG_STAT_cl_halted : Fld := ⟨0, 4⟩
def DBG_CTL_brk_halt : Fld := ⟨31, 1⟩
def DBG_CTL_step : Fld := ⟨30, 1⟩
def DBG_CTL_bench_release : Fld := ⟨28, 2⟩
def DBG_CTL_bench_halt : Fld := ⟨26, 2⟩
def DBG_CTL_halt_link : Fld := ⟨8, 4⟩
def DBG_CTL_release : Fld := ⟨4, 4⟩
def DBG_CTL_halt : Fld := ⟨0, 4⟩
def DBG_WDT_FREEZE_freeze : Fld := ⟨0, 1⟩
def DBG_HALT_CAUSE_cause : Fld := ⟨24, 8⟩
def DBG_HALT_CAUSE_index : Fld := ⟨16, 8⟩
def DBG_HALT_T_LO_t_lo : Fld := ⟨0, 32⟩
def DBG_HALT_T_HI_SNAP_t_hi_snap : Fld := ⟨0, 32⟩
def DBG_BW_CFG_en : Fld := ⟨31, 1⟩
def DBG_BW_CFG_action : Fld := ⟨29, 2⟩
def DBG_BW_CFG_link : Fld := ⟨27, 2⟩
def DBG_BW_CFG_kind : Fld := ⟨24, 3⟩
def DBG_BW_CFG_val_en : Fld := ⟨23, 1⟩
def DBG_BW_CFG_rings : Fld := ⟨19, 4⟩
def DBG_BW_CFG_ctx_en : Fld := ⟨18, 1⟩
def DBG_BW_CFG_armed : Fld := ⟨17, 1⟩
def DBG_BW_CFG_hit : Fld := ⟨16, 1⟩
def DBG_BW_CFG_ctx : Fld := ⟨0, 16⟩
def DBG_BW_START_start : Fld := ⟨0, 32⟩
def DBG_BW_END_end : Fld := ⟨0, 32⟩
def DBG_BW_VAL_val : Fld := ⟨0, 32⟩
def DBG_CAP_STAT_running : Fld := ⟨31, 1⟩
def DBG_CAP_STAT_full : Fld := ⟨30, 1⟩
def DBG_CAP_STAT_wrapped : Fld := ⟨29, 1⟩
def DBG_CAP_STAT_lost : Fld := ⟨0, 16⟩
def DBG_CAP_WPTR_wptr : Fld := ⟨0, 32⟩
def DBG_CAP_SEQ_seq : Fld := ⟨0, 32⟩
def EVC_CFG_en : Fld := ⟨31, 1⟩
def EVC_CFG_mode : Fld := ⟨29, 2⟩
def EVC_CFG_thr_en : Fld := ⟨28, 1⟩
def EVC_CFG_thr_clr : Fld := ⟨27, 1⟩
def EVC_CFG_snap_en : Fld := ⟨26, 1⟩
def EVC_CFG_thr_hit : Fld := ⟨25, 1⟩
def EVC_CFG_late : Fld := ⟨24, 1⟩
def EVC_CFG_ovf : Fld := ⟨23, 1⟩
def EVC_CFG_clr : Fld := ⟨22, 1⟩
def EVC_CFG_cl : Fld := ⟨12, 2⟩
def EVC_CFG_src : Fld := ⟨0, 12⟩
def EVC_CNT_LO_cnt_lo : Fld := ⟨0, 32⟩
def EVC_CNT_HI_SNAP_cnt_hi_snap : Fld := ⟨0, 16⟩
def EVC_THR_LO_thr_lo : Fld := ⟨0, 32⟩
def EVC_THR_HI_thr_hi : Fld := ⟨0, 16⟩
def EVC_SNAP_LO_snap_lo : Fld := ⟨0, 32⟩
def EVC_SNAP_HI_snap_hi : Fld := ⟨0, 16⟩
def GLB_TEMP_max_t : Fld := ⟨16, 16⟩
def GLB_TEMP_temp : Fld := ⟨0, 16⟩
def PLN_UNLOCK_lock_violation : Fld := ⟨31, 1⟩
def PLN_UNLOCK_key : Fld := ⟨0, 16⟩
def AXS_UNLOCK_lock_violation : Fld := ⟨31, 1⟩
def AXS_UNLOCK_key : Fld := ⟨0, 16⟩
def DRW_UNLOCK_lock_violation : Fld := ⟨31, 1⟩
def DRW_UNLOCK_key : Fld := ⟨0, 16⟩
def PWM_UNLOCK_lock_violation : Fld := ⟨31, 1⟩
def PWM_UNLOCK_key : Fld := ⟨0, 16⟩
def FBK_UNLOCK_lock_violation : Fld := ⟨31, 1⟩
def FBK_UNLOCK_key : Fld := ⟨0, 16⟩
def FLX_UNLOCK_lock_violation : Fld := ⟨31, 1⟩
def FLX_UNLOCK_key : Fld := ⟨0, 16⟩
def CHS_UNLOCK_lock_violation : Fld := ⟨31, 1⟩
def CHS_UNLOCK_key : Fld := ⟨0, 16⟩
def ANV_UNLOCK_lock_violation : Fld := ⟨31, 1⟩
def ANV_UNLOCK_key : Fld := ⟨0, 16⟩
def ING_UNLOCK_lock_violation : Fld := ⟨31, 1⟩
def ING_UNLOCK_key : Fld := ⟨0, 16⟩
def MEM_UNLOCK_lock_violation : Fld := ⟨31, 1⟩
def MEM_UNLOCK_key : Fld := ⟨0, 16⟩
def ASY_UNLOCK_lock_violation : Fld := ⟨31, 1⟩
def ASY_UNLOCK_key : Fld := ⟨0, 16⟩
def LDL_UNLOCK_lock_violation : Fld := ⟨31, 1⟩
def LDL_UNLOCK_key : Fld := ⟨0, 16⟩
def SLD_UNLOCK_lock_violation : Fld := ⟨31, 1⟩
def SLD_UNLOCK_key : Fld := ⟨0, 16⟩
def SEM_UNLOCK_lock_violation : Fld := ⟨31, 1⟩
def SEM_UNLOCK_key : Fld := ⟨0, 16⟩
def TCH_UNLOCK_lock_violation : Fld := ⟨31, 1⟩
def TCH_UNLOCK_key : Fld := ⟨0, 16⟩
def CHS_PROG_word : Fld := ⟨0, 24⟩
def EVC_GSNAP_snap : Fld := ⟨0, 32⟩
def EVC_GSNAP_T_LO_t_lo : Fld := ⟨0, 32⟩
def EVC_GSNAP_T_HI_SNAP_t_hi_snap : Fld := ⟨0, 32⟩

end Sys2Proof.Machine
end

