-- ==== Sys2Proof/Machine/RegTable.lean ====
section
/-! DEFINITION. The register tables of the spec as data: for every register its base address, its index strides, its unlock register, the writers it takes effect from, and for every field its access code (R10) and its value after power-on reset. -/
namespace Sys2Proof.Machine

/-- The access codes of R10, and the two combined codes of the tables. -/
inductive Acc where
  | rw | ro | wo | w1c | w1s | rc | rwp | rwpWo | rwpW1s
deriving DecidableEq, Repr

/-- Which writers a register takes effect from (R507): any master; a bench core; the host through BAR0 or a bench
core (R353); the core itself in ring 0 or a bench core (R283); only the debug access port (R487); the unit's own
core in ring 0 or a bench core (R480). -/
inductive WriterRule where
  | any | bench | hostOrBench | selfRing0 | dap | unitCore
deriving DecidableEq, Repr

/-- One field of a register table: its place, its access code and its reset value. -/
structure FieldDesc where
  fld : Fld
  acc : Acc
  reset : Nat
deriving DecidableEq, Repr

/-- One row group of a register table. groups gives, for each index of the register, the counts and strides whose
mixed-radix digits make it up, outermost first; org is the index of the first member; unlock is the unlock
register of the block and how many of the outermost strides it repeats by. -/
structure RegClass where
  name : RegName
  base : Nat
  groups : List (List (Nat × Nat))
  org : Nat
  unlock : Option (Nat × Nat)
  writer : WriterRule
  fields : List FieldDesc
deriving DecidableEq, Repr

/-- Registers of the GLB block, table rows 1 to 12. -/
def regsGLB0 : List RegClass := [
  ⟨.GLB_ID, 0x2000000, [], 0, some (0x20000FC, 0), .any,
    [⟨GLB_ID_family, .ro, 0x9D40⟩, ⟨GLB_ID_cluster_mask, .ro, 0⟩, ⟨GLB_ID_step_letter, .ro, 1⟩, ⟨GLB_ID_step_digit, .ro, 0⟩, ⟨GLB_ID_part, .ro, 0⟩]⟩,
  ⟨.GLB_UNLOCK, 0x20000FC, [], 0, some (0x20000FC, 0), .any,
    [⟨GLB_UNLOCK_lock_violation, .w1c, 0⟩, ⟨GLB_UNLOCK_key, .wo, 0⟩]⟩,
  ⟨.GLB_CLK_STAT, 0x2000100, [], 0, some (0x20000FC, 0), .any,
    [⟨GLB_CLK_STAT_main_lock, .ro, 0⟩, ⟨GLB_CLK_STAT_link_lock, .ro, 0⟩, ⟨GLB_CLK_STAT_locked, .ro, 0⟩, ⟨GLB_CLK_STAT_copy_err, .w1c, 0⟩, ⟨GLB_CLK_STAT_step_refused, .w1c, 0⟩, ⟨GLB_CLK_STAT_spurious_edges, .rc, 0⟩, ⟨GLB_CLK_STAT_flux_drop, .rc, 0⟩]⟩,
  ⟨.GLB_CLK_TRIM, 0x2000104, [], 0, some (0x20000FC, 0), .any,
    [⟨GLB_CLK_TRIM_trim, .rwp, 0⟩]⟩,
  ⟨.GLB_TIME_CTL, 0x2000110, [], 0, some (0x20000FC, 0), .any,
    [⟨GLB_TIME_CTL_lock_tol, .rw, 4⟩, ⟨GLB_TIME_CTL_time_mode, .rw, 0⟩]⟩,
  ⟨.GLB_TIME_LO, 0x2000120, [], 0, some (0x20000FC, 0), .any,
    [⟨GLB_TIME_LO_time_lo, .ro, 0⟩]⟩,
  ⟨.GLB_TIME_HI_SNAP, 0x2000124, [], 0, some (0x20000FC, 0), .any,
    [⟨GLB_TIME_HI_SNAP_time_hi_snap, .ro, 0⟩]⟩,
  ⟨.GLB_TIME_HI, 0x2000128, [], 0, some (0x20000FC, 0), .any,
    [⟨GLB_TIME_HI_time_hi, .ro, 0⟩]⟩,
  ⟨.GLB_TIME_STEP, 0x2000130, [], 0, some (0x20000FC, 0), .any,
    [⟨GLB_TIME_STEP_step, .rwp, 0⟩]⟩,
  ⟨.GLB_SYNC_IN_PERIOD, 0x2000140, [], 0, some (0x20000FC, 0), .any,
    [⟨GLB_SYNC_IN_PERIOD_sync_period, .rw, 0xC3500⟩]⟩,
  ⟨.GLB_SYNC_IN_LAT_LO, 0x2000144, [], 0, some (0x20000FC, 0), .any,
    [⟨GLB_SYNC_IN_LAT_LO_lat_lo, .ro, 0⟩]⟩,
  ⟨.GLB_SYNC_IN_LAT_HI_SNAP, 0x2000148, [], 0, some (0x20000FC, 0), .any,
    [⟨GLB_SYNC_IN_LAT_HI_SNAP_lat_hi_snap, .ro, 0⟩]⟩]

/-- Registers of the GLB block, table rows 13 to 21. -/
def regsGLB1 : List RegClass := [
  ⟨.GLB_SYNC_OUT_PERIOD, 0x2000150, [], 0, some (0x20000FC, 0), .any,
    [⟨GLB_SYNC_OUT_PERIOD_out_period, .rw, 0⟩]⟩,
  ⟨.GLB_SYNC_OUT_OFFSET, 0x2000154, [], 0, some (0x20000FC, 0), .any,
    [⟨GLB_SYNC_OUT_OFFSET_out_offset, .rw, 0⟩]⟩,
  ⟨.GLB_SYNC_OUT_CTL, 0x2000158, [], 0, some (0x20000FC, 0), .any,
    [⟨GLB_SYNC_OUT_CTL_out_width, .rw, 0x50⟩]⟩,
  ⟨.GLB_PCIE_CTL, 0x2000200, [], 0, some (0x20000FC, 0), .bench,
    [⟨GLB_PCIE_CTL_perst_dev, .rwp, 0⟩, ⟨GLB_PCIE_CTL_perst_stop, .rwp, 1⟩, ⟨GLB_PCIE_CTL_refclk_sel, .rwp, 0⟩, ⟨GLB_PCIE_CTL_max_gen, .rwp, 5⟩, ⟨GLB_PCIE_CTL_max_width, .rwp, 2⟩, ⟨GLB_PCIE_CTL_retrain, .wo, 0⟩]⟩,
  ⟨.GLB_PCIE_STAT, 0x2000204, [], 0, some (0x20000FC, 0), .any,
    [⟨GLB_PCIE_STAT_link_up, .ro, 0⟩, ⟨GLB_PCIE_STAT_fw_ready, .ro, 0⟩, ⟨GLB_PCIE_STAT_sep_ref, .ro, 0⟩, ⟨GLB_PCIE_STAT_l1, .ro, 0⟩, ⟨GLB_PCIE_STAT_dstate, .ro, 0⟩, ⟨GLB_PCIE_STAT_gen, .ro, 0⟩, ⟨GLB_PCIE_STAT_width, .ro, 0⟩, ⟨GLB_PCIE_STAT_lane_rev, .ro, 0⟩, ⟨GLB_PCIE_STAT_link_downs, .rc, 0⟩]⟩,
  ⟨.GLB_PCIE_ERR, 0x2000208, [], 0, some (0x20000FC, 0), .any,
    [⟨GLB_PCIE_ERR_poison_rx, .rc, 0⟩, ⟨GLB_PCIE_ERR_cpl_tmo, .rc, 0⟩, ⟨GLB_PCIE_ERR_ca_sent, .rc, 0⟩, ⟨GLB_PCIE_ERR_ur_sent, .rc, 0⟩]⟩,
  ⟨.GLB_MSIX_MOD, 0x2004800, [[(64, 4)]], 0, some (0x20000FC, 0), .any,
    [⟨GLB_MSIX_MOD_cnt_th, .rw, 1⟩, ⟨GLB_MSIX_MOD_tmo, .rw, 0⟩]⟩,
  ⟨.GLB_RST_CTL, 0x2000300, [], 0, some (0x20000FC, 0), .bench,
    [⟨GLB_RST_CTL_rst_refused, .w1c, 0⟩, ⟨GLB_RST_CTL_in_rst, .ro, 0⟩, ⟨GLB_RST_CTL_cl_rel, .rwp, 0⟩]⟩,
  ⟨.GLB_TEMP, 0x2000400, [], 0, some (0x20000FC, 0), .any,
    [⟨GLB_TEMP_max_t, .rc, 0x8000⟩, ⟨GLB_TEMP_temp, .ro, 0⟩]⟩]

/-- Registers of the GLB block. -/
def regsGLB : List RegClass := regsGLB0 ++ regsGLB1

/-- Registers of the PLN block, table rows 1 to 12. -/
def regsPLN0 : List RegClass := [
  ⟨.PLN_LANE_STAT, 0x2800000, [[(4, 0x200000), (4, 0x100)]], 0, some (0x28004FC, 1), .any,
    [⟨PLN_LANE_STAT_paired, .ro, 0⟩, ⟨PLN_LANE_STAT_primary, .ro, 0⟩, ⟨PLN_LANE_STAT_fg_busy, .ro, 0⟩, ⟨PLN_LANE_STAT_bg_busy, .ro, 0⟩, ⟨PLN_LANE_STAT_bg_queued, .ro, 0⟩, ⟨PLN_LANE_STAT_var_protect, .w1c, 0⟩, ⟨PLN_LANE_STAT_sat_seen, .w1c, 0⟩, ⟨PLN_LANE_STAT_ecc_fault, .w1c, 0⟩]⟩,
  ⟨.PLN_OCC, 0x2800004, [[(4, 0x200000), (4, 0x100)]], 0, some (0x28004FC, 1), .any,
    [⟨PLN_OCC_occ, .ro, 0⟩]⟩,
  ⟨.PLN_HYPER, 0x2800008, [[(4, 0x200000), (4, 0x100)]], 0, some (0x28004FC, 1), .any,
    [⟨PLN_HYPER_hyper, .ro, 0⟩]⟩,
  ⟨.PLN_BG_STAT, 0x280000C, [[(4, 0x200000), (4, 0x100)]], 0, some (0x28004FC, 1), .any,
    [⟨PLN_BG_STAT_min_slack, .rc, 0xFFFF⟩, ⟨PLN_BG_STAT_abandoned, .rc, 0⟩]⟩,
  ⟨.PLN_SLOT_CFG, 0x2800010, [[(4, 0x200000), (4, 0x100)], [(4, 0x20)]], 0, some (0x28004FC, 1), .bench,
    [⟨PLN_SLOT_CFG_valid, .rwp, 0⟩, ⟨PLN_SLOT_CFG_emu_en, .rwp, 0⟩, ⟨PLN_SLOT_CFG_laxis, .rwp, 0⟩, ⟨PLN_SLOT_CFG_inmask, .ro, 0⟩, ⟨PLN_SLOT_CFG_cur_len, .rwp, 0⟩, ⟨PLN_SLOT_CFG_cur_base, .rwp, 0⟩]⟩,
  ⟨.PLN_SLOT_VEL, 0x2800014, [[(4, 0x200000), (4, 0x100)], [(4, 0x20)]], 0, some (0x28004FC, 1), .bench,
    [⟨PLN_SLOT_VEL_en, .rwp, 0⟩, ⟨PLN_SLOT_VEL_div, .rwp, 0⟩, ⟨PLN_SLOT_VEL_len, .rwp, 0⟩, ⟨PLN_SLOT_VEL_base, .rwp, 0⟩]⟩,
  ⟨.PLN_SLOT_POS, 0x2800018, [[(4, 0x200000), (4, 0x100)], [(4, 0x20)]], 0, some (0x28004FC, 1), .bench,
    [⟨PLN_SLOT_POS_en, .rwp, 0⟩, ⟨PLN_SLOT_POS_div, .rwp, 0⟩, ⟨PLN_SLOT_POS_len, .rwp, 0⟩, ⟨PLN_SLOT_POS_base, .rwp, 0⟩]⟩,
  ⟨.PLN_SLOT_SCHED, 0x280001C, [[(4, 0x200000), (4, 0x100)], [(4, 0x20)]], 0, some (0x28004FC, 1), .bench,
    [⟨PLN_SLOT_SCHED_bg_phase, .rwp, 0⟩, ⟨PLN_SLOT_SCHED_samp_period, .ro, 0⟩]⟩,
  ⟨.PLN_SLOT_PHASE, 0x2800020, [[(4, 0x200000), (4, 0x100)], [(4, 0x20)]], 0, some (0x28004FC, 1), .any,
    [⟨PLN_SLOT_PHASE_samp_phase, .ro, 0⟩]⟩,
  ⟨.PLN_SLOT_RUN, 0x2800024, [[(4, 0x200000), (4, 0x100)], [(4, 0x20)]], 0, some (0x28004FC, 1), .any,
    [⟨PLN_SLOT_RUN_last_len, .ro, 0⟩, ⟨PLN_SLOT_RUN_max_len, .rc, 0⟩]⟩,
  ⟨.PLN_LAC_CFG, 0x28000A0, [[(4, 0x200000), (4, 0x100)], [(4, 8)]], 0, some (0x28004FC, 1), .any,
    [⟨PLN_LAC_CFG_en, .rw, 0⟩, ⟨PLN_LAC_CFG_action, .rw, 0⟩, ⟨PLN_LAC_CFG_slot_q, .rw, 0⟩, ⟨PLN_LAC_CFG_slot, .rw, 0⟩, ⟨PLN_LAC_CFG_addr, .rw, 0⟩]⟩,
  ⟨.PLN_LAC_CNT, 0x28000A4, [[(4, 0x200000), (4, 0x100)], [(4, 8)]], 0, some (0x28004FC, 1), .any,
    [⟨PLN_LAC_CNT_hits, .rc, 0⟩]⟩]

/-- Registers of the PLN block, table rows 13 to 18. -/
def regsPLN1 : List RegClass := [
  ⟨.PLN_COMMIT, 0x2800400, [[(4, 0x200000)]], 0, some (0x28004FC, 1), .bench,
    [⟨PLN_COMMIT_slots, .rwp, 0⟩]⟩,
  ⟨.PLN_LS_ADDR, 0x2800410, [[(4, 0x200000)]], 0, some (0x28004FC, 1), .any,
    [⟨PLN_LS_ADDR_lane, .rw, 0⟩, ⟨PLN_LS_ADDR_word, .rw, 0⟩]⟩,
  ⟨.PLN_LS_DATA_LO, 0x2800414, [[(4, 0x200000)]], 0, some (0x28004FC, 1), .any,
    [⟨PLN_LS_DATA_LO_data_lo, .rw, 0⟩]⟩,
  ⟨.PLN_LS_DATA_HI, 0x2800418, [[(4, 0x200000)]], 0, some (0x28004FC, 1), .bench,
    [⟨PLN_LS_DATA_HI_data_hi, .rwp, 0⟩]⟩,
  ⟨.PLN_LS_STAT, 0x280041C, [[(4, 0x200000)]], 0, some (0x28004FC, 1), .any,
    [⟨PLN_LS_STAT_ls_protect, .w1c, 0⟩, ⟨PLN_LS_STAT_ecc_uncorr, .rc, 0⟩, ⟨PLN_LS_STAT_ecc_corr, .rc, 0⟩]⟩,
  ⟨.PLN_UNLOCK, 0x28004FC, [[(4, 0x200000)]], 0, some (0x28004FC, 1), .any,
    [⟨PLN_UNLOCK_lock_violation, .w1c, 0⟩, ⟨PLN_UNLOCK_key, .wo, 0⟩]⟩]

/-- Registers of the PLN block. -/
def regsPLN : List RegClass := regsPLN0 ++ regsPLN1

/-- Registers of the AXS block, table rows 1 to 12. -/
def regsAXS0 : List RegClass := [
  ⟨.AXS_STATE, 0x2810000, [[(4, 0x200000), (16, 0x400)]], 0, some (0x28100FC, 2), .any,
    [⟨AXS_STATE_stopping, .ro, 0⟩, ⟨AXS_STATE_ramp, .ro, 0⟩, ⟨AXS_STATE_resp_done, .ro, 0⟩, ⟨AXS_STATE_cause_act, .ro, 0⟩, ⟨AXS_STATE_lane, .ro, 0⟩, ⟨AXS_STATE_slot, .ro, 0⟩, ⟨AXS_STATE_state, .ro, 0⟩]⟩,
  ⟨.AXS_CTL, 0x2810004, [[(4, 0x200000), (16, 0x400)]], 0, some (0x28100FC, 2), .bench,
    [⟨AXS_CTL_refused, .w1c, 0⟩, ⟨AXS_CTL_req, .rwpWo, 0⟩]⟩,
  ⟨.AXS_FAULT, 0x2810008, [[(4, 0x200000), (16, 0x400)]], 0, some (0x28100FC, 2), .any,
    [⟨AXS_FAULT_fault_count, .ro, 0⟩, ⟨AXS_FAULT_response, .ro, 0⟩, ⟨AXS_FAULT_cause, .ro, 0⟩]⟩,
  ⟨.AXS_CAUSE_SEEN, 0x281000C, [[(4, 0x200000), (16, 0x400)]], 0, some (0x28100FC, 2), .any,
    [⟨AXS_CAUSE_SEEN_seen, .w1c, 0⟩]⟩,
  ⟨.AXS_CAUSE_ACT, 0x2810010, [[(4, 0x200000), (16, 0x400)]], 0, some (0x28100FC, 2), .any,
    [⟨AXS_CAUSE_ACT_act, .ro, 0⟩]⟩,
  ⟨.AXS_FAULT_TIME_LO, 0x2810014, [[(4, 0x200000), (16, 0x400)]], 0, some (0x28100FC, 2), .any,
    [⟨AXS_FAULT_TIME_LO_t_lo, .ro, 0⟩]⟩,
  ⟨.AXS_FAULT_TIME_HI_SNAP, 0x2810018, [[(4, 0x200000), (16, 0x400)]], 0, some (0x28100FC, 2), .any,
    [⟨AXS_FAULT_TIME_HI_SNAP_t_hi_snap, .ro, 0⟩]⟩,
  ⟨.AXS_FAULT_REQ, 0x281001C, [[(4, 0x200000), (16, 0x400)]], 0, some (0x28100FC, 2), .any,
    [⟨AXS_FAULT_REQ_cause, .wo, 0⟩]⟩,
  ⟨.AXS_FRMAP, 0x2810020, [[(4, 0x200000), (16, 0x400)], [(4, 4)]], 0, some (0x28100FC, 2), .any,
    [⟨AXS_FRMAP_map, .rwp, 0⟩]⟩,
  ⟨.AXS_MISS_CFG, 0x2810040, [[(4, 0x200000), (16, 0x400)]], 0, some (0x28100FC, 2), .any,
    [⟨AXS_MISS_CFG_miss_limit, .rwp, 3⟩]⟩,
  ⟨.AXS_MISS_STAT, 0x2810044, [[(4, 0x200000), (16, 0x400)]], 0, some (0x28100FC, 2), .any,
    [⟨AXS_MISS_STAT_miss, .w1c, 0⟩, ⟨AXS_MISS_STAT_last_kind, .ro, 0⟩, ⟨AXS_MISS_STAT_cons_miss, .ro, 0⟩, ⟨AXS_MISS_STAT_max_cons, .rc, 0⟩]⟩,
  ⟨.AXS_MISS_CUR_CNT, 0x2810048, [[(4, 0x200000), (16, 0x400)]], 0, some (0x28100FC, 2), .any,
    [⟨AXS_MISS_CUR_CNT_cur_miss, .rc, 0⟩]⟩]

/-- Registers of the AXS block, table rows 13 to 24. -/
def regsAXS1 : List RegClass := [
  ⟨.AXS_MISS_BG_CNT, 0x281004C, [[(4, 0x200000), (16, 0x400)]], 0, some (0x28100FC, 2), .any,
    [⟨AXS_MISS_BG_CNT_bg_miss, .rc, 0⟩]⟩,
  ⟨.AXS_RGN_CFG, 0x2810060, [[(4, 0x200000), (16, 0x400)]], 0, some (0x28100FC, 2), .any,
    [⟨AXS_RGN_CFG_fix, .rw, 1⟩, ⟨AXS_RGN_CFG_fix_region, .rw, 0⟩, ⟨AXS_RGN_CFG_evt_en, .rw, 0⟩, ⟨AXS_RGN_CFG_region_err, .w1c, 0⟩, ⟨AXS_RGN_CFG_top, .rw, 0⟩, ⟨AXS_RGN_CFG_selector, .rw, 0⟩]⟩,
  ⟨.AXS_RGN_TH, 0x2810064, [[(4, 0x200000), (16, 0x400)], [(7, 4)]], 0, some (0x28100FC, 2), .any,
    [⟨AXS_RGN_TH_th, .rw, 0⟩]⟩,
  ⟨.AXS_RGN_HYST, 0x2810080, [[(4, 0x200000), (16, 0x400)]], 0, some (0x28100FC, 2), .any,
    [⟨AXS_RGN_HYST_hyst, .rw, 0⟩]⟩,
  ⟨.AXS_LOAD_EST, 0x2810084, [[(4, 0x200000), (16, 0x400)]], 0, some (0x28100FC, 2), .any,
    [⟨AXS_LOAD_EST_load, .rw, 0⟩]⟩,
  ⟨.AXS_RGN_STAT, 0x2810088, [[(4, 0x200000), (16, 0x400)]], 0, some (0x28100FC, 2), .any,
    [⟨AXS_RGN_STAT_changes, .rc, 0⟩, ⟨AXS_RGN_STAT_prev_region, .ro, 0⟩, ⟨AXS_RGN_STAT_region, .ro, 0⟩]⟩,
  ⟨.AXS_SEL_VAL, 0x281008C, [[(4, 0x200000), (16, 0x400)]], 0, some (0x28100FC, 2), .any,
    [⟨AXS_SEL_VAL_sel, .ro, 0⟩]⟩,
  ⟨.AXS_RGN_DWELL, 0x28100A0, [[(4, 0x200000), (16, 0x400)], [(8, 4)]], 0, some (0x28100FC, 2), .any,
    [⟨AXS_RGN_DWELL_dwell, .rc, 0⟩]⟩,
  ⟨.AXS_RAMP_DECEL, 0x28100C0, [[(4, 0x200000), (16, 0x400)]], 0, some (0x28100FC, 2), .any,
    [⟨AXS_RAMP_DECEL_ramp_decel, .rw, 0⟩]⟩,
  ⟨.AXS_RAMP_TMAX, 0x28100C4, [[(4, 0x200000), (16, 0x400)]], 0, some (0x28100FC, 2), .any,
    [⟨AXS_RAMP_TMAX_ramp_tmax, .rw, 0x186A0⟩]⟩,
  ⟨.AXS_RAMP_HOLD, 0x28100C8, [[(4, 0x200000), (16, 0x400)]], 0, some (0x28100FC, 2), .any,
    [⟨AXS_RAMP_HOLD_ramp_hold, .rw, 0⟩]⟩,
  ⟨.AXS_RAMP_STAT, 0x28100CC, [[(4, 0x200000), (16, 0x400)]], 0, some (0x28100FC, 2), .any,
    [⟨AXS_RAMP_STAT_outcome, .ro, 0⟩, ⟨AXS_RAMP_STAT_elapsed, .ro, 0⟩]⟩]

/-- Registers of the AXS block, table rows 25 to 35. -/
def regsAXS2 : List RegClass := [
  ⟨.AXS_SEG_STAT, 0x2810100, [[(4, 0x200000), (16, 0x400)]], 0, some (0x28100FC, 2), .any,
    [⟨AXS_SEG_STAT_ist, .ro, 0⟩, ⟨AXS_SEG_STAT_underrun, .w1c, 0⟩, ⟨AXS_SEG_STAT_vel_step, .w1c, 0⟩, ⟨AXS_SEG_STAT_late, .w1c, 0⟩, ⟨AXS_SEG_STAT_seg_err, .w1c, 0⟩, ⟨AXS_SEG_STAT_early, .ro, 0⟩, ⟨AXS_SEG_STAT_str, .ro, 0⟩, ⟨AXS_SEG_STAT_valid, .ro, 0⟩, ⟨AXS_SEG_STAT_queued, .ro, 0⟩, ⟨AXS_SEG_STAT_str_ring, .ro, 0⟩]⟩,
  ⟨.AXS_SEG_TAG, 0x2810104, [[(4, 0x200000), (16, 0x400)]], 0, some (0x28100FC, 2), .any,
    [⟨AXS_SEG_TAG_tag, .ro, 0⟩]⟩,
  ⟨.AXS_SEG_T0_LO, 0x2810108, [[(4, 0x200000), (16, 0x400)]], 0, some (0x28100FC, 2), .any,
    [⟨AXS_SEG_T0_LO_t0_lo, .ro, 0⟩]⟩,
  ⟨.AXS_SEG_T0_HI_SNAP, 0x281010C, [[(4, 0x200000), (16, 0x400)]], 0, some (0x28100FC, 2), .any,
    [⟨AXS_SEG_T0_HI_SNAP_t0_hi_snap, .ro, 0⟩]⟩,
  ⟨.AXS_SEG_SETP, 0x2810110, [[(4, 0x200000), (16, 0x400)]], 0, some (0x28100FC, 2), .any,
    [⟨AXS_SEG_SETP_setp, .ro, 0⟩]⟩,
  ⟨.AXS_SEG_SETPF, 0x2810114, [[(4, 0x200000), (16, 0x400)]], 0, some (0x28100FC, 2), .any,
    [⟨AXS_SEG_SETPF_setpf, .ro, 0⟩]⟩,
  ⟨.AXS_SEG_SETV, 0x2810118, [[(4, 0x200000), (16, 0x400)]], 0, some (0x28100FC, 2), .any,
    [⟨AXS_SEG_SETV_setv, .ro, 0⟩]⟩,
  ⟨.AXS_SEG_SETA, 0x281011C, [[(4, 0x200000), (16, 0x400)]], 0, some (0x28100FC, 2), .any,
    [⟨AXS_SEG_SETA_seta, .ro, 0⟩]⟩,
  ⟨.AXS_SEG_DONE, 0x2810120, [[(4, 0x200000), (16, 0x400)]], 0, some (0x28100FC, 2), .any,
    [⟨AXS_SEG_DONE_done, .rc, 0⟩]⟩,
  ⟨.AXS_SEG_DROP, 0x2810124, [[(4, 0x200000), (16, 0x400)]], 0, some (0x28100FC, 2), .any,
    [⟨AXS_SEG_DROP_dropped, .rc, 0⟩]⟩,
  ⟨.AXS_UNLOCK, 0x28100FC, [[(4, 0x200000), (16, 0x400)]], 0, some (0x28100FC, 2), .any,
    [⟨AXS_UNLOCK_lock_violation, .w1c, 0⟩, ⟨AXS_UNLOCK_key, .wo, 0⟩]⟩]

/-- Registers of the AXS block. -/
def regsAXS : List RegClass := regsAXS0 ++ regsAXS1 ++ regsAXS2

/-- Registers of the DRW block, table rows 1 to 12. -/
def regsDRW0 : List RegClass := [
  ⟨.DRW_CLK, 0x2840000, [[(4, 0x200000), (4, 4)]], 0, some (0x28400FC, 1), .any,
    [⟨DRW_CLK_en, .rw, 0⟩, ⟨DRW_CLK_running, .ro, 0⟩, ⟨DRW_CLK_clk_fault, .w1c, 0⟩, ⟨DRW_CLK_clk_lost, .ro, 0⟩, ⟨DRW_CLK_clk_div, .rw, 0x28⟩]⟩,
  ⟨.DRW_STAT, 0x2840010, [[(4, 0x200000)]], 0, some (0x28400FC, 1), .any,
    [⟨DRW_STAT_adm_lock, .w1c, 0⟩, ⟨DRW_STAT_cfg_refused, .w1c, 0⟩, ⟨DRW_STAT_oc_axes, .ro, 0⟩]⟩,
  ⟨.DRW_CFG, 0x2840014, [[(4, 0x200000)]], 0, some (0x28400FC, 1), .any,
    [⟨DRW_CFG_stuck_len, .rw, 0x40⟩]⟩,
  ⟨.DRW_WIN_CFG, 0x2840100, [[(4, 0x200000), (16, 0x10)]], 0, some (0x28400FC, 1), .any,
    [⟨DRW_WIN_CFG_win_evt, .rw, 0⟩, ⟨DRW_WIN_CFG_two_sensor, .rw, 0⟩, ⟨DRW_WIN_CFG_win_delay, .rw, 0⟩]⟩,
  ⟨.DRW_WIN_LEN, 0x2840104, [[(4, 0x200000), (16, 0x10)]], 0, some (0x28400FC, 1), .any,
    [⟨DRW_WIN_LEN_win_len, .rw, 0x640⟩]⟩,
  ⟨.DRW_TS_LO, 0x2840108, [[(4, 0x200000), (16, 0x10)]], 0, some (0x28400FC, 1), .any,
    [⟨DRW_TS_LO_ts_lo, .ro, 0⟩]⟩,
  ⟨.DRW_TS_HI_SNAP, 0x284010C, [[(4, 0x200000), (16, 0x10)]], 0, some (0x28400FC, 1), .any,
    [⟨DRW_TS_HI_SNAP_ts_hi_snap, .ro, 0⟩]⟩,
  ⟨.DRW_CH_CFG, 0x2841000, [[(4, 0x200000), (48, 0x20)]], 0, some (0x28400FC, 1), .any,
    [⟨DRW_CH_CFG_ch_en, .rw, 0⟩, ⟨DRW_CH_CFG_win_mode, .rw, 1⟩, ⟨DRW_CH_CFG_order, .rw, 0⟩, ⟨DRW_CH_CFG_width, .rw, 0x18⟩, ⟨DRW_CH_CFG_sdc_sel, .rw, 0⟩, ⟨DRW_CH_CFG_src, .rw, 0⟩, ⟨DRW_CH_CFG_osr_m1, .rw, 0x1F⟩, ⟨DRW_CH_CFG_cap_dly, .rw, 0⟩]⟩,
  ⟨.DRW_CH_CORR, 0x2841004, [[(4, 0x200000), (48, 0x20)]], 0, some (0x28400FC, 1), .any,
    [⟨DRW_CH_CORR_offset, .rw, 0⟩, ⟨DRW_CH_CORR_gain, .rw, 0x8000⟩]⟩,
  ⟨.DRW_OC_CFG, 0x2841008, [[(4, 0x200000), (48, 0x20)]], 0, some (0x28400FC, 1), .any,
    [⟨DRW_OC_CFG_oc_act, .rwp, 0⟩, ⟨DRW_OC_CFG_oc_osr, .rwp, 0x10⟩, ⟨DRW_OC_CFG_oc_qual_m1, .rwp, 1⟩]⟩,
  ⟨.DRW_OC_TH, 0x284100C, [[(4, 0x200000), (48, 0x20)]], 0, some (0x28400FC, 1), .any,
    [⟨DRW_OC_TH_hi_th, .rwp, 0x7FFF⟩, ⟨DRW_OC_TH_lo_th, .rwp, 0x8000⟩]⟩,
  ⟨.DRW_RES, 0x2841010, [[(4, 0x200000), (48, 0x20)]], 0, some (0x28400FC, 1), .any,
    [⟨DRW_RES_valid, .ro, 0⟩, ⟨DRW_RES_seq, .ro, 0⟩, ⟨DRW_RES_res, .ro, 0⟩]⟩]

/-- Registers of the DRW block, table rows 13 to 15. -/
def regsDRW1 : List RegClass := [
  ⟨.DRW_CH_STAT, 0x2841014, [[(4, 0x200000), (48, 0x20)]], 0, some (0x28400FC, 1), .any,
    [⟨DRW_CH_STAT_oc_hi, .w1c, 0⟩, ⟨DRW_CH_STAT_oc_lo, .w1c, 0⟩, ⟨DRW_CH_STAT_oc_now, .ro, 0⟩, ⟨DRW_CH_STAT_stuck, .w1c, 0⟩, ⟨DRW_CH_STAT_no_data, .w1c, 0⟩, ⟨DRW_CH_STAT_overrun, .w1c, 0⟩, ⟨DRW_CH_STAT_clip, .w1c, 0⟩, ⟨DRW_CH_STAT_th_err, .w1c, 0⟩, ⟨DRW_CH_STAT_unsettled, .ro, 1⟩, ⟨DRW_CH_STAT_clk_lost, .ro, 0⟩, ⟨DRW_CH_STAT_inval_cnt, .rc, 0⟩]⟩,
  ⟨.DRW_OC_VAL, 0x2841018, [[(4, 0x200000), (48, 0x20)]], 0, some (0x28400FC, 1), .any,
    [⟨DRW_OC_VAL_oc_val, .ro, 0⟩]⟩,
  ⟨.DRW_UNLOCK, 0x28400FC, [[(4, 0x200000)]], 0, some (0x28400FC, 1), .any,
    [⟨DRW_UNLOCK_lock_violation, .w1c, 0⟩, ⟨DRW_UNLOCK_key, .wo, 0⟩]⟩]

/-- Registers of the DRW block. -/
def regsDRW : List RegClass := regsDRW0 ++ regsDRW1

/-- Registers of the PWM block, table rows 1 to 12. -/
def regsPWM0 : List RegClass := [
  ⟨.PWM_CFG, 0x2820000, [[(4, 0x200000), (16, 0x40)]], 0, some (0x28204FC, 1), .any,
    [⟨PWM_CFG_center, .rwp, 1⟩, ⟨PWM_CFG_dbl, .rwp, 0⟩, ⟨PWM_CFG_upd_pt, .rwp, 0⟩, ⟨PWM_CFG_upd_div, .rwp, 0⟩]⟩,
  ⟨.PWM_PER, 0x2820004, [[(4, 0x200000), (16, 0x40)]], 0, some (0x28204FC, 1), .any,
    [⟨PWM_PER_per, .rwp, 0xFA0⟩]⟩,
  ⟨.PWM_OFS, 0x2820008, [[(4, 0x200000), (16, 0x40)]], 0, some (0x28204FC, 1), .any,
    [⟨PWM_OFS_ofs, .rwp, 0⟩]⟩,
  ⟨.PWM_DT, 0x282000C, [[(4, 0x200000), (16, 0x40)]], 0, some (0x28204FC, 1), .any,
    [⟨PWM_DT_min_pulse, .rwp, 0x10⟩, ⟨PWM_DT_dt_f, .rwp, 0⟩, ⟨PWM_DT_dt_c, .rwp, 0x3FF⟩]⟩,
  ⟨.PWM_POL, 0x2820010, [[(4, 0x200000), (16, 0x40)]], 0, some (0x28204FC, 1), .any,
    [⟨PWM_POL_pol, .rwp, 0⟩]⟩,
  ⟨.PWM_FLT, 0x2820014, [[(4, 0x200000), (16, 0x40)]], 0, some (0x28204FC, 1), .any,
    [⟨PWM_FLT_flt_en, .rwp, 1⟩, ⟨PWM_FLT_flt_filt, .rwp, 0⟩]⟩,
  ⟨.PWM_HOLD, 0x2820018, [[(4, 0x200000), (16, 0x40)]], 0, some (0x28204FC, 1), .any,
    [⟨PWM_HOLD_hold_en, .rw, 0⟩, ⟨PWM_HOLD_hold_left, .ro, 0⟩, ⟨PWM_HOLD_hold_cnt, .rw, 1⟩]⟩,
  ⟨.PWM_SHD_U, 0x282001C, [[(4, 0x200000), (16, 0x40)]], 0, some (0x28204FC, 1), .any,
    [⟨PWM_SHD_U_shd_u, .ro, 0x80000000⟩]⟩,
  ⟨.PWM_SHD_V, 0x2820020, [[(4, 0x200000), (16, 0x40)]], 0, some (0x28204FC, 1), .any,
    [⟨PWM_SHD_V_shd_v, .ro, 0x80000000⟩]⟩,
  ⟨.PWM_SHD_W, 0x2820024, [[(4, 0x200000), (16, 0x40)]], 0, some (0x28204FC, 1), .any,
    [⟨PWM_SHD_W_shd_w, .ro, 0x80000000⟩]⟩,
  ⟨.PWM_ACT_U, 0x2820028, [[(4, 0x200000), (16, 0x40)]], 0, some (0x28204FC, 1), .any,
    [⟨PWM_ACT_U_act_u, .ro, 0x80000000⟩]⟩,
  ⟨.PWM_ACT_V, 0x282002C, [[(4, 0x200000), (16, 0x40)]], 0, some (0x28204FC, 1), .any,
    [⟨PWM_ACT_V_act_v, .ro, 0x80000000⟩]⟩]

/-- Registers of the PWM block, table rows 13 to 19. -/
def regsPWM1 : List RegClass := [
  ⟨.PWM_ACT_W, 0x2820030, [[(4, 0x200000), (16, 0x40)]], 0, some (0x28204FC, 1), .any,
    [⟨PWM_ACT_W_act_w, .ro, 0x80000000⟩]⟩,
  ⟨.PWM_STAT, 0x2820034, [[(4, 0x200000), (16, 0x40)]], 0, some (0x28204FC, 1), .any,
    [⟨PWM_STAT_out_mode, .ro, 0⟩, ⟨PWM_STAT_forced, .ro, 0⟩, ⟨PWM_STAT_flt_live, .ro, 0⟩, ⟨PWM_STAT_flt_seen, .w1c, 0⟩, ⟨PWM_STAT_sto_live, .ro, 0⟩, ⟨PWM_STAT_pulse_drop, .w1c, 0⟩, ⟨PWM_STAT_held, .w1c, 0⟩, ⟨PWM_STAT_cnt, .ro, 0⟩]⟩,
  ⟨.PWM_STO_MAP, 0x2820400, [[(4, 0x200000), (8, 4)]], 0, some (0x28204FC, 1), .any,
    [⟨PWM_STO_MAP_axes, .rwp, 0⟩]⟩,
  ⟨.PWM_STO_CFG, 0x2820420, [[(4, 0x200000)]], 0, some (0x28204FC, 1), .any,
    [⟨PWM_STO_CFG_sto_filt, .rw, 8⟩]⟩,
  ⟨.PWM_STO_STAT, 0x2820424, [[(4, 0x200000)]], 0, some (0x28204FC, 1), .any,
    [⟨PWM_STO_STAT_seen, .w1c, 0⟩, ⟨PWM_STO_STAT_live, .ro, 0⟩]⟩,
  ⟨.PWM_GSTAT, 0x2820428, [[(4, 0x200000)]], 0, some (0x28204FC, 1), .any,
    [⟨PWM_GSTAT_adm_lock, .w1c, 0⟩, ⟨PWM_GSTAT_cfg_err, .w1c, 0⟩, ⟨PWM_GSTAT_sto_refused, .w1c, 0⟩, ⟨PWM_GSTAT_safe_axes, .ro, 0xFFFF⟩]⟩,
  ⟨.PWM_UNLOCK, 0x28204FC, [[(4, 0x200000)]], 0, some (0x28204FC, 1), .any,
    [⟨PWM_UNLOCK_lock_violation, .w1c, 0⟩, ⟨PWM_UNLOCK_key, .wo, 0⟩]⟩]

/-- Registers of the PWM block. -/
def regsPWM : List RegClass := regsPWM0 ++ regsPWM1

/-- Registers of the FBK block, table rows 1 to 12. -/
def regsFBK0 : List RegClass := [
  ⟨.FBK_CFG, 0x2830000, [[(4, 0x200000), (16, 0x80)]], 0, some (0x28308FC, 1), .any,
    [⟨FBK_CFG_enc_en, .rwp, 0⟩, ⟨FBK_CFG_in_mode, .rwp, 0⟩, ⟨FBK_CFG_cnt_mode, .rwp, 0⟩, ⟨FBK_CFG_swap_ab, .rwp, 0⟩, ⟨FBK_CFG_inv_z, .rwp, 0⟩, ⟨FBK_CFG_idx_gate, .rwp, 0⟩, ⟨FBK_CFG_dir_irq, .rwp, 0⟩, ⟨FBK_CFG_filt, .rwp, 8⟩]⟩,
  ⟨.FBK_POS, 0x2830004, [[(4, 0x200000), (16, 0x80)]], 0, some (0x28308FC, 1), .any,
    [⟨FBK_POS_pos, .rwp, 0⟩]⟩,
  ⟨.FBK_LAT_POS, 0x2830008, [[(4, 0x200000), (16, 0x80)]], 0, some (0x28308FC, 1), .any,
    [⟨FBK_LAT_POS_lat_pos, .ro, 0⟩]⟩,
  ⟨.FBK_SPD, 0x2830010, [[(4, 0x200000), (16, 0x80)]], 0, some (0x28308FC, 1), .any,
    [⟨FBK_SPD_spd, .ro, 0⟩]⟩,
  ⟨.FBK_SPD_CFG, 0x2830014, [[(4, 0x200000), (16, 0x80)]], 0, some (0x28308FC, 1), .any,
    [⟨FBK_SPD_CFG_spd_tmo, .rw, 0x64⟩, ⟨FBK_SPD_CFG_spd_min, .rw, 0x640⟩]⟩,
  ⟨.FBK_STAT, 0x283000C, [[(4, 0x200000), (16, 0x80)]], 0, some (0x28308FC, 1), .any,
    [⟨FBK_STAT_lat_valid, .ro, 0⟩, ⟨FBK_STAT_dir, .ro, 0⟩, ⟨FBK_STAT_dir_chg, .w1c, 0⟩, ⟨FBK_STAT_qerr, .w1c, 0⟩, ⟨FBK_STAT_dis_live, .ro, 0⟩, ⟨FBK_STAT_dis_seen, .w1c, 0⟩, ⟨FBK_STAT_lc_err, .w1c, 0⟩, ⟨FBK_STAT_cable, .w1c, 0⟩, ⟨FBK_STAT_scale, .w1c, 0⟩, ⟨FBK_STAT_restart, .w1c, 0⟩, ⟨FBK_STAT_ser_stale, .ro, 0⟩, ⟨FBK_STAT_qerr_cnt, .rc, 0⟩]⟩,
  ⟨.FBK_SUP_CFG, 0x2830018, [[(4, 0x200000), (16, 0x80)]], 0, some (0x28308FC, 1), .any,
    [⟨FBK_SUP_CFG_sup_act, .rwp, 2⟩, ⟨FBK_SUP_CFG_dis_mask, .rwp, 3⟩, ⟨FBK_SUP_CFG_dis_inval, .rwp, 1⟩, ⟨FBK_SUP_CFG_lc_en, .rwp, 0⟩, ⟨FBK_SUP_CFG_dis_filt, .rwp, 0x20⟩, ⟨FBK_SUP_CFG_dis_persist, .rwp, 0x10⟩]⟩,
  ⟨.FBK_LC_NOM, 0x283001C, [[(4, 0x200000), (16, 0x80)]], 0, some (0x28308FC, 1), .any,
    [⟨FBK_LC_NOM_nom, .rw, 0⟩]⟩,
  ⟨.FBK_LC_TOL, 0x2830020, [[(4, 0x200000), (16, 0x80)]], 0, some (0x28308FC, 1), .any,
    [⟨FBK_LC_TOL_lc_skip, .rc, 0⟩, ⟨FBK_LC_TOL_tol, .rw, 4⟩]⟩,
  ⟨.FBK_LC_LAST, 0x2830024, [[(4, 0x200000), (16, 0x80)]], 0, some (0x28308FC, 1), .any,
    [⟨FBK_LC_LAST_dev, .ro, 0⟩]⟩,
  ⟨.FBK_IDX_STAT, 0x2830028, [[(4, 0x200000), (16, 0x80)]], 0, some (0x28308FC, 1), .any,
    [⟨FBK_IDX_STAT_idx_seq, .ro, 0⟩, ⟨FBK_IDX_STAT_n_valid, .ro, 0⟩]⟩,
  ⟨.FBK_IDX_POS, 0x2830030, [[(4, 0x200000), (16, 0x80)], [(4, 0xC)]], 0, some (0x28308FC, 1), .any,
    [⟨FBK_IDX_POS_idx_pos, .ro, 0⟩]⟩]

/-- Registers of the FBK block, table rows 13 to 24. -/
def regsFBK1 : List RegClass := [
  ⟨.FBK_IDX_T_LO, 0x2830034, [[(4, 0x200000), (16, 0x80)], [(4, 0xC)]], 0, some (0x28308FC, 1), .any,
    [⟨FBK_IDX_T_LO_t_lo, .ro, 0⟩]⟩,
  ⟨.FBK_IDX_T_HI, 0x2830038, [[(4, 0x200000), (16, 0x80)], [(4, 0xC)]], 0, some (0x28308FC, 1), .any,
    [⟨FBK_IDX_T_HI_t_hi, .ro, 0⟩]⟩,
  ⟨.FBK_RSC_CFG, 0x2830060, [[(4, 0x200000), (16, 0x80)]], 0, some (0x28308FC, 1), .any,
    [⟨FBK_RSC_CFG_rsc_en, .rw, 0⟩, ⟨FBK_RSC_CFG_dir_rsc, .rw, 0⟩, ⟨FBK_RSC_CFG_rem_en, .rw, 0⟩, ⟨FBK_RSC_CFG_late, .w1c, 0⟩, ⟨FBK_RSC_CFG_overrun, .w1c, 0⟩, ⟨FBK_RSC_CFG_pw, .rw, 0x10⟩]⟩,
  ⟨.FBK_RSC_CMP, 0x2830064, [[(4, 0x200000), (16, 0x80)]], 0, some (0x28308FC, 1), .any,
    [⟨FBK_RSC_CMP_cmp, .rw, 0⟩]⟩,
  ⟨.FBK_RSC_STEP, 0x2830068, [[(4, 0x200000), (16, 0x80)]], 0, some (0x28308FC, 1), .any,
    [⟨FBK_RSC_STEP_step, .rw, 1⟩]⟩,
  ⟨.FBK_RSC_REM, 0x283006C, [[(4, 0x200000), (16, 0x80)]], 0, some (0x28308FC, 1), .any,
    [⟨FBK_RSC_REM_rem, .rw, 0⟩]⟩,
  ⟨.FBK_RSC_HITS, 0x2830070, [[(4, 0x200000), (16, 0x80)]], 0, some (0x28308FC, 1), .any,
    [⟨FBK_RSC_HITS_rsc_hits, .rc, 0⟩]⟩,
  ⟨.FBK_SER_CFG, 0x2830074, [[(4, 0x200000), (16, 0x80)]], 0, some (0x28308FC, 1), .any,
    [⟨FBK_SER_CFG_ser_signed, .rw, 0⟩, ⟨FBK_SER_CFG_bits, .rw, 0x20⟩, ⟨FBK_SER_CFG_shift, .rw, 0⟩, ⟨FBK_SER_CFG_eng, .rw, 0⟩]⟩,
  ⟨.FBK_SER_POS, 0x2830078, [[(4, 0x200000), (16, 0x80)]], 0, some (0x28308FC, 1), .any,
    [⟨FBK_SER_POS_ser_pos, .ro, 0⟩]⟩,
  ⟨.FBK_EO_CFG, 0x2830800, [[(4, 0x200000), (4, 0x10)]], 0, some (0x28308FC, 1), .any,
    [⟨FBK_EO_CFG_en, .rw, 0⟩, ⟨FBK_EO_CFG_src, .rw, 0⟩, ⟨FBK_EO_CFG_z_mode, .rw, 0⟩, ⟨FBK_EO_CFG_z_lines, .rw, 1⟩]⟩,
  ⟨.FBK_EO_RATIO, 0x2830804, [[(4, 0x200000), (4, 0x10)]], 0, some (0x28308FC, 1), .any,
    [⟨FBK_EO_RATIO_n, .rw, 0⟩, ⟨FBK_EO_RATIO_m, .rw, 0⟩]⟩,
  ⟨.FBK_EO_SCALE, 0x2830808, [[(4, 0x200000), (4, 0x10)]], 0, some (0x28308FC, 1), .any,
    [⟨FBK_EO_SCALE_scale, .rw, 0⟩]⟩]

/-- Registers of the FBK block, table rows 25 to 27. -/
def regsFBK2 : List RegClass := [
  ⟨.FBK_EO_STAT, 0x283080C, [[(4, 0x200000), (4, 0x10)]], 0, some (0x28308FC, 1), .any,
    [⟨FBK_EO_STAT_lag, .w1c, 0⟩, ⟨FBK_EO_STAT_run, .ro, 0⟩, ⟨FBK_EO_STAT_out_cnt, .ro, 0⟩]⟩,
  ⟨.FBK_GSTAT, 0x2830840, [[(4, 0x200000)]], 0, some (0x28308FC, 1), .any,
    [⟨FBK_GSTAT_adm_lock, .w1c, 0⟩, ⟨FBK_GSTAT_cfg_err, .w1c, 0⟩]⟩,
  ⟨.FBK_UNLOCK, 0x28308FC, [[(4, 0x200000)]], 0, some (0x28308FC, 1), .any,
    [⟨FBK_UNLOCK_lock_violation, .w1c, 0⟩, ⟨FBK_UNLOCK_key, .wo, 0⟩]⟩]

/-- Registers of the FBK block. -/
def regsFBK : List RegClass := regsFBK0 ++ regsFBK1 ++ regsFBK2

/-- Registers of the FLX block, table rows 1 to 12. -/
def regsFLX0 : List RegClass := [
  ⟨.FLX_ROUTE, 0x2870000, [[(4, 0x200000)], [(128, 4)]], 0, some (0x28705FC, 1), .any,
    [⟨FLX_ROUTE_en_a, .rw, 0⟩, ⟨FLX_ROUTE_en_b, .rw, 0⟩, ⟨FLX_ROUTE_seen, .w1c, 0⟩, ⟨FLX_ROUTE_src_b, .rw, 0⟩, ⟨FLX_ROUTE_src_a, .rw, 0⟩]⟩,
  ⟨.FLX_EXPORT, 0x2870200, [[(4, 0x200000)], [(8, 4)]], 0, some (0x28705FC, 1), .any,
    [⟨FLX_EXPORT_en, .rw, 0⟩, ⟨FLX_EXPORT_src, .rw, 0⟩]⟩,
  ⟨.FLX_IMPORT, 0x2870220, [[(4, 0x200000)], [(8, 4)]], 0, some (0x28705FC, 1), .any,
    [⟨FLX_IMPORT_en, .rw, 0⟩, ⟨FLX_IMPORT_cl, .rw, 0⟩, ⟨FLX_IMPORT_exp, .rw, 0⟩]⟩,
  ⟨.FLX_COMB_CFG, 0x2870240, [[(4, 0x200000)], [(8, 8)]], 0, some (0x28705FC, 1), .any,
    [⟨FLX_COMB_CFG_en, .rw, 0⟩, ⟨FLX_COMB_CFG_one_shot, .rw, 0⟩, ⟨FLX_COMB_CFG_armed, .ro, 1⟩, ⟨FLX_COMB_CFG_fired, .w1c, 0⟩, ⟨FLX_COMB_CFG_rearm, .wo, 0⟩, ⟨FLX_COMB_CFG_in_en, .rw, 0⟩]⟩,
  ⟨.FLX_COMB_IN, 0x2870244, [[(4, 0x200000)], [(8, 8)]], 0, some (0x28705FC, 1), .any,
    [⟨FLX_COMB_IN_in, .rw, 0⟩]⟩,
  ⟨.FLX_SWFIRE, 0x2870280, [[(4, 0x200000)]], 0, some (0x28705FC, 1), .any,
    [⟨FLX_SWFIRE_fire, .wo, 0⟩]⟩,
  ⟨.FLX_STAT, 0x2870284, [[(4, 0x200000)]], 0, some (0x28705FC, 1), .any,
    [⟨FLX_STAT_cfg_err, .w1c, 0⟩, ⟨FLX_STAT_adm_lock, .w1c, 0⟩]⟩,
  ⟨.FLX_WIN_CFG, 0x2870300, [[(4, 0x200000), (16, 0x10)]], 0, some (0x28705FC, 1), .any,
    [⟨FLX_WIN_CFG_en, .rw, 0⟩, ⟨FLX_WIN_CFG_mode, .rw, 1⟩, ⟨FLX_WIN_CFG_late, .w1c, 0⟩, ⟨FLX_WIN_CFG_inside, .ro, 0⟩]⟩,
  ⟨.FLX_WIN_LO, 0x2870304, [[(4, 0x200000), (16, 0x10)]], 0, some (0x28705FC, 1), .any,
    [⟨FLX_WIN_LO_lo, .rw, 0⟩]⟩,
  ⟨.FLX_WIN_HI, 0x2870308, [[(4, 0x200000), (16, 0x10)]], 0, some (0x28705FC, 1), .any,
    [⟨FLX_WIN_HI_hi, .rw, 0⟩]⟩,
  ⟨.FLX_WIN_CNT, 0x287030C, [[(4, 0x200000), (16, 0x10)]], 0, some (0x28705FC, 1), .any,
    [⟨FLX_WIN_CNT_hits, .rc, 0⟩]⟩,
  ⟨.FLX_CAP_CFG, 0x2870400, [[(4, 0x200000)], [(16, 0x10)]], 0, some (0x28705FC, 1), .any,
    [⟨FLX_CAP_CFG_en, .rw, 0⟩, ⟨FLX_CAP_CFG_full, .ro, 0⟩, ⟨FLX_CAP_CFG_ovr, .w1c, 0⟩, ⟨FLX_CAP_CFG_cap_axis, .rw, 0⟩]⟩]

/-- Registers of the FLX block, table rows 13 to 20. -/
def regsFLX1 : List RegClass := [
  ⟨.FLX_CAP_POS, 0x2870404, [[(4, 0x200000)], [(16, 0x10)]], 0, some (0x28705FC, 1), .any,
    [⟨FLX_CAP_POS_pos, .ro, 0⟩]⟩,
  ⟨.FLX_CAP_T_LO, 0x2870408, [[(4, 0x200000)], [(16, 0x10)]], 0, some (0x28705FC, 1), .any,
    [⟨FLX_CAP_T_LO_t_lo, .ro, 0⟩]⟩,
  ⟨.FLX_CAP_T_HI_SNAP, 0x287040C, [[(4, 0x200000)], [(16, 0x10)]], 0, some (0x28705FC, 1), .any,
    [⟨FLX_CAP_T_HI_SNAP_t_hi_snap, .ro, 0⟩]⟩,
  ⟨.FLX_GRP_CFG, 0x2870500, [[(4, 0x200000), (8, 0x10)]], 0, some (0x28705FC, 1), .bench,
    [⟨FLX_GRP_CFG_en, .rwp, 0⟩, ⟨FLX_GRP_CFG_span, .ro, 0⟩, ⟨FLX_GRP_CFG_mem_en, .rwp, 0⟩]⟩,
  ⟨.FLX_GRP_MEM_LO, 0x2870504, [[(4, 0x200000), (8, 0x10)]], 0, some (0x28705FC, 1), .bench,
    [⟨FLX_GRP_MEM_LO_mem03, .rwp, 0⟩]⟩,
  ⟨.FLX_GRP_MEM_HI, 0x2870508, [[(4, 0x200000), (8, 0x10)]], 0, some (0x28705FC, 1), .bench,
    [⟨FLX_GRP_MEM_HI_mem47, .rwp, 0⟩]⟩,
  ⟨.FLX_GRP_STAT, 0x287050C, [[(4, 0x200000), (8, 0x10)]], 0, some (0x28705FC, 1), .any,
    [⟨FLX_GRP_STAT_gst, .ro, 0⟩, ⟨FLX_GRP_STAT_dur_mismatch, .w1c, 0⟩, ⟨FLX_GRP_STAT_steps, .rc, 0⟩]⟩,
  ⟨.FLX_UNLOCK, 0x28705FC, [[(4, 0x200000)]], 0, some (0x28705FC, 1), .any,
    [⟨FLX_UNLOCK_lock_violation, .w1c, 0⟩, ⟨FLX_UNLOCK_key, .wo, 0⟩]⟩]

/-- Registers of the FLX block. -/
def regsFLX : List RegClass := regsFLX0 ++ regsFLX1

/-- Registers of the TMR block, table rows 1 to 12. -/
def regsTMR0 : List RegClass := [
  ⟨.TMR_CFG, 0x2850000, [[(4, 0x200000), (32, 0x40)]], 0, none, .any,
    [⟨TMR_CFG_en, .rw, 0⟩, ⟨TMR_CFG_run, .rw, 0⟩, ⟨TMR_CFG_link, .rw, 0⟩, ⟨TMR_CFG_cmp64, .rw, 0⟩, ⟨TMR_CFG_opm, .rw, 0⟩, ⟨TMR_CFG_irole, .rw, 0⟩, ⟨TMR_CFG_isel, .rw, 0⟩, ⟨TMR_CFG_imst, .rw, 0⟩, ⟨TMR_CFG_ievt, .rw, 0⟩]⟩,
  ⟨.TMR_CNT, 0x2850004, [[(4, 0x200000), (32, 0x40)]], 0, none, .any,
    [⟨TMR_CNT_cnt, .rw, 0⟩]⟩,
  ⟨.TMR_HI_SNAP, 0x2850008, [[(4, 0x200000), (32, 0x40)]], 0, none, .any,
    [⟨TMR_HI_SNAP_hi_snap, .ro, 0⟩]⟩,
  ⟨.TMR_TOP, 0x285000C, [[(4, 0x200000), (32, 0x40)]], 0, none, .any,
    [⟨TMR_TOP_top, .rw, 0xFFFFFFFF⟩]⟩,
  ⟨.TMR_CMPA, 0x2850010, [[(4, 0x200000), (32, 0x40)]], 0, none, .any,
    [⟨TMR_CMPA_cmpa, .rw, 0⟩]⟩,
  ⟨.TMR_CMPB, 0x2850014, [[(4, 0x200000), (32, 0x40)]], 0, none, .any,
    [⟨TMR_CMPB_cmpb, .rw, 0⟩]⟩,
  ⟨.TMR_CAP, 0x2850018, [[(4, 0x200000), (32, 0x40)]], 0, none, .any,
    [⟨TMR_CAP_cap, .ro, 0⟩]⟩,
  ⟨.TMR_PSC, 0x2850024, [[(4, 0x200000), (32, 0x40)]], 0, none, .any,
    [⟨TMR_PSC_psc, .rw, 0⟩]⟩,
  ⟨.TMR_OUT, 0x285001C, [[(4, 0x200000), (32, 0x40)]], 0, none, .any,
    [⟨TMR_OUT_act_a, .rw, 0⟩, ⟨TMR_OUT_act_b, .rw, 0⟩, ⟨TMR_OUT_act_o, .rw, 0⟩, ⟨TMR_OUT_fsrc, .rw, 0⟩, ⟨TMR_OUT_ie_a, .rw, 0⟩, ⟨TMR_OUT_ie_b, .rw, 0⟩, ⟨TMR_OUT_ie_o, .rw, 0⟩, ⟨TMR_OUT_out_set, .wo, 0⟩, ⟨TMR_OUT_out_clr, .wo, 0⟩]⟩,
  ⟨.TMR_STAT, 0x2850020, [[(4, 0x200000), (32, 0x40)]], 0, none, .any,
    [⟨TMR_STAT_match_a, .w1c, 0⟩, ⟨TMR_STAT_match_b, .w1c, 0⟩, ⟨TMR_STAT_ovf, .w1c, 0⟩, ⟨TMR_STAT_late_a, .w1c, 0⟩, ⟨TMR_STAT_late_b, .w1c, 0⟩, ⟨TMR_STAT_cap_full, .ro, 0⟩, ⟨TMR_STAT_cap_ovr, .w1c, 0⟩, ⟨TMR_STAT_out, .ro, 0⟩, ⟨TMR_STAT_gate_open, .ro, 1⟩]⟩,
  ⟨.TMR_SNAP_CTL, 0x2850800, [[(4, 0x200000)]], 0, none, .any,
    [⟨TMR_SNAP_CTL_done, .ro, 1⟩, ⟨TMR_SNAP_CTL_snap, .wo, 0⟩]⟩,
  ⟨.TMR_SNAP_T_LO, 0x2850804, [[(4, 0x200000)]], 0, none, .any,
    [⟨TMR_SNAP_T_LO_t_lo, .ro, 0⟩]⟩]

/-- Registers of the TMR block, table rows 13 to 18. -/
def regsTMR1 : List RegClass := [
  ⟨.TMR_SNAP_T_HI_SNAP, 0x2850808, [[(4, 0x200000)]], 0, none, .any,
    [⟨TMR_SNAP_T_HI_SNAP_t_hi_snap, .ro, 0⟩]⟩,
  ⟨.TMR_GSTAT, 0x285080C, [[(4, 0x200000)]], 0, none, .any,
    [⟨TMR_GSTAT_cfg_err, .w1c, 0⟩]⟩,
  ⟨.TMR_SNAP, 0x2850880, [[(4, 0x200000), (32, 4)]], 0, none, .any,
    [⟨TMR_SNAP_snap_cnt, .ro, 0⟩]⟩,
  ⟨.TMR_GPIO_CFG, 0x2850900, [[(4, 0x200000)], [(16, 4)]], 0, none, .any,
    [⟨TMR_GPIO_CFG_func, .rw, 0⟩, ⟨TMR_GPIO_CFG_oe, .rw, 0⟩, ⟨TMR_GPIO_CFG_idx, .rw, 0⟩]⟩,
  ⟨.TMR_GPIO_OUT, 0x2850940, [[(4, 0x200000)]], 0, none, .any,
    [⟨TMR_GPIO_OUT_out, .rw, 0⟩]⟩,
  ⟨.TMR_GPIO_IN, 0x2850944, [[(4, 0x200000)]], 0, none, .any,
    [⟨TMR_GPIO_IN_in, .ro, 0⟩]⟩]

/-- Registers of the TMR block. -/
def regsTMR : List RegClass := regsTMR0 ++ regsTMR1

/-- Registers of the CHS block, table rows 1 to 12. -/
def regsCHS0 : List RegClass := [
  ⟨.CHS_CTL, 0x2860000, [[(4, 0x200000), (8, 0x80)]], 0, some (0x28608FC, 1), .any,
    [⟨CHS_CTL_en, .rw, 0⟩, ⟨CHS_CTL_hold, .rw, 0⟩, ⟨CHS_CTL_live_patch, .rw, 0⟩, ⟨CHS_CTL_ie, .rw, 0⟩, ⟨CHS_CTL_st, .ro, 0⟩, ⟨CHS_CTL_pc, .ro, 0⟩]⟩,
  ⟨.CHS_CFG, 0x2860004, [[(4, 0x200000), (8, 0x80)]], 0, some (0x28608FC, 1), .any,
    [⟨CHS_CFG_grp, .rw, 0⟩, ⟨CHS_CFG_grp_en, .rw, 0⟩, ⟨CHS_CFG_start_pc, .rw, 0⟩, ⟨CHS_CFG_step_len, .rw, 0xC8⟩]⟩,
  ⟨.CHS_LOOP, 0x2860008, [[(4, 0x200000), (8, 0x80)]], 0, some (0x28608FC, 1), .any,
    [⟨CHS_LOOP_loop_en, .rw, 0⟩, ⟨CHS_LOOP_armed, .ro, 0⟩, ⟨CHS_LOOP_passes, .rw, 0⟩, ⟨CHS_LOOP_last, .rw, 0x3F⟩, ⟨CHS_LOOP_first, .rw, 0⟩]⟩,
  ⟨.CHS_PIN_CFG, 0x286000C, [[(4, 0x200000), (8, 0x80)]], 0, some (0x28608FC, 1), .any,
    [⟨CHS_PIN_CFG_dir, .rwp, 0⟩, ⟨CHS_PIN_CFG_idle, .rwp, 0⟩, ⟨CHS_PIN_CFG_side_en, .rwp, 0⟩, ⟨CHS_PIN_CFG_clk_en, .rwp, 0⟩, ⟨CHS_PIN_CFG_clk_pin, .rwp, 0⟩, ⟨CHS_PIN_CFG_in_pin, .rwp, 0⟩, ⟨CHS_PIN_CFG_out_pin, .rwp, 0⟩]⟩,
  ⟨.CHS_SMP, 0x2860010, [[(4, 0x200000), (8, 0x80)]], 0, some (0x28608FC, 1), .any,
    [⟨CHS_SMP_samp_pt, .rw, 0⟩, ⟨CHS_SMP_samp_dly, .rw, 0⟩]⟩,
  ⟨.CHS_CRC_CFG, 0x2860014, [[(4, 0x200000), (8, 0x80)]], 0, some (0x28608FC, 1), .any,
    [⟨CHS_CRC_CFG_width, .rw, 0x10⟩, ⟨CHS_CRC_CFG_poly, .rw, 0⟩]⟩,
  ⟨.CHS_CRC_VAL, 0x2860018, [[(4, 0x200000), (8, 0x80)]], 0, some (0x28608FC, 1), .any,
    [⟨CHS_CRC_VAL_crc_init, .rw, 0⟩, ⟨CHS_CRC_VAL_crc_res, .rw, 0⟩]⟩,
  ⟨.CHS_STAT, 0x286001C, [[(4, 0x200000), (8, 0x80)]], 0, some (0x28608FC, 1), .any,
    [⟨CHS_STAT_m, .ro, 0⟩, ⟨CHS_STAT_c, .ro, 0⟩, ⟨CHS_STAT_t, .ro, 0⟩, ⟨CHS_STAT_z, .ro, 0⟩, ⟨CHS_STAT_irq, .w1c, 0⟩, ⟨CHS_STAT_patch_refused, .w1c, 0⟩, ⟨CHS_STAT_aborted, .w1c, 0⟩, ⟨CHS_STAT_cfg_refused, .w1c, 0⟩, ⟨CHS_STAT_inq_ovr, .w1c, 0⟩, ⟨CHS_STAT_outq_udr, .w1c, 0⟩, ⟨CHS_STAT_outq_ovr, .w1c, 0⟩, ⟨CHS_STAT_mem_err, .w1c, 0⟩, ⟨CHS_STAT_bitcnt, .ro, 0⟩]⟩,
  ⟨.CHS_FRM_LO, 0x2860020, [[(4, 0x200000), (8, 0x80)]], 0, some (0x28608FC, 1), .any,
    [⟨CHS_FRM_LO_frm_lo, .ro, 0⟩]⟩,
  ⟨.CHS_FRM_HI, 0x2860024, [[(4, 0x200000), (8, 0x80)]], 0, some (0x28608FC, 1), .any,
    [⟨CHS_FRM_HI_frm_hi, .ro, 0⟩]⟩,
  ⟨.CHS_LOOP_CNT, 0x2860028, [[(4, 0x200000), (8, 0x80)]], 0, some (0x28608FC, 1), .any,
    [⟨CHS_LOOP_CNT_pass_cnt, .ro, 0⟩]⟩,
  ⟨.CHS_LC, 0x286002C, [[(4, 0x200000), (8, 0x80)]], 0, some (0x28608FC, 1), .any,
    [⟨CHS_LC_lc, .ro, 0⟩]⟩]

/-- Registers of the CHS block, table rows 13 to 24. -/
def regsCHS1 : List RegClass := [
  ⟨.CHS_POS_WORD, 0x2860030, [[(4, 0x200000), (8, 0x80)]], 0, some (0x28608FC, 1), .any,
    [⟨CHS_POS_WORD_word, .ro, 0⟩]⟩,
  ⟨.CHS_POS_T_LO, 0x2860034, [[(4, 0x200000), (8, 0x80)]], 0, some (0x28608FC, 1), .any,
    [⟨CHS_POS_T_LO_t_lo, .ro, 0⟩]⟩,
  ⟨.CHS_POS_T_HI_SNAP, 0x2860038, [[(4, 0x200000), (8, 0x80)]], 0, some (0x28608FC, 1), .any,
    [⟨CHS_POS_T_HI_SNAP_t_hi_snap, .ro, 0⟩]⟩,
  ⟨.CHS_POS_STAT, 0x286003C, [[(4, 0x200000), (8, 0x80)]], 0, some (0x28608FC, 1), .any,
    [⟨CHS_POS_STAT_valid, .ro, 0⟩, ⟨CHS_POS_STAT_seq, .ro, 0⟩, ⟨CHS_POS_STAT_bad, .rc, 0⟩]⟩,
  ⟨.CHS_INQ, 0x2860040, [[(4, 0x200000), (8, 0x80)]], 0, some (0x28608FC, 1), .any,
    [⟨CHS_INQ_inq, .wo, 0⟩]⟩,
  ⟨.CHS_OUTQ, 0x2860044, [[(4, 0x200000), (8, 0x80)]], 0, some (0x28608FC, 1), .any,
    [⟨CHS_OUTQ_outq, .ro, 0⟩]⟩,
  ⟨.CHS_Q_STAT, 0x2860048, [[(4, 0x200000), (8, 0x80)]], 0, some (0x28608FC, 1), .any,
    [⟨CHS_Q_STAT_inq_lvl, .ro, 0⟩, ⟨CHS_Q_STAT_outq_lvl, .ro, 0⟩]⟩,
  ⟨.CHS_MEM_BASE, 0x286004C, [[(4, 0x200000), (8, 0x80)]], 0, some (0x28608FC, 1), .any,
    [⟨CHS_MEM_BASE_mem_base, .rw, 0⟩]⟩,
  ⟨.CHS_MEM_LEN, 0x2860050, [[(4, 0x200000), (8, 0x80)]], 0, some (0x28608FC, 1), .any,
    [⟨CHS_MEM_LEN_ptr, .ro, 0⟩, ⟨CHS_MEM_LEN_len, .rw, 1⟩]⟩,
  ⟨.CHS_PAC_CFG, 0x2860058, [[(4, 0x200000), (8, 0x80)], [(2, 8)]], 0, some (0x28608FC, 1), .any,
    [⟨CHS_PAC_CFG_en, .rw, 0⟩, ⟨CHS_PAC_CFG_action, .rw, 0⟩, ⟨CHS_PAC_CFG_addr, .rw, 0⟩]⟩,
  ⟨.CHS_PAC_CNT, 0x286005C, [[(4, 0x200000), (8, 0x80)], [(2, 8)]], 0, some (0x28608FC, 1), .any,
    [⟨CHS_PAC_CNT_hits, .rc, 0⟩]⟩,
  ⟨.CHS_GSTART, 0x2860800, [[(4, 0x200000)]], 0, some (0x28608FC, 1), .any,
    [⟨CHS_GSTART_start, .wo, 0⟩]⟩]

/-- Registers of the CHS block, table rows 25 to 27. -/
def regsCHS2 : List RegClass := [
  ⟨.CHS_GSTAT, 0x2860804, [[(4, 0x200000)]], 0, some (0x28608FC, 1), .any,
    [⟨CHS_GSTAT_running, .ro, 0⟩]⟩,
  ⟨.CHS_UNLOCK, 0x28608FC, [[(4, 0x200000)]], 0, some (0x28608FC, 1), .any,
    [⟨CHS_UNLOCK_lock_violation, .w1c, 0⟩, ⟨CHS_UNLOCK_key, .wo, 0⟩]⟩,
  ⟨.CHS_PROG, 0x2861000, [[(4, 0x200000), (8, 0x100)], [(64, 4)]], 0, some (0x28608FC, 1), .any,
    [⟨CHS_PROG_word, .rw, 0⟩]⟩]

/-- Registers of the CHS block. -/
def regsCHS : List RegClass := regsCHS0 ++ regsCHS1 ++ regsCHS2

/-- Registers of the CRU block, table rows 1 to 12. -/
def regsCRU0 : List RegClass := [
  ⟨.CRU_REF_CTL, 0x2500000, [], 0, none, .any,
    [⟨CRU_REF_CTL_ref_en, .rw, 0⟩, ⟨CRU_REF_CTL_ref_ok, .ro, 0⟩, ⟨CRU_REF_CTL_mains, .rw, 0⟩, ⟨CRU_REF_CTL_exc_ilim, .w1c, 0⟩, ⟨CRU_REF_CTL_exc_ok, .ro, 0⟩, ⟨CRU_REF_CTL_exc_hv, .rw, 0⟩, ⟨CRU_REF_CTL_exc_en, .rw, 0⟩]⟩,
  ⟨.CRU_TRG_CFG, 0x2500010, [[(4, 8)]], 0, none, .any,
    [⟨CRU_TRG_CFG_en, .rw, 0⟩, ⟨CRU_TRG_CFG_late, .w1c, 0⟩, ⟨CRU_TRG_CFG_trg_ovr, .w1c, 0⟩, ⟨CRU_TRG_CFG_counting, .ro, 0⟩, ⟨CRU_TRG_CFG_cl, .rw, 0⟩, ⟨CRU_TRG_CFG_conv, .rw, 0⟩]⟩,
  ⟨.CRU_TRG_DLY, 0x2500014, [[(4, 8)]], 0, none, .any,
    [⟨CRU_TRG_DLY_dly, .rw, 0⟩]⟩,
  ⟨.CRU_FSRC, 0x2500030, [[(4, 4)]], 0, none, .any,
    [⟨CRU_FSRC_en, .rw, 0⟩, ⟨CRU_FSRC_evt, .rw, 0⟩, ⟨CRU_FSRC_conv, .rw, 0⟩]⟩,
  ⟨.CRU_CFG, 0x2500100, [[(16, 0x20)]], 0, none, .any,
    [⟨CRU_CFG_en, .rw, 0⟩, ⟨CRU_CFG_go, .wo, 0⟩, ⟨CRU_CFG_ratio, .rw, 0⟩, ⟨CRU_CFG_exc, .rw, 0⟩, ⟨CRU_CFG_gain, .rw, 0⟩, ⟨CRU_CFG_diff, .rw, 0⟩, ⟨CRU_CFG_frac, .rw, 0⟩, ⟨CRU_CFG_ch, .rw, 0⟩]⟩,
  ⟨.CRU_RES, 0x2500104, [[(16, 0x20)]], 0, none, .any,
    [⟨CRU_RES_valid, .ro, 0⟩, ⟨CRU_RES_ref_unsettled, .ro, 0⟩, ⟨CRU_RES_aborted, .ro, 0⟩, ⟨CRU_RES_clip, .ro, 0⟩, ⟨CRU_RES_seq, .ro, 0⟩, ⟨CRU_RES_res, .ro, 0⟩]⟩,
  ⟨.CRU_T_LO, 0x2500108, [[(16, 0x20)]], 0, none, .any,
    [⟨CRU_T_LO_t_lo, .ro, 0⟩]⟩,
  ⟨.CRU_T_HI_SNAP, 0x250010C, [[(16, 0x20)]], 0, none, .any,
    [⟨CRU_T_HI_SNAP_t_hi_snap, .ro, 0⟩]⟩,
  ⟨.CRU_STAT, 0x2500110, [[(16, 0x20)]], 0, none, .any,
    [⟨CRU_STAT_busy, .ro, 0⟩, ⟨CRU_STAT_overrun, .w1c, 0⟩, ⟨CRU_STAT_no_ref, .w1c, 0⟩, ⟨CRU_STAT_cfg_err, .w1c, 0⟩, ⟨CRU_STAT_lat, .ro, 0⟩, ⟨CRU_STAT_conv_cnt, .rc, 0⟩]⟩,
  ⟨.CRU_PAIR_CFG, 0x2500300, [[(8, 0x10)]], 0, none, .any,
    [⟨CRU_PAIR_CFG_xen, .rw, 0⟩, ⟨CRU_PAIR_CFG_xdiv, .rw, 1⟩]⟩,
  ⟨.CRU_XTH, 0x2500304, [[(8, 0x10)]], 0, none, .any,
    [⟨CRU_XTH_xth, .rw, 0x100⟩]⟩,
  ⟨.CRU_XRES, 0x2500308, [[(8, 0x10)]], 0, none, .any,
    [⟨CRU_XRES_valid, .ro, 0⟩, ⟨CRU_XRES_res, .ro, 0⟩]⟩]

/-- Registers of the CRU block, table rows 13 to 13. -/
def regsCRU1 : List RegClass := [
  ⟨.CRU_PAIR_STAT, 0x250030C, [[(8, 0x10)]], 0, none, .any,
    [⟨CRU_PAIR_STAT_plausibility, .w1c, 0⟩, ⟨CRU_PAIR_STAT_xskip, .rc, 0⟩, ⟨CRU_PAIR_STAT_xfail, .rc, 0⟩]⟩]

/-- Registers of the CRU block. -/
def regsCRU : List RegClass := regsCRU0 ++ regsCRU1

/-- Registers of the ANV block, table rows 1 to 12. -/
def regsANV0 : List RegClass := [
  ⟨.ANV_CTL, 0x2890000, [[(4, 0x200000), (4, 0x400)]], 0, some (0x28910FC, 1), .selfRing0,
    [⟨ANV_CTL_lockout, .ro, 0⟩, ⟨ANV_CTL_halted, .ro, 0⟩, ⟨ANV_CTL_df, .ro, 0⟩, ⟨ANV_CTL_lock_reason, .ro, 0⟩, ⟨ANV_CTL_last_exc, .ro, 0⟩]⟩,
  ⟨.ANV_CTL, 0x2000800, [[(2, 0x400)]], 16, some (0x20000FC, 0), .selfRing0,
    [⟨ANV_CTL_lockout, .ro, 0⟩, ⟨ANV_CTL_halted, .ro, 0⟩, ⟨ANV_CTL_df, .ro, 0⟩, ⟨ANV_CTL_lock_reason, .ro, 0⟩, ⟨ANV_CTL_last_exc, .ro, 0⟩]⟩,
  ⟨.ANV_VBASE, 0x2890004, [[(4, 0x200000), (4, 0x400)]], 0, some (0x28910FC, 1), .selfRing0,
    [⟨ANV_VBASE_vbase, .rwp, 0⟩]⟩,
  ⟨.ANV_VBASE, 0x2000804, [[(2, 0x400)]], 16, some (0x20000FC, 0), .selfRing0,
    [⟨ANV_VBASE_vbase, .rwp, 0⟩]⟩,
  ⟨.ANV_GATE_BASE, 0x2890008, [[(4, 0x200000), (4, 0x400)]], 0, some (0x28910FC, 1), .selfRing0,
    [⟨ANV_GATE_BASE_gate_base, .rwp, 0⟩]⟩,
  ⟨.ANV_GATE_BASE, 0x2000808, [[(2, 0x400)]], 16, some (0x20000FC, 0), .selfRing0,
    [⟨ANV_GATE_BASE_gate_base, .rwp, 0⟩]⟩,
  ⟨.ANV_GATE_CNT, 0x289000C, [[(4, 0x200000), (4, 0x400)]], 0, some (0x28910FC, 1), .selfRing0,
    [⟨ANV_GATE_CNT_gate_cnt, .rwp, 0⟩]⟩,
  ⟨.ANV_GATE_CNT, 0x200080C, [[(2, 0x400)]], 16, some (0x20000FC, 0), .selfRing0,
    [⟨ANV_GATE_CNT_gate_cnt, .rwp, 0⟩]⟩,
  ⟨.ANV_SUPV, 0x2890010, [[(4, 0x200000), (4, 0x400)]], 0, some (0x28910FC, 1), .selfRing0,
    [⟨ANV_SUPV_axes, .rwp, 0⟩]⟩,
  ⟨.ANV_SUPV, 0x2000810, [[(2, 0x400)]], 16, some (0x20000FC, 0), .selfRing0,
    [⟨ANV_SUPV_axes, .rwp, 0⟩]⟩,
  ⟨.ANV_WDT_CFG, 0x2890014, [[(4, 0x200000), (4, 0x400)]], 0, some (0x28910FC, 1), .selfRing0,
    [⟨ANV_WDT_CFG_en, .rwp, 0⟩, ⟨ANV_WDT_CFG_debug_resumed, .w1c, 0⟩, ⟨ANV_WDT_CFG_warned, .w1c, 0⟩, ⟨ANV_WDT_CFG_period, .rwp, 0x4000⟩]⟩,
  ⟨.ANV_WDT_CFG, 0x2000814, [[(2, 0x400)]], 16, some (0x20000FC, 0), .selfRing0,
    [⟨ANV_WDT_CFG_en, .rwp, 0⟩, ⟨ANV_WDT_CFG_debug_resumed, .w1c, 0⟩, ⟨ANV_WDT_CFG_warned, .w1c, 0⟩, ⟨ANV_WDT_CFG_period, .rwp, 0x4000⟩]⟩]

/-- Registers of the ANV block, table rows 13 to 24. -/
def regsANV1 : List RegClass := [
  ⟨.ANV_WDT_KICK, 0x2890018, [[(4, 0x200000), (4, 0x400)]], 0, some (0x28910FC, 1), .selfRing0,
    [⟨ANV_WDT_KICK_key, .wo, 0⟩]⟩,
  ⟨.ANV_WDT_KICK, 0x2000818, [[(2, 0x400)]], 16, some (0x20000FC, 0), .selfRing0,
    [⟨ANV_WDT_KICK_key, .wo, 0⟩]⟩,
  ⟨.ANV_WDT_LEFT, 0x289001C, [[(4, 0x200000), (4, 0x400)]], 0, some (0x28910FC, 1), .selfRing0,
    [⟨ANV_WDT_LEFT_left, .ro, 0⟩]⟩,
  ⟨.ANV_WDT_LEFT, 0x200081C, [[(2, 0x400)]], 16, some (0x20000FC, 0), .selfRing0,
    [⟨ANV_WDT_LEFT_left, .ro, 0⟩]⟩,
  ⟨.ANV_INT_PEND_LO, 0x2890020, [[(4, 0x200000), (4, 0x400)]], 0, some (0x28910FC, 1), .selfRing0,
    [⟨ANV_INT_PEND_LO_pend, .ro, 0⟩]⟩,
  ⟨.ANV_INT_PEND_LO, 0x2000820, [[(2, 0x400)]], 16, some (0x20000FC, 0), .selfRing0,
    [⟨ANV_INT_PEND_LO_pend, .ro, 0⟩]⟩,
  ⟨.ANV_INT_PEND_HI, 0x2890024, [[(4, 0x200000), (4, 0x400)]], 0, some (0x28910FC, 1), .selfRing0,
    [⟨ANV_INT_PEND_HI_pend, .ro, 0⟩]⟩,
  ⟨.ANV_INT_PEND_HI, 0x2000824, [[(2, 0x400)]], 16, some (0x20000FC, 0), .selfRing0,
    [⟨ANV_INT_PEND_HI_pend, .ro, 0⟩]⟩,
  ⟨.ANV_EXC_CNT, 0x2890028, [[(4, 0x200000), (4, 0x400)]], 0, some (0x28910FC, 1), .selfRing0,
    [⟨ANV_EXC_CNT_ints, .rc, 0⟩, ⟨ANV_EXC_CNT_excs, .rc, 0⟩]⟩,
  ⟨.ANV_EXC_CNT, 0x2000828, [[(2, 0x400)]], 16, some (0x20000FC, 0), .selfRing0,
    [⟨ANV_EXC_CNT_ints, .rc, 0⟩, ⟨ANV_EXC_CNT_excs, .rc, 0⟩]⟩,
  ⟨.ANV_RGN_BASE, 0x2890040, [[(4, 0x200000), (4, 0x400)], [(16, 0x10)]], 0, some (0x28910FC, 1), .selfRing0,
    [⟨ANV_RGN_BASE_base, .rwp, 0⟩, ⟨ANV_RGN_BASE_en, .rwp, 0⟩]⟩,
  ⟨.ANV_RGN_BASE, 0x2000840, [[(2, 0x400)], [(16, 0x10)]], 16, some (0x20000FC, 0), .selfRing0,
    [⟨ANV_RGN_BASE_base, .rwp, 0⟩, ⟨ANV_RGN_BASE_en, .rwp, 0⟩]⟩]

/-- Registers of the ANV block, table rows 25 to 36. -/
def regsANV2 : List RegClass := [
  ⟨.ANV_RGN_LIMIT, 0x2890044, [[(4, 0x200000), (4, 0x400)], [(16, 0x10)]], 0, some (0x28910FC, 1), .selfRing0,
    [⟨ANV_RGN_LIMIT_limit, .rwp, 0⟩, ⟨ANV_RGN_LIMIT_ones, .ro, 0x1F⟩]⟩,
  ⟨.ANV_RGN_LIMIT, 0x2000844, [[(2, 0x400)], [(16, 0x10)]], 16, some (0x20000FC, 0), .selfRing0,
    [⟨ANV_RGN_LIMIT_limit, .rwp, 0⟩, ⟨ANV_RGN_LIMIT_ones, .ro, 0x1F⟩]⟩,
  ⟨.ANV_RGN_RIGHTS, 0x2890048, [[(4, 0x200000), (4, 0x400)], [(16, 0x10)]], 0, some (0x28910FC, 1), .selfRing0,
    [⟨ANV_RGN_RIGHTS_rights, .rwp, 0⟩]⟩,
  ⟨.ANV_RGN_RIGHTS, 0x2000848, [[(2, 0x400)], [(16, 0x10)]], 16, some (0x20000FC, 0), .selfRing0,
    [⟨ANV_RGN_RIGHTS_rights, .rwp, 0⟩]⟩,
  ⟨.ANV_INT_CFG, 0x2890200, [[(4, 0x200000), (4, 0x400)], [(64, 4)]], 0, some (0x28910FC, 1), .selfRing0,
    [⟨ANV_INT_CFG_level, .rw, 0⟩, ⟨ANV_INT_CFG_src, .rw, 0⟩]⟩,
  ⟨.ANV_INT_CFG, 0x2000A00, [[(2, 0x400)], [(64, 4)]], 16, some (0x20000FC, 0), .selfRing0,
    [⟨ANV_INT_CFG_level, .rw, 0⟩, ⟨ANV_INT_CFG_src, .rw, 0⟩]⟩,
  ⟨.ANV_EMB, 0x2890300, [[(4, 0x200000), (4, 0x400)], [(64, 4)]], 0, some (0x28910FC, 1), .selfRing0,
    [⟨ANV_EMB_emb, .ro, 0⟩]⟩,
  ⟨.ANV_EMB, 0x2000B00, [[(2, 0x400)], [(64, 4)]], 16, some (0x20000FC, 0), .selfRing0,
    [⟨ANV_EMB_emb, .ro, 0⟩]⟩,
  ⟨.ANV_CWDT_CFG, 0x2891000, [[(4, 0x200000)]], 0, some (0x28910FC, 1), .selfRing0,
    [⟨ANV_CWDT_CFG_en, .rwp, 0⟩, ⟨ANV_CWDT_CFG_debug_resumed, .w1c, 0⟩, ⟨ANV_CWDT_CFG_expired, .w1c, 0⟩, ⟨ANV_CWDT_CFG_kick_mask, .rwp, 0xF⟩, ⟨ANV_CWDT_CFG_period, .rwp, 0x8000⟩]⟩,
  ⟨.ANV_CWDT_KICK, 0x2891004, [[(4, 0x200000)]], 0, some (0x28910FC, 1), .any,
    [⟨ANV_CWDT_KICK_key, .wo, 0⟩]⟩,
  ⟨.ANV_CWDT_STAT, 0x2891008, [[(4, 0x200000)]], 0, some (0x28910FC, 1), .any,
    [⟨ANV_CWDT_STAT_kicked, .ro, 0⟩]⟩,
  ⟨.ANV_UNLOCK, 0x28910FC, [[(4, 0x200000)]], 0, some (0x28910FC, 1), .any,
    [⟨ANV_UNLOCK_lock_violation, .w1c, 0⟩, ⟨ANV_UNLOCK_key, .wo, 0⟩]⟩]

/-- Registers of the ANV block. -/
def regsANV : List RegClass := regsANV0 ++ regsANV1 ++ regsANV2

/-- Registers of the ING block, table rows 1 to 12. -/
def regsING0 : List RegClass := [
  ⟨.ING_BANK_OWN, 0x2880000, [[(4, 0x200000), (16, 0x10)]], 0, some (0x28801FC, 1), .any,
    [⟨ING_BANK_OWN_owner, .rw, 0⟩]⟩,
  ⟨.ING_BANK_OWN, 0x2001000, [[(8, 0x10)]], 64, some (0x20000FC, 0), .any,
    [⟨ING_BANK_OWN_owner, .rw, 0⟩]⟩,
  ⟨.ING_BANK_SHARE, 0x2880004, [[(4, 0x200000), (16, 0x10)]], 0, some (0x28801FC, 1), .any,
    [⟨ING_BANK_SHARE_share_rd, .rwp, 0⟩, ⟨ING_BANK_SHARE_share_wr, .rwp, 0⟩]⟩,
  ⟨.ING_BANK_SHARE, 0x2001004, [[(8, 0x10)]], 64, some (0x20000FC, 0), .any,
    [⟨ING_BANK_SHARE_share_rd, .rwp, 0⟩, ⟨ING_BANK_SHARE_share_wr, .rwp, 0⟩]⟩,
  ⟨.ING_BANK_STAT, 0x2880008, [[(4, 0x200000), (16, 0x10)]], 0, some (0x28801FC, 1), .any,
    [⟨ING_BANK_STAT_march_busy, .ro, 0⟩, ⟨ING_BANK_STAT_own_pend, .ro, 0⟩, ⟨ING_BANK_STAT_own_refused, .w1c, 0⟩, ⟨ING_BANK_STAT_share_denied, .w1c, 0⟩, ⟨ING_BANK_STAT_uncorr, .w1c, 0⟩, ⟨ING_BANK_STAT_uncorr_cnt, .rc, 0⟩, ⟨ING_BANK_STAT_corr_cnt, .rc, 0⟩]⟩,
  ⟨.ING_BANK_STAT, 0x2001008, [[(8, 0x10)]], 64, some (0x20000FC, 0), .any,
    [⟨ING_BANK_STAT_march_busy, .ro, 0⟩, ⟨ING_BANK_STAT_own_pend, .ro, 0⟩, ⟨ING_BANK_STAT_own_refused, .w1c, 0⟩, ⟨ING_BANK_STAT_share_denied, .w1c, 0⟩, ⟨ING_BANK_STAT_uncorr, .w1c, 0⟩, ⟨ING_BANK_STAT_uncorr_cnt, .rc, 0⟩, ⟨ING_BANK_STAT_corr_cnt, .rc, 0⟩]⟩,
  ⟨.ING_ERR_ADDR, 0x288000C, [[(4, 0x200000), (16, 0x10)]], 0, some (0x28801FC, 1), .any,
    [⟨ING_ERR_ADDR_kind, .ro, 0⟩, ⟨ING_ERR_ADDR_offset, .ro, 0⟩]⟩,
  ⟨.ING_ERR_ADDR, 0x200100C, [[(8, 0x10)]], 64, some (0x20000FC, 0), .any,
    [⟨ING_ERR_ADDR_kind, .ro, 0⟩, ⟨ING_ERR_ADDR_offset, .ro, 0⟩]⟩,
  ⟨.ING_MARCH, 0x2880100, [[(4, 0x200000), (16, 4)]], 0, some (0x28801FC, 1), .any,
    [⟨ING_MARCH_done, .ro, 0⟩, ⟨ING_MARCH_fail, .ro, 0⟩, ⟨ING_MARCH_first, .ro, 0⟩]⟩,
  ⟨.ING_MARCH, 0x2001100, [[(8, 4)]], 64, some (0x20000FC, 0), .any,
    [⟨ING_MARCH_done, .ro, 0⟩, ⟨ING_MARCH_fail, .ro, 0⟩, ⟨ING_MARCH_first, .ro, 0⟩]⟩,
  ⟨.ING_SHARE_STALL, 0x2880140, [[(4, 0x200000)]], 0, some (0x28801FC, 1), .any,
    [⟨ING_SHARE_STALL_stalls, .rc, 0⟩]⟩,
  ⟨.ING_SHARE_STALL, 0x2001140, [[(1, 0x1000000)]], 4, some (0x20000FC, 0), .any,
    [⟨ING_SHARE_STALL_stalls, .rc, 0⟩]⟩]

/-- Registers of the ING block, table rows 13 to 13. -/
def regsING1 : List RegClass := [
  ⟨.ING_UNLOCK, 0x28801FC, [[(4, 0x200000)]], 0, some (0x28801FC, 1), .any,
    [⟨ING_UNLOCK_lock_violation, .w1c, 0⟩, ⟨ING_UNLOCK_key, .wo, 0⟩]⟩]

/-- Registers of the ING block. -/
def regsING : List RegClass := regsING0 ++ regsING1

/-- Registers of the MEM block, table rows 1 to 9. -/
def regsMEM : List RegClass := [
  ⟨.MEM_STAT, 0x2200000, [], 0, some (0x22000FC, 0), .any,
    [⟨MEM_STAT_init_done, .ro, 0⟩, ⟨MEM_STAT_uncorr, .rc, 0⟩, ⟨MEM_STAT_corr, .rc, 0⟩]⟩,
  ⟨.MEM_ERR_ADDR, 0x2200004, [], 0, some (0x22000FC, 0), .any,
    [⟨MEM_ERR_ADDR_addr, .ro, 0⟩, ⟨MEM_ERR_ADDR_kind, .ro, 0⟩]⟩,
  ⟨.MEM_SCRUB, 0x2200008, [], 0, some (0x22000FC, 0), .any,
    [⟨MEM_SCRUB_scrub_iv, .rw, 0x64⟩]⟩,
  ⟨.MEM_SCRUB_PASS, 0x220000C, [], 0, some (0x22000FC, 0), .any,
    [⟨MEM_SCRUB_PASS_passes, .ro, 0⟩]⟩,
  ⟨.MEM_BAR2_BASE, 0x2200010, [], 0, some (0x22000FC, 0), .bench,
    [⟨MEM_BAR2_BASE_base, .rwp, 8⟩]⟩,
  ⟨.MEM_HWIN_LO, 0x2200020, [[(4, 8)]], 0, some (0x22000FC, 0), .bench,
    [⟨MEM_HWIN_LO_first, .rwp, 0⟩, ⟨MEM_HWIN_LO_wr, .rwp, 0⟩, ⟨MEM_HWIN_LO_en, .rwp, 0⟩]⟩,
  ⟨.MEM_HWIN_HI, 0x2200024, [[(4, 8)]], 0, some (0x22000FC, 0), .bench,
    [⟨MEM_HWIN_HI_last, .rwp, 0⟩]⟩,
  ⟨.MEM_HOST_DENY, 0x2200040, [], 0, some (0x22000FC, 0), .any,
    [⟨MEM_HOST_DENY_deny_cnt, .rc, 0⟩]⟩,
  ⟨.MEM_UNLOCK, 0x22000FC, [], 0, some (0x22000FC, 0), .any,
    [⟨MEM_UNLOCK_lock_violation, .w1c, 0⟩, ⟨MEM_UNLOCK_key, .wo, 0⟩]⟩]

/-- Registers of the ASY block, table rows 1 to 12. -/
def regsASY0 : List RegClass := [
  ⟨.ASY_PAIR_CTL, 0x28A0000, [[(4, 0x200000), (2, 0x40)]], 0, some (0x28A03FC, 1), .bench,
    [⟨ASY_PAIR_CTL_paired, .ro, 0⟩, ⟨ASY_PAIR_CTL_req_split, .rwpW1s, 0⟩, ⟨ASY_PAIR_CTL_req_merge, .rwpW1s, 0⟩, ⟨ASY_PAIR_CTL_pair_at_release, .rwp, 0⟩, ⟨ASY_PAIR_CTL_lag_max, .rwp, 0x10⟩]⟩,
  ⟨.ASY_PAIR_CTL, 0x2001800, [[(1, 0x1000000)]], 8, some (0x20000FC, 0), .bench,
    [⟨ASY_PAIR_CTL_paired, .ro, 0⟩, ⟨ASY_PAIR_CTL_req_split, .rwpW1s, 0⟩, ⟨ASY_PAIR_CTL_req_merge, .rwpW1s, 0⟩, ⟨ASY_PAIR_CTL_pair_at_release, .rwp, 0⟩, ⟨ASY_PAIR_CTL_lag_max, .rwp, 0x10⟩]⟩,
  ⟨.ASY_PAIR_STAT, 0x28A0004, [[(4, 0x200000), (2, 0x40)]], 0, some (0x28A03FC, 1), .bench,
    [⟨ASY_PAIR_STAT_chk_mis, .w1c, 0⟩, ⟨ASY_PAIR_STAT_out_mis, .w1c, 0⟩, ⟨ASY_PAIR_STAT_lag, .w1c, 0⟩, ⟨ASY_PAIR_STAT_partner_lock, .w1c, 0⟩, ⟨ASY_PAIR_STAT_switched, .w1c, 0⟩, ⟨ASY_PAIR_STAT_blocked, .ro, 0⟩, ⟨ASY_PAIR_STAT_mis_kind, .ro, 0⟩, ⟨ASY_PAIR_STAT_out_drop, .rc, 0⟩]⟩,
  ⟨.ASY_PAIR_STAT, 0x2001804, [[(1, 0x1000000)]], 8, some (0x20000FC, 0), .bench,
    [⟨ASY_PAIR_STAT_chk_mis, .w1c, 0⟩, ⟨ASY_PAIR_STAT_out_mis, .w1c, 0⟩, ⟨ASY_PAIR_STAT_lag, .w1c, 0⟩, ⟨ASY_PAIR_STAT_partner_lock, .w1c, 0⟩, ⟨ASY_PAIR_STAT_switched, .w1c, 0⟩, ⟨ASY_PAIR_STAT_blocked, .ro, 0⟩, ⟨ASY_PAIR_STAT_mis_kind, .ro, 0⟩, ⟨ASY_PAIR_STAT_out_drop, .rc, 0⟩]⟩,
  ⟨.ASY_CHK_CNT, 0x28A0008, [[(4, 0x200000), (2, 0x40)]], 0, some (0x28A03FC, 1), .bench,
    [⟨ASY_CHK_CNT_chk_cnt, .ro, 0⟩]⟩,
  ⟨.ASY_CHK_CNT, 0x2001808, [[(1, 0x1000000)]], 8, some (0x20000FC, 0), .bench,
    [⟨ASY_CHK_CNT_chk_cnt, .ro, 0⟩]⟩,
  ⟨.ASY_OUT_CNT, 0x28A000C, [[(4, 0x200000), (2, 0x40)]], 0, some (0x28A03FC, 1), .bench,
    [⟨ASY_OUT_CNT_out_cnt, .ro, 0⟩]⟩,
  ⟨.ASY_OUT_CNT, 0x200180C, [[(1, 0x1000000)]], 8, some (0x20000FC, 0), .bench,
    [⟨ASY_OUT_CNT_out_cnt, .ro, 0⟩]⟩,
  ⟨.ASY_MIS_A, 0x28A0010, [[(4, 0x200000), (2, 0x40)], [(2, 4)]], 0, some (0x28A03FC, 1), .bench,
    [⟨ASY_MIS_A_a, .ro, 0⟩]⟩,
  ⟨.ASY_MIS_A, 0x2001810, [[(1, 0x1000000)], [(2, 4)]], 8, some (0x20000FC, 0), .bench,
    [⟨ASY_MIS_A_a, .ro, 0⟩]⟩,
  ⟨.ASY_MIS_B, 0x28A0018, [[(4, 0x200000), (2, 0x40)], [(2, 4)]], 0, some (0x28A03FC, 1), .bench,
    [⟨ASY_MIS_B_b, .ro, 0⟩]⟩,
  ⟨.ASY_MIS_B, 0x2001818, [[(1, 0x1000000)], [(2, 4)]], 8, some (0x20000FC, 0), .bench,
    [⟨ASY_MIS_B_b, .ro, 0⟩]⟩]

/-- Registers of the ASY block, table rows 13 to 24. -/
def regsASY1 : List RegClass := [
  ⟨.ASY_MIS_ID, 0x28A0020, [[(4, 0x200000), (2, 0x40)]], 0, some (0x28A03FC, 1), .bench,
    [⟨ASY_MIS_ID_id_a, .ro, 0⟩, ⟨ASY_MIS_ID_id_b, .ro, 0⟩]⟩,
  ⟨.ASY_MIS_ID, 0x2001820, [[(1, 0x1000000)]], 8, some (0x20000FC, 0), .bench,
    [⟨ASY_MIS_ID_id_a, .ro, 0⟩, ⟨ASY_MIS_ID_id_b, .ro, 0⟩]⟩,
  ⟨.ASY_MIR, 0x28A0024, [[(4, 0x200000), (2, 0x40)], [(4, 4)]], 0, some (0x28A03FC, 1), .bench,
    [⟨ASY_MIR_en, .rwp, 0⟩, ⟨ASY_MIR_copy, .rwp, 0⟩, ⟨ASY_MIR_pbank, .rwp, 0⟩, ⟨ASY_MIR_sbank, .rwp, 0⟩]⟩,
  ⟨.ASY_MIR, 0x2001824, [[(1, 0x1000000)], [(4, 4)]], 8, some (0x20000FC, 0), .bench,
    [⟨ASY_MIR_en, .rwp, 0⟩, ⟨ASY_MIR_copy, .rwp, 0⟩, ⟨ASY_MIR_pbank, .rwp, 0⟩, ⟨ASY_MIR_sbank, .rwp, 0⟩]⟩,
  ⟨.ASY_OUT_LO, 0x28A0100, [[(4, 0x200000), (2, 0x20)], [(4, 8)]], 0, some (0x28A03FC, 1), .bench,
    [⟨ASY_OUT_LO_lo, .rwp, 0⟩, ⟨ASY_OUT_LO_en, .rwp, 0⟩]⟩,
  ⟨.ASY_OUT_LO, 0x2001900, [[(1, 0x1000000)], [(4, 8)]], 8, some (0x20000FC, 0), .bench,
    [⟨ASY_OUT_LO_lo, .rwp, 0⟩, ⟨ASY_OUT_LO_en, .rwp, 0⟩]⟩,
  ⟨.ASY_OUT_HI, 0x28A0104, [[(4, 0x200000), (2, 0x20)], [(4, 8)]], 0, some (0x28A03FC, 1), .bench,
    [⟨ASY_OUT_HI_hi, .rwp, 0⟩]⟩,
  ⟨.ASY_OUT_HI, 0x2001904, [[(1, 0x1000000)], [(4, 8)]], 8, some (0x20000FC, 0), .bench,
    [⟨ASY_OUT_HI_hi, .rwp, 0⟩]⟩,
  ⟨.ASY_INA_MAP, 0x28A0200, [[(4, 0x200000)], [(8, 4)]], 0, some (0x28A03FC, 1), .bench,
    [⟨ASY_INA_MAP_addr, .rwp, 0⟩, ⟨ASY_INA_MAP_en, .rwp, 0⟩]⟩,
  ⟨.ASY_INA_MAP, 0x2001A00, [[(1, 0x1000000)], [(8, 4)]], 4, some (0x20000FC, 0), .bench,
    [⟨ASY_INA_MAP_addr, .rwp, 0⟩, ⟨ASY_INA_MAP_en, .rwp, 0⟩]⟩,
  ⟨.ASY_LANE_STAT, 0x28A0300, [[(4, 0x200000), (2, 0x10)]], 0, some (0x28A03FC, 1), .any,
    [⟨ASY_LANE_STAT_paired, .ro, 0⟩, ⟨ASY_LANE_STAT_mis, .w1c, 0⟩, ⟨ASY_LANE_STAT_mis_cnt, .rc, 0⟩]⟩,
  ⟨.ASY_LANE_LAST, 0x28A0304, [[(4, 0x200000), (2, 0x10)]], 0, some (0x28A03FC, 1), .any,
    [⟨ASY_LANE_LAST_laxis, .ro, 0⟩]⟩]

/-- Registers of the ASY block, table rows 25 to 29. -/
def regsASY2 : List RegClass := [
  ⟨.ASY_LANE_T_LO, 0x28A0308, [[(4, 0x200000), (2, 0x10)]], 0, some (0x28A03FC, 1), .any,
    [⟨ASY_LANE_T_LO_t_lo, .ro, 0⟩]⟩,
  ⟨.ASY_LANE_T_HI_SNAP, 0x28A030C, [[(4, 0x200000), (2, 0x10)]], 0, some (0x28A03FC, 1), .any,
    [⟨ASY_LANE_T_HI_SNAP_t_hi_snap, .ro, 0⟩]⟩,
  ⟨.ASY_GSTAT, 0x28A0380, [[(4, 0x200000)]], 0, some (0x28A03FC, 1), .any,
    [⟨ASY_GSTAT_cfg_err, .w1c, 0⟩]⟩,
  ⟨.ASY_GSTAT, 0x2001B80, [[(1, 0x1000000)]], 4, some (0x20000FC, 0), .any,
    [⟨ASY_GSTAT_cfg_err, .w1c, 0⟩]⟩,
  ⟨.ASY_UNLOCK, 0x28A03FC, [[(4, 0x200000)]], 0, some (0x28A03FC, 1), .any,
    [⟨ASY_UNLOCK_lock_violation, .w1c, 0⟩, ⟨ASY_UNLOCK_key, .wo, 0⟩]⟩]

/-- Registers of the ASY block. -/
def regsASY : List RegClass := regsASY0 ++ regsASY1 ++ regsASY2

/-- Registers of the LDL block, table rows 1 to 12. -/
def regsLDL0 : List RegClass := [
  ⟨.LDL_ADMIN_CTL, 0x2100000, [], 0, some (0x21000FC, 0), .hostOrBench,
    [⟨LDL_ADMIN_CTL_en, .rw, 0⟩, ⟨LDL_ADMIN_CTL_ready, .ro, 0⟩, ⟨LDL_ADMIN_CTL_cfg_refused, .w1c, 0⟩, ⟨LDL_ADMIN_CTL_aeq_lg, .rw, 6⟩, ⟨LDL_ADMIN_CTL_acq_lg, .rw, 6⟩, ⟨LDL_ADMIN_CTL_asq_lg, .rw, 6⟩]⟩,
  ⟨.LDL_ADMIN_VEC, 0x2100004, [], 0, some (0x21000FC, 0), .hostOrBench,
    [⟨LDL_ADMIN_VEC_acq_ven, .rw, 1⟩, ⟨LDL_ADMIN_VEC_acq_vec, .rw, 0⟩, ⟨LDL_ADMIN_VEC_aeq_ven, .rw, 1⟩, ⟨LDL_ADMIN_VEC_aeq_vec, .rw, 1⟩]⟩,
  ⟨.LDL_ASQ_BASE_LO, 0x2100010, [], 0, some (0x21000FC, 0), .hostOrBench,
    [⟨LDL_ASQ_BASE_LO_lo, .rw, 0⟩]⟩,
  ⟨.LDL_ASQ_BASE_HI, 0x2100014, [], 0, some (0x21000FC, 0), .hostOrBench,
    [⟨LDL_ASQ_BASE_HI_hi, .rw, 0⟩]⟩,
  ⟨.LDL_ACQ_BASE_LO, 0x2100018, [], 0, some (0x21000FC, 0), .hostOrBench,
    [⟨LDL_ACQ_BASE_LO_lo, .rw, 0⟩]⟩,
  ⟨.LDL_ACQ_BASE_HI, 0x210001C, [], 0, some (0x21000FC, 0), .hostOrBench,
    [⟨LDL_ACQ_BASE_HI_hi, .rw, 0⟩]⟩,
  ⟨.LDL_AEQ_BASE_LO, 0x2100020, [], 0, some (0x21000FC, 0), .hostOrBench,
    [⟨LDL_AEQ_BASE_LO_lo, .rw, 0⟩]⟩,
  ⟨.LDL_AEQ_BASE_HI, 0x2100024, [], 0, some (0x21000FC, 0), .hostOrBench,
    [⟨LDL_AEQ_BASE_HI_hi, .rw, 0⟩]⟩,
  ⟨.LDL_GSTAT, 0x2100040, [], 0, some (0x21000FC, 0), .any,
    [⟨LDL_GSTAT_db_err, .w1c, 0⟩, ⟨LDL_GSTAT_evt_lvl, .ro, 0⟩, ⟨LDL_GSTAT_auth_fail, .rc, 0⟩]⟩,
  ⟨.LDL_DB_ERR, 0x2100044, [], 0, some (0x21000FC, 0), .any,
    [⟨LDL_DB_ERR_reason, .ro, 0⟩, ⟨LDL_DB_ERR_ring, .ro, 0⟩]⟩,
  ⟨.LDL_EVT_DROP, 0x2100048, [], 0, some (0x21000FC, 0), .any,
    [⟨LDL_EVT_DROP_dropped, .rc, 0⟩]⟩,
  ⟨.LDL_EVT_ROUTE, 0x2100084, [[(12, 4)]], 1, some (0x21000FC, 0), .bench,
    [⟨LDL_EVT_ROUTE_eq, .rwp, 2⟩]⟩]

/-- Registers of the LDL block, table rows 13 to 20. -/
def regsLDL1 : List RegClass := [
  ⟨.LDL_RING_BASE_LO, 0x2110000, [[(4096, 0x20)]], 0, some (0x21000FC, 0), .bench,
    [⟨LDL_RING_BASE_LO_lo, .rwp, 0⟩]⟩,
  ⟨.LDL_RING_BASE_HI, 0x2110004, [[(4096, 0x20)]], 0, some (0x21000FC, 0), .bench,
    [⟨LDL_RING_BASE_HI_hi, .rwp, 0⟩]⟩,
  ⟨.LDL_RING_CFG, 0x2110008, [[(4096, 0x20)]], 0, some (0x21000FC, 0), .bench,
    [⟨LDL_RING_CFG_valid, .rwp, 0⟩, ⟨LDL_RING_CFG_type, .rwp, 0⟩, ⟨LDL_RING_CFG_lg, .rwp, 0⟩, ⟨LDL_RING_CFG_ven, .rwp, 0⟩, ⟨LDL_RING_CFG_vec, .rwp, 0⟩, ⟨LDL_RING_CFG_mir, .rwp, 0⟩, ⟨LDL_RING_CFG_link, .rwp, 0⟩]⟩,
  ⟨.LDL_RING_PTR, 0x211000C, [[(4096, 0x20)]], 0, some (0x21000FC, 0), .bench,
    [⟨LDL_RING_PTR_phase, .ro, 0⟩, ⟨LDL_RING_PTR_tail, .ro, 0⟩, ⟨LDL_RING_PTR_head, .ro, 0⟩]⟩,
  ⟨.LDL_RING_STAT, 0x2110010, [[(4096, 0x20)]], 0, some (0x21000FC, 0), .bench,
    [⟨LDL_RING_STAT_err, .ro, 0⟩, ⟨LDL_RING_STAT_err_code, .ro, 0⟩, ⟨LDL_RING_STAT_fence_wait, .ro, 0⟩, ⟨LDL_RING_STAT_fw_busy, .ro, 0⟩, ⟨LDL_RING_STAT_cq_stall, .ro, 0⟩, ⟨LDL_RING_STAT_del_pend, .ro, 0⟩, ⟨LDL_RING_STAT_lost, .rc, 0⟩]⟩,
  ⟨.LDL_RING_MIR_LO, 0x2110014, [[(4096, 0x20)]], 0, some (0x21000FC, 0), .bench,
    [⟨LDL_RING_MIR_LO_lo, .rwp, 0⟩]⟩,
  ⟨.LDL_RING_MIR_HI, 0x2110018, [[(4096, 0x20)]], 0, some (0x21000FC, 0), .bench,
    [⟨LDL_RING_MIR_HI_hi, .rwp, 0⟩]⟩,
  ⟨.LDL_UNLOCK, 0x21000FC, [], 0, some (0x21000FC, 0), .any,
    [⟨LDL_UNLOCK_lock_violation, .w1c, 0⟩, ⟨LDL_UNLOCK_key, .wo, 0⟩]⟩]

/-- Registers of the LDL block. -/
def regsLDL : List RegClass := regsLDL0 ++ regsLDL1

/-- Registers of the SLD block, table rows 1 to 10. -/
def regsSLD : List RegClass := [
  ⟨.SLD_CTL, 0x2410000, [[(8, 0x100)]], 0, some (0x24108FC, 0), .any,
    [⟨SLD_CTL_en, .rwp, 0⟩, ⟨SLD_CTL_evt_en, .rwp, 1⟩, ⟨SLD_CTL_mbx_evt, .rwp, 0⟩, ⟨SLD_CTL_rdy_flux, .rwp, 1⟩, ⟨SLD_CTL_retries, .rwp, 1⟩, ⟨SLD_CTL_fail_lim, .rwp, 3⟩, ⟨SLD_CTL_round_iv, .rwp, 0⟩]⟩,
  ⟨.SLD_STAT, 0x2410004, [[(8, 0x100)]], 0, some (0x24108FC, 0), .any,
    [⟨SLD_STAT_running, .ro, 0⟩, ⟨SLD_STAT_list_req, .w1s, 0⟩, ⟨SLD_STAT_att, .w1c, 0⟩, ⟨SLD_STAT_cmd_lost, .w1c, 0⟩, ⟨SLD_STAT_cmd_refused, .w1c, 0⟩]⟩,
  ⟨.SLD_ROUND, 0x2410008, [[(8, 0x100)]], 0, some (0x24108FC, 0), .any,
    [⟨SLD_ROUND_round, .ro, 0⟩]⟩,
  ⟨.SLD_ROUND_LEN, 0x241000C, [[(8, 0x100)]], 0, some (0x24108FC, 0), .any,
    [⟨SLD_ROUND_LEN_len, .ro, 0⟩]⟩,
  ⟨.SLD_LIST, 0x2410010, [[(8, 0x100)], [(4, 4)]], 0, some (0x24108FC, 0), .any,
    [⟨SLD_LIST_list, .ro, 0⟩]⟩,
  ⟨.SLD_LIST_NEXT, 0x2410020, [[(8, 0x100)], [(4, 4)]], 0, some (0x24108FC, 0), .any,
    [⟨SLD_LIST_NEXT_next, .rw, 0⟩]⟩,
  ⟨.SLD_CMD_PEND, 0x2410030, [[(8, 0x100)], [(4, 4)]], 0, some (0x24108FC, 0), .any,
    [⟨SLD_CMD_PEND_pend, .w1s, 0⟩]⟩,
  ⟨.SLD_PRESENT, 0x2410040, [[(8, 0x100)], [(4, 4)]], 0, some (0x24108FC, 0), .any,
    [⟨SLD_PRESENT_present, .ro, 0⟩]⟩,
  ⟨.SLD_ERR, 0x2410050, [[(8, 0x100)]], 0, some (0x24108FC, 0), .any,
    [⟨SLD_ERR_tmo, .rc, 0⟩, ⟨SLD_ERR_crc, .rc, 0⟩, ⟨SLD_ERR_frm, .rc, 0⟩, ⟨SLD_ERR_failed, .rc, 0⟩]⟩,
  ⟨.SLD_UNLOCK, 0x24108FC, [], 0, some (0x24108FC, 0), .any,
    [⟨SLD_UNLOCK_lock_violation, .w1c, 0⟩, ⟨SLD_UNLOCK_key, .wo, 0⟩]⟩]

/-- Registers of the SEM block, table rows 1 to 12. -/
def regsSEM0 : List RegClass := [
  ⟨.SEM_CTL, 0x2400000, [], 0, some (0x24000FC, 0), .any,
    [⟨SEM_CTL_en, .rwp, 0⟩, ⟨SEM_CTL_keeper_cap, .rwp, 0⟩, ⟨SEM_CTL_auto_join, .rwp, 0⟩, ⟨SEM_CTL_node, .rwp, 0⟩]⟩,
  ⟨.SEM_CYC, 0x2400004, [], 0, some (0x24000FC, 0), .any,
    [⟨SEM_CYC_epoch_len, .rwp, 0x100⟩, ⟨SEM_CYC_cyc_q, .rwp, 0x1F4⟩]⟩,
  ⟨.SEM_KEEP, 0x2400008, [], 0, some (0x24000FC, 0), .any,
    [⟨SEM_KEEP_miss_lim, .rwp, 8⟩, ⟨SEM_KEEP_crc_lim, .rwp, 0x10⟩]⟩,
  ⟨.SEM_SECT, 0x240000C, [], 0, some (0x24000FC, 0), .any,
    [⟨SEM_SECT_sel, .rw, 0⟩, ⟨SEM_SECT_len, .rw, 0⟩]⟩,
  ⟨.SEM_TX_BASE, 0x2400010, [], 0, some (0x24000FC, 0), .any,
    [⟨SEM_TX_BASE_base, .rwp, 0⟩]⟩,
  ⟨.SEM_RX_BASE, 0x2400014, [], 0, some (0x24000FC, 0), .any,
    [⟨SEM_RX_BASE_base, .rwp, 0⟩]⟩,
  ⟨.SEM_MBX_BASE, 0x2400018, [], 0, some (0x24000FC, 0), .any,
    [⟨SEM_MBX_BASE_base, .rwp, 0⟩]⟩,
  ⟨.SEM_STAT, 0x2400020, [], 0, some (0x24000FC, 0), .any,
    [⟨SEM_STAT_member, .ro, 0⟩, ⟨SEM_STAT_keeper, .ro, 0⟩, ⟨SEM_STAT_topo, .ro, 0⟩, ⟨SEM_STAT_keeper_node, .ro, 0⟩, ⟨SEM_STAT_hops, .ro, 0⟩]⟩,
  ⟨.SEM_EPOCH, 0x2400028, [], 0, some (0x24000FC, 0), .any,
    [⟨SEM_EPOCH_epoch, .ro, 0⟩]⟩,
  ⟨.SEM_CYC_STAT, 0x240002C, [], 0, some (0x24000FC, 0), .any,
    [⟨SEM_CYC_STAT_cycle, .ro, 0⟩]⟩,
  ⟨.SEM_GSTAT, 0x2400030, [], 0, some (0x24000FC, 0), .any,
    [⟨SEM_GSTAT_cfg_err, .w1c, 0⟩, ⟨SEM_GSTAT_evt_late, .w1c, 0⟩, ⟨SEM_GSTAT_evt_drop, .rc, 0⟩]⟩,
  ⟨.SEM_MBX_STAT, 0x2400034, [], 0, some (0x24000FC, 0), .any,
    [⟨SEM_MBX_STAT_full, .ro, 0⟩]⟩]

/-- Registers of the SEM block, table rows 13 to 18. -/
def regsSEM1 : List RegClass := [
  ⟨.SEM_MBX_REL, 0x2400038, [], 0, some (0x24000FC, 0), .any,
    [⟨SEM_MBX_REL_rel, .wo, 0⟩]⟩,
  ⟨.SEM_PORT_STAT, 0x2400100, [[(2, 0x20)]], 0, some (0x24000FC, 0), .any,
    [⟨SEM_PORT_STAT_up, .ro, 0⟩, ⟨SEM_PORT_STAT_sync, .ro, 0⟩, ⟨SEM_PORT_STAT_loop, .ro, 0⟩, ⟨SEM_PORT_STAT_att, .w1c, 0⟩, ⟨SEM_PORT_STAT_downs, .rc, 0⟩]⟩,
  ⟨.SEM_PORT_CFG, 0x2400104, [[(2, 0x20)]], 0, some (0x24000FC, 0), .any,
    [⟨SEM_PORT_CFG_rx_inv, .rwp, 0⟩, ⟨SEM_PORT_CFG_tx_inv, .rwp, 0⟩]⟩,
  ⟨.SEM_LINK_DLY, 0x2400108, [[(2, 0x20)]], 0, some (0x24000FC, 0), .any,
    [⟨SEM_LINK_DLY_dly, .ro, 0⟩]⟩,
  ⟨.SEM_PORT_ERR, 0x240010C, [[(2, 0x20)]], 0, some (0x24000FC, 0), .any,
    [⟨SEM_PORT_ERR_crc, .rc, 0⟩, ⟨SEM_PORT_ERR_lost, .rc, 0⟩]⟩,
  ⟨.SEM_UNLOCK, 0x24000FC, [], 0, some (0x24000FC, 0), .any,
    [⟨SEM_UNLOCK_lock_violation, .w1c, 0⟩, ⟨SEM_UNLOCK_key, .wo, 0⟩]⟩]

/-- Registers of the SEM block. -/
def regsSEM : List RegClass := regsSEM0 ++ regsSEM1

/-- Registers of the TCH block, table rows 1 to 12. -/
def regsTCH0 : List RegClass := [
  ⟨.TCH_STAT, 0x2600000, [], 0, some (0x26000FC, 0), .any,
    [⟨TCH_STAT_ready, .ro, 0⟩, ⟨TCH_STAT_holdup_ok, .ro, 0⟩, ⟨TCH_STAT_prov_open, .ro, 0⟩, ⟨TCH_STAT_new_rec, .rc, 0⟩, ⟨TCH_STAT_queued, .ro, 0⟩, ⟨TCH_STAT_dropped, .rc, 0⟩]⟩,
  ⟨.TCH_NEWEST, 0x2600004, [], 0, some (0x26000FC, 0), .any,
    [⟨TCH_NEWEST_slot, .ro, 0⟩]⟩,
  ⟨.TCH_SEQ, 0x2600008, [], 0, some (0x26000FC, 0), .any,
    [⟨TCH_SEQ_seq, .ro, 0⟩]⟩,
  ⟨.TCH_CFG, 0x260000C, [], 0, some (0x26000FC, 0), .bench,
    [⟨TCH_CFG_axis_sev, .rwp, 2⟩]⟩,
  ⟨.TCH_HOLDUP, 0x2600010, [], 0, some (0x26000FC, 0), .any,
    [⟨TCH_HOLDUP_mv, .ro, 0⟩]⟩,
  ⟨.TCH_DIP_CNT, 0x2600014, [], 0, some (0x26000FC, 0), .any,
    [⟨TCH_DIP_CNT_dips, .rc, 0⟩]⟩,
  ⟨.TCH_SUP_STAT, 0x2600100, [], 0, some (0x26000FC, 0), .any,
    [⟨TCH_SUP_STAT_vcore_warn, .ro, 0⟩, ⟨TCH_SUP_STAT_vaux_warn, .ro, 0⟩, ⟨TCH_SUP_STAT_warn_seen, .w1c, 0⟩, ⟨TCH_SUP_STAT_dip_seen, .w1c, 0⟩]⟩,
  ⟨.TCH_SUP_VCORE, 0x2600104, [], 0, some (0x26000FC, 0), .any,
    [⟨TCH_SUP_VCORE_min_mv, .rc, 0xFFFF⟩, ⟨TCH_SUP_VCORE_mv, .ro, 0⟩]⟩,
  ⟨.TCH_SUP_VAUX, 0x2600108, [], 0, some (0x26000FC, 0), .any,
    [⟨TCH_SUP_VAUX_min_mv, .rc, 0xFFFF⟩, ⟨TCH_SUP_VAUX_mv, .ro, 0⟩]⟩,
  ⟨.TCH_RST_CAUSE, 0x2600110, [], 0, some (0x26000FC, 0), .any,
    [⟨TCH_RST_CAUSE_seen, .w1c, 0⟩, ⟨TCH_RST_CAUSE_src, .ro, 1⟩]⟩,
  ⟨.TCH_BOOT, 0x2600114, [], 0, some (0x26000FC, 0), .any,
    [⟨TCH_BOOT_stage, .ro, 0⟩, ⟨TCH_BOOT_bm_err, .ro, 0⟩, ⟨TCH_BOOT_slot, .ro, 0⟩, ⟨TCH_BOOT_boot_mode, .ro, 0⟩]⟩,
  ⟨.TCH_WDT_CFG, 0x2600120, [], 0, some (0x26000FC, 0), .bench,
    [⟨TCH_WDT_CFG_en, .ro, 0⟩, ⟨TCH_WDT_CFG_frozen, .ro, 0⟩, ⟨TCH_WDT_CFG_debug_resumed, .w1c, 0⟩, ⟨TCH_WDT_CFG_period, .rwp, 0x7D0⟩]⟩]

/-- Registers of the TCH block, table rows 13 to 15. -/
def regsTCH1 : List RegClass := [
  ⟨.TCH_WDT_KICK, 0x2600124, [], 0, some (0x26000FC, 0), .bench,
    [⟨TCH_WDT_KICK_key, .wo, 0⟩]⟩,
  ⟨.TCH_WDT_LEFT, 0x2600128, [], 0, some (0x26000FC, 0), .any,
    [⟨TCH_WDT_LEFT_left, .ro, 0⟩]⟩,
  ⟨.TCH_UNLOCK, 0x26000FC, [], 0, some (0x26000FC, 0), .any,
    [⟨TCH_UNLOCK_lock_violation, .w1c, 0⟩, ⟨TCH_UNLOCK_key, .wo, 0⟩]⟩]

/-- Registers of the TCH block. -/
def regsTCH : List RegClass := regsTCH0 ++ regsTCH1

/-- Registers of the HLM block, table rows 1 to 8. -/
def regsHLM : List RegClass := [
  ⟨.HLM_STAT, 0x2300000, [], 0, none, .any,
    [⟨HLM_STAT_ent_ok, .ro, 0⟩, ⟨HLM_STAT_certified, .ro, 0⟩, ⟨HLM_STAT_cert_fail, .ro, 0x7F⟩, ⟨HLM_STAT_dbg_level, .ro, 0⟩, ⟨HLM_STAT_lifecycle, .ro, 0⟩]⟩,
  ⟨.HLM_SESSIONS, 0x2300004, [], 0, none, .any,
    [⟨HLM_SESSIONS_open, .ro, 0⟩]⟩,
  ⟨.HLM_FLOOR, 0x2300008, [], 0, none, .any,
    [⟨HLM_FLOOR_floor, .ro, 0⟩]⟩,
  ⟨.HLM_AUTH_MASK, 0x230000C, [], 0, none, .any,
    [⟨HLM_AUTH_MASK_mask, .ro, 0⟩]⟩,
  ⟨.HLM_IMG_REJ, 0x2300010, [], 0, none, .any,
    [⟨HLM_IMG_REJ_rejected, .rc, 0⟩]⟩,
  ⟨.HLM_ID_PUB, 0x2300040, [[(24, 4)]], 0, none, .any,
    [⟨HLM_ID_PUB_pub, .ro, 0⟩]⟩,
  ⟨.HLM_SERIAL_LO, 0x23000A0, [], 0, none, .any,
    [⟨HLM_SERIAL_LO_serial_lo, .ro, 0⟩]⟩,
  ⟨.HLM_SERIAL_HI, 0x23000A4, [], 0, none, .any,
    [⟨HLM_SERIAL_HI_serial_hi, .ro, 0⟩]⟩]

/-- Registers of the DBG block, table rows 1 to 12. -/
def regsDBG0 : List RegClass := [
  ⟨.DBG_STAT, 0x2700000, [], 0, none, .any,
    [⟨DBG_STAT_dap_ovr, .w1c, 0⟩, ⟨DBG_STAT_resp_busy, .ro, 0⟩, ⟨DBG_STAT_tap_level, .ro, 0⟩, ⟨DBG_STAT_pcie_level, .ro, 0⟩, ⟨DBG_STAT_bench_halted, .ro, 0⟩, ⟨DBG_STAT_halt_pend, .ro, 0⟩, ⟨DBG_STAT_cl_halted, .ro, 0⟩]⟩,
  ⟨.DBG_CTL, 0x2700004, [], 0, none, .dap,
    [⟨DBG_CTL_brk_halt, .rw, 0⟩, ⟨DBG_CTL_step, .wo, 0⟩, ⟨DBG_CTL_bench_release, .wo, 0⟩, ⟨DBG_CTL_bench_halt, .w1s, 0⟩, ⟨DBG_CTL_halt_link, .rw, 0⟩, ⟨DBG_CTL_release, .wo, 0⟩, ⟨DBG_CTL_halt, .w1s, 0⟩]⟩,
  ⟨.DBG_WDT_FREEZE, 0x2700008, [], 0, none, .dap,
    [⟨DBG_WDT_FREEZE_freeze, .rw, 0⟩]⟩,
  ⟨.DBG_HALT_CAUSE, 0x2700010, [[(4, 4)]], 0, none, .any,
    [⟨DBG_HALT_CAUSE_cause, .ro, 0⟩, ⟨DBG_HALT_CAUSE_index, .ro, 0⟩]⟩,
  ⟨.DBG_HALT_T_LO, 0x2700020, [], 0, none, .any,
    [⟨DBG_HALT_T_LO_t_lo, .ro, 0⟩]⟩,
  ⟨.DBG_HALT_T_HI_SNAP, 0x2700024, [], 0, none, .any,
    [⟨DBG_HALT_T_HI_SNAP_t_hi_snap, .ro, 0⟩]⟩,
  ⟨.DBG_BW_CFG, 0x2701000, [[(18, 0x40)], [(4, 0x10)]], 0, none, .unitCore,
    [⟨DBG_BW_CFG_en, .rw, 0⟩, ⟨DBG_BW_CFG_action, .rw, 0⟩, ⟨DBG_BW_CFG_link, .rw, 0⟩, ⟨DBG_BW_CFG_kind, .rw, 0⟩, ⟨DBG_BW_CFG_val_en, .rw, 0⟩, ⟨DBG_BW_CFG_rings, .rw, 0xF⟩, ⟨DBG_BW_CFG_ctx_en, .rw, 0⟩, ⟨DBG_BW_CFG_armed, .ro, 0⟩, ⟨DBG_BW_CFG_hit, .w1c, 0⟩, ⟨DBG_BW_CFG_ctx, .rw, 0⟩]⟩,
  ⟨.DBG_BW_START, 0x2701004, [[(18, 0x40)], [(4, 0x10)]], 0, none, .unitCore,
    [⟨DBG_BW_START_start, .rw, 0⟩]⟩,
  ⟨.DBG_BW_END, 0x2701008, [[(18, 0x40)], [(4, 0x10)]], 0, none, .unitCore,
    [⟨DBG_BW_END_end, .rw, 0⟩]⟩,
  ⟨.DBG_BW_VAL, 0x270100C, [[(18, 0x40)], [(4, 0x10)]], 0, none, .unitCore,
    [⟨DBG_BW_VAL_val, .rw, 0⟩]⟩,
  ⟨.DBG_CAP_STAT, 0x2702000, [[(8, 0x10)]], 0, none, .any,
    [⟨DBG_CAP_STAT_running, .ro, 0⟩, ⟨DBG_CAP_STAT_full, .ro, 0⟩, ⟨DBG_CAP_STAT_wrapped, .ro, 0⟩, ⟨DBG_CAP_STAT_lost, .rc, 0⟩]⟩,
  ⟨.DBG_CAP_WPTR, 0x2702004, [[(8, 0x10)]], 0, none, .any,
    [⟨DBG_CAP_WPTR_wptr, .ro, 0⟩]⟩]

/-- Registers of the DBG block, table rows 13 to 13. -/
def regsDBG1 : List RegClass := [
  ⟨.DBG_CAP_SEQ, 0x2702008, [[(8, 0x10)]], 0, none, .any,
    [⟨DBG_CAP_SEQ_seq, .ro, 0⟩]⟩]

/-- Registers of the DBG block. -/
def regsDBG : List RegClass := regsDBG0 ++ regsDBG1

/-- Registers of the EVC block, table rows 1 to 12. -/
def regsEVC0 : List RegClass := [
  ⟨.EVC_CFG, 0x28B0000, [[(4, 0x200000), (16, 0x20)]], 0, none, .any,
    [⟨EVC_CFG_en, .rw, 0⟩, ⟨EVC_CFG_mode, .rw, 0⟩, ⟨EVC_CFG_thr_en, .rw, 0⟩, ⟨EVC_CFG_thr_clr, .rw, 0⟩, ⟨EVC_CFG_snap_en, .rw, 0⟩, ⟨EVC_CFG_thr_hit, .w1c, 0⟩, ⟨EVC_CFG_late, .w1c, 0⟩, ⟨EVC_CFG_ovf, .w1c, 0⟩, ⟨EVC_CFG_clr, .wo, 0⟩, ⟨EVC_CFG_cl, .rw, 0⟩, ⟨EVC_CFG_src, .rw, 0⟩]⟩,
  ⟨.EVC_CFG, 0x2708000, [[(32, 0x20)]], 64, none, .any,
    [⟨EVC_CFG_en, .rw, 0⟩, ⟨EVC_CFG_mode, .rw, 0⟩, ⟨EVC_CFG_thr_en, .rw, 0⟩, ⟨EVC_CFG_thr_clr, .rw, 0⟩, ⟨EVC_CFG_snap_en, .rw, 0⟩, ⟨EVC_CFG_thr_hit, .w1c, 0⟩, ⟨EVC_CFG_late, .w1c, 0⟩, ⟨EVC_CFG_ovf, .w1c, 0⟩, ⟨EVC_CFG_clr, .wo, 0⟩, ⟨EVC_CFG_cl, .rw, 0⟩, ⟨EVC_CFG_src, .rw, 0⟩]⟩,
  ⟨.EVC_CNT_LO, 0x28B0004, [[(4, 0x200000), (16, 0x20)]], 0, none, .any,
    [⟨EVC_CNT_LO_cnt_lo, .ro, 0⟩]⟩,
  ⟨.EVC_CNT_LO, 0x2708004, [[(32, 0x20)]], 64, none, .any,
    [⟨EVC_CNT_LO_cnt_lo, .ro, 0⟩]⟩,
  ⟨.EVC_CNT_HI_SNAP, 0x28B0008, [[(4, 0x200000), (16, 0x20)]], 0, none, .any,
    [⟨EVC_CNT_HI_SNAP_cnt_hi_snap, .ro, 0⟩]⟩,
  ⟨.EVC_CNT_HI_SNAP, 0x2708008, [[(32, 0x20)]], 64, none, .any,
    [⟨EVC_CNT_HI_SNAP_cnt_hi_snap, .ro, 0⟩]⟩,
  ⟨.EVC_THR_LO, 0x28B000C, [[(4, 0x200000), (16, 0x20)]], 0, none, .any,
    [⟨EVC_THR_LO_thr_lo, .rw, 0⟩]⟩,
  ⟨.EVC_THR_LO, 0x270800C, [[(32, 0x20)]], 64, none, .any,
    [⟨EVC_THR_LO_thr_lo, .rw, 0⟩]⟩,
  ⟨.EVC_THR_HI, 0x28B0010, [[(4, 0x200000), (16, 0x20)]], 0, none, .any,
    [⟨EVC_THR_HI_thr_hi, .rw, 0⟩]⟩,
  ⟨.EVC_THR_HI, 0x2708010, [[(32, 0x20)]], 64, none, .any,
    [⟨EVC_THR_HI_thr_hi, .rw, 0⟩]⟩,
  ⟨.EVC_SNAP_LO, 0x28B0014, [[(4, 0x200000), (16, 0x20)]], 0, none, .any,
    [⟨EVC_SNAP_LO_snap_lo, .ro, 0⟩]⟩,
  ⟨.EVC_SNAP_LO, 0x2708014, [[(32, 0x20)]], 64, none, .any,
    [⟨EVC_SNAP_LO_snap_lo, .ro, 0⟩]⟩]

/-- Registers of the EVC block, table rows 13 to 17. -/
def regsEVC1 : List RegClass := [
  ⟨.EVC_SNAP_HI, 0x28B0018, [[(4, 0x200000), (16, 0x20)]], 0, none, .any,
    [⟨EVC_SNAP_HI_snap_hi, .ro, 0⟩]⟩,
  ⟨.EVC_SNAP_HI, 0x2708018, [[(32, 0x20)]], 64, none, .any,
    [⟨EVC_SNAP_HI_snap_hi, .ro, 0⟩]⟩,
  ⟨.EVC_GSNAP, 0x2708400, [], 0, none, .any,
    [⟨EVC_GSNAP_snap, .wo, 0⟩]⟩,
  ⟨.EVC_GSNAP_T_LO, 0x2708404, [], 0, none, .any,
    [⟨EVC_GSNAP_T_LO_t_lo, .ro, 0⟩]⟩,
  ⟨.EVC_GSNAP_T_HI_SNAP, 0x2708408, [], 0, none, .any,
    [⟨EVC_GSNAP_T_HI_SNAP_t_hi_snap, .ro, 0⟩]⟩]

/-- Registers of the EVC block. -/
def regsEVC : List RegClass := regsEVC0 ++ regsEVC1

end Sys2Proof.Machine
end

