-- ==== Sys2Proof/Machine/Bits.lean ====
section
/-!
DEFINITION. Reading and writing fields of register words, signed numbers in a given width, saturation, and the one
canonical form of a map.
-/
namespace Sys2Proof.Machine

/-- The field f of a word. -/
def fget (f : Fld) (v : Word) : Nat := (v.toNat >>> f.lo) % 2 ^ f.wid

/-- The word v with n in its field f (the lowest bits of n that fit). -/
def fput (f : Fld) (v : Word) (n : Nat) : Word :=
  BitVec.ofNat 32 (v.toNat - (fget f v) * 2 ^ f.lo + (n % 2 ^ f.wid) * 2 ^ f.lo)

/-- Bits hi to lo of a number. -/
def bits (n hi lo : Nat) : Nat := (n >>> lo) % 2 ^ (hi + 1 - lo)

/-- One bit of a number. -/
def bit (n i : Nat) : Bool := n.testBit i

/-- A Boolean as one bit. -/
def b2n (b : Bool) : Nat := if b then 1 else 0

/-- The number n with bit i set to b. -/
def setBit (n i : Nat) (b : Bool) : Nat :=
  if n.testBit i then (if b then n else n - 2 ^ i) else (if b then n + 2 ^ i else n)

/-- The signed number whose two's complement in w bits is n. -/
def sx (w n : Nat) : Int :=
  if n % 2 ^ w < 2 ^ (w - 1) then (n % 2 ^ w : Nat) else ((n % 2 ^ w : Nat) : Int) - (2 ^ w : Nat)

/-- The two's complement of i in w bits, as a number. -/
def wrapN (w : Nat) (i : Int) : Nat := (i % ((2 ^ w : Nat) : Int)).toNat

/-- i limited to the signed range of w bits. -/
def satI (w : Nat) (i : Int) : Int :=
  if i > ((2 ^ (w - 1) : Nat) : Int) - 1 then ((2 ^ (w - 1) : Nat) : Int) - 1
  else if i < -((2 ^ (w - 1) : Nat) : Int) then -((2 ^ (w - 1) : Nat) : Int) else i

/-- n + 1, staying at the largest number of w bits. -/
def satInc (w n : Nat) : Nat := if n + 1 < 2 ^ w then n + 1 else 2 ^ w - 1

/-- n + k, staying at the largest number of w bits. -/
def satAdd (w n k : Nat) : Nat := if n + k < 2 ^ w then n + k else 2 ^ w - 1

/-- The word of a number. -/
def w32 (n : Nat) : Word := BitVec.ofNat 32 n

/-- The word as a signed number. -/
def sgn (v : Word) : Int := v.toInt

/-- The word of a signed number, wrapping. -/
def wI (i : Int) : Word := BitVec.ofInt 32 i

/-- The k bytes of n, lowest first (R9). -/
def leBytes : Nat → Nat → List Byte
  | 0, _ => []
  | k + 1, n => BitVec.ofNat 8 n :: leBytes k (n / 256)

/-- The number whose bytes these are, lowest first (R9). -/
def leNat : List Byte → Nat
  | [] => 0
  | b :: bs => b.toNat + 256 * leNat bs

/-- A division that rounds down, of signed numbers (an arithmetic shift right by k). -/
def asr (i : Int) (k : Nat) : Int := i / ((2 ^ k : Nat) : Int)

/-- An arithmetic shift right by k with half of the last place added first. -/
def asrRound (i : Int) (k : Nat) : Int := if k = 0 then i else (i + ((2 ^ (k - 1) : Nat) : Int)) / ((2 ^ k : Nat) : Int)

/-! ## Maps -/

/-- The value a list of entries gives a key. -/
def alookup {α : Type} (k : Nat) : List (Nat × α) → Option α
  | [] => none
  | (j, v) :: r => if j = k then some v else alookup k r

/-- The list without the entries of a key. -/
def aerase {α : Type} (k : Nat) : List (Nat × α) → List (Nat × α)
  | [] => []
  | (j, v) :: r => if j = k then aerase k r else (j, v) :: aerase k r

/-- An entry put before the first larger key. -/
def ainsert {α : Type} (k : Nat) (v : α) : List (Nat × α) → List (Nat × α)
  | [] => [(k, v)]
  | (j, w) :: r => if k < j then (k, v) :: (j, w) :: r else (j, w) :: ainsert k v r

/-- The value of a key, dflt where the map lists none. -/
def mget {α : Type} (dflt : α) (m : SMap α) (k : Nat) : α := (alookup k m.entries).getD dflt

/-- The map with v at k; a value equal to what an unlisted key has is not listed. Assumption 10 (DESIGN CHOICE). -/
def mset {α : Type} [DecidableEq α] (dflt : α) (m : SMap α) (k : Nat) (v : α) : SMap α :=
  if v = dflt then ⟨aerase k m.entries⟩ else ⟨ainsert k v (aerase k m.entries)⟩

/-- The map without the keys from lo up to, not including, hi. -/
def mclear {α : Type} (m : SMap α) (lo hi : Nat) : SMap α := ⟨m.entries.filter fun e => !(lo ≤ e.1 && e.1 < hi)⟩

/-- Are the keys strictly rising? -/
def keysRise {α : Type} : List (Nat × α) → Bool
  | [] => true
  | [_] => true
  | (j, _) :: (k, w) :: r => decide (j < k) && keysRise ((k, w) :: r)

/-- The canonical form: keys strictly rising, and no entry equal to what an unlisted key has (dflt of that key).
Assumption 10 (DESIGN CHOICE). -/
def mwf {α : Type} [DecidableEq α] (dflt : Nat → α) (m : SMap α) : Bool :=
  keysRise m.entries && m.entries.all fun e => decide (e.2 ≠ dflt e.1)

/-- Apply f to every number below n, lowest first. -/
def upTo {σ : Type} (n : Nat) (f : Nat → σ → σ) (s : σ) : σ := (List.range n).foldl (fun t i => f i t) s

end Sys2Proof.Machine
end

