-- ==== Sys2Proof/Machine/StBase.lean ====
section
/-!
DEFINITION. Plain data shared by several blocks' states: the part, the islands, writers of registers, event and
Touchmark records, device time, and what one step leaves due for a later one.
-/
namespace Sys2Proof.Machine

/-- An event record of R349 before its phase bit is known: its code, the island and index it names, its time, its
payload as 32-bit words, and the EQ its class was routed to. -/
structure EvRec where
  eq : Nat
  code : Nat
  island : Nat
  index : Nat
  time : Nat
  pay : List Nat
  /-- Its loss flag is set (R348, R349). -/
  loss : Bool
deriving DecidableEq, Repr

/-- A Touchmark record of R430 before it is committed: its cause, its source, its trigger time, and its payload as
32-bit words. The flags of byte 18, the hold-up voltage and the temperature are those at the trigger. -/
structure TchRec where
  cause : Nat
  island : Nat
  index : Nat
  time : Nat
  pay : List Nat
  prov : Bool
  holdupMv : Nat
  temp : Nat
deriving DecidableEq, Repr

/-- Device time (R36 to R42). master is the copy of HI; copies holds those of clusters 0 to 3 (keys 0 to 3) and of the
link island (key 4). -/
structure TimeS where
  master : Nat
  copies : SMap Nat
  /-- Islands whose copy is loaded at the next 1,024-tick boundary (R37). -/
  reload : List Nat
  /-- The time_mode in effect; GLB_TIME_CTL holds the one written (R40). -/
  mode : Nat
  /-- A written GLB_TIME_STEP waits for the next boundary (R41). -/
  stepDue : Bool
  /-- e of the previous accepted SYNC_IN edge; none before the first accepted edge (R40). -/
  ePrev : Option Int
  /-- Consecutive edges within lock_tol, and expected edges missing in a row (R40). -/
  lockRun : Nat
  missed : Nat
  /-- The ccyc of the latest accepted edge, or in which the mode took effect. -/
  edgeAt : Nat
  /-- The level of SYNC_OUT, the ccyc at which it went high, and the device time up to which its compares have fired
  (R38, R42). -/
  syncOut : Bool
  syncRose : Nat
  syncFired : Option Nat
  /-- The ccyc of the latest 1,024-tick boundary that has been carried out (R37). -/
  bound : Option Nat
  /-- The latest stamp of MI, AI, SI and AO, by island code (R36). -/
  stamps : SMap Nat
deriving DecidableEq, Repr

/-- What a handshake crossing carries (R33). -/
inductive CrossPay where
  /-- A Flux source of a cluster (R17, R192). -/
  | flux (c src : Nat)
  /-- A kick of the device watchdog, on its way into AO (R466). -/
  | wdtKick
  /-- Counts of another island for global counter e (R481). -/
  | evc (e : Nat)
  /-- A start of Crucible trigger k with its device time (R233); TRIGGER_ARRIVAL takes it. -/
  | trig (k t : Nat)
deriving DecidableEq, Repr

/-- An item inside a handshake crossing from one island to another (R33). -/
structure CrossItem where
  src : Island
  dst : Island
  pay : CrossPay
deriving DecidableEq, Repr

/-- What one step has brought about and another step of the table carries out. -/
inductive Due where
  /-- A pulse on Flux destination dest of cluster c (R185). -/
  | pulse (c dest : Nat)
  /-- Export k of cluster c travels to cluster to (R191). -/
  | exported (c k tgt : Nat)
  /-- Combiner k of cluster c has met its condition (R190). -/
  | combiner (c k : Nat)
  /-- A compare of timer t has matched: A or B, by evaluation in the past or not (R198). -/
  | tmrMatch (t : Nat) (isB : Bool) (late : Bool)
  /-- The regular-spacing compare of an axis has matched (R152). -/
  | rscHit (a : Nat) (late : Bool)
  /-- A TIME segment of an axis starts in the next ccyc (R174). -/
  | timeStart (a : Nat) (late : Bool)
  /-- Event counter e has reached its threshold (R482). -/
  | evcThr (e : Nat) (late : Bool)
  /-- The delay of Crucible trigger k has matched (R234). -/
  | cruMatch (k : Nat) (late : Bool)
  /-- A reset of the given scope follows 1 ms after its completion (R361). -/
  | reset (scope : Nat)
  /-- An event record of HI that is posted once the admin rings exist (R426, R461). -/
  | post (code idx : Nat) (pay : List Nat)
  /-- A scheduled Seam event k is due in cluster c at device time t, or, where it is late, at the given ccyc (R38, R39). -/
  | seamEvent (c k t : Nat) (lateAt : Option Nat)
deriving DecidableEq, Repr

end Sys2Proof.Machine
end

