-- ==== Sys2Proof/Machine/StAxis.lean ====
section
/-!
DEFINITION. Plain data of the control loops: what a lane, an axis tile, its channels and its interpolator hold beside
their registers.
-/
namespace Sys2Proof.Machine

/-- The kinds of law of a slot (R62). -/
inductive LawKind where
  | current | velocity | position | emulation
deriving DecidableEq, Repr

/-- The input ports of a sample (R56) and whether each group is valid (R58). -/
structure PortIn where
  ia : Word
  ib : Word
  ic : Word
  pos : Word
  spd : Word
  spos : Word
  setp : Word
  setpf : Word
  setv : Word
  seta : Word
  region : Nat
  ts : Nat
  okIa : Bool
  okIb : Bool
  okIc : Bool
  okPos : Bool
  okSpos : Bool
  okSet : Bool
  regchg : Bool
deriving DecidableEq, Repr

/-- One bank of working registers, accumulator and flags (R44). -/
structure LaneBank where
  t : SMap Word
  acc : Int
  z : Bool
  n : Bool
  s : Bool
deriving DecidableEq, Repr

/-- A law that runs or waits on a lane: its slot and kind, where it starts, the word it executes next, its sample
instant, its inputs, and the sample by which it must end (R60, R62). Assumption 11 (DESIGN CHOICE). -/
structure LawRun where
  slot : Nat
  kind : LawKind
  base : Nat
  pc : Nat
  s : Nat
  /-- The carrier reference at its sample instant. -/
  sRef : Nat
  deadline : Nat
  inp : PortIn
  /-- ccyc taken so far, the fault causes requested by FAULT (R59), and the duties written by OUT. -/
  len : Nat
  req : List Nat
  du : Option Word
  dv : Option Word
  dw : Option Word
deriving DecidableEq, Repr

/-- The output stage of a slot between END and release (R60), with the request of the law. -/
structure OutStage where
  slot : Nat
  s : Nat
  sRef : Nat
  du : Option Word
  dv : Option Word
  dw : Option Word
  req : List Nat
  /-- 0 ran; 1 inputs invalid; 2 stopped by a double-bit error. -/
  how : Nat
deriving DecidableEq, Repr

/-- The committed slot registers (R67, R70). -/
structure Slot where
  cfg : Word
  vel : Word
  pos : Word
  sched : Word
  /-- Samples counted since the commit; none before the first sample (R62). -/
  k : Option Nat
  /-- Which laws have executed END since the axis last entered ARMED: current, velocity, position (R54, R93). -/
  endCur : Bool
  endVel : Bool
  endPos : Bool
  /-- The position that the emulation job took last, from which every channel forms EMU by its own scale; or the EMU that
  a law wrote since (R157). -/
  emuPos : Word
  emuOut : Option Word
deriving DecidableEq, Repr

/-- A Planisher lane (R44). -/
structure Lane where
  fg : LaneBank
  bg : LaneBank
  cur : Option LawRun
  job : Option LawRun
  released : List LawRun
  publish : List (Nat × Word)
  /-- On the shadow of a pair: what the primary's LDMs have read and the shadow's have not taken yet (R312). -/
  ldm : List Word
  out : List OutStage
  law : SMap (BitVec 64)
  /-- Words of the law store with a bit error: 1 single, 2 double (R48). -/
  lawErr : SMap Nat
  var : SMap Word
  gain : SMap Word
  /-- Staged gain writes in order: gain index and value (R50). -/
  staged : List (Nat × Word)
  /-- Staged changes of top, by slot (R366). -/
  stagedTop : List (Nat × Nat)
  slots : SMap Slot
  paired : Bool
  primary : Bool
  /-- What the next commit does to the pair: 0 nothing, 1 pairing begins, 2 pairing ends (R314). -/
  pairReq : Nat
deriving DecidableEq, Repr

/-- A segment of the interpolator (R166): its eight words. -/
structure Seg where
  w0 : Word
  w1 : Word
  w2 : Word
  w3 : Word
  w4 : Word
  w5 : Word
  w6 : Word
  w7 : Word
deriving DecidableEq, Repr

/-- A running segment: T0 and its start position in units of 2^-32 count (R169); for a follower, the master's value at
the latest evaluation, how far it has moved since the first one in units of 2^-32 count, and the follower's position
there (R170, R171). -/
structure SegRun where
  seg : Seg
  t0 : Nat
  p0 : Int
  mPrev : Option Int
  mAcc : Int
  /-- It runs as an open-ended HOLD because it would have closed a loop (R172). -/
  asHold : Bool
deriving DecidableEq, Repr

/-- What a follower reads of a master: its validity, position in units of 2^-32 count modulo 2^64, and velocity and
acceleration words (R170). -/
structure MVal where
  ok : Bool
  p : Nat
  v : Int
  a : Int
deriving DecidableEq, Repr

/-- The interpolator of an axis (R164 to R175). -/
structure Interp where
  run : Option SegRun
  /-- First entry and length of the queue in bank 15 (R177). -/
  head : Nat
  len : Nat
  /-- A TIME start that waits for this device time (R174). -/
  waitT : Option Nat
  /-- The present output position in units of 2^-32 count. -/
  outP : Int
  /-- The position to hold is to be taken from the next latch (R93). -/
  retake : Bool
  /-- When each queued entry was appended, oldest first, and when the axis became ENABLED (R173, R183). -/
  enq : List Nat
  enAt : Nat
  /-- The T0, still ahead, at which the head starts (R183). -/
  next : Option Nat
  /-- The outputs that stood before the changes of the latest 12 ccyc, newest first, with the ccyc of each (R170). -/
  hist : List (Nat × MVal)
deriving DecidableEq, Repr

/-- The carrier and window settings that an admission has staged for an axis and its commit writes (R66, R363). -/
structure AdmCfg where
  center : Bool
  dbl : Bool
  updPt : Bool
  updDiv : Nat
  winEvt : Bool
  per : Nat
  ofs : Nat
  winDelay : Nat
  winLen : Nat
deriving DecidableEq, Repr

/-- The supervision state of an axis beside its registers (R84 to R96). -/
structure Axis where
  /-- A miss was recorded since the previous release (R85). -/
  missed : Bool
  /-- The current law of the latest sample was missed (R485). -/
  curMiss : Bool
  /-- What the running stop leads to: 1 ADMITTED, 2 ARMED (disable), 0 RETIRED. -/
  target : Nat
  /-- A retirement is under way (R95). -/
  retiring : Bool
  /-- The stop profile of R92: velocity in Q16.16 counts per sample, and whether it holds the final position. -/
  rampV : Int
  rampHold : Bool
  /-- The carrier reference at which the ramp began, and whether it goes downwards. -/
  rampT : Nat
  rampNeg : Bool
  /-- The carrier reference at which the ramp came to rest (R92). -/
  rampHoldT : Nat
  /-- The response rank already recorded in the Touchmark log (R432). -/
  tchRank : Nat
  /-- The ccyc of the first cause since acknowledgement (R89), and the latest ccyc in which a level cause ended (R131). -/
  faultAt : Option Nat
  actEnd : Option Nat
  /-- The commands whose transition of this axis falls in the present sample: SQ, tag, and the factor of the state in
  their result (R96). -/
  trans : List (Nat × Nat × Nat)
  /-- An enabling under way: 0 none, 1 ARM, 2 ENABLE (R93), and whether it came by command. -/
  enReq : Nat
  /-- Live has been 1 at a dispatch; the unit enters DRIVE at the next update point (R126). -/
  driveReady : Bool
  /-- The sample in progress: its instant and its inputs (R60). -/
  smp : Option (Nat × PortIn)
  /-- The carrier reference at the latest sample instant. -/
  smpRef : Nat
  /-- Settings that wait for the admission commit (R66). -/
  adm : Option AdmCfg
deriving DecidableEq, Repr

/-- A Drawplate tile: a PWM event's delay counts, or its window is open (R106, R108). -/
structure Tile where
  delaying : Bool
  opened : Bool
  /-- The carrier reference at the PWM event of this delay and window. -/
  evt : Nat
  /-- Where the windows of ignored PWM events would have closed, as carrier references (R108). -/
  lost : List Nat
  /-- The window was interrupted for a channel (R115): bit k. -/
  cut : Nat
  /-- The corrections in force in this window, for the three channels (R114). -/
  corr : SMap Word
  /-- Results formed at S, which stand from S + 4: channel, and the result's 24 bits if it is valid (R107). -/
  formed : List (Nat × Option Nat)
deriving DecidableEq, Repr

/-- A Drawplate channel's state beside its registers. -/
structure Chan where
  /-- The qualified condition: 0 none, 1 above hi_th, 2 below lo_th (R110). -/
  oc : Nat
  /-- The channel raises DRW_OC of its tile (R111). -/
  raising : Bool
  /-- The carrier reference at the latest of channel enable, clock start and clock recovery (R109, R110), and the bits
  captured from the enable to there (R105). -/
  since : Nat
  prior : Nat
  /-- The carrier reference at the latest write of DRW_OC_CFG or DRW_OC_TH, where the qualification count restarts, and
  the oc_act in force on a qualified condition (R114). -/
  ocSince : Nat
  act : Nat
deriving DecidableEq, Repr

/-- A PWM unit's state beside its registers. -/
structure Pwm where
  /-- The counter runs (R118). -/
  counts : Bool
  /-- The switches that are on, as bits 0 UH to 5 WL (R125). -/
  on : Nat
  /-- Switches that turn on after dead time, with the tap of 1/32 ccyc of the carrier reference; and the tap before which
  a switch that is on does not turn off (R123, R127). -/
  rise : List (Nat × Nat)
  keep : List (Nat × Nat)
  /-- The tap at which a high side of the unit turned off latest (R125, R127). -/
  hiOff : Nat
  /-- A forced cause is latched until acknowledgement (R128, R131). -/
  latched : Bool
  /-- Dead time and minimum pulse in force: staged writes take effect at the next update point (R135). -/
  dt : Word
  /-- Switches kept off for this carrier period because their pulse was dropped, bits 0 UH to 5 WL (R123). -/
  dropped : Nat
  /-- The carrier reference at the latest PEAK or VALLEY that took place (R117). -/
  evt : Option Nat
deriving DecidableEq, Repr

/-- A feedback channel's state beside its registers (R137 to R155). -/
structure Fbk where
  /-- Accepted levels of A, B and Z. -/
  lvA : Bool
  lvB : Bool
  lvZ : Bool
  /-- The levels that the pairs A, B and Z have or keep at the balls, in a debug halt too (R138, R162). -/
  pinA : Bool
  pinB : Bool
  pinZ : Bool
  /-- The ccyc of the latest preset; the ccyc of the latest count, and dir and dir_chg before it (R143). -/
  presetAt : Option Nat
  cntAt : Option (Nat × Bool × Bool)
  /-- A count with a direction since enable, preset or halt release (R145). -/
  moved : Bool
  /-- A count since enable, preset or halt release, with its latest count and stamp (R148). -/
  cnt : Option (Word × Nat)
  /-- The reference pair (R148). -/
  ref : Option (Word × Nat)
  /-- The latest count reversed the direction. -/
  rev : Bool
  /-- An illegal transition, or a qualified disagreement, since the previous S (R144). -/
  illegal : Bool
  disagreed : Bool
  /-- The next S is the first after enable, preset or release (R144). -/
  first : Bool
  /-- The index history, newest first: counter and stamp (R146). -/
  hist : List (Word × Nat)
  /-- The latches that stood before the changes of the latest 12 ccyc, newest first, with the ccyc of each (R170). -/
  latHist : List (Nat × MVal)
  /-- The present line-count interval contains a reversal, preset, enable or release; a disagreement (R150, R151). -/
  lcSkip : Bool
  lcDis : Bool
  /-- The previous index latch of the line-count check. -/
  lcOld : Option Word
  /-- Supervised pairs whose disagreement is qualified: bit 0 A, 1 B, 2 Z (R149). -/
  dis : Nat
  /-- The carrier reference at which dis_live became 1 (R151). -/
  disAt : Nat
  /-- The last serial word taken, aligned, with its stamp; whether it was valid; and the last valid word since enable
  (R155). -/
  ser : Option (Word × Nat)
  serOk : Bool
  serPrev : Option Nat
  /-- Output pulse of the regular-spacing compare is high; it has pulsed since armed; the carrier reference at which the
  latest pulse began (R154). -/
  rscHigh : Bool
  rscPulsed : Bool
  rscRise : Nat
  /-- The carrier reference at which the output went low (R154). -/
  rscLow : Nat
deriving DecidableEq, Repr

/-- An encoder output channel's state beside its registers (R156 to R160). -/
structure EncOut where
  acc : Int
  count : Int
  /-- The difference still to emit, the ccyc between edges, and the carrier reference at the latest edge (R157). -/
  todo : Int
  spacing : Nat
  edgeAt : Option Nat
  ballA : Bool
  ballB : Bool
  ballZ : Bool
deriving DecidableEq, Repr

/-- The events of one increment of a timer, and its ccyc (R197, R198). -/
structure TmHit where
  ccyc : Nat
  o : Bool
  a : Bool
  b : Bool
deriving DecidableEq, Repr

/-- A general timer beside its registers (R196). -/
structure Tmr where
  /-- The phase of its prescaler. -/
  phase : Nat
  /-- The overflow and matches of an increment that have not acted yet. -/
  hit : Option TmHit
  /-- A carry is on its way to the linked high half (R204). -/
  carry : Bool
  /-- The increment of the next ccyc has been carried out by its row. -/
  ahead : Bool
  /-- The ccyc of the latest write of the count, reset event, START or START_RESET, and write of run (R208). -/
  cntAt : Option Nat
  resetAt : Option Nat
  startAt : Option Nat
  cfgAt : Option Nat
deriving DecidableEq, Repr

/-- A chasing engine beside its registers (R212). -/
structure Eng where
  crc : Nat
  /-- Bits feed the CRC unit (R218). -/
  feed : Bool
  stamp : Nat
  inq : List Word
  outq : List Word
  /-- The instruction in progress: one that waits or stalls, or a SHIFT or EXPECT between two bits. -/
  ir : Option Nat
  /-- Bits of the SHIFT or EXPECT in progress still to move. -/
  left : Nat
  /-- The levels of the output pins. -/
  pins : Nat
  /-- The edge that its WAITEDGE awaits has been seen; the ccyc in which the WAITEDGE began, moved on by the time the engine
  was held, and the ccyc of the latest hold (R216, R223). -/
  edge : Bool
  waitAt : Nat
  heldAt : Nat
  /-- A SYNC release is remembered while the engine is held (R222). -/
  rel : Bool
  /-- A comparator has held the engine before the word at PC, which then executes without a second match (R227). -/
  passed : Bool
deriving DecidableEq, Repr

/-- A coordination group's state beside its registers (R182). -/
structure Grp where
  /-- A GRP_START pulse was latched early for the leader. -/
  early : Bool
deriving DecidableEq, Repr

/-- A combiner's latches (R190): bit i for input i, and whether its condition held while armed; the ccyc in which that
became true, of its latest firing and of its latest re-arming. -/
structure Comb where
  latch : Nat
  held : Bool
  trueAt : Nat
  firedAt : Option Nat
  armAt : Option Nat
deriving DecidableEq, Repr

end Sys2Proof.Machine
end

