-- ==== Sys2Proof/Machine/StCore.lean ====
section
/-!
DEFINITION. Plain data of the Anvil cores and of the Assay units beside their registers.
-/
namespace Sys2Proof.Machine

/-- An operand of a side-unit operation: its value, or the register it awaits, with the tag known at dispatch (R253,
R273). -/
structure StnOp where
  val : Word
  tag : Nat
  link : Option Nat
deriving DecidableEq, Repr

/-- An occupied reservation station (R253, R273): the operation, its destination (a predicate for FCMP), its raw bit,
its cc or sub-function, and its operands. -/
structure Stn where
  op : Nat
  d : Nat
  r : Bool
  sub : Nat
  a : StnOp
  b : StnOp
deriving DecidableEq, Repr

/-- An entry of the store buffer (R252): tag is the tag the word takes, ring the ring that issued it. -/
structure StoreEnt where
  addr : Nat
  size : Nat
  data : Word
  tag : Nat
  ring : Nat
deriving DecidableEq, Repr

/-- A load whose data are on their way from another island (R251): the instruction, whether the target answered without
a bus error, and the word with its tag. -/
structure LoadPend where
  iw : Word
  ok : Bool
  val : Word
  tag : Nat
deriving DecidableEq, Repr

/-- An active repeat (R256, R257). -/
structure Rep where
  repn : Bool
  left : Nat
deriving DecidableEq, Repr

/-- An Anvil core beside its registers on the fabric (R239, R240). -/
structure Core where
  pc : Nat
  /-- W0 to W15, and their tags. -/
  w : SMap Word
  tg : SMap Nat
  /-- P1 to P7 in bits 1 to 7; bit 0 is 0 here and P0 reads 1. -/
  p : Nat
  bk : Nat
  tsr : Nat
  tsbp : SMap Nat
  ctxid : Nat
  ring : Nat
  ipl : Nat
  ie : Bool
  df : Bool
  suerr : Nat
  /-- The island cycle at which CYC was 0, and the captured high half. -/
  cycBase : Nat
  cycHi : Nat
  /-- The data mode: byte mode instead of tagged (R244). -/
  byteMode : Bool
  /-- The core runs a program; a stopped core waits for CORE_START (R379, R465). -/
  running : Bool
  /-- The entry address of the image placed for the core; none where none is placed. -/
  entry : Option Nat
  /-- The core stands in WAIT (R277). -/
  waiting : Bool
  /-- The core waits in CHKPT for a MERGE (R310). -/
  mergeWait : Bool
  /-- A shadow INA waits for its value (R258, R307). -/
  inaWait : Bool
  /-- The load in progress from another island, for whose data the core waits (R251). -/
  load : Option LoadPend
  rep : Option Rep
  stns : List Stn
  stores : List StoreEnt
  /-- A held store failure: address, data and size; and whether more were lost (R270). -/
  late : Option (Nat × Word × Nat)
  lateOvf : Bool
  /-- An expiry of the core watchdog has occurred without a kick since (R281). -/
  wdtOnce : Bool
  /-- The word address the exclusive monitor holds (R279). -/
  monitor : Option Nat
  /-- The store signature: what every executed store since the last checkpoint folds in (R259). -/
  sig : List Nat
  /-- Words in the prefetch queue, from pc on (R251). -/
  pfq : List Word
  /-- The core runs one instruction for the debugger and halts again (R478). -/
  stepping : Bool
deriving DecidableEq, Repr

/-- A core after reset (R239); TSR, TSBP and CTXID hold named values, since the spec gives none.
Assumption 8 (DESIGN CHOICE). -/
def Core.reset : Core :=
  { pc := 0, w := .empty, tg := .empty, p := 0, bk := 0, tsr := 0, tsbp := .empty, ctxid := 0, ring := 0, ipl := 0,
    ie := false, df := false, suerr := 0, cycBase := 0, cycHi := 0, byteMode := false, running := false, entry := none,
    waiting := false, mergeWait := false, inaWait := false, load := none, rep := none, stns := [], stores := [], late := none,
    lateOvf := false, wdtOnce := false, monitor := none, sig := [], pfq := [], stepping := false }

/-- An entry of an output queue of a core pair (R304). -/
structure OutEnt where
  addr : Nat
  size : Nat
  data : Word
  tag : Nat
  ring : Nat
deriving DecidableEq, Repr

/-- A value of a checkpoint queue: id and the 64-bit value (R259, R305). -/
structure ChkVal where
  id : Nat
  val : Nat
deriving DecidableEq, Repr

/-- A core pair beside its registers (R299 to R311): the queues of the primary and of the shadow, values delivered to
the shadow's INA, the latest checkpoint value of each core, a checkpoint agreed since the split was requested, the copy
of a MERGE under way. -/
structure Pair where
  outP : List OutEnt
  outS : List OutEnt
  chkP : List ChkVal
  chkS : List ChkVal
  ina : List Word
  lastP : Option ChkVal
  lastS : Option ChkVal
  agreed : Bool
  copying : Bool
  lagT : Nat
  copyT : Nat
deriving DecidableEq, Repr

/-- A core pair after reset. Assumption 8 (DESIGN CHOICE). -/
def Pair.reset : Pair :=
  { outP := [], outS := [], chkP := [], chkS := [], ina := [], lastP := none, lastS := none, agreed := false,
    copying := false, lagT := 0, copyT := 0 }

end Sys2Proof.Machine
end

