-- ==== Sys2Proof/Machine/StDev.lean ====
section
/-!
DEFINITION. Plain data, beside their registers, of the Crucible, the Seam link and the Solder bus, the flash routine and the
Touchmark writer, the Hallmark, the debug access port, captures, and supplies.
-/
namespace Sys2Proof.Machine

/-- A pair of converters (R236): starts of A since the last check cycle, and the results of a check under way. -/
structure CruPair where
  starts : Nat
  active : Bool
  resA : Option Int
  resB : Option Int
deriving DecidableEq, Repr

/-- A conversion under way (R231, R232, R235, R236): the settings it uses, whether its reference is unsettled, the icyc of
its integration, whether rundown has begun, whether it is converter B of a pair running a check; and the icyc in which it
was started, with the trigger time and the pair's state before that start, since a clear of en in that icyc undoes it. -/
structure ConvRun where
  cfg : Word
  unsettled : Bool
  tInt : Nat
  rundown : Bool
  check : Bool
  began : Nat
  tWas : Nat
  pairWas : CruPair
deriving DecidableEq, Repr

/-- A trigger of the Crucible: the count of its delay counter, and the time of the latest arrival (R233). -/
structure CruTrig where
  count : Nat
  tTrig : Nat
deriving DecidableEq, Repr

/-- The Crucible beside its registers. -/
structure Cru where
  runs : SMap (Option ConvRun)
  trigs : SMap CruTrig
  pairs : SMap CruPair
deriving DecidableEq, Repr

/-- A trigger after reset. -/
def CruTrig.reset : CruTrig := { count := 0, tTrig := 0 }

/-- A pair after reset. -/
def CruPair.reset : CruPair := { starts := 0, active := false, resA := none, resB := none }

/-- The Crucible after reset. Assumption 8 (DESIGN CHOICE). -/
def Cru.reset : Cru := { runs := .empty, trigs := .empty, pairs := .empty }

/-! ## Seam link (R393 to R410) -/

/-- A mailbox message of this device on its way (R403): its node, id and bytes, cycles since it was sent, whether it has
been sent, whether a refusal asks for it again, and the SQ of its command. -/
structure SemMsg where
  dest : Nat
  id : Nat
  data : List Byte
  age : Nat
  sent : Bool
  again : Bool
  sq : Nat
deriving DecidableEq, Repr

/-- The fragments of a message received so far from a source (R403). -/
structure SemRx where
  id : Nat
  total : Nat
  got : List (Nat × List Byte)
deriving DecidableEq, Repr

/-- The Seam link beside its registers. out holds the frames handed to the ports, oldest first. Layouts are lists of nodes
and section lengths in rising order. -/
structure Sem where
  out : List (Nat × Frame)
  layout : List (Nat × Nat)
  /-- The layout that applies from the next boundary, with its epoch and first cycle (R404). -/
  next : Option (List (Nat × Nat))
  nextEpoch : Nat
  nextCycle : Nat
  /-- Requests of nodes with their section lengths, and nodes that leave, with whether it is unplanned. -/
  joins : List (Nat × Nat)
  leaves : List (Nat × Bool)
  /-- Keeper: consecutive unwritten cycles of nodes, and the bytes of their sections. -/
  missed : SMap Nat
  sections : SMap (List Byte)
  /-- Keeper: the frames of this cycle that it has sent out of port 0. -/
  turned : List Frame
  healed : Bool
  /-- Probes under way by port: the device time each left; round trips of the last 16 exchanges by port. -/
  probe : SMap (Option Nat)
  trips : SMap (List Nat)
  /-- The first TIME frame of a membership in mode SEAM has been judged (R401). -/
  stepped : Bool
  /-- The ccyc of the latest TIME frame; claiming, the CLAIMs sent since it began without a lower one, and the cycle of the
  latest (R406). -/
  heardAt : Nat
  claiming : Bool
  claimRun : Nat
  claimCyc : Option Nat
  /-- Keeper: a cycle has begun whose TIME frame has not been sent (R398). The cycle of the latest PROBE by port (R401). -/
  cycDue : Bool
  probeCyc : SMap (Option Nat)
  /-- A join of this device is asked for, its JOIN has been sent, and the cycles since it was asked for (R404). -/
  joining : Bool
  joinSent : Bool
  joinAge : Nat
  /-- A leave of this device is asked for (R405). -/
  leaving : Bool
  msgs : List SemMsg
  nextId : Nat
  rx : SMap (Option SemRx)
  lastId : SMap (Option Nat)
  /-- Scheduled events this device sent: node, event, time (R405); and EVENT frames seen: source, event, time. -/
  events : List (Nat × Nat × Nat)
  seen : List (Nat × Nat × Nat)
  /-- The cycle whose last visit came last, and CRC errors of this epoch by port (R399, R407). -/
  lastCyc : Option Nat
  crcRun : SMap Nat
deriving DecidableEq, Repr

/-- The Seam link after reset. Assumption 8 (DESIGN CHOICE). -/
def Sem.reset : Sem :=
  { out := [], layout := [], next := none, nextEpoch := 0, nextCycle := 0, joins := [], leaves := [], missed := .empty,
    sections := .empty, turned := [], healed := false, probe := .empty, trips := .empty, stepped := false,
    heardAt := 0, claiming := false, claimRun := 0, claimCyc := none, cycDue := false, probeCyc := .empty, joining := false, joinSent := false, joinAge := 0, leaving := false,
    msgs := [], nextId := 0, rx := .empty, lastId := .empty, events := [], seen := [], lastCyc := none, crcRun := .empty }

/-! ## Solder bus (R381 to R391) -/

/-- A port of the Solder bus beside its registers: a round runs, and the nodes whose slots it has left; bit times of the
round so far; retries of the current slot, and its kind; the nodes whose seq bit is 1; nodes without a good response
since they joined the list; the broadcast slot is next; the bits of the latest frame the port sent; the ccyc in which the present
slot begins; and that in which the latest round since en was set began (R382 to R387). -/
structure Sld where
  inRound : Bool
  todo : List Nat
  bits : Nat
  tries : Nat
  kind : Nat
  seqs : List Nat
  fresh : List Nat
  bcast : Bool
  frame : List Bool
  slotAt : Nat
  roundAt : Option Nat
deriving DecidableEq, Repr

/-- A port after reset (R391). Assumption 8 (DESIGN CHOICE). -/
def Sld.reset : Sld :=
  { inRound := false, todo := [], bits := 0, tries := 0, kind := 0, seqs := [], fresh := [], bcast := false, frame := [], slotAt := 0, roundAt := none }

/-! ## Flash and Touchmark (R411 to R437) -/

/-- One operation on the array (R414 to R416). -/
inductive FlsAct where
  /-- Erase a sector. -/
  | erase (sector : Nat)
  /-- Program at most one page; clear is the clear form. -/
  | prog (offset : Nat) (data : List Byte) (clear : Bool)
deriving DecidableEq, Repr

/-- Work of the flash routine: the SQ whose command it serves (4096 for the routine's own), that command's opcode, the
operations left, sectors erased, the forced-completion limit, and what the command completes with. -/
structure FlsJob where
  sq : Nat
  op : Nat
  acts : List FlsAct
  erased : Nat
  limit : Nat
  aux : List Nat
deriving DecidableEq, Repr

/-- The flash routine: its jobs in order of arrival, the erase in progress (sector, the ccyc in which it started and in which
it was last resumed, suspended, forced), frozen work, erase counts, sectors that are suspect or retired, and failed re-erases. -/
structure Fls where
  jobs : List FlsJob
  erasing : Option Nat
  eraseAt : Nat
  resumeAt : Option Nat
  susp : Bool
  forced : Bool
  frozen : Bool
  /-- A page program was running when the routine froze (R418). -/
  progLeft : Bool
  counts : SMap Nat
  suspect : List Nat
  retired : List Nat
  jseq : Nat
deriving DecidableEq, Repr

/-- The flash routine after reset. Assumption 8 (DESIGN CHOICE). -/
def Fls.reset : Fls :=
  { jobs := [], erasing := none, eraseAt := 0, resumeAt := none, susp := false, forced := false, frozen := false, progLeft := false, counts := .empty,
    suspect := [], retired := [], jseq := 0 }

/-- The Touchmark writer beside its registers and its queue (R428 to R436): a provisional record (supply, lowest mV,
crossings, and the ccyc since it opened), the boot count, the lowest supplies since the last record, whether a
commit runs. -/
structure Tch where
  prov : Option TchRec
  provMv : Nat
  provN : Nat
  provT : Nat
  boots : Nat
  minCore : Nat
  minAux : Nat
  busy : Bool
  ringErase : Option Nat
  /-- The supplies are valid (R455). -/
  valid : Bool
deriving DecidableEq, Repr

/-- The writer after power-on reset. Assumption 8 (DESIGN CHOICE). -/
def Tch.reset : Tch :=
  { prov := none, provMv := 0, provN := 0, provT := 0, boots := 0, minCore := 0xFFFF, minAux := 0xFFFF, busy := false, ringErase := none, valid := false }

/-! ## Hallmark (R438 to R452) -/

/-- A session (R342, R362): the number of its key, and the counters it has accepted, the highest first. -/
structure Sess where
  key : Nat
  used : List Nat
deriving DecidableEq, Repr

/-- The Hallmark beside its registers: OTP, sessions, the current nonce and challenge, uses of the DRBG, whether a grant
was made against the owner key, the latched conditions of R452, the running image, and failed authentications. -/
structure Hlm where
  otp : SMap Byte
  sess : SMap (Option Sess)
  nonce : Option (List Byte)
  chal : Option (List Byte)
  tapChal : Option (List Byte)
  /-- The ccyc in which the nonce, the challenge of PCI Express and that of the TAP were drawn (R362, R377, R473). -/
  nonceAt : Nat
  chalAt : Nat
  tapChalAt : Nat
  draws : Nat
  ownerP : Bool
  ownerT : Bool
  latch1 : Bool
  latch3 : Bool
  fwVersion : Nat
  fwVendor : Bool
  /-- The authorisation mask that configuration flash keeps (R375). -/
  maskKept : Nat
  fails : Nat
  failAt : Option Nat
deriving DecidableEq, Repr

/-- The Hallmark after reset. Assumption 8 (DESIGN CHOICE). -/
def Hlm.reset : Hlm :=
  { otp := .empty, sess := .empty, nonce := none, chal := none, tapChal := none, nonceAt := 0, chalAt := 0, tapChalAt := 0, draws := 0, ownerP := false,
    ownerT := false, latch1 := false, latch3 := false, fwVersion := 0, fwVendor := false, maskKept := 0, fails := 0, failAt := none }

/-! ## Debug (R470 to R487) -/

/-- A debug access of R472: read or write, consume, tag_en and tag, address and data. -/
structure DapAcc where
  write : Bool
  consume : Bool
  tagEn : Bool
  tag : Nat
  addr : Nat
  data : Word
deriving DecidableEq, Repr

/-- The TAP (R470 to R473): the instruction, the boundary-scan cells, the access under way and its result (data, tag,
status), a response under verification, and what the last capture shifted out. -/
structure Tap where
  ir : Nat
  cells : Nat
  acc : Option DapAcc
  resData : Word
  resTag : Nat
  resStat : Nat
  resp : Option (List Byte × Nat)
  dr : Nat
deriving DecidableEq, Repr

/-- The TAP after Test-Logic-Reset. Assumption 8 (DESIGN CHOICE). -/
def Tap.reset : Tap :=
  { ir := 0x02, cells := 0, acc := none, resData := 0, resTag := 0, resStat := 0, resp := none, dr := 0 }

/-- A capture beside its registers (R371, R485, R486): its variables, buffer, size and wrap, records lost before the
next one, bytes written, whether the next record is the first after a halt, and the carrier reference of the sample instant
that the latest record belongs to. -/
structure Cap where
  specs : List Nat
  base : Nat
  size : Nat
  wrap : Bool
  lost : Nat
  bytes : Nat
  resumed : Bool
  recSize : Nat
  /-- The reference axis. -/
  axis : Nat
  recd : Nat
deriving DecidableEq, Repr

/-- A capture after reset. Assumption 8 (DESIGN CHOICE). -/
def Cap.reset : Cap :=
  { specs := [], base := 0, size := 0, wrap := false, lost := 0, bytes := 0, resumed := false, recSize := 0, axis := 0, recd := 0 }

end Sys2Proof.Machine
end

