-- ==== Sys2Proof/Machine/StLadle.lean ====
section
/-!
DEFINITION. Plain data of the Ladle: fetched commands, commands under way and completions; and of the PCI Express
endpoint.
-/
namespace Sys2Proof.Machine

/-- A dispatched command that has not completed: its SQ, its command tag, its opcode, the resource it names, what
else it carries, its place in the order of dispatch, the ccyc in which it was dispatched, and its timeout in ms, 0 for none
(R340, R341, R358). -/
structure Wait where
  sq : Nat
  cid : Nat
  op : Nat
  target : Nat
  aux : List Nat
  seq : Nat
  start : Nat
  limit : Nat
deriving DecidableEq, Repr

/-- A command that has completed and whose record has not been written (R344). -/
structure Cpl where
  sq : Nat
  cid : Nat
  status : Nat
  result : Nat
deriving DecidableEq, Repr

/-- A fetched command: its descriptors, the head of its SQ after it, its place in the order in which doorbells made
commands visible, the status that its check refuses it with, and whether it has begun (R336, R337, R340). -/
structure Cmd where
  descs : List (List Byte)
  head : Nat
  order : Nat
  refuse : Option Nat
  begun : Bool
deriving DecidableEq, Repr

/-- The fetched commands of an SQ, in ring order, and a chain that is not whole yet. -/
structure Sq where
  cmds : List Cmd
  part : List (List Byte)
deriving DecidableEq, Repr

/-- What an endpoint keeps of the order of doorbells: ring r gained entries up to this tail index at this place. -/
structure Bell where
  ring : Nat
  tail : Nat
  order : Nat
deriving DecidableEq, Repr

/-- An MSI-X vector (R325): its message address and data, its mask and pending bits, its unsignalled records,
whether a due message waits for the L1 exit, and the device time of the first unsignalled record. -/
structure Vec where
  addr : Nat
  data : Nat
  masked : Bool
  pend : Bool
  count : Nat
  due : Bool
  first : Nat
deriving DecidableEq, Repr

/-- A TLP the endpoint received, or what it sent. -/
inductive Sent where
  /-- An MSI-X message of vector v (R325). -/
  | msix (v : Nat)
  /-- A PM_PME message (R326). -/
  | pme
  /-- A completion with status (0 successful, 1 UR, 2 retry, 4 CA), its data words, and whether it is poisoned. -/
  | cpl (status : Nat) (data : List Word) (poison : Bool)
deriving DecidableEq, Repr

/-- The endpoint beside its registers (R318 to R327): configuration settings, the vectors, what it sent and the host
has not taken, PERST_N held, and the order of doorbells. -/
structure Pcie where
  memSpace : Bool
  busMaster : Bool
  funcMask : Bool
  msixEn : Bool
  pmeEn : Bool
  pmeStatus : Bool
  subsys : Nat
  serial : Nat
  vecs : SMap Vec
  sent : List Sent
  perst : Bool
  /-- A hot reset, link disable or DL_Down that ends when the link trains again (R327). -/
  dlDown : Bool
  poisonLog : Bool
  statSeen : Bool
deriving DecidableEq, Repr

/-- A vector after reset: masked, as the base specification has it. -/
def Vec.reset : Vec := { addr := 0, data := 0, masked := true, pend := false, count := 0, due := false, first := 0 }

/-- An SQ with nothing fetched. Assumption 8 (DESIGN CHOICE). -/
def Sq.reset : Sq := { cmds := [], part := [] }

/-- The endpoint after reset. Assumption 8 (DESIGN CHOICE). -/
def Pcie.reset : Pcie :=
  { memSpace := false, busMaster := false, funcMask := false, msixEn := false, pmeEn := false, pmeStatus := false,
    subsys := 0, serial := 0, vecs := .empty, sent := [], perst := false, dlDown := false, poisonLog := false, statSeen := false }

end Sys2Proof.Machine
end

