-- ==== Sys2Proof/Machine/State.lean ====
section
/-!
DEFINITION. The state of the block: its memories, its registers and all it holds beside them, and the queue of the
commands that wait. State.reset is the machine right after power-on reset.
-/
namespace Sys2Proof.Machine

/-- A cluster island beside its registers (R118, R133, R476). -/
structure Cluster where
  /-- The clock is stopped by a debug halt (R35). -/
  halted : Bool
  /-- Its halt sequence runs (R476). -/
  halting : Bool
  /-- A release written while the sequence runs (R477). -/
  relPend : Bool
  /-- The carrier reference: ccyc since release from reset (R118). -/
  ref : Nat
  /-- The cluster watchdog: ccyc left, and its warning source asserts (R282). -/
  cwdtLeft : Nat
  cwdtWarn : Bool
  /-- Changes of driven GPIO balls in the synchroniser: ball, level and ccyc, oldest first (R203). -/
  sync : List (Nat × Bool × Nat)
deriving DecidableEq, Repr

/-- The memories. bytes holds every byte of the fabric address space that is memory (boot ROM, Hallmark private memory,
ingot banks, flash window, DDR4: R22); tags and err hold the tag and the ECC state of ingot and private words by word
address (R13, R291: err 1 a single-bit, 2 a double-bit error); host is host memory as the device reads and writes it.
Assumption 10 (DESIGN CHOICE). -/
structure Memory where
  bytes : SMap Byte
  tags : SMap Nat
  err : SMap Nat
  host : SMap Byte
deriving DecidableEq, Repr

/-- Everything of the block but its memories and its queue. -/
structure Dev where
  part : Part
  /-- ccyc since reset. -/
  now : Nat
  /-- The number of the next free value (Config.freeNat): the model's own field. -/
  free : Nat
  /-- Every register by its fabric address; one that is not listed holds its value after power-on reset. -/
  regs : SMap Word
  /-- Unlock windows: unlock register and writer, and the ccyc since the key in which the writer's cycles counted (R12). -/
  windows : List ((Nat × Writer) × Nat)
  time : TimeS
  /-- The clock monitor holds the device in reset until the supplies are cycled (R32). -/
  clkHeld : Bool
  clusters : SMap Cluster
  crossing : List CrossItem
  due : List Due
  /-- The internal event buffer, oldest first, and records dropped for an EQ since its last EVENTS_LOST (R350). -/
  events : List EvRec
  lostFor : SMap Nat
  /-- The writer's queue of Touchmark records, and records dropped since the last commit (R435). -/
  tchQueue : List TchRec
  tchDropped : Nat
  /-- Values of more than 32 bits whose low half a _LO register shows, by the address of that register: times of
  64 bits, and the counts of the event counters of 48 (R481). -/
  wide : SMap Nat
  lanes : SMap Lane
  axes : SMap Axis
  interps : SMap Interp
  tiles : SMap Tile
  chans : SMap Chan
  /-- Modulator clocks that drain after en was cleared, and the carrier reference of the first rising edge of each since
  it started (R99, R100). -/
  draining : List Nat
  sdcAt : SMap Nat
  pwms : SMap Pwm
  fbks : SMap Fbk
  encs : SMap EncOut
  grps : SMap Grp
  combs : SMap Comb
  timers : SMap Tmr
  engs : SMap Eng
  /-- Words of the clusters' ingot banks 15, by fabric address: segment queues and cam tables (R177). -/
  bank15 : SMap Word
  cores : SMap Core
  /-- Owner codes plus 1 that wait for the drain of the old owner's stores, by bank (R285). -/
  ownNext : SMap Nat
  /-- The DDR4 block that patrol scrub reads next, and the ccyc of its latest read (R295). -/
  scrubAt : Nat
  scrubCcyc : Nat
  cru : Cru
  /-- The core pairs: 2 × cluster + p, and 8 for the bench pair (R299). -/
  corePairs : SMap Pair
  sqs : SMap Sq
  /-- The order of doorbells of SQs, oldest first, and the next place in it. -/
  bells : List Bell
  nextOrder : Nat
  pcie : Pcie
  sem : Sem
  slds : SMap Sld
  fls : Fls
  tch : Tch
  hlm : Hlm
  tap : Tap
  caps : SMap Cap
  /-- Event counters of mode edge whose level source was high in the latest ccyc (R482). -/
  evcHigh : List Nat
  /-- For each event counter, 1 more than the ccyc of its latest counted pulse (R481). -/
  evcAt : SMap Nat
  /-- Event counters that a hit with thr_clr clears in the next ccyc (R482). -/
  evcClr : List Nat
  /-- Commands that run or wait, and completions that await their record (R344). -/
  waits : List Wait
  cpls : List Cpl
  /-- The value the latest register read returned. -/
  rdata : Word
deriving DecidableEq, Repr

/-- The state of the block. -/
structure State where
  mem : Memory
  dev : Dev
  /-- The commands that wait, first in, first out. -/
  pending : List Instr
deriving DecidableEq, Repr

/-- Why the machine stops with a fault: nothing in this model does. Assumption 5 (DEDUCED). -/
inductive Fault where
deriving DecidableEq, Repr

/-- Why a command has no meaning. Assumption 5 (DEDUCED). -/
inductive Refusal where
  /-- The command of this mnemonic is not modelled. Raised by exec; safe: nothing can be proved of the command. -/
  | notModelled (mnemonic : String)
deriving DecidableEq, Repr

/-- A port snapshot with nothing valid. -/
def PortIn.none : PortIn :=
  { ia := 0, ib := 0, ic := 0, pos := 0, spd := 0, spos := 0, setp := 0, setpf := 0, setv := 0, seta := 0,
    region := 0, ts := 0, okIa := false, okIb := false, okIc := false, okPos := false, okSpos := false,
    okSet := false, regchg := false }

/-- A bank of working registers after reset (a named value: the spec gives none). Assumption 8 (DESIGN CHOICE). -/
def LaneBank.reset : LaneBank := { t := .empty, acc := 0, z := false, n := false, s := false }

/-- A slot after reset: not valid (R70). -/
def Slot.reset : Slot :=
  { cfg := 0, vel := 0, pos := 0, sched := 0, k := none, endCur := false, endVel := false, endPos := false, emuPos := 0, emuOut := none }

/-- A lane after reset. Assumption 8 (DESIGN CHOICE). -/
def Lane.reset : Lane :=
  { fg := .reset, bg := .reset, cur := none, job := none, released := [], publish := [], ldm := [], out := [], law := .empty,
    lawErr := .empty, var := .empty, gain := .empty, staged := [], stagedTop := [], slots := .empty, paired := false,
    primary := false, pairReq := 0 }

/-- An axis after reset: RETIRED (R93). Assumption 8 (DESIGN CHOICE). -/
def Axis.reset : Axis :=
  { missed := false, curMiss := false, target := 1, retiring := false, rampV := 0, rampHold := false, rampT := 0, rampNeg := false,
    rampHoldT := 0, tchRank := 0, faultAt := none, actEnd := none, trans := [], enReq := 0, driveReady := false, smp := none, smpRef := 0,
    adm := none }

/-- An interpolator after reset. Assumption 8 (DESIGN CHOICE). -/
def Interp.reset : Interp :=
  { run := none, head := 0, len := 0, waitT := none, outP := 0, retake := false, enq := [], enAt := 0, next := none,
    hist := [] }

/-- A Drawplate tile after reset. Assumption 8 (DESIGN CHOICE). -/
def Tile.reset : Tile := { delaying := false, opened := false, evt := 0, lost := [], cut := 0, corr := .empty, formed := [] }

/-- A Drawplate channel after reset. -/
def Chan.reset : Chan := { oc := 0, raising := false, since := 0, prior := 0, ocSince := 0, act := 0 }

/-- A PWM unit after reset: all switches off, dead time as PWM_DT resets (R136). Assumption 8 (DESIGN CHOICE). -/
def Pwm.reset : Pwm := { counts := false, on := 0, rise := [], keep := [], hiOff := 0, latched := false, dt := 0x001003FF, dropped := 0, evt := none }

/-- A feedback channel after reset. Assumption 8 (DESIGN CHOICE). -/
def Fbk.reset : Fbk :=
  { lvA := false, lvB := false, lvZ := false, pinA := false, pinB := false, pinZ := false, presetAt := none, cntAt := none,
    moved := false, cnt := none, ref := none, rev := false, illegal := false,
    disagreed := false, first := true, hist := [], latHist := [], lcSkip := true, lcDis := false, lcOld := none, dis := 0, disAt := 0,
    ser := none, serOk := false, serPrev := none,
    rscHigh := false, rscPulsed := false, rscRise := 0, rscLow := 0 }

/-- An encoder output channel after reset. Assumption 8 (DESIGN CHOICE). -/
def EncOut.reset : EncOut :=
  { acc := 0, count := 0, todo := 0, spacing := 16, edgeAt := none, ballA := false, ballB := false, ballZ := false }

/-- A coordination group after reset. -/
def Grp.reset : Grp := { early := false }

/-- A timer after reset. Assumption 8 (DESIGN CHOICE). -/
def Tmr.reset : Tmr :=
  { phase := 0, hit := none, carry := false, ahead := false, cntAt := none, resetAt := none, startAt := none, cfgAt := none }

/-- An engine after reset. Assumption 8 (DESIGN CHOICE). -/
def Eng.reset : Eng :=
  { crc := 0, feed := false, stamp := 0, inq := [], outq := [], ir := none, left := 0, pins := 0, edge := false, waitAt := 0, heldAt := 0, rel := false,
    passed := false }

/-- A combiner after reset. Assumption 8 (DESIGN CHOICE). -/
def Comb.reset : Comb := { latch := 0, held := false, trueAt := 0, firedAt := none, armAt := none }

/-- A cluster after reset: its clock would run; GLB_RST_CTL holds it in reset (R465). -/
def Cluster.reset : Cluster := { halted := false, halting := false, relPend := false, ref := 0, cwdtLeft := 0, cwdtWarn := false, sync := [] }

/-- Device time after a device reset (R37). Assumption 8 (DESIGN CHOICE). -/
def TimeS.reset : TimeS :=
  { master := 0, copies := .empty, reload := [], mode := 0, stepDue := false, ePrev := none, lockRun := 0,
    missed := 0, edgeAt := 0, syncOut := false, syncRose := 0, syncFired := none, bound := none, stamps := .empty }

/-- What an unlisted byte of memory reads as: erased flash reads 0xFF, every other memory 0.
Assumption 9 (DESIGN CHOICE). -/
def byteDflt (addr : Nat) : Byte := if 0x04000000 ≤ addr ∧ addr < 0x08000000 then 0xFF else 0

/-- The memories after reset: nothing listed. Assumption 9 (DESIGN CHOICE). -/
def Memory.reset : Memory := { bytes := .empty, tags := .empty, err := .empty, host := .empty }

/-- The device after power-on reset. Assumptions 3, 8 (DESIGN CHOICE). -/
def Dev.reset : Dev :=
  { part := .pdl64, now := 0, free := 0, regs := .empty, windows := [], time := .reset, clkHeld := false,
    clusters := .empty, crossing := [], due := [], events := [], lostFor := .empty, tchQueue := [], tchDropped := 0, wide := .empty,
    lanes := .empty, axes := .empty, interps := .empty, tiles := .empty, chans := .empty, draining := [], sdcAt := .empty,
    pwms := .empty, fbks := .empty, encs := .empty, grps := .empty, combs := .empty, timers := .empty, engs := .empty, bank15 := .empty, cores := .empty, ownNext := .empty, scrubAt := 0, scrubCcyc := 0, cru := .reset, corePairs := .empty, sqs := .empty,
    bells := [], nextOrder := 0, pcie := .reset, sem := .reset, slds := .empty, fls := .reset, tch := .reset, hlm := .reset,
    tap := .reset, caps := .empty, evcHigh := [], evcAt := .empty, evcClr := [], waits := [], cpls := [], rdata := 0 }

/-- The machine right after reset. -/
def State.reset : State := { mem := .reset, dev := .reset, pending := [] }

end Sys2Proof.Machine
end

