-- ==== Sys2Proof/Machine/Ops.lean ====
section
/-!
DEFINITION. The named operations every meaning is written from: registers and their fields, clusters, time stamps,
event records, Touchmark records, event counters and Flux sources.
-/
namespace Sys2Proof.Machine

/-- The outcome of every meaning. -/
abbrev Out := Host.Outcome State Fault Refusal

/-- The device changed by f. -/
def State.upd (s : State) (f : Dev → Dev) : Out := .next { s with dev := f s.dev }

/-- The device changed by f, which also reads the memories. -/
def State.updM (s : State) (f : Memory → Dev → Dev) : Out := .next { s with dev := f s.mem s.dev }

/-- Memories and device changed by f. -/
def State.updB (s : State) (f : Memory → Dev → Memory × Dev) : Out :=
  .next { s with mem := (f s.mem s.dev).1, dev := (f s.mem s.dev).2 }

/-- f if b holds, else nothing. -/
def when {α : Type} (b : Bool) (f : α → α) (x : α) : α := if b then f x else x

/-- f with the value of o, if it has one. -/
def withSome {α β : Type} (o : Option β) (f : β → α → α) (x : α) : α :=
  match o with
  | some v => f v x
  | none => x

/-! ## Registers -/

/-- One index of a register from what is left of its offset. -/
def groupIdx : List (Nat × Nat) → Nat → Nat → Option (Nat × Nat)
  | [], rem, acc => some (acc, rem)
  | (cnt, st) :: r, rem, acc => if rem / st < cnt then groupIdx r (rem % st) (acc * cnt + rem / st) else none

/-- The indexes of a register from its offset. -/
def classIdx : List (List (Nat × Nat)) → Nat → Option (List Nat)
  | [], rem => if rem = 0 then some [] else none
  | g :: gs, rem =>
    match groupIdx g rem 0 with
    | some (i, r) => (classIdx gs r).map (i :: ·)
    | none => none

/-- The indexes under which an address names a register of a class, the first one counted from the class's origin. -/
def RegClass.indexes (k : RegClass) (addr : Nat) : Option (List Nat) :=
  if addr < k.base then none
  else match classIdx k.groups (addr - k.base) with
    | some (i :: r) => some ((i + k.org) :: r)
    | o => o

/-- The register tables that can hold an address (R26, R27). -/
def blockTables (addr : Nat) : List RegClass :=
  if addr < 0x02000000 then []
  else if addr < 0x02100000 then regsGLB ++ regsANV ++ regsING ++ regsASY
  else if addr < 0x02200000 then regsLDL
  else if addr < 0x02300000 then regsMEM
  else if addr < 0x02400000 then regsHLM
  else if addr < 0x02410000 then regsSEM
  else if addr < 0x02500000 then regsSLD
  else if addr < 0x02600000 then regsCRU
  else if addr < 0x02700000 then regsTCH
  else if addr < 0x02708000 then regsDBG
  else if addr < 0x02800000 then regsEVC
  else match (addr - 0x02800000) % 0x00200000 / 0x10000 with
    | 0 => regsPLN | 1 => regsAXS | 2 => regsPWM | 3 => regsFBK | 4 => regsDRW | 5 => regsTMR | 6 => regsCHS
    | 7 => regsFLX | 8 => regsING | 9 => regsANV | 10 => regsASY | 11 => regsEVC
    | _ => []

/-- The first class of a table that an address names, with its indexes. -/
def findClass (addr : Nat) : List RegClass → Option (RegClass × List Nat)
  | [] => none
  | k :: r =>
    match k.indexes addr with
    | some ix => some (k, ix)
    | none => findClass addr r

/-- The register an address names; none at a reserved address (R23). -/
def regAt (addr : Nat) : Option (RegClass × List Nat) := findClass addr (blockTables addr)

/-- The clusters of a part (R2), as a mask. Assumption 3 (DESIGN CHOICE). -/
def partMask : Part → Nat
  | .pdl16 => 1
  | .pdl32 => 3
  | .pdl64 => 15

/-- The response column of R86 as AXS_FRMAP word k resets to it (R98); DEBUG_HALT, whose column gives no code, resets to 4.
Assumption 81 (DESIGN CHOICE). -/
def frmapReset : Nat → Nat
  | 0 => 0x44244440
  | 1 => 0x02224444
  | 2 => 0x00000042
  | 3 => 0x44444444
  | _ => 0

/-- The value a register holds after power-on reset: its table's, and where the table says variant, own or see text,
what that text says (R5, R98, R116, R136, R163, R297, R317, R469). -/
def classReset (p : Part) (k : RegClass) (ix : List Nat) : Nat :=
  let base := k.fields.foldl (fun n f => n + f.reset * 2 ^ f.fld.lo) 0
  match k.name, ix with
  | .GLB_ID, _ => base + partMask p * 2 ^ 12 + (match p with | .pdl16 => 1 | .pdl32 => 2 | .pdl64 => 4)
  | .GLB_RST_CTL, _ => base + partMask p * 16
  | .AXS_FRMAP, [_, w] => frmapReset w
  | .DRW_CH_CFG, h :: _ => base + (h % 48) * 2 ^ 16
  | .PWM_STO_MAP, g :: _ => if g % 8 = 0 then 0xFFFF else 0
  | .FBK_EO_RATIO, _ => if p = .pdl64 then 0x00010001 else 0
  | .FBK_EO_SCALE, _ => if p = .pdl64 then 0 else 0x01000000
  | .ASY_PAIR_CTL, q :: _ => if q = 8 then base + 2 ^ 31 else base
  | .ING_BANK_OWN, b :: _ => if b < 64 ∧ b % 16 = 15 then 0xE else if b = 71 then 0xD else 0
  | .ING_BANK_SHARE, b :: _ => if b < 64 ∧ b % 16 = 15 then 0xF0 else if b = 71 then 0xCC else 0
  | _, _ => base

/-- The value a register address holds after power-on reset. -/
def regReset (p : Part) (addr : Nat) : Word :=
  match regAt addr with
  | some (k, ix) => w32 (classReset p k ix)
  | none => 0

/-- The content of the register at an address. -/
def Dev.rd (d : Dev) (addr : Nat) : Word :=
  match alookup addr d.regs.entries with
  | some v => v
  | none => regReset d.part addr

/-- The register at an address set to v, whatever its access codes: what hardware itself does. -/
def Dev.wr (d : Dev) (addr : Nat) (v : Word) : Dev :=
  { d with regs := mset (regReset d.part addr) d.regs addr v }

/-- A field of a register. -/
def Dev.fld (d : Dev) (addr : Nat) (f : Fld) : Nat := fget f (d.rd addr)

/-- A register with one field set. -/
def Dev.setF (d : Dev) (addr : Nat) (f : Fld) (n : Nat) : Dev := d.wr addr (fput f (d.rd addr) n)

/-- A one-bit field as a Boolean. -/
def Dev.flag (d : Dev) (addr : Nat) (f : Fld) : Bool := d.fld addr f != 0

/-- A one-bit field set to a Boolean. -/
def Dev.setB (d : Dev) (addr : Nat) (f : Fld) (b : Bool) : Dev := d.setF addr f (b2n b)

/-- A counting field plus one, saturating. -/
def Dev.incF (d : Dev) (addr : Nat) (f : Fld) : Dev := d.setF addr f (satInc f.wid (d.fld addr f))

/-- A counting field plus one, wrapping. -/
def Dev.incW (d : Dev) (addr : Nat) (f : Fld) : Dev := d.setF addr f (d.fld addr f + 1)

/-- A field that a table's register does not hold until written: 0 where the register is not listed. -/
def Dev.fldIf (d : Dev) (addr : Nat) (f : Fld) : Nat :=
  match alookup addr d.regs.entries with
  | some v => fget f v
  | none => 0

/-- The 64-bit value whose low half the register at an address shows. -/
def Dev.wide64 (d : Dev) (addr : Nat) : Nat := mget 0 d.wide addr

/-- A 64-bit value put behind its _LO register. -/
def Dev.setWide (d : Dev) (addr n : Nat) : Dev :=
  ({ d with wide := mset 0 d.wide addr n } : Dev).wr addr (w32 n)

/-! ## Parts of the device -/

/-- What lane n holds. -/
def Dev.lane (d : Dev) (n : Nat) : Lane := mget .reset d.lanes n
/-- Lane n changed by f. -/
def Dev.modLane (d : Dev) (n : Nat) (f : Lane → Lane) : Dev := { d with lanes := mset .reset d.lanes n (f (d.lane n)) }
/-- What axis a holds beside its registers. -/
def Dev.axis (d : Dev) (a : Nat) : Axis := mget .reset d.axes a
/-- Axis a changed by f. -/
def Dev.modAxis (d : Dev) (a : Nat) (f : Axis → Axis) : Dev := { d with axes := mset .reset d.axes a (f (d.axis a)) }
/-- The interpolator of axis a. -/
def Dev.interp (d : Dev) (a : Nat) : Interp := mget .reset d.interps a
/-- The interpolator of axis a changed by f. -/
def Dev.modInterp (d : Dev) (a : Nat) (f : Interp → Interp) : Dev :=
  { d with interps := mset .reset d.interps a (f (d.interp a)) }
/-- The Drawplate tile of axis a. -/
def Dev.tile (d : Dev) (a : Nat) : Tile := mget .reset d.tiles a
/-- The Drawplate tile of axis a changed by f. -/
def Dev.modTile (d : Dev) (a : Nat) (f : Tile → Tile) : Dev := { d with tiles := mset .reset d.tiles a (f (d.tile a)) }
/-- Drawplate channel h. -/
def Dev.chan (d : Dev) (h : Nat) : Chan := mget .reset d.chans h
/-- Drawplate channel h changed by f. -/
def Dev.modChan (d : Dev) (h : Nat) (f : Chan → Chan) : Dev := { d with chans := mset .reset d.chans h (f (d.chan h)) }
/-- The PWM unit of axis a. -/
def Dev.pwm (d : Dev) (a : Nat) : Pwm := mget .reset d.pwms a
/-- The PWM unit of axis a changed by f. -/
def Dev.modPwm (d : Dev) (a : Nat) (f : Pwm → Pwm) : Dev := { d with pwms := mset .reset d.pwms a (f (d.pwm a)) }
/-- The feedback channel of axis a. -/
def Dev.fbk (d : Dev) (a : Nat) : Fbk := mget .reset d.fbks a
/-- The feedback channel of axis a changed by f. -/
def Dev.modFbk (d : Dev) (a : Nat) (f : Fbk → Fbk) : Dev := { d with fbks := mset .reset d.fbks a (f (d.fbk a)) }
/-- Encoder output channel k. -/
def Dev.enc (d : Dev) (k : Nat) : EncOut := mget .reset d.encs k
/-- Encoder output channel k changed by f. -/
def Dev.modEnc (d : Dev) (k : Nat) (f : EncOut → EncOut) : Dev := { d with encs := mset .reset d.encs k (f (d.enc k)) }
/-- Combiner k of the device (cluster × 8 + local number). -/
def Dev.comb (d : Dev) (k : Nat) : Comb := mget .reset d.combs k
/-- Combiner k changed by f. -/
def Dev.modComb (d : Dev) (k : Nat) (f : Comb → Comb) : Dev := { d with combs := mset .reset d.combs k (f (d.comb k)) }
/-- Timer t. -/
def Dev.tmr (d : Dev) (t : Nat) : Tmr := mget .reset d.timers t
/-- Timer t changed by f. -/
def Dev.modTmr (d : Dev) (t : Nat) (f : Tmr → Tmr) : Dev := { d with timers := mset .reset d.timers t (f (d.tmr t)) }
/-- Chasing engine e. -/
def Dev.eng (d : Dev) (e : Nat) : Eng := mget .reset d.engs e
/-- Chasing engine e changed by f. -/
def Dev.modEng (d : Dev) (e : Nat) (f : Eng → Eng) : Dev := { d with engs := mset .reset d.engs e (f (d.eng e)) }
/-- Coordination group g. -/
def Dev.grp (d : Dev) (g : Nat) : Grp := mget .reset d.grps g
/-- Coordination group g changed by f. -/
def Dev.modGrp (d : Dev) (g : Nat) (f : Grp → Grp) : Dev := { d with grps := mset .reset d.grps g (f (d.grp g)) }
/-- Cluster c beside its registers. -/
def Dev.cluster (d : Dev) (c : Nat) : Cluster := mget .reset d.clusters c
/-- Cluster c changed by f. -/
def Dev.modCluster (d : Dev) (c : Nat) (f : Cluster → Cluster) : Dev :=
  { d with clusters := mset .reset d.clusters c (f (d.cluster c)) }

/-- Core k beside its registers. -/
def Dev.core (d : Dev) (k : Nat) : Core := mget .reset d.cores k
/-- Core pair q: 2 × cluster + p, or 8 for the bench pair. -/
def Dev.pair (d : Dev) (q : Nat) : Pair := mget .reset d.corePairs q
/-- Core pair q changed by f. -/
def Dev.modCorePair (d : Dev) (q : Nat) (f : Pair → Pair) : Dev :=
  { d with corePairs := mset .reset d.corePairs q (f (d.pair q)) }
/-- The fetched commands of SQ r. -/
def Dev.sqOf (d : Dev) (r : Nat) : Sq := mget .reset d.sqs r
/-- SQ r changed by f. -/
def Dev.modSq (d : Dev) (r : Nat) (f : Sq → Sq) : Dev := { d with sqs := mset .reset d.sqs r (f (d.sqOf r)) }
/-- Solder bus port p. -/
def Dev.sld (d : Dev) (p : Nat) : Sld := mget .reset d.slds p
/-- Solder bus port p changed by f. -/
def Dev.modSld (d : Dev) (p : Nat) (f : Sld → Sld) : Dev := { d with slds := mset .reset d.slds p (f (d.sld p)) }
/-- Capture k. -/
def Dev.cap (d : Dev) (k : Nat) : Cap := mget .reset d.caps k
/-- Capture k changed by f. -/
def Dev.modCap (d : Dev) (k : Nat) (f : Cap → Cap) : Dev := { d with caps := mset .reset d.caps k (f (d.cap k)) }
/-- The Seam link changed by f. -/
def Dev.modSem (d : Dev) (f : Sem → Sem) : Dev := { d with sem := f d.sem }
/-- The flash routine changed by f. -/
def Dev.modFls (d : Dev) (f : Fls → Fls) : Dev := { d with fls := f d.fls }
/-- The Touchmark writer changed by f. -/
def Dev.modTch (d : Dev) (f : Tch → Tch) : Dev := { d with tch := f d.tch }
/-- The Hallmark changed by f. -/
def Dev.modHlm (d : Dev) (f : Hlm → Hlm) : Dev := { d with hlm := f d.hlm }
/-- The TAP changed by f. -/
def Dev.modTap (d : Dev) (f : Tap → Tap) : Dev := { d with tap := f d.tap }
/-- The endpoint changed by f. -/
def Dev.modPcie (d : Dev) (f : Pcie → Pcie) : Dev := { d with pcie := f d.pcie }
/-- Core k changed by f. -/
def Dev.modCore (d : Dev) (k : Nat) (f : Core → Core) : Dev := { d with cores := mset .reset d.cores k (f (d.core k)) }

/-! ## Clusters -/

/-- The part has cluster c (R2). Assumption 3 (DESIGN CHOICE). -/
def Dev.hasCluster (d : Dev) (c : Nat) : Bool := (partMask d.part).testBit c

/-- Cluster c is out of reset (R465). -/
def Dev.released (d : Dev) (c : Nat) : Bool := d.hasCluster c && !((d.fld GLB_RST_CTL GLB_RST_CTL_in_rst).testBit c)

/-- The clock of cluster c runs: the part has it, it is out of reset and not halted (R2, R35, R465). -/
def Dev.clusterRuns (d : Dev) (c : Nat) : Bool := d.released c && !(d.cluster c).halted && !d.clkHeld

/-- A step of cluster c: nothing happens in a cluster whose clock does not run. -/
def State.onCluster (s : State) (c : Nat) (f : Dev → Dev) : Out :=
  s.upd fun d => when (d.clusterRuns c) f d

/-- A step of cluster c that reads the memories. -/
def State.onClusterM (s : State) (c : Nat) (f : Memory → Dev → Dev) : Out :=
  s.updM fun m d => when (d.clusterRuns c) (f m) d

/-- The cluster of an axis (R6). -/
def axCl (a : Nat) : Nat := a / 16

/-- The local number of an axis (R6). -/
def axLo (a : Nat) : Nat := a % 16

/-- A debug halt of cluster c begins for a cause, and, for causes 2 to 5, of every cluster in halt_link (R476); DBG_HALT
carries it out. -/
def haltStart (c cause idx : Nat) (d : Dev) : Dev :=
  let one := fun (j cs ix : Nat) (x : Dev) =>
    if !x.clusterRuns j || (x.cluster j).halting then x
    else
      let x1 := (x.modCluster j fun y => { y with halting := true }).wr (DBG_HALT_CAUSE j) (w32 (cs * 2 ^ 24 + ix * 2 ^ 16))
      let x2 := x1.setF DBG_STAT DBG_STAT_halt_pend (setBit (x1.fld DBG_STAT DBG_STAT_halt_pend) j true)
      ({ x2 with wide := mset 0 x2.wide DBG_HALT_T_LO (mget 0 x2.time.copies j) } : Dev).wr DBG_HALT_T_LO
        (w32 (mget 0 x2.time.copies j))
  let d1 := one c cause idx d
  if 2 ≤ cause ∧ cause ≤ 5 then
    upTo 4 (fun j => when (j != c && (d.fld DBG_CTL DBG_CTL_halt_link).testBit j) (one j 6 0)) d1
  else d1

/-- A source outside the clusters starts towards every enabled cluster of the part, through handshake crossings (R17,
R186, R237, R388). -/
def fluxToAll (isl : Island) (src : Nat) (d : Dev) : Dev :=
  let one := fun (c : Nat) => CrossItem.mk isl (.cl (Fin.ofNat 4 c)) (.flux c src)
  { d with crossing := d.crossing ++ ((List.range 4).filter d.released).map one }

/-! ## Free values and time -/

/-- The device with the next free value used up. Assumption 6 (DESIGN CHOICE). -/
def Dev.bump (d : Dev) : Dev := { d with free := d.free + 1 }

/-- The next free value. Assumption 6 (DESIGN CHOICE). -/
def Dev.open_ (d : Dev) : Nat := Config.freeNat d.free

/-- The island's code in event and Touchmark records (R349). -/
def islCode : Island → Nat
  | .hi => 0 | .mi => 1 | .li => 2 | .ai => 3 | .si => 4 | .ao => 5
  | .cl c => 0x10 + c.val

/-- The device-time copy of cluster c. -/
def Dev.copy (d : Dev) (c : Nat) : Nat := mget 0 d.time.copies c

/-- Ticks by which the copy of the link island lies behind, p ccyc after a coincident edge: none at the edge, at most 2,
and such that the copy never runs backwards (R36). Assumption 17 (DEDUCED). -/
def liBack (p : Nat) : Nat := if p = 0 then 0 else p - (List.range (p + 1)).foldl (fun m q => max m (q - Config.liLag q % 3)) 0

/-- Device time in the link island: its copy, which advances by 64 ticks from one coincident edge to the next, less what
it lies behind between them (R30, R36). Assumption 17 (DEDUCED). -/
def Dev.liTime (d : Dev) : Nat := d.copy 4 - liBack (d.now % 64)

/-- A time stamp in the island of this code (R36): the copy of a cluster; the master in HI; the link island's copy; and
for MI, AI, SI and AO the master less the 0 to 2 ticks (free) by which a stamp lies before its event, never before an
earlier stamp of that island, whose requests arrive in order. Assumption 17 (DEDUCED). -/
def Dev.stamp (d : Dev) (isl : Nat) : Nat :=
  if 0x10 ≤ isl then d.copy (isl - 0x10)
  else if isl = 0 then d.time.master
  else if isl = 2 then d.liTime
  else
    let t := d.time.master - d.open_ % 3
    let u := mget 0 d.time.stamps isl
    if u ≤ d.time.master then max t u else t

/-- The free value of a stamp in the island of this code is used up, and the stamp is that island's latest. -/
def Dev.stamped (d : Dev) (isl : Nat) : Dev :=
  let own : Bool := isl == 1 || (decide (3 ≤ isl) && decide (isl < 0x10))
  { d with
    free := d.free + 1
    time := when own (fun t => { t with stamps := mset 0 t.stamps isl (d.stamp isl) }) d.time }

/-! ## What is due -/

/-- The step x left for later. -/
def Dev.addDue (d : Dev) (x : Due) : Dev := if x ∈ d.due then d else { d with due := d.due ++ [x] }

/-- The step x no longer due. -/
def Dev.dropDue (d : Dev) (x : Due) : Dev := { d with due := d.due.filter (· != x) }

/-- The steps that p picks no longer due. -/
def Dev.dropDues (d : Dev) (p : Due → Bool) : Dev := { d with due := d.due.filter fun x => !p x }

/-! ## Status codes and waiting commands (R344, R359) -/

/-- The status codes of R359. -/
def stOk : Nat := 0x0000
def stOkWarning : Nat := 0x0001
def stBadOpcode : Nat := 0x0100
def stBadParam : Nat := 0x0101
def stBadTarget : Nat := 0x0102
def stNotPermitted : Nat := 0x0103
def stAuthFailed : Nat := 0x0104
def stBusy : Nat := 0x0105
def stAbortedDisabled : Nat := 0x0106
def stAbortedReset : Nat := 0x0107
def stAdmissionRefused : Nat := 0x0200
def stNotErased : Nat := 0x0300
def stVerifyFailed : Nat := 0x0301
def stBankBusy : Nat := 0x0302
def stUnreachable : Nat := 0x0400
def stTimeout : Nat := 0x0500
def stTransferFailed : Nat := 0x0600
def stImageRejected : Nat := 0x0700

/-- The commands under way that p picks complete with this status and result, oldest first. -/
def endWaits (p : Wait → Bool) (status result : Nat) (d : Dev) : Dev :=
  { d with
    waits := d.waits.filter fun w => !p w
    cpls := d.cpls ++ (d.waits.filter p).map fun w => ⟨w.sq, w.cid, status, result⟩ }

/-! ## Event counters (R481 to R484) -/

/-- The threshold of event counter e (R482). -/
def Dev.evcThr (d : Dev) (e : Nat) : Nat :=
  (d.rd (EVC_THR_LO e)).toNat + d.fld (EVC_THR_HI e) EVC_THR_HI_thr_hi * 2 ^ 32

/-- One count of event counter e: it wraps at 2^48 with ovf set, and reaching the threshold leaves the hit due
(R481, R482, and by counting R28). -/
def evcTick (e : Nat) (d : Dev) : Dev :=
  let v := (d.wide64 (EVC_CNT_LO e) + 1) % 2 ^ 48
  let d1 := d.setWide (EVC_CNT_LO e) v
  let d2 := when (v == 0) (·.setB (EVC_CFG e) EVC_CFG_ovf true) d1
  when (d.flag (EVC_CFG e) EVC_CFG_thr_en && v == d.evcThr e) (·.addDue (.evcThr e false)) d2

/-- A pulse for event counter e, which counts at most one per ccyc (R481): f is what the count does. -/
def evcPulse (e : Nat) (f : Dev → Dev) (d : Dev) : Dev :=
  if mget 0 d.evcAt e = d.now + 1 then d else f { d with evcAt := mset 0 d.evcAt e (d.now + 1) }

/-- A count for global counter e enters the crossing from island i into HI (R33, R481). -/
def evcCross (i : Island) (e : Nat) (d : Dev) : Dev := { d with crossing := d.crossing ++ [⟨i, .hi, .evc e⟩] }

/-- Event counter e is enabled, counts pulses and selects source src. -/
def Dev.evcSees (d : Dev) (e src : Nat) : Bool :=
  d.fldIf (EVC_CFG e) EVC_CFG_en == 1 && d.fldIf (EVC_CFG e) EVC_CFG_mode == 0 &&
    d.fldIf (EVC_CFG e) EVC_CFG_src == src

/-- A pulse of source src of cluster c: the cluster's counters that select it count it, and for each global counter
that selects it a count enters the crossing into HI (R481). -/
def evcCluster (c src : Nat) (d : Dev) : Dev :=
  let d1 := upTo 16 (fun n => when (d.evcSees (c * 16 + n) src) (evcPulse (c * 16 + n) (evcTick (c * 16 + n)))) d
  upTo 16 (fun n x =>
    if d.evcSees (80 + n) src && d.fldIf (EVC_CFG (80 + n)) EVC_CFG_cl == c then
      evcPulse (80 + n) (evcCross (.cl (Fin.ofNat 4 c)) (80 + n)) x else x) d1

/-- The island in which a source of the host and device catalogue lies (R15, R484). -/
def srcIsland (src : Nat) : Island :=
  if src < 0x300 then .hi else if src < 0x320 then .li else if src < 0x330 then .mi else if src < 0x340 then .ai
  else if src < 0x342 then .si else .ao

/-- A pulse of source src of the host and device catalogue (R484): host counters count the sources of HI at once;
global counters count every entry, those of other islands through a crossing (R481). -/
def evcDevice (src : Nat) (d : Dev) : Dev :=
  let d1 := upTo 16 (fun n => when (src < 0x228 && d.evcSees (64 + n) src) (evcPulse (64 + n) (evcTick (64 + n)))) d
  upTo 16 (fun n x =>
    if d.evcSees (80 + n) src then
      evcPulse (80 + n) (if src < 0x228 then evcTick (80 + n) else evcCross (srcIsland src) (80 + n)) x else x) d1

/-! ## Event records (R349, R350) -/

/-- The code of an event record of a class whose code the spec does not give. Assumption 7 (PRESUMED). -/
def evOpen (cls kind : Nat) : Nat := cls * 256 + Config.eventLow cls kind % 256

/-- The records a payload of so many words takes (R349: four words a record). -/
def EvRec.size (r : EvRec) : Nat := max 1 ((r.pay.length + 3) / 4)

/-- The records in the internal buffer. -/
def evLevel (l : List EvRec) : Nat := l.foldl (fun n r => n + r.size) 0

/-- The buffer set, and its level as LDL_GSTAT shows it. -/
def Dev.setEvents (d : Dev) (l : List EvRec) : Dev :=
  ({ d with events := l } : Dev).setF LDL_GSTAT LDL_GSTAT_evt_lvl (evLevel l)

/-- The EQ to which a class's records go: the routed ring if it is an EQ, else ring 2 (R349, R353). -/
def Dev.eqOf (d : Dev) (cls : Nat) : Nat :=
  let r := if 1 ≤ cls ∧ cls ≤ 12 then d.fld (LDL_EVT_ROUTE cls) LDL_EVT_ROUTE_eq else 2
  if d.flag (LDL_RING_CFG r) LDL_RING_CFG_valid && d.fld (LDL_RING_CFG r) LDL_RING_CFG_type == 3 then r else 2

/-- n records for EQ r are dropped: counted in its lost field, in LDL_EVT_DROP and for the next EVENTS_LOST (R350). -/
def loseEvents (r n : Nat) (d : Dev) : Dev :=
  let d1 := d.setF (LDL_RING_STAT r) LDL_RING_STAT_lost (satAdd 16 (d.fld (LDL_RING_STAT r) LDL_RING_STAT_lost) n)
  let d2 := d1.setF LDL_EVT_DROP LDL_EVT_DROP_dropped (satAdd 32 (d1.fld LDL_EVT_DROP LDL_EVT_DROP_dropped) n)
  evcDevice 0x206 { d2 with lostFor := mset 0 d2.lostFor r (mget 0 d2.lostFor r + n) }

/-- An event record is posted with a given time: it joins the internal buffer, or is dropped where the buffer has no
room, the EQ is in error, or no admin rings exist (R327, R350). -/
def postEventAt (code isl index time : Nat) (pay : List Nat) (d : Dev) : Dev :=
  let r : EvRec := ⟨d.eqOf (code / 256), code, isl, index, time, pay, false⟩
  if !d.flag LDL_ADMIN_CTL LDL_ADMIN_CTL_en || d.flag (LDL_RING_STAT r.eq) LDL_RING_STAT_err ||
      256 < evLevel d.events + r.size then loseEvents r.eq r.size d
  else d.setEvents (d.events ++ [r])

/-- An event record is posted with the time of this ccyc in its island (R36). -/
def postEvent (code isl index : Nat) (pay : List Nat) (d : Dev) : Dev :=
  (postEventAt code isl index (d.stamp isl) pay d).stamped isl

/-! ## Touchmark queue (R431, R435) -/

/-- A record for the Touchmark log joins the writer's queue of 8, or counts as dropped. -/
def postTouchmark (cause isl index : Nat) (pay : List Nat) (d : Dev) : Dev :=
  let r : TchRec := ⟨cause, isl, index, d.stamp isl, pay, false, d.fld TCH_HOLDUP TCH_HOLDUP_mv, d.fld GLB_TEMP GLB_TEMP_temp⟩
  if d.tchQueue.length < 8 then
    (({ d with tchQueue := d.tchQueue ++ [r] } : Dev).setF TCH_STAT TCH_STAT_queued (d.tchQueue.length + 1)).stamped isl
  else (({ d with tchDropped := satInc 16 d.tchDropped } : Dev).incF TCH_STAT TCH_STAT_dropped).stamped isl

/-! ## Flux sources and destinations (R185 to R192) -/

/-- The level of a position window as combiners see it (R189, R190). -/
def Dev.winLevel (d : Dev) (a : Nat) : Bool :=
  d.flag (FLX_WIN_CFG a) FLX_WIN_CFG_en && d.flag (FLX_WIN_CFG a) FLX_WIN_CFG_inside

/-- Source number of input i of combiner k. -/
def Dev.combSrc (d : Dev) (k i : Nat) : Nat :=
  bits (d.fld (FLX_COMB_IN (k / 8) (k % 8)) FLX_COMB_IN_in) (8 * i + 7) (8 * i)

/-- Input i of combiner k holds: a window's level, or the latch of any other source (R190). -/
def Dev.combInput (d : Dev) (k i : Nat) : Bool :=
  if d.combSrc k i < 16 then d.winLevel (k / 8 * 16 + d.combSrc k i) else (d.comb k).latch.testBit i

/-- The condition of combiner k: all enabled inputs, and at least one is enabled (R190). -/
def Dev.combCond (d : Dev) (k : Nat) : Bool :=
  let en := d.fldIf (FLX_COMB_CFG (k / 8) (k % 8)) FLX_COMB_CFG_in_en
  en != 0 && (List.range 4).all fun i => !en.testBit i || d.combInput k i

/-- Combiner k is enabled, armed and its condition holds (R190). -/
def Dev.combTrue (d : Dev) (k : Nat) : Bool :=
  let a := FLX_COMB_CFG (k / 8) (k % 8)
  d.flag a FLX_COMB_CFG_en && d.flag a FLX_COMB_CFG_armed && d.combCond k

/-- Combiner k evaluated: where its condition becomes true while it is armed, its firing is due in the next ccyc; a halted
matrix stands still (R190, R193). -/
def combEval (k : Nat) (d : Dev) : Dev :=
  let now := d.combTrue k
  if (d.comb k).held = now ∨ !d.clusterRuns (k / 8) then d
  else when now (·.addDue (.combiner (k / 8) (k % 8)))
    (d.modComb k fun b => { b with held := now, trueAt := if now then d.now else b.trueAt })

/-- A pulse of source src sets the latches of the combiner inputs that select it (R190). -/
def combLatch (k src : Nat) (d : Dev) : Dev :=
  if src < 16 ∨ d.fldIf (FLX_COMB_CFG (k / 8) (k % 8)) FLX_COMB_CFG_en = 0 then d
  else
    let en := d.fldIf (FLX_COMB_CFG (k / 8) (k % 8)) FLX_COMB_CFG_in_en
    let l := (List.range 4).foldl
      (fun m i => if en.testBit i ∧ d.combSrc k i = src then setBit m i true else m) (d.comb k).latch
    combEval k (d.modComb k fun b => { b with latch := l })

/-- Destination dest of cluster c selects source src (R185). -/
def Dev.routed (d : Dev) (c dest src : Nat) : Bool :=
  let r := FLX_ROUTE c dest
  (d.fldIf r FLX_ROUTE_en_a == 1 && d.fldIf r FLX_ROUTE_src_a == src) ||
  (d.fldIf r FLX_ROUTE_en_b == 1 && d.fldIf r FLX_ROUTE_src_b == src)

/-- The destinations of cluster c whose route register has been written: the others are disabled. -/
def Dev.routes (d : Dev) (c : Nat) : List Nat :=
  (d.regs.entries.filter fun e => FLX_ROUTE c 0 ≤ e.1 && e.1 < FLX_ROUTE c 0 + 0x200).map fun e => (e.1 - FLX_ROUTE c 0) / 4

/-- Source src of cluster c pulses: it counts in event counters, sets combiner latches, leaves a pulse due at every
destination routed to it, and travels to every other cluster of the part where an export selects it (R185, R190,
R191). -/
def fluxFire (c src : Nat) (d : Dev) : Dev :=
  let d1 := evcCluster c src d
  let d2 := upTo 8 (fun k => combLatch (c * 8 + k) src) d1
  let d3 := (d.routes c).foldl (fun x dest => when (d.routed c dest src) (·.addDue (.pulse c dest)) x) d2
  upTo 8 (fun k x =>
    if d.fldIf (FLX_EXPORT c k) FLX_EXPORT_en = 1 ∧ d.fldIf (FLX_EXPORT c k) FLX_EXPORT_src = src then
      upTo 4 (fun tgt y =>
        if tgt = c ∨ !d.hasCluster tgt then y
        else { y with due := y.due ++ [.exported c k tgt] }) x
    else x) d3

/-- A pulse reaches destination dest of cluster c: it is no longer due, and the route's seen flag sets (R185, R194). -/
def fluxArrive (c dest : Nat) (d : Dev) : Dev :=
  let d1 := d.dropDue (.pulse c dest)
  when (d.fldIf (FLX_ROUTE c dest) FLX_ROUTE_en_a == 1 || d.fldIf (FLX_ROUTE c dest) FLX_ROUTE_en_b == 1)
    (·.setB (FLX_ROUTE c dest) FLX_ROUTE_seen true) d1

/-! ## Captures (R486) -/

/-- Capture k stops: it no longer runs, and its stop is posted with this reason (R486). -/
def captureStop (k reason : Nat) (d : Dev) : Dev :=
  if d.fldIf (DBG_CAP_STAT k) DBG_CAP_STAT_running = 1 then
    postEvent 0x0911 0 k [reason] (d.setB (DBG_CAP_STAT k) DBG_CAP_STAT_running false)
  else d

/-- Captures whose reference is axis a stop, since it is RETIRED. -/
def captureRetired (a : Nat) (d : Dev) : Dev :=
  upTo 8 (fun k x => if x.cap k ≠ .reset ∧ (x.cap k).axis = a then captureStop k 1 x else x) d

end Sys2Proof.Machine
end

