-- ==== Sys2Proof/Machine/RegAccess.lean ====
section
/-!
DEFINITION. Writing and reading one register: access codes (R10, R11), unlock windows (R12), restricted writers (R507),
and the capture of high halves. What a register's own chapter adds is in the files of the blocks.
-/
namespace Sys2Proof.Machine

/-- A bench core (R14). -/
def isBench : Writer → Bool
  | .core k _ => k.val == 16 || k.val == 17
  | _ => false

/-- A writer counts as a bench core: a bench core, or a debugger at FULL (R475). -/
def benchLike (w : Writer) : Bool := isBench w || w == .dap

/-- The register takes effect from this writer (R283, R353, R475, R480, R487, R507). -/
def writerOk (r : WriterRule) (ix : List Nat) (k : RegClass) (w : Writer) : Bool :=
  match r with
  | .any => true
  | .bench => benchLike w
  | .hostOrBench => benchLike w || w == .host
  | .dap => w == .dap
  | .selfRing0 | .unitCore =>
    benchLike w ||
      match w, ix with
      | .core c ring, i :: _ =>
        ring.val == 0 && (if k.name = .ANV_CWDT_CFG then c.val / 4 == i && decide (c.val < 16) else c.val == i)
      | _, _ => false

/-- The unlock register of the block an address lies in (R12). -/
def unlockOf (k : RegClass) (addr : Nat) : Option Nat :=
  match k.unlock with
  | none => none
  | some (u, n) =>
    match (k.groups.headD []).take n with
    | [] => some u
    | [(_, s1)] => some (u + (addr - k.base) / s1 * s1)
    | (_, s1) :: (_, s2) :: _ =>
      some (u + (addr - k.base) / s1 * s1 + (addr - k.base) % s1 / s2 * s2)

/-- The writer a window belongs to: a core is one writer in every ring (R12). Assumption 15 (DEDUCED). -/
def winKey : Writer → Writer
  | .core k _ => .core k 0
  | w => w

/-- The ccyc of cycles 0 to 32 of a writer: of two ccyc for a core, of four for the Hallmark core (R12). -/
def winSpan : Writer → Nat
  | .core k _ => if k.val < 18 then 66 else 132
  | _ => 33

/-- The writer may write RWP fields of the block now: it holds the open window, or is the debugger (R12, R475).
Assumption 15 (DEDUCED). -/
def Dev.windowOpen (d : Dev) (k : RegClass) (addr : Nat) (w : Writer) : Bool :=
  w == .dap ||
    match unlockOf k addr with
    | some u => d.windows.any fun x => x.1 == (u, winKey w) && decide (x.2 < winSpan w)
    | none => false

/-- A write by a writer to a block closes its window there (R12). Assumption 15 (DEDUCED). -/
def closeWindow (k : RegClass) (addr : Nat) (w : Writer) (d : Dev) : Dev :=
  match unlockOf k addr with
  | some u => { d with windows := d.windows.filter (·.1 != (u, winKey w)) }
  | none => d

/-- What a write of n to a field of content cur does: the new content, the value that takes effect as an action, and
whether a discarded part would have changed something (R10, R12, R507). ok: the writer may write the register; op: it
holds the window. -/
def fieldWrite (acc : Acc) (ok op : Bool) (cur n wid : Nat) : Nat × Nat × Bool :=
  match acc with
  | .ro | .rc => (cur, 0, false)
  | .w1c => (cur &&& ((2 ^ wid - 1) ^^^ n), n, false)
  | .rw => if ok then (n, n, false) else (cur, 0, n != cur)
  | .wo => if ok then (cur, n, false) else (cur, 0, n != 0)
  | .w1s => if ok then (cur ||| n, n, false) else (cur, 0, n != 0)
  | .rwp => if ok && op then (n, n, false) else (cur, 0, n != cur)
  | .rwpWo => if ok && op then (cur, n, false) else (cur, 0, n != 0)
  | .rwpW1s => if ok && op then (cur ||| n, n, false) else (cur, 0, n != 0)

/-- The write of v over all fields of a register: new content, effective value, violation. -/
def fieldsWrite (ok op : Bool) (v : Word) : List FieldDesc → Word → Word → Bool → Word × Word × Bool
  | [], cur, eff, bad => (cur, eff, bad)
  | f :: r, cur, eff, bad =>
    let x := fieldWrite f.acc ok op (fget f.fld cur) (fget f.fld v) f.fld.wid
    fieldsWrite ok op v r (fput f.fld cur x.1) (fput f.fld eff x.2.1) (bad || x.2.2)

/-- A field's encodings that the register tables call reserved (R11), for fields that no other rule names the result
of. Assumption 13 (DEDUCED). -/
def reservedIn (nm : RegName) (v : Word) : Bool :=
  match nm with
  | .GLB_TIME_CTL => fget GLB_TIME_CTL_time_mode v == 3 || fget GLB_TIME_CTL_lock_tol v == 0
  | .MEM_BAR2_BASE => fget MEM_BAR2_BASE_base v < 8 || fget MEM_BAR2_BASE_base v == 15
  | .PLN_LAC_CFG => fget PLN_LAC_CFG_action v == 3
  | .AXS_MISS_CFG => fget AXS_MISS_CFG_miss_limit v == 0
  | .DRW_CFG => fget DRW_CFG_stuck_len v < 16
  | .DRW_CLK => fget DRW_CLK_clk_div v % 2 == 1 || fget DRW_CLK_clk_div v < 20 || 160 < fget DRW_CLK_clk_div v
  | .DRW_CH_CFG => fget DRW_CH_CFG_width v < 16 || 24 < fget DRW_CH_CFG_width v || 48 ≤ fget DRW_CH_CFG_src v ||
      fget DRW_CH_CFG_osr_m1 v < 15
  | .DRW_OC_CFG => fget DRW_OC_CFG_oc_osr v < 8 || 32 < fget DRW_OC_CFG_oc_osr v
  | .DRW_WIN_LEN => fget DRW_WIN_LEN_win_len v == 0
  | .FBK_SER_CFG => fget FBK_SER_CFG_bits v == 0 || 32 < fget FBK_SER_CFG_bits v
  | .FBK_RSC_CFG => fget FBK_RSC_CFG_pw v < 16
  | .FBK_EO_CFG => 2 ≤ fget FBK_EO_CFG_z_mode v
  | .CHS_CFG => fget CHS_CFG_step_len v < 8
  | .CHS_CRC_CFG => fget CHS_CRC_CFG_width v < 3 || 16 < fget CHS_CRC_CFG_width v
  | .CHS_MEM_LEN => fget CHS_MEM_LEN_len v == 0 || 4096 < fget CHS_MEM_LEN_len v
  | .PWM_HOLD => fget PWM_HOLD_hold_cnt v == 0
  | .FBK_SPD_CFG => fget FBK_SPD_CFG_spd_tmo v == 0 || fget FBK_SPD_CFG_spd_min v == 0
  | .FBK_SUP_CFG => fget FBK_SUP_CFG_sup_act v == 3 || fget FBK_SUP_CFG_dis_filt v == 0
  | .CRU_FSRC => fget CRU_FSRC_evt v == 3
  | .CRU_PAIR_CFG => fget CRU_PAIR_CFG_xdiv v == 0
  | .ASY_PAIR_CTL => fget ASY_PAIR_CTL_lag_max v == 0
  | .ASY_MIR => fget ASY_MIR_pbank v == 15 || fget ASY_MIR_sbank v == 15
  | .GLB_MSIX_MOD => fget GLB_MSIX_MOD_cnt_th v == 0
  | .SLD_CTL => fget SLD_CTL_fail_lim v == 0
  | .SEM_CTL => 1000 ≤ fget SEM_CTL_node v
  | .SEM_CYC => fget SEM_CYC_epoch_len v < 16 || fget SEM_CYC_cyc_q v < 125 || 16000 < fget SEM_CYC_cyc_q v
  | .SEM_KEEP => fget SEM_KEEP_miss_lim v == 0 || fget SEM_KEEP_crc_lim v == 0
  | .SEM_SECT => 256 < fget SEM_SECT_len v
  | .GLB_PCIE_CTL => fget GLB_PCIE_CTL_max_gen v == 0 || 5 < fget GLB_PCIE_CTL_max_gen v ||
      fget GLB_PCIE_CTL_max_width v == 3 || fget GLB_PCIE_CTL_refclk_sel v == 3
  | .TCH_WDT_CFG => fget TCH_WDT_CFG_period v < 10
  | .TCH_CFG => fget TCH_CFG_axis_sev v == 0 || 6 ≤ fget TCH_CFG_axis_sev v
  | _ => false

/-- A value of a field that another register makes reserved: a carrier period outside the range of its mode, an offset not
below the carrier period, a capture delay not below its clock's divider, a host bank beyond H6 as a mirror bank (R100,
R117, R136, R301). Assumption 13 (DEDUCED). -/
def Dev.reservedBy (d : Dev) (nm : RegName) (ix : List Nat) (v : Word) : Bool :=
  let i := ix.headD 0
  match nm with
  | .PWM_PER =>
    let n := fget PWM_PER_per v
    if d.flag (PWM_CFG i) PWM_CFG_center then decide (n < 1000 ∨ 50000 < n) else decide (n < 2000 ∨ 100000 < n)
  | .PWM_OFS =>
    let p := d.fld (PWM_PER i) PWM_PER_per
    decide ((if d.flag (PWM_CFG i) PWM_CFG_center then 2 * p else p) ≤ fget PWM_OFS_ofs v)
  | .ASY_MIR => i == 8 && (7 ≤ fget ASY_MIR_pbank v || 7 ≤ fget ASY_MIR_sbank v)
  | .DRW_CH_CFG => decide (d.fld (DRW_CLK (i / 48 * 4 + fget DRW_CH_CFG_sdc_sel v)) DRW_CLK_clk_div ≤ fget DRW_CH_CFG_cap_dly v)
  | _ => false

/-- The word n with the bits of every writable field taken from a free value: the result of writing a reserved
encoding is undefined (R11). Assumption 13 (DEDUCED). -/
def openFields (free : Nat) (fs : List FieldDesc) (cur : Word) : Word :=
  fs.foldl (fun v f =>
    match f.acc with
    | .rw | .rwp => fput f.fld v (free / 2 ^ f.fld.lo)
    | _ => v) cur

/-- The write of v by w to the register at an address under R10 to R12 and R507: the device after it, and the value
that took effect, field by field (0 in fields whose write was discarded). -/
def regWriteCore (w : Writer) (addr : Nat) (v : Word) (d : Dev) : Dev × Word :=
  match regAt addr with
  | none => (d, 0)
  | some (k, ix) =>
    let ok := writerOk k.writer ix k w
    let op := d.windowOpen k addr w
    let x := fieldsWrite ok op v k.fields (d.rd addr) 0 false
    let d1 := if w = .dap then d else closeWindow k addr w d
    let d2 := d1.wr addr x.1
    let d3 := match unlockOf k addr with
      | some u => when x.2.2 (·.wr u ((d2.rd u) ||| 0x80000000)) d2
      | none => d2
    if (reservedIn k.name v || d.reservedBy k.name ix v) && ok && (op || !k.fields.any (·.acc == .rwp)) then
      ((d3.wr addr (openFields d.open_ k.fields x.1)).bump, x.2.1)
    else (d3, x.2.1)

/-- The write of a register that has no further effect. Assumption 13 (DEDUCED). -/
def plainWrite (w : Writer) (addr : Nat) (v : Word) (d : Dev) : Dev := (regWriteCore w addr v d).1

/-- A write that its block discards as a whole: only the writer's window closes (R12). -/
def discardWrite (w : Writer) (addr : Nat) (d : Dev) : Dev :=
  match regAt addr with
  | some (k, _) => if w = .dap then d else closeWindow k addr w d
  | none => d

/-- The unlock register of the block that holds an address, which may name no register (R12). Assumption 14 (DEDUCED). -/
def unlockNear (addr : Nat) : Option Nat :=
  match regAt addr with
  | some (k, _) => unlockOf k addr
  | none => ((blockTables addr).find? fun k => k.unlock.isSome).bind fun k => unlockOf k addr

/-- Any write by w to this address closes its window on the block, whether or not it succeeds (R12).
Assumption 14 (DEDUCED). -/
def closeAt (w : Writer) (addr : Nat) (d : Dev) : Dev :=
  if w = .dap then d
  else match unlockNear addr with
    | some u => { d with windows := d.windows.filter (·.1 != (u, winKey w)) }
    | none => d

/-- The writer's RWP write to this register would take effect (R12, R507). -/
def Dev.accepts (d : Dev) (w : Writer) (addr : Nat) : Bool :=
  match regAt addr with
  | some (k, ix) => writerOk k.writer ix k w && d.windowOpen k addr w
  | none => false

/-- A write of the unlock register: the key opens the writer's window, anything else closes it; lock_violation is W1C
(R12, R43). Assumption 15 (DEDUCED). -/
def unlockRegWrite (w : Writer) (u : Nat) (v : Word) (d : Dev) : Dev :=
  let d1 := when (v.getLsbD 31) (fun x => x.wr u (x.rd u &&& 0x7FFFFFFF)) d
  let d2 := { d1 with windows := d1.windows.filter (·.1 != (u, winKey w)) }
  if v.toNat % 65536 = 0xA5C3 ∧ w ≠ .dap then { d2 with windows := d2.windows ++ [((u, winKey w), 0)] } else d2

/-- The registers whose read captures the high half for the register after them. -/
def capturesHigh : RegName → Bool
  | .GLB_TIME_LO | .GLB_SYNC_IN_LAT_LO | .AXS_FAULT_TIME_LO | .DRW_TS_LO | .FLX_CAP_T_LO | .AXS_SEG_T0_LO
  | .TMR_SNAP_T_LO | .CHS_POS_T_LO | .CRU_T_LO | .ASY_LANE_T_LO | .DBG_HALT_T_LO | .EVC_CNT_LO
  | .EVC_GSNAP_T_LO => true
  | _ => false

/-- The fields of a register after a read: RC fields take their reset value (R10). -/
def clearRc (fs : List FieldDesc) (v : Word) : Word :=
  fs.foldl (fun x f => if f.acc = .rc then fput f.fld x f.reset else x) v

/-- A read of a register with its side effects: RC fields clear, and a _LO register captures the high half. -/
def plainRead (addr : Nat) (d : Dev) : Dev × Word :=
  match regAt addr with
  | none => (d, 0xFFFFFFFF)
  | some (k, _) =>
    let v := d.rd addr
    let d1 := when (k.fields.any (·.acc == .rc)) (·.wr addr (clearRc k.fields v)) d
    (when (capturesHigh k.name) (·.wr (addr + 4) (w32 (d.wide64 addr / 2 ^ 32))) d1, v)

/-- A read whose value the reader keeps. -/
def readTo (f : Dev → Dev × Word) (d : Dev) : Dev := { (f d).1 with rdata := (f d).2 }

/-- The cluster whose window of registers holds an address (R26, R27). -/
def regCluster (addr : Nat) : Option Nat :=
  if 0x02800000 ≤ addr ∧ addr < 0x02F00000 then some ((addr - 0x02800000) / 0x200000) else none

/-- Nothing answers at this address now: its cluster is absent, in reset, or halted; the debugger reaches a halted one
(R4, R35, R465, R475). -/
def Dev.regDead (d : Dev) (w : Writer) (addr : Nat) : Bool :=
  match regCluster addr with
  | some c => if w = .dap then !d.released c || d.clkHeld else !d.clusterRuns c
  | none => false

/-- A discarded write that would have changed something sets lock_violation in the unlock register of its block (R507). -/
def lockBad (addr : Nat) (d : Dev) : Dev :=
  match unlockNear addr with
  | some u => d.wr u (d.rd u ||| 0x80000000)
  | none => d

/-- The cycles of this writer count now: a core's only while its island's clock runs (R12). -/
def Dev.writerClock (d : Dev) (w : Writer) : Bool :=
  match w with
  | .core k _ => if k.val < 16 then d.clusterRuns (k.val / 4) else true
  | _ => true

/-- UNLOCK_WRITE: the key opens the writer's window on the block (R12). -/
def execUnlockWrite (w : Writer) (addr : Word) (s : State) : Out :=
  s.upd fun d =>
    if d.regDead w addr.toNat then d else
    match regAt addr.toNat with
    | some (k, _) => if k.unlock.isSome ∧ unlockOf k addr.toNat = some addr.toNat
        then unlockRegWrite w addr.toNat 0x0000A5C3 d else d
    | none => d

/-- One ccyc of the unlock windows. -/
def windowsTick (d : Dev) : Dev :=
  { d with windows := d.windows.map fun x => (x.1, x.2 + b2n (d.writerClock x.1.2)) }

/-- UNLOCK_WINDOW_EXPIRY: the window of this writer closes at the end of cycle 32, none of which passes while a core's
clock is stopped (R12). -/
def execUnlockWindowExpiry (w : Writer) (addr : Word) (s : State) : Out :=
  s.upd fun d => { d with windows := d.windows.filter fun x => !(x.1 == (addr.toNat, winKey w) && decide (winSpan w ≤ x.2)) }

end Sys2Proof.Machine
end

