-- ==== Sys2Proof/Machine/AxisOps.lean ====
section
/-!
DEFINITION. What the supervision of an axis is made of: the output modes of its PWM unit (R125 to R127), fault causes
and their responses (R86 to R92), misses (R84, R85), and the transitions of R93 to R96.
-/
namespace Sys2Proof.Machine

/-! ## States -/

def stRetired : Nat := 0
def stAdmitted : Nat := 1
def stArmed : Nat := 2
def stEnabled : Nat := 3
def stFaulted : Nat := 4
def stHalted : Nat := 5

/-- The state of axis a (R93). -/
def Dev.axSt (d : Dev) (a : Nat) : Nat := d.fld (AXS_STATE a) AXS_STATE_state

/-- The outputs of the interpolator of axis m as followers read them (R170). -/
def Dev.mOut (d : Dev) (m : Nat) : MVal :=
  ⟨d.flag (AXS_SEG_STAT m) AXS_SEG_STAT_valid, (d.rd (AXS_SEG_SETP m)).toNat * 2 ^ 32 + (d.rd (AXS_SEG_SETPF m)).toNat,
   sgn (d.rd (AXS_SEG_SETV m)), sgn (d.rd (AXS_SEG_SETA m))⟩

/-- A history with the value x that stood up to this ccyc; what is older than 12 ccyc is dropped. -/
def noteVal (now : Nat) (x : MVal) (h : List (Nat × MVal)) : List (Nat × MVal) :=
  (now, x) :: h.filter fun e => decide (now < e.1 + 12)

/-- The value that stood 12 ccyc before now, where x stands now (R170). -/
def valBefore (now : Nat) (x : MVal) (h : List (Nat × MVal)) : MVal :=
  ((h.filter fun e => decide (now < e.1 + 12)).getLastD (now, x)).2

/-- The outputs of axis a are about to change. -/
def noteOut (a : Nat) (d : Dev) : Dev := d.modInterp a fun q => { q with hist := noteVal d.now (d.mOut a) q.hist }

/-- The state of axis a set; RETIRED and ADMITTED have no valid output (R165). -/
def Dev.setAxSt (d : Dev) (a st : Nat) : Dev :=
  when (decide (st ≤ stAdmitted) && d.flag (AXS_SEG_STAT a) AXS_SEG_STAT_valid)
    (fun x => (noteOut a x).setB (AXS_SEG_STAT a) AXS_SEG_STAT_valid false) (d.setF (AXS_STATE a) AXS_STATE_state st)

/-- The lane that serves axis a, by its global number. -/
def Dev.axLane (d : Dev) (a : Nat) : Nat := axCl a * 4 + d.fld (AXS_STATE a) AXS_STATE_lane

/-- The slot of axis a on its lane. -/
def Dev.axSlotNo (d : Dev) (a : Nat) : Nat := d.fld (AXS_STATE a) AXS_STATE_slot

/-- The committed slot s of lane n. -/
def Dev.slot (d : Dev) (n s : Nat) : Slot := mget .reset (d.lane n).slots s

/-- The committed slot s of lane n changed. -/
def Dev.modSlot (d : Dev) (n s : Nat) (f : Slot → Slot) : Dev :=
  d.modLane n fun l => { l with slots := mset .reset l.slots s (f (mget .reset l.slots s)) }

/-- The committed slot of axis a. -/
def Dev.axSlot (d : Dev) (a : Nat) : Slot := d.slot (d.axLane a) (d.axSlotNo a)

/-- The lanes that run axis a: one, or both of a pair (R312). -/
def Dev.axLanes (d : Dev) (a : Nat) : List Nat :=
  if (d.lane (d.axLane a)).paired then [d.axLane a / 2 * 2, d.axLane a / 2 * 2 + 1] else [d.axLane a]

/-- The slot's position law is enabled. -/
def Dev.posEnabled (d : Dev) (a : Nat) : Bool := fget PLN_SLOT_VEL_en (d.axSlot a).pos == 1

/-- A ramp of R92 runs. -/
def Dev.ramping (d : Dev) (a : Nat) : Bool := d.flag (AXS_STATE a) AXS_STATE_ramp

/-- PLN_LANE_STAT as the lane now stands. -/
def laneStat (n : Nat) (d : Dev) : Dev :=
  let l := d.lane n
  let st := PLN_LANE_STAT n
  ((((d.setB st PLN_LANE_STAT_fg_busy l.cur.isSome).setB st PLN_LANE_STAT_bg_busy l.job.isSome).setF st
    PLN_LANE_STAT_bg_queued (min 15 l.released.length)).setB st PLN_LANE_STAT_paired l.paired).setB st
    PLN_LANE_STAT_primary l.primary

/-! ## Output modes (R125 to R127) -/

/-- The output mode of the unit: 0 SAFE, 1 DRIVE, 2 SHORT. -/
def Dev.outMode (d : Dev) (a : Nat) : Nat := d.fld (PWM_STAT a) PWM_STAT_out_mode

/-- The output mode set, with its bit in PWM_GSTAT, and the pulse of PWM_SAFE where the unit leaves DRIVE (R121). -/
def setOutMode (a m : Nat) (d : Dev) : Dev :=
  let was := d.outMode a
  let d1 := d.setF (PWM_STAT a) PWM_STAT_out_mode m
  let d2 := d1.setF (PWM_GSTAT (axCl a)) PWM_GSTAT_safe_axes
    (setBit (d1.fld (PWM_GSTAT (axCl a)) PWM_GSTAT_safe_axes) (axLo a) (m == 0))
  when (was == 1 && m != 1) (fluxFire (axCl a) (0x50 + axLo a)) d2

/-- The present ccyc of axis a's cluster in taps of 1/32 ccyc of the carrier reference (R122). -/
def Dev.tapNow (d : Dev) (a : Nat) : Nat := (d.cluster (axCl a)).ref * 32

/-- Dead time in force, in taps (R123). -/
def Pwm.deadTaps (p : Pwm) : Nat := fget PWM_DT_dt_c p.dt * 32 + fget PWM_DT_dt_f p.dt

/-- Minimum pulse in force, in taps (R123). -/
def Pwm.minTaps (p : Pwm) : Nat := fget PWM_DT_min_pulse p.dt * 32

/-- The high sides turn off at this tap, where one is on. -/
def Pwm.highsOff (t : Nat) (p : Pwm) : Pwm :=
  { p with on := p.on &&& 0b101010, hiOff := if p.on &&& 0b010101 = 0 then p.hiOff else t }

/-- SAFE: every switch turns off at once (R127). -/
def goSafe (a : Nat) (d : Dev) : Dev :=
  setOutMode a 0 (d.modPwm a fun p => { p.highsOff (d.tapNow a) with on := 0, rise := [], keep := [] })

/-- SHORT: the high sides turn off, and the low sides that are off turn on dead time after the high sides reached off
(R125, R127); a unit held SAFE stays so (R131). -/
def goShort (a : Nat) (d : Dev) : Dev :=
  if d.flag (PWM_STAT a) PWM_STAT_forced || (d.cluster (axCl a)).halting then goSafe a d
  else
    let t := d.tapNow a
    let short := fun (p : Pwm) =>
      let q := p.highsOff t
      { q with rise := ([1, 3, 5].filter fun k => !q.on.testBit k).map fun k => (k, max t (q.hiOff + q.deadTaps)), keep := [] }
    setOutMode a 2 (d.modPwm a short)

/-- FR_SHORT is complete: the low sides stand on, or the unit is held SAFE (R98). -/
def Dev.shortDone (d : Dev) (a : Nat) : Bool := d.outMode a != 2 || (d.pwm a).on == 0b101010

/-! ## Segments discarded (R178) -/

/-- Segment word i of queue entry e of axis a, in bank 15 (R177). -/
def segAddr (a e i : Nat) : Nat := 0x010F0000 + axCl a * 0x100000 + axLo a * 0x800 + e % 64 * 0x20 + i * 4

/-- Queue entry e of axis a. -/
def Dev.segAt (d : Dev) (a e : Nat) : Seg :=
  let w := fun i => mget 0 d.bank15 (segAddr a e i)
  ⟨w 0, w 1, w 2, w 3, w 4, w 5, w 6, w 7⟩

/-- The tag of a segment entry (R166). -/
def Seg.tag (g : Seg) : Nat := bits g.w0.toNat 31 16

/-- Does the segment report its end (R166)? -/
def Seg.notify (g : Seg) : Bool := bit g.w0.toNat 7

/-- The queued count as AXS_SEG_STAT shows it. -/
def Dev.setQueued (d : Dev) (a : Nat) : Dev :=
  d.setF (AXS_SEG_STAT a) AXS_SEG_STAT_queued (d.interp a).len

/-- Tags of the queued segments, the head first. -/
def Dev.queueTags (d : Dev) (a : Nat) : List Nat :=
  (List.range (d.interp a).len).map fun i => (d.segAt a ((d.interp a).head + i)).tag

/-- SEG_DISCARD for these tags, and their count in AXS_SEG_DROP (R176, R178). -/
def segDiscarded (a : Nat) (tags : List Nat) (d : Dev) : Dev :=
  if tags = [] then d
  else
    let d1 := d.setF (AXS_SEG_DROP a) AXS_SEG_DROP_dropped (satAdd 32 (d.fld (AXS_SEG_DROP a) AXS_SEG_DROP_dropped) tags.length)
    postEvent 0x0302 (0x10 + axCl a) a
      [stAbortedDisabled + tags.length * 65536, tags.headD 0 + tags.getLastD 0 * 65536] d1

/-- The running segment and the queue of an axis are discarded with one SEG_DISCARD (R178). -/
def discardAll (a : Nat) (d : Dev) : Dev :=
  let q := d.interp a
  let run := match q.run with
    | some r => [r.seg.tag]
    | none => []
  let tags := run ++ d.queueTags a
  let d1 := d.modInterp a fun q => { q with run := none, head := 0, len := 0, waitT := none, enq := [], next := none }
  let d2 := (d1.setQueued a).setB (AXS_SEG_STAT a) AXS_SEG_STAT_early false
  segDiscarded a tags (d2.dropDue (.timeStart a false) |>.dropDue (.timeStart a true))

/-! ## Groups and followers (R172, R181) -/

/-- The members of group g, slot 0 first, as its table names them. -/
def Dev.members (d : Dev) (g : Nat) : List Nat :=
  if d.fldIf (FLX_GRP_CFG g) FLX_GRP_CFG_en = 0 then []
  else (List.range 8).filterMap fun i =>
    if (d.fld (FLX_GRP_CFG g) FLX_GRP_CFG_mem_en).testBit i then
      some (bits (d.rd (if i < 4 then FLX_GRP_MEM_LO g else FLX_GRP_MEM_HI g)).toNat (8 * (i % 4) + 5) (8 * (i % 4)))
    else none

/-- The group of an axis (R181). -/
def Dev.groupOf (d : Dev) (a : Nat) : Option Nat := (List.range 32).find? fun g => (d.members g).contains a

/-- The kind of a segment (R166). -/
def Seg.kind (g : Seg) : Nat := bits g.w0.toNat 3 0

/-- The master a running GEAR or CAM segment of axis a follows (R170, R171). -/
def Dev.masterOf (d : Dev) (a : Nat) : Option Nat :=
  match (d.interp a).run with
  | some r => if 4 ≤ r.seg.kind ∧ ¬ r.asHold then some (bits r.seg.w2.toNat 5 0) else none
  | none => none

/-- The followers of axis a. -/
def Dev.followers (d : Dev) (a : Nat) : List Nat := (List.range 64).filter fun f => d.masterOf f == some a

/-! ## Causes and responses (R86 to R92) -/

/-- FR_RAMP can act for this cause (R86). -/
def rampable (c : Nat) : Bool :=
  c == 0x05 || (0x0C ≤ c && c ≤ 0x11) || (0x18 ≤ c && c ≤ 0x1F)

/-- The law may raise this cause by FAULT (R59, R86). -/
def lawRaised (c : Nat) : Bool := c == 0x05 || c == 0x06 || (0x18 ≤ c && c ≤ 0x1F)

/-- The response AXS_FRMAP maps a cause to; the codes 5 to 7 are reserved, and what they do is open (R11, R98). -/
def Dev.mapped (d : Dev) (a c : Nat) : Nat :=
  let r := bits (d.rd (AXS_FRMAP a (c / 8))).toNat (c % 8 * 4 + 2) (c % 8 * 4)
  if r ≤ 4 then r else d.open_ % 5

/-- A response as it acts: FR_RAMP turns into FR_STO where R87 says so. Assumption 20 (DEDUCED). -/
def Dev.effective (d : Dev) (a c r : Nat) : Nat :=
  if r = 2 ∧ (rampable c = false ∨ d.posEnabled a = false ∨ d.rd (AXS_RAMP_DECEL a) = 0 ∨ d.axSt a = stArmed) then 4 else r

/-- The microseconds since a ramp began (R98). -/
def Dev.rampElapsed (d : Dev) (a : Nat) : Nat :=
  min 0xFFFFFF (((d.cluster (axCl a)).ref - (d.axis a).rampT) / 800)

/-- A ramp ends with an outcome: 1 stopped, 2 timed out, 3 escalated (R92, R98). -/
def rampOver (a outcome : Nat) (d : Dev) : Dev :=
  let d1 := (d.setF (AXS_RAMP_STAT a) AXS_RAMP_STAT_outcome outcome).setF (AXS_RAMP_STAT a) AXS_RAMP_STAT_elapsed
    (d.rampElapsed a)
  ((d1.setB (AXS_STATE a) AXS_STATE_ramp false).setB (AXS_STATE a) AXS_STATE_stopping false).modAxis a fun x =>
    { x with rampHold := false, rampV := 0 }

/-- A stop profile starts from SETV as it stands (R92). -/
def rampStart (a : Nat) (d : Dev) : Dev :=
  let v := sgn (d.rd (AXS_SEG_SETV a))
  (d.setB (AXS_STATE a) AXS_STATE_ramp true).modAxis a fun x =>
    { x with rampV := v.natAbs, rampNeg := decide (v < 0), rampHold := decide (v = 0),
             rampT := (d.cluster (axCl a)).ref, rampHoldT := (d.cluster (axCl a)).ref }

/-- A slot register of axis a that admission stages as cleared, and its commit bit (R67, R95). -/
def stageClear (a : Nat) (d : Dev) : Dev :=
  (d.axLanes a).foldl (fun x n =>
    let y := x.setB (PLN_SLOT_CFG n (d.axSlotNo a)) PLN_SLOT_CFG_valid false
    y.setF (PLN_COMMIT (axCl a)) PLN_COMMIT_slots
      (setBit (y.fld (PLN_COMMIT (axCl a)) PLN_COMMIT_slots) (n % 4 * 4 + d.axSlotNo a) true)) d

/-- A retirement goes on to the commit once the axis stands still (R95). -/
def retireCheck (a : Nat) (d : Dev) : Dev :=
  if (d.axis a).retiring ∧ (d.axSt a = stAdmitted ∨ d.axSt a = stArmed ∨
      (d.axSt a = stFaulted ∧ d.flag (AXS_STATE a) AXS_STATE_resp_done)) then stageClear a d else d

/-- The running response becomes r: FR_STO acts at once and is complete, FR_SHORT is complete once the low sides stand
on; FR_RAMP starts a stop profile unless one runs (R87, R92, R98). Assumption 68 (DESIGN CHOICE). -/
def respond (a r : Nat) (d : Dev) : Dev :=
  let d1 := d.setF (AXS_FAULT a) AXS_FAULT_response r
  let ended := fun (f : Dev → Dev) => f (when (d1.ramping a) (rampOver a 3) d1)
  match r with
  | 4 => retireCheck a ((ended (goSafe a)).setB (AXS_STATE a) AXS_STATE_resp_done true)
  | 3 =>
    let x := ended (goShort a)
    retireCheck a (x.setB (AXS_STATE a) AXS_STATE_resp_done (x.shortDone a))
  | 2 => when (!d1.ramping a) (rampStart a) d1
  | _ => d1

/-- A Touchmark record of a cause and its response (R90, R432). -/
def axisRecord (a c r prior : Nat) (d : Dev) : Dev :=
  postTouchmark 0x0007 (0x10 + axCl a) a [c, r, prior, (d.rd (AXS_CAUSE_SEEN a)).toNat] d

/-- A Touchmark record of the running response where it first reaches axis_sev (R432). -/
def faultRecord (a c prior : Nat) (d : Dev) : Dev :=
  let r := d.fld (AXS_FAULT a) AXS_FAULT_response
  if d.fld TCH_CFG TCH_CFG_axis_sev ≤ r ∧ (d.axis a).tchRank < r then
    axisRecord a c r prior (d.modAxis a fun x => { x with tchRank := r })
  else d

/-- Waiting commands of an axis end when a cause takes effect first; st is the state they report (R96). -/
def abortAxisWaits (a st : Nat) (d : Dev) : Dev :=
  endWaits (fun w => w.target == a && w.op == 0x0204) stNotPermitted (st * 256)
    (endWaits (fun w => w.target == a && w.op == 0x0203) stNotPermitted st d)

/-- An AXIS_ENABLE under way that a disable or a retirement of the axis cuts off (R29). -/
def cutEnable (a st : Nat) (d : Dev) : Dev :=
  endWaits (fun w => w.target == a && w.op == 0x0203) stAbortedDisabled st (d.modAxis a fun x => { x with enReq := 0 })

/-- Commands whose transition of the axis is reached complete with OK; a cause of the same sample may still undo that
(R93, R96). -/
def endTrans (a op k result : Nat) (d : Dev) : Dev :=
  let p := fun (w : Wait) => w.op == op && w.target == a
  endWaits p stOk result
    (d.modAxis a fun x => { x with trans := x.trans ++ (d.waits.filter p).map fun w => (w.sq, w.cid, k) })

/-- A cause in the sample of a command's transition: the command completes with NOT_PERMITTED and the state reached
(R96). Assumption 67 (DEDUCED). -/
def spoilTrans (a : Nat) (d : Dev) : Dev :=
  let trans := (d.axis a).trans
  let st := d.axSt a
  let one := fun (c : Cpl) =>
    match trans.find? (fun t => t.1 == c.sq && t.2.1 == c.cid && (c.status == stOk || c.status == stOkWarning)) with
    | some t => { c with status := stNotPermitted, result := st * t.2.2 }
    | none => c
  ({ d with cpls := d.cpls.map one } : Dev).modAxis a fun x => { x with trans := [] }

/-- The causes that an axis entering FAULTED raises in others: GROUP_FAULT in its group, MASTER_LOST in its followers;
a halted cluster discards what reaches it (R91). -/
def Dev.raisedBy (d : Dev) (a : Nat) : List (Nat × Nat) :=
  let grp := match d.groupOf a with
    | some g => ((d.members g).filter (· != a)).map fun m => (m, 0x11)
    | none => []
  grp ++ (d.followers a).map fun f => (f, 0x10)

/-- Axis a enters FAULTED with response r of rank 2 or more (R91, R93); a running disable ramp goes on as the ramp of an
FR_RAMP. Assumption 68 (DESIGN CHOICE). -/
def enterFaulted (a c r prior : Nat) (d : Dev) : Dev :=
  let d1 := abortAxisWaits a stFaulted (discardAll a (d.setAxSt a stFaulted))
  let d2 := (d1.setB (AXS_STATE a) AXS_STATE_stopping false).modAxis a fun x =>
    { x with enReq := 0, driveReady := x.driveReady && r == 2 }
  faultRecord a c prior (respond a r d2)

/-- One cause recorded on axis a (R89, R90, R93, R94), with its response as forced, or as AXS_FRMAP maps it: of several in
one ccyc the lowest code counts as first. The answer names the causes it raises in other axes.
Assumption 67 (DEDUCED). -/
def causeOnce (a c : Nat) (forced : Option Nat) (d : Dev) : Dev × List (Nat × Nat) :=
  let st := d.axSt a
  if st = stRetired then (d, [])
  else
    let seen := (d.rd (AXS_CAUSE_SEEN a)).toNat.testBit c
    let r := d.effective a c (forced.getD (d.mapped a c))
    let d1 := ((d.wr (AXS_CAUSE_SEEN a) (w32 (setBit (d.rd (AXS_CAUSE_SEEN a)).toNat c true))).incF (AXS_FAULT a)
      AXS_FAULT_fault_count).bump
    let cur := d1.fld (AXS_FAULT a) AXS_FAULT_cause
    let d2 :=
      if cur = 0 then
        ((d1.setF (AXS_FAULT a) AXS_FAULT_cause c).setWide (AXS_FAULT_TIME_LO a) (d1.copy (axCl a))).modAxis a
          fun x => { x with faultAt := some d.now }
      else if (d.axis a).faultAt = some d.now ∧ c < cur then d1.setF (AXS_FAULT a) AXS_FAULT_cause c
      else d1
    let d3 := evcCluster (axCl a) (0x120 + axLo a) d2
    let d4 := when (decide (1 ≤ r) && !seen) (postEvent (evOpen 2 0) (0x10 + axCl a) a [c, r, st]) d3
    if ((st = stArmed ∨ st = stEnabled) ∧ 2 ≤ r) ∨ (st = stAdmitted ∧ c = 0x09) then
      (spoilTrans a (enterFaulted a c r st d4), d.raisedBy a)
    else if st = stFaulted then
      (spoilTrans a (when (decide (d4.fld (AXS_FAULT a) AXS_FAULT_response < r) && decide (2 ≤ r))
        (fun x => faultRecord a c st (respond a r x)) d4), [])
    else
      let d5 := when (decide (1 ≤ r) && !seen && decide (d4.fld TCH_CFG TCH_CFG_axis_sev ≤ r)) (axisRecord a c r st) d4
      (spoilTrans a (when (st == stAdmitted && decide (2 ≤ r))
        (fun x => abortAxisWaits a stAdmitted (x.modAxis a fun y => { y with enReq := 0 })) d5), [])

/-- Causes recorded one after the other, with those they raise in turn (R91). -/
def causeLoop : Nat → List (Nat × Nat × Option Nat) → Dev → Dev
  | 0, _, d => d
  | _, [], d => d
  | n + 1, (a, c, f) :: r, d =>
    let x := causeOnce a c f d
    causeLoop n (r ++ (x.2.filter fun y => d.clusterRuns (axCl y.1) || axCl y.1 == axCl a).map fun y => (y.1, y.2, none)) x.1

/-- A cause recorded on axis a. -/
def recordCause (a c : Nat) (d : Dev) : Dev := causeLoop 256 [(a, c, none)] d

/-- A cause recorded with a response of its own: FR_STO of the forced path (R88), or a retirement's (R95). -/
def recordCauseAs (a c r : Nat) (d : Dev) : Dev := causeLoop 256 [(a, c, some r)] d

/-- A level cause present or not (R98); the ccyc in which a forced input's release ends it is kept (R131). -/
def setAct (a c : Nat) (b : Bool) (d : Dev) : Dev :=
  let ended := (d.rd (AXS_CAUSE_ACT a)).toNat.testBit c && !b && decide (c ≤ 2)
  let d1 := (d.wr (AXS_CAUSE_ACT a) (w32 (setBit (d.rd (AXS_CAUSE_ACT a)).toNat c b))).modAxis a fun x =>
    { x with actEnd := if ended then some d.now else x.actEnd }
  d1.setB (AXS_STATE a) AXS_STATE_cause_act (d1.rd (AXS_CAUSE_ACT a) != 0)

/-- The forced path: the balls go to their off levels, the unit is held SAFE until acknowledgement, and the cause is
recorded with FR_STO (R88, R128). -/
def forcedPath (a c : Nat) (d : Dev) : Dev :=
  if d.axSt a = stRetired then d
  else recordCauseAs a c 4 ((goSafe a (d.setB (PWM_STAT a) PWM_STAT_forced true)).modPwm a fun p => { p with latched := true })

/-! ## Misses (R84, R85) -/

/-- A miss of this kind; cur says whether it counts as a current-law miss. -/
def recordMiss (a kind : Nat) (cur : Bool) (d : Dev) : Dev :=
  if d.axSt a = stArmed ∨ d.axSt a = stEnabled ∨ d.axSt a = stFaulted then
    let m := AXS_MISS_STAT a
    let old := d.fld m AXS_MISS_STAT_cons_miss
    let new := satInc 8 old
    let d1 := (((d.setB m AXS_MISS_STAT_miss true).setF m AXS_MISS_STAT_last_kind kind).setF m AXS_MISS_STAT_cons_miss new)
    let d2 := d1.setF m AXS_MISS_STAT_max_cons (max new (d1.fld m AXS_MISS_STAT_max_cons))
    let d3 := if cur then d2.incF (AXS_MISS_CUR_CNT a) AXS_MISS_CUR_CNT_cur_miss
      else d2.incF (AXS_MISS_BG_CNT a) AXS_MISS_BG_CNT_bg_miss
    let d4 := evcCluster (axCl a) (0x100 + axLo a) (d3.modAxis a fun x => { x with missed := true, curMiss := x.curMiss || cur })
    let lim := d4.fld (AXS_MISS_CFG a) AXS_MISS_CFG_miss_limit
    when (decide (old < lim) && decide (lim ≤ new)) (recordCause a 0x04) d4
  else d

/-- At a release cons_miss clears unless a miss was recorded since the previous one (R85). -/
def missRelease (a : Nat) (d : Dev) : Dev :=
  let d1 := when (!(d.axis a).missed) (·.setF (AXS_MISS_STAT a) AXS_MISS_STAT_cons_miss 0) d
  d1.modAxis a fun x => { x with missed := false }

/-! ## Transitions (R93 to R96) -/

/-- The laws of axis a count as not yet executed: every entry into ARMED makes FIRST true again (R54, R93). -/
def firstAgain (a : Nat) (d : Dev) : Dev :=
  (d.axLanes a).foldl (fun x n => x.modSlot n (d.axSlotNo a)
    fun s => { s with endCur := false, endVel := false, endPos := false }) d

/-- The interpolator is to hold the position latched at the sample of this transition (R93). -/
def holdHere (a : Nat) (d : Dev) : Dev := d.modInterp a fun q => { q with retake := true }

/-- The fault response or stop of an axis under a stop reaches its end: a disable ramp takes the axis to its target, a
fault ramp applies FR_STO (R92, R93). Assumption 68 (DESIGN CHOICE). -/
def rampFinished (a outcome : Nat) (d : Dev) : Dev :=
  let d1 := goSafe a (rampOver a outcome d)
  if d1.axSt a = stFaulted then
    retireCheck a ((d1.setF (AXS_FAULT a) AXS_FAULT_response 4).setB (AXS_STATE a) AXS_STATE_resp_done true)
  else
    let t := (d1.axis a).target
    let d2 := ((d1.setB (AXS_STATE a) AXS_STATE_stopping false).setAxSt a t).modAxis a fun x =>
      { x with driveReady := false }
    let d3 := when (t == stArmed) (fun x => holdHere a (firstAgain a x)) d2
    endTrans a 0x0204 256 (t * 256) d3

/-- No command may act on axis a now: a stop, a ramp or a retirement runs (R93). -/
def Dev.axBusy (d : Dev) (a : Nat) : Bool :=
  d.ramping a || d.flag (AXS_STATE a) AXS_STATE_stopping || (d.axis a).retiring

/-- A request to arm or to enable an axis, with its refusal where R93 refuses it; stage 1 ARM, 2 ENABLE. -/
def axisEnable (a stage : Nat) (d : Dev) : Dev × Option Nat :=
  if d.axBusy a then (d, some stBusy)
  else if d.rd (AXS_CAUSE_ACT a) = 0 ∧ (d.axSt a = stAdmitted ∨ (d.axSt a = stArmed ∧ stage = 2)) then
    (d.modAxis a fun x => { x with enReq := stage }, none)
  else (d, some stNotPermitted)

/-- ENABLED is left for a target without a ramp: the queue is discarded and the outputs are safe at once (R93). -/
def stopSto (a target : Nat) (d : Dev) : Dev :=
  let d1 := goSafe a (discardAll a d)
  let d2 := (d1.setAxSt a target).modAxis a fun x => { x with driveReady := false, enReq := 0 }
  when (target == stArmed) (fun x => holdHere a (firstAgain a x)) d2

/-- ENABLED is left along a ramp; where R87 does not let it run, at once. The answer says whether it ran as STO. -/
def stopRamp (a target : Nat) (d : Dev) : Dev × Bool :=
  if d.posEnabled a = false ∨ d.rd (AXS_RAMP_DECEL a) = 0 then (stopSto a target d, true)
  else
    let d1 := rampStart a (discardAll a d)
    ((d1.setB (AXS_STATE a) AXS_STATE_stopping true).modAxis a fun x => { x with target := target, enReq := 0 }, false)

/-- An acknowledgement: FAULTED to ADMITTED once the response is complete and no cause is active, nor ends with a forced
input's release in this ccyc (R93, R131). -/
def axisAck (a : Nat) (d : Dev) : Dev × Option Nat :=
  if d.flag (AXS_STATE a) AXS_STATE_resp_done = false then (d, some stBusy)
  else if d.rd (AXS_CAUSE_ACT a) ≠ 0 ∨ (d.axis a).actEnd = some d.now then (d, some stNotPermitted)
  else
    let d1 := goSafe a ((d.setF (AXS_FAULT a) AXS_FAULT_cause 0).setF (AXS_FAULT a) AXS_FAULT_response 0)
    let d2 := (((d1.wr (AXS_CAUSE_SEEN a) 0).setB (AXS_STATE a) AXS_STATE_resp_done false).setAxSt a stAdmitted).setB
      (PWM_STAT a) PWM_STAT_forced false
    ((d2.modPwm a fun p => { p with latched := false }).modAxis a fun x =>
      { x with tchRank := 0, faultAt := none, driveReady := false, enReq := 0 }, none)

/-- AXIS_DISABLE, with its refusal: stop 1 RAMP or 2 STO, target 1 ADMITTED or 2 ARMED (R93, R364). The answer also
says whether a ramp was replaced by STO and whether the command waits for a ramp. -/
def axisDisable (a stop target : Nat) (d : Dev) : Dev × Option Nat × Bool × Bool :=
  if d.axSt a = stFaulted then
    if (d.axis a).retiring then (d, some stBusy, false, false)
    else let x := axisAck a d
      (x.1, x.2, false, false)
  else if d.axBusy a then (d, some stBusy, false, false)
  else if d.axSt a = stArmed then (cutEnable a stAdmitted (d.setAxSt a stAdmitted), none, false, false)
  else if d.axSt a = stEnabled then
    if stop = 2 then (stopSto a target d, none, false, false)
    else let x := stopRamp a target d
      (x.1, none, x.2, !x.2)
  else (d, some stNotPermitted, false, false)

/-- AXIS_RETIRE with response r: 2 FR_RAMP, 4 FR_STO (R95); stopping shows while its stop runs (R98). The slots that
remain go through no admission check. Assumption 80 (DESIGN CHOICE). -/
def axisRetire (a r : Nat) (d : Dev) : Dev × Option Nat :=
  if (d.axis a).retiring then (d, some stBusy)
  else if d.axSt a = stRetired ∨ d.axSt a = stHalted then (d, some stNotPermitted)
  else
    let d1 := cutEnable a (d.axSt a) (d.modAxis a fun x => { x with retiring := true })
    let d2 :=
      if d1.axSt a = stEnabled then recordCauseAs a 0x0F r d1
      else if d1.axSt a = stFaulted then when (r == 4 && d1.fld (AXS_FAULT a) AXS_FAULT_response != 4) (respond a 4) d1
      else discardAll a d1
    (retireCheck a (when (d2.ramping a) (·.setB (AXS_STATE a) AXS_STATE_stopping true) d2), none)

end Sys2Proof.Machine
end

