-- ==== Sys2Proof/Machine/Pwm.lean ====
section
/-!
DEFINITION. Chapter "PWM units and the power-stage interface" (R117 to R136): the carrier events, update points, switch
edges, the forced path of fault inputs and STO, holds, and the register writes.
-/
namespace Sys2Proof.Machine

/-! ## Carrier events -/

/-- The carrier period in ccyc (R117). -/
def Dev.carrier (d : Dev) (a : Nat) : Nat :=
  let p := d.fld (PWM_PER a) PWM_PER_per
  if d.flag (PWM_CFG a) PWM_CFG_center then 2 * p else p

/-- upd_div as a number of carrier periods (R119). -/
def Dev.updDiv (d : Dev) (a : Nat) : Nat := 2 ^ (d.fld (PWM_CFG a) PWM_CFG_upd_div)

/-- The sample period in ccyc (R119). -/
def Dev.samplePeriod (d : Dev) (a : Nat) : Nat :=
  if d.flag (PWM_CFG a) PWM_CFG_dbl then d.carrier a / 2 else d.carrier a * d.updDiv a

/-- The place in the carrier period: ccyc since a VALLEY (R118). -/
def Dev.carrierPos (d : Dev) (a : Nat) : Nat :=
  ((d.cluster (axCl a)).ref + d.fld (PWM_OFS a) PWM_OFS_ofs) % max 1 (d.carrier a)

/-- The counter of a unit as it runs: up to per and down again, or up and wrapping (R117). -/
def Dev.carrierCnt (d : Dev) (a : Nat) : Nat :=
  let p := max 1 (d.carrier a)
  let x := d.carrierPos a
  if d.flag (PWM_CFG a) PWM_CFG_center ∧ p / 2 < x then p - x else x

/-- PEAK: the counter reads per (center) or per - 1 (edge) (R117). -/
def Dev.atPeak (d : Dev) (a : Nat) : Bool :=
  let p := d.fld (PWM_PER a) PWM_PER_per
  (d.pwm a).counts && d.carrierCnt a == (if d.flag (PWM_CFG a) PWM_CFG_center then p else p - 1)

/-- VALLEY: the counter reads 0 (R117). -/
def Dev.atValley (d : Dev) (a : Nat) : Bool := (d.pwm a).counts && d.carrierCnt a == 0

/-- The number of the carrier period that began at the latest VALLEY, counted from the carrier reference (R119). -/
def Dev.carrierNo (d : Dev) (a : Nat) : Nat :=
  ((d.cluster (axCl a)).ref + d.fld (PWM_OFS a) PWM_OFS_ofs) / max 1 (d.carrier a)

/-- The carrier period under way holds an update point and offers its events to the Drawplate tile (R119). -/
def Dev.periodActive (d : Dev) (a : Nat) : Bool := d.carrierNo a % d.updDiv a == 0

/-- Where the window of a PWM event at carrier reference e opens and closes (R106). -/
def Dev.windowFrom (d : Dev) (a e : Nat) : Nat := e + d.fld (DRW_WIN_CFG a) DRW_WIN_CFG_win_delay
def Dev.windowTill (d : Dev) (a e : Nat) : Nat := d.windowFrom a e + d.fld (DRW_WIN_LEN a) DRW_WIN_LEN_win_len

/-- A PWM event reaches the Drawplate tile: the chosen one starts the delay; one that arrives while a delay counts or a
window is open is ignored and sets overrun (R106, R108). -/
def tileEvent (a : Nat) (peak : Bool) (d : Dev) : Dev :=
  let e := (d.cluster (axCl a)).ref
  if d.flag (PWM_CFG a) PWM_CFG_dbl || (d.fld (DRW_WIN_CFG a) DRW_WIN_CFG_win_evt == b2n (!peak)) then
    if (d.tile a).delaying || (d.tile a).opened then
      (upTo 3 (fun k => when (d.fld (DRW_CH_CFG (3 * a + k)) DRW_CH_CFG_win_mode == 1)
        (·.setB (DRW_CH_STAT (3 * a + k)) DRW_CH_STAT_overrun true)) d).modTile a fun t =>
          { t with lost := t.lost ++ [d.windowTill a e] }
    else d.modTile a fun t => { t with delaying := true, evt := e }
  else d

/-- The active duties take the shadow values, and staged dead time and minimum pulse take effect (R124, R135). -/
def loadDuties (a : Nat) (d : Dev) : Dev :=
  (((d.wr (PWM_ACT_U a) (d.rd (PWM_SHD_U a))).wr (PWM_ACT_V a) (d.rd (PWM_SHD_V a))).wr (PWM_ACT_W a)
    (d.rd (PWM_SHD_W a))).modPwm a fun p => { p with dt := d.rd (PWM_DT a) }

/-- The unit may be in DRIVE: R126 and the order of R131. -/
def Dev.mayDrive (d : Dev) (a : Nat) : Bool :=
  !d.flag (PWM_STAT a) PWM_STAT_forced && !(d.cluster (axCl a)).halting && (d.axis a).driveReady &&
    (d.axSt a == stEnabled || (d.axSt a == stFaulted && d.ramping a))

/-- The active duty of a phase. -/
def Dev.actDuty (d : Dev) (a ph : Nat) : Nat :=
  (d.rd (match ph with | 0 => PWM_ACT_U a | 1 => PWM_ACT_V a | _ => PWM_ACT_W a)).toNat

/-- The half-width h of the command interval in center mode, and its width w in edge mode, in taps of 1/32 ccyc, as the
active duty gives it (R122). -/
def Dev.halfTaps (d : Dev) (a ph : Nat) : Nat := (d.actDuty a ph * d.carrier a * 16 + 2 ^ 31) / 2 ^ 32
def Dev.widthTaps (d : Dev) (a ph : Nat) : Nat := (d.actDuty a ph * d.carrier a * 32 + 2 ^ 31) / 2 ^ 32

/-- The length of the command interval in taps (R122). -/
def Dev.intervalTaps (d : Dev) (a ph : Nat) : Nat :=
  if d.flag (PWM_CFG a) PWM_CFG_center then 2 * d.halfTaps a ph else d.widthTaps a ph

/-- The phase is to connect to the positive bus at the end of this ccyc: in center mode from V - h to V + h, each edge by
the h that is active when the counter passes it; in edge mode from Z to Z + w (R122). -/
def Dev.command (d : Dev) (a ph : Nat) : Bool :=
  let x := d.carrierPos a
  let y := x * 32 + 31
  if d.flag (PWM_CFG a) PWM_CFG_center then
    if x < d.carrier a / 2 then decide (y < d.halfTaps a ph) else decide (d.carrier a * 32 ≤ y + d.halfTaps a ph)
  else decide (y < d.widthTaps a ph)

/-- The tap of this ccyc at which the command takes its present level: that of the interval's edge where the edge lies in
this ccyc, else the ccyc's first (R122). -/
def Dev.edgeTap (d : Dev) (a ph : Nat) : Nat :=
  let x := d.carrierPos a
  let e := if d.flag (PWM_CFG a) PWM_CFG_center then
      if x < d.carrier a / 2 then d.halfTaps a ph else d.carrier a * 32 - d.halfTaps a ph
    else d.widthTaps a ph
  d.tapNow a + (if e / 32 = x then e % 32 else 0)

/-- The bit of a switch: UH 0, UL 1, VH 2, VL 3, WH 4, WL 5. -/
def switchBit (ph : Nat) (low : Bool) : Nat := 2 * ph + b2n low

/-- The tap at which a switch is to turn on, as dead time counts for it. -/
def Pwm.riseOf (p : Pwm) (k : Nat) : Option Nat := (p.rise.find? fun e => e.1 == k).map Prod.snd

/-- DRIVE, entered at an update point with every switch off; a switch that the active duties place on turns on dead time
later (R127). -/
def goDrive (a : Nat) (d : Dev) : Dev :=
  if d.outMode a = 1 then d
  else
    let at_ := d.tapNow a + (d.pwm a).deadTaps
    let l := (List.range 3).map fun ph => (switchBit ph (!d.command a ph), at_)
    setOutMode a 1 (d.modPwm a fun p => { p with on := 0, rise := l, keep := [], dropped := 0 })

/-- An update point: the duties load unless a hold skips it, PWM_UPD pulses, and the unit may enter DRIVE (R121, R124,
R126, R132). -/
def updatePoint (a : Nat) (d : Dev) : Dev :=
  let left := d.fld (PWM_HOLD a) PWM_HOLD_hold_left
  let d1 := if left = 0 then loadDuties a d
    else (d.setF (PWM_HOLD a) PWM_HOLD_hold_left (left - 1)).setB (PWM_STAT a) PWM_STAT_held true
  let d2 := fluxFire (axCl a) (0x40 + axLo a) d1
  when (d2.mayDrive a) (goDrive a) d2

/-- An event of the carrier takes place, once in its ccyc; a pulse dropped for a carrier period is dropped no longer
where the next period begins: at PEAK in center mode, at count 0 in edge mode (R117, R122, R123). -/
def carrierEvent (a : Nat) (fresh : Bool) (d : Dev) : Dev :=
  d.modPwm a fun p =>
    { p with evt := some (d.cluster (axCl a)).ref, dropped := if fresh then 0 else p.dropped }

/-- This ccyc's event of the carrier has taken place. -/
def Dev.carrierDone (d : Dev) (a : Nat) : Bool := (d.pwm a).evt == some (d.cluster (axCl a)).ref

/-- PWM_PEAK: the counter reads per (center) or per - 1 (edge). -/
def pwmPeak (a : Nat) (d : Dev) : Dev :=
  if !d.atPeak a || d.carrierDone a then d
  else
    let d1 := fluxFire (axCl a) (0x20 + axLo a) (carrierEvent a (d.flag (PWM_CFG a) PWM_CFG_center) d)
    let act := d.periodActive a
    let d2 := when act (tileEvent a true) d1
    when (d.flag (PWM_CFG a) PWM_CFG_dbl || (act && !d.flag (PWM_CFG a) PWM_CFG_upd_pt)) (updatePoint a) d2

/-- PWM_VALLEY: the counter reads 0, and the next carrier period begins (R117, R119). -/
def pwmValley (a : Nat) (d : Dev) : Dev :=
  if !d.atValley a || d.carrierDone a then d
  else
    let d1 := fluxFire (axCl a) (0x30 + axLo a) (carrierEvent a (!d.flag (PWM_CFG a) PWM_CFG_center) d)
    let act := d.periodActive a
    let d2 := when act (tileEvent a false) d1
    when (d.flag (PWM_CFG a) PWM_CFG_dbl || (act && d.flag (PWM_CFG a) PWM_CFG_upd_pt)) (updatePoint a) d2

/-- PWM_PEAK. -/
def execPwmPeak (a : Fin 64) (s : State) : Out := s.onCluster (axCl a.val) (pwmPeak a.val)

/-- PWM_VALLEY. -/
def execPwmValley (a : Fin 64) (s : State) : Out := s.onCluster (axCl a.val) (pwmValley a.val)

/-- The counter as PWM_STAT shows it: the position after (ref + ofs) mod period (R118, R134). -/
def Dev.pwmCount (d : Dev) (a : Nat) : Nat := if (d.pwm a).counts then d.carrierCnt a else 0

/-! ## Edges (R122, R123, R125) -/

/-- The pulse of a switch is dropped in this carrier period: its on-time, with both ends of the interval from the duties
now active, is shorter than the minimum in force (R123). -/
def Dev.pulseShort (d : Dev) (a ph : Nat) (low : Bool) : Bool :=
  let p := d.pwm a
  let len := d.intervalTaps a ph
  if low then decide (d.carrier a * 32 < len + p.deadTaps + p.minTaps) else decide (len < p.deadTaps + p.minTaps)

/-- A switch turns on where its dead time has passed and the other switch of its phase is off; its pulse then lasts the
minimum in force (R123, R127). In SHORT the response is complete once the low sides stand on (R98). -/
def switchOn (a me other : Nat) (d : Dev) : Dev :=
  let p := d.pwm a
  match p.riseOf me with
  | none => d
  | some t =>
    if p.on.testBit me ∨ p.on.testBit other ∨ d.tapNow a + 32 ≤ t then d
    else
      let d1 := d.modPwm a fun p =>
        { p with on := setBit p.on me true, rise := p.rise.filter fun e => e.1 != me,
                 keep := (p.keep.filter fun e => e.1 != me) ++ [(me, t + p.minTaps)] }
      when (d1.outMode a == 2 && d1.shortDone a && d1.axSt a == stFaulted)
        (fun x => retireCheck a (x.setB (AXS_STATE a) AXS_STATE_resp_done true)) d1

/-- A switch turns off where its minimum has passed, and the other one of its phase turns on dead time later (R123). -/
def switchOff (a me other t : Nat) (d : Dev) : Dev :=
  let p := d.pwm a
  let held := p.keep.any fun e => e.1 == me && decide (d.tapNow a + 32 ≤ e.2)
  if held ∨ ¬ (p.on.testBit me ∨ (p.riseOf me).isSome) then d
  else
    let off := (p.keep.filter fun e => e.1 == me).foldl (fun m e => max m e.2) t
    d.modPwm a fun p =>
      { p with on := setBit p.on me false, hiOff := if p.on.testBit me ∧ me % 2 = 0 then off else p.hiOff,
               rise := (p.rise.filter fun e => e.1 != me && e.1 != other) ++ [(other, off + p.deadTaps)],
               keep := p.keep.filter fun e => e.1 != me }

/-- A switch edge that the command interval gives in this ccyc. A turn-off is the edge that would turn the other switch
of the phase on: its pulse is kept there or dropped, and with a dropped pulse pulse_drop sets and this switch stays on
through the carrier period. The two switches of a phase are never on together, and dead time passes between them
(R122, R123, R127). Assumption 69 (DEDUCED). -/
def switchEdge (a ph : Nat) (low turnOn : Bool) (d : Dev) : Dev :=
  let me := switchBit ph low
  let other := switchBit ph (!low)
  let mine := d.command a ph != low
  match d.outMode a with
  | 1 =>
    if turnOn then (if mine then switchOn a me other d else d)
    else if mine ∨ (d.pwm a).dropped.testBit other then d
    else if d.pulseShort a ph (!low) then
      (d.setB (PWM_STAT a) PWM_STAT_pulse_drop true).modPwm a fun p => { p with dropped := setBit p.dropped other true }
    else switchOff a me other (d.edgeTap a ph) d
  | 2 => if turnOn ∧ low then switchOn a me other d else d
  | _ => d

/-- The level of PWM ball k of axis a (0 UH to 5 WL): the off level is pol, the on level its inverse; low while the
cluster is in reset (R125, R136). -/
def Dev.pwmBall (d : Dev) (a k : Nat) : Bool :=
  d.released (axCl a) && ((d.fld (PWM_POL a) PWM_POL_pol).testBit k != (d.pwm a).on.testBit k)

/-- SWITCH_EDGE. -/
def execSwitchEdge (a : Fin 64) (ph : Fin 3) (low turnOn : Bool) (s : State) : Out :=
  s.onCluster (axCl a.val) (switchEdge a.val ph.val low turnOn)

/-! ## Fault inputs and STO (R128 to R130) -/

/-- A qualified assertion of FLTaa_N (R128). -/
def fltAssert (a : Nat) (d : Dev) : Dev :=
  if d.flag (PWM_FLT a) PWM_FLT_flt_en = false ∨ d.flag (PWM_STAT a) PWM_STAT_flt_live then d
  else
    let d1 := (d.setB (PWM_STAT a) PWM_STAT_flt_live true).setB (PWM_STAT a) PWM_STAT_flt_seen true
    if d1.axSt a = stRetired then d1 else forcedPath a 0x01 (setAct a 0x01 true d1)

/-- The end of an assertion of FLTaa_N (R128). -/
def fltRelease (a : Nat) (d : Dev) : Dev :=
  if d.flag (PWM_STAT a) PWM_STAT_flt_live then setAct a 0x01 false (d.setB (PWM_STAT a) PWM_STAT_flt_live false) else d

/-- FLT_ASSERT. -/
def execFltAssert (a : Fin 64) (s : State) : Out := s.onCluster (axCl a.val) (fltAssert a.val)

/-- FLT_RELEASE. -/
def execFltRelease (a : Fin 64) (s : State) : Out := s.onCluster (axCl a.val) (fltRelease a.val)

/-- Local axis l of cluster c is mapped to an STO input that is asserted. -/
def Dev.stoMapped (d : Dev) (c l : Nat) : Bool :=
  (List.range 8).any fun g =>
    (d.fld (PWM_STO_STAT c) PWM_STO_STAT_live).testBit g && (d.fld (PWM_STO_MAP (c * 8 + g)) PWM_STO_MAP_axes).testBit l

/-- An STO input acts on an axis: the forced path, or its flag only while RETIRED (R129). -/
def stoAct (a : Nat) (d : Dev) : Dev :=
  let d1 := d.setB (PWM_STAT a) PWM_STAT_sto_live true
  if d1.axSt a = stRetired then d1 else forcedPath a 0x02 (setAct a 0x02 true d1)

/-- An axis that no asserted STO input maps any more (R129). -/
def stoFree (a : Nat) (d : Dev) : Dev :=
  if d.stoMapped (axCl a) (axLo a) = false ∧ d.flag (PWM_STAT a) PWM_STAT_sto_live then
    setAct a 0x02 false (d.setB (PWM_STAT a) PWM_STAT_sto_live false) else d

/-- A qualified assertion of STO_Ng in cluster c (R129). -/
def stoAssert (c g : Nat) (d : Dev) : Dev :=
  let st := PWM_STO_STAT c
  if (d.fld st PWM_STO_STAT_live).testBit g then d
  else
    let d1 := (d.setF st PWM_STO_STAT_seen (setBit (d.fld st PWM_STO_STAT_seen) g true)).setF st PWM_STO_STAT_live
      (setBit (d.fld st PWM_STO_STAT_live) g true)
    upTo 16 (fun l => when ((d.fld (PWM_STO_MAP (c * 8 + g)) PWM_STO_MAP_axes).testBit l) (stoAct (c * 16 + l))) d1

/-- The end of an assertion of STO_Ng (R129). -/
def stoRelease (c g : Nat) (d : Dev) : Dev :=
  let st := PWM_STO_STAT c
  upTo 16 (fun l => stoFree (c * 16 + l)) (d.setF st PWM_STO_STAT_live (setBit (d.fld st PWM_STO_STAT_live) g false))

/-- STO_ASSERT. -/
def execStoAssert (c : Fin 4) (g : Fin 8) (s : State) : Out := s.onCluster c.val (stoAssert c.val g.val)

/-- STO_RELEASE. -/
def execStoRelease (c : Fin 4) (g : Fin 8) (s : State) : Out := s.onCluster c.val (stoRelease c.val g.val)

/-- A write of PWM_STO_MAP[g] of cluster c: discarded as a whole where it would clear an active axis; an added axis
whose input is asserted takes the forced path at once (R130). -/
def stoMapWrite (w : Writer) (c g : Nat) (v : Word) (d : Dev) : Dev :=
  let addr := PWM_STO_MAP (c * 8 + g)
  let old := d.fld addr PWM_STO_MAP_axes
  let new := fget PWM_STO_MAP_axes v
  if !d.accepts w addr then plainWrite w addr v d
  else if (List.range 16).any fun l => old.testBit l && !new.testBit l && decide (stArmed ≤ d.axSt (c * 16 + l)) then
    discardWrite w addr (d.setB (PWM_GSTAT c) PWM_GSTAT_sto_refused true)
  else
    let d1 := plainWrite w addr v d
    upTo 16 (fun l x =>
      if new.testBit l ∧ ¬ old.testBit l ∧ (x.fld (PWM_STO_STAT c) PWM_STO_STAT_live).testBit g then stoAct (c * 16 + l) x
      else stoFree (c * 16 + l) x) d1

/-- PWM_STO_MAP_WRITE. -/
def execPwmStoMapWrite (w : Writer) (c : Fin 4) (g : Fin 8) (v : Word) (s : State) : Out :=
  s.onCluster c.val (stoMapWrite w c.val g.val v)

/-- An input still asserted when axis a becomes ADMITTED acts in that ccyc (R128, R129). -/
def inputsAtAdmission (a : Nat) (d : Dev) : Dev :=
  let d1 := when (d.flag (PWM_STAT a) PWM_STAT_flt_live)
    (fun x => forcedPath a 0x01 (setAct a 0x01 true (x.setB (PWM_STAT a) PWM_STAT_flt_seen true))) d
  when (d1.flag (PWM_STAT a) PWM_STAT_sto_live) (fun x => forcedPath a 0x02 (setAct a 0x02 true x)) d1

/-! ## Hold (R132) -/

/-- A pulse on PWM_HOLD starts or restarts skipping hold_cnt update points. -/
def pwmHold (a : Nat) (d : Dev) : Dev :=
  let d1 := fluxArrive (axCl a) (0x10 + axLo a) d
  when (d1.flag (PWM_HOLD a) PWM_HOLD_hold_en)
    (·.setF (PWM_HOLD a) PWM_HOLD_hold_left (d1.fld (PWM_HOLD a) PWM_HOLD_hold_cnt)) d1

/-- PWM_HOLD. -/
def execPwmHold (a : Fin 64) (s : State) : Out := s.onCluster (axCl a.val) (pwmHold a.val)

/-! ## Register writes (R120, R130, R135) -/

/-- A write that the admission lock discards as a whole. -/
def lockedOut (w : Writer) (addr a : Nat) (d : Dev) : Dev :=
  discardWrite w addr (d.setB (PWM_GSTAT (axCl a)) PWM_GSTAT_adm_lock true)

/-- A write of a register that is locked while the axis is not RETIRED (R135). -/
def lockedWrite (w : Writer) (addr a : Nat) (f : Fld) (v : Word) (d : Dev) : Dev :=
  if d.accepts w addr ∧ d.axSt a ≠ stRetired ∧ fget f v ≠ d.fld addr f then lockedOut w addr a d
  else plainWrite w addr v d

/-- A write of PWM_CFG: combinations that R120 excludes are discarded with cfg_err; one that would also change a locked
setting sets adm_lock as well (R120, R135). -/
def pwmCfgWrite (w : Writer) (a : Nat) (v : Word) (d0 : Dev) : Dev :=
  let addr := PWM_CFG a
  let lock := d0.accepts w addr && d0.axSt a != stRetired && fget ⟨27, 5⟩ v != d0.fld addr ⟨27, 5⟩
  let d := when lock (·.setB (PWM_GSTAT (axCl a)) PWM_GSTAT_adm_lock true) d0
  if d.accepts w addr ∧ (fget PWM_CFG_upd_div v = 3 ∨
      (fget PWM_CFG_dbl v = 1 ∧ (fget PWM_CFG_center v = 0 ∨ fget PWM_CFG_upd_div v ≠ 0))) then
    discardWrite w addr (d.setB (PWM_GSTAT (axCl a)) PWM_GSTAT_cfg_err true)
  else lockedWrite w addr a ⟨27, 5⟩ v d

/-- A write of PWM_FLT: clearing flt_en needs RETIRED or ADMITTED (R130). -/
def pwmFltWrite (w : Writer) (a : Nat) (v : Word) (d : Dev) : Dev :=
  let addr := PWM_FLT a
  if d.accepts w addr ∧ d.flag addr PWM_FLT_flt_en ∧ fget PWM_FLT_flt_en v = 0 ∧ stArmed ≤ d.axSt a then
    lockedOut w addr a d
  else plainWrite w addr v d

/-- A write of a PWM register (R135, R136). -/
def pwmWrite (nm : RegName) (ix : List Nat) (w : Writer) (addr : Nat) (v : Word) (d : Dev) : Dev :=
  let a := ix.headD 0
  match nm with
  | .PWM_CFG => pwmCfgWrite w a v d
  | .PWM_PER => lockedWrite w addr a PWM_PER_per v d
  | .PWM_OFS => lockedWrite w addr a PWM_OFS_ofs v d
  | .PWM_POL => lockedWrite w addr a PWM_POL_pol v d
  | .PWM_FLT => pwmFltWrite w a v d
  | .PWM_STO_MAP => stoMapWrite w (a / 8) (a % 8) v d
  | _ => plainWrite w addr v d

end Sys2Proof.Machine
end

