-- ==== Sys2Proof/Machine/Drawplate.lean ====
section
/-!
DEFINITION. Chapter "Drawplate" (R99 to R116): modulator clocks, the main filter and its results, the overcurrent fast
path, and the register writes. Bits that a channel captured come with the command.
-/
namespace Sys2Proof.Machine

/-! ## Filters (R104, R107, R110) -/

/-- Running sums of a list. -/
def prefixSums : List Nat → Nat → List Nat
  | [], _ => []
  | x :: r, acc => (acc + x) :: prefixSums r (acc + x)

/-- The sums of the last n values at every place; what lies before the list counts as 0. -/
def boxcar (n : Nat) (l : List Nat) : List Nat :=
  let p := prefixSums l 0
  List.zipWith (· - ·) p (List.replicate n 0 ++ p)

/-- The boxcar of length n applied k times: the raw outputs of sinc^k, one at every captured bit. -/
def sincRaw : Nat → Nat → List Nat → List Nat
  | 0, _, l => l
  | k + 1, n, l => sincRaw k n (boxcar n l)

/-- The captured bits as numbers, oldest first. -/
def bitsAll (b : ChanBits) : List Nat := (b.before ++ b.inside).map b2n

/-- The raw outputs at the captures of the stretch itself. -/
def bitOutputs (b : ChanBits) (k n : Nat) : List Nat := (sincRaw k n (bitsAll b)).drop b.before.length

/-- The lengths of the runs of identical bits, with the index just after each run. -/
def bitRuns : List Nat → Nat → Nat → Option Nat → List (Nat × Nat)
  | [], i, len, _ => [(len, i)]
  | x :: r, i, len, prev =>
    if prev = some x then bitRuns r (i + 1) (len + 1) prev else (len, i) :: bitRuns r (i + 1) 1 (some x)

/-- A run of stuck_len identical bits touches the bits from index start on (R109). -/
def stuckTouches (stuck start : Nat) (l : List Nat) : Bool :=
  (bitRuns l 0 0 none).any fun r => decide (stuck ≤ r.1) && decide (start < r.2)

/-- n is a power of two. -/
def isPow2 (n : Nat) : Bool := (List.range 33).any fun i => n == 2 ^ i

/-- A result of R104 from the sum of n raw outputs with full scale full each: the 24-bit field and whether it was
clamped. free is the open error of at most one unit where the counts are no powers of two. Assumption 31 (DEDUCED). -/
def drwConvert (sum n full : Nat) (corr : Word) (width free : Nat) : Nat × Bool :=
  let den : Int := n * full
  let off := sx 16 (fget DRW_CH_CORR_offset corr)
  let num : Int := ((2 * (sum : Int) - den) * 32768 - off * den) * fget DRW_CH_CORR_gain corr
  let den2 : Int := den * 2 ^ 30
  let r0 := (2 * num * 2 ^ (width - 1) + den2) / (2 * den2)
  let r := if isPow2 n && isPow2 full then r0 else r0 + (free % 3 : Nat) - 1
  let c := satI width r
  (wrapN 24 (c * 2 ^ (24 - width)), decide (c ≠ r))

/-! ## Channels and tiles -/

/-- The device-wide number of the clock a channel selects. -/
def Dev.chanClock (d : Dev) (h : Nat) : Nat := h / 48 * 4 + d.fld (DRW_CH_CFG h) DRW_CH_CFG_sdc_sel

/-- K of the main filter. -/
def Dev.chanOrder (d : Dev) (h : Nat) : Nat := 3 + d.fld (DRW_CH_CFG h) DRW_CH_CFG_order

/-- OSR of the main filter. -/
def Dev.chanOsr (d : Dev) (h : Nat) : Nat := d.fld (DRW_CH_CFG h) DRW_CH_CFG_osr_m1 + 1

/-- The channel's clock runs and reads back. -/
def Dev.clockGood (d : Dev) (h : Nat) : Bool :=
  d.flag (DRW_CLK (d.chanClock h)) DRW_CLK_running && !d.flag (DRW_CLK (d.chanClock h)) DRW_CLK_clk_lost

/-- The axis whose tile holds channel h. -/
def chanAxis (h : Nat) : Nat := h / 3

/-- The captures of channel h at carrier references from lo up to, not including, hi: one cap_dly ccyc after each rising
edge of its clock, and none while that stands (R99, R100). -/
def Dev.captures (d : Dev) (h lo hi : Nat) : Nat :=
  let n := d.chanClock h
  let div := max 1 (d.fld (DRW_CLK n) DRW_CLK_clk_div)
  let first := mget 0 d.sdcAt n + d.fld (DRW_CH_CFG h) DRW_CH_CFG_cap_dly
  let before := fun (x : Nat) => if x ≤ first then 0 else (x - first - 1) / div + 1
  if d.flag (DRW_CLK n) DRW_CLK_running then before hi - before lo else 0

/-- The carrier reference of channel h's cluster. -/
def Dev.chanRef (d : Dev) (h : Nat) : Nat := (d.cluster (h / 48)).ref

/-- A capture of channel h falls in this ccyc. -/
def Dev.captureNow (d : Dev) (h : Nat) : Bool := d.captures h (d.chanRef h) (d.chanRef h + 1) == 1

/-- The carrier reference of the n-th capture of channel h back from this ccyc's, this one being the first. -/
def Dev.captureBack (d : Dev) (h n : Nat) : Nat := d.chanRef h - (n - 1) * d.fld (DRW_CLK (d.chanClock h)) DRW_CLK_clk_div

/-- n bits of a list; those it does not give are open. -/
def fitBits (free n : Nat) (l : List Bool) : List Bool := (List.range n).map fun i => l.getD i (free.testBit i)

/-- The bits that channel h captured from lo up to, not including, hi, and those before back to where it settled, as far
as filters and stuck runs reach: how many is the clock's, their levels come with the command, and a level it does not
give is open (R100, R105 to R110). Assumption 31 (DEDUCED). -/
def Dev.bitsFor (d : Dev) (h lo hi : Nat) (b : ChanBits) : ChanBits :=
  let s := (d.chan h).since + 1
  let m := min (d.captures h s (max s lo)) (d.chanOrder h * d.chanOsr h + d.fld (DRW_CFG (h / 48)) DRW_CFG_stuck_len)
  { before := (fitBits d.bump.open_ m b.before.reverse).reverse, inside := fitBits d.open_ (d.captures h (max s lo) hi) b.inside }

/-- The captured bits settle the main filter before the stretch, or with it for a continuous result (R105, R109). -/
def Dev.settledWith (d : Dev) (h n : Nat) : Bool := decide (d.chanOrder h * d.chanOsr h ≤ n)

/-- An output of the fast path in Q0.15 (R110). -/
def ocValue (out n : Nat) : Int :=
  let den : Int := (n * n : Nat)
  let r := (2 * ((2 * (out : Int) - den) * 32768) + den) / (2 * den)
  satI 16 r

/-- The outputs of the fast path at the captures of the stretch, with the bits captured up to each.
Assumption 31 (DEDUCED). -/
def Dev.ocOutputs (d : Dev) (h : Nat) (b : ChanBits) : List (Nat × Int) :=
  let n := d.fld (DRW_OC_CFG h) DRW_OC_CFG_oc_osr
  let o := (bitOutputs b 2 n).map fun x => ocValue x n
  List.zip ((List.range o.length).map fun i => b.before.length + i + 1) o

/-- The latest output shown in DRW_OC_VAL (R110). -/
def Dev.showOc (d : Dev) (h : Nat) (o : List (Nat × Int)) : Dev :=
  match o.getLast? with
  | some y => d.setF (DRW_OC_VAL h) DRW_OC_VAL_oc_val (wrapN 16 y.2)
  | none => d

/-- The bits of channel k of tile a among those that a command brings: channels that take one ball by one clock and one
delay capture the same (R102). -/
def Dev.tileBits (d : Dev) (a : Nat) (bs : List ChanBits) (k : Nat) : ChanBits :=
  let key := fun (i : Nat) =>
    let r := DRW_CH_CFG (3 * a + i)
    (d.fld r DRW_CH_CFG_src, d.fld r DRW_CH_CFG_sdc_sel, d.fld r DRW_CH_CFG_cap_dly)
  bs.getD (((List.range 3).find? fun i => key i == key k).getD k) ⟨[], []⟩

/-- A window result of channel h from the bits captured (R107, R109): its 24 bits if it is valid.
Assumption 31 (DEDUCED). -/
def windowResult (a k : Nat) (given : ChanBits) (d0 : Dev) : Dev × Option Nat :=
  let h := 3 * a + k
  let stat := DRW_CH_STAT h
  let kk := d0.chanOrder h
  let n := d0.chanOsr h
  let lo := d0.windowFrom a (d0.tile a).evt
  let b := d0.bitsFor h lo (d0.chanRef h) given
  let d := (when (d0.flag (DRW_CH_CFG h) DRW_CH_CFG_ch_en) (·.showOc h (d0.ocOutputs h b)) d0).bump.bump
  let settled := d.settledWith h (d0.captures h ((d0.chan h).since + 1) lo)
  let start := b.before.length - kk * n
  let ok := d.flag (DRW_CH_CFG h) DRW_CH_CFG_ch_en && d.clockGood h && settled && b.inside != [] &&
    !stuckTouches (d.fld (DRW_CFG (axCl a)) DRW_CFG_stuck_len) start (bitsAll b) && !(d.tile a).cut.testBit k
  let d1 := (d.setB stat DRW_CH_STAT_unsettled (!settled)).bump
  let d2 := when (b.inside == []) (·.setB stat DRW_CH_STAT_no_data true) d1
  let x := drwConvert ((bitOutputs b kk n).foldl (· + ·) 0) b.inside.length (n ^ kk)
    (mget 0x00008000 (d.tile a).corr k) (d.fld (DRW_CH_CFG h) DRW_CH_CFG_width) d.open_
  if ok then (when x.2 (·.setB stat DRW_CH_STAT_clip true) d2, some x.1) else (d2, none)

/-- A result put into DRW_RES: valid or not it counts in seq; an invalid one leaves res and counts (R105, R107). -/
def putResult (h : Nat) (r : Option Nat) (d : Dev) : Dev :=
  let d1 := d.incW (DRW_RES h) DRW_RES_seq
  match r with
  | some v => (d1.setF (DRW_RES h) DRW_RES_res v).setB (DRW_RES h) DRW_RES_valid true
  | none => (d1.setB (DRW_RES h) DRW_RES_valid false).incF (DRW_CH_STAT h) DRW_CH_STAT_inval_cnt

/-- The window opens: the delay is over, and the corrections written so far hold for it (R106, R114). -/
def windowOpens (a : Nat) (d : Dev) : Dev :=
  if !(d.tile a).delaying || (d.cluster (axCl a)).ref != d.windowFrom a (d.tile a).evt then d
  else d.modTile a fun t =>
    { t with delaying := false, opened := true, cut := 0,
             corr := ⟨[(0, d.rd (DRW_CH_CORR (3 * a))), (1, d.rd (DRW_CH_CORR (3 * a + 1))), (2, d.rd (DRW_CH_CORR (3 * a + 2)))]⟩ }

/-- WINDOW_OPEN. -/
def execWindowOpen (a : Fin 64) (s : State) : Out := s.onCluster (axCl a.val) (windowOpens a.val)

/-- The results of a tile formed at S for its channels in window mode (R105, R107). Assumption 31 (DEDUCED). -/
def formResults (a : Nat) (b0 b1 b2 : ChanBits) (d : Dev) : Dev :=
  let one := fun (k : Nat) (x : Dev) =>
    if x.fld (DRW_CH_CFG (3 * a + k)) DRW_CH_CFG_win_mode = 1 then
      let y := windowResult a k (d.tileBits a [b0, b1, b2] k) x
      y.1.modTile a fun t => { t with formed := t.formed ++ [(k, y.2)] }
    else x
  upTo 3 one (d.modTile a fun t => { t with formed := [] })

/-- The formed results stand in DRW_RES at S + 4 (R107). -/
def standResults (a : Nat) (d : Dev) : Dev :=
  ((d.tile a).formed.foldl (fun x f => putResult (3 * a + f.1) f.2 x) d).modTile a fun t => { t with formed := [] }

/-- A port value of a channel: res << 8 (R104), and whether it is valid; a channel in continuous mode never is (R105). -/
def Dev.chanPort (d : Dev) (h : Nat) : Word × Bool :=
  (w32 (d.fld (DRW_RES h) DRW_RES_res * 256),
   d.flag (DRW_RES h) DRW_RES_valid && d.fld (DRW_CH_CFG h) DRW_CH_CFG_win_mode == 1)

/-- The IA, IB and IC ports of axis a (R102, R103). -/
def Dev.currents (d : Dev) (a : Nat) : (Word × Bool) × (Word × Bool) × (Word × Bool) :=
  let x := d.chanPort (3 * a)
  let y := d.chanPort (3 * a + 1)
  let z := if d.flag (DRW_WIN_CFG a) DRW_WIN_CFG_two_sensor then
      (wI (satI 32 (-(sgn x.1 + sgn y.1))), x.2 && y.2)
    else d.chanPort (3 * a + 2)
  (x, y, z)

/-- CONTINUOUS_RESULT: a decimated result at every OSR-th bit captured since the enable (R105).
Assumption 31 (DEDUCED). -/
def continuousResult (h : Nat) (given : ChanBits) (d0 : Dev) : Dev :=
  let kk := d0.chanOrder h
  let n := d0.chanOsr h
  let total := d0.captures h ((d0.chan h).since + 1) (d0.chanRef h + 1)
  if d0.fld (DRW_CH_CFG h) DRW_CH_CFG_win_mode = 1 ∨ d0.flag (DRW_CH_CFG h) DRW_CH_CFG_ch_en = false ∨
      d0.captureNow h = false ∨ ((d0.chan h).prior + total) % n ≠ 0 then d0
  else
    let b := d0.bitsFor h (d0.captureBack h n) (d0.chanRef h + 1) given
    let d := (d0.showOc h (d0.ocOutputs h b)).bump.bump
    let settled := d.settledWith h total
    let ok := d.clockGood h && settled &&
      !stuckTouches (d.fld (DRW_CFG (h / 48)) DRW_CFG_stuck_len) (b.before.length + n - kk * n) (bitsAll b)
    let x := drwConvert ((bitOutputs b kk n).getLastD 0) 1 (n ^ kk) (d.rd (DRW_CH_CORR h))
      (d.fld (DRW_CH_CFG h) DRW_CH_CFG_width) d.open_
    let d1 := (d.setB (DRW_CH_STAT h) DRW_CH_STAT_unsettled (!settled)).bump
    let d2 := when (ok && x.2) (·.setB (DRW_CH_STAT h) DRW_CH_STAT_clip true) d1
    putResult h (if ok then some x.1 else none) d2

/-- CONTINUOUS_RESULT. -/
def execContinuousResult (h : Fin 192) (b : ChanBits) (s : State) : Out :=
  s.onCluster (h.val / 48) (continuousResult h.val b)

/-- STUCK_RUN: a run of stuck_len identical bits (R109). -/
def execStuckRun (h : Fin 192) (s : State) : Out :=
  s.onCluster (h.val / 48) fun d =>
    if d.flag (DRW_CH_CFG h.val) DRW_CH_CFG_ch_en then
      postEvent (evOpen 5 1) (0x10 + h.val / 48) h.val [] (d.setB (DRW_CH_STAT h.val) DRW_CH_STAT_stuck true)
    else d

/-! ## Clocks (R99 to R101, R113, R115) -/

/-- The channels of the cluster of clock n that select it. -/
def Dev.clockUsers (d : Dev) (n : Nat) : List Nat :=
  ((List.range 48).map (n / 4 * 48 + ·)).filter fun h => d.chanClock h == n

/-- Open windows of the channels of clock n lose their captures (R109, R115). -/
def cutWindows (n : Nat) (d : Dev) : Dev :=
  (d.clockUsers n).foldl (fun x h => x.modTile (chanAxis h) fun t => { t with cut := setBit t.cut (h % 3) true }) d

/-- Channel h counts as restarted for settling; the bits captured since its enable stay counted (R101, R105, R109). -/
def restartChan (h : Nat) (d : Dev) : Dev :=
  let n := d.captures h ((d.chan h).since + 1) (d.chanRef h + 1)
  (d.modChan h fun x => { x with since := d.chanRef h, prior := x.prior + n }).setB (DRW_CH_STAT h) DRW_CH_STAT_unsettled true

/-- The channels of clock n count as restarted for settling (R101, R109). -/
def unsettle (n : Nat) (d : Dev) : Dev := (d.clockUsers n).foldl (fun x h => restartChan h x) d

/-- Clock n starts with its divider's wrap on the next ccyc (R99). -/
def clockStart (n : Nat) (d : Dev) : Dev :=
  let d1 := unsettle n d
  ({ d1 with sdcAt := mset 0 d1.sdcAt n ((d.cluster (n / 4)).ref + 1) } : Dev).setB (DRW_CLK n) DRW_CLK_running true

/-- A wrap of the divider of clock n falls in this ccyc (R99). -/
def Dev.sdcWrap (d : Dev) (n : Nat) : Bool :=
  ((d.cluster (n / 4)).ref - mget 0 d.sdcAt n) % max 1 (d.fld (DRW_CLK n) DRW_CLK_clk_div) == 0

/-- clk_lost of a clock and of the channels that select it. -/
def setLost (n : Nat) (b : Bool) (d : Dev) : Dev :=
  (d.clockUsers n).foldl (fun x h => x.setB (DRW_CH_STAT h) DRW_CH_STAT_clk_lost b)
    (d.setB (DRW_CLK n) DRW_CLK_clk_lost b)

/-- A write of DRW_CLK (R99, R113). -/
def drwClkWrite (w : Writer) (n : Nat) (v : Word) (d : Dev) : Dev :=
  let addr := DRW_CLK n
  if d.flag addr DRW_CLK_running ∧ fget DRW_CLK_clk_div v ≠ d.fld addr DRW_CLK_clk_div then
    discardWrite w addr (d.setB (DRW_STAT (n / 4)) DRW_STAT_cfg_refused true)
  else
    let was := d.flag addr DRW_CLK_en
    let d1 := plainWrite w addr v d
    let is := d1.flag addr DRW_CLK_en
    if is && !was then
      if d1.draining.contains n then { d1 with draining := d1.draining.filter (· != n) }
      else clockStart n d1
    else if was && !is then { d1 with draining := d1.draining ++ [n] }
    else d1

/-- DRW_CLK_WRITE. -/
def execDrwClkWrite (w : Writer) (n : Fin 16) (v : Word) (s : State) : Out := s.onCluster (n.val / 4) (drwClkWrite w n.val v)

/-- CLOCK_DRAIN_END: the drained period ends and the ball stays low; its channels lose their captures (R99, R115). -/
def execClockDrainEnd (n : Fin 16) (s : State) : Out :=
  s.onCluster (n.val / 4) fun d =>
    if d.draining.contains n.val ∧ d.sdcWrap n.val = true then
      cutWindows n.val ((unsettle n.val { d with draining := d.draining.filter (· != n.val) }).setB (DRW_CLK n.val)
        DRW_CLK_running false)
    else d

/-- SDC_READBACK_FAIL (R101). -/
def execSdcReadbackFail (n : Fin 16) (s : State) : Out :=
  s.onCluster (n.val / 4) fun d =>
    if d.flag (DRW_CLK n.val) DRW_CLK_running then
      postEvent (evOpen 5 0) (0x10 + n.val / 4) n.val []
        (cutWindows n.val (setLost n.val true (d.setB (DRW_CLK n.val) DRW_CLK_clk_fault true)))
    else d

/-- SDC_READBACK_RECOVER (R101). -/
def execSdcReadbackRecover (n : Fin 16) (s : State) : Out :=
  s.onCluster (n.val / 4) fun d =>
    if d.flag (DRW_CLK n.val) DRW_CLK_clk_lost then unsettle n.val (setLost n.val false d) else d

/-! ## Overcurrent (R110 to R112, R114) -/

/-- An output is beyond a threshold: 1 above hi_th, 2 below lo_th, 0 within both. -/
def Dev.ocBeyond (d : Dev) (h : Nat) (y : Int) : Nat :=
  if sx 16 (d.fld (DRW_OC_TH h) DRW_OC_TH_hi_th) < y then 1
  else if y < sx 16 (d.fld (DRW_OC_TH h) DRW_OC_TH_lo_th) then 2 else 0

/-- OVERCURRENT is present on tile a: a qualified condition on a channel with oc_act 0b10 or 0b11 (R112). -/
def Dev.ocPresent (d : Dev) (a : Nat) : Bool :=
  (List.range 3).any fun k => (d.chan (3 * a + k)).oc != 0 && decide (2 ≤ (d.chan (3 * a + k)).act)

/-- The tile's live flags from its channels (R112). -/
def ocLevels (a : Nat) (d : Dev) : Dev :=
  let any := (List.range 3).any fun k => (d.chan (3 * a + k)).oc != 0
  let st := DRW_STAT (axCl a)
  let d1 := d.setF st DRW_STAT_oc_axes (setBit (d.fld st DRW_STAT_oc_axes) (axLo a) any)
  setAct a 0x03 (d1.ocPresent a) d1

/-- A qualified condition acts by oc_act (R111). -/
def ocActs (h : Nat) (d : Dev) : Dev :=
  let a := chanAxis h
  let act := d.fld (DRW_OC_CFG h) DRW_OC_CFG_oc_act
  let was := (List.range 3).any fun k => (d.chan (3 * a + k)).raising
  let d1 := ocLevels a (d.modChan h fun x => { x with raising := act != 0, act := act })
  if act = 0 then d1
  else
    let d2 := when (!was) (fluxFire (axCl a) (0x60 + axLo a)) d1
    let d3 := postEvent (evOpen 5 2) (0x10 + axCl a) h [] d2
    if act = 3 then forcedPath a 0x03 d3 else if act = 2 then recordCause a 0x03 d3 else d3

/-- A qualified condition ends (R110, R112). -/
def ocEnds (h : Nat) (d : Dev) : Dev :=
  let d1 := d.modChan h fun x => { x with oc := 0, raising := false }
  ocLevels (chanAxis h) (d1.setB (DRW_CH_STAT h) DRW_CH_STAT_oc_now false)

/-- A new oc_act takes effect on a qualified condition at the next captured bit (R114). -/
def ocTick (c : Nat) (d : Dev) : Dev :=
  (d.chans.entries.filter fun e => e.1 / 48 == c && e.2.oc != 0).foldl (fun x e =>
    if (x.chan e.1).oc ≠ 0 ∧ (x.chan e.1).act ≠ x.fld (DRW_OC_CFG e.1) DRW_OC_CFG_oc_act ∧ x.captureNow e.1 = true then
      ocActs e.1 x
    else x) d

/-- The fast path of channel h takes a bit in this ccyc and compares: it is enabled, and its clock runs and reads back
(R110). -/
def Dev.ocTakes (d : Dev) (h : Nat) : Bool :=
  d.flag (DRW_CH_CFG h) DRW_CH_CFG_ch_en && d.clockGood h && d.captureNow h

/-- The condition of channel h qualifies at this capture: oc_qual outputs in a row, all captured since the thresholds were
written and settled, are beyond a threshold (R110, R114). -/
def Dev.ocQualifies (d : Dev) (h q : Nat) (b : ChanBits) : Bool :=
  let n := d.fld (DRW_OC_CFG h) DRW_OC_CFG_oc_osr
  (d.chan h).oc == 0 && b.inside.length == q &&
    decide (q ≤ d.captures h ((d.chan h).ocSince + 1) (d.chanRef h + 1)) &&
    (d.ocOutputs h b).all fun y => decide (2 * n ≤ y.1) && d.ocBeyond h y.2 != 0

/-- The threshold beyond which the last of these outputs lies: 1 hi_th, 2 lo_th. Assumption 70 (DESIGN CHOICE). -/
def Dev.ocSide (d : Dev) (h : Nat) (o : List (Nat × Int)) : Nat :=
  match o.getLast? with
  | some y => d.ocBeyond h y.2
  | none => 1

/-- A condition of channel h qualifies beyond this threshold (R111). -/
def ocBegins (h side : Nat) (d : Dev) : Dev :=
  let d1 := (d.modChan h fun x => { x with oc := side }).setB (DRW_CH_STAT h) DRW_CH_STAT_oc_now true
  ocActs h (d1.setB (DRW_CH_STAT h) (if side = 1 then DRW_CH_STAT_oc_hi else DRW_CH_STAT_oc_lo) true)

/-- OVERCURRENT_QUALIFY: oc_qual consecutive outputs are beyond a threshold, all of them captured since the thresholds
were written (R110, R111, R114). oc_hi or oc_lo sets by the last of them. Assumption 70 (DESIGN CHOICE). -/
def overcurrentQualify (h : Nat) (given : ChanBits) (d : Dev) : Dev :=
  if !d.ocTakes h then d
  else
    let q := d.fld (DRW_OC_CFG h) DRW_OC_CFG_oc_qual_m1 + 1
    let b := d.bitsFor h (d.captureBack h q) (d.chanRef h + 1) given
    let o := d.ocOutputs h b
    let d1 := (d.showOc h o).bump.bump
    if d.ocQualifies h q b then ocBegins h (d.ocSide h o) d1 else d1

/-- OVERCURRENT_QUALIFY. -/
def execOvercurrentQualify (h : Fin 192) (b : ChanBits) (s : State) : Out :=
  s.onCluster (h.val / 48) (overcurrentQualify h.val b)

/-- OVERCURRENT_RELEASE: the first output within both thresholds, while comparisons are not suspended (R110). -/
def overcurrentRelease (h : Nat) (given : ChanBits) (d : Dev) : Dev :=
  if !d.ocTakes h then d
  else
    let b := d.bitsFor h (d.chanRef h) (d.chanRef h + 1) given
    let o := d.ocOutputs h b
    let d1 := (d.showOc h o).bump.bump
    match o.getLast? with
    | some y => if (d.chan h).oc ≠ 0 ∧ 2 * d.fld (DRW_OC_CFG h) DRW_OC_CFG_oc_osr ≤ y.1 ∧ d.ocBeyond h y.2 = 0 then ocEnds h d1 else d1
    | none => d1

/-- OVERCURRENT_RELEASE. -/
def execOvercurrentRelease (h : Fin 192) (b : ChanBits) (s : State) : Out :=
  s.onCluster (h.val / 48) (overcurrentRelease h.val b)

/-! ## Register writes (R113, R114) -/

/-- A write that the admission lock discards as a whole (R113). -/
def drwLocked (w : Writer) (addr c : Nat) (d : Dev) : Dev :=
  discardWrite w addr (d.setB (DRW_STAT c) DRW_STAT_adm_lock true)

/-- A write of DRW_OC_CFG (R113, R114). -/
def ocCfgWrite (w : Writer) (h : Nat) (v : Word) (d : Dev) : Dev :=
  let addr := DRW_OC_CFG h
  let a := chanAxis h
  if d.accepts w addr ∧ d.axSt a ≠ stRetired ∧ fget DRW_OC_CFG_oc_osr v ≠ d.fld addr DRW_OC_CFG_oc_osr then
    drwLocked w addr (h / 48) d
  else
    let d1 := plainWrite w addr v d
    when (d.accepts w addr) (·.modChan h fun x => { x with ocSince := d.chanRef h }) d1

/-- DRW_OC_CFG_WRITE. -/
def execDrwOcCfgWrite (w : Writer) (h : Fin 192) (v : Word) (s : State) : Out :=
  s.onCluster (h.val / 48) (ocCfgWrite w h.val v)

/-- A write of DRW_OC_TH: thresholds that are not in order are discarded with th_err (R114). -/
def ocThWrite (w : Writer) (h : Nat) (v : Word) (d : Dev) : Dev :=
  let addr := DRW_OC_TH h
  if d.accepts w addr ∧ sx 16 (fget DRW_OC_TH_hi_th v) ≤ sx 16 (fget DRW_OC_TH_lo_th v) then
    discardWrite w addr (d.setB (DRW_CH_STAT h) DRW_CH_STAT_th_err true)
  else when (d.accepts w addr) (·.modChan h fun x => { x with ocSince := d.chanRef h }) (plainWrite w addr v d)

/-- DRW_OC_TH_WRITE. -/
def execDrwOcThWrite (w : Writer) (h : Fin 192) (v : Word) (s : State) : Out :=
  s.onCluster (h.val / 48) (ocThWrite w h.val v)

/-- A write of DRW_CH_CFG: locked while the axis is not RETIRED; clk_lost follows the selected clock; clearing ch_en discards the running window and
releases an overcurrent (R113, R115). -/
def chCfgWrite (w : Writer) (h : Nat) (v : Word) (d : Dev) : Dev :=
  let addr := DRW_CH_CFG h
  let a := chanAxis h
  if d.axSt a ≠ stRetired ∧ v ≠ d.rd addr then drwLocked w addr (h / 48) d
  else
    let was := d.flag addr DRW_CH_CFG_ch_en
    let d0 := plainWrite w addr v d
    let d1 := d0.setB (DRW_CH_STAT h) DRW_CH_STAT_clk_lost (d0.flag (DRW_CLK (d0.chanClock h)) DRW_CLK_clk_lost)
    if was && !d1.flag addr DRW_CH_CFG_ch_en then
      ocEnds h (d1.modTile a fun t => { t with cut := setBit t.cut (h % 3) true })
    else if !was && d1.flag addr DRW_CH_CFG_ch_en then
      (restartChan h d1).modChan h fun x => { x with prior := 0 }
    else d1

/-- DRW_CH_CFG_WRITE. -/
def execDrwChCfgWrite (w : Writer) (h : Fin 192) (v : Word) (s : State) : Out :=
  s.onCluster (h.val / 48) (chCfgWrite w h.val v)

/-- A write of a DRW register (R113, R116). -/
def drwWrite (nm : RegName) (ix : List Nat) (w : Writer) (addr : Nat) (v : Word) (d : Dev) : Dev :=
  let i := ix.headD 0
  match nm with
  | .DRW_CLK => drwClkWrite w i v d
  | .DRW_WIN_CFG | .DRW_WIN_LEN =>
    if d.axSt i ≠ stRetired ∧ v ≠ d.rd addr then drwLocked w addr (axCl i) d else plainWrite w addr v d
  | .DRW_CH_CFG => chCfgWrite w i v d
  | .DRW_OC_CFG => ocCfgWrite w i v d
  | .DRW_OC_TH => ocThWrite w i v d
  | _ => plainWrite w addr v d

end Sys2Proof.Machine
end

