-- ==== Sys2Proof/Machine/Clock.lean ====
section
/-!
DEFINITION. Chapter "Clock islands, crossings and device time": device time, its boundary, its discipline by SYNC_IN,
and SYNC_OUT (R36 to R43).
-/
namespace Sys2Proof.Machine

/-- Device time changed by f. -/
def Dev.modTime (d : Dev) (f : TimeS → TimeS) : Dev := { d with time := f d.time }

/-- Device time as a 64-bit count. -/
def tickAdd (t : Nat) (i : Int) : Nat := wrapN 64 ((t : Int) + i)

/-- Copy key of the link island. -/
def liKey : Nat := 4

/-- The island of copy key j keeps a copy now: an enabled cluster out of reset, or the link island (R36).
Assumption 17 (DEDUCED). -/
def Dev.keepsCopy (d : Dev) (j : Nat) : Bool := if j = liKey then true else d.released j

/-- The clock of copy key j's island runs, so that a timed broadcast reaches it (R34, R35). -/
def Dev.reaches (d : Dev) (j : Nat) : Bool := if j = liKey then true else d.clusterRuns j

/-- At a boundary copy j is loaded, where a load is due, or compared with the master; a mismatch sets copy_err, posts
TIME_DIVERGE and reloads it at the next boundary (R37). A load into a halted cluster is discarded and counted (R35).
Assumption 17 (DEDUCED). -/
def boundaryCopy (j : Nat) (d : Dev) : Dev :=
  if !d.reaches j then
    (if d.keepsCopy j && d.time.reload.contains j then
      (d.modTime fun t => { t with reload := t.reload.filter (· != j) }).incF GLB_CLK_STAT GLB_CLK_STAT_flux_drop
     else d)
  else if d.time.reload.contains j then
    d.modTime fun t => { t with copies := mset 0 t.copies j t.master, reload := t.reload.filter (· != j) }
  else if mget 0 d.time.copies j = d.time.master then d
  else
    postEvent (evOpen 1 0) 0 j [] ((d.setB GLB_CLK_STAT GLB_CLK_STAT_copy_err true).modTime
      fun t => { t with reload := t.reload ++ [j] })

/-- SYNC_OUT's compare lies in the ticks after a up to b (R38, R42). -/
def Dev.syncOutIn (d : Dev) (a b : Nat) : Bool :=
  let p := d.fld GLB_SYNC_OUT_PERIOD GLB_SYNC_OUT_PERIOD_out_period
  let o := d.fld GLB_SYNC_OUT_OFFSET GLB_SYNC_OUT_OFFSET_out_offset
  p != 0 && decide (((a : Int) - o) / p < ((b : Int) - o) / p)

/-- Copy j stepped by i; a halted cluster discards it (R35, R41). T0 of running segments steps too (R174). The start compares of TIME segments and the scheduled
Seam events that a forward step skips fire once and late (R38, R174). Assumption 17 (DEDUCED). -/
def stepCopy (i : Int) (j : Nat) (d : Dev) : Dev :=
  if !d.keepsCopy j then d
  else if !d.reaches j then d.incF GLB_CLK_STAT GLB_CLK_STAT_flux_drop
  else
    let a := mget 0 d.time.copies j
    let b := tickAdd a i
    let d0 := d.modTime fun t => { t with copies := mset 0 t.copies j b }
    let d1 := if j = liKey then d0 else upTo 16 (fun l x =>
      match (x.interp (j * 16 + l)).run with
      | some r => (x.modInterp (j * 16 + l) fun q => { q with run := some { r with t0 := tickAdd r.t0 i } }).setWide
          (AXS_SEG_T0_LO (j * 16 + l)) (tickAdd r.t0 i)
      | none => x) (upTo 16 (fun l => Dev.modInterp (a := j * 16 + l) (f := fun q => { q with next := q.next.map (tickAdd · i) })) d0)
    if i ≤ 0 ∨ j = liKey then d1
    else
      let d2 := upTo 16 (fun l x =>
        match (x.interp (j * 16 + l)).waitT with
        | some t => if a < t ∧ t ≤ b then
            (x.modInterp (j * 16 + l) fun q => { q with waitT := none }).addDue (.timeStart (j * 16 + l) true) else x
        | none => x) d1
      { d2 with due := d2.due.map fun x =>
          match x with
          | .seamEvent c k t none => if c = j ∧ a < t ∧ t ≤ b then .seamEvent c k t (some (d.now + 1)) else .seamEvent c k t none
          | y => y }

/-- A written time step applies: master and copies are stepped, and GLB_TIME_STEP reads 0 (R41). Assumption 17 (DEDUCED). -/
def applyStep (d : Dev) : Dev :=
  if !d.time.stepDue then d
  else
    let i := sgn (d.rd GLB_TIME_STEP)
    let a := d.time.master
    let d1 := (d.wr GLB_TIME_STEP 0).modTime fun t => { t with master := tickAdd t.master i, stepDue := false }
    let d2 := upTo 5 (stepCopy i) d1
    when (decide (0 < i) && d.syncOutIn a (tickAdd a i))
      (·.modTime fun t => { t with syncOut := true, syncRose := d.now, syncFired := some (tickAdd a i) }) d2

/-- A written time_mode takes effect (R40); a newly selected discipline starts unlocked and with no previous edge. -/
def applyMode (d : Dev) : Dev :=
  let m := d.fld GLB_TIME_CTL GLB_TIME_CTL_time_mode
  if m = d.time.mode then d
  else (d.setB GLB_CLK_STAT GLB_CLK_STAT_locked false).modTime
    fun t => { t with mode := m, ePrev := none, lockRun := 0, missed := 0, edgeAt := d.now }

/-- This ccyc is a 1,024-tick boundary that has not been carried out (R37). -/
def Dev.atBoundary (d : Dev) : Bool := d.time.master % 1024 == 0 && d.time.bound != some d.now

/-- DEVICE_TIME_BOUNDARY: at a tick that is a multiple of 1,024, loads and comparisons, then a pending step, then a pending
change of mode (R37, R40, R41). Assumptions 4, 17 (DESIGN CHOICE, DEDUCED). -/
def execDeviceTimeBoundary (s : State) : Out :=
  s.upd fun d => when d.atBoundary
    (fun d => applyMode (applyStep (upTo 5 boundaryCopy (d.modTime fun t => { t with bound := some d.now })))) d

/-- A write that SEAM mode refuses: it is discarded and step_refused sets (R40). -/
def seamRefuses (w : Writer) (addr : Nat) (v : Word) (d : Dev) : Dev :=
  (if d.accepts w addr then discardWrite w addr d else plainWrite w addr v d).setB
    GLB_CLK_STAT GLB_CLK_STAT_step_refused true

/-- A write of GLB_TIME_STEP (R41). -/
def timeStepWrite (w : Writer) (v : Word) (d : Dev) : Dev :=
  if d.time.mode = 2 then seamRefuses w GLB_TIME_STEP v d
  else
    let ok := d.accepts w GLB_TIME_STEP
    when ok (·.modTime fun t => { t with stepDue := true }) (plainWrite w GLB_TIME_STEP v d)

/-- i limited to ±100,000 ppb (R31). -/
def trimLimit (i : Int) : Int := max (-100000) (min 100000 i)

/-- A write of GLB_CLK_TRIM: written values saturate (R31, R43). -/
def clkTrimWrite (w : Writer) (v : Word) (d : Dev) : Dev :=
  if d.time.mode = 2 then seamRefuses w GLB_CLK_TRIM v d
  else plainWrite w GLB_CLK_TRIM (wI (trimLimit (sgn v))) d

/-- GLB_TIME_STEP_WRITE. -/
def execGlbTimeStepWrite (w : Writer) (v : Word) (s : State) : Out := s.upd (timeStepWrite w v)

/-- GLB_CLK_TRIM_WRITE. -/
def execGlbClkTrimWrite (w : Writer) (v : Word) (s : State) : Out := s.upd (clkTrimWrite w v)

/-- A read of GLB_TIME_LO: device time, its high half captured (R43). -/
def timeLoRead (d : Dev) : Dev × Word :=
  (d.wr GLB_TIME_HI_SNAP (w32 (d.time.master / 2 ^ 32)), w32 d.time.master)

/-- GLB_TIME_LO_READ: a read of GLB_TIME_LO, or of GLB_SYNC_IN_LAT_LO, captures the high half (R43). -/
def execGlbTimeLoRead (lat : Bool) (s : State) : Out :=
  s.upd (readTo (if lat then plainRead GLB_SYNC_IN_LAT_LO else timeLoRead))

/-- The phase error of a latched time: its remainder by sync_period, read as signed (R40). A period of 0 is outside
the field's range, and the remainder is then open. Assumption 18 (DEDUCED). -/
def Dev.phaseError (d : Dev) (t : Nat) : Int :=
  let p := d.fld GLB_SYNC_IN_PERIOD GLB_SYNC_IN_PERIOD_sync_period
  if p = 0 then sx 32 d.open_
  else if 2 * (t % p) < p then (t % p : Nat) else ((t % p : Nat) : Int) - p

/-- The correction in ppb: (f + e/4) × 10^9 / sync_period rounded toward zero, at most 20,000 (R40). -/
def syncCorrection (e f : Int) (p : Nat) : Int :=
  max (-20000) (min 20000 (Int.tdiv ((4 * f + e) * 1000000000) (4 * p)))

/-- An accepted edge with phase error e and period p steers the trim and counts towards lock (R40). -/
def syncAccept (p : Nat) (e : Int) (d : Dev) : Dev :=
  let f := e - d.time.ePrev.getD e
  let trim := trimLimit (sgn (d.rd GLB_CLK_TRIM) - syncCorrection e f p)
  let run := if e.natAbs ≤ d.fld GLB_TIME_CTL GLB_TIME_CTL_lock_tol then d.time.lockRun + 1 else 0
  let d1 := (d.wr GLB_CLK_TRIM (wI trim)).modTime fun t => { t with ePrev := some e, lockRun := min run 8, missed := 0, edgeAt := d.now }
  when (decide (8 ≤ run)) (·.setB GLB_CLK_STAT GLB_CLK_STAT_locked true) d1

/-- SYNC_IN_EDGE: the edge latches the master copy, whose high half a read of the low half captures; in SYNC_IN mode one
whose error is beyond a quarter period is counted and ignored, and any other steers the trim (R40, R43).
Assumption 66 (DESIGN CHOICE). -/
def execSyncInEdge (s : State) : Out :=
  s.upd fun d =>
    let d0 := d.setWide GLB_SYNC_IN_LAT_LO d.time.master
    if d.time.mode ≠ 1 then d0
    else
      let e := d.phaseError d.time.master
      let d1 := d0.bump
      if d.fld GLB_SYNC_IN_PERIOD GLB_SYNC_IN_PERIOD_sync_period < 4 * e.natAbs then
        d1.incF GLB_CLK_STAT GLB_CLK_STAT_spurious_edges
      else syncAccept (d.fld GLB_SYNC_IN_PERIOD GLB_SYNC_IN_PERIOD_sync_period) e d1

/-- Four expected edges in a row are missing: the fourth period since the latest accepted edge, or since the mode took
effect, is over, and so is the quarter of a period in which its edge could still have been accepted (R40).
Assumption 75 (DEDUCED). -/
def Dev.syncGone (d : Dev) : Bool :=
  let p := d.fld GLB_SYNC_IN_PERIOD GLB_SYNC_IN_PERIOD_sync_period
  d.time.mode == 1 && d.time.missed != 4 && decide (d.time.edgeAt + 4 * p + p / 4 < d.now)

/-- SYNC_LOST: the fourth expected edge in a row is missing; locked clears, the trim stays, and an event is posted
(R40). -/
def execSyncLost (s : State) : Out :=
  s.upd fun d =>
    if !d.syncGone then d
    else postEvent (evOpen 1 1) 0 0 [] ((d.setB GLB_CLK_STAT GLB_CLK_STAT_locked false).modTime
      fun t => { t with ePrev := none, lockRun := 0, missed := 4 })

/-- The master copy stands at a multiple of out_period plus out_offset, and no compare of this or a later time has fired
before time was stepped back (R38, R42). -/
def Dev.syncOutNow (d : Dev) : Bool :=
  let p := d.fld GLB_SYNC_OUT_PERIOD GLB_SYNC_OUT_PERIOD_out_period
  let o := d.fld GLB_SYNC_OUT_OFFSET GLB_SYNC_OUT_OFFSET_out_offset
  p != 0 && decide (o ≤ d.time.master) && (d.time.master - o) % p == 0 &&
    (match d.time.syncFired with
     | some t => decide (t < d.time.master)
     | none => true)

/-- SYNC_OUT_RISE: the master copy has reached a multiple of out_period plus out_offset (R42). Assumption 4
(DESIGN CHOICE). -/
def execSyncOutRise (s : State) : Out :=
  s.upd fun d => when d.syncOutNow
    (·.modTime fun t => { t with syncOut := true, syncRose := d.now, syncFired := some d.time.master }) d

/-- SYNC_OUT_FALL: out_width ticks after it went high the output goes low (R42). Assumption 4 (DESIGN CHOICE). -/
def execSyncOutFall (s : State) : Out :=
  s.upd fun d => when (decide (d.time.syncRose + d.fld GLB_SYNC_OUT_CTL GLB_SYNC_OUT_CTL_out_width ≤ d.now))
    (·.modTime fun t => { t with syncOut := false }) d

/-- A write of the settings of SYNC_OUT: new settings make new compares, and a period of 0 takes the output low (R42). -/
def syncOutWrite (w : Writer) (addr : Nat) (v : Word) (d : Dev) : Dev :=
  let d1 := (plainWrite w addr v d).modTime fun t => { t with syncFired := none }
  when (d1.fld GLB_SYNC_OUT_PERIOD GLB_SYNC_OUT_PERIOD_out_period == 0) (·.modTime fun t => { t with syncOut := false }) d1

/-- What arrives out of a handshake crossing: a Flux source fires in its cluster (R17, R33), a kick reloads the device
watchdog, counts reach a global event counter (R481). -/
def crossPay (p : CrossPay) (d : Dev) : Dev :=
  match p with
  | .flux c src => when (d.clusterRuns c) (fluxFire c src) d
  | .wdtKick => when (d.flag TCH_WDT_CFG TCH_WDT_CFG_en)
      (·.setF TCH_WDT_LEFT TCH_WDT_LEFT_left (d.fld TCH_WDT_CFG TCH_WDT_CFG_period)) d
  | .evc e => evcTick e d
  | .trig _ _ => d

/-- The item is delivered by CROSSING_DELIVERY, not by a row of its own. -/
def CrossItem.plain (x : CrossItem) : Bool :=
  match x.pay with
  | .trig _ _ => false
  | _ => true

/-- CROSSING_DELIVERY: the oldest item of the crossing is delivered (R33); a halted cluster discards it (R35).
Assumption 11 (DESIGN CHOICE). -/
def execCrossingDelivery (src dst : Island) (s : State) : Out :=
  s.upd fun d =>
    match d.crossing.find? fun x => x.src == src && x.dst == dst && x.plain with
    | some x => crossPay x.pay { d with crossing := d.crossing.erase x }
    | none => d

end Sys2Proof.Machine
end

