-- ==== Sys2Proof/Machine/Feedback.lean ====
section
/-!
DEFINITION. Chapter "Position and speed feedback" (R137 to R163), and the position windows of the Flux matrix (R189),
which watch the same counter.
-/
namespace Sys2Proof.Machine

/-! ## Position windows (R189) -/

/-- The counter of axis a lies inside its window, across the wrap. -/
def Dev.winInside (d : Dev) (a : Nat) : Bool :=
  decide ((d.rd (FBK_POS a) - d.rd (FLX_WIN_LO a)).toNat ≤ (d.rd (FLX_WIN_HI a) - d.rd (FLX_WIN_LO a)).toNat)

/-- WIN pulses and counts. -/
def winPulse (a : Nat) (d : Dev) : Dev :=
  fluxFire (axCl a) (axLo a) (d.incF (FLX_WIN_CNT a) FLX_WIN_CNT_hits)

/-- The level of a window set, with the combiners that take it (R190). -/
def winSet (a : Nat) (b : Bool) (d : Dev) : Dev :=
  upTo 8 (fun k => combEval (axCl a * 8 + k)) (d.setB (FLX_WIN_CFG a) FLX_WIN_CFG_inside b)

/-- The window evaluated: a change of the level sets inside and pulses WIN where mode includes it; late is set where
the evaluation is one by a write. -/
def winEval (a : Nat) (byWrite : Bool) (d : Dev) : Dev :=
  let cfg := FLX_WIN_CFG a
  if d.fldIf cfg FLX_WIN_CFG_en = 0 ∨ !d.clusterRuns (axCl a) then d
  else
    let was := d.flag cfg FLX_WIN_CFG_inside
    let is := d.winInside a
    if was = is then d
    else
      let inc := (d.fld cfg FLX_WIN_CFG_mode).testBit (if is then 0 else 1)
      let d1 := winSet a is d
      if inc then winPulse a (when byWrite (·.setB cfg FLX_WIN_CFG_late true) d1) else d1

/-- The window re-evaluated at a halt release, without pulses and without late (R193). -/
def winAfterHalt (a : Nat) (d : Dev) : Dev :=
  if d.fldIf (FLX_WIN_CFG a) FLX_WIN_CFG_en = 0 then d else winSet a (d.winInside a) d

/-! ## Regular-spacing compare (R152 to R154) -/

/-- Hits of axis a no longer due. -/
def rscDrop (a : Nat) (d : Dev) : Dev := (d.dropDue (.rscHit a false)).dropDue (.rscHit a true)

/-- The compare evaluated against the count: due in the next ccyc where equal or, late, in the past (R28, R152). -/
def rscEval (a : Nat) (d : Dev) : Dev :=
  let d1 := rscDrop a d
  if d.flag (FBK_RSC_CFG a) FBK_RSC_CFG_rsc_en then
    let x := d.rd (FBK_RSC_CMP a) - d.rd (FBK_POS a)
    let diff := if d.flag (FBK_RSC_CFG a) FBK_RSC_CFG_dir_rsc then -x else x
    if diff = 0 then d1.addDue (.rscHit a false)
    else if 2 ^ 31 ≤ diff.toNat then d1.addDue (.rscHit a true) else d1
  else d1

/-- A count in this direction that makes the counter equal cmp leaves a hit due (R152). -/
def rscCount (a : Nat) (down : Bool) (d : Dev) : Dev :=
  if d.flag (FBK_RSC_CFG a) FBK_RSC_CFG_rsc_en && d.flag (FBK_RSC_CFG a) FBK_RSC_CFG_dir_rsc == down &&
      d.rd (FBK_RSC_CMP a) == d.rd (FBK_POS a) then d.addDue (.rscHit a false) else d

/-- A hit: it counts, takes from the remaining hits, advances cmp, and starts a pulse unless the output has been low for
too short (R153, R154). -/
def rscHit (a : Nat) (d : Dev) : Dev :=
  let late := d.due.contains (.rscHit a true)
  if !late && !d.due.contains (.rscHit a false) then d
  else
    let cfg := FBK_RSC_CFG a
    let f := d.fbk a
    let free := !f.rscPulsed || (!f.rscHigh && decide (d.fld cfg FBK_RSC_CFG_pw ≤ (d.cluster (axCl a)).ref - f.rscLow))
    let d1 := when late (·.setB cfg FBK_RSC_CFG_late true) (rscDrop a d)
    let d2 := d1.incF (FBK_RSC_HITS a) FBK_RSC_HITS_rsc_hits
    let rem := d2.rd (FBK_RSC_REM a) - 1
    let d3 := if d2.flag cfg FBK_RSC_CFG_rem_en then
        when (rem == 0) (·.setB cfg FBK_RSC_CFG_rsc_en false) (d2.wr (FBK_RSC_REM a) rem) else d2
    let d4 := rscEval a (d3.wr (FBK_RSC_CMP a) (d3.rd (FBK_RSC_CMP a) + d3.rd (FBK_RSC_STEP a)))
    if free then fluxFire (axCl a) (0x10 + axLo a) (d4.modFbk a fun f =>
        { f with rscHigh := true, rscPulsed := true, rscRise := (d.cluster (axCl a)).ref })
    else d4.setB cfg FBK_RSC_CFG_overrun true

/-- RSC_HIT. -/
def execRscHit (a : Fin 64) (s : State) : Out := s.onCluster (axCl a.val) (rscHit a.val)

/-- RSC_PULSE_END: pw ccyc after its start the pulse ends (R154). -/
def execRscPulseEnd (a : Fin 64) (s : State) : Out :=
  s.onCluster (axCl a.val) fun d =>
    let r := (d.cluster (axCl a.val)).ref
    if (d.fbk a.val).rscHigh ∧ (d.fbk a.val).rscRise + d.fld (FBK_RSC_CFG a.val) FBK_RSC_CFG_pw ≤ r then
      d.modFbk a.val fun f => { f with rscHigh := false, rscLow := r }
    else d

/-- A write of FBK_RSC_CMP (R152). -/
def rscCmpWrite (w : Writer) (a : Nat) (v : Word) (d : Dev) : Dev := rscEval a (plainWrite w (FBK_RSC_CMP a) v d)

/-- A write of FBK_RSC_CFG: setting rsc_en or changing dir_rsc re-evaluates (R152). -/
def rscCfgWrite (w : Writer) (a : Nat) (v : Word) (d : Dev) : Dev :=
  let cfg := FBK_RSC_CFG a
  let was := d.flag cfg FBK_RSC_CFG_rsc_en
  let d1 := plainWrite w cfg v d
  let is := d1.flag cfg FBK_RSC_CFG_rsc_en
  let d2 := when (is && !was) (·.modFbk a fun f => { f with rscPulsed := false }) d1
  if !is then rscDrop a d2
  else if !was || d.flag cfg FBK_RSC_CFG_dir_rsc != d1.flag cfg FBK_RSC_CFG_dir_rsc then rscEval a d2 else d2

/-- A write of FBK_RSC_STEP: 0 and an opposing sign are discarded with cfg_err (R153). -/
def rscStepWrite (w : Writer) (a : Nat) (v : Word) (d : Dev) : Dev :=
  if v = 0 ∨ v.msb ≠ d.flag (FBK_RSC_CFG a) FBK_RSC_CFG_dir_rsc then
    discardWrite w (FBK_RSC_STEP a) (d.setB (FBK_GSTAT (axCl a)) FBK_GSTAT_cfg_err true)
  else plainWrite w (FBK_RSC_STEP a) v d

/-- FBK_RSC_CMP_WRITE. -/
def execFbkRscCmpWrite (w : Writer) (a : Fin 64) (v : Word) (s : State) : Out := s.onCluster (axCl a.val) (rscCmpWrite w a.val v)
/-- FBK_RSC_CFG_WRITE. -/
def execFbkRscCfgWrite (w : Writer) (a : Fin 64) (v : Word) (s : State) : Out := s.onCluster (axCl a.val) (rscCfgWrite w a.val v)
/-- FBK_RSC_STEP_WRITE. -/
def execFbkRscStepWrite (w : Writer) (a : Fin 64) (v : Word) (s : State) : Out := s.onCluster (axCl a.val) (rscStepWrite w a.val v)

/-! ## Encoder outputs (R156 to R160) -/

/-- The axis that encoder output channel k follows. -/
def Dev.encSrc (d : Dev) (k : Nat) : Nat := k / 4 * 16 + d.fld (FBK_EO_CFG k) FBK_EO_CFG_src

/-- Z of encoder output channel k: low while it does not run or z_mode says so; else, on PDL-64 the source's accepted Z,
and on the others high while the output count is a multiple of z_lines with A and B high (R159, R160). -/
def encZ (k : Nat) (d : Dev) : Dev :=
  let cfg := FBK_EO_CFG k
  let e := d.enc k
  let z :=
    if d.fldIf cfg FBK_EO_CFG_en = 0 ∨ d.fld cfg FBK_EO_CFG_z_mode ≠ 1 then false
    else if d.part = .pdl64 then (d.fbk (d.encSrc k)).lvZ
    else e.ballA && e.ballB && e.count % (max 1 (d.fld cfg FBK_EO_CFG_z_lines) : Nat) == 0
  d.modEnc k fun e => { e with ballZ := z }

/-- EMU of channel k from what the emulation of its source axis holds (R157). -/
def Dev.emuOf (d : Dev) (k : Nat) (x : Slot) : Word :=
  x.emuOut.getD (wI (asr (sgn x.emuPos * sgn (d.rd (FBK_EO_SCALE k))) 24))

/-- Encoder output channel k starts without a burst: its count takes the current target, or acc clears on PDL-64
(R160). Assumption 63 (DEDUCED). -/
def encLoad (k : Nat) (d : Dev) : Dev :=
  encZ k <|
    if d.part = .pdl64 then d.modEnc k fun e => { e with acc := 0 }
    else
      let t := sgn (d.emuOf k (d.axSlot (d.encSrc k)))
      ((d.modEnc k fun e => { e with count := t, todo := 0 }).setF (FBK_EO_STAT k) FBK_EO_STAT_out_cnt (wrapN 16 t)).setB
        (FBK_EO_STAT k) FBK_EO_STAT_run false

/-- Encoder output channel k moves by one count, up or down, in quadrature order; the count wraps in 32 bits (R156). -/
def encStep (k : Nat) (up : Bool) (d : Dev) : Dev :=
  let e := d.enc k
  let cnt := sgn (wI (if up then e.count + 1 else e.count - 1))
  let q := match up, e.ballA, e.ballB with
    | true, false, false => (true, false)
    | true, true, false => (true, true)
    | true, true, true => (false, true)
    | true, false, true => (false, false)
    | false, false, false => (false, true)
    | false, false, true => (true, true)
    | false, true, true => (true, false)
    | false, true, false => (false, false)
  encZ k ((d.modEnc k fun e => { e with count := cnt, ballA := q.1, ballB := q.2 }).setF (FBK_EO_STAT k)
    FBK_EO_STAT_out_cnt (wrapN 16 cnt))

/-- An accepted input count divided by the ratio n/m on PDL-64 (R158). -/
def encDivide (k : Nat) (up : Bool) (d : Dev) : Dev :=
  let n : Int := d.fld (FBK_EO_RATIO k) FBK_EO_RATIO_n
  let m : Int := d.fld (FBK_EO_RATIO k) FBK_EO_RATIO_m
  let acc := if up then (d.enc k).acc + n else (d.enc k).acc - n
  if up ∧ m ≤ acc then encStep k true (d.modEnc k fun e => { e with acc := acc - m })
  else if ¬ up ∧ acc < 0 then encStep k false (d.modEnc k fun e => { e with acc := acc + m })
  else d.modEnc k fun e => { e with acc := acc }

/-- The encoder output channels of an axis's cluster that follow it and run. -/
def Dev.encUsers (d : Dev) (a : Nat) : List Nat :=
  ((List.range 4).map (axCl a * 4 + ·)).filter fun k =>
    d.fldIf (FBK_EO_CFG k) FBK_EO_CFG_en == 1 && d.fldIf (FBK_EO_CFG k) FBK_EO_CFG_src == axLo a

/-- An emulated position, emu k for channel k, becomes the target of the generators that follow the axis (R157). -/
def encTarget (a : Nat) (emu : Nat → Word) (d : Dev) : Dev :=
  (d.encUsers a).foldl (fun x k =>
    let diff := sgn (emu k - wI (x.enc k).count)
    let ts := d.fld (PLN_SLOT_SCHED (d.axLane a) (d.axSlotNo a)) PLN_SLOT_SCHED_samp_period
    let sp := max 16 (ts / max 1 diff.natAbs)
    let y := (x.modEnc k fun e => { e with todo := diff, spacing := sp }).setB (FBK_EO_STAT k) FBK_EO_STAT_run (diff != 0)
    when (decide (ts < diff.natAbs * 16)) (·.setB (FBK_EO_STAT k) FBK_EO_STAT_lag true) y) d

/-- ENCODER_OUTPUT_EDGE: the generator emits its next edge, spaced from the one before (R157). Assumption 63 (DEDUCED). -/
def execEncoderOutputEdge (k : Fin 16) (s : State) : Out :=
  s.onCluster (k.val / 4) fun d =>
    let e := d.enc k.val
    let r := (d.cluster (k.val / 4)).ref
    let early := e.edgeAt.any fun t => decide (r < t + e.spacing)
    if d.part = .pdl64 ∨ d.flag (FBK_EO_CFG k.val) FBK_EO_CFG_en = false ∨ e.todo = 0 ∨ early = true then d
    else
      let up := decide (0 < e.todo)
      let rest := if up then e.todo - 1 else e.todo + 1
      ((encStep k.val up d).modEnc k.val fun e => { e with todo := rest, edgeAt := some r }).setB (FBK_EO_STAT k.val) FBK_EO_STAT_run (rest != 0)

/-- A write of FBK_EO_RATIO (R158): the register exists on PDL-64 only. -/
def eoRatioWrite (w : Writer) (k : Nat) (v : Word) (d : Dev) : Dev :=
  if d.part ≠ .pdl64 then closeAt w (FBK_EO_RATIO k) d
  else if fget FBK_EO_RATIO_n v = 0 ∨ fget FBK_EO_RATIO_m v < fget FBK_EO_RATIO_n v then
    discardWrite w (FBK_EO_RATIO k) (d.setB (FBK_GSTAT (k / 4)) FBK_GSTAT_cfg_err true)
  else plainWrite w (FBK_EO_RATIO k) v d

/-- FBK_EO_RATIO_WRITE. -/
def execFbkEoRatioWrite (w : Writer) (k : Fin 16) (v : Word) (s : State) : Out :=
  s.onCluster (k.val / 4) (eoRatioWrite w k.val v)

/-- A write of FBK_EO_CFG: a channel stops where it stands, and starts without a burst (R160). -/
def eoCfgWrite (w : Writer) (k : Nat) (v : Word) (d : Dev) : Dev :=
  let cfg := FBK_EO_CFG k
  let was := d.flag cfg FBK_EO_CFG_en
  let d1 := plainWrite w cfg v d
  let is := d1.flag cfg FBK_EO_CFG_en
  if was && !is then
    (encZ k (d1.modEnc k fun e => { e with todo := 0 })).setB (FBK_EO_STAT k) FBK_EO_STAT_run false
  else if is && !was then encLoad k d1
  else encZ k d1

/-- FBK_EO_CFG_WRITE. -/
def execFbkEoCfgWrite (w : Writer) (k : Fin 16) (v : Word) (s : State) : Out :=
  s.onCluster (k.val / 4) (eoCfgWrite w k.val v)

/-! ## Counting (R141 to R145) -/

/-- The stamp of an accepted change: device time less 3 + filt ticks (R139). -/
def Dev.edgeStamp (d : Dev) (a : Nat) : Nat :=
  tickAdd' (d.copy (axCl a)) (3 + d.fld (FBK_CFG a) FBK_CFG_filt)
where
  /-- A time less n ticks, in 64 bits. -/
  tickAdd' (t n : Nat) : Nat := wrapN 64 ((t : Int) - n)

/-- An illegal transition: the counter stays, and the next latch is invalid (R142). -/
def illegalStep (a : Nat) (d : Dev) : Dev :=
  ((d.setB (FBK_STAT a) FBK_STAT_qerr true).incF (FBK_STAT a) FBK_STAT_qerr_cnt).modFbk a fun f => { f with illegal := true }

/-- A count by delta with this stamp: counter, direction and reversal, position window, regular-spacing compare and
encoder outputs (R141, R145, R152, R158, R189). -/
def countBy (a : Nat) (delta : Int) (stamp : Nat) (d : Dev) : Dev :=
  let down := decide (delta < 0)
  let f := d.fbk a
  let rev := f.moved && delta != 0 && d.flag (FBK_STAT a) FBK_STAT_dir != down
  let pos := d.rd (FBK_POS a) + wI delta
  let d1 := (d.wr (FBK_POS a) pos).modFbk a fun f =>
    { f with cnt := some (pos, stamp), rev := rev, lcSkip := f.lcSkip || rev, moved := f.moved || delta != 0,
             cntAt := some (d.now, d.flag (FBK_STAT a) FBK_STAT_dir, d.flag (FBK_STAT a) FBK_STAT_dir_chg) }
  if delta = 0 then d1
  else
    let d2 := d1.setB (FBK_STAT a) FBK_STAT_dir down
    let d3 := when rev (fun x => fluxFire (axCl a) (0x80 + axLo a) (x.setB (FBK_STAT a) FBK_STAT_dir_chg true)) d2
    let d4 := rscCount a down (winEval a false d3)
    if d.part = .pdl64 then (d4.encUsers a).foldl (fun x k => encDivide k (!down) x) d4 else d4

/-- What accepted levels A and B mean after levels A' and B' under a counting mode: none, illegal, up or down. -/
inductive Quad where
  | none | illegal | up | down
deriving DecidableEq, Repr

/-- The decoder of R141 and R142. -/
def quadDecode (mode : Nat) (a0 b0 a b : Bool) : Quad :=
  let cA := a0 != a
  let cB := b0 != b
  if mode = 3 then .none
  else if cA && cB then .illegal
  else match mode with
    | 0 => if cA then (if a != b then .up else .down) else if cB then (if a == b then .up else .down) else .none
    | 1 => if cA then (if a != b then .up else .down) else .none
    | _ => if cA && a then (if !b then .up else .down) else .none

/-- The level of a pair: in COMPLEMENT mode, of balls P and N, that of P while they differ; in LVDS mode, of a receiver
output and its fail-safe detect, the output while that is not active. Else, and while its disagreement is qualified, the
pair keeps its last level (R137, R138, R149). -/
def Dev.pairLevel (d : Dev) (a pair : Nat) (p n last : Bool) : Bool :=
  let keep := if d.flag (FBK_CFG a) FBK_CFG_in_mode then n else p == n
  if keep || (d.fbk a).dis.testBit pair then last else p

/-- The levels of the pairs A and B at the balls. -/
def pinsAB (a : Nat) (pa na pb nb : Bool) (d : Dev) : Dev :=
  d.modFbk a fun f => { f with pinA := d.pairLevel a 0 pa na f.pinA, pinB := d.pairLevel a 1 pb nb f.pinB }

/-- ENCODER_COUNT: A and B after an accepted change. The levels are taken in every case; a count in the ccyc of a preset
is lost (R141, R143). -/
def encoderCount (a : Nat) (lvA lvB : Bool) (d : Dev) : Dev :=
  if d.flag (FBK_CFG a) FBK_CFG_enc_en = false then d.modFbk a fun f => { f with lvA := lvA, lvB := lvB }
  else
    let f := d.fbk a
    let lost := f.presetAt == some d.now
    let sw := d.flag (FBK_CFG a) FBK_CFG_swap_ab
    let q := if sw then quadDecode (d.fld (FBK_CFG a) FBK_CFG_cnt_mode) f.lvB f.lvA lvB lvA
      else quadDecode (d.fld (FBK_CFG a) FBK_CFG_cnt_mode) f.lvA f.lvB lvA lvB
    let d1 := d.modFbk a fun f => { f with lvA := lvA, lvB := lvB }
    match q with
    | .none => d1
    | .illegal => illegalStep a d1
    | .up => if lost then d1 else countBy a 1 (d.edgeStamp a) d1
    | .down => if lost then d1 else countBy a (-1) (d.edgeStamp a) d1

/-- ENCODER_COUNT: the ball levels stand in a debug halt too, where no edge is seen (R162). -/
def execEncoderCount (a : Fin 64) (lvA lvB : Bool × Bool) (s : State) : Out :=
  s.upd fun d =>
    let d1 := when (d.hasCluster (axCl a.val)) (pinsAB a.val lvA.1 lvA.2 lvB.1 lvB.2) d
    when (d.clusterRuns (axCl a.val)) (encoderCount a.val (d1.fbk a.val).pinA (d1.fbk a.val).pinB) d1

/-- The state of a channel that restarts: enable, preset or halt release (R143 to R145, R150). -/
def fbkRestart (a : Nat) (d : Dev) : Dev :=
  (d.setB (FBK_STAT a) FBK_STAT_restart true).modFbk a fun f =>
    { f with cnt := none, ref := none, rev := false, first := true, lcSkip := true, moved := false }

/-- The direction as it stood before a count accepted in this ccyc, which a preset loses (R143).
Assumption 71 (DESIGN CHOICE). -/
def loseCount (a : Nat) (d : Dev) : Dev :=
  match (d.fbk a).cntAt with
  | some (t, dir, chg) =>
    if t = d.now then (d.setB (FBK_STAT a) FBK_STAT_dir dir).setB (FBK_STAT a) FBK_STAT_dir_chg chg else d
  | none => d

/-- A write of FBK_POS presets the counter while the axis is RETIRED or ADMITTED (R143). -/
def posPreset (w : Writer) (a : Nat) (v : Word) (d : Dev) : Dev :=
  if d.accepts w (FBK_POS a) then
    if d.axSt a = stRetired ∨ d.axSt a = stAdmitted then
      let d1 := (fbkRestart a (plainWrite w (FBK_POS a) v (loseCount a d))).modFbk a fun f => { f with presetAt := some d.now }
      winEval a false (rscEval a d1)
    else discardWrite w (FBK_POS a) (d.setB (FBK_GSTAT (axCl a)) FBK_GSTAT_adm_lock true)
  else plainWrite w (FBK_POS a) v d

/-- FBK_POS_PRESET. -/
def execFbkPosPreset (w : Writer) (a : Fin 64) (v : Word) (s : State) : Out := s.onCluster (axCl a.val) (posPreset w a.val v)

/-! ## Supervision (R149 to R151) -/

/-- A classification acts by sup_act (R151). -/
def supAct (a : Nat) (cable : Bool) (d : Dev) : Dev :=
  let act := d.fld (FBK_SUP_CFG a) FBK_SUP_CFG_sup_act
  let d1 := d.setB (FBK_STAT a) (if cable then FBK_STAT_cable else FBK_STAT_scale) true
  let d2 := when (decide (1 ≤ act)) (postEvent (evOpen 5 3) (0x10 + axCl a) a
    [if cable then 0 else 1, (d1.rd (FBK_LC_LAST a)).toNat]) d1
  when (act == 2) (recordCause a (if cable then 0x0A else 0x0B)) d2

/-- dis_live and FBK_CABLE in AXS_CAUSE_ACT from the qualified pairs, of which only those in dis_mask stay supervised
(R149, R151). -/
def disLevels (a : Nat) (d : Dev) : Dev :=
  let dis := (d.fbk a).dis &&& d.fld (FBK_SUP_CFG a) FBK_SUP_CFG_dis_mask
  let live := dis != 0
  let began := live && !d.flag (FBK_STAT a) FBK_STAT_dis_live
  let d1 := d.modFbk a fun f => { f with dis := dis, disAt := if began then (d.cluster (axCl a)).ref else f.disAt }
  setAct a 0x0A live (d1.setB (FBK_STAT a) FBK_STAT_dis_live live)

/-- DISAGREEMENT_QUALIFIED: a supervised pair's wires have disagreed for dis_filt ccyc (R149). -/
def execDisagreementQualified (a : Fin 64) (pair : Fin 3) (s : State) : Out :=
  s.onCluster (axCl a.val) fun d =>
    if (d.fld (FBK_SUP_CFG a.val) FBK_SUP_CFG_dis_mask).testBit pair.val ∧ ¬ (d.fbk a.val).dis.testBit pair.val then
      disLevels a.val ((d.setB (FBK_STAT a.val) FBK_STAT_dis_seen true).modFbk a.val fun f =>
        { f with dis := setBit f.dis pair.val true, disagreed := true, lcDis := true })
    else d

/-- DISAGREEMENT_END: the disagreement of these pairs ends; once no supervised pair disagrees any more, dis_live clears
(R149, R151). -/
def execDisagreementEnd (e : PairsEnd) (s : State) : Out :=
  s.onCluster (axCl e.axis.val) fun d =>
    disLevels e.axis.val (d.modFbk e.axis.val fun f => { f with dis := f.dis &&& (7 ^^^ e.pairs.val) })

/-- DIS_PERSIST_EXPIRY: a disagreement has stood for dis_persist × 1,024 ccyc (R151). -/
def execDisPersistExpiry (a : Fin 64) (s : State) : Out :=
  s.onCluster (axCl a.val) fun d =>
    let n := d.fld (FBK_SUP_CFG a.val) FBK_SUP_CFG_dis_persist
    if d.flag (FBK_STAT a.val) FBK_STAT_dis_live ∧ n ≠ 0 ∧
        (d.cluster (axCl a.val)).ref = (d.fbk a.val).disAt + n * 1024 then
      supAct a.val true d else d

/-- The line-count check at an index event (R150, R151). -/
def lineCheck (a : Nat) (d : Dev) : Dev :=
  let f := d.fbk a
  let pos := d.rd (FBK_POS a)
  let next := fun (x : Dev) => x.modFbk a fun f =>
    { f with lcOld := some pos, lcSkip := false, lcDis := x.flag (FBK_STAT a) FBK_STAT_dis_live }
  match f.lcOld with
  | none => next d
  | some old =>
    if d.flag (FBK_SUP_CFG a) FBK_SUP_CFG_lc_en = false then next d
    else if f.lcSkip then next (d.incF (FBK_LC_TOL a) FBK_LC_TOL_lc_skip)
    else
      let dev : Int := (sgn (pos - old)).natAbs - (d.rd (FBK_LC_NOM a)).toNat
      let d1 := d.wr (FBK_LC_LAST a) (wI dev)
      if d.fld (FBK_LC_TOL a) FBK_LC_TOL_tol < dev.natAbs then
        next (supAct a f.lcDis (d1.setB (FBK_STAT a) FBK_STAT_lc_err true))
      else next d1

/-- The levels A and B allow an index event (R146). -/
def Dev.gateOpen (d : Dev) (a : Nat) : Bool :=
  let f := d.fbk a
  let sw := d.flag (FBK_CFG a) FBK_CFG_swap_ab
  let lA := if sw then f.lvB else f.lvA
  let lB := if sw then f.lvA else f.lvB
  match d.fld (FBK_CFG a) FBK_CFG_idx_gate with
  | 0 => true
  | 1 => lA && lB
  | 2 => lA
  | _ => lB

/-- The accepted level of Z, which the encoder outputs of a PDL-64 that follow the axis show (R159). -/
def setLvZ (a : Nat) (z : Bool) (d : Dev) : Dev :=
  let d1 := d.modFbk a fun f => { f with lvZ := z }
  if d.part = .pdl64 then (d1.encUsers a).foldl (fun x k => encZ k x) d1 else d1

/-- INDEX_EVENT: Z after an accepted change; a gated edge in the chosen direction enters the index history (R146). -/
def indexEvent (a : Nat) (z : Bool) (d : Dev) : Dev :=
  let edge := (d.fbk a).lvZ != z && z != d.flag (FBK_CFG a) FBK_CFG_inv_z
  let d0 := setLvZ a z d
  if !edge || !d.flag (FBK_CFG a) FBK_CFG_enc_en || d.fld (FBK_CFG a) FBK_CFG_cnt_mode == 3 || !d.gateOpen a then d0
  else
    let d1 := d0.modFbk a fun f => { f with hist := ((d.rd (FBK_POS a), d.edgeStamp a) :: f.hist).take 4 }
    let d2 := (d1.incW (FBK_IDX_STAT a) FBK_IDX_STAT_idx_seq).setF (FBK_IDX_STAT a) FBK_IDX_STAT_n_valid
      (d1.fbk a).hist.length
    lineCheck a (fluxFire (axCl a) (0x70 + axLo a) d2)

/-- The level of the pair Z at the balls. -/
def pinZ (a : Nat) (pz nz : Bool) (d : Dev) : Dev :=
  d.modFbk a fun f => { f with pinZ := d.pairLevel a 2 pz nz f.pinZ }

/-- INDEX_EVENT: the ball level of the pair Z stands in a debug halt too (R162). -/
def execIndexEvent (e : IndexEdge) (s : State) : Out :=
  s.upd fun d =>
    let d1 := when (d.hasCluster (axCl e.axis.val)) (pinZ e.axis.val e.p e.n) d
    when (d.clusterRuns (axCl e.axis.val)) (indexEvent e.axis.val (d1.fbk e.axis.val).pinZ) d1

/-- A read of FBK_IDX_STAT copies the history into its registers (R147). -/
def idxStatRead (a : Nat) (d : Dev) : Dev × Word :=
  (upTo 4 (fun i x =>
    match (d.fbk a).hist[i]? with
    | some (p, t) => ((x.wr (FBK_IDX_POS a i) p).wr (FBK_IDX_T_LO a i) (w32 t)).wr (FBK_IDX_T_HI a i) (w32 (t / 2 ^ 32))
    | none => x) d, d.rd (FBK_IDX_STAT a))

/-- FBK_IDX_STAT_READ. -/
def execFbkIdxStatRead (a : Fin 64) (s : State) : Out := s.onCluster (axCl a.val) (readTo (idxStatRead a.val))

/-! ## The latch and the speed at S (R144, R148) -/

/-- n / m to the nearest integer, an exact half rounded up. -/
def roundDiv (n : Int) (m : Nat) : Int := (2 * n + m) / (2 * m : Nat)

/-- Speed at S with the new reference pair (R148). -/
def speedAt (f : Fbk) (spd : Int) (s spdMin spdTmo : Nat) : Int × Option (Word × Nat) :=
  match f.cnt, f.ref with
  | none, r => (0, r)
  | some e, none => (0, some e)
  | some (ce, te), some (cr, tr) =>
    if f.rev then (0, some (ce, te))
    else if te ≠ tr ∧ tr + spdMin ≤ te then (satI 32 (roundDiv (sgn (ce - cr) * 2 ^ 32) (te - tr)), some (ce, te))
    else if te = tr then
      let el := s - tr
      if spdTmo * 1024 < el then (0, some (cr, tr))
      else if spd ≠ 0 ∧ 2 ^ 32 < el * spd.natAbs then
        let m := roundDiv (2 ^ 32) el
        (satI 32 (if spd < 0 then -m else m), some (cr, tr))
      else (spd, some (cr, tr))
    else (spd, some (cr, tr))

/-- The sample period as the slot's committed schedule gives it. -/
def Dev.tsOf (d : Dev) (a : Nat) : Nat := d.fld (PLN_SLOT_SCHED (d.axLane a) (d.axSlotNo a)) PLN_SLOT_SCHED_samp_period

/-- A valid serial word with a timestamp within one sample period before S stands (R144, R155). -/
def Dev.serialFresh (d : Dev) (a s : Nat) : Bool :=
  (d.fbk a).serOk &&
    match (d.fbk a).ser with
    | some (_, t) => decide (s ≤ t + d.tsOf a)
    | none => false

/-- ser_stale as it reads now: once a word was taken, no valid one has a timestamp within one sample period (R155). -/
def Dev.serialStale (d : Dev) (a : Nat) : Bool :=
  if (d.fbk a).ser.isSome then !d.serialFresh a (d.copy (axCl a)) else d.flag (FBK_STAT a) FBK_STAT_ser_stale

/-- The position latch of axis m as followers read it (R170). -/
def Dev.mLat (d : Dev) (m : Nat) : MVal :=
  ⟨d.flag (FBK_STAT m) FBK_STAT_lat_valid, (d.rd (FBK_LAT_POS m)).toNat * 2 ^ 32, sgn (d.rd (FBK_SPD m)), 0⟩

/-- The latch at the sample instant s: position, validity and speed (R144, R148). -/
def positionLatch (a s : Nat) (d : Dev) : Dev :=
  let f := d.fbk a
  let cfg := FBK_CFG a
  let fresh := d.serialFresh a s
  let sup := d.flag (FBK_SUP_CFG a) FBK_SUP_CFG_dis_inval && f.disagreed
  let valid := d.flag cfg FBK_CFG_enc_en && !f.illegal && !sup && !f.first &&
    (d.fld cfg FBK_CFG_cnt_mode != 3 || fresh)
  let sp := speedAt f (sgn (d.rd (FBK_SPD a))) s (d.fld (FBK_SPD_CFG a) FBK_SPD_CFG_spd_min)
    (d.fld (FBK_SPD_CFG a) FBK_SPD_CFG_spd_tmo)
  let d1 := ((d.wr (FBK_LAT_POS a) (d.rd (FBK_POS a))).setB (FBK_STAT a) FBK_STAT_lat_valid valid).setB (FBK_STAT a)
    FBK_STAT_ser_stale (!fresh)
  let d2 := when (d.flag cfg FBK_CFG_enc_en) (·.wr (FBK_SPD a) (wI sp.1)) d1
  d2.modFbk a fun f => { f with latHist := noteVal d.now (d.mLat a) f.latHist, ref := if d.flag cfg FBK_CFG_enc_en then sp.2 else f.ref, illegal := false,
                                disagreed := d.flag (FBK_STAT a) FBK_STAT_dis_live,
                                first := if d.flag cfg FBK_CFG_enc_en then false else f.first }

/-! ## Serial encoder words (R155) -/

/-- The aligned value of a serial word. -/
def serialAlign (cfg word : Word) : Nat :=
  let b := fget FBK_SER_CFG_bits cfg
  let v := word.toNat / 2 ^ fget FBK_SER_CFG_shift cfg % 2 ^ b
  if fget FBK_SER_CFG_ser_signed cfg = 1 ∧ b ≠ 0 then wrapN 32 (sx b v) else v

/-- Axis a takes a published word with its validity and LATCH stamp (R155). -/
def takeSerial (a : Nat) (word : Word) (ok : Bool) (stamp : Nat) (d : Dev) : Dev :=
  let v := serialAlign (d.rd (FBK_SER_CFG a)) word
  let d1 := (d.wr (FBK_SER_POS a) (w32 v)).modFbk a fun f => { f with ser := some (w32 v, stamp), serOk := ok }
  if !ok || !d.flag (FBK_CFG a) FBK_CFG_enc_en || d.fld (FBK_CFG a) FBK_CFG_cnt_mode != 3 then d1
  else
    let b := d.fld (FBK_SER_CFG a) FBK_SER_CFG_bits
    let d2 := d1.modFbk a fun f => { f with serPrev := some v }
    match (d.fbk a).serPrev with
    | none => (d2.wr (FBK_POS a) (w32 v)).modFbk a fun f => { f with cnt := some (w32 v, stamp), rev := false }
    | some p =>
      let diff := sx b (wrapN b ((v : Int) - p))
      if diff = -((2 ^ (b - 1) : Nat) : Int) then illegalStep a d2 else countBy a diff stamp d2

/-! ## Register writes (R161, R163) -/

/-- A write of FBK_CFG: the settings that fix the decoder are locked while the axis is not RETIRED; enabling restarts
the channel, and disabling it clears rsc_en (R161). -/
def fbkCfgWrite (w : Writer) (a : Nat) (v : Word) (d : Dev) : Dev :=
  let addr := FBK_CFG a
  if d.accepts w addr ∧ d.axSt a ≠ stRetired ∧ bits v.toNat 31 27 ≠ bits (d.rd addr).toNat 31 27 then
    discardWrite w addr (d.setB (FBK_GSTAT (axCl a)) FBK_GSTAT_adm_lock true)
  else
    let was := d.flag addr FBK_CFG_enc_en
    let d1 := plainWrite w addr v d
    let is := d1.flag addr FBK_CFG_enc_en
    if is && !was then fbkRestart a (d1.modFbk a fun f => { f with serPrev := none })
    else if was && !is then rscDrop a (d1.setB (FBK_RSC_CFG a) FBK_RSC_CFG_rsc_en false)
    else d1

/-- A write of an FBK register (R161, R163). -/
def fbkWrite (nm : RegName) (ix : List Nat) (w : Writer) (addr : Nat) (v : Word) (d : Dev) : Dev :=
  let a := ix.headD 0
  match nm with
  | .FBK_CFG => fbkCfgWrite w a v d
  | .FBK_POS => posPreset w a v d
  | .FBK_SER_CFG =>
    if d.axSt a ≠ stRetired ∧ v ≠ d.rd addr then
      discardWrite w addr (d.setB (FBK_GSTAT (axCl a)) FBK_GSTAT_adm_lock true)
    else plainWrite w addr v d
  | .FBK_SUP_CFG => disLevels a (plainWrite w addr v d)
  | .FBK_RSC_CFG => rscCfgWrite w a v d
  | .FBK_RSC_CMP => rscCmpWrite w a v d
  | .FBK_RSC_STEP => rscStepWrite w a v d
  | .FBK_EO_CFG => eoCfgWrite w a v d
  | .FBK_EO_RATIO => eoRatioWrite w a v d
  | .FBK_EO_SCALE => if d.part = .pdl64 then d else plainWrite w addr v d
  | _ => plainWrite w addr v d

end Sys2Proof.Machine
end

