-- ==== Sys2Proof/Machine/Interp.lean ====
section
/-!
DEFINITION. The segment interpolator of an axis (R164 to R180) and the coordination groups (R181 to R184).
-/
namespace Sys2Proof.Machine

/-! ## Evaluation of each kind (R169 to R171). Positions are in units of 2^-32 count. -/

/-- The start field: 0 CHAIN, 1 EVENT, 2 TIME (R166). -/
def Seg.start (g : Seg) : Nat := bits g.w0.toNat 5 4
/-- The early bit (R166). -/
def Seg.early (g : Seg) : Bool := bit g.w0.toNat 6
/-- The duration in ccyc, 0 for open-ended (R166). -/
def Seg.dur (g : Seg) : Nat := g.w1.toNat
/-- The running segment has no end of its own. -/
def SegRun.open_ (r : SegRun) : Bool := r.asHold || r.seg.dur == 0

/-- A quotient to the nearest integer, an exact half rounded up, limited to 32 bits signed (R164). -/
def q16 (n : Int) (m : Nat) : Int := if m = 0 then 0 else satI 32 (roundDiv n m)

/-- The polynomial coefficients c1 to c5 of a CUBIC or QUINTIC segment, Q24.8. -/
def Seg.coeffs (g : Seg) : List Int :=
  if g.kind = 2 then [sgn g.w2, sgn g.w3, sgn g.w4, 0, 0]
  else [sgn g.w2, sgn g.w3, sgn g.w4, sgn g.w5, sgn g.w6]

/-- What an evaluation gives: displacement from p0, velocity and acceleration. -/
structure Eval where
  p : Int
  v : Int
  a : Int

/-- CUBIC and QUINTIC at time t of a segment of dur ccyc, with sample period ts (R169). Assumption 30 (DEDUCED). -/
def evalPoly (c : List Int) (t dur ts : Nat) : Eval :=
  let x : Int := t
  let y : Int := dur
  let sum := fun (f : Nat → Int → Int) => ((List.range 5).map fun i => f (i + 1) (c.getD i 0)).foldl (· + ·) 0
  let p := sum fun i ci => ci * x ^ i * y ^ (5 - i)
  let v := sum fun i ci => i * ci * x ^ (i - 1) * y ^ (5 - i)
  let a := sum fun i ci => if i = 1 then 0 else i * (i - 1 : Nat) * ci * x ^ (i - 2) * y ^ (5 - i)
  ⟨p * 2 ^ 24 / y ^ 5, q16 (v * ts * 256) (dur ^ 5), q16 (a * ts ^ 2 * 256) (dur ^ 5)⟩

/-- Unit jerk integrated over the phases (jerk, length) up to time t: 6 × position, 2 × velocity, acceleration. -/
def jerkPhases : List (Int × Nat) → Nat → Int × Int × Int → Int × Int × Int
  | [], _, s => s
  | (j, len) :: r, t, (q, v, a) =>
    let u := min t len
    let x : Int := u
    jerkPhases r (t - u) (q + 3 * v * x + 3 * a * x ^ 2 + j * x ^ 3, v + 2 * a * x + j * x ^ 2, a + j * x)

/-- JERK7 at time t (R169). Assumption 30 (DEDUCED). -/
def evalJerk (g : Seg) (t ts : Nat) : Eval :=
  let tj := g.w3.toNat
  let ta := g.w4.toNat
  let tv := g.w5.toNat
  let dd := sgn g.w2
  let k := tj * (tj + ta) * (2 * tj + ta + tv)
  let s := jerkPhases [(1, tj), (0, ta), (-1, tj), (0, tv), (-1, tj), (0, ta), (1, tj)] t (0, 0, 0)
  if k = 0 then ⟨0, 0, 0⟩
  else ⟨dd * 2 ^ 24 * s.1 / (6 * k : Nat), q16 (dd * s.2.1 * ts * 128) k, q16 (dd * s.2.2 * ts ^ 2 * 256) k⟩

/-- The velocity and acceleration of a master in the follower's sample period, as fractions of Q16.16 (R170). -/
structure Master where
  vNum : Int
  vDen : Nat
  aNum : Int
  aDen : Nat

/-- GEAR: the ratio times the master's motion (R170). -/
def evalGear (g : Seg) (acc : Int) (m : Master) : Eval :=
  let ratio := sx 64 (g.w3.toNat + g.w4.toNat * 2 ^ 32)
  ⟨asr (ratio * acc) 32, q16 (ratio * m.vNum) (2 ^ 32 * m.vDen), q16 (ratio * m.aNum) (2 ^ 32 * m.aDen)⟩

/-- Point i of cam table k of cluster c (R171, R177). -/
def Dev.camPoint (d : Dev) (c k : Nat) (periodic : Bool) (i : Int) : Int :=
  let j := if periodic then i % 1024 else max 0 (min 1023 i)
  sgn (mget 0 d.bank15 (0x010F8000 + c * 0x100000 + k * 0x1000 + j.toNat * 4))

/-- CAM: the Catmull-Rom cubic through the table (R171). Assumption 30 (DEDUCED). -/
def Dev.evalCam (d : Dev) (cl : Nat) (g : Seg) (acc : Int) (m : Master) : Eval :=
  let k := bits g.w2.toNat 18 16
  let per := bit g.w2.toNat 24
  let span : Nat := max 1 g.w3.toNat
  let scale := sgn g.w4
  let den : Nat := span * 2 ^ 32
  let n : Nat := if per then 1024 else 1023
  let raw : Int := if per then (acc % (den : Int)) * 1024 else acc * 1023
  let out := !per && (decide (raw < 0) || decide ((1023 * den : Nat) < raw))
  let x : Int := if per then raw else max 0 (min (1023 * den : Nat) raw)
  let i := x / (den : Int)
  let r := x % (den : Int)
  let q := fun (j : Int) => d.camPoint cl k per (i + j)
  let b1 := q 1 - q (-1)
  let b2 := 2 * q (-1) - 5 * q 0 + 4 * q 1 - q 2
  let b3 := -q (-1) + 3 * q 0 - 3 * q 1 + q 2
  let dd : Int := den
  let c3 := 2 * dd ^ 3 * q 0 + r * dd ^ 2 * b1 + r ^ 2 * dd * b2 + r ^ 3 * b3
  let c1 := if out then 0 else dd ^ 2 * b1 + 2 * r * dd * b2 + 3 * r ^ 2 * b3
  let c2 := if out then 0 else 2 * dd * b2 + 6 * r * b3
  let c0 := d.camPoint cl k per 0
  ⟨scale * (c3 - c0 * 2 * dd ^ 3) / (2 * dd ^ 3),
   q16 (scale * c1 * n * m.vNum) (2 ^ 32 * 2 * den ^ 2 * span * m.vDen),
   q16 (scale * (c2 * n ^ 2 * m.vNum ^ 2 * (m.aDen * den : Nat) + c1 * (n * span * m.vDen ^ 2 * 2 ^ 16 : Nat) * m.aNum))
     (2 ^ 32 * 2 * den ^ 2 * span ^ 2 * m.vDen ^ 2 * 2 ^ 16 * m.aDen)⟩

/-- The sample period of an axis, at least 1. -/
def Dev.ts1 (d : Dev) (a : Nat) : Nat := max 1 (d.tsOf a)

/-- What follower f reads of master m: its outputs, or its latch where latched; from another cluster, what stood there
12 ccyc before (R170). -/
def Dev.masterVal (d : Dev) (f m : Nat) (latched : Bool) : MVal :=
  let x := if latched then d.mLat m else d.mOut m
  if axCl f = axCl m then x else valBefore d.now x (if latched then (d.fbk m).latHist else (d.interp m).hist)

/-- The master's value for follower f, if it is valid: its position in units of 2^-32 count, and its motion (R170). -/
def Dev.masterValue (d : Dev) (f : Nat) (g : Seg) : Option (Int × Master) :=
  let m := bits g.w2.toNat 5 0
  let latched := bit g.w2.toNat 8
  let x := d.masterVal f m latched
  if !x.ok then none
  else if latched then some (x.p, ⟨x.v * d.ts1 f, 65536, 0, 1⟩)
  else some (x.p, ⟨x.v * d.ts1 f, d.ts1 m, x.a * (d.ts1 f) ^ 2, (d.ts1 m) ^ 2⟩)

/-- How far a master moved between two values, which wrap at 2^32 counts (R164, R170). -/
def masterStep (new old : Int) : Int := sx 64 (wrapN 64 (new - old))

/-- The open error of an evaluated position: within 1/256 count (R169). Assumption 30 (DEDUCED). -/
def Dev.posError (d : Dev) : Int := ((d.open_ % 2 ^ 25 : Nat) : Int) - 2 ^ 24 + 1

/-- The outputs of the interpolator put into their registers (R164). -/
def setOutputs (a : Nat) (p v acc : Int) (ok : Bool) (d : Dev) : Dev :=
  let d1 := ((noteOut a d).modInterp a fun q => { q with outP := p }).setB (AXS_SEG_STAT a) AXS_SEG_STAT_valid ok
  (((d1.wr (AXS_SEG_SETP a) (wI (asr p 32))).wr (AXS_SEG_SETPF a) (wI p)).wr (AXS_SEG_SETV a) (wI v)).wr
    (AXS_SEG_SETA a) (wI acc)

/-- The interpolator holds its position (R165, R175). -/
def holdOutputs (a : Nat) (d : Dev) : Dev := setOutputs a (d.interp a).outP 0 0 true d

/-- The running segment evaluated at the sample instant s (R164, R169 to R171). Assumption 30 (DEDUCED). -/
def segEval (a s : Nat) (r : SegRun) (d : Dev) : Dev :=
  let g := r.seg
  if r.asHold ∨ g.kind = 0 then holdOutputs a d
  else if g.kind ≤ 3 then
    let t := min (s - r.t0) g.dur
    let e := if g.kind = 1 then evalJerk g t (d.ts1 a) else evalPoly g.coeffs t g.dur (d.ts1 a)
    let err := if t = g.dur ∨ t = 0 then 0 else d.posError
    setOutputs a (r.p0 + e.p + err) e.v e.a true d.bump
  else
    match d.masterValue a g with
    | none => (noteOut a d).setB (AXS_SEG_STAT a) AXS_SEG_STAT_valid false
    | some (mv, m) =>
      let acc := match r.mPrev with
        | some old => r.mAcc + masterStep mv old
        | none => 0
      let p0 := if r.mPrev.isSome then r.p0 else (d.interp a).outP
      let e := if g.kind = 4 then evalGear g acc m else d.evalCam (axCl a) g acc m
      let err := if acc = 0 then 0 else d.posError
      let d1 := d.modInterp a fun q => { q with run := some { r with mPrev := some mv, mAcc := acc, p0 := p0 } }
      setOutputs a (p0 + e.p + err) e.v e.a true d1.bump

/-! ## Starting and ending segments (R172 to R176) -/

/-- The segment at the head of the queue. -/
def Dev.headSeg (d : Dev) (a : Nat) : Option Seg :=
  if (d.interp a).len = 0 then none else some (d.segAt a (d.interp a).head)

/-- The chain of masters from m reaches axis a within n links (R172). -/
def Dev.reachesAxis (d : Dev) (a : Nat) : Nat → Nat → Bool
  | 0, m => m == a
  | n + 1, m => m == a ||
    match d.masterOf m with
    | some x => d.reachesAxis a n x
    | none => false

/-- The velocity of the segment at its end is not zero (R175). -/
def Dev.endsMoving (d : Dev) (a : Nat) (r : SegRun) : Bool :=
  let g := r.seg
  if r.asHold ∨ g.kind = 0 ∨ g.kind = 1 then false
  else if g.kind ≤ 3 then (evalPoly g.coeffs g.dur g.dur (d.ts1 a)).v != 0
  else d.rd (AXS_SEG_SETV a) != 0

/-- The end state of a segment with a duration, exactly (R169). -/
def Dev.endPos (d : Dev) (a : Nat) (r : SegRun) : Int :=
  let g := r.seg
  if r.asHold ∨ g.kind = 0 ∨ 4 ≤ g.kind then (d.interp a).outP
  else if g.kind = 1 then r.p0 + sgn g.w2 * 2 ^ 24
  else r.p0 + (g.coeffs.foldl (· + ·) 0) * 2 ^ 24

/-- An ordinary end of the running segment at a time: SEG_END pulses, it counts, and it is reported if it asks (R175,
R176). -/
def endRunning (a endT : Nat) (r : SegRun) (d : Dev) : Dev :=
  let p := d.endPos a r
  let d1 := (d.modInterp a fun q => { q with run := none, outP := p }).incF (AXS_SEG_DONE a) AXS_SEG_DONE_done
  let d2 := fluxFire (axCl a) (0x90 + axLo a) d1
  when r.seg.notify (postEvent 0x0301 (0x10 + axCl a) a
    [r.seg.tag, r.t0 % 2 ^ 32, r.t0 / 2 ^ 32, endT % 2 ^ 32, endT / 2 ^ 32]) d2

/-- The axis is ready for its next segment: ENABLED, none running or an open-ended one, and one at the head (R173). -/
def Dev.eligible (d : Dev) (a : Nat) : Bool :=
  d.axSt a == stEnabled && (d.headSeg a).isSome &&
    !d.flag (AXS_STATE a) AXS_STATE_stopping && (d.interp a).next.isNone &&
    match (d.interp a).run with
    | some r => r.open_
    | none => true

/-- The compare of a TIME start: due in the next ccyc, late if in the past, else it waits (R174). -/
def timeEval (a : Nat) (w7 : Word) (d : Dev) : Dev :=
  let now := d.copy (axCl a)
  let diff := (w7 - w32 now).toNat
  if diff = 0 then d.addDue (.timeStart a false)
  else if 2 ^ 31 ≤ diff then d.addDue (.timeStart a true)
  else d.modInterp a fun q => { q with waitT := some (now + diff) }

/-- A TIME segment that already stands behind an open-ended segment which has just started is eligible at once (R173). -/
def timeBehind (a : Nat) (d : Dev) : Dev :=
  match d.headSeg a with
  | some s => if d.eligible a ∧ s.start = 2 then timeEval a s.w7 d else d
  | none => d

/-- The head segment starts at T0; an open-ended segment ends in that ccyc (R172, R173, R175). -/
def startHead (a t0 : Nat) (d : Dev) : Dev :=
  match d.headSeg a with
  | none => d
  | some g =>
    let d0 := match (d.interp a).run with
      | some r => endRunning a t0 r d
      | none => d
    let m := bits g.w2.toNat 5 0
    let loop := decide (4 ≤ g.kind) && d0.reachesAxis a 64 m
    let q := d0.interp a
    let run : SegRun := { seg := g, t0 := t0, p0 := q.outP, mPrev := none, mAcc := 0, asHold := loop }
    let d1 := d0.modInterp a fun q =>
      { q with run := some run, head := (q.head + 1) % 64, len := q.len - 1, waitT := none, enq := q.enq.drop 1, next := none }
    let d2 := (((d1.setQueued a).setB (AXS_SEG_STAT a) AXS_SEG_STAT_early false).setF (AXS_SEG_TAG a)
      AXS_SEG_TAG_tag g.tag).setWide (AXS_SEG_T0_LO a) t0
    let d3 := (d2.dropDue (.timeStart a false)).dropDue (.timeStart a true)
    if loop then
      let was := d3.flag (AXS_SEG_STAT a) AXS_SEG_STAT_seg_err
      when (!was) (postEvent 0x0304 (0x10 + axCl a) a [g.tag + 2 * 65536]) (d3.setB (AXS_SEG_STAT a) AXS_SEG_STAT_seg_err true)
    else d3

/-- vel_step and underrun where nothing is ready to start after a segment that ended in motion (R175, R176). -/
def underrun (a tag : Nat) (moving : Bool) (d : Dev) : Dev :=
  if !moving then d
  else
    let st := AXS_SEG_STAT a
    let empty := decide ((d.interp a).len = 0)
    let new := !d.flag st AXS_SEG_STAT_vel_step || (empty && !d.flag st AXS_SEG_STAT_underrun)
    let d1 := when empty (·.setB st AXS_SEG_STAT_underrun true) (d.setB st AXS_SEG_STAT_vel_step true)
    when new (postEvent 0x0303 (0x10 + axCl a) a [tag]) d1

/-! ### Groups (R181 to R184) -/

/-- Device time in the home cluster of group g. -/
def Dev.homeTime (d : Dev) (g : Nat) : Nat := d.copy (g / 8)

/-- T0 of a step set by an event or by readiness: 16 ticks later where the members span clusters (R183). -/
def Dev.padded (d : Dev) (g t : Nat) : Nat := if d.flag (FLX_GRP_CFG g) FLX_GRP_CFG_span then t + 16 else t

/-- The ccyc since which axis a is ENABLED with the segment at its head queued. -/
def Dev.readyAt (d : Dev) (a : Nat) : Nat := max (d.interp a).enAt ((d.interp a).enq.headD 0)

/-- The ccyc in which the home of group g learns that member m is ready: 12 ccyc later from another cluster (R183). -/
def Dev.seenAt (d : Dev) (g m : Nat) : Nat := d.readyAt m + if axCl m = g / 8 then 0 else 12

/-- Every member is ENABLED and has an eligible segment, as the home cluster knows (R182, R183). Assumption 72 (DEDUCED). -/
def Dev.groupReady (d : Dev) (g : Nat) : Bool :=
  d.members g != [] && (d.members g).all fun m => d.eligible m && decide (d.seenAt g m ≤ d.now)

/-- The head of a member starts at T0, which the members hold while it lies ahead (R175, R183). -/
def startAt (a t0 : Nat) (d : Dev) : Dev :=
  if d.copy (axCl a) < t0 then d.modInterp a fun q => { q with next := some t0 } else startHead a t0 d

/-- The leader's TIME segment that already stands behind the open-ended step which has just begun is compared at once
(R173, R182). -/
def groupBehind (g : Nat) (d : Dev) : Dev :=
  if d.groupReady g then timeBehind ((d.members g).headD 0) d else d

/-- A step begins: all members start their heads at T0 (R182). -/
def groupStep (g t0 : Nat) (d : Dev) : Dev :=
  let ms := d.members g
  let durs := ms.filterMap fun m => (d.headSeg m).map Seg.dur
  let d1 := ms.foldl (fun x m => startAt m t0 x) d
  let st := FLX_GRP_STAT g
  let d2 := (d1.incF st FLX_GRP_STAT_steps).modGrp g fun x => { x with early := false }
  groupBehind g (when (durs.any fun x => x != durs.headD 0) (·.setB st FLX_GRP_STAT_dur_mismatch true) d2)

/-- The leader's segment, if the group is ready. -/
def Dev.leaderSeg (d : Dev) (g : Nat) : Option (Nat × Seg) :=
  if d.groupReady g then
    match d.members g with
    | l :: _ => (d.headSeg l).map fun s => (l, s)
    | [] => none
  else none

/-- The group looks for its next step; atEnd is the end of the step before, where one has just ended (R173, R182). -/
def groupTry (g : Nat) (atEnd : Option Nat) (d : Dev) : Dev :=
  match d.leaderSeg g with
  | none => d
  | some (l, s) =>
    match s.start with
    | 0 => match atEnd with
      | some t => groupStep g t d
      | none => d
    | 1 => if s.early ∧ (d.grp g).early then groupStep g (d.padded g (atEnd.getD (d.homeTime g))) d else d
    | _ => if (d.interp l).waitT.isSome then d else timeEval l s.w7 d

/-- A member of the group still runs a segment with a duration. -/
def Dev.groupRuns (d : Dev) (g : Nat) : Bool :=
  (d.members g).any fun m =>
    match (d.interp m).run with
    | some r => !r.open_
    | none => false

/-! ### The axis's own starts -/

/-- The head of an axis in no group starts at T0 (R173, R181). -/
def startAlone (a t0 : Nat) (d : Dev) : Dev := timeBehind a (startHead a t0 d)

/-- An axis of its own looks for its next segment; atEnd is the end of the one before, where it has just ended. -/
def axisTry (a : Nat) (atEnd : Option Nat) (d : Dev) : Dev :=
  if !d.eligible a then d
  else match d.headSeg a with
    | none => d
    | some s =>
      match s.start with
      | 0 => match atEnd with
        | some t => startAlone a t d
        | none => d
      | 1 => if s.early ∧ d.flag (AXS_SEG_STAT a) AXS_SEG_STAT_early then
          startAlone a (atEnd.getD (d.copy (axCl a))) d
        else d
      | _ => if (d.interp a).waitT.isSome then d else timeEval a s.w7 d

/-- The axis's queue or state changed: its segments, or its group's, may become eligible (R173, R182). -/
def tryStart (a : Nat) (atEnd : Option Nat) (d : Dev) : Dev :=
  match d.groupOf a with
  | some g => if d.groupRuns g then d else groupTry g atEnd d
  | none => axisTry a atEnd d

/-- A CHAIN start at the first sample instant after eligibility (R173), evaluated 4 ccyc later; for a group, at its leader's
(R182, R183). -/
def chainAtSample (a s : Nat) (d : Dev) : Dev :=
  match d.groupOf a with
  | some g =>
    if d.groupRuns g then d
    else match d.leaderSeg g with
      | some (l, sg) =>
        if l = a ∧ sg.start = 0 ∧ ((d.members g).all fun m => decide (d.seenAt g m + 4 ≤ d.now)) = true then
          groupStep g (d.padded g s) d
        else d
      | none => d
  | none =>
    match d.headSeg a with
    | some sg => if d.eligible a ∧ sg.start = 0 ∧ d.readyAt a + 4 ≤ d.now then startAlone a s d else d
    | none => d

/-- SEGMENT_END: the running segment reaches T0 + dur; a waiting CHAIN segment starts exactly there (R173, R175). -/
def segmentEnd (a : Nat) (d : Dev) : Dev :=
  match (d.interp a).run with
  | none => d
  | some r =>
    if r.open_ then d
    else
      let t := r.t0 + r.seg.dur
      let moving := d.endsMoving a r
      if d.copy (axCl a) < t then d
      else
        let d1 := tryStart a (some t) (endRunning a t r d)
        if (d1.interp a).run.isSome then d1 else underrun a r.seg.tag moving d1

/-- SEGMENT_END. -/
def execSegmentEnd (a : Fin 64) (s : State) : Out := s.onCluster (axCl a.val) (segmentEnd a.val)

/-- TIME_START: the start compare of a TIME segment matches (R174). -/
def timeStart (a : Nat) (d : Dev) : Dev :=
  let late := d.due.contains (.timeStart a true)
  let now := late || d.due.contains (.timeStart a false)
  match d.headSeg a with
  | none => d
  | some s =>
    if s.start ≠ 2 ∨ now = false then d
    else
      let t0 := d.copy (axCl a)
      let d1 := when late (·.setB (AXS_SEG_STAT a) AXS_SEG_STAT_late true) d
      match d.groupOf a with
      | some g => if d1.groupReady g ∧ (d1.members g).headD 64 = a then groupStep g t0 d1 else d1
      | none => if d1.eligible a then startAlone a t0 d1 else d1

/-- TIME_START. -/
def execTimeStart (a : Fin 64) (s : State) : Out := s.onCluster (axCl a.val) (timeStart a.val)

/-- A queued segment has early set (R173). -/
def Dev.earlyQueued (d : Dev) (a : Nat) : Bool :=
  (List.range (d.interp a).len).any fun i =>
    (d.segAt a ((d.interp a).head + i)).early && (d.segAt a ((d.interp a).head + i)).start == 1

/-- SEG_START: a pulse starts a waiting EVENT segment, is latched early, or sets only seen (R173). -/
def segStart (a : Nat) (d : Dev) : Dev :=
  let d1 := fluxArrive (axCl a) (axLo a) d
  if (d1.groupOf a).isSome then d1
  else
    let waiting := d1.eligible a && match d1.headSeg a with
      | some s => s.start == 1
      | none => false
    if waiting then startAlone a (d1.copy (axCl a)) d1
    else if d1.earlyQueued a then d1.setB (AXS_SEG_STAT a) AXS_SEG_STAT_early true
    else d1

/-- SEG_START. -/
def execSegStart (a : Fin 64) (s : State) : Out := s.onCluster (axCl a.val) (segStart a.val)

/-- GRP_START: a pulse starts the next step of a group, or is latched early (R182). -/
def grpStart (g : Nat) (d : Dev) : Dev :=
  let d1 := fluxArrive (g / 8) (0x58 + g % 8) d
  match d1.members g with
  | [] => d1
  | l :: _ =>
    let go := !d1.groupRuns g && match d1.leaderSeg g with
      | some (_, s) => s.start == 1
      | none => false
    if go then groupStep g (d1.padded g (d1.homeTime g)) d1
    else if d1.earlyQueued l then d1.modGrp g fun x => { x with early := true } else d1

/-- GRP_START. -/
def execGrpStart (g : Fin 32) (s : State) : Out := s.onCluster (g.val / 8) (grpStart g.val)

/-! ## The interpolator at S + 4 (R164, R165) -/

/-- One sample of the stop profile of R92. -/
def rampStep (a : Nat) (d : Dev) : Dev :=
  let x := d.axis a
  if x.rampHold then holdOutputs a d
  else
    let dec : Int := (d.rd (AXS_RAMP_DECEL a)).toNat
    let v := max 0 (x.rampV - dec)
    let sv := if x.rampNeg then -v else v
    let acc := satI 32 (if x.rampNeg then dec else -dec)
    setOutputs a ((d.interp a).outP + sv * 2 ^ 16) sv acc true
      (d.modAxis a fun y =>
        { y with rampV := v, rampHold := decide (v = 0), rampHoldT := (d.cluster (axCl a)).ref })

/-- The interpolator of axis a evaluates at the sample instant s. -/
def interpEval (a s : Nat) (d : Dev) : Dev :=
  if d.ramping a then rampStep a d
  else if d.axSt a = stEnabled then
    let d1 := chainAtSample a s d
    match (d1.interp a).run with
    | some r => if r.t0 ≤ s then segEval a s r d1 else holdOutputs a d1
    | none => holdOutputs a d1
  else if d.axSt a = stArmed ∨ d.axSt a = stFaulted then holdOutputs a d
  else d

/-- The hold position is taken from the latch of this sample where a transition asked for it (R93). -/
def retakeHold (a : Nat) (d : Dev) : Dev :=
  if (d.interp a).retake then
    d.modInterp a fun q => { q with retake := false, outP := ((d.rd (FBK_LAT_POS a)).toNat : Int) * 2 ^ 32 }
  else d

/-! ## The queue (R168, R177 to R180) -/

/-- The last queued entry. -/
def Dev.queueLast (d : Dev) (a : Nat) : Option Seg :=
  if (d.interp a).len = 0 then none else some (d.segAt a ((d.interp a).head + (d.interp a).len - 1))

/-- The entry of eight words passes the check of R168: none, or the status a command takes. -/
def Dev.segCheck (d : Dev) (a : Nat) (g : Seg) : Option Nat :=
  let w0 := g.w0.toNat
  let k := g.kind
  let res := fun (b : Bool) => if b then some stBadParam else none
  let m := bits g.w2.toNat 5 0
  let lastOpen := match d.queueLast a with
    | some l => l.dur == 0
    | none => match (d.interp a).run with
      | some r => r.open_
      | none => false
  let kindBad : Bool := match k with
    | 0 => decide (g.w2 ≠ 0 ∨ g.w3 ≠ 0 ∨ g.w4 ≠ 0 ∨ g.w5 ≠ 0 ∨ g.w6 ≠ 0)
    | 1 => decide (g.w6 ≠ 0 ∨ g.w3 = 0 ∨ g.dur ≠ 4 * g.w3.toNat + 2 * g.w4.toNat + g.w5.toNat)
    | 2 => decide (g.w5 ≠ 0 ∨ g.w6 ≠ 0)
    | 3 => false
    | 4 => decide (g.w5 ≠ 0 ∨ g.w6 ≠ 0 ∨ g.w2.toNat % 512 ≠ g.w2.toNat ∨ bits g.w2.toNat 7 6 ≠ 0)
    | _ => decide (g.w5 ≠ 0 ∨ g.w6 ≠ 0 ∨ (g.w2 &&& 0xFEF8FEC0) ≠ 0 ∨ g.w3.toNat < 1024 ∨ 2 ^ 31 < g.w3.toNat)
  if 6 ≤ k ∨ g.start = 3 ∨ bits w0 15 8 ≠ 0 ∨ (g.start ≠ 2 ∧ g.w7 ≠ 0) ∨ (g.dur = 0 ∧ 1 ≤ k ∧ k ≤ 3) ∨ kindBad = true then
    some stBadParam
  else if 4 ≤ k ∧ m = a then some stBadParam
  else if 4 ≤ k ∧ d.hasCluster (axCl m) = false then some stBadTarget
  else res (decide (g.start = 0) && lastOpen)

/-- An entry put behind the queue of axis a in bank 15 (R177, R178). -/
def enqueue (a : Nat) (g : Seg) (d : Dev) : Dev :=
  let q := d.interp a
  let e := q.head + q.len
  let put := fun (i : Nat) (v : Word) (x : Dev) => { x with bank15 := mset 0 x.bank15 (segAddr a e i) v }
  let d1 := put 7 g.w7 (put 6 g.w6 (put 5 g.w5 (put 4 g.w4 (put 3 g.w3 (put 2 g.w2 (put 1 g.w1 (put 0 g.w0 d)))))))
  tryStart a none ((d1.modInterp a fun q => { q with len := q.len + 1, enq := q.enq ++ [d.now] }).setQueued a)

/-- The queued segments that have not started are discarded; the running one continues (R180). -/
def flushQueue (a : Nat) (d : Dev) : Dev :=
  let tags := d.queueTags a
  let d1 := d.modInterp a fun q => { q with head := 0, len := 0, waitT := none, enq := [], next := none }
  let d2 := ((d1.dropDue (.timeStart a false)).dropDue (.timeStart a true)).setQueued a
  segDiscarded a tags (d2.setB (AXS_SEG_STAT a) AXS_SEG_STAT_early false)

/-! ## What the status registers show -/

/-- gst of group g: 0 idle, 1 running, 2 waiting for start, 3 waiting for members (R182, R184, R194).
Assumption 72 (DEDUCED). -/
def Dev.gstOf (d : Dev) (g : Nat) : Nat :=
  let ms := d.members g
  if ms.any fun m => (d.interp m).run.isSome || (d.interp m).next.isSome then 1
  else if d.groupReady g then 2
  else if ms.any fun m => decide (stArmed ≤ d.axSt m) || (d.interp m).len != 0 then 3
  else 0

/-- ist of axis a: 0 holding, 1 running, 2 waiting for start, 3 waiting for group (R195). Assumption 72 (DEDUCED). -/
def Dev.istOf (d : Dev) (a : Nat) : Nat :=
  if (d.interp a).run.isSome then 1
  else if !d.eligible a then 0
  else match d.groupOf a with
    | some g => if d.gstOf g = 2 then 2 else 3
    | none => 2

/-! ## Starts that lie ahead, and news from other clusters (R183) -/

/-- The starts whose T0 has come take place, with the compares of TIME segments behind open-ended ones. -/
def plannedStarts (d : Dev) : Dev :=
  let l := (List.range 64).filter fun a =>
    match (d.interp a).next with
    | some t => decide (t ≤ d.copy (axCl a))
    | none => false
  if l = [] then d
  else
    let d1 := l.foldl (fun x a => startHead a ((x.interp a).next.getD 0) x) d
    upTo 32 (fun g x => when (l.any fun a => (x.members g).contains a) (groupBehind g) x) d1

/-- The home of a group learns in this ccyc that a member in another cluster has become ready. -/
def groupNews (d : Dev) : Dev :=
  upTo 32 (fun g x =>
    when (x.clusterRuns (g / 8) && !x.groupRuns g &&
        (x.members g).any fun m => axCl m != g / 8 && x.eligible m && x.seenAt g m == x.now) (groupTry g none) x) d

end Sys2Proof.Machine
end

