-- ==== Sys2Proof/Machine/Cordic.lean ====
section
/-!
DEFINITION. Sine, cosine, arc tangent and magnitude as exact integers of 2^-80, and the choice of a result whose error
is bounded and otherwise open (R53, R250): the CORDIC units of the lanes and of the Anvil cores.
-/
namespace Sys2Proof.Machine

/-- One in units of 2^-80. -/
def oneQ : Nat := 2 ^ 80

/-- A quarter turn in radians, in units of 2^-80: pi / 2. -/
def halfPiQ : Nat := 0x3243F6A8885A308D313198A2E / 2 ^ 17

/-- The Taylor series of cosine (even) or sine (odd) from the term t of order k on, with x2 the square of the angle;
all in units of 2^-80. -/
def trigSeries : Nat → Nat → Int → Int → Int
  | 0, _, _, _ => 0
  | n + 1, k, t, x2 => t + trigSeries n (k + 2) (-(t * x2) / (2 ^ 80 * ((k + 1) * (k + 2) : Nat))) x2

/-- Sine and cosine of an angle of the first quadrant, 0 ≤ r < 2^30 of 2^30, in units of 2^-80. -/
def trigQuarter (r : Nat) : Int × Int :=
  let x : Int := (r * halfPiQ / 2 ^ 30 : Nat)
  let x2 := x * x / 2 ^ 80
  (trigSeries 18 1 x x2, trigSeries 18 0 oneQ x2)

/-- Sine and cosine of an ANG angle (a 32-bit fraction of a turn) in units of 2^-80. Assumption 21 (DEDUCED). -/
def trigAng (ang : Nat) : Int × Int :=
  let t := trigQuarter (ang % 2 ^ 30)
  match ang / 2 ^ 30 % 4 with
  | 0 => t
  | 1 => (t.2, -t.1)
  | 2 => (-t.1, -t.2)
  | _ => (-t.2, t.1)

/-- Euler's series of the arc tangent, from the term t of order n on, with w = z^2 / (1 + z^2). -/
def atanSeries : Nat → Nat → Nat → Nat → Nat
  | 0, _, _, _ => 0
  | f + 1, n, t, w => t + atanSeries f (n + 1) (t * w / 2 ^ 80 * (2 * (n + 1)) / (2 * n + 3)) w

/-- The arc tangent of y / x in radians for 0 ≤ y ≤ x, x ≠ 0, in units of 2^-80. -/
def atanQ (x y : Nat) : Nat :=
  let s := x * x + y * y
  atanSeries 90 0 (x * y * 2 ^ 80 / s) (y * y * 2 ^ 80 / s)

/-- The angle of (x, y) as a fraction of a turn in units of 2^-80 of 2^-32 turn; (0, 0) has angle 0.
Assumption 21 (DEDUCED). -/
def angleQ (x y : Int) : Int :=
  if x = 0 ∧ y = 0 then 0
  else
    let ax := x.natAbs
    let ay := y.natAbs
    let turn := fun (r : Nat) => (r * 2 ^ 110 : Nat) / halfPiQ
    let q := if ay ≤ ax then turn (atanQ ax ay) else 2 ^ 110 - turn (atanQ ay ax)
    let h := if 0 ≤ x then (q : Int) else ((2 ^ 111 : Nat) : Int) - q
    if 0 ≤ y then h else -h

/-- The integer square root, by bits from bit n down. -/
def isqrtBits : Nat → Nat → Nat → Nat
  | 0, _, r => r
  | n + 1, v, r => if (r + 2 ^ n) * (r + 2 ^ n) ≤ v then isqrtBits n v (r + 2 ^ n) else isqrtBits n v r

/-- The largest number whose square is at most v, for v below 2^400. -/
def isqrt (v : Nat) : Nat := isqrtBits 200 v 0

/-- The magnitude of (x, y) in units of 2^-80. Assumption 21 (DEDUCED). -/
def magQ (x y : Int) : Nat := isqrt ((x * x + y * y).toNat * 2 ^ 160)

/-- An integer within err units of the value q / 2^80: which one is open. Assumption 21 (DEDUCED). -/
def openNear (q : Int) (err : Nat) (free : Nat) : Int :=
  let lo := -((-q + err * 2 ^ 80) / 2 ^ 80)
  let hi := (q + err * 2 ^ 80) / 2 ^ 80
  lo + (free : Int) % (hi - lo + 1)

end Sys2Proof.Machine
end

