-- ==== Sys2Proof/Machine/Fabric.lean ====
section
/-!
DEFINITION. Memory on the fabric: the address map (R22), words and bytes of memory, ingot banks with their ports, tags
and error correction (R284 to R291), and DDR4 (R294, R295).
-/
namespace Sys2Proof.Machine

/-! ## Bytes and words -/

/-- The byte at an address. Assumption 9 (DESIGN CHOICE). -/
def Memory.byte (m : Memory) (a : Nat) : Byte := mget (byteDflt a) m.bytes a

/-- The byte at an address set. -/
def Memory.setByte (m : Memory) (a : Nat) (b : Byte) : Memory := { m with bytes := mset (byteDflt a) m.bytes a b }

/-- n bytes from an address. -/
def Memory.span (m : Memory) (a n : Nat) : List Byte := (List.range n).map fun i => m.byte (a + i)

/-- Bytes put from an address on. -/
def Memory.setSpan : Memory → Nat → List Byte → Memory
  | m, _, [] => m
  | m, a, b :: bs => Memory.setSpan (m.setByte a b) (a + 1) bs

/-- The word at an address (R9). -/
def Memory.word (m : Memory) (a : Nat) : Word := w32 (leNat (m.span a 4))

/-- The word at an address set. -/
def Memory.setWord (m : Memory) (a : Nat) (v : Word) : Memory := m.setSpan a (leBytes 4 v.toNat)

/-- The tag of the word at a word address. Assumption 9 (DESIGN CHOICE). -/
def Memory.tag (m : Memory) (a : Nat) : Nat := mget 0 m.tags a

/-- The tag of a word set. -/
def Memory.setTag (m : Memory) (a t : Nat) : Memory := { m with tags := mset 0 m.tags a t }

/-- The error state of a word: 0 none, 1 single bit, 2 double bit. Assumption 9 (DESIGN CHOICE). -/
def Memory.errAt (m : Memory) (a : Nat) : Nat := mget 0 m.err a

/-- The error state of a word set. -/
def Memory.setErr (m : Memory) (a e : Nat) : Memory := { m with err := mset 0 m.err a e }

/-- A byte of host memory. Assumption 9 (DESIGN CHOICE). -/
def Memory.hostByte (m : Memory) (a : Nat) : Byte := mget 0 m.host a

/-- n bytes of host memory. -/
def Memory.hostSpan (m : Memory) (a n : Nat) : List Byte := (List.range n).map fun i => m.hostByte (a + i)

/-- Bytes put into host memory. -/
def Memory.setHost : Memory → Nat → List Byte → Memory
  | m, _, [] => m
  | m, a, b :: bs => Memory.setHost { m with host := mset 0 m.host a b } (a + 1) bs

/-! ## The address map (R22) -/

/-- What lies at a fabric address. -/
inductive Kind where
  | rom
  | hprivate
  /-- Ingot bank b (64 + k for host bank k) at offset o; alias 0 the words, 1 bit-set, 2 bit-clear. -/
  | ingot (b o als : Nat)
  | registers
  | flash
  | ddr
  | reserved
deriving DecidableEq, Repr

/-- The bank and offset of an ingot address below 0x0147_FFFF. -/
def ingotAt (x als : Nat) : Kind := .ingot (if x < 0x400000 then x / 0x10000 else 64 + (x - 0x400000) / 0x10000)
  (x % 0x10000) als

/-- The kind of a fabric address. Assumption 41 (DEDUCED). -/
def kindOf (a : Nat) : Kind :=
  if a < 0x00010000 then .rom
  else if a < 0x00018000 then .hprivate
  else if a < 0x01000000 then .reserved
  else if a < 0x01480000 then ingotAt (a - 0x01000000) 0
  else if a < 0x01500000 then .reserved
  else if a < 0x01980000 then ingotAt (a - 0x01500000) 1
  else if a < 0x01A00000 then .reserved
  else if a < 0x01E80000 then ingotAt (a - 0x01A00000) 2
  else if a < 0x02000000 then .reserved
  else if a < 0x03000000 then .registers
  else if a < 0x04000000 then .reserved
  else if a < 0x08000000 then .flash
  else if a < 0x80000000 then .reserved
  else if a < 0xF0000000 then .ddr
  else .reserved

/-- The fabric address of offset o of ingot bank b. -/
def bankAddr (b o : Nat) : Nat := if b < 64 then 0x01000000 + b * 0x10000 + o else 0x01400000 + (b - 64) * 0x10000 + o

/-- The cluster of a bank, none for a host bank. -/
def bankCluster (b : Nat) : Option Nat := if b < 64 then some (b / 16) else none

/-- The bank is a cluster's bank 15, which the segment interpolators own (R177, R285). -/
def isBank15 (b : Nat) : Bool := decide (b < 64) && b % 16 == 15

/-- The bank can be reached now: its cluster is enabled, released, and its clock runs (R4, R35). -/
def Dev.bankUp (d : Dev) (b : Nat) : Bool :=
  match bankCluster b with
  | some c => d.clusterRuns c
  | none => true

/-! ## Ingot banks (R284 to R291) -/

/-- The masters that access ingot banks. -/
inductive Mst where
  | lane
  | engine
  | core (k : Nat)
  | ladle
  /-- The debug peek path. -/
  | peek
deriving DecidableEq, Repr

/-- The bit of a master's class in the share masks (R286). -/
def Mst.cls : Mst → Nat
  | .lane => 0 | .engine => 1 | .core _ => 2 | .ladle => 3 | .peek => 3

/-- The owner code that names this master for bank b (R285). -/
def Mst.ownerCode (m : Mst) (b : Nat) : Option Nat :=
  match m with
  | .core k =>
    if b < 64 then (if k / 4 = b / 16 ∧ k < 16 then some (k % 4 + 1) else none)
    else if k = 16 then some 1 else if k = 17 then some 2 else none
  | .ladle => some 8
  | _ => none

/-- The master uses bank b's owner port. -/
def Dev.isOwner (d : Dev) (m : Mst) (b : Nat) : Bool := m.ownerCode b == some (d.fld (ING_BANK_OWN b) ING_BANK_OWN_owner)

/-- The master may access bank b now (R285, R286, R293). -/
def Dev.ingotOk (d : Dev) (m : Mst) (b : Nat) (write : Bool) : Bool :=
  m == .peek ||
    (!d.flag (ING_BANK_STAT b) ING_BANK_STAT_march_busy &&
      (d.isOwner m b ||
        (d.fld (ING_BANK_SHARE b) (if write then ING_BANK_SHARE_share_wr else ING_BANK_SHARE_share_rd)).testBit m.cls))

/-- How an access to memory ended. -/
inductive MemRes where
  /-- It read this word with this tag. -/
  | ok (v : Word) (tag : Nat)
  /-- A bus error: the access is denied, or nothing answers there. -/
  | bus
  /-- The word holds an uncorrectable error; the bits as they stand. -/
  | uncorr (v : Word)
deriving DecidableEq, Repr

/-- The island code of a bank's event records. -/
def bankIsland (b : Nat) : Nat :=
  match bankCluster b with
  | some c => 0x10 + c
  | none => 0

/-- An uncorrectable word of bank b at offset o is counted, recorded and reported (R291). -/
def ingotUncorr (b o : Nat) (d : Dev) : Dev :=
  let d1 := (d.setB (ING_BANK_STAT b) ING_BANK_STAT_uncorr true).incF (ING_BANK_STAT b) ING_BANK_STAT_uncorr_cnt
  postEvent (evOpen 9 0) (bankIsland b) b [] (d1.wr (ING_ERR_ADDR b) (w32 (2 ^ 31 + o)))

/-- A corrected word of bank b at offset o is counted and recorded (R291). -/
def ingotCorr (b o : Nat) (d : Dev) : Dev :=
  (d.incF (ING_BANK_STAT b) ING_BANK_STAT_corr_cnt).wr (ING_ERR_ADDR b) (w32 o)

/-- The data bits of the word at offset o of bank b: bank 15 holds the interpolators' words. -/
def ingotData (m : Memory) (d : Dev) (b o : Nat) : Word :=
  if isBank15 b then mget 0 d.bank15 (bankAddr b o) else m.word (bankAddr b o)

/-- Exclusive monitors on a word are cleared (R279). Assumption 41 (DEDUCED). -/
def clearMonitors (a : Nat) (d : Dev) : Dev :=
  { d with cores := ⟨(d.cores.entries.map fun e =>
      if e.2.monitor = some a then (e.1, { e.2 with monitor := none }) else e).filter fun e => e.2 != .reset⟩ }

/-- A word of bank b read by a master at the word offset o; a peek has no side effect (R286, R291). -/
def ingotRead (mst : Mst) (b o : Nat) (m : Memory) (d : Dev) : Memory × Dev × MemRes :=
  let a := bankAddr b o
  let v := ingotData m d b o
  if !d.bankUp b && mst != .peek then (m, d, .bus)
  else if !d.ingotOk mst b false then (m, d.setB (ING_BANK_STAT b) ING_BANK_STAT_share_denied true, .bus)
  else match m.errAt a with
    | 0 => (m, d, .ok v (m.tag a))
    | 1 => if mst = .peek then (m, d, .ok v (m.tag a)) else (m.setErr a 0, ingotCorr b o d, .ok v (m.tag a))
    | _ => if mst = .peek then (m, d, .uncorr v) else (m, ingotUncorr b o d, .uncorr v)

/-- The data bits of a word of bank b put in place. -/
def ingotPut (b o : Nat) (v : Word) (tag : Nat) (m : Memory) (d : Dev) : Memory × Dev :=
  let a := bankAddr b o
  (((m.setWord a v).setTag a tag).setErr a 0, clearMonitors a d)

/-- The port and the node (0 for broadcast) whose command mailbox holds offset o of H7 (R389). -/
def h7Box (o : Nat) : Option (Nat × Nat) := if o < 0x8000 ∧ 0x10 ≤ o % 0x20 then some (o / 0x1000, o % 0x1000 / 0x20) else none

/-- A write to offset o of bank b is refused because H7 takes writes only into command mailboxes, and not while their
command is pending (R389). -/
def h7Refuses (b o : Nat) (d : Dev) : Bool × Dev :=
  if b ≠ 71 then (false, d)
  else match h7Box o with
    | none => (true, d)
    | some (p, n) =>
      if (d.rd (SLD_CMD_PEND p (n / 32))).toNat.testBit (n % 32) then (true, d.setB (SLD_STAT p) SLD_STAT_cmd_refused true)
      else (false, d)

/-- A whole word with its tag written by a master into bank b (R286, R290, R291); bank 15 takes no fabric write (R177). The
answer says whether the write was permitted. -/
def ingotWrite (mst : Mst) (b o : Nat) (v : Word) (tag : Nat) (m : Memory) (d : Dev) : Memory × Dev × Bool :=
  if !d.bankUp b && mst != .peek then (m, d, false)
  else if !d.ingotOk mst b true then (m, d.setB (ING_BANK_STAT b) ING_BANK_STAT_share_denied true, false)
  else if isBank15 b then (m, d, false)
  else if (h7Refuses b o d).1 then (m, (h7Refuses b o d).2, false)
  else let x := ingotPut b o v (if b = 71 then 0 else tag) m d
    (x.1, x.2, true)

/-- A read-modify-write inside the bank, never bank 15 (R177): a byte store or an alias write. f gives the new data, tag the new tag from the
old one. An uncorrectable word is left alone, with a bus error to the writer (R289, R291). -/
def ingotModify (mst : Mst) (b o : Nat) (f : Word → Word) (tag : Nat → Nat) (m : Memory) (d : Dev) :
    Memory × Dev × Bool :=
  let a := bankAddr b o
  if !d.bankUp b && mst != .peek then (m, d, false)
  else if !d.ingotOk mst b true then (m, d.setB (ING_BANK_STAT b) ING_BANK_STAT_share_denied true, false)
  else if isBank15 b then (m, d, false)
  else if (h7Refuses b o d).1 then (m, (h7Refuses b o d).2, false)
  else match m.errAt a with
    | 0 => let x := ingotPut b o (f (ingotData m d b o)) (tag (m.tag a)) m d
      (x.1, x.2, true)
    | 1 => let x := ingotPut b o (f (ingotData m d b o)) (tag (m.tag a)) m (ingotCorr b o d)
      (x.1, x.2, true)
    | _ => (m, ingotUncorr b o d, false)

/-- What an alias write of v does to a word: bit-set for alias 1, bit-clear for alias 2 (R289). -/
def aliasOp (als : Nat) (v w : Word) : Word := if als = 1 then w ||| v else w &&& ~~~v

/-- The word with byte i replaced. -/
def putByte (i : Nat) (b : Byte) (w : Word) : Word := fput ⟨8 * (i % 4), 8⟩ w b.toNat

/-! ## DDR4 (R294, R295) -/

/-- An uncorrectable DDR4 word is recorded and reported (R295). -/
def ddrUncorr (a : Nat) (d : Dev) : Dev :=
  postEvent (evOpen 9 1) 1 0 [] (evcDevice 0x321 ((d.incF MEM_STAT MEM_STAT_uncorr).wr MEM_ERR_ADDR (w32 (a / 8 * 8 + 1))))

/-- A corrected DDR4 word is counted and recorded (R295). -/
def ddrCorr (a : Nat) (d : Dev) : Dev :=
  evcDevice 0x320 ((d.incF MEM_STAT MEM_STAT_corr).wr MEM_ERR_ADDR (w32 (a / 8 * 8)))

/-- DDR4 is ready (R294). -/
def Dev.ddrUp (d : Dev) : Bool := d.flag MEM_STAT MEM_STAT_init_done

/-- The 64-byte blocks of DDR4 that these accesses touch count as read or written (R484). Assumption 41 (DEDUCED). -/
def ddrCount (wr : Bool) (as : List Nat) (d : Dev) : Dev :=
  let n := ((as.filter fun a => 0x80000000 ≤ a).map (· / 64)).eraseDups.length
  upTo n (fun _ => evcDevice (if wr then 0x323 else 0x322)) d

/-- A word of DDR4 read. -/
def ddrRead (a : Nat) (m : Memory) (d : Dev) : Memory × Dev × MemRes :=
  if !d.ddrUp then (m, d, .bus)
  else match m.errAt (a / 8 * 8) with
    | 0 => (m, d, .ok (m.word a) 0)
    | 1 => (m.setErr (a / 8 * 8) 0, ddrCorr a d, .ok (m.word a) 0)
    | _ => (m, ddrUncorr a d, .uncorr (m.word a))

/-- Bytes of one 8-byte word of DDR4 written: fewer than 8 are a read-modify-write, which an uncorrectable word refuses
(R294, R295). -/
def ddrWrite (a : Nat) (bs : List Byte) (m : Memory) (d : Dev) : Memory × Dev × Bool :=
  if !d.ddrUp then (m, d, false)
  else if bs.length = 8 ∨ m.errAt (a / 8 * 8) = 0 then
    ((m.setSpan a bs).setErr (a / 8 * 8) 0, clearMonitors (a / 4 * 4) d, true)
  else if m.errAt (a / 8 * 8) = 1 then
    ((m.setSpan a bs).setErr (a / 8 * 8) 0, ddrCorr a (clearMonitors (a / 4 * 4) d), true)
  else (m, ddrUncorr a d, false)

end Sys2Proof.Machine
end

