-- ==== Sys2Proof/Machine/Lane.lean ====
section
/-!
DEFINITION. The microinstructions of the Planisher lanes (R44 to R59): each row executes the next word of the law that
runs on a lane, where that word is of the row's opcode.
-/
namespace Sys2Proof.Machine

/-! ## Words (R51) -/

/-- The fields of a law-store word. -/
structure LW where
  op : Nat
  sat : Bool
  rnd : Bool
  d : Nat
  a : Nat
  b : Nat
  sh : Nat
  x : Nat
  imm : Word
deriving DecidableEq, Repr

/-- The fields of a 64-bit word. -/
def lwOf (v : BitVec 64) : LW :=
  let n := v.toNat
  { op := bits n 63 58, sat := bit n 57, rnd := bit n 56, d := bits n 55 52, a := bits n 51 48, b := bits n 47 44,
    sh := bits n 43 39, x := bits n 38 32, imm := w32 n }

/-- The law-store word at an address of lane n. -/
def Dev.lawWord (d : Dev) (n pc : Nat) : BitVec 64 := mget 0 (d.lane n).law (pc % 2048)

/-! ## The law that runs -/

/-- The law that executes on lane n now, and whether it is a current law: the current law, else the background job. The
built-in emulation has no words. -/
def Dev.running (d : Dev) (n : Nat) : Option (LawRun × Bool) :=
  match (d.lane n).cur with
  | some r => some (r, true)
  | none => (d.lane n).job.map fun r => (r, false)

/-- The bank of working registers of current or background laws. -/
def Dev.bank (d : Dev) (n : Nat) (fg : Bool) : LaneBank := if fg then (d.lane n).fg else (d.lane n).bg

/-- That bank changed. -/
def Dev.modBank (d : Dev) (n : Nat) (fg : Bool) (f : LaneBank → LaneBank) : Dev :=
  d.modLane n fun l => if fg then { l with fg := f l.fg } else { l with bg := f l.bg }

/-- The running law changed. -/
def Dev.modRun (d : Dev) (n : Nat) (fg : Bool) (f : LawRun → LawRun) : Dev :=
  d.modLane n fun l => if fg then { l with cur := l.cur.map f } else { l with job := l.job.map f }

/-- The axis of slot s of lane n. -/
def Dev.slotAxis (d : Dev) (n s : Nat) : Nat := n / 4 * 16 + fget PLN_SLOT_CFG_laxis (d.slot n s).cfg

/-- Lane n is the shadow of a pair (R312). -/
def Dev.isShadow (d : Dev) (n : Nat) : Bool := (d.lane n).paired && !(d.lane n).primary

/-! ## Fetch: comparators and error correction (R48, R69) -/

/-- Comparator k of lane n matches the word at pc executed for a slot. -/
def Dev.lacHit (d : Dev) (n k pc slot : Nat) : Bool :=
  let r := PLN_LAC_CFG n k
  d.fldIf r PLN_LAC_CFG_en == 1 && d.fld r PLN_LAC_CFG_addr == pc % 2048 &&
    (!d.flag r PLN_LAC_CFG_slot_q || d.fld r PLN_LAC_CFG_slot == slot)

/-- The comparators of lane n act on the word about to execute: every match counts, action 1 pulses, action 2 requests
the halt of the cluster. -/
def lacAct (n pc slot : Nat) (d : Dev) : Dev :=
  upTo 4 (fun k x =>
    if d.lacHit n k pc slot then
      let y := x.incF (PLN_LAC_CNT n k) PLN_LAC_CNT_hits
      match d.fld (PLN_LAC_CFG n k) PLN_LAC_CFG_action with
      | 1 => evcCluster (n / 4) (0x140 + n % 4 * 4 + k) y
      | 2 => haltStart (n / 4) 2 (n % 4 * 4 + k) y
      | _ => y
    else x) d

/-- A double-bit error stops the execution before the word takes effect: the axis records a miss of kind 4 and
LAW_ECC; on a pair a current law's outcome waits for the comparison (R48, R84, R97). -/
def lawEcc (n : Nat) (r : LawRun) (fg : Bool) (d : Dev) : Dev :=
  let a := d.slotAxis n r.slot
  let c := n / 4
  let d1 := (d.incF (PLN_LS_STAT c) PLN_LS_STAT_ecc_uncorr).setB (PLN_LANE_STAT n) PLN_LANE_STAT_ecc_fault true
  if fg then
    let stage : OutStage := { slot := r.slot, s := r.s, sRef := r.sRef, du := none, dv := none, dw := none, req := [], how := 2 }
    let paired := (d.lane n).paired
    let d2 := d1.modLane n fun l => { l with cur := none, out := if paired then l.out ++ [stage] else l.out }
    laneStat n (when (!paired) (fun x => recordCause a 0x07 (recordMiss a 4 true x)) d2)
  else
    laneStat n (recordCause a 0x07 (recordMiss a 4 false
      (d1.modLane n fun l => { l with job := none, publish := [] })))

/-- One microinstruction of opcode op and cyc ccyc on lane n: f gives what the word does, once it is fetched and the
law stands at the word after it. Nothing happens where the lane executes no such word. -/
def laneStep (n op cyc : Nat) (f : LW → Bool → Dev → Dev) (d : Dev) : Dev :=
  match d.running n with
  | none => d
  | some (r, fg) =>
    let w := lwOf (d.lawWord n r.pc)
    if r.kind = .emulation ∨ w.op ≠ op ∨ (d.cluster (n / 4)).halting then d
    else
      let d1 := lacAct n r.pc r.slot d
      if (d1.cluster (n / 4)).halting then d1
      else match mget 0 (d.lane n).lawErr (r.pc % 2048) with
        | 0 => f w fg (d1.modRun n fg fun r => { r with pc := r.pc + 1, len := r.len + cyc })
        | 1 => f w fg ((d1.incF (PLN_LS_STAT (n / 4)) PLN_LS_STAT_ecc_corr).modRun n fg
            fun r => { r with pc := r.pc + 1, len := r.len + cyc })
        | _ => lawEcc n r fg d1

/-- A microinstruction on the cluster's clock. -/
def State.onLane (s : State) (n : Fin 16) (op cyc : Nat) (f : Nat → LW → Bool → Dev → Dev) : Out :=
  s.onCluster (n.val / 4) (laneStep n.val op cyc (f n.val))

/-! ## Operands and results -/

/-- Working register i of the bank. -/
def Dev.lreg (d : Dev) (n : Nat) (fg : Bool) (i : Nat) : Word := mget 0 (d.bank n fg).t i

/-- Working register i as a signed number. -/
def Dev.lregI (d : Dev) (n : Nat) (fg : Bool) (i : Nat) : Int := sgn (d.lreg n fg i)

/-- An exact result put into w bits: clamped with sat, else wrapped; the flag says that it was clamped (R51, R53). -/
def narrow (w : Nat) (sat : Bool) (i : Int) : Int × Bool :=
  if satI w i = i then (i, false) else if sat then (satI w i, true) else (sx w (wrapN w i), false)

/-- A register written, without flags. -/
def laneReg (n : Nat) (fg : Bool) (i : Nat) (v : Word) (d : Dev) : Dev :=
  d.modBank n fg fun b => { b with t := mset 0 b.t i v }

/-- S set or cleared; a set S shows in sat_seen (R70). -/
def laneS (n : Nat) (fg sflag : Bool) (d : Dev) : Dev :=
  when sflag (·.setB (PLN_LANE_STAT n) PLN_LANE_STAT_sat_seen true) (d.modBank n fg fun b => { b with s := sflag })

/-- Z and N from a value, and S. -/
def laneFlags (n : Nat) (fg : Bool) (v : Int) (sflag : Bool) (d : Dev) : Dev :=
  laneS n fg sflag (d.modBank n fg fun b => { b with z := decide (v = 0), n := decide (v < 0) })

/-- A result that sets the flags (R52). -/
def lanePut (n : Nat) (fg : Bool) (i : Nat) (v : Word) (sflag : Bool) (d : Dev) : Dev :=
  laneFlags n fg (sgn v) sflag (laneReg n fg i v d)

/-- An exact result narrowed to 32 bits and put with its flags. -/
def lanePutI (n : Nat) (fg : Bool) (w : LW) (i : Int) (d : Dev) : Dev :=
  let x := narrow 32 w.sat i
  lanePut n fg w.d (wI x.1) x.2 d

/-- A right shift with the word's rounding (R51). -/
def LW.shr (w : LW) (i : Int) : Int := if w.rnd then asrRound i w.sh else asr i w.sh

/-- The accumulator narrowed to 48 bits, S only (R53). -/
def laneAcc (n : Nat) (fg : Bool) (w : LW) (i : Int) (d : Dev) : Dev :=
  let x := narrow 48 w.sat i
  laneS n fg x.2 (d.modBank n fg fun b => { b with acc := x.1 })

/-- A result of two registers, as an exact number. -/
def laneBin (g : Int → Int → Int) (n : Nat) (w : LW) (fg : Bool) (d : Dev) : Dev :=
  lanePutI n fg w (g (d.lregI n fg w.a) (d.lregI n fg w.b)) d

/-- A result of two registers, bit by bit. -/
def laneBits (g : Word → Word → Word) (n : Nat) (w : LW) (fg : Bool) (d : Dev) : Dev :=
  lanePut n fg w.d (g (d.lreg n fg w.a) (d.lreg n fg w.b)) false d

/-! ## Data movement -/

/-- LANE_NOP. -/
def execLaneNop (n : Fin 16) (s : State) : Out := s.onLane n 0x00 1 fun _ _ _ d => d

/-- LANE_LDI. -/
def execLaneLdi (n : Fin 16) (s : State) : Out := s.onLane n 0x02 1 fun n w fg d => lanePut n fg w.d w.imm false d

/-- The key of variable v of slot s. -/
def varKey (s v : Nat) : Nat := s * 256 + v % 256

/-- The key of gain word w of region g of slot s. -/
def gainKey (s g w : Nat) : Nat := s * 256 + g % 8 * 32 + w % 32

/-- The slot of the running law. -/
def Dev.runSlot (d : Dev) (n : Nat) (fg : Bool) : Nat :=
  match (if fg then (d.lane n).cur else (d.lane n).job) with
  | some r => r.slot
  | none => 0

/-- The inputs of the running law. -/
def Dev.runInp (d : Dev) (n : Nat) (fg : Bool) : PortIn :=
  match (if fg then (d.lane n).cur else (d.lane n).job) with
  | some r => r.inp
  | none => PortIn.none

/-- A variable word as the running law reads it: a background job sees what it has written (R62). -/
def Dev.readVar (d : Dev) (n : Nat) (fg : Bool) (k : Nat) : Word :=
  let file := mget 0 (d.lane n).var k
  if fg then file else (alookup k (d.lane n).publish).getD file

/-- LANE_LDV. -/
def execLaneLdv (n : Fin 16) (s : State) : Out :=
  s.onLane n 0x03 1 fun n w fg d =>
    lanePut n fg w.d (d.readVar n fg (varKey (d.runSlot n fg) (w.imm.toNat % 256))) false d

/-- LANE_STV. -/
def execLaneStv (n : Fin 16) (s : State) : Out :=
  s.onLane n 0x04 1 fun n w fg d =>
    let k := varKey (d.runSlot n fg) (w.imm.toNat % 256)
    let v := d.lreg n fg w.a
    d.modLane n fun l =>
      if fg then { l with var := mset 0 l.var k v } else { l with publish := ainsert k v (aerase k l.publish) }

/-- The value of an input port; a reserved port has an open value (R56). Assumption 23 (DEDUCED). -/
def portValue (p : PortIn) (x free : Nat) : Word :=
  match x with
  | 0x00 => p.ia
  | 0x01 => p.ib
  | 0x02 => p.ic
  | 0x04 => p.pos
  | 0x05 => p.spd
  | 0x06 => p.spos
  | 0x08 => p.setp
  | 0x09 => p.setpf
  | 0x0A => p.setv
  | 0x0B => p.seta
  | 0x10 => w32 p.region
  | 0x11 => w32 p.ts
  | _ => w32 free

/-- LANE_IN. -/
def execLaneIn (n : Fin 16) (s : State) : Out :=
  s.onLane n 0x05 1 fun n w fg d => lanePut n fg w.d (portValue (d.runInp n fg) w.x d.open_) false d.bump

/-- LANE_OUT: a duty into the output stage of the execution, or the emulated position (R56, R157).
Assumptions 23, 82 (DEDUCED, DESIGN CHOICE). -/
def execLaneOut (n : Fin 16) (s : State) : Out :=
  s.onLane n 0x06 1 fun n w fg d =>
    let v := d.lreg n fg w.a
    match w.x with
    | 0x40 => d.modRun n fg fun r => { r with du := some v }
    | 0x41 => d.modRun n fg fun r => { r with dv := some v }
    | 0x42 => d.modRun n fg fun r => { r with dw := some v }
    | 0x44 =>
      let sl := d.runSlot n fg
      if d.part = .pdl64 then d
      else encTarget (d.slotAxis n sl) (fun _ => v) (d.modSlot n sl fun x => { x with emuOut := some v })
    | _ => d

/-- LANE_LDG. -/
def execLaneLdg (n : Fin 16) (s : State) : Out :=
  s.onLane n 0x07 1 fun n w fg d =>
    lanePut n fg w.d (mget 0 (d.lane n).gain (gainKey (d.runSlot n fg) (d.runInp n fg).region w.imm.toNat)) false d

/-! ### Ingot accesses (R55, R286, R312) -/

/-- The bank of a cluster ingot offset. -/
def offBank (n off : Nat) : Nat := n / 4 * 16 + off % 0x100000 / 0x10000

/-- The 3 to 6 ccyc of an ingot access: how many it stalls is open. Assumption 23 (DEDUCED). -/
def Dev.stallCycles (d : Dev) : Nat := 3 + d.open_ % 4

/-- LANE_LDM on lane n: the primary's data also go to its shadow, whose own LDM takes them. A denied read gives 0; so
does a word with an uncorrectable error. Assumption 24 (DEDUCED). -/
def laneLdm (n : Nat) (m : Memory) (d : Dev) : Memory × Dev :=
  match d.running n with
  | none => (m, d)
  | some (r, fg) =>
    let w := lwOf (d.lawWord n r.pc)
    let off := w.imm.toNat % 0x100000 / 4 * 4
    let cyc := d.stallCycles
    if d.isShadow n then
      let v := ((d.lane n).ldm.head?).getD (w32 d.open_)
      (m, laneStep n 0x08 cyc (fun w fg x => (lanePut n fg w.d v false
        (x.modLane n fun l => { l with ldm := l.ldm.drop 1 })).bump) d)
    else
      -- the word is fetched first: where it does not execute, nothing is read
      let go := laneStep n 0x08 cyc (fun _ _ x => x) d
      let executes := match go.running n with
        | some (q, g) => g == fg && q.pc == r.pc + 1
        | none => false
      if !executes then (m, go)
      else
        let x := ingotRead .lane (offBank n off) (off % 0x10000) m go
        let v := match x.2.2 with
          | .ok v _ => v
          | _ => 0
        let d1 := if (d.lane n).paired then x.2.1.modLane (n + 1) fun l => { l with ldm := l.ldm ++ [v] } else x.2.1
        (x.1, (lanePut n fg w.d v false d1).bump)

/-- LANE_LDM. -/
def execLaneLdm (n : Fin 16) (s : State) : Out :=
  s.updB fun m d => if d.clusterRuns (n.val / 4) then laneLdm n.val m d else (m, d)

/-- LANE_STM on lane n: the shadow's is discarded, and so is a denied one. -/
def laneStm (n : Nat) (m : Memory) (d : Dev) : Memory × Dev :=
  match d.running n with
  | none => (m, d)
  | some (r, fg) =>
    let w := lwOf (d.lawWord n r.pc)
    let off := w.imm.toNat % 0x100000 / 4 * 4
    let go := laneStep n 0x09 d.stallCycles (fun _ _ x => x) d
    let executes := match go.running n with
      | some (q, g) => g == fg && q.pc == r.pc + 1
      | none => false
    if !executes then (m, go)
    else if d.isShadow n then (m, go.bump)
    else
      let x := ingotWrite .lane (offBank n off) (off % 0x10000) (d.lreg n fg w.a) 0 m go
      (x.1, x.2.1.bump)

/-- LANE_STM. -/
def execLaneStm (n : Fin 16) (s : State) : Out :=
  s.updB fun m d => if d.clusterRuns (n.val / 4) then laneStm n.val m d else (m, d)

/-! ## Arithmetic and logic (R52) -/

/-- LANE_ADD. -/
def execLaneAdd (n : Fin 16) (s : State) : Out := s.onLane n 0x10 1 (laneBin fun a b => a + b)
/-- LANE_SUB. -/
def execLaneSub (n : Fin 16) (s : State) : Out := s.onLane n 0x11 1 (laneBin fun a b => a - b)
/-- LANE_ADDI. -/
def execLaneAddi (n : Fin 16) (s : State) : Out :=
  s.onLane n 0x12 1 fun n w fg d => lanePutI n fg w (d.lregI n fg w.a + sgn w.imm) d
/-- LANE_NEG. -/
def execLaneNeg (n : Fin 16) (s : State) : Out :=
  s.onLane n 0x13 1 fun n w fg d => lanePutI n fg w (-(d.lregI n fg w.a)) d
/-- LANE_ABS. -/
def execLaneAbs (n : Fin 16) (s : State) : Out :=
  s.onLane n 0x14 1 fun n w fg d => lanePutI n fg w (d.lregI n fg w.a).natAbs d
/-- LANE_MIN. -/
def execLaneMin (n : Fin 16) (s : State) : Out := s.onLane n 0x15 1 (laneBin fun a b => min a b)
/-- LANE_MAX. -/
def execLaneMax (n : Fin 16) (s : State) : Out := s.onLane n 0x16 1 (laneBin fun a b => max a b)
/-- LANE_LIM. -/
def execLaneLim (n : Fin 16) (s : State) : Out :=
  s.onLane n 0x17 1 fun n w fg d =>
    let a := d.lregI n fg w.a
    let m : Int := (d.lregI n fg w.b).natAbs
    let r := max (-m) (min m a)
    lanePut n fg w.d (wI r) (r != a) d
/-- LANE_AND. -/
def execLaneAnd (n : Fin 16) (s : State) : Out := s.onLane n 0x18 1 (laneBits fun a b => a &&& b)
/-- LANE_OR. -/
def execLaneOr (n : Fin 16) (s : State) : Out := s.onLane n 0x19 1 (laneBits fun a b => a ||| b)
/-- LANE_XOR. -/
def execLaneXor (n : Fin 16) (s : State) : Out := s.onLane n 0x1A 1 (laneBits fun a b => a ^^^ b)
/-- LANE_SHL. -/
def execLaneShl (n : Fin 16) (s : State) : Out :=
  s.onLane n 0x1B 1 fun n w fg d => lanePutI n fg w (d.lregI n fg w.a * 2 ^ w.sh) d
/-- LANE_SHR. -/
def execLaneShr (n : Fin 16) (s : State) : Out :=
  s.onLane n 0x1C 1 fun n w fg d => lanePut n fg w.d (wI (w.shr (d.lregI n fg w.a))) false d
/-- LANE_CMP. -/
def execLaneCmp (n : Fin 16) (s : State) : Out :=
  s.onLane n 0x1D 1 fun n w fg d => laneFlags n fg (d.lregI n fg w.a - d.lregI n fg w.b) false d
/-- LANE_MOV. -/
def execLaneMov (n : Fin 16) (s : State) : Out :=
  s.onLane n 0x1E 1 fun n w fg d => lanePut n fg w.d (d.lreg n fg w.a) false d
/-- LANE_MUL. -/
def execLaneMul (n : Fin 16) (s : State) : Out :=
  s.onLane n 0x20 2 fun n w fg d => lanePutI n fg w (w.shr (d.lregI n fg w.a * d.lregI n fg w.b)) d
/-- LANE_MULI. -/
def execLaneMuli (n : Fin 16) (s : State) : Out :=
  s.onLane n 0x21 2 fun n w fg d => lanePutI n fg w (w.shr (d.lregI n fg w.a * sgn w.imm)) d

/-! ## The accumulator (R53) -/

/-- LANE_CLA. -/
def execLaneCla (n : Fin 16) (s : State) : Out :=
  s.onLane n 0x22 1 fun n _ fg d => d.modBank n fg fun b => { b with acc := 0 }
/-- LANE_LDA. -/
def execLaneLda (n : Fin 16) (s : State) : Out :=
  s.onLane n 0x23 1 fun n w fg d => laneAcc n fg w (d.lregI n fg w.a * 2 ^ w.sh) d
/-- LANE_MAC. -/
def execLaneMac (n : Fin 16) (s : State) : Out :=
  s.onLane n 0x24 1 fun n w fg d =>
    laneAcc n fg w ((d.bank n fg).acc + w.shr (d.lregI n fg w.a * d.lregI n fg w.b)) d
/-- LANE_MSU. -/
def execLaneMsu (n : Fin 16) (s : State) : Out :=
  s.onLane n 0x25 1 fun n w fg d =>
    laneAcc n fg w ((d.bank n fg).acc - w.shr (d.lregI n fg w.a * d.lregI n fg w.b)) d
/-- LANE_MACI. -/
def execLaneMaci (n : Fin 16) (s : State) : Out :=
  s.onLane n 0x26 1 fun n w fg d =>
    laneAcc n fg w ((d.bank n fg).acc + w.shr (d.lregI n fg w.a * sgn w.imm)) d
/-- LANE_ACX. -/
def execLaneAcx (n : Fin 16) (s : State) : Out :=
  s.onLane n 0x27 1 fun n w fg d => lanePutI n fg w (w.shr (d.bank n fg).acc) d

/-- A division that rounds toward 0, with the results of R53 for a divisor of 0; the flag says that S sets. -/
def laneDiv (sat : Bool) (a b : Int) (sh : Nat) : Int × Bool :=
  if b = 0 then (if a = 0 then (0, true) else if 0 ≤ a then (0x7FFFFFFF, true) else (-0x80000000, true))
  else narrow 32 sat (Int.tdiv (a * 2 ^ sh) b)

/-- LANE_DIV. -/
def execLaneDiv (n : Fin 16) (s : State) : Out :=
  s.onLane n 0x28 20 fun n w fg d =>
    let x := laneDiv w.sat (d.lregI n fg w.a) (d.lregI n fg w.b) w.sh
    lanePut n fg w.d (wI x.1) x.2 d

/-! ## CORDIC (R53) -/

/-- Two results to T(d) and T(d+1): flags from the first, S as given. Where d is 15 there is no T(d+1).
Assumption 22 (DESIGN CHOICE). -/
def lanePut2 (n : Nat) (fg : Bool) (w : LW) (x y : Int) (sflag : Bool) (d : Dev) : Dev :=
  let d1 := if w.d = 15 then d else laneReg n fg (w.d + 1) (wI y) d
  lanePut n fg w.d (wI x) sflag d1.bump

/-- LANE_SINCOS. Assumption 21 (DEDUCED). -/
def execLaneSincos (n : Fin 16) (s : State) : Out :=
  s.onLane n 0x30 16 fun n w fg d =>
    let t := trigAng (d.lreg n fg w.a).toNat
    let near := fun (v : Int) (f : Nat) => satI 32 (openNear (v * 2 ^ 31) 4 f)
    lanePut2 n fg w (near t.1 d.open_) (near t.2 d.bump.open_) false d.bump

/-- LANE_ROT. Assumption 21 (DEDUCED). -/
def execLaneRot (n : Fin 16) (s : State) : Out :=
  s.onLane n 0x31 16 fun n w fg d =>
    let t := trigAng (d.lreg n fg (w.x % 16)).toNat
    let a := d.lregI n fg w.a
    let b := d.lregI n fg w.b
    let x := narrow 32 w.sat (openNear (a * t.2 - b * t.1) 4 d.open_)
    let y := narrow 32 w.sat (openNear (a * t.1 + b * t.2) 4 d.bump.open_)
    lanePut2 n fg w x.1 y.1 (x.2 || y.2) d.bump

/-- LANE_ATAN2: the angle's error is 4 units of 2^-31 turn. Assumption 21 (DEDUCED). -/
def execLaneAtan2 (n : Fin 16) (s : State) : Out :=
  s.onLane n 0x32 18 fun n w fg d =>
    let a := d.lregI n fg w.a
    let b := d.lregI n fg w.b
    if a = 0 ∧ b = 0 then lanePut2 n fg w 0 0 false d
    else
      let ang := sx 32 (wrapN 32 (openNear (angleQ a b) 8 d.open_))
      let mag := narrow 32 w.sat (openNear (magQ a b) 4 d.bump.open_)
      lanePut2 n fg w ang mag.1 mag.2 d.bump

/-! ## Control (R54, R59) -/

/-- FIRST: no execution of this law has executed END since the axis last entered ARMED (R54). -/
def Dev.isFirst (d : Dev) (n : Nat) (fg : Bool) : Bool :=
  match (if fg then (d.lane n).cur else (d.lane n).job) with
  | some r =>
    let sl := d.slot n r.slot
    match r.kind with
    | .current => !sl.endCur
    | .velocity => !sl.endVel
    | .position => !sl.endPos
    | .emulation => false
  | none => false

/-- A SKIP condition; a reserved one is open (R54). Assumption 23 (DEDUCED). -/
def Dev.skipCond (d : Dev) (n : Nat) (fg : Bool) (x : Nat) : Bool :=
  let b := d.bank n fg
  match x with
  | 0x0 => true
  | 0x1 => b.z
  | 0x2 => !b.z
  | 0x3 => b.n
  | 0x4 => !b.n
  | 0x5 => !b.z && !b.n
  | 0x6 => b.z || b.n
  | 0x7 => b.s
  | 0x8 => !b.s
  | 0x9 => d.isFirst n fg
  | 0xA => (d.runInp n fg).regchg
  | _ => d.open_ % 2 == 1

/-- LANE_SKIP. -/
def execLaneSkip (n : Fin 16) (s : State) : Out :=
  s.onLane n 0x38 1 fun n w fg d =>
    if d.skipCond n fg (w.x % 16) then (d.modRun n fg fun r => { r with pc := r.pc + w.imm.toNat % 512 }).bump
    else d.bump

/-- LANE_FAULT. -/
def execLaneFault (n : Fin 16) (s : State) : Out :=
  s.onLane n 0x39 1 fun n w fg d => d.modRun n fg fun r => { r with req := r.req ++ [w.imm.toNat % 256] }

/-- LANE_EVT: the shadow of a pair pulses no source (R312). -/
def execLaneEvt (n : Fin 16) (s : State) : Out :=
  s.onLane n 0x3A 1 fun n w _ d =>
    if d.isShadow n then d else fluxFire (n / 4) (0xD0 + n % 4 * 4 + w.x % 4) d

/-! ## END (R60, R62) -/

/-- The causes a law has requested, recorded at its END: those it may raise (R59, R90). -/
def recordRequests (a : Nat) (req : List Nat) (d : Dev) : Dev :=
  (req.filter lawRaised).foldl (fun x c => recordCause a c x) d

/-- END of a current law: its outputs enter the output stage (R60). -/
def endCurrent (n : Nat) (r : LawRun) (d : Dev) : Dev :=
  let run := PLN_SLOT_RUN n r.slot
  let len := min 255 r.len
  let stage : OutStage := { slot := r.slot, s := r.s, sRef := r.sRef, du := r.du, dv := r.dv, dw := r.dw, req := r.req, how := 0 }
  let d1 := (d.setF run PLN_SLOT_RUN_last_len len).setF run PLN_SLOT_RUN_max_len
    (max len (d.fld run PLN_SLOT_RUN_max_len))
  let d2 := (d1.modLane n fun l => { l with cur := none, out := l.out ++ [stage] }).modSlot n r.slot
    fun x => { x with endCur := true }
  let d3 := when (!(d.lane n).paired) (recordRequests (d.slotAxis n r.slot) r.req) d2
  laneStat n d3

/-- Buffered words put into the variable file. -/
def commitWords (p : List (Nat × Word)) (v : SMap Word) : SMap Word := p.foldl (fun m e => mset 0 m e.1 e.2) v

/-- END of a background job: its publish buffer commits in one cycle, and its margin shows (R62, R70). -/
def endJob (n : Nat) (r : LawRun) (d : Dev) : Dev :=
  let st := PLN_BG_STAT n
  let slack := min 0xFFFF (r.deadline - (d.cluster (n / 4)).ref)
  let d1 := d.setF st PLN_BG_STAT_min_slack (min slack (d.fld st PLN_BG_STAT_min_slack))
  let d2 := d1.modLane n fun l => { l with job := none, publish := [], var := commitWords l.publish l.var }
  let d3 := d2.modSlot n r.slot fun x =>
    { x with endVel := x.endVel || r.kind == .velocity, endPos := x.endPos || r.kind == .position }
  laneStat n (when (!d.isShadow n) (recordRequests (d.slotAxis n r.slot) r.req) d3)

/-- END of the emulation job: EMU for every generator that follows the axis, by its own scale (R157). -/
def endEmulation (n : Nat) (r : LawRun) (d : Dev) : Dev :=
  let d1 := d.modSlot n r.slot fun x => { x with emuPos := r.inp.pos, emuOut := none }
  endJob n r (when (!d.isShadow n) (encTarget (d.slotAxis n r.slot) fun k => d1.emuOf k (d1.slot n r.slot)) d1)

/-- LANE_END. -/
def laneEnd (n : Nat) (d : Dev) : Dev :=
  match d.running n with
  | some (r, false) =>
    if r.kind = .emulation then (if (d.cluster (n / 4)).halting then d else endEmulation n r d)
    else laneStep n 0x01 1 (fun _ _ x =>
      match (x.lane n).job with
      | some q => endJob n q x
      | none => x) d
  | _ => laneStep n 0x01 1 (fun _ _ x =>
      match (x.lane n).cur with
      | some q => endCurrent n q x
      | none => x) d

/-- LANE_END. -/
def execLaneEnd (n : Fin 16) (s : State) : Out := s.onCluster (n.val / 4) (laneEnd n.val)

end Sys2Proof.Machine
end

