-- ==== Sys2Proof/Machine/LawScan.lean ====
section
/-!
DEFINITION. What can be read off the words of a law: its extent (R47), its input mask (R58), its longest path (R46), and
whether admission accepts it (R57).
-/
namespace Sys2Proof.Machine

/-- The words from a list up to its first END, that END last; all of it where there is none. -/
def upToEnd : List (BitVec 64) → List (BitVec 64)
  | [] => []
  | w :: r => if (lwOf w).op = 0x01 then [w] else w :: upToEnd r

/-- At most 512 words of the law store from a base, within the store. -/
def Dev.lawRoom (d : Dev) (n base : Nat) : List (BitVec 64) :=
  (List.range (min 512 (2048 - base))).map fun i => d.lawWord n (base + i)

/-- The words of the law at a base: its extent (R47). -/
def Dev.lawWords (d : Dev) (n base : Nat) : List (BitVec 64) := upToEnd (d.lawRoom n base)

/-- The words hold an END. -/
def hasEnd (l : List (BitVec 64)) : Bool := l.any fun w => (lwOf w).op == 0x01

/-- The input groups a law reads (R58). -/
structure InMask where
  drw : Bool
  fbk : Bool
  ser : Bool
  seg : Bool
deriving DecidableEq, Repr

/-- The law holds an IN of port x. -/
def readsPort (l : List (BitVec 64)) (p : Nat → Bool) : Bool :=
  l.any fun w => (lwOf w).op == 0x05 && p (lwOf w).x

/-- The input mask of a law (R58). -/
def inMask (l : List (BitVec 64)) : InMask :=
  { drw := readsPort l (fun x => x ≤ 2), fbk := readsPort l (fun x => x == 4 || x == 5),
    ser := readsPort l (fun x => x == 6), seg := readsPort l (fun x => 8 ≤ x && x ≤ 0x0B) }

/-- The mask as PLN_SLOT_CFG shows it: bit 3 Drawplate, 2 feedback, 1 serial encoder, 0 interpolator. -/
def InMask.code (m : InMask) : Nat := 8 * b2n m.drw + 4 * b2n m.fbk + 2 * b2n m.ser + b2n m.seg

/-- Every input that the mask asks for is valid in the sample; of the currents all three. Assumption 79 (DESIGN CHOICE). -/
def InMask.met (m : InMask) (p : PortIn) : Bool :=
  (!m.drw || (p.okIa && p.okIb && p.okIc)) && (!m.fbk || p.okPos) && (!m.ser || p.okSpos) && (!m.seg || p.okSet)

/-! ## The instruction table (R52) -/

/-- The fields that an opcode uses, as letters of a mask of the word's bits; none for a reserved opcode. -/
def usedBits (op : Nat) : Option Nat :=
  let sat := 2 ^ 57
  let rnd := 2 ^ 56
  let d := 0xF * 2 ^ 52
  let a := 0xF * 2 ^ 48
  let b := 0xF * 2 ^ 44
  let sh := 0x1F * 2 ^ 39
  let x := 0x7F * 2 ^ 32
  let imm := 2 ^ 32 - 1
  match op with
  | 0x00 | 0x01 | 0x22 => some 0
  | 0x02 => some (d + imm)
  | 0x03 => some (d + 0xFF)
  | 0x04 => some (a + 0xFF)
  | 0x05 => some (d + x)
  | 0x06 => some (x + a)
  | 0x07 => some (d + 0x1F)
  | 0x08 => some (d + 0xFFFFF)
  | 0x09 => some (a + 0xFFFFF)
  | 0x10 | 0x11 => some (sat + d + a + b)
  | 0x12 => some (sat + d + a + imm)
  | 0x13 | 0x14 => some (sat + d + a)
  | 0x15 | 0x16 | 0x17 | 0x18 | 0x19 | 0x1A => some (d + a + b)
  | 0x1B => some (sat + d + a + sh)
  | 0x1C => some (rnd + d + a + sh)
  | 0x1D => some (a + b)
  | 0x1E => some (d + a)
  | 0x20 => some (sat + rnd + d + a + b + sh)
  | 0x21 => some (sat + rnd + d + a + imm + sh)
  | 0x23 => some (sat + a + sh)
  | 0x24 | 0x25 => some (sat + rnd + a + b + sh)
  | 0x26 => some (sat + rnd + a + imm + sh)
  | 0x27 => some (sat + rnd + d + sh)
  | 0x28 => some (sat + d + a + b + sh)
  | 0x30 => some (d + a)
  | 0x31 => some (sat + d + a + b + 0xF * 2 ^ 32)
  | 0x32 => some (sat + d + a + b)
  | 0x38 => some (0xF * 2 ^ 32 + 0x1FF)
  | 0x39 => some 0xFF
  | 0x3A => some (3 * 2 ^ 32)
  | _ => none

/-- The ccyc an opcode takes, an ingot access at its worst (R46, R52). -/
def opCycles (op : Nat) : Nat :=
  match op with
  | 0x08 | 0x09 => 6
  | 0x20 | 0x21 => 2
  | 0x28 => 20
  | 0x30 | 0x31 => 16
  | 0x32 => 18
  | _ => 1

/-- The port may be read by IN. -/
def inPort (x : Nat) : Bool := x ≤ 2 || (4 ≤ x && x ≤ 6) || (8 ≤ x && x ≤ 0x0B) || x == 0x10 || x == 0x11

/-- The port may be written by OUT; a background law may not write duties, and EMU is admitted on every part.
Assumption 82 (DESIGN CHOICE). -/
def outPort (cur : Bool) (x : Nat) : Bool := (cur && 0x40 ≤ x && x ≤ 0x42) || x == 0x44

/-- One word of a law passes R57 and R59; left is how many words of the law follow it. -/
def wordOk (cur : Bool) (left : Nat) (v : BitVec 64) : Bool :=
  let w := lwOf v
  match usedBits w.op with
  | none => false
  | some m =>
    (v.toNat % 2 ^ 58 &&& m) == v.toNat % 2 ^ 58 &&
    match w.op with
    | 0x05 => inPort w.x
    | 0x06 => outPort cur w.x
    | 0x08 | 0x09 => w.imm.toNat % 4 == 0 && w.imm.toNat < 0x100000
    | 0x30 | 0x31 | 0x32 => w.d != 15
    | 0x38 => w.x ≤ 0xA && w.imm.toNat < left
    | 0x39 => lawRaised w.imm.toNat
    | _ => true

/-- All words of a law pass, each with the words that follow it. Assumption 26 (DEDUCED). -/
def wordsOk (cur : Bool) : List (BitVec 64) → Bool
  | [] => true
  | w :: r => wordOk cur r.length w && wordsOk cur r

/-- The law passes R57: every word, an END within its extent, and no more than 16 STV in a background law. -/
def lawOk (cur : Bool) (l : List (BitVec 64)) : Bool :=
  hasEnd l && wordsOk cur l && (cur || decide ((l.filter fun w => (lwOf w).op == 0x04).length ≤ 16))

/-- The longest path from each word of a law to its END, first word first (R46). A SKIP whose condition is always takes
only its skip. -/
def pathLens : List (BitVec 64) → List Nat
  | [] => []
  | v :: r =>
    let rest := pathLens r
    let w := lwOf v
    if w.op = 0x01 then [1]
    else
      let next := rest.headD 0
      let tail := if w.op = 0x38 then
          (let far := rest.getD (w.imm.toNat % 512) 0
           if w.x % 16 = 0 then far else max next far)
        else next
      (opCycles w.op + tail) :: rest

/-- The longest path of a law in ccyc. Assumption 26 (DEDUCED). -/
def lawLen (l : List (BitVec 64)) : Nat := (pathLens l).headD 0

/-! ## Bound words (R47) -/

/-- The bases that slot words name, where the slot is valid: a velocity or position law counts where its en bit is 1.
Assumption 78 (DESIGN CHOICE). -/
def namedBases (cfg vel pos : Word) : List Nat :=
  if fget PLN_SLOT_CFG_valid cfg = 0 then []
  else [fget PLN_SLOT_CFG_cur_base cfg] ++
    (if fget PLN_SLOT_VEL_en vel = 1 then [fget PLN_SLOT_VEL_base vel] else []) ++
    (if fget PLN_SLOT_POS_en pos = 1 then [fget PLN_SLOT_POS_base pos] else [])

/-- The bases named by the committed and the staged registers of lane n. -/
def Dev.boundBases (d : Dev) (n : Nat) : List Nat :=
  (List.range 4).flatMap fun s =>
    namedBases (d.slot n s).cfg (d.slot n s).vel (d.slot n s).pos ++
      namedBases (d.rd (PLN_SLOT_CFG n s)) (d.rd (PLN_SLOT_VEL n s)) (d.rd (PLN_SLOT_POS n s))

/-- The law-store word at an address of lane n is bound. -/
def Dev.lawBound (d : Dev) (n pc : Nat) : Bool :=
  (d.boundBases n).any fun b => b ≤ pc && pc < b + (d.lawWords n b).length

end Sys2Proof.Machine
end

