-- ==== Sys2Proof/Machine/Sample.lean ====
section
/-!
DEFINITION. The stages of a sample (R60 to R62): the close of the window, the inputs, the gain region (R79 to R83), the
dispatch of the current law, background jobs and their deadlines, and the release of the duties (R97).
-/
namespace Sys2Proof.Machine

/-! ## The sample instant (R60, R93, R106, R108) -/

/-- The axis runs its laws: ARMED, ENABLED or FAULTED (R84). -/
def Dev.lawsRun (d : Dev) (a : Nat) : Bool := d.axSt a == stArmed || d.axSt a == stEnabled || d.axSt a == stFaulted

/-- The current law of axis a on lane n. -/
def Dev.curWords (d : Dev) (n s : Nat) : List (BitVec 64) :=
  d.lawWords n (fget PLN_SLOT_CFG_cur_base (d.slot n s).cfg)

/-- Each bound law of the axis has executed END since it entered ARMED (R93). -/
def Dev.lawsEnded (d : Dev) (a : Nat) : Bool :=
  (d.axLanes a).all fun n =>
    let x := d.slot n (d.axSlotNo a)
    x.endCur && (fget PLN_SLOT_VEL_en x.vel == 0 || x.endVel) && (fget PLN_SLOT_VEL_en x.pos == 0 || x.endPos)

/-- A request to arm or enable acts at a sample (R93). -/
def armAtSample (a : Nat) (d : Dev) : Dev :=
  let req := (d.axis a).enReq
  if req = 0 then d
  else if d.axSt a = stAdmitted then
    let d1 := holdHere a (firstAgain a (d.setAxSt a stArmed))
    if req = 1 then
      endTrans a 0x0203 1 stArmed (d1.modAxis a fun x => { x with enReq := 0 })
    else d1
  else if d.axSt a = stArmed then
    if req = 2 ∧ d.rd (AXS_CAUSE_ACT a) = 0 ∧ d.lawsEnded a = true then
      let d1 := (holdHere a ((d.setAxSt a stEnabled).modAxis a fun x => { x with enReq := 0 })).modInterp a
        fun q => { q with enAt := d.now }
      endTrans a 0x0203 1 stEnabled (tryStart a none d1)
    else d
  else d

/-- Where the window of an ignored PWM event would have closed in this ccyc, the axis records a miss if its current law
reads the Drawplate (R108). -/
def lostWindow (a : Nat) (d : Dev) : Dev :=
  let r := (d.cluster (axCl a)).ref
  let d1 := d.modTile a fun t => { t with lost := t.lost.filter (r < ·) }
  when ((d.tile a).lost.contains r && (inMask (d.curWords (d.axLane a) (d.axSlotNo a))).drw) (recordMiss a 1 true) d1

/-- The tile's window closes in this ccyc (R106). -/
def Dev.windowDone (d : Dev) (a : Nat) : Bool :=
  (d.tile a).opened && (d.cluster (axCl a)).ref == d.windowTill a (d.tile a).evt

/-- WINDOW_CLOSE: at S the tile's results form, DRW_TS takes the device time, the position latches, and the axis's
requests act. Assumption 60 (DEDUCED). -/
def windowClose (a : Nat) (b0 b1 b2 : ChanBits) (d : Dev) : Dev :=
  let s := d.copy (axCl a)
  let d0 := lostWindow a d
  if d0.windowDone a then
    let d1 := formResults a b0 b1 b2 (d0.modTile a fun t => { t with opened := false })
    let d2 := (positionLatch a s (d1.setWide (DRW_TS_LO a) s)).modAxis a fun x => { x with trans := [] }
    (retakeHold a (armAtSample a d2)).modAxis a fun x =>
      { x with smp := some (s, PortIn.none), smpRef := (d.cluster (axCl a)).ref, curMiss := false }
  else d0

/-- WINDOW_CLOSE. -/
def execWindowClose (a : Fin 64) (b0 b1 b2 : ChanBits) (s : State) : Out :=
  s.onCluster (axCl a.val) (windowClose a.val b0 b1 b2)

/-! ## Gain regions (R79, R83) -/

/-- The selector's value and its comparison: unsigned or signed numbers of a word. -/
structure Selector where
  value : Word
  signed : Bool
  ok : Bool

/-- The selector of axis a with the inputs of the sample (R79). -/
def Dev.selector (d : Dev) (a : Nat) (p : PortIn) : Selector :=
  match d.fld (AXS_RGN_CFG a) AXS_RGN_CFG_selector with
  | 0 => ⟨w32 (sgn p.spd).natAbs, false, p.okPos⟩
  | 1 => ⟨w32 (max (sgn p.ia).natAbs (max (sgn p.ib).natAbs (sgn p.ic).natAbs)), false, p.okIa && p.okIb && p.okIc⟩
  | 2 => ⟨p.pos, true, p.okPos⟩
  | _ => ⟨d.rd (AXS_LOAD_EST a), true, true⟩

/-- A word as the selector compares it. -/
def Selector.num (s : Selector) (v : Word) : Int := if s.signed then sgn v else v.toNat

/-- The threshold of region g less the hysteresis, not below the lowest value of the comparison. -/
def Dev.lowerTh (d : Dev) (a : Nat) (s : Selector) (g : Nat) : Int :=
  max (if s.signed then -0x80000000 else 0) (s.num (d.rd (AXS_RGN_TH a g)) - (d.rd (AXS_RGN_HYST a)).toNat)

/-- The region rises while the selector reaches the next threshold. -/
def Dev.regionUp (d : Dev) (a top : Nat) (s : Selector) : Nat → Nat → Nat
  | 0, g => g
  | n + 1, g => if g < top ∧ s.num (d.rd (AXS_RGN_TH a (g + 1))) ≤ s.num s.value then d.regionUp a top s n (g + 1) else g

/-- The region falls while the selector lies below its threshold less the hysteresis. -/
def Dev.regionDown (d : Dev) (a : Nat) (s : Selector) : Nat → Nat → Nat
  | 0, g => g
  | n + 1, g => if 0 < g ∧ s.num s.value < d.lowerTh a s g then d.regionDown a s n (g - 1) else g

/-- The thresholds up to top ascend. Assumption 26 (DEDUCED). -/
def Dev.ascends (d : Dev) (a top : Nat) (s : Selector) : Bool :=
  (List.range (top - 1)).all fun i => decide (s.num (d.rd (AXS_RGN_TH a (i + 1))) < s.num (d.rd (AXS_RGN_TH a (i + 2))))

/-- The region that the sample selects (R79). -/
def Dev.nextRegion (d : Dev) (a : Nat) (s : Selector) : Nat :=
  let cfg := AXS_RGN_CFG a
  if d.flag cfg AXS_RGN_CFG_fix then d.fld cfg AXS_RGN_CFG_fix_region
  else
    let top := d.fld cfg AXS_RGN_CFG_top
    let g := min top (d.fld (AXS_RGN_STAT a) AXS_RGN_STAT_region)
    d.regionDown a s 8 (d.regionUp a top s 8 g)

/-- The region of axis a evaluated at S + 4; the answer says whether it changed (R79, R83). -/
def regionEval (a s : Nat) (p : PortIn) (d : Dev) : Dev × Bool :=
  let sel := d.selector a p
  let st := AXS_RGN_STAT a
  let old := d.fld st AXS_RGN_STAT_region
  let new := if sel.ok then d.nextRegion a sel else old
  let d1 := if sel.ok then
      when (!d.ascends a (d.fld (AXS_RGN_CFG a) AXS_RGN_CFG_top) sel)
        (·.setB (AXS_RGN_CFG a) AXS_RGN_CFG_region_err true) (d.wr (AXS_SEL_VAL a) sel.value)
    else d
  let d2 := if new = old then d1
    else
      let y := ((d1.setF st AXS_RGN_STAT_region new).setF st AXS_RGN_STAT_prev_region old).incF st AXS_RGN_STAT_changes
      let z := evcCluster (axCl a) (0x110 + axLo a) y
      when (d.flag (AXS_RGN_CFG a) AXS_RGN_CFG_evt_en)
        (postEventAt (evOpen 2 1) (0x10 + axCl a) a s [old, new, s % 2 ^ 32, s / 2 ^ 32]) z
  (d2.incF (AXS_RGN_DWELL a new) AXS_RGN_DWELL_dwell, new != old)

/-! ## Inputs at S + 4 (R56, R60) -/

/-- The input ports of axis a for the sample at s. -/
def Dev.ports (d : Dev) (a : Nat) (chg : Bool) : PortIn :=
  let i := d.currents a
  let lat := d.flag (FBK_STAT a) FBK_STAT_lat_valid
  { ia := i.1.1, ib := i.2.1.1, ic := i.2.2.1, pos := d.rd (FBK_LAT_POS a), spd := d.rd (FBK_SPD a),
    spos := d.rd (FBK_SER_POS a), setp := d.rd (AXS_SEG_SETP a), setpf := d.rd (AXS_SEG_SETPF a),
    setv := d.rd (AXS_SEG_SETV a), seta := d.rd (AXS_SEG_SETA a),
    region := d.fld (AXS_RGN_STAT a) AXS_RGN_STAT_region, ts := d.tsOf a,
    okIa := i.1.2, okIb := i.2.1.2, okIc := i.2.2.2, okPos := lat,
    okSpos := (d.fbk a).serOk && !d.flag (FBK_STAT a) FBK_STAT_ser_stale,
    okSet := d.flag (AXS_SEG_STAT a) AXS_SEG_STAT_valid, regchg := chg }

/-- n ccyc have passed since the latest sample instant of axis a (R60). -/
def Dev.stamp60 (d : Dev) (a n : Nat) : Bool := (d.cluster (axCl a)).ref == (d.axis a).smpRef + n

/-- SAMPLE_RESULTS_VALID: at S + 4 the Drawplate results stand, the interpolator evaluates, and the axis block takes the
region of the sample. -/
def sampleResults (a : Nat) (d : Dev) : Dev :=
  match (if d.stamp60 a 4 then (d.axis a).smp else none) with
  | none => d
  | some (s, _) =>
    let d1 := interpEval a s (standResults a d)
    let r := if d1.axSt a = stRetired then (d1, false) else regionEval a s (d1.ports a false) d1
    r.1.modAxis a fun x => { x with smp := some (s, r.1.ports a r.2) }

/-- SAMPLE_RESULTS_VALID. -/
def execSampleResultsValid (a : Fin 64) (s : State) : Out := s.onCluster (axCl a.val) (sampleResults a.val)

/-! ## Dispatch at S + 8 (R60 to R62, R72, R73) -/

/-- The divisor that a law register's code gives; a reserved code is open. Assumption 25 (DEDUCED). -/
def Dev.divisor (d : Dev) (w : Word) : Nat :=
  let c := fget PLN_SLOT_VEL_div w
  if c ≤ 4 then 2 ^ c else 2 ^ (d.open_ % 5)

/-- The axis status word (R73). -/
def Dev.statusWord (d : Dev) (a : Nat) : Word :=
  let live := d.axSt a == stEnabled || d.ramping a
  w32 (b2n live + 2 * b2n (d.ramping a) + 256 * d.fld (AXS_RGN_STAT a) AXS_RGN_STAT_region + 4096 * d.axSt a)

/-- The staged gain writes and change of top of slot s take effect (R50, R366). -/
def applyStaged (n s a : Nat) (d : Dev) : Dev :=
  let l := d.lane n
  let mine := l.staged.filter fun e => e.1 / 256 == s
  let d1 := d.modLane n fun l =>
    { l with gain := commitWords mine l.gain, staged := l.staged.filter fun e => e.1 / 256 != s,
             stagedTop := l.stagedTop.filter fun e => e.1 != s }
  match (l.stagedTop.filter fun e => e.1 == s).getLast? with
  | some e => d1.setF (AXS_RGN_CFG a) AXS_RGN_CFG_top e.2
  | none => d1

/-- A background law of a slot released with the inputs of its sample, or a miss where its mask is not met (R62). -/
def releaseJob (n s a : Nat) (kind : LawKind) (base period : Nat) (m : InMask) (smp : Nat) (p : PortIn) (d : Dev) : Dev :=
  if m.met p then
    let r : LawRun :=
      { slot := s, kind := kind, base := base, pc := base, s := smp, sRef := (d.axis a).smpRef, deadline := (d.cluster (n / 4)).ref + period,
        inp := p, len := 0, req := [], du := none, dv := none, dw := none }
    d.modLane n fun l => { l with released := l.released ++ [r] }
  else when (!d.isShadow n) (recordMiss a 2 false) d.bump

/-- The jobs of slot s due at this sample are released: position, velocity, emulation (R62). -/
def releaseJobs (n s a smp : Nat) (p : PortIn) (d : Dev) : Dev :=
  let x := d.slot n s
  let k := x.k.getD 0
  let ph := fget PLN_SLOT_SCHED_bg_phase x.sched
  let law := fun (kind : LawKind) (w : Word) (y : Dev) =>
    let dv := y.divisor w
    let base := fget PLN_SLOT_VEL_base w
    if fget PLN_SLOT_VEL_en w = 1 ∧ k % dv = ph % dv then
      releaseJob n s a kind base (dv * p.ts) (inMask (y.lawWords n base)) smp p y
    else y
  let d1 := law .velocity x.vel (law .position x.pos d)
  if fget PLN_SLOT_CFG_emu_en x.cfg = 1 ∧ d.part ≠ .pdl64 then
    releaseJob n s a .emulation 0 p.ts ⟨false, true, false, false⟩ smp p d1
  else d1

/-- Lane n takes the sample of slot s: the sample counts, and where the axis runs its laws staged gains apply, the status
word is written, the current law starts or a miss is recorded, and background jobs are released. -/
def dispatchLane (n s a smp : Nat) (p : PortIn) (d : Dev) : Dev :=
  let d1 := d.modSlot n s fun x => { x with k := some ((x.k.map (· + 1)).getD 0) }
  if !d1.lawsRun a then laneStat n d1
  else
    let d2 := applyStaged n s a d1
    let d3 := d2.modLane n fun l => { l with var := mset 0 l.var (varKey s 0xBF) (d2.statusWord a) }
    let base := fget PLN_SLOT_CFG_cur_base (d3.slot n s).cfg
    let d4 :=
      if (inMask (d3.lawWords n base)).met p then
        let r : LawRun :=
          { slot := s, kind := .current, base := base, pc := base, s := smp, sRef := (d.axis a).smpRef, deadline := 0, inp := p, len := 0,
            req := [], du := none, dv := none, dw := none }
        d3.modLane n fun l => { l with cur := some r }
      else when (!d3.isShadow n) (recordMiss a 1 true) d3
    laneStat n (releaseJobs n s a smp p d4)

/-- CURRENT_LAW_DISPATCH: S + 8 of a sample of axis a, on its lane or on both lanes of its pair (R60, R312). -/
def dispatch (a : Nat) (d : Dev) : Dev :=
  match (if d.stamp60 a 8 then (d.axis a).smp else none) with
  | none => d
  | some (smp, p) =>
    let n := d.axLane a
    let s := d.axSlotNo a
    if d.axSt a = stRetired ∨ fget PLN_SLOT_CFG_valid (d.slot n s).cfg = 0 then
      d.modAxis a fun x => { x with smp := none }
    else if (d.axLanes a).any fun m => (d.lane m).cur.isSome then d
    else
      let live := d.axSt a == stEnabled || d.ramping a
      let d1 := d.modAxis a fun x => { x with smp := none, driveReady := live }
      (d.axLanes a).foldl (fun x m => dispatchLane m s a smp p x) d1

/-- CURRENT_LAW_DISPATCH. -/
def execCurrentLawDispatch (a : Fin 64) (s : State) : Out := s.onCluster (axCl a.val) (dispatch a.val)

/-! ## Background jobs (R62) -/

/-- The order of a slot's laws among equal deadlines. -/
def LawKind.rank : LawKind → Nat
  | .position => 0
  | .velocity => 1
  | .emulation => 2
  | .current => 3

/-- Job x goes before job y. Assumption 28 (DEDUCED). -/
def jobBefore (x y : LawRun) : Bool :=
  decide (x.deadline < y.deadline) ||
    (x.deadline == y.deadline && (decide (x.slot < y.slot) || (x.slot == y.slot && decide (x.kind.rank < y.kind.rank))))

/-- The job that goes before all others. -/
def firstJob : List LawRun → Option LawRun
  | [] => none
  | x :: r =>
    match firstJob r with
    | some y => if jobBefore y x then some y else some x
    | none => some x

/-- BACKGROUND_JOB_START: with the lane free, the released job with the earliest deadline starts.
Assumption 28 (DEDUCED). -/
def jobStart (n : Nat) (d : Dev) : Dev :=
  let l := d.lane n
  if l.cur.isSome ∨ l.job.isSome then d
  else match firstJob l.released with
    | some r => laneStat n (d.modLane n fun l => { l with job := some r, released := l.released.erase r, publish := [] })
    | none => d

/-- BACKGROUND_JOB_START. -/
def execBackgroundJobStart (n : Fin 16) (s : State) : Out := s.onCluster (n.val / 4) (jobStart n.val)

/-- A job is abandoned: its publish buffer is discarded, and it counts as a miss of kind 3 (R62, R84).
Assumption 28 (DEDUCED). -/
def abandon (n : Nat) (r : LawRun) (running : Bool) (d : Dev) : Dev :=
  let d1 := d.modLane n fun l =>
    if running then { l with job := none, publish := [] } else { l with released := l.released.erase r }
  let d2 := d1.incF (PLN_BG_STAT n) PLN_BG_STAT_abandoned
  laneStat n (when (!d.isShadow n) (recordMiss (d.slotAxis n r.slot) 3 false) d2)

/-- BACKGROUND_DEADLINE: the deadline of the job that is due first has come, and it has not executed END.
Assumption 28 (DEDUCED). -/
def jobDeadline (n : Nat) (d : Dev) : Dev :=
  let come := fun (r : LawRun) (running : Bool) =>
    if r.deadline ≤ (d.cluster (n / 4)).ref then abandon n r running d else d
  match (d.lane n).job, firstJob (d.lane n).released with
  | some j, some r => if r.deadline < j.deadline then come r false else come j true
  | some j, none => come j true
  | none, some r => come r false
  | none, none => d

/-- BACKGROUND_DEADLINE. Assumption 28 (DEDUCED). -/
def execBackgroundDeadline (n : Fin 16) (s : State) : Out := s.onCluster (n.val / 4) (jobDeadline n.val)

/-! ## Release (R60, R85, R97, R313) -/

/-- The duties of an execution put into the PWM shadow registers while the axis runs its laws; a duty the law did not
write stands (R124). -/
def writeDuties (a : Nat) (o : OutStage) (d : Dev) : Dev :=
  if !d.lawsRun a then d
  else missRelease a (withSome o.dw (fun v x => x.wr (PWM_SHD_W a) v) (withSome o.dv (fun v x => x.wr (PWM_SHD_V a) v)
    (withSome o.du (fun v x => x.wr (PWM_SHD_U a) v) d)))

/-- The output stage o of lane n leaves it. -/
def takeOut (n : Nat) (o : OutStage) (d : Dev) : Dev := d.modLane n fun l => { l with out := l.out.erase o }

/-- Both executions give the same duties and requests (R97). -/
def sameOut (x y : OutStage) : Bool := x.du == y.du && x.dv == y.dv && x.dw == y.dw && x.req == y.req

/-- The mismatch of a lane pair recorded (R313). -/
def laneMismatch (n a s : Nat) (d : Dev) : Dev :=
  let q := n / 2
  let d1 := (d.setB (ASY_LANE_STAT q) ASY_LANE_STAT_mis true).incF (ASY_LANE_STAT q) ASY_LANE_STAT_mis_cnt
  (d1.setF (ASY_LANE_LAST q) ASY_LANE_LAST_laxis (axLo a)).setWide (ASY_LANE_T_LO q) s

/-- The outcome of R97 for a paired slot. -/
def pairRelease (n a : Nat) (x y : OutStage) (d : Dev) : Dev :=
  if x.how = 2 ∨ y.how = 2 then recordCause a 0x07 (recordMiss a 4 true d)
  else if sameOut x y then writeDuties a x (recordRequests a x.req d)
  else recordCause a 0x08 (recordMiss a 5 true (laneMismatch n a x.s d))

/-- The output stage of slot s of lane m whose release falls in this ccyc of axis a (R60). -/
def Dev.releasing (d : Dev) (a m s : Nat) : Option OutStage :=
  let now := (d.cluster (axCl a)).ref
  (d.lane m).out.find? fun o => o.slot == s && decide (o.sRef + 280 ≤ now) && decide (now ≤ o.sRef + 288)

/-- DUTY_RELEASE: between S + 280 and S + 288 of a sample whose law has executed END, on both lanes of a pair (R60). -/
def dutyRelease (a : Nat) (d : Dev) : Dev :=
  let n := d.axLane a
  let s := d.axSlotNo a
  let one := fun (m : Nat) => d.releasing a m s
  if (d.lane n).paired then
    let p := n / 2 * 2
    match one p, one (p + 1) with
    | some x, some y => pairRelease p a x y (takeOut p x (takeOut (p + 1) y d))
    | _, _ => d
  else match one n with
    | some x => writeDuties a x (takeOut n x d)
    | none => d

/-- DUTY_RELEASE. -/
def execDutyRelease (a : Fin 64) (s : State) : Out := s.onCluster (axCl a.val) (dutyRelease a.val)

end Sys2Proof.Machine
end

