-- ==== Sys2Proof/Machine/Admission.lean ====
section
/-!
DEFINITION. Admission (R63 to R67, R314): the checks on a proposed lane configuration, the staging of an axis, and the
commit.
-/
namespace Sys2Proof.Machine

/-! ## Carrier settings and sample instants (R118, R119) -/

/-- The settings as the registers hold them. -/
def Dev.admNow (d : Dev) (a : Nat) : AdmCfg :=
  { center := d.flag (PWM_CFG a) PWM_CFG_center, dbl := d.flag (PWM_CFG a) PWM_CFG_dbl,
    updPt := d.flag (PWM_CFG a) PWM_CFG_upd_pt, updDiv := d.fld (PWM_CFG a) PWM_CFG_upd_div,
    winEvt := d.flag (DRW_WIN_CFG a) DRW_WIN_CFG_win_evt, per := d.fld (PWM_PER a) PWM_PER_per,
    ofs := d.fld (PWM_OFS a) PWM_OFS_ofs, winDelay := d.fld (DRW_WIN_CFG a) DRW_WIN_CFG_win_delay,
    winLen := d.fld (DRW_WIN_LEN a) DRW_WIN_LEN_win_len }

/-- The settings that the next commit gives the axis. -/
def Dev.admOf (d : Dev) (a : Nat) : AdmCfg := (d.axis a).adm.getD (d.admNow a)

/-- The carrier period. Assumption 25 (DEDUCED). -/
def AdmCfg.carrier (c : AdmCfg) : Nat := if c.center then 2 * c.per else c.per

/-- The sample period (R119). -/
def AdmCfg.ts (c : AdmCfg) : Nat := max 1 (if c.dbl then c.carrier / 2 else c.carrier * 2 ^ c.updDiv)

/-- The first sample instant after the carrier reference's zero, modulo the sample period (R118). -/
def AdmCfg.phase (c : AdmCfg) : Nat :=
  let e := if c.dbl || c.winEvt then 0 else if c.center then c.per else c.per - 1
  (((e + c.winDelay + c.winLen : Nat) : Int) - c.ofs).emod c.ts |>.toNat

/-! ## The proposed configuration of a lane -/

/-- A slot as proposed: its number, its axis, its words and its carrier settings. -/
structure Prop4 where
  slot : Nat
  axis : Nat
  cfg : Word
  vel : Word
  pos : Word
  sched : Word
  adm : AdmCfg
deriving DecidableEq, Repr

/-- The valid slots of lane n as committed. -/
def Dev.committed (d : Dev) (n : Nat) : List Prop4 :=
  ((List.range 4).filter fun s => fget PLN_SLOT_CFG_valid (d.slot n s).cfg == 1).map fun s =>
    let x := d.slot n s
    let a := n / 4 * 16 + fget PLN_SLOT_CFG_laxis x.cfg
    { slot := s, axis := a, cfg := x.cfg, vel := x.vel, pos := x.pos, sched := x.sched, adm := d.admNow a }

/-- The valid slots of lane n as staged. -/
def Dev.proposed (d : Dev) (n : Nat) : List Prop4 :=
  ((List.range 4).filter fun s => d.flag (PLN_SLOT_CFG n s) PLN_SLOT_CFG_valid).map fun s =>
    let a := n / 4 * 16 + d.fld (PLN_SLOT_CFG n s) PLN_SLOT_CFG_laxis
    { slot := s, axis := a, cfg := d.rd (PLN_SLOT_CFG n s), vel := d.rd (PLN_SLOT_VEL n s),
      pos := d.rd (PLN_SLOT_POS n s), sched := d.rd (PLN_SLOT_SCHED n s), adm := d.admOf a }

/-- The lane will be one of a pair after the commit (R314). -/
def Dev.pairedNext (d : Dev) (n : Nat) : Bool :=
  (d.lane n).pairReq == 1 || ((d.lane n).paired && (d.lane n).pairReq != 2)

/-- The encoder emulation of a slot runs. -/
def Dev.emulates (d : Dev) (p : Prop4) : Bool := fget PLN_SLOT_CFG_emu_en p.cfg == 1 && d.part != .pdl64

/-- The background laws of a proposed slot: rank, length, divisor. -/
def Dev.jobsOf (d : Dev) (p : Prop4) : List (Nat × Nat × Nat) :=
  (if fget PLN_SLOT_VEL_en p.pos = 1 then [(0, fget PLN_SLOT_VEL_len p.pos, d.divisor p.pos)] else []) ++
  (if fget PLN_SLOT_VEL_en p.vel = 1 then [(1, fget PLN_SLOT_VEL_len p.vel, d.divisor p.vel)] else []) ++
  (if d.emulates p then [(2, 24, 1)] else [])

/-- The hyperperiod of a list of proposed slots: the longest sample period (R63). -/
def hyperOf (l : List Prop4) : Nat := l.foldl (fun h p => max h p.adm.ts) 0

/-- The occupancy of a list of slots, times 16 H and divided by 800 M (R64). -/
def Dev.loadOf (d : Dev) (l : List Prop4) : Nat :=
  let h := hyperOf l
  l.foldl (fun n p =>
    n + (fget PLN_SLOT_CFG_cur_len p.cfg * 16 + ((d.jobsOf p).map fun j => j.2.1 * 16 / j.2.2).foldl (· + ·) 0) *
      (h / p.adm.ts)) 0

/-- The occupancy in units of 1,000 ccyc/s, rounded up (R64). -/
def Dev.occOf (d : Dev) (l : List Prop4) : Nat :=
  let h := hyperOf l
  if h = 0 then 0 else (d.loadOf l * 800000 + 16 * h - 1) / (16 * h)

/-! ## Check 7: background demand (R63) -/

/-- The first current-law window of the slots that ends after t. -/
def nextWindow (l : List Prop4) (t : Nat) : Option (Nat × Nat) :=
  l.foldl (fun best p =>
    let len := fget PLN_SLOT_CFG_cur_len p.cfg
    let first := p.adm.phase + 8 + len
    let k := if t < first then 0 else (t - first) / p.adm.ts + 1
    let b := p.adm.phase + k * p.adm.ts + 8
    match best with
    | some (b0, e0) => if b < b0 then some (b, b + len) else some (b0, e0)
    | none => some (b, b + len)) none

/-- The first ccyc from t on at which no current law runs. -/
def freeFrom (l : List Prop4) : Nat → Nat → Nat
  | 0, t => t
  | n + 1, t =>
    match nextWindow l t with
    | some (b, e) => if b ≤ t then freeFrom l n e else t
    | none => t

/-- Where a background job with w ccyc left ends, running from t; each preemption loses 20 ccyc. -/
def jobEnd (l : List Prop4) : Nat → Nat → Nat → Nat
  | 0, t, _ => t + 2 ^ 40
  | n + 1, t, w =>
    match nextWindow l t with
    | some (b, e) => if b ≤ t then jobEnd l n e w else if t + w ≤ b then t + w else jobEnd l n e (w - (b - t) + 20)
    | none => t + w

/-- A job of the simulation. -/
structure SimJob where
  rel : Nat
  dl : Nat
  slot : Nat
  rank : Nat
  len : Nat
  axis : Nat
deriving DecidableEq, Repr

/-- The hyperperiods in which every law of the slots is released: the largest divisor. Assumption 26 (DEDUCED). -/
def Dev.simSpan (d : Dev) (l : List Prop4) : Nat :=
  (l.flatMap fun p => (d.jobsOf p).map fun j => j.2.2).foldl max 1

/-- The jobs released in that span. Assumption 26 (DEDUCED). -/
def Dev.simJobs (d : Dev) (l : List Prop4) : List SimJob :=
  l.flatMap fun p =>
    (List.range (d.simSpan l * (hyperOf l / p.adm.ts))).flatMap fun k =>
      ((d.jobsOf p).filter fun j => k % j.2.2 == fget PLN_SLOT_SCHED_bg_phase p.sched % j.2.2).map fun j =>
        let r := p.adm.phase + k * p.adm.ts + 8
        { rel := r, dl := r + j.2.2 * p.adm.ts, slot := p.slot, rank := j.1, len := j.2.1, axis := p.axis }

/-- A job of the simulation goes before another. -/
def simBefore (x y : SimJob) : Bool :=
  decide (x.dl < y.dl) || (x.dl == y.dl && (decide (x.slot < y.slot) || (x.slot == y.slot && decide (x.rank < y.rank))))

/-- The jobs one after the other from time t: the axis of the first that ends late. -/
def simRun (l : List Prop4) : Nat → Nat → List SimJob → Option Nat
  | 0, _, _ => none
  | n + 1, t, js =>
    match js with
    | [] => none
    | j0 :: r0 =>
      let first := r0.foldl (fun m j => min m j.rel) j0.rel
      let t1 := freeFrom l 64 (max t first)
      let best := js.foldl (fun (b : Option SimJob) j =>
        if j.rel ≤ t1 then (match b with | some x => if simBefore j x then some j else some x | none => some j)
        else b) none
      match best with
      | none => none
      | some j =>
        let e := jobEnd l 1000 t1 j.len
        if j.dl < e then some j.axis else simRun l n e (js.erase j)

/-! ## The checks (R63) -/

/-- The laws of a proposed slot pass check 1 on lane n. Assumption 26 (DEDUCED). -/
def Dev.check1 (d : Dev) (n : Nat) (p : Prop4) : Bool :=
  let cur := d.lawWords n (fget PLN_SLOT_CFG_cur_base p.cfg)
  let bg := fun (w : Word) =>
    let l := d.lawWords n (fget PLN_SLOT_VEL_base w)
    fget PLN_SLOT_VEL_en w == 0 || (lawOk false l && lawLen l == fget PLN_SLOT_VEL_len w)
  lawOk true cur && lawLen cur == fget PLN_SLOT_CFG_cur_len p.cfg && bg p.vel && bg p.pos

/-- The first two slots of a list whose instants lie less than 240 ccyc apart modulo H. -/
def clash : List Prop4 → Option Nat
  | [] => none
  | p :: r =>
    if r.any fun q =>
      let g := Nat.gcd p.adm.ts q.adm.ts
      let x := (((p.adm.phase : Int) - q.adm.phase).emod g).toNat
      decide (x < 240) || decide (g < x + 240)
    then some p.axis else clash r

/-- The axis's sample timing, where it serves one now: period and first instant (R70). -/
def Dev.timingNow (d : Dev) (a : Nat) : Nat × Nat :=
  (d.tsOf a, d.fld (PLN_SLOT_PHASE (d.axLane a) (d.axSlotNo a)) PLN_SLOT_PHASE_samp_phase)

/-- Check c on lane n: the axis that fails it, 0xFF for a failure of the lane. Assumption 26 (DEDUCED). -/
def Dev.laneCheck (d : Dev) (c n : Nat) : Option Nat :=
  let l := d.proposed n
  let h := hyperOf l
  let bad := fun (f : Prop4 → Bool) => (l.find? f).map Prop4.axis
  match c with
  | 1 => bad fun p => !d.check1 n p
  | 2 => bad fun p => decide (240 < fget PLN_SLOT_CFG_cur_len p.cfg)
  | 3 => if d.pairedNext n ∧ (l.any fun p => decide (2 ≤ p.slot)) = true then some 0xFF else none
  | 4 => if 100000 < h then some 0xFF else bad fun p => p.adm.ts == 0 || h % p.adm.ts != 0 || decide (p.adm.ts < 4000)
  | 5 => clash l
  | 6 => if 680 * 16 * h < d.loadOf l * 800 then some 0xFF else none
  | 7 =>
    let js := d.simJobs l
    simRun l (js.length + 1) 0 js
  | _ => bad fun p => d.axSt p.axis != stRetired && d.axSt p.axis != stAdmitted &&
      d.timingNow p.axis != (p.adm.ts, p.adm.phase)

/-- The first check that fails on any of these lanes: its number, the axis and the lane. Assumption 26 (DEDUCED). -/
def Dev.admission (d : Dev) (lanes : List Nat) : Option (Nat × Nat × Nat) :=
  (List.range 8).findSome? fun i => lanes.findSome? fun n => (d.laneCheck (i + 1) n).map fun a => (i + 1, a, n)

/-- The result that reports a refusal (R363). Assumption 26 (DEDUCED). -/
def refusalResult (r : Nat × Nat × Nat) : Nat := r.1 + r.2.1 * 256 + r.2.2 % 4 * 65536

/-! ## Staging -/

/-- The bit of slot s of lane n in PLN_COMMIT set. -/
def markCommit (n s : Nat) (d : Dev) : Dev :=
  let r := PLN_COMMIT (n / 4)
  d.setF r PLN_COMMIT_slots (setBit (d.fld r PLN_COMMIT_slots) (n % 4 * 4 + s) true)

/-- The four words of slot s of lane n staged, and the slot marked. -/
def stageSlot (n s : Nat) (cfg vel pos sched : Word) (d : Dev) : Dev :=
  markCommit n s ((((d.wr (PLN_SLOT_CFG n s) cfg).wr (PLN_SLOT_VEL n s) vel).wr (PLN_SLOT_POS n s) pos).wr
    (PLN_SLOT_SCHED n s) sched)

/-- The lanes that take what is staged for lane n: both of a pair. -/
def Dev.lanesOf (d : Dev) (n : Nat) : List Nat := if d.pairedNext n then [n / 2 * 2, n / 2 * 2 + 1] else [n]

/-- The configuration that AXIS_ADMIT carries for one axis (R363). -/
structure AdmitRec where
  axis : Nat
  lane : Nat
  slot : Nat
  velEn : Bool
  posEn : Bool
  emuEn : Bool
  replace : Bool
  bgPhase : Nat
  curBase : Nat
  curLen : Nat
  velBase : Nat
  velLen : Nat
  velDiv : Nat
  posBase : Nat
  posLen : Nat
  posDiv : Nat
  adm : AdmCfg
deriving DecidableEq, Repr

/-- A velocity or position law register (R70). -/
def lawReg (en : Bool) (div len base : Nat) : Word := w32 (b2n en * 2 ^ 31 + div % 8 * 2 ^ 28 + len % 4096 * 4096 + base % 2048)

/-- An axis staged for its commit; where it moves from another slot, that slot is staged as cleared.
Assumption 27 (DEDUCED). -/
def stageAxis (r : AdmitRec) (d : Dev) : Dev :=
  let n := axCl r.axis * 4 + r.lane
  let d0 := if d.axSt r.axis ≠ stRetired ∧ (d.axLane r.axis / 2 ≠ n / 2 ∨ (d.axLane r.axis ≠ n ∧ !d.pairedNext n) ∨
      d.axSlotNo r.axis ≠ r.slot) then stageClear r.axis d else d
  let cfg := w32 (2 ^ 31 + b2n (r.emuEn && d.part != .pdl64) * 2 ^ 30 + axLo r.axis * 2 ^ 26 + r.curLen % 256 * 2048 +
    r.curBase % 2048)
  (d.lanesOf n).foldl (fun x m => stageSlot m r.slot cfg (lawReg r.velEn r.velDiv r.velLen r.velBase)
    (lawReg r.posEn r.posDiv r.posLen r.posBase)
    (w32 (r.bgPhase % 16 * 2 ^ 28 + x.fld (PLN_SLOT_SCHED m r.slot) PLN_SLOT_SCHED_samp_period)) x)
    (d0.modAxis r.axis fun x => { x with adm := some r.adm })

/-- A staging that admission judges on these lanes: it stands, or nothing changes and the refusal is named. -/
def judge (lanes : Dev → List Nat) (stage : Dev → Dev) (d : Dev) : Dev × Option (Nat × Nat × Nat) :=
  let d1 := stage d
  match d1.admission (lanes d1) with
  | some r => (d, some r)
  | none => (d1, none)

/-! ## The commit (R67) -/

/-- The carrier and window settings staged for an axis written to their registers (R66). -/
def applyAdm (a : Nat) (d : Dev) : Dev :=
  match (d.axis a).adm with
  | none => d
  | some c =>
    let p := PWM_CFG a
    let d1 := (((d.setB p PWM_CFG_center c.center).setB p PWM_CFG_dbl c.dbl).setB p PWM_CFG_upd_pt c.updPt).setF p
      PWM_CFG_upd_div c.updDiv
    let d2 := ((d1.setF (PWM_PER a) PWM_PER_per c.per).setF (PWM_OFS a) PWM_OFS_ofs c.ofs).setB (DRW_WIN_CFG a)
      DRW_WIN_CFG_win_evt c.winEvt
    let d3 := (d2.setF (DRW_WIN_CFG a) DRW_WIN_CFG_win_delay c.winDelay).setF (DRW_WIN_LEN a) DRW_WIN_LEN_win_len c.winLen
    d3.modAxis a fun x => { x with adm := none }

/-- Jobs, buffers and stages of a slot are dropped without counting misses. Assumption 27 (DEDUCED). -/
def dropSlot (n s : Nat) (d : Dev) : Dev :=
  d.modLane n fun l =>
    { l with job := l.job.filter fun r => r.slot != s, released := l.released.filter fun r => r.slot != s,
             publish := if (l.job.map LawRun.slot) = some s then [] else l.publish,
             out := l.out.filter fun o => o.slot != s, staged := l.staged.filter fun e => e.1 / 256 != s,
             stagedTop := l.stagedTop.filter fun e => e.1 != s }

/-- The staged registers of slot s of lane n apply; a law that a new base brings has executed no END yet (R54, R67). Assumption 27 (DEDUCED). -/
def commitSlot (n s : Nat) (d : Dev) : Dev :=
  let old := d.slot n s
  let was := fget PLN_SLOT_CFG_valid old.cfg == 1
  let cfg := d.rd (PLN_SLOT_CFG n s)
  if fget PLN_SLOT_CFG_valid cfg = 0 then
    dropSlot n s ((d.modSlot n s fun _ => Slot.reset).wr (PLN_SLOT_PHASE n s) 0)
  else
    let a := n / 4 * 16 + fget PLN_SLOT_CFG_laxis cfg
    let c := d.admNow a
    let cfg1 := fput PLN_SLOT_CFG_inmask cfg (inMask (d.lawWords n (fget PLN_SLOT_CFG_cur_base cfg))).code
    let sched := fput PLN_SLOT_SCHED_samp_period (d.rd (PLN_SLOT_SCHED n s)) c.ts
    let same := was && fget PLN_SLOT_CFG_laxis old.cfg == fget PLN_SLOT_CFG_laxis cfg
    let timing := fget PLN_SLOT_SCHED_samp_period old.sched == c.ts &&
      d.fld (PLN_SLOT_PHASE n s) PLN_SLOT_PHASE_samp_phase == c.phase
    let d0 := if same then d else dropSlot n s d
    let base := if same then old else Slot.reset
    let new : Slot :=
      { base with cfg := cfg1, vel := d.rd (PLN_SLOT_VEL n s), pos := d.rd (PLN_SLOT_POS n s), sched := sched,
                  k := if same && timing then old.k else none,
                  endCur := base.endCur && fget PLN_SLOT_CFG_cur_base base.cfg == fget PLN_SLOT_CFG_cur_base cfg,
                  endVel := base.endVel && fget PLN_SLOT_VEL_base base.vel == d.fld (PLN_SLOT_VEL n s) PLN_SLOT_VEL_base,
                  endPos := base.endPos && fget PLN_SLOT_VEL_base base.pos == d.fld (PLN_SLOT_POS n s) PLN_SLOT_VEL_base }
    let d1 := (((d0.modSlot n s fun _ => new).wr (PLN_SLOT_CFG n s) cfg1).wr (PLN_SLOT_SCHED n s) sched).setF
      (PLN_SLOT_PHASE n s) PLN_SLOT_PHASE_samp_phase c.phase
    if fget PLN_SLOT_VEL_en new.pos = 1 then
      d1.modLane n fun l => { l with var := mset 0 l.var (varKey s 0xCF) (w32 (d.divisor new.pos * c.ts)) }
    else d1

/-- An axis whose slot is valid after the commit: from RETIRED it becomes ADMITTED (R93, R118), else it stays as it is.
Assumption 27 (DEDUCED). -/
def admitAxis (a n s : Nat) (d : Dev) : Dev :=
  let d0 := (d.setF (AXS_STATE a) AXS_STATE_lane (n % 4)).setF (AXS_STATE a) AXS_STATE_slot s
  let d1 := d0.modPwm a fun x => { x with counts := true }
  if d1.axSt a ≠ stRetired then d1
  else
    let d2 := ((d1.setAxSt a stAdmitted).wr (AXS_RGN_STAT a) 0).wr (AXS_MISS_STAT a) 0
    let d3 := (((d2.wr (AXS_MISS_CUR_CNT a) 0).wr (AXS_MISS_BG_CNT a) 0).wr (AXS_FAULT a) 0).wr (AXS_CAUSE_SEEN a) 0
    let d4 := upTo 8 (fun g x => x.wr (AXS_RGN_DWELL a g) 0) d3
    inputsAtAdmission a (goSafe a ((d4.setB (PWM_STAT a) PWM_STAT_forced false).modPwm a
      fun x => { x with latched := false }))

/-- An axis that no slot serves any more is RETIRED; its followers lose their master (R86, R93, R95).
Assumption 27 (DEDUCED). -/
def retireAxis (a : Nat) (d : Dev) : Dev :=
  let fs := d.followers a
  let d1 := goSafe a (discardAll a d)
  let d2 := (((d1.setAxSt a stRetired).setB (AXS_STATE a) AXS_STATE_resp_done false).setB (AXS_STATE a) AXS_STATE_ramp
    false).setB (AXS_STATE a) AXS_STATE_stopping false
  let d3 := (d2.modAxis a fun _ => Axis.reset).modPwm a fun x => { x with counts := false, latched := false, evt := none }
  let d4 := endWaits (fun w => w.target == a && w.op == 0x0204) stNotPermitted 0
    (cutEnable a stRetired <| endWaits (fun w => w.op == 0x0202 && w.target == a) stOk 0 (d3.setB (PWM_STAT a) PWM_STAT_forced false))
  fs.foldl (fun x f => recordCause f 0x10 x) (captureRetired a d4)

/-- Lanes pair or split at the commit: pairing copies the primary's law store, its variable files and gain stores of
slots 0 and 1, and its slot registers to the shadow; a split leaves the shadow's slots invalid unless the same command
stages them (R314). -/
def applyPair (n : Nat) (d : Dev) : Dev :=
  let q := n / 2 * 2
  match (d.lane q).pairReq with
  | 1 =>
    let p := d.lane q
    let low : SMap Word → SMap Word := fun m => ⟨m.entries.filter fun e => decide (e.1 < 512)⟩
    let d1 := (d.modLane q fun l => { l with paired := true, primary := true, pairReq := 0 }).modLane (q + 1) fun l =>
      { l with paired := true, primary := false, pairReq := 0, law := p.law, lawErr := p.lawErr, var := low p.var,
               gain := low p.gain, slots := p.slots, ldm := [] }
    let d2 := upTo 2 (fun s x => stageSlot (q + 1) s (x.rd (PLN_SLOT_CFG q s)) (x.rd (PLN_SLOT_VEL q s))
      (x.rd (PLN_SLOT_POS q s)) (x.rd (PLN_SLOT_SCHED q s)) x) d1
    d2.setB (ASY_LANE_STAT (q / 2)) ASY_LANE_STAT_paired true
  | 2 =>
    let un := fun (l : Lane) => { l with paired := false, primary := false, pairReq := 0 }
    ((d.modLane q un).modLane (q + 1) fun l => { un l with slots := .empty, job := none, released := [], publish := [] }).setB
      (ASY_LANE_STAT (q / 2)) ASY_LANE_STAT_paired false
  | _ => d

/-- PLN_HYPER and PLN_OCC of lane n as committed (R64, R70). -/
def laneLoad (n : Nat) (d : Dev) : Dev :=
  let l := d.committed n
  laneStat n ((d.setF (PLN_HYPER n) PLN_HYPER_hyper (hyperOf l)).setF (PLN_OCC n) PLN_OCC_occ (d.occOf l))

/-- The result of an admission: occupancy and hyperperiod of a lane (R354). -/
def Dev.admitResult (d : Dev) (n : Nat) : Nat :=
  d.fld (PLN_OCC n) PLN_OCC_occ + d.fld (PLN_HYPER n) PLN_HYPER_hyper * 2 ^ 20

/-- Admission commands that wait for these lanes: one whose last lane has applied completes (R67, R363, R365). aux
holds the result of a law load, the lane whose load is the result otherwise, and the lanes still to apply. -/
def admissionWaits (lanes : List Nat) (d : Dev) : Dev :=
  let isAdm := fun (w : Wait) => w.op == 0x0201 || w.op == 0x0210 ||
    (w.op == 0x0C10 && decide (8 ≤ w.target) && decide (w.target < 16))
  let after := fun (w : Wait) =>
    if isAdm w then { w with aux := w.aux.take 2 ++ (w.aux.drop 2).filter fun n => !lanes.contains n } else w
  let ws := d.waits.map after
  let done := ws.filter fun w => isAdm w && (w.aux.drop 2).isEmpty
  { d with
    waits := ws.filter fun w => !(isAdm w && (w.aux.drop 2).isEmpty)
    cpls := d.cpls ++ done.map fun w =>
      ⟨w.sq, w.cid, stOk, if w.op = 0x0210 then w.aux.getD 0 0 else d.admitResult (w.aux.getD 1 0)⟩ }

/-- The slots of these lanes that PLN_COMMIT marks. -/
def Dev.marked (d : Dev) (lanes : List Nat) : List (Nat × Nat) :=
  lanes.flatMap fun n => ((List.range 4).filter fun s =>
    (d.fld (PLN_COMMIT (n / 4)) PLN_COMMIT_slots).testBit (n % 4 * 4 + s)).map fun s => (n, s)

/-- A valid slot serves axis a. -/
def Dev.served (d : Dev) (a : Nat) : Bool :=
  (List.range 4).any fun l => (List.range 4).any fun s =>
    let x := d.slot (axCl a * 4 + l) s
    fget PLN_SLOT_CFG_valid x.cfg == 1 && fget PLN_SLOT_CFG_laxis x.cfg == axLo a

/-- A marked slot that has not committed yet is staged for axis a: the axis moves there (R66, R67). -/
def Dev.moving (d : Dev) (a : Nat) : Bool :=
  (d.marked ((List.range 4).map (axCl a * 4 + ·))).any fun m =>
    d.flag (PLN_SLOT_CFG m.1 m.2) PLN_SLOT_CFG_valid && d.fld (PLN_SLOT_CFG m.1 m.2) PLN_SLOT_CFG_laxis == axLo a

/-- No sample instant of the slot, as committed, falls in this ccyc or in the 288 after it (R67). -/
def Dev.slotClear (d : Dev) (n s : Nat) : Bool :=
  let ts := fget PLN_SLOT_SCHED_samp_period (d.slot n s).sched
  let ph := d.fld (PLN_SLOT_PHASE n s) PLN_SLOT_PHASE_samp_phase
  fget PLN_SLOT_CFG_valid (d.slot n s).cfg == 0 ||
    decide (288 < (((ph : Int) - (d.cluster (n / 4)).ref).emod (max 1 ts)).toNat)

/-- A clear ccyc of lane n: no current law stands between dispatch and release, and no sample instant is near (R67). -/
def Dev.laneClear (d : Dev) (n : Nat) : Bool :=
  (d.lane n).cur.isNone && (d.lane n).out.isEmpty && (List.range 4).all fun s => d.slotClear n s

/-- The commit of lane n, and of its partner in a pair, in one ccyc. -/
def commitLanes (n : Nat) (d : Dev) : Dev :=
  let pairing := (d.lane (n / 2 * 2)).pairReq != 0
  let lanes := if pairing || (d.lane n).paired then [n / 2 * 2, n / 2 * 2 + 1] else [n]
  if !lanes.all d.laneClear || (!pairing && (d.marked lanes).isEmpty) then d
  else
    let d0 := applyPair n d
    let ms := d0.marked lanes
    let olds := ms.filterMap fun m =>
      let x := d.slot m.1 m.2
      if fget PLN_SLOT_CFG_valid x.cfg = 1 then some (m.1 / 4 * 16 + fget PLN_SLOT_CFG_laxis x.cfg) else none
    let news := ms.filterMap fun m =>
      if d0.flag (PLN_SLOT_CFG m.1 m.2) PLN_SLOT_CFG_valid then
        some (m.1 / 4 * 16 + d0.fld (PLN_SLOT_CFG m.1 m.2) PLN_SLOT_CFG_laxis, m.1, m.2) else none
    let d1 := news.foldl (fun x e => applyAdm e.1 x) d0
    let d2 := ms.foldl (fun x m => commitSlot m.1 m.2 x) d1
    let r := PLN_COMMIT (n / 4)
    let d3 := ms.foldl (fun x m => x.setF r PLN_COMMIT_slots (setBit (x.fld r PLN_COMMIT_slots) (m.1 % 4 * 4 + m.2) false)) d2
    let d4 := lanes.foldl (fun x m => laneLoad m x) d3
    let d5 := (news.filter fun e => !d4.isShadow e.2.1).foldl (fun x e => admitAxis e.1 e.2.1 e.2.2 x) d4
    let d6 := olds.foldl (fun x a => if x.served a = false ∧ x.moving a = false ∧ x.axSt a ≠ stRetired then retireAxis a x else x) d5
    admissionWaits lanes d6

/-- ADMISSION_COMMIT: the first clear ccyc of lane n. Assumption 27 (DEDUCED). -/
def execAdmissionCommit (n : Fin 16) (s : State) : Out := s.onCluster (n.val / 4) (commitLanes n.val)

/-! ## Writes and reads of PLN registers (R47, R49, R50, R69, R70, R71) -/

/-- A write of PLN_COMMIT: bits written 1 mark slots, and bits written 0 do nothing. -/
def plnCommitWrite (w : Writer) (c : Nat) (v : Word) (d : Dev) : Dev :=
  let r := PLN_COMMIT c
  plainWrite w r (v ||| d.rd r) d

/-- PLN_COMMIT_WRITE. -/
def execPlnCommitWrite (w : Writer) (c : Fin 4) (v : Word) (s : State) : Out := s.onCluster c.val (plnCommitWrite w c.val v)

/-- The lane and word that PLN_LS_ADDR names. -/
def Dev.lsAt (d : Dev) (c : Nat) : Nat × Nat :=
  (c * 4 + d.fld (PLN_LS_ADDR c) PLN_LS_ADDR_lane, d.fld (PLN_LS_ADDR c) PLN_LS_ADDR_word)

/-- A write of PLN_LS_DATA_HI: the word is stored unless it is bound, and word increments (R47, R70); a
write that may not take effect sets lock_violation. -/
def lawStoreWrite (w : Writer) (c : Nat) (v : Word) (d : Dev) : Dev :=
  let r := PLN_LS_DATA_HI c
  if !d.accepts w r then lockBad r (plainWrite w r v d)
  else
    let at_ := d.lsAt c
    let word : BitVec 64 := BitVec.ofNat 64 (v.toNat * 2 ^ 32 + (d.rd (PLN_LS_DATA_LO c)).toNat)
    let d1 := (plainWrite w r v d).incW (PLN_LS_ADDR c) PLN_LS_ADDR_word
    if d.lawBound at_.1 at_.2 then d1.setB (PLN_LS_STAT c) PLN_LS_STAT_ls_protect true
    else d1.modLane at_.1 fun l => { l with law := mset 0 l.law at_.2 word, lawErr := mset 0 l.lawErr at_.2 0 }

/-- LAW_STORE_WRITE. -/
def execLawStoreWrite (w : Writer) (c : Fin 4) (v : Word) (s : State) : Out := s.onCluster c.val (lawStoreWrite w c.val v)

/-- A read of PLN_LS_DATA_LO: the word's low half; its high half is captured, and word increments. An error of the
fetched word counts, and one of a single bit is corrected (R48, R70). -/
def lawStoreRead (c : Nat) (d0 : Dev) : Dev × Word :=
  let at_ := d0.lsAt c
  let d := match mget 0 (d0.lane at_.1).lawErr (at_.2 % 2048) with
    | 0 => d0
    | 1 => d0.incF (PLN_LS_STAT c) PLN_LS_STAT_ecc_corr
    | _ => d0.incF (PLN_LS_STAT c) PLN_LS_STAT_ecc_uncorr
  let v := (d.lawWord at_.1 at_.2).toNat
  ((d.wr (PLN_LS_DATA_HI c) (w32 (v / 2 ^ 32))).incW (PLN_LS_ADDR c) PLN_LS_ADDR_word, w32 v)

/-- LAW_STORE_READ. -/
def execLawStoreRead (c : Fin 4) (s : State) : Out := s.onCluster c.val (readTo (lawStoreRead c.val))

/-- The slot is valid as committed, and its axis. -/
def Dev.slotOwner (d : Dev) (n s : Nat) : Option Nat :=
  if fget PLN_SLOT_CFG_valid (d.slot n s).cfg = 1 then some (d.slotAxis n s) else none

/-- A gain word of slot s of lane n put in place, or staged while the axis runs its laws (R50). -/
def putGain (n s i : Nat) (v : Word) (d : Dev) : Dev :=
  let k := s * 256 + i
  let run := match d.slotOwner n s with
    | some a => d.lawsRun a
    | none => false
  d.modLane n fun l =>
    if run then { l with staged := l.staged ++ [(k, v)] } else { l with gain := mset 0 l.gain k v }

/-- GAIN_STORE_WRITE: from a bench core; any other master's write is discarded with lock_violation. -/
def gainWrite (w : Writer) (n s i : Nat) (v : Word) (d : Dev) : Dev :=
  if benchLike w then putGain n s i v d
  else d.wr (PLN_UNLOCK (n / 4)) (d.rd (PLN_UNLOCK (n / 4)) ||| 0x80000000)

/-- GAIN_STORE_WRITE. -/
def execGainStoreWrite (w : Writer) (n : Fin 16) (s : Fin 4) (i : Fin 256) (v : Word) (st : State) : Out :=
  st.onCluster (n.val / 4) fun d => closeAt w (PLN_UNLOCK (n.val / 4)) (gainWrite w n.val s.val i.val v d)

/-- A write of variable word i of slot s of lane n (R49). -/
def varWrite (n s i : Nat) (v : Word) (d : Dev) : Dev :=
  let ok := decide (0xC0 ≤ i) || (match d.slotOwner n s with
    | some a => d.axSt a == stAdmitted
    | none => false)
  if ok then d.modLane n fun l => { l with var := mset 0 l.var (varKey s i) v }
  else d.setB (PLN_LANE_STAT n) PLN_LANE_STAT_var_protect true

/-- VARIABLE_FILE_WRITE: any master may write. -/
def execVariableFileWrite (w : Writer) (n : Fin 16) (s : Fin 4) (i : Fin 256) (v : Word) (st : State) : Out :=
  st.onCluster (n.val / 4) fun d => closeAt w (PLN_UNLOCK (n.val / 4)) (varWrite n.val s.val i.val v d)

/-- A write of PLN_LAC_CFG: action 0b10 is stored only from the debug access port; any other write that would come to it,
a reserved action's open result too, stores 0b01 (R69). -/
def lacCfgWrite (w : Writer) (addr : Nat) (v : Word) (d : Dev) : Dev :=
  let d1 := plainWrite w addr v d
  when (w != .dap && d1.fld addr PLN_LAC_CFG_action == 2) (·.setF addr PLN_LAC_CFG_action 1) d1

/-- A write of a PLN register (R70). Assumption 25 (DEDUCED). -/
def plnWrite (nm : RegName) (ix : List Nat) (w : Writer) (addr : Nat) (v : Word) (d : Dev) : Dev :=
  let i := ix.headD 0
  match nm with
  | .PLN_COMMIT => plnCommitWrite w i v d
  | .PLN_LS_DATA_HI => lawStoreWrite w i v d
  | .PLN_LAC_CFG => lacCfgWrite w addr v d
  | .PLN_SLOT_CFG => plainWrite w addr (if d.part = .pdl64 then fput PLN_SLOT_CFG_emu_en v 0 else v) d
  | .PLN_SLOT_VEL | .PLN_SLOT_POS =>
    if d.accepts w addr ∧ 5 ≤ fget PLN_SLOT_VEL_div v then
      (plainWrite w addr (fput PLN_SLOT_VEL_div v d.open_) d).bump
    else plainWrite w addr v d
  | _ => plainWrite w addr v d

/-- The gain-store window or the variable-file window of an offset of a cluster's PLN block: lane, slot, word; true for
the variable file (R71). -/
def plnWindow (addr : Nat) : Option (Nat × Nat × Nat × Bool) :=
  if addr < 0x02800000 ∨ 0x03000000 ≤ addr then none
  else
    let c := (addr - 0x02800000) / 0x200000
    let o := (addr - 0x02800000) % 0x200000
    if 0x4000 ≤ o ∧ o < 0x8000 then some (c * 4 + (o - 0x4000) / 0x1000, (o / 0x400) % 4, o % 0x400 / 4, false)
    else if 0x8000 ≤ o ∧ o < 0xC000 then some (c * 4 + (o - 0x8000) / 0x1000, (o / 0x400) % 4, o % 0x400 / 4, true)
    else none

/-- A read in one of the two windows (R71). -/
def Dev.windowRead (d : Dev) (n s i : Nat) (var : Bool) : Word :=
  if var then mget 0 (d.lane n).var (varKey s i) else mget 0 (d.lane n).gain (s * 256 + i)

end Sys2Proof.Machine
end

