-- ==== Sys2Proof/Machine/HlmCore.lean ====
section
/-!
DEFINITION. What other blocks use of the Hallmark: the lifecycle state, random bytes, security events, debug levels and
the certified configuration (R438 to R452).
-/
namespace Sys2Proof.Machine

/-- Byte i of the OTP. -/
def Dev.otpByte (d : Dev) (i : Nat) : Byte := mget 0 d.hlm.otp i

/-- The ccyc of 10 s. -/
def tenSeconds : Nat := 8000000000

/-- What was drawn in ccyc t is 10 s old (R362, R377, R473). -/
def Dev.stale (d : Dev) (t : Nat) : Bool := decide (t + tenSeconds ≤ d.now)

/-- n bytes of the OTP from byte i. -/
def Dev.otpSpan (d : Dev) (i n : Nat) : List Byte := (List.range n).map fun k => d.otpByte (i + k)

/-- Bits of the OTP programmed: a bit once 1 stays 1 (R438). -/
def otpProg (i : Nat) : List Byte → Dev → Dev
  | [], d => d
  | b :: bs, d => otpProg (i + 1) bs (d.modHlm fun h => { h with otp := mset 0 h.otp i (mget 0 h.otp i ||| b) })

/-- A lifecycle byte counts as programmed with at least 5 of its bits at 1 (R438). -/
def Dev.lifeByte (d : Dev) (i : Nat) : Bool :=
  5 ≤ ((List.range 8).filter fun k => (d.otpByte i).toNat.testBit k).length

/-- The lifecycle state: 0 BLANK, 1 PROVISIONED, 2 FIELD, 3 RETURNED, 4 DECOMMISSIONED (R438). -/
def Dev.lifecycle (d : Dev) : Nat :=
  if d.lifeByte 3 then 4 else if d.lifeByte 2 then 3 else if d.lifeByte 1 then 2 else if d.lifeByte 0 then 1 else 0

/-- A key field of the OTP is present: not all its bytes are 0 (R438). -/
def Dev.otpHas (d : Dev) (i n : Nat) : Bool := (d.otpSpan i n).any (· != 0)

/-- The owner's public key is present. -/
def Dev.ownerKey (d : Dev) : Bool := d.otpHas 0x010 96

/-- The keys by number, for the functions of Config: 0 the owner's, 1 and 2 the vendor keys, 3 the device identity. -/
def keyOwner : Nat := 0

/-- n bytes from the DRBG (R440). -/
def drbgDraw (n : Nat) (d : Dev) : Dev × List Byte :=
  (d.modHlm fun h => { h with draws := h.draws + 1 }, ((Config.drbg d.hlm.draws n) ++ List.replicate n 0).take n)

/-- A security event, and with it a Touchmark record of cause SECURITY with the event's code and payload (R449). -/
def postSecurity (code idx : Nat) (pay : List Nat) (touch : Bool) (d : Dev) : Dev :=
  when touch (postTouchmark 0x0008 4 idx (code :: pay)) (postEvent code 4 idx pay d)

/-- The debug level: the higher of the two grants (R448). -/
def Dev.dbgLevel (d : Dev) : Nat :=
  max (d.fld DBG_STAT DBG_STAT_tap_level) (d.fld DBG_STAT DBG_STAT_pcie_level)

/-- Condition i of R451 holds now, apart from latches. -/
def Dev.certCond (d : Dev) (i : Nat) : Bool :=
  match i with
  | 0 => d.lifecycle == 2
  | 1 => d.flag (ASY_PAIR_CTL 8) ASY_PAIR_CTL_paired && !d.flag (ASY_PAIR_STAT 8) ASY_PAIR_STAT_blocked
  | 2 => (d.rd HLM_AUTH_MASK).toNat.testBit 2 && (d.rd HLM_AUTH_MASK).toNat.testBit 11 &&
      (d.rd HLM_AUTH_MASK).toNat.testBit 12
  | 3 =>
    let t := d.fld DBG_STAT DBG_STAT_tap_level
    let p := d.fld DBG_STAT DBG_STAT_pcie_level
    t != 2 && p != 2 && (t == 0 || d.hlm.ownerT) && (p == 0 || d.hlm.ownerP)
  | 4 => d.hlm.fwVendor && 0x03000000 ≤ d.hlm.fwVersion && d.fld TCH_BOOT TCH_BOOT_slot ≤ 1
  | 5 => d.fld TCH_BOOT TCH_BOOT_boot_mode == 0
  | _ => d.flag HLM_STAT HLM_STAT_ent_ok

/-- The conditions that fail or are latched, bit i for condition i (R452). -/
def Dev.certFail (d : Dev) : Nat :=
  (List.range 7).foldl (fun m i =>
    if !d.certCond i || (i == 1 && d.hlm.latch1) || (i == 3 && d.hlm.latch3) then m + 2 ^ i else m) 0

/-- The certified configuration evaluated: HLM_STAT follows, and CERT_LEFT or CERT_ENTERED is posted (R452). -/
def certEval (d : Dev) : Dev :=
  let d1 := d.modHlm fun h => { h with latch1 := h.latch1 || !d.certCond 1, latch3 := h.latch3 || d.dbgLevel == 2 }
  let m := d1.certFail
  let was := d.flag HLM_STAT HLM_STAT_certified
  let d2 := ((d1.setF HLM_STAT HLM_STAT_cert_fail m).setB HLM_STAT HLM_STAT_certified (m == 0)).setF
    HLM_STAT HLM_STAT_dbg_level d.dbgLevel
  let d3 := d2.setF HLM_STAT HLM_STAT_lifecycle d.lifecycle
  if was && m != 0 then postSecurity 0x0808 0 [m] true d3
  else if !was && m == 0 then postSecurity 0x0809 0 [0] true d3
  else d3

/-- A command fails its authentication for a reason: it counts, AUTH_FAIL is posted, and at most one Touchmark record a
second carries the failures since the previous one (R342, R449). Assumption 47 (DEDUCED). -/
def authFail (op sess reason : Nat) (d : Dev) : Dev :=
  let n := d.hlm.fails + 1
  let due := match d.hlm.failAt with
    | some t => decide (t + 800000000 ≤ d.time.master)
    | none => true
  let d1 := d.setF LDL_GSTAT LDL_GSTAT_auth_fail (satInc 16 (d.fld LDL_GSTAT LDL_GSTAT_auth_fail))
  let d2 := d1.modHlm fun h =>
    if due then { h with fails := 0, failAt := some d.time.master } else { h with fails := n }
  postSecurity 0x0801 sess [op + reason * 65536, n] due d2

/-- The sessions that exist, as HLM_SESSIONS shows them. -/
def sessShow (d : Dev) : Dev :=
  d.setF HLM_SESSIONS HLM_SESSIONS_open
    ((List.range 15).foldl (fun m i => if (mget none d.hlm.sess (i + 1)).isSome then m + 2 ^ i else m) 0)

/-- Session s ends for a reason: its commands that still wait complete with AUTH_FAILED (R342, R447, R449). -/
def sessEnd (s reason : Nat) (d : Dev) : Dev :=
  match mget none d.hlm.sess s with
  | none => d
  | some _ =>
    let d1 := sessShow (d.modHlm fun h => { h with sess := mset none h.sess s none })
    let drop := fun (c : Cmd) =>
      if (((c.descs.headD []).getD 3 0)).toNat = s ∧ !c.begun then { c with refuse := some stAuthFailed } else c
    let d2 := { d1 with sqs := ⟨d1.sqs.entries.map fun e => (e.1, { e.2 with cmds := e.2.cmds.map drop })⟩ }
    postSecurity 0x0803 s [s + reason * 256] false d2

/-- Every session ends (R447). -/
def sessEndAll (reason : Nat) (d : Dev) : Dev := upTo 15 (fun i => sessEnd (i + 1) reason) d

/-- A debug level is granted over a path, 0 TAP or 1 PCI Express; owner says that the owner's key signed it (R448). -/
def debugGrant (level path : Nat) (owner : Bool) (d : Dev) : Dev :=
  let d1 := if path = 0 then (d.setF DBG_STAT DBG_STAT_tap_level level).modHlm fun h => { h with ownerT := owner }
    else (d.setF DBG_STAT DBG_STAT_pcie_level level).modHlm fun h => { h with ownerP := owner }
  let d2 := postSecurity 0x0806 0 [level + path * 256] true d1
  certEval (postTouchmark 0x0009 4 0 [level, path] d2)

/-- The device watchdog's freeze ends: it reloads its full period and sets debug_resumed (R467). -/
def wdtUnfreeze (d : Dev) : Dev :=
  if !d.flag TCH_WDT_CFG TCH_WDT_CFG_frozen then d
  else ((d.setB TCH_WDT_CFG TCH_WDT_CFG_frozen false).setB TCH_WDT_CFG TCH_WDT_CFG_debug_resumed true).setF
    TCH_WDT_LEFT TCH_WDT_LEFT_left (d.fld TCH_WDT_CFG TCH_WDT_CFG_period)

/-- The grant over a path lapses; with the FULL grant the freeze of the device watchdog ends (R448, R487). -/
def debugLapse (path : Nat) (d : Dev) : Dev :=
  if path = 0 then
    let d1 := (d.setF DBG_STAT DBG_STAT_tap_level 0).modHlm fun h => { h with ownerT := false }
    certEval (wdtUnfreeze (d1.setB DBG_WDT_FREEZE DBG_WDT_FREEZE_freeze false))
  else certEval ((d.setF DBG_STAT DBG_STAT_pcie_level 0).modHlm fun h => { h with ownerP := false })

end Sys2Proof.Machine
end

