-- ==== Sys2Proof/Machine/AsyCore.lean ====
section
/-!
DEFINITION. What the cores use of the Assay units: pairs, the mirror map, output windows, mismatches and the split of a
pair (R299 to R308).
-/
namespace Sys2Proof.Machine

/-- The pair of core k: 2 × cluster + p, 8 for the bench pair, none for the Hallmark core (R299). -/
def pairOf (k : Nat) : Option Nat := if k < 16 then some (k / 2) else if k < 18 then some 8 else none

/-- Core k is the shadow of its pair. -/
def isShadowCore (k : Nat) : Bool := k % 2 == 1 && decide (k < 18)

/-- The primary core of pair q. -/
def primaryOf (q : Nat) : Nat := 2 * q

/-- Pair q compares (R300). -/
def Dev.pairedQ (d : Dev) (q : Nat) : Bool := d.flag (ASY_PAIR_CTL q) ASY_PAIR_CTL_paired

/-- Pair q is blocked (R307). -/
def Dev.blockedQ (d : Dev) (q : Nat) : Bool := d.flag (ASY_PAIR_STAT q) ASY_PAIR_STAT_blocked

/-- Core k runs paired. -/
def Dev.isPaired (d : Dev) (k : Nat) : Bool :=
  match pairOf k with
  | some q => d.pairedQ q
  | none => false

/-- Core k and its partner both wait in CHKPT for a MERGE, until it completes (R310). -/
def Dev.merging (d : Dev) (k : Nat) : Bool :=
  match pairOf k with
  | some q => (d.pair q).copying || ((d.core (2 * q)).mergeWait && (d.core (2 * q + 1)).mergeWait)
  | none => false

/-- The pair as source index and target number (R356). -/
def pairNo (q : Nat) : Nat := if q = 8 then 0x10 else q

/-- The island code of pair q. -/
def pairIsl (q : Nat) : Nat := if q = 8 then 0 else 0x10 + q / 2

/-- Bank b as the core sees it: the shadow of a paired pair reaches the shadow bank instead (R301). -/
def Dev.mirror (d : Dev) (k b : Nat) : Nat :=
  match pairOf k with
  | none => b
  | some q =>
    if !isShadowCore k || !d.pairedQ q then b
    else
      let base := if q = 8 then 64 else q / 2 * 16
      (List.range 4).foldl (fun r m =>
        if r = b ∧ d.flag (ASY_MIR q m) ASY_MIR_en ∧ base + d.fld (ASY_MIR q m) ASY_MIR_pbank = b then
          base + d.fld (ASY_MIR q m) ASY_MIR_sbank else r) b

/-- The output window of pair q that holds an address (R304). -/
def Dev.outWindow (d : Dev) (q addr : Nat) : Option Nat :=
  (List.range 4).find? fun w =>
    d.flag (ASY_OUT_LO q w) ASY_OUT_LO_en && (d.fld (ASY_OUT_LO q w) ASY_OUT_LO_lo) * 4 ≤ addr &&
      addr < (d.fld (ASY_OUT_HI q w) ASY_OUT_HI_hi) * 4 + 4

/-- Entries discarded, counted in out_drop (R307). Assumption 38 (DEDUCED). -/
def outDrop (q n : Nat) (d : Dev) : Dev :=
  d.setF (ASY_PAIR_STAT q) ASY_PAIR_STAT_out_drop (satAdd 16 (d.fld (ASY_PAIR_STAT q) ASY_PAIR_STAT_out_drop) n)

/-- The record of a mismatch of pair q with the operands of the comparison; that of kind 6 posts no event (R307). -/
def mismatchRecord (q kind a0 a1 b0 b1 : Nat) (d : Dev) : Dev :=
  let d1 := (((d.setF (ASY_PAIR_STAT q) ASY_PAIR_STAT_mis_kind kind).wr (ASY_MIS_A q 0) (w32 a0)).wr (ASY_MIS_A q 1) (w32 a1)).wr
    (ASY_MIS_B q 0) (w32 b0) |>.wr (ASY_MIS_B q 1) (w32 b1)
  let d2 := if kind ≤ 2 then d1.setB (ASY_PAIR_STAT q) ASY_PAIR_STAT_chk_mis true
    else if kind ≤ 4 then d1.setB (ASY_PAIR_STAT q) ASY_PAIR_STAT_out_mis true
    else if kind = 5 then d1.setB (ASY_PAIR_STAT q) ASY_PAIR_STAT_lag true else d1
  let pay := [pairNo q, kind, a0, a1, b0, b1]
  postTouchmark 0x0006 (pairIsl q) (pairNo q) pay (when (kind != 6) (postEvent (evOpen 9 2) (pairIsl q) (pairNo q) pay) d2)

/-- A mismatch of kinds 1 to 5: the pair is blocked at once, and both output queues are discarded (R307). -/
def pairBlock (q kind a0 a1 b0 b1 : Nat) (d : Dev) : Dev :=
  let n := (d.pair q).outP.length + (d.pair q).outS.length
  let d1 := outDrop q n (mismatchRecord q kind a0 a1 b0 b1 d)
  let d2 := d1.setB (ASY_PAIR_STAT q) ASY_PAIR_STAT_blocked true
  certEval (d2.modCorePair q fun p => { p with outP := [], outS := [], chkP := [], chkS := [], ina := [] })

/-- Pair q is split: redirection and comparison end (R309). -/
def pairEnd (q : Nat) (d : Dev) : Dev :=
  let d1 := (d.setB (ASY_PAIR_CTL q) ASY_PAIR_CTL_paired false).setB (ASY_PAIR_STAT q) ASY_PAIR_STAT_blocked false
  let d2 := d1.modCorePair q fun _ => .reset
  d2.modCore (2 * q + 1) fun c => { c with inaWait := false }

/-- A pending request of pair q ends: its bit clears and its command completes (R309 to R311). Assumption 43 (DEDUCED). -/
def pairRequestEnd (q : Nat) (merge : Bool) (status result : Nat) (d : Dev) : Dev :=
  let d1 := d.setB (ASY_PAIR_CTL q) (if merge then ASY_PAIR_CTL_req_merge else ASY_PAIR_CTL_req_split) false
  let d2 := if merge then
      ((d1.modCore (2 * q) fun c => { c with mergeWait := false }).modCore (2 * q + 1) fun c => { c with mergeWait := false }).modCorePair q
        fun p => { p with copying := false, copyT := 0 }
    else d1
  endWaits (fun w => w.op == 0x0C10 && w.target == pairNo q && w.aux.headD 0 == (if merge then 2 else 1)) status result d2

/-- Core k of a pair enters LOCKOUT: a paired pair splits at once as a mismatch of kind 6, and a MERGE under way is
abandoned (R308, R311). -/
def pairLockout (k : Nat) (d : Dev) : Dev :=
  match pairOf k with
  | none => d
  | some q =>
    let d1 := if d.flag (ASY_PAIR_CTL q) ASY_PAIR_CTL_req_merge then pairRequestEnd q true stAbortedReset 0 d else d
    if !d.pairedQ q then d1
    else
      let mine := if isShadowCore k then (d.pair q).outP.length else (d.pair q).outS.length
      let d2 := outDrop q mine (mismatchRecord q 6 0 0 0 0 d1)
      let d3 := (pairEnd q d2).setB (ASY_PAIR_STAT q) ASY_PAIR_STAT_partner_lock true
      certEval (if d.flag (ASY_PAIR_CTL q) ASY_PAIR_CTL_req_split then pairRequestEnd q false stAbortedReset 0 d3 else d3)

end Sys2Proof.Machine
end

