-- ==== Sys2Proof/Machine/AnvCore.lean ====
section
/-!
DEFINITION. The Anvil cores (R239 to R283): registers, protection, the break and watch units, fetch, exception and
interrupt entry, LOCKOUT, interrupts and watchdogs.
-/
namespace Sys2Proof.Machine

/-- The memories and the device, which an instruction of a core changes together. -/
abbrev MD := Memory × Dev

/-! ## A core and its registers -/

/-- The register of core k that an address function names; the Hallmark core's own set lies outside the fabric map. -/
def anvA (f : Nat → Nat) (k : Nat) : Nat := if k = 18 then f 18 + 0x100000000 else f k

/-- The island code of core k. -/
def coreIsl (k : Nat) : Nat := if k < 16 then 0x10 + k / 4 else if k = 18 then 4 else 0

/-- The core's data register n. -/
def Core.wv (c : Core) (n : Nat) : Word := mget 0 c.w n

/-- The tag of the core's register n. -/
def Core.tag (c : Core) (n : Nat) : Nat := mget 0 c.tg n

/-- Register n of the core set with its tag. -/
def Core.setW (c : Core) (n : Nat) (v : Word) (t : Nat) : Core := { c with w := mset 0 c.w n v, tg := mset 0 c.tg n t }

/-- Predicate n of the core; P0 reads 1 (R239). -/
def Core.pred (c : Core) (n : Nat) : Bool := n == 0 || c.p.testBit n

/-- Predicate n of the core set; a write of P0 is discarded (R239). -/
def Core.setP (c : Core) (n : Nat) (b : Bool) : Core := if n = 0 then c else { c with p := setBit c.p n b }

/-- The tags. -/
def tRAW : Nat := 0
def tINT : Nat := 1
def tQ16 : Nat := 2
def tQ31 : Nat := 3
def tF32 : Nat := 4
def tANG : Nat := 5
def tPTR : Nat := 6
def tBOOL : Nat := 8
def tPOISON : Nat := 15

/-- acyc (scyc for the Hallmark core) of the core's island so far. -/
def Dev.coreCyc (d : Dev) (k : Nat) : Nat :=
  if k < 16 then (d.cluster (k / 4)).ref / 2 else if k = 18 then d.now / 4 else d.now / 2

/-- The core is in LOCKOUT. -/
def Dev.locked (d : Dev) (k : Nat) : Bool := d.fldIf (anvA ANV_CTL k) ANV_CTL_lockout == 1

/-- The core stands halted by the debugger. -/
def Dev.coreHalted (d : Dev) (k : Nat) : Bool := d.fldIf (anvA ANV_CTL k) ANV_CTL_halted == 1

/-- The island of the core is out of reset and its clock runs. -/
def Dev.coreClock (d : Dev) (k : Nat) : Bool := if k < 16 then d.clusterRuns (k / 4) else !d.clkHeld

/-- The core executes: its clock runs, and it is neither stopped, halted nor in LOCKOUT. Nothing starts core 18, whose
program the spec does not give. Assumption 74 (DESIGN CHOICE). -/
def Dev.coreLive (d : Dev) (k : Nat) : Bool :=
  d.coreClock k && (d.core k).running && !d.locked k && !d.coreHalted k && !(decide (k < 16) && (d.cluster (k / 4)).halting)

/-! ## Protection (R265, R266) -/

/-- The rights of a ring at an address as a mask, 1 read, 2 write, 4 execute: those of the lowest-numbered enabled region
that holds it. Assumption 40 (DEDUCED). -/
def Dev.rights (d : Dev) (k ring addr : Nat) : Nat :=
  if k = 18 then 7
  else
    let hit := fun (n : Nat) =>
      d.fldIf (ANV_RGN_BASE k n) ANV_RGN_BASE_en == 1 &&
        d.fld (ANV_RGN_BASE k n) ANV_RGN_BASE_base * 32 ≤ addr &&
        addr ≤ d.fldIf (ANV_RGN_LIMIT k n) ANV_RGN_LIMIT_limit * 32 + 31
    match (List.range 16).find? hit with
    | some n => bits (d.fldIf (ANV_RGN_RIGHTS k n) ⟨0, 12⟩) (3 * ring + 2) (3 * ring)
    | none => if ring = 0 then 3 else 0

/-- The core may fetch at this address apart from its regions (R243). -/
def fetchPlace (k addr : Nat) : Bool :=
  match kindOf addr with
  | .rom => k == 18
  | .ingot b _ 0 => if b < 64 then k < 16 && k / 4 == b / 16 else k == 16 || k == 17
  | _ => false

/-! ## Fetch (R243, R251) -/

/-- An instruction's outcome: an exception with its detail, address and data, or a new state, the accesses that break
and watch units see (1 read, 2 write; address; data), and the target of a taken branch. -/
inductive Res where
  | exc (n detail faddr : Nat) (fdata : Word)
  | ok (x : MD) (acc : List (Nat × Nat × Word)) (jump : Option Nat)
  /-- An exception found at the target of an access, whose traces stay. -/
  | excAt (x : MD) (n faddr : Nat)
  /-- The instruction cannot go on yet: the row did not occur. -/
  | wait
  /-- The instruction has begun and waits for what another row brings. -/
  | begun (x : MD)

/-- The word at the core's PC: an exception number, or the word. -/
def anvFetch (k : Nat) (x : MD) : MD × (Nat ⊕ Word) :=
  let c := x.2.core k
  if !fetchPlace k c.pc || !(x.2.rights k c.ring c.pc).testBit 2 then (x, .inl 4)
  else match c.pfq with
    | w :: _ => (x, .inr w)
    | [] =>
      match kindOf c.pc with
      | .ingot b o _ =>
        match ingotRead (.core k) (x.2.mirror k b) (o / 4 * 4) x.1 x.2 with
        | (m, d, .ok v _) => ((m, d), .inr v)
        | (m, d, _) => ((m, d), .inl 5)
      | _ => (x, .inr (x.1.word c.pc))

/-- The prefetch queue takes up to n more words that can be read without an error. Assumption 37 (DEDUCED). -/
def prefetch (k : Nat) : Nat → MD → MD
  | 0, x => x
  | n + 1, x =>
    let c := x.2.core k
    let a := c.pc + 4 * c.pfq.length
    if 4 ≤ c.pfq.length || !fetchPlace k a || !(x.2.rights k c.ring a).testBit 2 then x
    else match kindOf a with
      | .ingot b o _ =>
        let b' := x.2.mirror k b
        if !x.2.bankUp b' || !x.2.ingotOk (.core k) b' false || x.1.errAt (bankAddr b' o) != 0 then x
        else prefetch k n (x.1, x.2.modCore k fun c => { c with pfq := c.pfq ++ [ingotData x.1 x.2 b' o] })
      | _ => prefetch k n (x.1, x.2.modCore k fun c => { c with pfq := c.pfq ++ [x.1.word a] })

/-! ## Break and watch units (R479, R480) -/

/-- Unit u of core k sees an access of this kind (0 fetch, 1 read, 2 write) at an address with these data. -/
def Dev.bwSees (d : Dev) (k u kind addr : Nat) (v : Word) : Bool :=
  let c := d.core k
  let g := DBG_BW_CFG k u
  k != 18 && d.fldIf g DBG_BW_CFG_en == 1 && (d.fld g DBG_BW_CFG_kind).testBit (2 - kind) &&
    (d.rd (DBG_BW_START k u)).toNat ≤ addr && addr ≤ (d.rd (DBG_BW_END k u)).toNat &&
    (d.fld g DBG_BW_CFG_rings).testBit c.ring &&
    (!d.flag g DBG_BW_CFG_ctx_en || d.fld g DBG_BW_CFG_ctx == c.ctxid % 65536) &&
    (!d.flag g DBG_BW_CFG_val_en || d.rd (DBG_BW_VAL k u) == v) &&
    (u == 0 || d.fld (DBG_BW_CFG k (u - 1)) DBG_BW_CFG_link != 2 || d.flag g DBG_BW_CFG_armed)

/-- Unit u is the second half of an AND link. -/
def Dev.bwThrough (d : Dev) (k u : Nat) : Bool := u != 0 && d.fld (DBG_BW_CFG k (u - 1)) DBG_BW_CFG_link == 1

/-- The units of core k that match the accesses of one instruction. -/
def Dev.bwMatches (d : Dev) (k : Nat) (acc : List (Nat × Nat × Word)) : List Nat :=
  let sees := fun (u : Nat) => acc.any fun a => d.bwSees k u a.1 a.2.1 a.2.2
  (List.range 4).filter fun u =>
    !d.bwThrough k u && sees u && (d.fld (DBG_BW_CFG k u) DBG_BW_CFG_link != 1 || (u < 3 && sees (u + 1)))

/-- Unit u of core k has matched: hit sets, its event source pulses, a sequence arms the next unit, and an armed unit
disarms. -/
def bwMark (k : Nat) (d : Dev) (u : Nat) : Dev :=
  let d1 := (d.setB (DBG_BW_CFG k u) DBG_BW_CFG_hit true).setB (DBG_BW_CFG k u) DBG_BW_CFG_armed false
  let d2 := if d.fld (DBG_BW_CFG k u) DBG_BW_CFG_link = 2 ∧ u < 3 then
      d1.setB (DBG_BW_CFG k (u + 1)) DBG_BW_CFG_armed true else d1
  if k < 16 then evcCluster (k / 4) (0x170 + k % 4 * 4 + u) d2 else evcDevice (0x218 + (k - 16) * 4 + u) d2

/-- Bench core k stops, with its partner where the bench pair is paired; the lag timer stops with them (R478).
Assumption 38 (DEDUCED). -/
def benchHalt (k : Nat) (d : Dev) : Dev :=
  let ks := if d.pairedQ 8 then [16, 17] else [k]
  ks.foldl (fun x j =>
    let x1 := (x.setB (ANV_CTL j) ANV_CTL_halted true).modCore j fun c => { c with monitor := none, stepping := false, load := none }
    x1.setF DBG_STAT DBG_STAT_bench_halted (setBit (x1.fld DBG_STAT DBG_STAT_bench_halted) (j - 16) true)) d

/-! ## LOCKOUT (R276) -/

/-- Core k enters LOCKOUT. -/
def anvLockout (k reason : Nat) (d : Dev) : Dev :=
  let a := anvA ANV_CTL k
  let d1 := ((d.setB a ANV_CTL_lockout true).setF a ANV_CTL_lock_reason reason).modCore k fun c =>
    { c with stns := [], waiting := false, mergeWait := false, inaWait := false, load := none, rep := none, pfq := [] }
  let emb := (List.range 64).map fun j => (d.rd (anvA (fun i => ANV_EMB i j) k)).toNat
  let d2 := postTouchmark 0x0005 (coreIsl k) k ([k, reason] ++ emb) d1
  let d3 := pairLockout k d2
  if k < 16 then
    upTo 16 (fun l x => if (d.fld (ANV_SUPV k) ANV_SUPV_axes).testBit l then
        recordCause (k / 4 * 16 + l) 0x0C (setAct (k / 4 * 16 + l) 0x0C true x) else x) d3
  else d3

/-! ## Task-state blocks (R271 to R274) -/

/-- The place that a task-state block of core k may take (R272). -/
def blockPlace (k addr : Nat) : Bool :=
  match kindOf addr with
  | .hprivate => k == 18
  | .ingot b _ 0 => if b < 64 then k < 16 && k / 4 == b / 16 else k == 16 || k == 17
  | _ => false

/-- The block at an address can be used by a handler of this ring: its place, its alignment and the write right over
all of it (R275). -/
def Dev.blockOk (d : Dev) (k addr ring : Nat) : Bool :=
  blockPlace k addr && addr % 512 == 0 && (List.range 16).all fun i => (d.rights k ring (addr + 32 * i)).testBit 1

/-- A word written through the save port; the bank under a march test discards it (R284, R293). Assumption 36 (DEDUCED). -/
def savePut (k a : Nat) (v : Word) (x : MD) : MD :=
  match kindOf a with
  | .ingot b o _ =>
    let b' := x.2.mirror k b
    if x.2.flag (ING_BANK_STAT b') ING_BANK_STAT_march_busy then x else ingotPut b' o v 0 x.1 x.2
  | _ => ((x.1.setWord a v).setTag a 0, x.2)

/-- A word read through the save port, with the mark that it is POISON: an uncorrectable word, or any word of a bank
under a march test (R291, R293). -/
def saveGet (k a : Nat) (x : MD) : MD × Word × Bool :=
  match kindOf a with
  | .ingot b o _ =>
    let b' := x.2.mirror k b
    let v := ingotData x.1 x.2 b' o
    if x.2.flag (ING_BANK_STAT b') ING_BANK_STAT_march_busy then (x, v, true)
    else if 2 ≤ x.1.errAt (bankAddr b' o) then ((x.1, ingotUncorr b' o x.2), v, true)
    else if x.1.errAt (bankAddr b' o) = 1 then ((x.1.setErr (bankAddr b' o) 0, ingotCorr b' o x.2), v, false)
    else (x, v, false)
  | _ => (x, x.1.word a, false)

/-- The registers a station writes. -/
def Stn.dests (s : Stn) : List Nat :=
  if s.op = 0x26 then [] else if s.op = 0x22 ∨ s.op = 0x2B ∨ s.op = 0x2C then [s.d, s.d + 1] else [s.d]

/-- The station before position i that produces register n, plus 1; 0 where there is none (R273). -/
def linkNo (l : List Stn) (i : Nat) (n : Option Nat) : Nat :=
  match n with
  | none => 0
  | some r => ((List.range i).foldl (fun z j => match l[j]? with
      | some s => if s.dests.contains r then j + 1 else z
      | none => z) 0)

/-- Word 0 of the record of the station at position i (R273). -/
def stnWord0 (l : List Stn) (i : Nat) (s : Stn) : Nat :=
  2 ^ 31 + s.op * 2 ^ 25 + s.d * 2 ^ 21 + b2n s.r * 2 ^ 20 + s.sub * 2 ^ 17 + s.a.tag * 2 ^ 13 + s.b.tag * 2 ^ 9 +
    linkNo l i s.a.link * 32 + linkNo l i s.b.link * 2

/-- STATUS of R272. -/
def Core.status (c : Core) : Nat := (c.p / 2 * 2 + 1) % 256 * 256 + c.ipl % 16 * 16 + b2n c.ie * 4 + c.ring

/-- REPEAT of R272. -/
def repWord : Option Rep → Nat
  | none => 0
  | some r => 2 ^ 31 + b2n r.repn * 2 ^ 13 + r.left % 8192

/-- The words of offsets 0x000 to 0x067 of a task-state block; poison names registers saved with tag POISON. -/
def saveWords (c : Core) (pcS cause faddr : Nat) (fdata : Word) (stn : Nat) (poison : List Nat) : List (Nat × Nat) :=
  let tg := fun (n : Nat) => if poison.contains n then tPOISON else c.tag n
  let tags := fun (b : Nat) => (List.range 8).foldl (fun m i => m + tg (b + i) * 16 ^ i) 0
  ((List.range 16).map fun i => (4 * i, (c.wv i).toNat)) ++
    [(0x40, tags 0), (0x44, tags 8), (0x48, pcS), (0x4C, c.status), (0x50, c.ctxid % 65536 * 65536 + c.bk % 65536),
     (0x54, cause), (0x58, faddr), (0x5C, fdata.toNat), (0x60, repWord c.rep), (0x64, stn)]

/-- The words of the station records, with those of empty places 0 (R273). -/
def stnWords (l : List Stn) : List (Nat × Nat) :=
  (List.range 12).flatMap fun i =>
    match l[i]? with
    | some s => [(0x100 + 16 * i, stnWord0 l i s), (0x104 + 16 * i, if s.a.link.isSome then 0 else s.a.val.toNat),
        (0x108 + 16 * i, if s.b.link.isSome then 0 else s.b.val.toNat), (0x10C + 16 * i, 0)]
    | none => [(0x100 + 16 * i, 0), (0x104 + 16 * i, 0), (0x108 + 16 * i, 0), (0x10C + 16 * i, 0)]

/-- The 8-byte vector v: its handler and its ring, where it is valid and can be read (R268). Assumption 36 (DEDUCED). -/
def Dev.vector (m : Memory) (d : Dev) (k v : Nat) : Option (Nat × Nat) :=
  let a := d.fldIf (anvA ANV_VBASE k) ANV_VBASE_vbase * 1024 + 8 * v
  let w := fun (x : Nat) => match kindOf x with
    | .ingot b o 0 =>
      let b' := d.mirror k b
      if d.bankUp b' && m.errAt (bankAddr b' o) ≤ 1 && !d.flag (ING_BANK_STAT b') ING_BANK_STAT_march_busy then
        some (ingotData m d b' o) else none
    | .rom | .hprivate => if k = 18 then some (m.word x) else none
    | .ddr => if d.ddrUp && m.errAt (x / 8 * 8) ≤ 1 then some (m.word x) else none
    | .flash => some (m.word x)
    | _ => none
  match w a, w (a + 4) with
  | some w0, some w1 => if w1.toNat.testBit 31 then some (w0.toNat / 4 * 4, w1.toNat % 4) else none
  | _, _ => none

/-- What the read of the vector v leaves: an error in its words is corrected, or counted and recorded (R271, R291, R295). -/
def vectorTouch (k v : Nat) (x : MD) : MD :=
  let a := x.2.fldIf (anvA ANV_VBASE k) ANV_VBASE_vbase * 1024 + 8 * v
  match kindOf a with
  | .ingot b _ 0 => if x.2.bankUp (x.2.mirror k b) then (saveGet k (a + 4) (saveGet k a x).1).1 else x
  | .ddr =>
    if !x.2.ddrUp then x
    else match ddrRead a x.1 x.2 with
      | (m, d, _) => (m, ddrCount false [a] d)
  | _ => x

/-- One more entry: last_exc, the counts of ANV_EXC_CNT and the event sources (R283, R484). -/
def entryCount (k v : Nat) (isInt : Bool) (d : Dev) : Dev :=
  let d1 := d.setF (anvA ANV_CTL k) ANV_CTL_last_exc v
  let d2 := d1.incF (anvA ANV_EXC_CNT k) (if isInt then ANV_EXC_CNT_ints else ANV_EXC_CNT_excs)
  if k < 16 then evcCluster (k / 4) ((if isInt then 0x188 else 0x18C) + k % 4) d2
  else if k < 18 then evcDevice ((if isInt then 0x214 else 0x216) + (k - 16)) d2 else d2

/-- df of core k set, as CORE_STAT and ANV_CTL show it. -/
def setDf (k : Nat) (b : Bool) (d : Dev) : Dev :=
  (d.setB (anvA ANV_CTL k) ANV_CTL_df b).modCore k fun c => { c with df := b }

/-- DOUBLE_FAULT in place of entry v: the state goes to the emergency block and the handler of vector 1 runs in ring 0;
without a vector 1 the core enters LOCKOUT (R275, R276). -/
def doubleFault (k v pcS cause faddr : Nat) (fdata : Word) (x0 : MD) : MD :=
  let x := vectorTouch k 1 x0
  let c := x.2.core k
  match Dev.vector x0.1 x0.2 k 1 with
  | none => (x.1, anvLockout k 2 x.2)
  | some (h, _) =>
    let poison := c.stns.flatMap (·.dests)
    let ws := saveWords c pcS cause faddr fdata 0 poison ++ [(0x68, c.tsr), (0x70, c.tsr), (0x74, v)]
    let d1 := ws.foldl (fun d w => d.wr (anvA (fun i => ANV_EMB i (w.1 / 4)) k) (w32 w.2)) x.2
    let d2 := setDf k true (entryCount k 1 false d1)
    (x.1, d2.modCore k fun c => { c with
      pc := h, ring := 0, ie := false, tsr := mget 0 c.tsbp 0, stns := [], rep := none, monitor := none, waiting := false,
      mergeWait := false, inaWait := false, load := none, pfq := [] })

/-- The entry to vector v (R268, R271): lvl is the level of an interrupt. The state goes to the block that TSR names, the
LINK of the handler's block takes the old TSR, and the handler runs with ie clear. An exception while df = 1 locks the
core (R276). -/
def anvEnter (k v : Nat) (lvl : Option Nat) (pcS cause faddr : Nat) (fdata : Word) (x0 : MD) : MD :=
  let x := vectorTouch k v x0
  let c := x.2.core k
  if (x0.2.core k).df then (x0.1, anvLockout k 1 x0.2)
  else match Dev.vector x0.1 x0.2 k v with
    | none => doubleFault k v pcS cause faddr fdata x
    | some (h, vr) =>
      let hr := min vr c.ring
      let t := mget 0 c.tsbp hr
      if !x.2.blockOk k c.tsr hr || !x.2.blockOk k t hr || c.tsr == t then doubleFault k v pcS cause faddr fdata x
      else
        let ws := saveWords c pcS cause faddr fdata c.stns.length [] ++ stnWords c.stns
        let x1 := ws.foldl (fun y w => savePut k (c.tsr + w.1) (w32 w.2) y) x
        let x2 := savePut k (t + 0x68) (w32 c.tsr) x1
        (x2.1, (entryCount k v lvl.isSome x2.2).modCore k fun c => { c with
          pc := h, ring := hr, ie := false, ipl := lvl.getD c.ipl, tsr := t, stns := [], rep := none, monitor := none,
          waiting := false, mergeWait := false, inaWait := false, load := none, pfq := [] })

/-- A precise exception of core k saves the PC of its instruction (R269). -/
def anvExc (k n detail faddr : Nat) (fdata : Word) (x : MD) : MD :=
  anvEnter k n none (x.2.core k).pc (detail * 256 + n) faddr fdata x

/-- The held store failure is taken as LATE_STORE_ERROR with this PC saved (R270). Assumption 39 (DEDUCED). -/
def lateEntry (k : Nat) (x : MD) : MD :=
  let c := x.2.core k
  match c.late with
  | none => x
  | some (a, v, n) =>
    let x1 := (x.1, x.2.modCore k fun c => { c with late := none, lateOvf := false })
    anvEnter k 2 none c.pc (b2n c.lateOvf * 65536 + n * 256 + 2) a v x1

/-! ## Interrupts (R277, R278, R352) -/

/-- An axis has recorded a cause of response rank 1 or more. Assumption 29 (DEDUCED). -/
def Dev.axisIrq (d : Dev) (a : Nat) : Bool :=
  (List.range 32).any fun c => (d.rd (AXS_CAUSE_SEEN a)).toNat.testBit c && 1 ≤ d.effective a c (d.mapped a c)

/-- A pair flag of R315 for pair q: 0 chk_mis, 1 out_mis or lag, 2 switched or partner_lock. -/
def Dev.asyIrq (d : Dev) (q i : Nat) : Bool :=
  let f := fun x => d.flag (ASY_PAIR_STAT q) x
  match i with
  | 0 => f ASY_PAIR_STAT_chk_mis
  | 1 => f ASY_PAIR_STAT_out_mis || f ASY_PAIR_STAT_lag
  | _ => f ASY_PAIR_STAT_switched || f ASY_PAIR_STAT_partner_lock

/-- mis of either lane pair of cluster c. -/
def Dev.laneMis (d : Dev) (c : Nat) : Bool :=
  d.flag (ASY_LANE_STAT (c * 2)) ASY_LANE_STAT_mis || d.flag (ASY_LANE_STAT (c * 2 + 1)) ASY_LANE_STAT_mis

/-- Source s of the catalogue of cluster c asserts, for core k (R278). Assumption 65 (DESIGN CHOICE). -/
def Dev.clusterIrq (d : Dev) (k s : Nat) : Bool :=
  let c := k / 4
  if s < 0x20 then
    let t := c * 32 + s
    (d.fldIf (TMR_STAT t) TMR_STAT_match_a == 1 && d.flag (TMR_OUT t) TMR_OUT_ie_a) ||
      (d.fldIf (TMR_STAT t) TMR_STAT_match_b == 1 && d.flag (TMR_OUT t) TMR_OUT_ie_b) ||
      (d.fldIf (TMR_STAT t) TMR_STAT_ovf == 1 && d.flag (TMR_OUT t) TMR_OUT_ie_o)
  else if s < 0x30 then
    d.flag (FBK_CFG (c * 16 + (s - 0x20))) FBK_CFG_dir_irq && d.flag (FBK_STAT (c * 16 + (s - 0x20))) FBK_STAT_dir_chg
  else if s < 0x38 then
    d.flag (CHS_CTL (c * 8 + (s - 0x30))) CHS_CTL_ie && d.flag (CHS_STAT (c * 8 + (s - 0x30))) CHS_STAT_irq
  else if s < 0x48 then d.axisIrq (c * 16 + (s - 0x38))
  else if s < 0x4B then d.asyIrq (k / 2) (s - 0x48)
  else if s = 0x4B then d.laneMis c
  else if s = 0x4C then (d.cluster c).cwdtWarn
  else false

/-- A ring that exists is in error. -/
def Dev.ringErr (d : Dev) : Bool :=
  d.regs.entries.any fun e => LDL_RING_STAT 0 ≤ e.1 && e.1 < LDL_RING_STAT 4096 && e.1 % 0x20 == 0x10 && e.2.toNat.testBit 31

/-- Source s of the catalogue of the bench cores asserts (R352). Assumption 65 (DESIGN CHOICE). -/
def Dev.benchIrq (d : Dev) (s : Nat) : Bool :=
  if s = 0x00 then d.waits != []
  else if s = 0x01 then d.ringErr
  else if s = 0x02 then 128 ≤ d.fld LDL_GSTAT LDL_GSTAT_evt_lvl
  else if s = 0x03 then d.rd LDL_EVT_DROP != 0
  else if s < 0x07 then d.asyIrq 8 (s - 0x04)
  else if s = 0x08 then d.pcie.statSeen
  else if s = 0x09 then d.flag TCH_SUP_STAT TCH_SUP_STAT_vcore_warn || d.flag TCH_SUP_STAT TCH_SUP_STAT_vaux_warn
  else if s < 0x10 then false
  else if s < 0x14 then (List.range 16).any fun l => d.axisIrq ((s - 0x10) * 16 + l)
  else if s < 0x18 then (List.range 4).any fun j => d.locked ((s - 0x14) * 4 + j)
  else if s < 0x1C then
    d.laneMis (s - 0x18) || (List.range 3).any fun i => d.asyIrq ((s - 0x18) * 2) i || d.asyIrq ((s - 0x18) * 2 + 1) i
  else if s < 0x20 then false
  else if s < 0x28 then d.flag (SLD_STAT (s - 0x20)) SLD_STAT_att
  else if s < 0x2A then d.flag (SEM_PORT_STAT (s - 0x28)) SEM_PORT_STAT_att
  else if s = 0x2A then (List.range 8).any fun p => d.flag (CRU_PAIR_STAT p) CRU_PAIR_STAT_plausibility
  else if s = 0x2B then d.flag TCH_STAT TCH_STAT_new_rec
  else if s < 0x30 then false
  else if s < 0x40 then d.flag (EVC_CFG (64 + (s - 0x30))) EVC_CFG_thr_hit
  else false

/-- Interrupt input i of core k is pending (R277); level 0 disables it. -/
def Dev.inputPend (d : Dev) (k i : Nat) : Bool :=
  let g := ANV_INT_CFG k i
  k != 18 && d.fldIf g ANV_INT_CFG_level != 0 &&
    (if k < 16 then d.clusterIrq k (d.fldIf g ANV_INT_CFG_src) else d.benchIrq (d.fldIf g ANV_INT_CFG_src))

/-- The pending input of the highest level above ipl, the lowest number on a tie (R277). -/
def Dev.intBest (d : Dev) (k : Nat) : Option (Nat × Nat) :=
  (List.range 64).foldl (fun r i =>
    if d.inputPend k i then
      let l := d.fldIf (ANV_INT_CFG k i) ANV_INT_CFG_level
      if (d.core k).ipl < l then
        match r with
        | some (_, l') => if l' < l then some (i, l) else r
        | none => some (i, l)
      else r
    else r) none

/-- The 32 pending bits of a register. -/
def Dev.pendWord (d : Dev) (k base : Nat) : Word :=
  w32 ((List.range 32).foldl (fun m i => if d.inputPend k (base + i) then m + 2 ^ i else m) 0)

/-- Core k recognises an interrupt now (R257, R277, R310). -/
def Dev.intReady (d : Dev) (k : Nat) : Bool :=
  let c := d.core k
  c.ie && !c.df && !d.merging k && (d.intBest k).isSome && !(match c.rep with
    | some r => r.repn
    | none => false)

/-- INTERRUPT_RECOGNITION: the highest pending input above ipl is recognised and its entry runs, unless a held store
failure is taken first (R267, R271, R277). -/
def execInterruptRecognition (k : Fin 19) (s : State) : Out :=
  s.updB fun m d =>
    let k := k.val
    if !d.coreLive k || !d.intReady k || (d.core k).late.isSome then (m, d)
    else match d.intBest k with
      | some (i, l) => anvEnter k (32 + i) (some l) (d.core k).pc (32 + i) 0 0 (m, d)
      | none => (m, d)

/-- LATE_STORE_ERROR: a held store failure is taken at the next instruction boundary (R270), which a core in a MERGE
reaches at its end (R310). -/
def execLateStoreError (k : Fin 19) (s : State) : Out :=
  s.updB fun m d =>
    if d.coreLive k.val && (d.core k.val).load.isNone && !d.merging k.val then lateEntry k.val (m, d) else (m, d)

/-- WAIT_END: a pending input above ipl ends WAIT; with ie = 1 it is taken (R277). -/
def execWaitEnd (k : Fin 19) (s : State) : Out :=
  s.updB fun m d =>
    let k := k.val
    if !d.coreLive k || !(d.core k).waiting then (m, d)
    else match d.intBest k with
      | some (i, l) =>
        let d1 := d.modCore k fun c => { c with waiting := false }
        if d1.intReady k then anvEnter k (32 + i) (some l) (d1.core k).pc (32 + i) 0 0 (m, d1) else (m, d1)
      | none => (m, d)

/-! ## Watchdogs (R281, R282) -/

/-- The core watchdog reloads its full period (R281). -/
def wdtReload (k : Nat) (d : Dev) : Dev :=
  d.wr (anvA ANV_WDT_LEFT k) (w32 (d.fld (anvA ANV_WDT_CFG k) ANV_WDT_CFG_period * 1024))

/-- CORE_WDT_EXPIRY: the count has run out. The first expiry is WDT_WARN, after a held store failure and not inside a MERGE;
a second one without a kick is LOCKOUT (R267, R281, R310, R311). -/
def execCoreWdtExpiry (k : Fin 18) (s : State) : Out :=
  s.updB fun m d =>
    let k := k.val
    if !d.coreClock k || !d.flag (ANV_WDT_CFG k) ANV_WDT_CFG_en || d.coreHalted k || d.locked k ||
        d.rd (ANV_WDT_LEFT k) != 0 then (m, d)
    else if (d.core k).wdtOnce then (m, anvLockout k 3 d)
    else if d.merging k then (m, d)
    else
      let d1 := (wdtReload k (d.setB (ANV_WDT_CFG k) ANV_WDT_CFG_warned true)).modCore k fun c => { c with wdtOnce := true }
      if !d1.coreLive k then (m, d1)
      else
        let x := lateEntry k (m, d1)
        if x.2.locked k then x else anvEnter k 3 none (x.2.core k).pc 3 0 0 x

/-- The writer is core k, in any ring. -/
def writerIs (w : Writer) (k : Nat) : Bool :=
  match w with
  | .core j _ => j.val == k
  | _ => false

/-- A write of ANV_WDT_KICK: only the core's own 0x3C96 reloads; a write of another master is discarded, and one that is
not 0 sets lock_violation (R281, R507). -/
def anvKick (w : Writer) (k : Nat) (v : Word) (d : Dev) : Dev :=
  if writerIs w k then
    (if v.toNat % 65536 = 0x3C96 then (wdtReload k d).modCore k fun c => { c with wdtOnce := false } else d)
  else when (v.toNat % 65536 != 0) (lockBad (ANV_WDT_KICK k)) d

/-- ANV_WDT_KICK. -/
def execAnvWdtKick (w : Writer) (k : Fin 18) (v : Word) (s : State) : Out := s.upd (anvKick w k.val v)

/-- The cluster watchdog reloads: marks clear and the warning source drops (R282). -/
def cwdtReload (c : Nat) (d : Dev) : Dev :=
  (d.setF (ANV_CWDT_STAT c) ANV_CWDT_STAT_kicked 0).modCluster c fun x =>
    { x with cwdtLeft := d.fld (ANV_CWDT_CFG c) ANV_CWDT_CFG_period * 1024, cwdtWarn := false }

/-- CLUSTER_WDT_EXPIRY: the count has run out. Every non-retired axis of the cluster records CLUSTER_WDT, expired sets, an event is posted, and
the count reloads (R282). -/
def execClusterWdtExpiry (c : Fin 4) (s : State) : Out :=
  s.onCluster c.val fun d =>
    let c := c.val
    if !d.flag (ANV_CWDT_CFG c) ANV_CWDT_CFG_en || (d.cluster c).cwdtLeft != 0 then d
    else
      let d1 := upTo 16 (fun l x => recordCause (c * 16 + l) 0x0D x) d
      let d2 := postEvent (evOpen 9 3) (0x10 + c) c [] (d1.setB (ANV_CWDT_CFG c) ANV_CWDT_CFG_expired true)
      cwdtReload c d2

/-- CLUSTER_WDT_WARNING: half a period after a reload the warning source asserts (R282). -/
def execClusterWdtWarning (c : Fin 4) (s : State) : Out :=
  s.onCluster c.val fun d =>
    when (d.flag (ANV_CWDT_CFG c.val) ANV_CWDT_CFG_en &&
        decide ((d.cluster c.val).cwdtLeft ≤ d.fld (ANV_CWDT_CFG c.val) ANV_CWDT_CFG_period * 512))
      (·.modCluster c.val fun x => { x with cwdtWarn := true }) d

/-- A write of ANV_CWDT_KICK: a core of kick_mask marks itself, and with all of them marked the count reloads (R282). -/
def cwdtKick (w : Writer) (c : Nat) (v : Word) (d : Dev) : Dev :=
  match w with
  | .core j _ =>
    let mask := d.fld (ANV_CWDT_CFG c) ANV_CWDT_CFG_kick_mask
    if j.val / 4 = c ∧ v.toNat % 65536 = 0x3C96 ∧ mask.testBit (j.val % 4) then
      let n := setBit (d.fld (ANV_CWDT_STAT c) ANV_CWDT_STAT_kicked) (j.val % 4) true
      if n &&& mask = mask then cwdtReload c d else d.setF (ANV_CWDT_STAT c) ANV_CWDT_STAT_kicked n
    else d
  | _ => d

/-- ANV_CWDT_KICK. -/
def execAnvCwdtKick (w : Writer) (c : Fin 4) (v : Word) (s : State) : Out := s.onCluster c.val (cwdtKick w c.val v)

/-- A write of an ANV register (R283): en of a watchdog, once set, stays, and setting it loads the count. -/
def anvWrite (nm : RegName) (ix : List Nat) (w : Writer) (addr : Nat) (v : Word) (d : Dev) : Dev :=
  let i := ix.headD 0
  match nm with
  | .ANV_WDT_CFG =>
    let on := d.flag addr ANV_WDT_CFG_en
    let d1 := plainWrite w addr v d
    if on then d1.setB addr ANV_WDT_CFG_en true else when (d1.flag addr ANV_WDT_CFG_en) (wdtReload i) d1
  | .ANV_WDT_KICK => anvKick w i v d
  | .ANV_CWDT_CFG =>
    let on := d.flag addr ANV_CWDT_CFG_en
    let d1 := plainWrite w addr v d
    if on then d1.setB addr ANV_CWDT_CFG_en true else when (d1.flag addr ANV_CWDT_CFG_en) (cwdtReload i) d1
  | .ANV_CWDT_KICK => cwdtKick w i v d
  | _ => plainWrite w addr v d

end Sys2Proof.Machine
end

