-- ==== Sys2Proof/Machine/AnvAlu.lean ====
section
/-!
DEFINITION. The arithmetic of the Anvil cores (R241 to R260): the fields of an instruction word, reserved encodings, the
tag rules, the ALU, and what the side units compute, binary32 among it.
-/
namespace Sys2Proof.Machine

/-! ## Instruction words (R249) -/

def iwOp (w : Word) : Nat := bits w.toNat 27 22
def iwPg (w : Word) : Nat := bits w.toNat 31 29
def iwPn (w : Word) : Bool := bit w.toNat 28
def iwD (w : Word) : Nat := bits w.toNat 21 18
def iwA (w : Word) : Nat := bits w.toNat 17 14
def iwB (w : Word) : Nat := bits w.toNat 13 10
def iwR (w : Word) : Bool := bit w.toNat 9
def iwImm14 (w : Word) : Int := sx 14 (bits w.toNat 13 0)
def iwImm16 (w : Word) : Nat := bits w.toNat 15 0
/-- Predicates, condition and raw bit of formats C, CI and PL. -/
def iwPd (w : Word) : Nat := bits w.toNat 21 19
def iwCr (w : Word) : Bool := bit w.toNat 18
def iwCc (w : Word) : Nat := bits w.toNat 9 7
def iwCiCc (w : Word) : Nat := bits w.toNat 18 16
def iwCiA (w : Word) : Nat := bits w.toNat 15 12
def iwImm12 (w : Word) : Int := sx 12 (bits w.toNat 11 0)
def iwOff22 (w : Word) : Int := sx 22 (bits w.toNat 21 0)

/-- The instructions that byte mode excludes (R248). Assumption 36 (DEDUCED). -/
def byteExcluded (op : Nat) : Bool :=
  [0x30, 0x32, 0x1A, 0x1B, 0x23, 0x24, 0x25, 0x26, 0x27, 0x28, 0x2B, 0x2C, 0x22].contains op

/-- A field of an instruction word is reserved or unused and not 0 (R249, R250, R260). Assumption 36 (DEDUCED). -/
def iwReserved (w : Word) : Bool :=
  let n := w.toNat
  let z := fun (hi lo : Nat) => bits n hi lo != 0
  let op := iwOp w
  if op = 0x00 ∨ op = 0x2F then z 21 0
  else if op ≤ 0x0A then z 8 0
  else if op ≤ 0x0D then z 8 0 || z 13 10
  else if op ≤ 0x0F then z 17 6
  else if op ≤ 0x13 then false
  else if op ≤ 0x16 then z 13 5
  else if op = 0x17 then z 21 18 || z 12 12 || (if bit n 13 then z 11 0 else z 17 14)
  else if op ≤ 0x19 then z 17 16
  else if op = 0x1A then z 13 4 || (9 ≤ n % 16 && n % 16 ≤ 14)
  else if op = 0x1B then z 13 0
  else if op = 0x1C then z 6 0 || iwCc w == 7
  else if op = 0x1D then iwCiCc w == 7
  else if op = 0x1E then z 10 0
  else if op = 0x1F then z 21 2
  else if op = 0x20 then z 8 0
  else if op = 0x21 then z 8 0 || !iwR w
  else if op = 0x22 then z 8 0 || iwD w % 2 == 1
  else if op ≤ 0x25 then z 8 0
  else if op = 0x26 then z 6 0 || 3 < iwCc w
  else if op = 0x27 then z 13 3 || 6 ≤ n % 8
  else if op = 0x28 then z 8 0 || z 13 10
  else if op ≤ 0x2A then z 8 0
  else if op = 0x2B then z 8 0 || z 13 10 || iwD w == 15
  else if op = 0x2C then z 8 0 || iwD w == 15
  else if op = 0x2D then z 17 3
  else if op = 0x2E then z 21 8
  else if op ≤ 0x35 then bits n 17 16 == 3
  else if op = 0x36 then z 13 0
  else if op = 0x37 then z 9 0
  else if op = 0x38 then z 21 16
  else if op = 0x39 then z 21 12
  else if op ≤ 0x3B then false
  else if op = 0x3C then z 8 0 || z 13 10 || z 21 18
  else if op = 0x3D then z 21 2
  else if op = 0x3E then true
  else z 21 8

/-- The word raises UNDEF whatever its guard (R260). -/
def iwUndef (byteMode : Bool) (w : Word) : Bool := iwReserved w || (byteMode && byteExcluded (iwOp w))

/-- The operation applies to a REP (R256). -/
def repAccepts (op : Nat) : Bool :=
  !([0x3A, 0x3B, 0x3C, 0x39, 0x3D, 0x3F, 0x17, 0x1F, 0x0F, 0x2D, 0x2E, 0x2F, 0x36, 0x37].contains op)

/-- The operation applies to a REPN (R257). -/
def repnAccepts (op : Nat) : Bool :=
  (1 ≤ op && op ≤ 0x0D) || (0x10 ≤ op && op ≤ 0x16) || (0x18 ≤ op && op ≤ 0x1E) || op == 0x38

/-! ## The ALU (R247, R248) -/

/-- A value with its tag, or the number of an exception: 8 TAG_POISON, 9 TAG_TYPE. -/
abbrev Tagged := Nat ⊕ (Word × Nat)

/-- The tag of the result of an instruction class on two operand tags, as R247 lists the combinations; none for one it
does not list. -/
def pairTag (cls : Nat) (a b : Nat) : Option Nat :=
  match cls with
  | 0 => if a = b ∧ (a = 1 ∨ a = 2 ∨ a = 3 ∨ a = 5 ∨ a = 0) then some a
      else if (a = 6 ∧ b = 1) ∨ (a = 1 ∧ b = 6) then some 6 else none
  | 1 => if a = b ∧ (a = 1 ∨ a = 2 ∨ a = 3 ∨ a = 5 ∨ a = 0) then some a
      else if a = 6 ∧ b = 1 then some 6 else if a = 6 ∧ b = 6 then some 1 else none
  | 2 => if a = b ∧ (a = 1 ∨ a = 2 ∨ a = 3 ∨ a = 0) then some a else none
  | 3 => if a = b ∧ (a = 1 ∨ a = 8 ∨ a = 0) then some a else none
  | 4 => if (a = 1 ∨ a = 2 ∨ a = 3 ∨ a = 0) ∧ (b = 1 ∨ b = 0) then some a else none
  | _ => if (a = 1 ∨ a = 0) ∧ (b = 1 ∨ b = 0) then some a else none

/-- The checked tag of a pair: POISON first, then the combinations (R247). Assumption 36 (DEDUCED). -/
def checkPair (cls a b : Nat) : Nat ⊕ Nat :=
  if a = 15 ∨ b = 15 then .inl 8
  else match pairTag cls a b with
    | some t => .inr t
    | none => .inl 9

/-- The tag is a saturating number format. -/
def satTag (t : Nat) : Bool := t == 2 || t == 3

/-- An integer as a word: saturated, or wrapping. -/
def fitW (sat : Bool) (i : Int) : Word := if sat then wI (satI 32 i) else wI i

/-- The two-operand ALU operations on 32 bits: op as in the instruction word, sat says that the result saturates. -/
def aluOp (op : Nat) (sat : Bool) (a b : Word) : Word :=
  match op with
  | 0x01 => fitW sat (sgn a + sgn b)
  | 0x02 => fitW sat (sgn a - sgn b)
  | 0x03 => a &&& b
  | 0x04 => a ||| b
  | 0x05 => a ^^^ b
  | 0x06 => fitW sat (sgn a * 2 ^ (b.toNat % 32))
  | 0x07 => wI (asr (sgn a) (b.toNat % 32))
  | 0x08 => w32 (a.toNat >>> (b.toNat % 32))
  | 0x09 => if sgn a ≤ sgn b then a else b
  | 0x0A => if sgn a ≤ sgn b then b else a
  | 0x0B => a
  | 0x0C => fitW sat (-sgn a)
  | _ => fitW sat ((sgn a).natAbs)

/-- The ALU operations of byte mode: bits 7 to 0, the result zero-extended (R248). -/
def aluByte (op : Nat) (a b : Word) : Word :=
  let x := sx 8 (a.toNat % 256)
  let y := sx 8 (b.toNat % 256)
  let s := b.toNat % 8
  let r : Int := match op with
    | 0x01 => x + y
    | 0x02 => x - y
    | 0x03 => ((a &&& b).toNat % 256 : Nat)
    | 0x04 => ((a ||| b).toNat % 256 : Nat)
    | 0x05 => ((a ^^^ b).toNat % 256 : Nat)
    | 0x06 => x * 2 ^ s
    | 0x07 => asr x s
    | 0x08 => (a.toNat % 256 / 2 ^ s : Nat)
    | 0x09 => if x ≤ y then x else y
    | 0x0A => if x ≤ y then y else x
    | 0x0B => x
    | 0x0C => -x
    | _ => (x.natAbs : Nat)
  w32 (wrapN 8 r)

/-- The class of R247's table for an ALU operation. -/
def aluClass (op : Nat) : Nat :=
  match op with
  | 0x01 => 0
  | 0x02 => 1
  | 0x09 | 0x0A => 2
  | 0x03 | 0x04 | 0x05 => 3
  | 0x06 | 0x07 => 4
  | _ => 5

/-- A two-operand ALU instruction (R247, R248). -/
def alu2 (op : Nat) (byte r : Bool) (a b : Word) (ta tb : Nat) : Tagged :=
  if byte then .inr (aluByte op a b, 0)
  else if r then .inr (aluOp op false a b, 0)
  else match checkPair (aluClass op) ta tb with
    | .inl n => .inl n
    | .inr t => .inr (aluOp op (satTag t && (op == 0x01 || op == 0x02 || op == 0x06)) a b, t)

/-- MOV, NEG and ABS (R247). -/
def alu1 (op : Nat) (byte r : Bool) (a : Word) (ta : Nat) : Tagged :=
  if byte then .inr (aluByte op a 0, 0)
  else if r then .inr (aluOp op false a 0, 0)
  else if op = 0x0B then .inr (a, ta)
  else if ta = 15 then .inl 8
  else if ta = 1 ∨ ta = 2 ∨ ta = 3 ∨ ta = 0 ∨ (ta = 5 ∧ op = 0x0C) then .inr (aluOp op (satTag ta) a 0, ta)
  else .inl 9

/-- The tag an immediate takes beside a register of this tag (R247). -/
def immTag (ta : Nat) : Nat := if ta = 6 then 1 else ta

/-- A condition on two words in w bits (R249). -/
def condOn (cc w : Nat) (a b : Nat) : Bool :=
  match cc with
  | 0 => a == b
  | 1 => a != b
  | 2 => decide (sx w a < sx w b)
  | 3 => decide (sx w b ≤ sx w a)
  | 4 => decide (a < b)
  | 5 => decide (b ≤ a)
  | _ => a &&& b != 0

/-- CMP and CMPI: the predicate, or an exception (R247 to R249). -/
def cmpTagged (byte r : Bool) (cc : Nat) (a b : Word) (ta tb : Nat) : Nat ⊕ Bool :=
  if byte then .inr (condOn cc 8 (a.toNat % 256) (b.toNat % 256))
  else if r then .inr (condOn cc 32 a.toNat b.toNat)
  else if ta = 15 ∨ tb = 15 then .inl 8
  else if ta ≠ tb ∨ ta = 4 then .inl 9
  else .inr (condOn cc 32 a.toNat b.toNat)

/-! ## Binary32 (R255) -/

/-- A binary32 number taken apart: NaN (signalling or not), infinity, or a finite number as sign, integer and exponent of
two; subnormals are zero with their sign. -/
inductive Fp where
  | nan (signalling : Bool)
  | inf (neg : Bool)
  | fin (neg : Bool) (m : Nat) (e : Int)
deriving DecidableEq, Repr

/-- A word as binary32. -/
def fpOf (w : Word) : Fp :=
  let n := w.toNat
  let neg := bit n 31
  let ex := bits n 30 23
  let f := bits n 22 0
  if ex = 255 then (if f = 0 then .inf neg else .nan (!bit n 22))
  else if ex = 0 then .fin neg 0 0
  else .fin neg (f + 2 ^ 23) ((ex : Int) - 150)

/-- The quiet NaN of R255. -/
def fpNan : Word := 0x7FC00000

/-- Infinity. -/
def fpInf (neg : Bool) : Word := w32 (b2n neg * 2 ^ 31 + 255 * 2 ^ 23)

/-- Zero. -/
def fpZero (neg : Bool) : Word := w32 (b2n neg * 2 ^ 31)

/-- n rounded to nearest even after division by 2^s; rest says that more follows below n. -/
def rne (n s : Nat) (rest : Bool) : Nat :=
  let q := n / 2 ^ s
  let r := n % 2 ^ s
  if s = 0 then q
  else
    let half := 2 ^ (s - 1)
    if half < r ∨ (r = half ∧ (rest ∨ q % 2 = 1)) then q + 1 else q

/-- ±n × 2^e as binary32, to nearest even; subnormal results become zero. The flag tells an overflow.
Assumption 36 (DEDUCED). -/
def fpRound (neg : Bool) (n : Nat) (e : Int) (rest : Bool) : Word × Bool :=
  if n = 0 then (fpZero neg, false)
  else
    let l := n.log2 + 1
    let m0 := if l < 24 then n * 2 ^ (24 - l) else rne n (l - 24) rest
    let e0 : Int := e + (l : Int) - 24
    let m := if m0 = 2 ^ 24 then 2 ^ 23 else m0
    let e1 := if m0 = 2 ^ 24 then e0 + 1 else e0
    let ex := e1 + 150
    if 255 ≤ ex then (fpInf neg, true)
    else if ex ≤ 0 then (fpZero neg, false)
    else (w32 (b2n neg * 2 ^ 31 + ex.toNat * 2 ^ 23 + (m - 2 ^ 23)), false)

/-- The result of a side unit: its words by place after d, its tags, the SUERR bits it sets, and for FCMP the
predicate. -/
structure SideRes where
  vals : List (Word × Nat)
  err : Nat
  pred : Option Bool
deriving DecidableEq, Repr

/-- A binary32 result: bit 3 invalid, bit 4 overflow. Assumption 36 (DEDUCED). -/
def fpRes (v : Word) (err tag : Nat) : SideRes := ⟨[(v, tag)], err, none⟩

/-- a + b, with sub the difference (R255). -/
def fpAdd (sub : Bool) (x y : Word) (tag : Nat) : SideRes :=
  match fpOf x, fpOf y with
  | .nan s, .nan t => fpRes fpNan (if s || t then 8 else 0) tag
  | .nan s, _ => fpRes fpNan (if s then 8 else 0) tag
  | _, .nan s => fpRes fpNan (if s then 8 else 0) tag
  | .inf a, .inf b => if a = (b != sub) then fpRes (fpInf a) 0 tag else fpRes fpNan 8 tag
  | .inf a, _ => fpRes (fpInf a) 0 tag
  | _, .inf b => fpRes (fpInf (b != sub)) 0 tag
  | .fin a m e, .fin b n f =>
    let b' := b != sub
    let lo := min e f
    let i : Int := (if a then -1 else 1) * (m * 2 ^ (e - lo).toNat : Nat) + (if b' then -1 else 1) * (n * 2 ^ (f - lo).toNat : Nat)
    if i = 0 then fpRes (fpZero (a && b')) 0 tag
    else
      let r := fpRound (decide (i < 0)) i.natAbs lo false
      fpRes r.1 (if r.2 then 16 else 0) tag

/-- a × b (R255). -/
def fpMul (x y : Word) (tag : Nat) : SideRes :=
  match fpOf x, fpOf y with
  | .nan s, .nan t => fpRes fpNan (if s || t then 8 else 0) tag
  | .nan s, _ => fpRes fpNan (if s then 8 else 0) tag
  | _, .nan s => fpRes fpNan (if s then 8 else 0) tag
  | .inf a, .inf b => fpRes (fpInf (a != b)) 0 tag
  | .inf a, .fin b n _ => if n = 0 then fpRes fpNan 8 tag else fpRes (fpInf (a != b)) 0 tag
  | .fin a m _, .inf b => if m = 0 then fpRes fpNan 8 tag else fpRes (fpInf (a != b)) 0 tag
  | .fin a m e, .fin b n f =>
    let r := fpRound (a != b) (m * n) (e + f) false
    fpRes r.1 (if r.2 then 16 else 0) tag

/-- a / b (R255). -/
def fpDiv (x y : Word) (tag : Nat) : SideRes :=
  match fpOf x, fpOf y with
  | .nan s, .nan t => fpRes fpNan (if s || t then 8 else 0) tag
  | .nan s, _ => fpRes fpNan (if s then 8 else 0) tag
  | _, .nan s => fpRes fpNan (if s then 8 else 0) tag
  | .inf _, .inf _ => fpRes fpNan 8 tag
  | .inf a, .fin b _ _ => fpRes (fpInf (a != b)) 0 tag
  | .fin a _ _, .inf b => fpRes (fpZero (a != b)) 0 tag
  | .fin a m e, .fin b n f =>
    if n = 0 then (if m = 0 then fpRes fpNan 8 tag else fpRes (fpInf (a != b)) 16 tag)
    else
      let r := fpRound (a != b) (m * 2 ^ 60 / n) (e - f - 60) (m * 2 ^ 60 % n != 0)
      fpRes r.1 (if r.2 then 16 else 0) tag

/-- The square root (R255): of a negative number a quiet NaN with bit 1 and tag POISON. -/
def fpSqrt (x : Word) (poison tag : Nat) : SideRes :=
  match fpOf x with
  | .nan s => fpRes fpNan (if s then 8 else 0) tag
  | .inf false => fpRes (fpInf false) 0 tag
  | .inf true => fpRes fpNan 2 poison
  | .fin a m e =>
    if m = 0 then fpRes (fpZero a) 0 tag
    else if a then fpRes fpNan 2 poison
    else
      let k : Nat := if e % 2 = 0 then 60 else 61
      let v := m * 2 ^ k
      let q := isqrt v
      fpRes (fpRound false q ((e - k) / 2) (q * q != v)).1 0 tag

/-- The comparison of two numbers: none where they are unordered. -/
def fpCmp (x y : Fp) : Option Ordering :=
  match x, y with
  | .nan _, _ | _, .nan _ => none
  | .inf a, .inf b => some (if a = b then .eq else if a then .lt else .gt)
  | .inf a, _ => some (if a then .lt else .gt)
  | _, .inf b => some (if b then .gt else .lt)
  | .fin a m e, .fin b n f =>
    let lo := min e f
    let i : Int := (if a then -1 else 1) * (m * 2 ^ (e - lo).toNat : Nat) - (if b then -1 else 1) * (n * 2 ^ (f - lo).toNat : Nat)
    some (if i = 0 then .eq else if i < 0 then .lt else .gt)

/-- FCMP: EQ, NE, LT, GE; unordered operands make NE true and the others false; a signalling NaN, or any NaN under LT
and GE, is an invalid operation (R249, R255). -/
def fpCompare (cc : Nat) (x y : Word) : SideRes :=
  let a := fpOf x
  let b := fpOf y
  let sig := a == .nan true || b == .nan true
  let unord := fpCmp a b == none
  let p := match cc, fpCmp a b with
    | 0, some o => o == .eq
    | 1, some o => o != .eq
    | 1, none => true
    | 2, some o => o == .lt
    | 3, some o => o != .lt
    | _, _ => false
  ⟨[], if sig || (unord && 2 ≤ cc) then 8 else 0, some p⟩

/-- A number to an integer of 2^-sh, to nearest even; out of range it saturates, a NaN gives 0, both with bit 5 and tag
POISON (R255). -/
def fpToFix (sh : Nat) (x : Word) (poison tag : Nat) : SideRes :=
  match fpOf x with
  | .nan _ => ⟨[(0, poison)], 32, none⟩
  | .inf neg => ⟨[(if neg then 0x80000000 else 0x7FFFFFFF, poison)], 32, none⟩
  | .fin neg m e =>
    let f := e + sh
    let n : Nat := if 0 ≤ f then m * 2 ^ (min f 64).toNat else rne m (min (-f) 64).toNat false
    let i : Int := if neg then -(n : Int) else n
    if satI 32 i = i then ⟨[(wI i, tag)], 0, none⟩ else ⟨[(wI (satI 32 i), poison)], 32, none⟩

/-- An integer of 2^-sh as binary32. -/
def fpOfFix (sh : Nat) (i : Int) (tag : Nat) : SideRes :=
  fpRes (fpRound (decide (i < 0)) i.natAbs (-(sh : Int)) false).1 0 tag

/-! ## Side units (R247, R253, R255) -/

/-- The tags a side-unit instruction gives its destinations, or the exception its operand tags raise (R247): op, raw bit,
sub-function, operand tags, and the tags of the accumulator pair. Assumption 36 (DEDUCED). -/
def sideTags (op : Nat) (byte r : Bool) (sub ta tb td td1 : Nat) : Nat ⊕ List Nat :=
  if byte ∨ r then .inr (if op = 0x22 ∨ op = 0x2B ∨ op = 0x2C then [0, 0] else if op = 0x26 then [] else [0])
  else if op = 0x28 ∨ op = 0x2B ∨ op = 0x27 then
    if ta = 15 then .inl 8
    else if op = 0x28 then (if ta = 1 ∨ ta = 2 ∨ ta = 4 then .inr [ta] else .inl 9)
    else if op = 0x2B then (if ta = 5 then .inr [3, 3] else .inl 9)
    else match sub, ta with
      | 0, 1 | 1, 2 | 4, 3 => .inr [4]
      | 2, 4 => .inr [1]
      | 3, 4 => .inr [2]
      | 5, 4 => .inr [3]
      | _, _ => .inl 9
  else if ta = 15 ∨ tb = 15 ∨ (op = 0x22 ∧ (td = 15 ∨ td1 = 15)) then .inl 8
  else match op with
    | 0x20 =>
      if ta = tb ∧ (ta = 1 ∨ ta = 2 ∨ ta = 3 ∨ ta = 0) then .inr [ta]
      else if (ta = 2 ∧ tb = 1) ∨ (ta = 1 ∧ tb = 2) then .inr [2]
      else if ta = 3 ∧ tb = 1 then .inr [3]
      else if ta = 5 ∧ tb = 1 then .inr [5] else .inl 9
    | 0x22 => if ta = tb ∧ (ta = 1 ∨ ta = 3 ∨ ta = 0) ∧ td = 0 ∧ td1 = 0 then .inr [0, 0] else .inl 9
    | 0x29 => if ta = tb ∧ (ta = 1 ∨ ta = 2 ∨ ta = 3 ∨ ta = 4) then .inr [ta]
      else if ta = 2 ∧ tb = 1 then .inr [2] else .inl 9
    | 0x2A => if ta = 1 ∧ tb = 1 then .inr [1] else .inl 9
    | 0x2C => if ta = tb ∧ (ta = 1 ∨ ta = 2 ∨ ta = 3) then .inr [5, ta] else .inl 9
    | 0x26 => if ta = 4 ∧ tb = 4 then .inr [] else .inl 9
    | _ => if ta = 4 ∧ tb = 4 then .inr [4] else .inl 9

/-- An integer result: saturated with bit 2 where it does not fit (R255). -/
def satRes (i : Int) (tag : Nat) : SideRes := ⟨[(wI (satI 32 i), tag)], if satI 32 i = i then 0 else 4, none⟩

/-- What a side unit computes from its operands (values and tags); acc is the accumulator pair of MAC, and the free
values f and g choose among results whose error the spec bounds (R250, R253, R255). Assumptions 21, 36 (DEDUCED). -/
def sideCalc (op : Nat) (byte r : Bool) (sub : Nat) (a b : Word) (ta tb : Nat) (acc : Nat) (f g : Nat) : SideRes :=
  let x := sgn a
  let y := sgn b
  let typed := !byte && !r
  let poison := if typed then 15 else 0
  match op with
  | 0x20 =>
    if byte then ⟨[(w32 (a.toNat % 256 * (b.toNat % 256)), 0)], 0, none⟩
    else if r ∨ (ta = tb ∧ (ta = 1 ∨ ta = 0)) then ⟨[(wI (x * y), if r then 0 else ta)], 0, none⟩
    else if ta = 5 then ⟨[(wI (x * y), 5)], 0, none⟩
    else if ta = 2 ∧ tb = 2 then satRes (asrRound (x * y) 16) 2
    else if ta = 3 ∧ tb = 3 then satRes (asrRound (x * y) 31) 3
    else satRes (x * y) (if ta = 3 then 3 else 2)
  | 0x21 => ⟨[(wI (asr (x * y) 32), 0)], 0, none⟩
  | 0x22 =>
    let n := wrapN 64 ((acc : Int) + x * y)
    ⟨[(w32 n, 0), (w32 (n / 2 ^ 32), 0)], 0, none⟩
  | 0x23 => fpAdd false a b (if typed then 4 else 0)
  | 0x24 => fpAdd true a b (if typed then 4 else 0)
  | 0x25 => fpMul a b (if typed then 4 else 0)
  | 0x26 => fpCompare sub a b
  | 0x27 =>
    match sub with
    | 0 => fpOfFix 0 x 4
    | 1 => fpOfFix 16 x 4
    | 2 => fpToFix 0 a poison 1
    | 3 => fpToFix 16 a poison 2
    | 4 => fpOfFix 31 x 4
    | _ => fpToFix 31 a poison 3
  | 0x28 =>
    if typed ∧ ta = 4 then fpSqrt a poison 4
    else if typed ∧ ta = 2 then
      (if x < 0 then ⟨[(0, poison)], 2, none⟩ else ⟨[(w32 (isqrt (a.toNat * 2 ^ 16)), 2)], 0, none⟩)
    else ⟨[(w32 (isqrt a.toNat), if typed then 1 else 0)], 0, none⟩
  | 0x29 =>
    if typed ∧ ta = 4 then fpDiv a b 4
    else if y = 0 then ⟨[(if 0 ≤ x then 0x7FFFFFFF else 0x80000000, poison)], 1, none⟩
    else if typed ∧ ta = 2 ∧ tb = 2 then satRes (Int.tdiv (x * 2 ^ 16) y) 2
    else if typed ∧ ta = 3 then satRes (Int.tdiv (x * 2 ^ 31) y) 3
    else if typed then satRes (Int.tdiv x y) ta
    else ⟨[(wI (Int.tdiv x y), 0)], 0, none⟩
  | 0x2A =>
    if y = 0 then ⟨[(0, poison)], 1, none⟩ else ⟨[(wI (Int.tmod x y), if typed then 1 else 0)], 0, none⟩
  | 0x2B =>
    let t := trigAng a.toNat
    let n := fun (v : Int) (z : Nat) => wI (satI 32 (openNear (v * 2 ^ 31) 4 z))
    ⟨[(n t.1 f, if typed then 3 else 0), (n t.2 g, if typed then 3 else 0)], 0, none⟩
  | _ =>
    let ang := if x = 0 ∧ y = 0 then w32 f else wI (openNear (angleQ x y) 8 f)
    let m := openNear (magQ x y) 4 g
    if typed then ⟨[(ang, 5), (wI (satI 32 (max 0 m)), ta)], if satI 32 m = m then 0 else 4, none⟩
    else ⟨[(ang, 0), (wI (max 0 m), 0)], 0, none⟩

end Sys2Proof.Machine
end

