-- ==== Sys2Proof/Machine/Gpio.lean ====
section
/-!
DEFINITION. The GPIO balls of the clusters (R203, R213): what the device drives them with, the synchroniser through which
TMR_GPIO_IN, the timers and the engines see a ball, and the edges that an engine waits for (R216).
-/
namespace Sys2Proof.Machine

/-- The cluster of an engine. -/
def egCl (e : Nat) : Nat := e / 8

/-- The engine runs. -/
def Dev.egOn (d : Dev) (e : Nat) : Bool := d.fldIf (CHS_CTL e) CHS_CTL_en == 1

/-- hold is set. -/
def Dev.egHold (d : Dev) (e : Nat) : Bool := d.fldIf (CHS_CTL e) CHS_CTL_hold == 1

/-- The WAITEDGE that engine e waits in. -/
def Dev.atEdge (d : Dev) (e : Nat) : Option Nat :=
  match (d.eng e).ir with
  | some w => if w / 2 ^ 20 = 3 ∧ d.egOn e = true ∧ d.egHold e = false then some w else none
  | none => none

/-- Pin p of engine e carries the bit clock (R213). -/
def Dev.isClkPin (d : Dev) (e p : Nat) : Bool :=
  d.flag (CHS_PIN_CFG e) CHS_PIN_CFG_clk_en && d.fld (CHS_PIN_CFG e) CHS_PIN_CFG_clk_pin == p

/-- The level of output pin p of engine e: between bits the bit clock stands at its idle level (R213, R217). -/
def Dev.pinOut (d : Dev) (e p : Nat) : Bool :=
  if d.isClkPin e p then (d.fld (CHS_PIN_CFG e) CHS_PIN_CFG_idle).testBit p else (d.eng e).pins.testBit p

/-- The ball that pin p of engine e reaches (R213). -/
def Dev.pinBall (d : Dev) (e p : Nat) : Option Nat :=
  (List.range 16).find? fun n =>
    d.fldIf (TMR_GPIO_CFG (egCl e) n) TMR_GPIO_CFG_func == 4 &&
      d.fldIf (TMR_GPIO_CFG (egCl e) n) TMR_GPIO_CFG_idx == e % 8 * 4 + p

/-- The level that the device drives ball n of cluster c with; none where it leaves the ball to the outside (R203). -/
def Dev.ballDrives (d : Dev) (c n : Nat) : Option Bool :=
  let r := TMR_GPIO_CFG c n
  let i := d.fldIf r TMR_GPIO_CFG_idx
  match d.fldIf r TMR_GPIO_CFG_func with
  | 0 => if d.fldIf r TMR_GPIO_CFG_oe = 1 then some ((d.fld (TMR_GPIO_OUT c) TMR_GPIO_OUT_out).testBit n) else none
  | 1 => some (d.flag (TMR_STAT (c * 32 + i)) TMR_STAT_out)
  | 2 => some (d.fbk (c * 16 + n)).rscHigh
  | 3 =>
    let x := d.enc (c * 4 + n / 3)
    some (if n % 3 = 0 then x.ballA else if n % 3 = 1 then x.ballB else x.ballZ)
  | 4 =>
    let e := c * 8 + i / 4
    if (d.fld (CHS_PIN_CFG e) CHS_PIN_CFG_dir).testBit (i % 4) then some (d.pinOut e (i % 4)) else none
  | _ => none

/-- The synchronised level of ball n, as TMR_GPIO_IN reads it (R203). -/
def Dev.ballIn (d : Dev) (c n : Nat) : Bool := (d.fld (TMR_GPIO_IN c) TMR_GPIO_IN_in).testBit n

/-- The input level of pin p: that of the ball it reaches, else 0 (R213). -/
def Dev.pinIn (d : Dev) (e p : Nat) : Bool :=
  match d.pinBall e p with
  | some n => d.ballIn (egCl e) n
  | none => false

/-- A level received on pin p of engine e, where b is what stands outside: 0 where the pin reaches no ball, and the ball's
own level where the device drives it (R213). -/
def Dev.pinBit (d : Dev) (e p : Nat) (b : Bool) : Bool :=
  match d.pinBall e p with
  | some n => if (d.ballDrives (egCl e) n).isSome then d.ballIn (egCl e) n else b
  | none => false

/-- The device drives ball n of cluster c to a level: a change enters the synchroniser (R203). -/
def ballNote (c n : Nat) (lv : Bool) (d : Dev) : Dev :=
  let q := (d.cluster c).sync
  let last := (((q.filter fun x => x.1 == n).map fun x => x.2.1).getLast?).getD (d.ballIn c n)
  if last = lv then d else d.modCluster c fun x => { x with sync := x.sync ++ [(n, lv, d.now)] }

/-- The levels that the device drives the balls of cluster c with enter the synchroniser. -/
def ballsNote (c : Nat) (d : Dev) : Dev :=
  upTo 16 (fun n x =>
    match x.ballDrives c n with
    | some lv => ballNote c n lv x
    | none => x) d

/-- Pin p of engine e is driven to a level within an instruction. -/
def pinNote (e p : Nat) (lv : Bool) (d : Dev) : Dev :=
  if !(d.fld (CHS_PIN_CFG e) CHS_PIN_CFG_dir).testBit p then d
  else match d.pinBall e p with
    | some n => ballNote (egCl e) n lv d
    | none => d

/-- An edge of ball b is seen by every engine of cluster c that waits in a WAITEDGE for it (R216). -/
def edgeSeen (c b : Nat) (rising : Bool) (d : Dev) : Dev :=
  upTo 8 (fun i x =>
    let e := c * 8 + i
    match x.atEdge e with
    | some w =>
      when (x.pinBall e (bits w 15 14) == some b && (bits w 13 12).testBit (if rising then 0 else 1))
        (·.modEng e fun y => { y with edge := true }) x
    | none => x) d

end Sys2Proof.Machine
end

