-- ==== Sys2Proof/Machine/Timers.lean ====
section
/-!
DEFINITION. Chapter "General timers and linked counters" (R196 to R211).
-/
namespace Sys2Proof.Machine

/-! ## A timer's settings -/

/-- The cluster of a timer. -/
def tmCl (t : Nat) : Nat := t / 32

/-- The timer is the high half of a linked pair (R204). -/
def Dev.tmIsHigh (d : Dev) (t : Nat) : Bool := t % 2 == 1 && d.flag (TMR_CFG (t - 1)) TMR_CFG_link

/-- The timer is the low half of a linked pair. -/
def Dev.tmIsLow (d : Dev) (t : Nat) : Bool := t % 2 == 0 && d.flag (TMR_CFG t) TMR_CFG_link

/-- Match A of the timer compares 64 bits (R206). -/
def Dev.tmWide (d : Dev) (t : Nat) : Bool := d.tmIsLow t && d.flag (TMR_CFG t) TMR_CFG_cmp64

/-- A field of TMR_CFG; a timer that was never written is disabled. -/
def Dev.tmCfg (d : Dev) (t : Nat) (f : Fld) : Nat := d.fldIf (TMR_CFG t) f

/-- The gate of a timer is open: for every role but GATE; with GATE as its level says (R200). -/
def Dev.tmGate (d : Dev) (t : Nat) : Bool :=
  if d.tmCfg t TMR_CFG_irole ≠ 1 then true
  else
    let m := d.tmCfg t TMR_CFG_imst
    match d.tmCfg t TMR_CFG_isel with
    | 1 => d.flag (TMR_STAT (tmCl t * 32 + m)) TMR_STAT_out
    | 2 => (d.fld (TMR_GPIO_IN (tmCl t)) TMR_GPIO_IN_in).testBit m
    | 3 => !(d.fld (TMR_GPIO_IN (tmCl t)) TMR_GPIO_IN_in).testBit m
    | _ => true

/-- The timer counts: en, run and an open gate; the high half of a pair counts carries only (R196, R204). -/
def Dev.tmCounts (d : Dev) (t : Nat) : Bool :=
  d.tmCfg t TMR_CFG_en == 1 && d.tmCfg t TMR_CFG_run == 1 && d.tmGate t

/-- The timer counts prescaled ccyc. -/
def Dev.tmFree (d : Dev) (t : Nat) : Bool := d.tmCounts t && d.tmCfg t TMR_CFG_irole != 6 && !d.tmIsHigh t

/-- The timers of cluster c that have been configured. -/
def Dev.tmListed (d : Dev) (c : Nat) : List Nat :=
  (List.range 32).map (c * 32 + ·) |>.filter fun t => d.tmCfg t TMR_CFG_en == 1

/-- gate_open of every timer of cluster c as it now stands. -/
def tmGates (c : Nat) (d : Dev) : Dev :=
  ((List.range 32).map (c * 32 + ·)).foldl (fun x t =>
    if d.tmCfg t TMR_CFG_irole = 1 then x.setB (TMR_STAT t) TMR_STAT_gate_open (x.tmGate t) else x) d

/-- The count of a timer. -/
def Dev.tmCnt (d : Dev) (t : Nat) : Nat := (d.rd (TMR_CNT t)).toNat

/-- The count set. -/
def Dev.tmSet (d : Dev) (t n : Nat) : Dev := d.wr (TMR_CNT t) (w32 n)

/-- The count after an increment: from top or above 0, with an overflow (R197). -/
def Dev.tmNext (d : Dev) (t : Nat) : Nat := if (d.rd (TMR_TOP t)).toNat ≤ d.tmCnt t then 0 else d.tmCnt t + 1

/-- The high half of a linked pair with low half t, a carry on its way included: the carry guard (R205). -/
def Dev.tmHigh (d : Dev) (t : Nat) : Nat := if (d.tmr t).carry then d.tmNext (t + 1) else d.tmCnt (t + 1)

/-- The 64-bit carry-guarded count of a linked pair with low half t (R205, R206). -/
def Dev.tmCnt64 (d : Dev) (t : Nat) : Nat := d.tmCnt t + d.tmHigh t * 2 ^ 32

/-- The 64-bit compare value of a linked pair. -/
def Dev.tmCmp64 (d : Dev) (t : Nat) : Nat := (d.rd (TMR_CMPA t)).toNat + (d.rd (TMR_CMPA (t + 1))).toNat * 2 ^ 32

/-! ## Events of a timer (R197 to R206) -/

/-- The events of a timer in one ccyc: overflow, matches A and B, whether each match is late, and whether opm leaves run set
(R198, R208). -/
structure TmEv where
  o : Bool
  a : Bool
  b : Bool
  lateA : Bool
  lateB : Bool
  stay : Bool
deriving DecidableEq, Repr

/-- What happens to a timer in one ccyc: its overflow and matches, or an increment, or an event on its input. -/
inductive TmAct where
  | fire (t : Nat) (e : TmEv)
  | inc (t : Nat)
  | input (t : Nat)
deriving DecidableEq, Repr

/-- The output level after an action: 1 set, 2 clear, 3 toggle (R202). -/
def outAct (act : Nat) (b : Bool) (level : Bool) : Bool :=
  if !b then level else match act with
    | 1 => true
    | 2 => false
    | 3 => !level
    | _ => level

/-- The timers that take the events (overflow o, match A a, match B b) of timer t as direct master events (R199, R201). -/
def Dev.tmSlaves (d : Dev) (t : Nat) (o a b : Bool) : List TmAct :=
  ((d.tmListed (tmCl t)).filter fun u =>
    d.tmCfg u TMR_CFG_isel == 1 && d.tmCfg u TMR_CFG_imst == t % 32 &&
      (match d.tmCfg u TMR_CFG_ievt with
       | 0 => a
       | 1 => b
       | 2 => o
       | _ => false)).map .input

/-- Overflow and matches of one ccyc: flags, the output level, one pulse of the Flux source, opm, and the events to other
timers (R197, R198, R201, R202, R208). -/
def tmFire (t : Nat) (e : TmEv) (d : Dev) : Dev × List TmAct :=
  let o := e.o
  let a := e.a
  let b := e.b
  let st := TMR_STAT t
  let out := TMR_OUT t
  let set := fun (c : Bool) (f : Fld) => when c (·.setB st f true)
  let d1 := set (b && e.lateB) TMR_STAT_late_b (set (a && e.lateA) TMR_STAT_late_a (set b TMR_STAT_match_b
    (set a TMR_STAT_match_a (set o TMR_STAT_ovf d))))
  let lv := outAct (d.fld out TMR_OUT_act_b) b (outAct (d.fld out TMR_OUT_act_a) a
    (outAct (d.fld out TMR_OUT_act_o) o (d.flag st TMR_STAT_out)))
  let d2 := tmGates (tmCl t) (d1.setB st TMR_STAT_out lv)
  let pulse := match d.fld out TMR_OUT_fsrc with
    | 0 => a
    | 1 => b
    | 2 => o
    | _ => a || b || o
  let d3 := when pulse (fluxFire (tmCl t) (0xA0 + t % 32)) d2
  let d4 := when (o && d.tmCfg t TMR_CFG_opm == 1 && !e.stay && (d.tmr t).startAt != some d.now)
    (·.setB (TMR_CFG t) TMR_CFG_run false) d3
  (d4, d.tmSlaves t o a b)

/-- An increment of timer t, and its events where it has any: from top or above it yields 0 and overflows, with a carry to a
linked high half; a compare matches where it makes the count equal (R197, R198, R204, R206). -/
def tmCount (t : Nat) (d : Dev) : Dev × Option TmHit :=
  let o := decide ((d.rd (TMR_TOP t)).toNat ≤ d.tmCnt t)
  let n := d.tmNext t
  let d1 := (d.tmSet t n).modTmr t fun y => { y with phase := 0, carry := o && d.tmIsLow t }
  let a := if d.tmWide t then d1.tmCnt64 t == d1.tmCmp64 t else (d.rd (TMR_CMPA t)).toNat == n
  let b := (d.rd (TMR_CMPB t)).toNat == n
  (d1, if o || a || b then some ⟨d.now, o, a, b⟩ else none)

/-- An increment that acts at once. -/
def tmInc (t : Nat) (d : Dev) : Dev × List TmAct :=
  let x := tmCount t d
  (x.1, match x.2 with
    | some h => [.fire t ⟨h.o, h.a, h.b, false, false, false⟩]
    | none => [])

/-- The increment of this ccyc is lost, with its events (R208). -/
def tmLose (t : Nat) (d : Dev) : Dev :=
  match (d.tmr t).hit with
  | some h => if h.ccyc = d.now then
      d.modTmr t fun y => { y with hit := none, carry := y.carry && !h.o } else d
  | none => d

/-- The count of this ccyc is settled by a write or a reset event: an increment in it is lost (R208). -/
def Dev.tmSettled (d : Dev) (t : Nat) : Bool := (d.tmr t).cntAt == some d.now || (d.tmr t).resetAt == some d.now

/-- A capture: the count to TMR_CAP, of both halves of a pair (R200, R205). -/
def tmCapture (t : Nat) (d : Dev) : Dev :=
  let one := fun (u : Nat) (x : Dev) =>
    let y := when (x.flag (TMR_STAT u) TMR_STAT_cap_full) (·.setB (TMR_STAT u) TMR_STAT_cap_ovr true) x
    (y.wr (TMR_CAP u) (w32 (if u = t then x.tmCnt u else x.tmHigh t))).setB (TMR_STAT u) TMR_STAT_cap_full true
  let d1 := one t d
  if d.tmIsLow t then one (t + 1) d1 else d1

/-- An event on the input of a timer acts by its role (R200); one in the ccyc of a write of the count is lost, and a write
of run in its ccyc wins for run (R208). -/
def tmInput (t : Nat) (d : Dev) : Dev × List TmAct :=
  if d.tmCfg t TMR_CFG_en = 0 ∨ d.tmIsHigh t ∨ (d.tmr t).cntAt = some d.now then (d, [])
  else
    let written := (d.tmr t).cfgAt == some d.now
    let start := fun (x : Dev) =>
      let y := x.modTmr t fun y => { y with startAt := some d.now }
      if x.tmCfg t TMR_CFG_run = 1 ∨ written then y
      else (y.setB (TMR_CFG t) TMR_CFG_run true).modTmr t fun y => { y with phase := 0 }
    let reset := fun (x : Dev) =>
      ((tmLose t x).tmSet t 0).modTmr t fun y => { y with phase := 0, resetAt := some d.now }
    match d.tmCfg t TMR_CFG_irole with
    | 2 => (start d, [])
    | 3 => (if written then d else d.setB (TMR_CFG t) TMR_CFG_run false, [])
    | 4 => (reset d, [])
    | 5 => (reset (start d), [])
    | 6 => (d, if d.tmCounts t then [.inc t] else [])
    | 7 => (tmCapture t d, [])
    | _ => (d, [])

/-- Actions carried out in the order in which they come about; n bounds their number. Assumption 33 (DEDUCED). -/
def tmRun : Nat → List TmAct → Dev → Dev
  | 0, _, d => d
  | _, [], d => d
  | n + 1, x :: r, d =>
    let y := match x with
      | .fire t e => tmFire t e d
      | .inc t => tmInc t d
      | .input t => tmInput t d
    tmRun n (r ++ y.2) y.1

/-- The actions of one ccyc and what they bring about; a loop of timers that clock each other goes on for 256 actions.
Assumption 33 (DEDUCED). -/
def tmActs (l : List TmAct) (d : Dev) : Dev := tmRun 256 l d

/-- Matches of a timer that wait from an evaluation are discarded. -/
def tmDrop (t : Nat) (isB : Bool) (d : Dev) : Dev := (d.dropDue (.tmrMatch t isB false)).dropDue (.tmrMatch t isB true)

/-- The compare of a value n bits wide against a count, evaluated (R28, R198): none ahead, else due with its late flag.
Assumption 33 (DEDUCED). -/
def cmpEval (bitsN value count : Nat) : Option Bool :=
  let x := (value + 2 ^ bitsN - count % 2 ^ bitsN) % 2 ^ bitsN
  if x = 0 then some false else if 2 ^ (bitsN - 1) ≤ x then some true else none

/-- Compare A or B of timer t evaluated (R198, R206). Assumption 33 (DEDUCED). -/
def tmEval (t : Nat) (isB : Bool) (d : Dev) : Dev :=
  let d1 := tmDrop t isB d
  if d.tmCfg t TMR_CFG_en = 0 ∧ !d.tmIsHigh t then d1
  else
    let r := if isB then cmpEval 32 (d.rd (TMR_CMPB t)).toNat (d.tmCnt t)
      else if d.tmWide t then cmpEval 64 (d.tmCmp64 t) (d.tmCnt64 t)
      else cmpEval 32 (d.rd (TMR_CMPA t)).toNat (d.tmCnt t)
    match r with
    | some late => d1.addDue (.tmrMatch t isB late)
    | none => d1

/-! ## Rows -/

/-- The match that an evaluation has left due, with its late flag. -/
def Dev.evalDue (d : Dev) (t : Nat) (isB : Bool) : Option Bool :=
  if d.due.contains (.tmrMatch t isB true) then some true
  else if d.due.contains (.tmrMatch t isB false) then some false else none

/-- What has happened to timer t in this ccyc and has not acted yet: the events of its increment, with the matches that
evaluations have left due. All act together, with one pulse (R201, R202, R208). -/
def tmFireDue (t : Nat) (evals : Bool) (d : Dev) : Dev :=
  let h := (d.tmr t).hit.getD ⟨d.now, false, false, false⟩
  let a := if evals then d.evalDue t false else none
  let b := if evals then d.evalDue t true else none
  let d1 := d.modTmr t fun y => { y with hit := none }
  let d2 := if evals then tmDrop t true (tmDrop t false d1) else d1
  tmActs [.fire t ⟨h.o, h.a || a.isSome, h.b || b.isSome, a.getD false, b.getD false, (d.tmr t).startAt == some h.ccyc⟩] d2

/-- The increment of the next ccyc comes with this row: the timer counts, its prescaler has run out, and nothing settles its
count in this ccyc (R196, R208). -/
def Dev.tmReady (d : Dev) (t : Nat) : Bool :=
  d.tmFree t && decide (d.fld (TMR_PSC t) TMR_PSC_psc ≤ (d.tmr t).phase) && !(d.tmr t).ahead && !d.tmSettled t

/-- The increment of the next ccyc carried out by a row: the tick to that ccyc then counts nothing. -/
def tmAhead (t : Nat) (d : Dev) : Dev := (tmActs [.inc t] d).modTmr t fun y => { y with ahead := true }

/-- TIMER_OVERFLOW: the increment from top (R197), where the latest one was such, or the next one is. Assumption 73
(DESIGN CHOICE). -/
def timerOverflow (t : Nat) (d : Dev) : Dev :=
  let due := match (d.tmr t).hit with
    | some h => h.o
    | none => false
  if due then tmFireDue t true d
  else if d.tmReady t ∧ (d.rd (TMR_TOP t)).toNat ≤ d.tmCnt t then tmAhead t d
  else d

/-- TIMER_OVERFLOW. -/
def execTimerOverflow (t : Fin 128) (s : State) : Out := s.onCluster (tmCl t.val) (timerOverflow t.val)

/-- The next increment of timer t makes its count equal to compare A or B (R198). -/
def Dev.tmNextHits (d : Dev) (t : Nat) (isB : Bool) : Bool :=
  match (tmCount t d).2 with
  | some h => if isB then h.b else h.a
  | none => false

/-- TIMER_MATCH: a match due from an evaluation or from counting acts; else the next increment makes the count equal to the
compare (R198). Assumption 73 (DESIGN CHOICE). -/
def timerMatch (t : Nat) (isB : Bool) (d : Dev) : Dev :=
  let counted := match (d.tmr t).hit with
    | some h => if isB then h.b else h.a
    | none => false
  if counted || (d.evalDue t isB).isSome then tmFireDue t true d
  else if d.tmReady t && d.tmNextHits t isB then tmAhead t d
  else d

/-- TIMER_MATCH. -/
def execTimerMatch (t : Fin 128) (isB : Bool) (s : State) : Out := s.onCluster (tmCl t.val) (timerMatch t.val isB)

/-- TMR_IN: a pulse on the Flux destination acts where the timer takes its input from it (R199, R200). -/
def execTmrIn (t : Fin 128) (s : State) : Out :=
  s.onCluster (tmCl t.val) fun d =>
    let d1 := fluxArrive (tmCl t.val) (0x20 + t.val % 32) d
    if d1.tmCfg t.val TMR_CFG_isel = 0 then tmActs [.input t.val] d1 else d1

/-- The synchronised level of a GPIO ball changes: the timers that take their input from it see the edge, and so do the
engines that wait for it (R199, R203, R216). -/
def timerInputEdge (c b : Nat) (rising : Bool) (d : Dev) : Dev :=
  let r := TMR_GPIO_IN c
  if d.ballIn c b = rising then d
  else
  let d1 := tmGates c ((edgeSeen c b rising d).setF r TMR_GPIO_IN_in (setBit (d.fld r TMR_GPIO_IN_in) b rising))
  tmActs (((d1.tmListed c).filter fun t =>
    d1.tmCfg t TMR_CFG_isel == (if rising then 2 else 3) && d1.tmCfg t TMR_CFG_imst == b).map .input) d1

/-- Changes of driven balls that entered the synchroniser 3 ccyc ago come out of it (R203). -/
def ballSync (c : Nat) (d : Dev) : Dev :=
  let l := (d.cluster c).sync.filter fun x => decide (x.2.2 + 3 ≤ d.now)
  if l = [] then d
  else l.foldl (fun x e => timerInputEdge c e.1 e.2.1 x)
    (d.modCluster c fun x => { x with sync := x.sync.filter fun y => decide (d.now < y.2.2 + 3) })

/-- TIMER_INPUT_EDGE: an edge from outside, on a ball that the device does not drive; one that it drives follows the driven
level (R199, R203). Assumption 73 (DESIGN CHOICE). -/
def execTimerInputEdge (c : Fin 4) (b : Fin 16) (rising : Bool) (s : State) : Out :=
  s.onCluster c.val fun d => if (d.ballDrives c.val b.val).isSome then d else timerInputEdge c.val b.val rising d

/-- A write of TMR_CNT presets the count and evaluates both compares (R198, R208). -/
def tmrCntWrite (w : Writer) (t : Nat) (v : Word) (d : Dev) : Dev :=
  tmEval t true (tmEval t false ((plainWrite w (TMR_CNT t) v (tmLose t d)).modTmr t fun y => { y with cntAt := some d.now }))

/-- TMR_CNT_WRITE. -/
def execTmrCntWrite (w : Writer) (t : Fin 128) (v : Word) (s : State) : Out :=
  s.onCluster (tmCl t.val) (tmrCntWrite w t.val v)

/-- A write of CMPA or CMPB evaluates it; with a 64-bit match the high half's CMPA evaluates nothing (R198, R206). -/
def tmrCmpWrite (w : Writer) (t : Nat) (isB : Bool) (v : Word) (d : Dev) : Dev :=
  let old := fun (h : TmHit) => if isB then { h with b := false } else { h with a := false }
  let d0 := d.modTmr t fun y => { y with hit := y.hit.map fun h => if h.ccyc = d.now then old h else h }
  let d1 := plainWrite w (if isB then TMR_CMPB t else TMR_CMPA t) v d0
  if !isB ∧ d.tmIsHigh t ∧ d.tmWide (t - 1) then d1 else tmEval t isB d1

/-- TMR_CMP_WRITE. -/
def execTmrCmpWrite (w : Writer) (t : Fin 128) (isB : Bool) (v : Word) (s : State) : Out :=
  s.onCluster (tmCl t.val) (tmrCmpWrite w t.val isB v)

/-- A write of TMR_OUT: out_set and out_clr act on the level, both together toggle it (R202, R211). -/
def tmrOutWrite (w : Writer) (t : Nat) (v : Word) (d : Dev) : Dev :=
  let act := match fget TMR_OUT_out_set v, fget TMR_OUT_out_clr v with
    | 1, 1 => 3
    | 1, _ => 1
    | _, 1 => 2
    | _, _ => 0
  let d1 := plainWrite w (TMR_OUT t) v d
  tmGates (tmCl t) (d1.setB (TMR_STAT t) TMR_STAT_out (outAct act true (d.flag (TMR_STAT t) TMR_STAT_out)))

/-- TMR_OUT_WRITE. -/
def execTmrOutWrite (w : Writer) (t : Fin 128) (v : Word) (s : State) : Out :=
  s.onCluster (tmCl t.val) (tmrOutWrite w t.val v)

/-- A combination that R211 reserves. Assumption 13 (DEDUCED). -/
def tmrReserved (t : Nat) (v : Word) : Bool :=
  let isel := fget TMR_CFG_isel v
  let imst := fget TMR_CFG_imst v
  (fget TMR_CFG_irole v == 1 && isel == 0) || fget TMR_CFG_ievt v == 3 || (2 ≤ isel && 15 < imst) ||
    (isel == 1 && imst == t % 32) || (fget TMR_CFG_link v == 1 && t % 2 == 1) ||
    (fget TMR_CFG_cmp64 v == 1 && fget TMR_CFG_link v == 0)

/-- A write of TMR_CFG: a reserved combination is discarded with cfg_err; clearing en discards pending matches; setting
run restarts the prescaler (R196, R209, R211). -/
def tmrCfgWrite (w : Writer) (t : Nat) (v : Word) (d : Dev) : Dev :=
  if tmrReserved t v then d.setB (TMR_GSTAT (tmCl t)) TMR_GSTAT_cfg_err true
  else
    let d1 := plainWrite w (TMR_CFG t) v d
    let d2 := if fget TMR_CFG_en v = 0 ∧ !d.tmIsHigh t then tmDrop t true (tmDrop t false d1) else d1
    let d3 := if fget TMR_CFG_run v = 1 ∧ d.flag (TMR_CFG t) TMR_CFG_run = false then
      d2.modTmr t fun y => { y with phase := 0, cfgAt := some d.now } else d2.modTmr t fun y => { y with cfgAt := some d.now }
    let d4 := if t % 2 = 0 ∧ fget TMR_CFG_link v = 0 then d3.wr (TMR_HI_SNAP t) 0 else d3
    tmGates (tmCl t) (d4.setB (TMR_STAT t) TMR_STAT_gate_open (d4.tmGate t))

/-- TMR_CFG_WRITE. -/
def execTmrCfgWrite (w : Writer) (t : Fin 128) (v : Word) (s : State) : Out :=
  s.onCluster (tmCl t.val) (tmrCfgWrite w t.val v)

/-- A read of TMR_CNT: on a linked low timer it captures the high half, a carry on its way included (R205). -/
def tmrCntRead (t : Nat) (d : Dev) : Dev × Word :=
  (when (d.tmIsLow t) (·.wr (TMR_HI_SNAP t) (w32 (d.tmHigh t))) d, d.rd (TMR_CNT t))

/-- TMR_CNT_READ. -/
def execTmrCntRead (t : Fin 128) (s : State) : Out := s.onCluster (tmCl t.val) (readTo (tmrCntRead t.val))

/-- A read of TMR_CAP clears cap_full; of a pair, the read of the high half clears both (R205). -/
def tmrCapRead (t : Nat) (d : Dev) : Dev × Word :=
  let clr := fun (u : Nat) (x : Dev) => x.setB (TMR_STAT u) TMR_STAT_cap_full false
  (if d.tmIsLow t then d else if d.tmIsHigh t then clr (t - 1) (clr t d) else clr t d, d.rd (TMR_CAP t))

/-- TMR_CAP_READ. -/
def execTmrCapRead (t : Fin 128) (s : State) : Out := s.onCluster (tmCl t.val) (readTo (tmrCapRead t.val))

/-- A cluster snapshot: all 32 counts and the device time in one ccyc (R207). -/
def tmrCopy (c : Nat) (d : Dev) : Dev :=
  let d1 := upTo 32 (fun i x => x.wr (TMR_SNAP (c * 32 + i)) (d.rd (TMR_CNT (c * 32 + i)))) d
  (d1.setWide (TMR_SNAP_T_LO c) (d.copy c)).setB (TMR_SNAP_CTL c) TMR_SNAP_CTL_done true

/-- A snapshot is requested: done clears until the copy stands; a request while done is 0 is ignored (R207). -/
def tmrSnapshot (c : Nat) (d : Dev) : Dev := d.setB (TMR_SNAP_CTL c) TMR_SNAP_CTL_done false

/-- The requested copy is taken in the ccyc after the request, or later where a carry is on its way in a linked pair; a
waiting TMR_SNAPSHOT then completes (R205, R207, R372). -/
def tmrSnapTick (c : Nat) (d : Dev) : Dev :=
  if d.flag (TMR_SNAP_CTL c) TMR_SNAP_CTL_done || (d.timers.entries.any fun e => tmCl e.1 == c && e.2.carry) then d
  else
    let d1 := tmrCopy c d
    endWaits (fun w => w.op == 0x0510 && w.target == c) stOk (d1.wide64 (TMR_SNAP_T_LO c) % 2 ^ 48) d1

/-- A write of TMR_SNAP_CTL. -/
def tmrSnapWrite (c : Nat) (v : Word) (d : Dev) : Dev := when (fget TMR_SNAP_CTL_snap v == 1) (tmrSnapshot c) d

/-- TMR_SNAP: a write of snap, by any master. -/
def execTmrSnap (_w : Writer) (c : Fin 4) (s : State) : Out := s.onCluster c.val (tmrSnapshot c.val)

/-- The idx that a GPIO function allows on ball n (R203). -/
def gpioOk (n : Nat) (v : Word) : Bool :=
  let i := fget TMR_GPIO_CFG_idx v
  match fget TMR_GPIO_CFG_func v with
  | 0 | 2 => i == 0
  | 1 | 4 => true
  | 3 => n ≤ 11 && i == 0
  | _ => false

/-- A write of TMR_GPIO_CFG (R203). -/
def gpioCfgWrite (w : Writer) (c n : Nat) (v : Word) (d : Dev) : Dev :=
  if gpioOk n v then plainWrite w (TMR_GPIO_CFG c n) v d else d.setB (TMR_GSTAT c) TMR_GSTAT_cfg_err true

/-- TMR_GPIO_CFG_WRITE. -/
def execTmrGpioCfgWrite (w : Writer) (c : Fin 4) (n : Fin 16) (v : Word) (s : State) : Out :=
  s.onCluster c.val (gpioCfgWrite w c.val n.val v)

/-- A write of a TMR register (R211). -/
def tmrWrite (nm : RegName) (ix : List Nat) (w : Writer) (addr : Nat) (v : Word) (d : Dev) : Dev :=
  let i := ix.headD 0
  match nm with
  | .TMR_CFG => tmrCfgWrite w i v d
  | .TMR_CNT => tmrCntWrite w i v d
  | .TMR_CMPA => tmrCmpWrite w i false v d
  | .TMR_CMPB => tmrCmpWrite w i true v d
  | .TMR_OUT => tmrOutWrite w i v d
  | .TMR_SNAP_CTL => tmrSnapWrite i v d
  | .TMR_GPIO_CFG => gpioCfgWrite w i (ix.getD 1 0) v d
  | _ => plainWrite w addr v d

/-- One ccyc of a timer that counts prescaled ccyc. The overflow and matches of an increment are left for their rows. -/
def tmTick (t : Nat) (d : Dev) : Dev :=
  if (d.tmr t).ahead then d.modTmr t fun y => { y with ahead := false }
  else if !d.tmFree t then d
  else
    let ph := (d.tmr t).phase
    if ph < d.fld (TMR_PSC t) TMR_PSC_psc then d.modTmr t fun y => { y with phase := ph + 1 }
    else
      let x := tmCount t d
      x.1.modTmr t fun y => { y with hit := x.2 }

/-- The timers of cluster c at the start of a ccyc: events of the ccyc before for which no row has come act now, and carries
reach the high halves (R204, R209). -/
def tmSettle (c : Nat) (d : Dev) : Dev :=
  let l := d.timers.entries.filter fun e => tmCl e.1 == c && (e.2.hit.isSome || e.2.carry)
  let d1 := l.foldl (fun x e => if e.2.hit.isSome then tmFireDue e.1 false x else x) d
  l.foldl (fun x e => if e.2.carry then tmActs [.inc (e.1 + 1)] (x.modTmr e.1 fun y => { y with carry := false }) else x) d1

/-- One ccyc of the timers and GPIO balls of cluster c. -/
def timersTick (c : Nat) (d : Dev) : Dev :=
  let d1 := tmSettle c (ballSync c (ballsNote c d))
  tmrSnapTick c ((d1.tmListed c).foldl (fun x t => tmTick t x) d1)

end Sys2Proof.Machine
end

