-- ==== Sys2Proof/Machine/Chasing.lean ====
section
/-!
DEFINITION. Chapter "Chasing engines" (R212 to R228). Received bits come with the command, the first on the wire first.
-/
namespace Sys2Proof.Machine

/-! ## What an engine holds -/

/-- A flag of CHS_STAT. -/
def Dev.egFlag (d : Dev) (e : Nat) (f : Fld) : Bool := d.flag (CHS_STAT e) f

/-- A flag of CHS_STAT set or cleared. -/
def Dev.egSet (d : Dev) (e : Nat) (f : Fld) (b : Bool) : Dev := d.setB (CHS_STAT e) f b

/-- The program counter. -/
def Dev.egPc (d : Dev) (e : Nat) : Nat := d.fld (CHS_CTL e) CHS_CTL_pc

/-- The frame register. -/
def Dev.frm (d : Dev) (e : Nat) : Nat := (d.rd (CHS_FRM_LO e)).toNat + (d.rd (CHS_FRM_HI e)).toNat * 2 ^ 32

/-- The frame register set. -/
def Dev.setFrm (d : Dev) (e n : Nat) : Dev := (d.wr (CHS_FRM_LO e) (w32 n)).wr (CHS_FRM_HI e) (w32 (n / 2 ^ 32))

/-- A frame's word after a right shift. -/
def Dev.frmWord (d : Dev) (e sh : Nat) : Word := w32 (d.frm e / 2 ^ sh)

/-- st of CHS_CTL and the levels of the queues as the engine now stands (R228). -/
def egStat (e : Nat) (d : Dev) : Dev :=
  let st := if !d.egOn e then 0 else if d.egHold e then 3
    else if (d.eng e).ir.isSome && (d.eng e).left == 0 then 2 else 1
  let q := CHS_Q_STAT e
  let d1 := (d.setF (CHS_CTL e) CHS_CTL_st st).setF q CHS_Q_STAT_inq_lvl (d.eng e).inq.length
  let d2 := d1.setF q CHS_Q_STAT_outq_lvl (d.eng e).outq.length
  let g := CHS_GSTAT (egCl e)
  d2.setF g CHS_GSTAT_running (setBit (d2.fld g CHS_GSTAT_running) (e % 8) (d2.egOn e))

/-- Output pins at their idle levels (R213). -/
def egIdle (e : Nat) (d : Dev) : Dev := d.modEng e fun x => { x with pins := d.fld (CHS_PIN_CFG e) CHS_PIN_CFG_idle }

/-- The loop window is armed with its pass count cleared, where loop_en is set (R223). -/
def loopArm (e : Nat) (d : Dev) : Dev :=
  if d.flag (CHS_LOOP e) CHS_LOOP_loop_en then (d.setB (CHS_LOOP e) CHS_LOOP_armed true).wr (CHS_LOOP_CNT e) 0 else d

/-- The instruction at PC is done: the next fetch follows the loop window, or a taken BRANCH (R223). -/
def egAdvance (e : Nat) (taken : Option Nat) (d : Dev) : Dev :=
  let pc := d.egPc e
  let lp := CHS_LOOP e
  let d0 := d.modEng e fun x => { x with ir := none, left := 0, edge := false, passed := false, rel := false }
  let setPc := fun (n : Nat) (x : Dev) => x.setF (CHS_CTL e) CHS_CTL_pc n
  match taken with
  | some t => egStat e (setPc t (if t = d.fld lp CHS_LOOP_first then loopArm e d0 else d0))
  | none =>
    if d.flag lp CHS_LOOP_loop_en && d.flag lp CHS_LOOP_armed && pc == d.fld lp CHS_LOOP_last then
      let n := d.fld (CHS_LOOP_CNT e) CHS_LOOP_CNT_pass_cnt + 1
      let lim := d.fld lp CHS_LOOP_passes
      let d1 := d0.setF (CHS_LOOP_CNT e) CHS_LOOP_CNT_pass_cnt n
      if lim = 0 ∨ n < lim then egStat e (setPc (d.fld lp CHS_LOOP_first) d1)
      else egStat e (setPc (pc + 1) (d1.setB lp CHS_LOOP_armed false))
    else egStat e (setPc (pc + 1) d0)

/-- The engine waits at a SYNC with this src. -/
def Dev.atSync (d : Dev) (e src : Nat) : Bool :=
  match (d.eng e).ir with
  | some w => w / 2 ^ 20 == 9 && w % 2 == src
  | none => false

/-- The address of the next fetch: while a word stands in the instruction register, that of its successor (R212, R228). -/
def Dev.nextFetch (d : Dev) (e : Nat) : Nat :=
  if (d.eng e).ir.isNone then d.egPc e
  else (egAdvance e none (when (d.atSync e 0 || d.atSync e 1) (loopArm e) d)).egPc e

/-! ## Start, disable and barriers (R221, R222, R225) -/

/-- The engine starts at start_pc with cleared state. -/
def egStart (e : Nat) (d : Dev) : Dev :=
  let d1 := (d.setFrm e 0).setF (CHS_STAT e) CHS_STAT_bitcnt 0
  let d2 := (((d1.egSet e CHS_STAT_m false).egSet e CHS_STAT_c false).egSet e CHS_STAT_t false).egSet e CHS_STAT_z false
  let d3 := ((d2.wr (CHS_LC e) 0).wr (CHS_LOOP_CNT e) 0).setB (CHS_LOOP e) CHS_LOOP_armed (d.flag (CHS_LOOP e) CHS_LOOP_loop_en)
  let d4 := d3.setF (CHS_CTL e) CHS_CTL_pc (d.fld (CHS_CFG e) CHS_CFG_start_pc)
  egStat e (egIdle e (d4.modEng e fun x => { x with ir := none, left := 0, edge := false, rel := false, passed := false }))

/-- A SYNC of engine e is released: at once, or remembered while it is held (R222). -/
def syncRelease (e : Nat) (d : Dev) : Dev :=
  if d.egHold e then d.modEng e fun x => { x with rel := true } else egAdvance e none (loopArm e d)

/-- The members of barrier group g of cluster c: enabled engines with grp_en (R222). Assumption 34 (DEDUCED). -/
def Dev.barrier (d : Dev) (c g : Nat) : List Nat :=
  ((List.range 8).map (c * 8 + ·)).filter fun e =>
    d.egOn e && d.fldIf (CHS_CFG e) CHS_CFG_grp_en == 1 && d.fldIf (CHS_CFG e) CHS_CFG_grp == g

/-- The barrier of group g of cluster c releases where every member has arrived and has not been released yet.
Assumption 34 (DEDUCED). -/
def barrierCheck (c g : Nat) (d : Dev) : Dev :=
  let ms := d.barrier c g
  if ms.all fun m => d.atSync m 0 && !(d.eng m).rel then
    (((List.range 8).map (c * 8 + ·)).filter fun m =>
      d.egOn m && d.atSync m 0 && d.fld (CHS_CFG m) CHS_CFG_grp == g).foldl (fun x m => syncRelease m x) d
  else d

/-- The position port is no longer valid: the channels that take it see no valid word (R225, R226). -/
def portInvalid (e : Nat) (d : Dev) : Dev :=
  upTo 16 (fun l x =>
    let a := egCl e * 16 + l
    if (x.fbk a).serOk && d.fld (FBK_SER_CFG a) FBK_SER_CFG_eng == e % 8 then x.modFbk a fun f => { f with serOk := false }
    else x) (d.setB (CHS_POS_STAT e) CHS_POS_STAT_valid false)

/-- The engine stops, as when en is cleared (R225). -/
def egStop (e : Nat) (d : Dev) : Dev :=
  let busy := (d.eng e).ir.isSome
  let d1 := (d.setB (CHS_CTL e) CHS_CTL_en false).setFrm e 0
  let d2 := when busy (·.egSet e CHS_STAT_aborted true) (d1.setF (CHS_STAT e) CHS_STAT_bitcnt 0)
  let d3 := egIdle e (d2.modEng e fun x => { x with ir := none, left := 0, edge := false, rel := false, passed := false })
  let d4 := egStat e (portInvalid e d3)
  if d.fld (CHS_CFG e) CHS_CFG_grp_en = 1 then barrierCheck (egCl e) (d.fld (CHS_CFG e) CHS_CFG_grp) d4 else d4

/-! ## Instructions -/

/-- A reserved opcode or field value (R216). Assumption 34 (DEDUCED). -/
def egReserved (w : Nat) : Bool :=
  match w / 2 ^ 20 with
  | 0x1 => bits w 15 14 == 0
  | 0x3 => bits w 13 12 == 0
  | 0x4 => bits w 15 14 == 3 || (bits w 15 14 == 2 && bits w 11 0 == 0)
  | 0x6 => bits w 1 0 == 0
  | 0x8 => 0xD ≤ bits w 15 12
  | 0xE | 0xF => true
  | _ => false

/-- Comparator k of engine e matches the word at pc (R227). -/
def Dev.pacHit (d : Dev) (e k pc : Nat) : Bool :=
  d.fldIf (CHS_PAC_CFG e k) CHS_PAC_CFG_en == 1 && d.fldIf (CHS_PAC_CFG e k) CHS_PAC_CFG_addr == pc

/-- The comparators act on the word about to execute; the answer says whether it executes (R227). -/
def pacAct (e pc : Nat) (d : Dev) : Dev × Bool :=
  if (d.eng e).passed then (d, true)
  else
    let one := fun (k : Nat) (x : Dev × Bool) =>
      if d.pacHit e k pc then
        let y := x.1.incF (CHS_PAC_CNT e k) CHS_PAC_CNT_hits
        match d.fld (CHS_PAC_CFG e k) CHS_PAC_CFG_action with
        | 1 => (evcCluster (egCl e) (0x150 + e % 8 * 2 + k) y, x.2)
        | 2 => (egStat e ((y.setB (CHS_CTL e) CHS_CTL_hold true).modEng e fun z => { z with passed := true }), false)
        | 3 => (haltStart (egCl e) 3 (e % 8 * 2 + k) y, x.2)
        | _ => (y, x.2)
      else x
    one 1 (one 0 (d, true))

/-- The side field drives the pins in side_en (R213 to R215). -/
def sideField (e w : Nat) (d : Dev) : Dev :=
  let cfg := CHS_PIN_CFG e
  let m := d.fld cfg CHS_PIN_CFG_side_en &&& d.fld cfg CHS_PIN_CFG_dir
  d.modEng e fun x => { x with pins := (x.pins &&& (15 ^^^ m)) ||| (bits w 19 16 &&& m) }

/-- One instruction of opcode op, whose operand sub accepts, begins on engine e: f gives its effect. Where the word at PC
is reserved the engine stops; where it is another instruction, or the engine does not run, nothing happens.
Assumption 34 (DEDUCED). -/
def egStep (e op : Nat) (sub : Nat → Bool) (f : Nat → Dev → Dev) (d : Dev) : Dev :=
  if !d.egOn e || d.egHold e || (d.eng e).ir.isSome then d
  else
    let pc := d.egPc e
    let w := d.fld (CHS_PROG e pc) CHS_PROG_word
    if egReserved w then
      let x := pacAct e pc d
      if x.2 then egStop e (x.1.egSet e CHS_STAT_cfg_refused true) else x.1
    else if w / 2 ^ 20 ≠ op ∨ sub w = false then d
    else
      let x := pacAct e pc d
      if x.2 then f w (sideField e w x.1) else x.1

/-- An instruction of one engine that completes in its row. -/
def State.onEng (s : State) (e : Fin 32) (op : Nat) (sub : Nat → Bool) (f : Nat → Nat → Dev → Dev) : Out :=
  s.onCluster (egCl e.val) (egStep e.val op sub fun w d => egAdvance e.val none (f e.val w d))

/-- Any operand. -/
def anySub : Nat → Bool := fun _ => true

/-- CHS_NOP. -/
def execChsNop (e : Fin 32) (s : State) : Out := s.onEng e 0x0 anySub fun _ _ d => d

/-! ### Bits (R217, R218) -/

/-- A bit fed to the CRC unit. -/
def crcBit (e : Nat) (b : Bool) (d : Dev) : Dev :=
  if !(d.eng e).feed then d
  else
    let w := d.fld (CHS_CRC_CFG e) CHS_CRC_CFG_width
    let c := (d.eng e).crc
    let f := xor b (c.testBit (w - 1))
    let sh := c * 2 % 2 ^ w
    d.modEng e fun x => { x with crc := if f then (sh ^^^ d.fld (CHS_CRC_CFG e) CHS_CRC_CFG_poly) % 2 ^ w else sh }

/-- The bit clock of one bit period, where the word w asks for it: clk_pin takes the inverse of its idle level in the leading
step and returns in the trailing one (R217). -/
def clkBit (e w clk : Nat) (d : Dev) : Dev :=
  let p := d.fld (CHS_PIN_CFG e) CHS_PIN_CFG_clk_pin
  let idle := (d.fld (CHS_PIN_CFG e) CHS_PIN_CFG_idle).testBit p
  if bit w clk ∧ d.isClkPin e p then pinNote e p idle (pinNote e p (!idle) d) else d

/-- A bit received on in_pin, where b stands outside (R213). -/
def Dev.rxBit (d : Dev) (e : Nat) (b : Bool) : Bool := d.pinBit e (d.fld (CHS_PIN_CFG e) CHS_PIN_CFG_in_pin) b

/-- One bit of a SHIFT with direction dir: 1 receives, 2 sends, 3 both (R217). The bit clock comes before FRM bit 63 on a pin
that is both clk_pin and out_pin (R213). -/
def shiftBit (e dir : Nat) (x : Bool) (d : Dev) : Dev :=
  let f := d.frm e
  let top := f.testBit 63
  let b := d.rxBit e x
  let inb := dir != 2 && b
  let cfg := CHS_PIN_CFG e
  let op := d.fld cfg CHS_PIN_CFG_out_pin
  let d1 := if dir = 1 ∨ (d.fld cfg CHS_PIN_CFG_dir).testBit op = false ∨ d.isClkPin e op then d
    else pinNote e op top (d.modEng e fun x => { x with pins := setBit x.pins op top })
  let d2 := d1.setFrm e (f * 2 % 2 ^ 64 + b2n inb)
  let d3 := if dir = 2 then d2
    else d2.setF (CHS_STAT e) CHS_STAT_bitcnt (min 64 (d.fld (CHS_STAT e) CHS_STAT_bitcnt + 1))
  crcBit e (if dir = 2 then top else b) d3

/-- Bits of the SHIFT w moved, as many as rx holds and are left; a SHIFT that only sends ignores their values. The
instruction completes with its last bit. -/
def shiftBits (e w : Nat) (rx : List Bool) (d : Dev) : Dev :=
  let n := (d.eng e).left
  let d1 := (rx.take n).foldl (fun x b => shiftBit e (bits w 15 14) b (clkBit e w 13 x)) d
  let rest := n - rx.length
  if rest = 0 then egAdvance e none d1
  else egStat e (d1.modEng e fun x => { x with ir := some w, left := rest })

/-- The instruction of opcode op that stands between two of its bits. -/
def Dev.midway (d : Dev) (e op : Nat) : Option Nat :=
  match (d.eng e).ir with
  | some w => if w / 2 ^ 20 = op ∧ (d.eng e).left ≠ 0 then some w else none
  | none => none

/-- SHIFT: a new one, or the rest of one that hold has stopped between two bits (R217, R223). -/
def engShift (e : Nat) (rx : List Bool) (d : Dev) : Dev :=
  match d.midway e 0x1 with
  | some w => if d.egHold e || !d.egOn e then d else shiftBits e w rx d
  | none => egStep e 0x1 anySub (fun w x =>
      let n := bits w 5 0
      shiftBits e w rx (x.modEng e fun y => { y with left := if n = 0 then 64 else n })) d

/-- SHIFT. -/
def execShift (e : Fin 32) (rx : List Bool) (s : State) : Out := s.onCluster (egCl e.val) (engShift e.val rx)

/-- Bits of the EXPECT w compared with its pattern; any difference sets M (R216). -/
def expectBits (e w : Nat) (rx : List Bool) (d : Dev) : Dev :=
  let n := (d.eng e).left
  let got := (rx.take n).map (d.rxBit e)
  let diff := ((List.range got.length).any fun i => got.getD i false != bit w (n - 1 - i))
  let d1 := got.foldl (fun x b => crcBit e b (clkBit e w 15 x)) (when diff (·.egSet e CHS_STAT_m true) d)
  let rest := n - rx.length
  if rest = 0 then egAdvance e none d1
  else egStat e (d1.modEng e fun x => { x with ir := some w, left := rest })

/-- EXPECT. -/
def engExpect (e : Nat) (rx : List Bool) (d : Dev) : Dev :=
  match d.midway e 0x2 with
  | some w => if d.egHold e || !d.egOn e then d else expectBits e w rx d
  | none => egStep e 0x2 anySub (fun w x =>
      expectBits e w rx (x.modEng e fun y => { y with left := bits w 14 12 + 1 })) d

/-- EXPECT. -/
def execExpect (e : Fin 32) (rx : List Bool) (s : State) : Out := s.onCluster (egCl e.val) (engExpect e.val rx)

/-! ### Waits -/

/-- An instruction that waits stands in the instruction register. -/
def egWait (e w : Nat) (d : Dev) : Dev :=
  egStat e (d.modEng e fun x => { x with ir := some w, left := 0, edge := false, waitAt := d.now })

/-- WAITEDGE begins to wait. -/
def execWaitedge (e : Fin 32) (s : State) : Out := s.onCluster (egCl e.val) (egStep e.val 0x3 anySub (egWait e.val))

/-- WAITEDGE_EDGE: the awaited edge, of its pin and kind, has been seen since the WAITEDGE began (R216). -/
def execWaitedgeEdge (e : Fin 32) (s : State) : Out :=
  s.onCluster (egCl e.val) fun d => if (d.atEdge e.val).isSome ∧ (d.eng e.val).edge then egAdvance e.val none d else d

/-- WAITEDGE_TIMEOUT: its steps have passed without the edge: T sets, and the instruction ends; a timeout of 0 never expires
(R216). -/
def execWaitedgeTimeout (e : Fin 32) (s : State) : Out :=
  s.onCluster (egCl e.val) fun d =>
    match d.atEdge e.val with
    | some w =>
      if bits w 11 0 = 0 ∨ (d.eng e.val).edge ∨
          d.now < (d.eng e.val).waitAt + bits w 11 0 * d.fld (CHS_CFG e.val) CHS_CFG_step_len then d
      else egAdvance e.val none (d.egSet e.val CHS_STAT_t true)
    | none => d

/-- LC, and Z from it (R216). -/
def setLc (e n : Nat) (d : Dev) : Dev := (d.setF (CHS_LC e) CHS_LC_lc n).egSet e CHS_STAT_z (n == 0)

/-- COUNT_LOAD. -/
def execCountLoad (e : Fin 32) (s : State) : Out :=
  s.onEng e 0x4 (fun w => bits w 15 14 == 0) fun e w d => setLc e (bits w 11 0) d
/-- COUNT_DECREMENT. -/
def execCountDecrement (e : Fin 32) (s : State) : Out :=
  s.onEng e 0x4 (fun w => bits w 15 14 == 1) fun e _ d => setLc e (d.fld (CHS_LC e) CHS_LC_lc - 1) d
/-- COUNT_WAIT: the row stands for all its steps. -/
def execCountWait (e : Fin 32) (s : State) : Out :=
  s.onEng e 0x4 (fun w => bits w 15 14 == 2) fun e _ d => setLc e (d.fld (CHS_LC e) CHS_LC_lc) d

/-- EMIT. -/
def execEmit (e : Fin 32) (s : State) : Out :=
  s.onEng e 0x5 anySub fun e w d =>
    let d1 := when (bit w 1) (·.egSet e CHS_STAT_irq true) d
    when (bit w 0) (fluxFire (egCl e) (0xC0 + e % 8)) d1

/-- A word published to the position port, and taken by the feedback channels that select the engine (R155, R219). -/
def publishPos (e : Nat) (word : Word) (ok : Bool) (d : Dev) : Dev :=
  let st := CHS_POS_STAT e
  let t := (d.eng e).stamp
  let d1 := ((d.wr (CHS_POS_WORD e) word).setWide (CHS_POS_T_LO e) t).setB st CHS_POS_STAT_valid ok
  let d2 := when (!ok) (·.incF st CHS_POS_STAT_bad) (d1.incW st CHS_POS_STAT_seq)
  upTo 16 (fun l x =>
    let a := egCl e * 16 + l
    when (d.fld (FBK_SER_CFG a) FBK_SER_CFG_eng == e % 8) (takeSerial a word ok t) x) d2

/-- LATCH. -/
def execLatch (e : Fin 32) (s : State) : Out :=
  s.onEng e 0x6 anySub fun e w d =>
    let d1 := if bit w 0 then d.modEng e fun x => { x with stamp := d.copy (egCl e) } else d
    let ok := !d1.egFlag e CHS_STAT_m && (!bit w 2 || d1.egFlag e CHS_STAT_c)
    when (bit w 1) (publishPos e (d1.frmWord e (bits w 12 8)) ok) d1

/-- CRCSTEP_INIT. -/
def execCrcstepInit (e : Fin 32) (s : State) : Out :=
  s.onEng e 0x7 (fun w => bits w 1 0 == 0) fun e _ d =>
    (d.egSet e CHS_STAT_c false).modEng e fun x =>
      { x with crc := d.fld (CHS_CRC_VAL e) CHS_CRC_VAL_crc_init % 2 ^ d.fld (CHS_CRC_CFG e) CHS_CRC_CFG_width, feed := false }
/-- CRCSTEP_FEED. -/
def execCrcstepFeed (e : Fin 32) (s : State) : Out :=
  s.onEng e 0x7 (fun w => bits w 1 0 == 1) fun e _ d => d.modEng e fun x => { x with feed := true }
/-- CRCSTEP_HALT. -/
def execCrcstepHalt (e : Fin 32) (s : State) : Out :=
  s.onEng e 0x7 (fun w => bits w 1 0 == 2) fun e _ d => d.modEng e fun x => { x with feed := false }
/-- CRCSTEP_CHECK. -/
def execCrcstepCheck (e : Fin 32) (s : State) : Out :=
  s.onEng e 0x7 (fun w => bits w 1 0 == 3) fun e _ d =>
    d.egSet e CHS_STAT_c ((d.eng e).crc == d.fld (CHS_CRC_VAL e) CHS_CRC_VAL_crc_res)

/-- A BRANCH condition (R216). -/
def Dev.branchCond (d : Dev) (e w : Nat) : Bool :=
  match bits w 15 12 with
  | 0x0 => true
  | 0x1 => d.egFlag e CHS_STAT_z
  | 0x2 => !d.egFlag e CHS_STAT_z
  | 0x3 => d.egFlag e CHS_STAT_m
  | 0x4 => !d.egFlag e CHS_STAT_m
  | 0x5 => d.egFlag e CHS_STAT_c
  | 0x6 => !d.egFlag e CHS_STAT_c
  | 0x7 => d.egFlag e CHS_STAT_t
  | 0x8 => !d.egFlag e CHS_STAT_t
  | 0x9 => (d.eng e).inq != []
  | 0xA => decide ((d.eng e).outq.length < 8)
  | 0xB => d.pinIn e (bits w 11 10)
  | _ => !d.pinIn e (bits w 11 10)

/-- BRANCH. -/
def execBranch (e : Fin 32) (s : State) : Out :=
  s.onCluster (egCl e.val) (egStep e.val 0x8 anySub fun w d =>
    egAdvance e.val (if d.branchCond e.val w then some (bits w 5 0) else none) d)

/-- SYNC: the engine arrives; the last member of a barrier releases it (R222). -/
def engSync (e : Nat) (d : Dev) : Dev :=
  egStep e 0x9 anySub (fun w x =>
    let y := egWait e w x
    if w % 2 = 0 then barrierCheck (egCl e) (y.fld (CHS_CFG e) CHS_CFG_grp) y else y) d

/-- SYNC. -/
def execSync (e : Fin 32) (s : State) : Out := s.onCluster (egCl e.val) (engSync e.val)

/-- CHS_SYNC: a pulse releases a SYNC with src = 1 that has begun (R222). -/
def execChsSync (e : Fin 32) (s : State) : Out :=
  s.onCluster (egCl e.val) fun d =>
    let d1 := fluxArrive (egCl e.val) (0x50 + e.val % 8) d
    if d1.egOn e.val && d1.atSync e.val 1 then syncRelease e.val d1 else d1

/-! ### Queues and ingot (R220) -/

/-- PUT into the outbound queue: a full queue stalls it, or with drop the word is discarded. -/
def putQueue (e w : Nat) (d : Dev) : Dev :=
  if (d.eng e).outq.length < 8 then
    egAdvance e none (d.modEng e fun x => { x with outq := x.outq ++ [d.frmWord e (bits w 12 8)] })
  else if bit w 0 then egAdvance e none (d.egSet e CHS_STAT_outq_ovr true)
  else egWait e w d

/-- PUT into ingot: the word at mem_base + 4 ptr with tag RAW; a refused write is dropped with mem_err. -/
def putMem (e w : Nat) (m : Memory) (d : Dev) : Memory × Dev :=
  let ml := CHS_MEM_LEN e
  let p := d.fld ml CHS_MEM_LEN_ptr
  let off := (d.fld (CHS_MEM_BASE e) CHS_MEM_BASE_mem_base * 4 + 4 * p) % 0x100000
  let x := ingotWrite .engine (egCl e * 16 + off / 0x10000) (off % 0x10000) (d.frmWord e (bits w 12 8)) 0 m d
  let d1 := when (!x.2.2) (·.egSet e CHS_STAT_mem_err true) x.2.1
  (x.1, egAdvance e none (d1.setF ml CHS_MEM_LEN_ptr (if p + 1 < d.fld ml CHS_MEM_LEN_len then p + 1 else 0)))

/-- The PUT to ingot that engine e is about to execute. -/
def Dev.putsMem (d : Dev) (e : Nat) : Option Nat :=
  let w := d.fld (CHS_PROG e (d.egPc e)) CHS_PROG_word
  if w / 2 ^ 20 = 0xA ∧ bit w 1 then some w else none

/-- PUT. -/
def engPut (e : Nat) (m : Memory) (d : Dev) : Memory × Dev :=
  match d.putsMem e with
  | none => (m, egStep e 0xA anySub (putQueue e) d)
  | some w =>
    -- the word is fetched first: only where it executes is ingot written
    let go := egStep e 0xA anySub (egWait e) d
    if (d.eng e).ir.isNone && (go.eng e).ir.isSome then putMem e w m go else (m, go)

/-- PUT. -/
def execPut (e : Fin 32) (s : State) : Out :=
  s.updB fun m d => if d.clusterRuns (egCl e.val) then engPut e.val m d else (m, d)

/-- GET with the inbound queue as it stands: the word goes to FRM[63:32], or GET stalls. -/
def getQueue (e w : Nat) (d : Dev) : Dev :=
  match (d.eng e).inq with
  | v :: r => egAdvance e none ((d.wr (CHS_FRM_HI e) v).modEng e fun x => { x with inq := r })
  | [] => egWait e w d

/-- GET. -/
def execGet (e : Fin 32) (s : State) : Out := s.onCluster (egCl e.val) (egStep e.val 0xB anySub (getQueue e.val))

/-- An instruction that stalls on a queue goes on once the queue lets it. -/
def egUnstall (e : Nat) (d : Dev) : Dev :=
  if !d.egOn e || d.egHold e then egStat e d
  else match (d.eng e).ir with
    | some w =>
      if w / 2 ^ 20 = 0xB then getQueue e w d
      else if w / 2 ^ 20 = 0xA then putQueue e w d
      else egStat e d
    | none => egStat e d

/-- LDF. -/
def execLdf (e : Fin 32) (s : State) : Out :=
  s.onEng e 0xC anySub fun e w d => d.setF (CHS_FRM_HI e) ⟨16, 16⟩ (bits w 15 0)

/-- CLR. -/
def execClr (e : Fin 32) (s : State) : Out :=
  s.onEng e 0xD anySub fun e w d =>
    let d1 := when (bit w 0) (fun x => (x.setFrm e 0).setF (CHS_STAT e) CHS_STAT_bitcnt 0) d
    let d2 := when (bit w 1) (·.egSet e CHS_STAT_m false) d1
    let d3 := when (bit w 2) (·.egSet e CHS_STAT_t false) d2
    let d4 := when (bit w 3) (·.egSet e CHS_STAT_c false) d3
    when (bit w 4) (·.setF (CHS_LC e) CHS_LC_lc 0) d4

/-! ## Control (R221 to R225) -/

/-- hold is cleared: a remembered release applies, and a stall is tried again (R222, R223). -/
def egResume (e : Nat) (d : Dev) : Dev :=
  if (d.eng e).rel then egAdvance e none (loopArm e (d.modEng e fun x => { x with rel := false }))
  else egUnstall e d

/-- A write of CHS_CTL: en starts or stops the engine, hold holds or resumes it. -/
def chsCtlWrite (w : Writer) (e : Nat) (v : Word) (d : Dev) : Dev :=
  let on := d.egOn e
  let held := d.egHold e
  let d1 := plainWrite w (CHS_CTL e) v d
  if d1.egOn e && !on then egStart e d1
  else if !d1.egOn e && on then egStop e (d1.setB (CHS_CTL e) CHS_CTL_en true)
  else if d1.egOn e && held && !d1.egHold e then
    egResume e (d1.modEng e fun x => { x with waitAt := x.waitAt + (d.now - x.heldAt) })
  else egStat e (when (d1.egHold e && !held) (·.modEng e fun x => { x with heldAt := d.now }) d1)

/-- CHS_ENABLE. -/
def execChsEnable (w : Writer) (e : Fin 32) (v : Word) (s : State) : Out :=
  s.onCluster (egCl e.val) (chsCtlWrite w e.val (v ||| 0x80000000))
/-- CHS_DISABLE. -/
def execChsDisable (w : Writer) (e : Fin 32) (v : Word) (s : State) : Out :=
  s.onCluster (egCl e.val) (chsCtlWrite w e.val (v &&& 0x7FFFFFFF))
/-- CHS_HOLD. -/
def execChsHold (w : Writer) (e : Fin 32) (v : Word) (s : State) : Out :=
  s.onCluster (egCl e.val) (chsCtlWrite w e.val (v ||| 0x40000000))
/-- CHS_RESUME. -/
def execChsResume (w : Writer) (e : Fin 32) (v : Word) (s : State) : Out :=
  s.onCluster (egCl e.val) (chsCtlWrite w e.val (v &&& 0xBFFFFFFF))

/-- The named stopped engines of cluster c start in one ccyc (R221). -/
def chsGstart (c mask : Nat) (d : Dev) : Dev :=
  upTo 8 (fun i x =>
    if mask.testBit i ∧ d.egOn (c * 8 + i) = false then
      egStart (c * 8 + i) (x.setB (CHS_CTL (c * 8 + i)) CHS_CTL_en true)
    else x) d

/-- CHS_GSTART: a write by any master. -/
def execChsGstart (w : Writer) (c : Fin 4) (v : Word) (s : State) : Out :=
  s.onCluster c.val fun d => closeAt w (CHS_GSTART c.val) (chsGstart c.val (fget CHS_GSTART_start v) d)

/-- A write of CHS_INQ (R220). -/
def chsInqWrite (e : Nat) (v : Word) (d : Dev) : Dev :=
  if (d.eng e).inq.length < 8 then egUnstall e (d.modEng e fun x => { x with inq := x.inq ++ [v] })
  else d.egSet e CHS_STAT_inq_ovr true

/-- CHS_INQ_WRITE: by any master. -/
def execChsInqWrite (w : Writer) (e : Fin 32) (v : Word) (s : State) : Out :=
  s.onCluster (egCl e.val) fun d => closeAt w (CHS_INQ e.val) (chsInqWrite e.val v d)

/-- A read of CHS_OUTQ (R220). -/
def chsOutqRead (e : Nat) (d : Dev) : Dev × Word :=
  match (d.eng e).outq with
  | v :: r => (egUnstall e (d.modEng e fun x => { x with outq := r }), v)
  | [] => (d.egSet e CHS_STAT_outq_udr true, 0)

/-- CHS_OUTQ_READ. -/
def execChsOutqRead (e : Fin 32) (s : State) : Out := s.onCluster (egCl e.val) (readTo (chsOutqRead e.val))

/-- The engine runs and does not accept live writes (R224). -/
def Dev.patchRefused (d : Dev) (e : Nat) : Bool := d.egOn e && !d.flag (CHS_CTL e) CHS_CTL_live_patch

/-- A write of CHS_PROG (R224). -/
def chsProgWrite (w : Writer) (e i : Nat) (v : Word) (d : Dev) : Dev :=
  if d.patchRefused e then discardWrite w (CHS_PROG e i) (d.egSet e CHS_STAT_patch_refused true)
  else plainWrite w (CHS_PROG e i) v d

/-- A write of CHS_LOOP (R223, R224). -/
def chsLoopWrite (w : Writer) (e : Nat) (v : Word) (d : Dev) : Dev :=
  if d.patchRefused e then discardWrite w (CHS_LOOP e) (d.egSet e CHS_STAT_patch_refused true)
  else if fget CHS_LOOP_last v < fget CHS_LOOP_first v then discardWrite w (CHS_LOOP e) (d.egSet e CHS_STAT_cfg_refused true)
  else plainWrite w (CHS_LOOP e) v d

/-- CHS_PROG_WRITE: of program word i, or of CHS_LOOP. -/
def execChsProgWrite (w : Writer) (e : Fin 32) (i : Option (Fin 64)) (v : Word) (s : State) : Out :=
  s.onCluster (egCl e.val) (match i with
    | some i => chsProgWrite w e.val i.val v
    | none => chsLoopWrite w e.val v)

/-- A write that a running engine discards with cfg_refused (R224). -/
def chsFixedWrite (w : Writer) (e addr : Nat) (v : Word) (d : Dev) : Dev :=
  if d.egOn e then discardWrite w addr (d.egSet e CHS_STAT_cfg_refused true) else plainWrite w addr v d

/-- A write of CHS_CFG: of a running engine a change of step_len or grp is discarded with cfg_refused, and one of start_pc
that live_patch does not permit refuses the write with patch_refused (R224); an engine that leaves its barrier may release it. -/
def chsCfgWrite (w : Writer) (e : Nat) (v : Word) (d : Dev) : Dev :=
  let r := CHS_CFG e
  if !d.egOn e then plainWrite w r v d
  else
    let old := d.rd r
    let put := fput CHS_CFG_grp_en (fput CHS_CFG_start_pc old (fget CHS_CFG_start_pc v)) (fget CHS_CFG_grp_en v)
    let d1 := when (fget CHS_CFG_step_len v != fget CHS_CFG_step_len old || fget CHS_CFG_grp v != fget CHS_CFG_grp old)
      (·.egSet e CHS_STAT_cfg_refused true) d
    if fget CHS_CFG_start_pc v ≠ fget CHS_CFG_start_pc old ∧ d.patchRefused e then
      discardWrite w r (d1.egSet e CHS_STAT_patch_refused true)
    else
      let d2 := plainWrite w r put d1
      if fget CHS_CFG_grp_en old = 1 ∧ fget CHS_CFG_grp_en v = 0 then barrierCheck (egCl e) (fget CHS_CFG_grp old) d2 else d2

/-- A write of CHS_PIN_CFG: clk_pin in side_en with clk_en is refused (R213). -/
def chsPinWrite (w : Writer) (e : Nat) (v : Word) (d : Dev) : Dev :=
  let r := CHS_PIN_CFG e
  if d.accepts w r ∧ fget CHS_PIN_CFG_clk_en v = 1 ∧ (fget CHS_PIN_CFG_side_en v).testBit (fget CHS_PIN_CFG_clk_pin v) then
    discardWrite w r (d.egSet e CHS_STAT_cfg_refused true)
  else chsFixedWrite w e r v d

/-- A write of CHS_PAC_CFG: action 0b11 is stored only from the debug access port (R227). -/
def pacCfgWrite (w : Writer) (addr : Nat) (v : Word) (d : Dev) : Dev :=
  plainWrite w addr (if fget CHS_PAC_CFG_action v = 3 ∧ w ≠ .dap then fput CHS_PAC_CFG_action v 1 else v) d

/-- A write of a CHS register. -/
def chsWrite (nm : RegName) (ix : List Nat) (w : Writer) (addr : Nat) (v : Word) (d : Dev) : Dev :=
  let e := ix.headD 0
  match nm with
  | .CHS_CTL => chsCtlWrite w e v d
  | .CHS_CFG => chsCfgWrite w e v d
  | .CHS_LOOP => chsLoopWrite w e v d
  | .CHS_PROG => chsProgWrite w e (ix.getD 1 0) v d
  | .CHS_PIN_CFG => chsPinWrite w e v d
  | .CHS_SMP | .CHS_CRC_CFG => chsFixedWrite w e addr v d
  | .CHS_INQ => chsInqWrite e v d
  | .CHS_GSTART => chsGstart e (fget CHS_GSTART_start v) d
  | .CHS_PAC_CFG => pacCfgWrite w addr v d
  | _ => plainWrite w addr v d

end Sys2Proof.Machine
end

