-- ==== Sys2Proof/Machine/Ingot.lean ====
section
/-!
DEFINITION. Chapter "Ingot banks, DDR4 and memory access": ownership of banks, the end of a march test, patrol scrub and
host requests through BAR2 (R285, R293, R295, R296, R322, R323).
-/
namespace Sys2Proof.Machine

/-! ## Ownership (R285) -/

/-- The code names an owner that bank b can take. -/
def ownCode (b v : Nat) : Bool := v == 0 || v == 8 || (1 ≤ v && v ≤ (if b < 64 then 4 else 2))

/-- The writer may write the owner field of bank b. -/
def Dev.ownWriter (d : Dev) (w : Writer) (b : Nat) : Bool :=
  match w with
  | .dap => true
  | .host => false
  | .ladle => d.isOwner .ladle b
  | .core k r =>
    d.isOwner (.core k.val) b ||
      (r.val == 0 && (16 ≤ k.val || (decide (b < 64) && k.val / 4 == b / 16)))

/-- A write of the owner field: an entitled one waits for the drain, any other is discarded and sets own_refused, and, where
the writer is none that R285 names and the code would change, lock_violation (R285, R507). -/
def ownWrite (w : Writer) (b : Nat) (v : Word) (d : Dev) : Dev :=
  let c := fget ING_BANK_OWN_owner v
  let d1 := discardWrite w (ING_BANK_OWN b) d
  if isBank15 b || b == 71 || !ownCode b c || !d.ownWriter w b then
    when (!d.ownWriter w b && c != d.fld (ING_BANK_OWN b) ING_BANK_OWN_owner) (lockBad (ING_BANK_OWN b))
      (d1.setB (ING_BANK_STAT b) ING_BANK_STAT_own_refused true)
  else
    ({ d1 with ownNext := mset 0 d1.ownNext b (c + 1) } : Dev).setB (ING_BANK_STAT b) ING_BANK_STAT_own_pend true

/-- A write of an ING register: the fields of bank 15 are fixed (R285, R297). -/
def ingWrite (nm : RegName) (ix : List Nat) (w : Writer) (addr : Nat) (v : Word) (d : Dev) : Dev :=
  let b := ix.headD 0
  match nm with
  | .ING_BANK_OWN => ownWrite w b v d
  | .ING_BANK_SHARE => if isBank15 b || b == 71 then discardWrite w addr d else plainWrite w addr v d
  | _ => plainWrite w addr v d

/-- ING_BANK_OWN_WRITE. -/
def execIngBankOwnWrite (w : Writer) (b : Fin 72) (v : Word) (s : State) : Out :=
  s.upd fun d => when (d.bankUp b.val) (ownWrite w b.val v) d

/-- A store of core k to bank b stands in its store buffer. -/
def Dev.storesTo (d : Dev) (k b : Nat) : Bool :=
  (d.core k).stores.any fun e =>
    match kindOf e.addr with
    | .ingot b' _ _ => d.mirror k b' == b
    | _ => false

/-- The core that the owner code of bank b names. -/
def Dev.ownerCore (d : Dev) (b : Nat) : Option Nat :=
  let c := d.fld (ING_BANK_OWN b) ING_BANK_OWN_owner
  if 1 ≤ c ∧ c ≤ 4 then some (if b < 64 then b / 16 * 4 + (c - 1) else 15 + c) else none

/-- The old owner has no store to the bank left (R285). -/
def Dev.drained (d : Dev) (b : Nat) : Bool :=
  match d.ownerCore b with
  | some k => !d.storesTo k b
  | none => true

/-- OWNER_HANDOVER: with no store of the old owner left for the bank, the new owner holds the owner port (R285). -/
def execOwnerHandover (b : Fin 72) (s : State) : Out :=
  s.upd fun d =>
    let b := b.val
    match mget 0 d.ownNext b with
    | 0 => d
    | n + 1 =>
      if !d.bankUp b || !d.drained b then d
      else
        let d1 := (d.setF (ING_BANK_OWN b) ING_BANK_OWN_owner n).setB (ING_BANK_STAT b) ING_BANK_STAT_own_pend false
        { d1 with ownNext := mset 0 d1.ownNext b 0 }

/-! ## March test and scrub (R293, R295) -/

/-- Every word of bank b at 0, tag RAW and valid ECC. -/
def Memory.clearBank (m : Memory) (b : Nat) : Memory :=
  let a := bankAddr b 0
  { m with bytes := mclear m.bytes a (a + 0x10000), tags := mclear m.tags a (a + 0x10000), err := mclear m.err a (a + 0x10000) }

/-- Monitors on a word of bank b are cleared: the march test writes all of them (R279, R293). Assumption 41 (DEDUCED). -/
def clearBankMonitors (b : Nat) (d : Dev) : Dev :=
  (List.range 19).foldl (fun d k =>
    if (d.core k).monitor.any fun a => bankAddr b 0 ≤ a && a < bankAddr b 0 + 0x10000 then
      d.modCore k fun c => { c with monitor := none }
    else d) d

/-- The target number of a bank (R356). -/
def bankNo (b : Nat) : Nat := if b < 64 then b else 0x100 + (b - 64)

/-- MARCH_TEST_END: the bank is cleared, ING_MARCH and the command's result report the outcome: the first failing word, or
none (R293, R376). -/
def execMarchTestEnd (b : Fin 72) (first : Option (Fin 16384)) (s : State) : Out :=
  s.updB fun m d =>
    let b := b.val
    if !d.bankUp b || !d.flag (ING_BANK_STAT b) ING_BANK_STAT_march_busy then (m, d)
    else
      let off := match first with
        | some i => 4 * i.val
        | none => 0
      let d1 := ((clearBankMonitors b d).setB (ING_BANK_STAT b) ING_BANK_STAT_march_busy false).wr (ING_MARCH b)
        (w32 (2 ^ 31 + b2n first.isSome * 2 ^ 30 + off))
      (m.clearBank b, endWaits (fun w => w.op == 0x0902 && w.target == bankNo b) stOk (b2n first.isSome + off * 65536) d1)

/-- The blocks of DDR4. -/
def ddrBlocks : Nat := 29360128

/-- PATROL_SCRUB: the controller reads the next 64-byte block and writes back corrected data; an uncorrectable word is
recorded (R295). -/
def execPatrolScrub (s : State) : Out :=
  s.updB fun m d =>
    if !d.ddrUp || d.fld MEM_SCRUB MEM_SCRUB_scrub_iv = 0 ||
        decide (d.now < d.scrubCcyc + d.fld MEM_SCRUB MEM_SCRUB_scrub_iv * 800) then (m, d)
    else
      let base := 0x80000000 + d.scrubAt * 64
      let x := (List.range 8).foldl (fun (y : MD) i =>
        match ddrRead (base + 8 * i) y.1 y.2 with
        | (m', d', _) => (m', d')) (m, evcDevice 0x322 d)
      let next := (d.scrubAt + 1) % ddrBlocks
      let d2 := { x.2 with scrubAt := next, scrubCcyc := d.now }
      (x.1, when (next == 0) (·.incW MEM_SCRUB_PASS MEM_SCRUB_PASS_passes) d2)

/-! ## Requests of the host (R296, R322, R323) -/

/-- The link is up, so that requests can arrive. -/
def Dev.linkUp (d : Dev) : Bool := d.flag GLB_PCIE_STAT GLB_PCIE_STAT_link_up

/-- A memory request is an Unsupported Request: Memory Space Enable is 0, or the function is in D3hot (R323). -/
def Dev.memOff (d : Dev) : Bool := !d.pcie.memSpace || d.fld GLB_PCIE_STAT GLB_PCIE_STAT_dstate == 3

/-- What the endpoint sends. -/
def sendUp (x : Sent) (d : Dev) : Dev := d.modPcie fun p => { p with sent := p.sent ++ [x] }

/-- An Unsupported Request is counted, and a request that expects a completion gets one. Assumption 42 (DEDUCED). -/
def answerUR (reply : Bool) (d : Dev) : Dev :=
  let d1 := d.setF GLB_PCIE_ERR GLB_PCIE_ERR_ur_sent (satInc 8 (d.fld GLB_PCIE_ERR GLB_PCIE_ERR_ur_sent))
  when reply (sendUp (.cpl 1 [] false)) d1

/-- A Completer Abort is counted, and a request that expects a completion gets one. Assumption 42 (DEDUCED). -/
def answerCA (reply : Bool) (d : Dev) : Dev :=
  let d1 := d.setF GLB_PCIE_ERR GLB_PCIE_ERR_ca_sent (satInc 8 (d.fld GLB_PCIE_ERR GLB_PCIE_ERR_ca_sent))
  when reply (sendUp (.cpl 4 [] false)) d1

/-- A poisoned write is discarded and logged (R323). -/
def poisonedWrite (d : Dev) : Dev :=
  (d.setF GLB_PCIE_ERR GLB_PCIE_ERR_poison_rx (satInc 8 (d.fld GLB_PCIE_ERR GLB_PCIE_ERR_poison_rx))).modPcie
    fun p => { p with poisonLog := true }

/-- The fabric address of BAR2 offset x (R296). -/
def Dev.bar2 (d : Dev) (x : Nat) : Nat := d.fld MEM_BAR2_BASE MEM_BAR2_BASE_base * 2 ^ 28 + x

/-- A host window that permits the access holds the address (R296). -/
def Dev.hostWin (d : Dev) (wr : Bool) (a : Nat) : Bool :=
  (List.range 4).any fun w =>
    d.flag (MEM_HWIN_LO w) MEM_HWIN_LO_en && (!wr || d.flag (MEM_HWIN_LO w) MEM_HWIN_LO_wr) &&
      d.fld (MEM_HWIN_LO w) MEM_HWIN_LO_first ≤ a / 4096 && a / 4096 ≤ d.fld (MEM_HWIN_HI w) MEM_HWIN_HI_last

/-- A piece is refused (R296). Assumption 42 (DEDUCED). -/
def denyPiece (d : Dev) : Dev :=
  d.setF MEM_HOST_DENY MEM_HOST_DENY_deny_cnt (satInc 32 (d.fld MEM_HOST_DENY MEM_HOST_DENY_deny_cnt))

/-- One piece read: its word, and whether it carries an uncorrectable error (R294 to R296). -/
def bar2Read (a : Nat) (whole : Bool) (x : MD) : MD × Word × Bool :=
  if !whole || !x.2.hostWin false a then ((x.1, denyPiece x.2), 0xFFFFFFFF, false)
  else match ddrRead a x.1 x.2 with
    | (m, d, .ok v _) => ((m, d), v, false)
    | (m, d, .uncorr v) => ((m, d), v, true)
    | (m, d, .bus) => ((m, d), 0xFFFFFFFF, false)

/-- One piece written. -/
def bar2Write (a : Nat) (v : Option Word) (x : MD) : MD :=
  match v with
  | none => (x.1, denyPiece x.2)
  | some v =>
    if !x.2.hostWin true a then (x.1, denyPiece x.2)
    else match ddrWrite a (leBytes 4 v.toNat) x.1 x.2 with
      | (m, d, _) => (m, d)

/-- A read of pieces from address a on: what the completions carry, split at 64-byte boundaries, each poisoned if a word
of it is. -/
def bar2Reads : List (Option Word) → Nat → MD → MD × List (Nat × Word × Bool)
  | [], _, x => (x, [])
  | p :: ps, a, x =>
    let r := bar2Read a p.isSome x
    let q := bar2Reads ps (a + 4) r.1
    (q.1, (a / 64, r.2.1, r.2.2) :: q.2)

/-- The completions of the words read, one for each 64-byte block. -/
def bar2Cpls (l : List (Nat × Word × Bool)) : List Sent :=
  (l.map (·.1)).eraseDups.map fun b =>
    let g := l.filter fun e => e.1 == b
    .cpl 0 (g.map (·.2.1)) (g.any (·.2.2))

/-- BAR2_ACCESS: a request of the host at offset x, in pieces of 4 bytes; a piece of fewer bytes is none (for a read, some
of any word is a whole piece). Assumption 42 (DEDUCED). -/
def execBar2Access (wr poisoned : Bool) (x : Fin 0x10000000) (ps : List (Option Word)) (s : State) : Out :=
  s.updB fun m d =>
    if !d.linkUp then (m, d)
    else if d.memOff then (m, answerUR (!wr) d)
    else if wr && poisoned then (m, poisonedWrite d)
    else
      let a := d.bar2 (x.val / 4 * 4)
      let places := (List.range ps.length).filterMap fun i =>
        if (ps.getD i none).isSome && d.hostWin wr (a + 4 * i) then some (a + 4 * i) else none
      let d1 := ddrCount wr places (evcDevice 0x20B d)
      if wr then
        (ps.foldl (fun (y : MD × Nat) p => (bar2Write y.2 p y.1, y.2 + 4)) ((m, d1), a)).1
      else
        let r := bar2Reads ps a (m, d1)
        (r.1.1, r.1.2.modPcie fun p => { p with sent := p.sent ++ bar2Cpls r.2 })

end Sys2Proof.Machine
end

