-- ==== Sys2Proof/Machine/AsyUnit.lean ====
section
/-!
DEFINITION. Chapter "Assay": comparison of checkpoints, lag, requests of SPLIT and MERGE, the copy of a merge and the
Assay registers (R303 to R311, R317).
-/
namespace Sys2Proof.Machine

/-- Pair q exists and its island runs. -/
def Dev.pairRuns (d : Dev) (q : Nat) : Bool := if q = 8 then !d.clkHeld else d.clusterRuns (q / 2)

/-- The words of a checkpoint value as a mismatch records them. -/
def chkWords (o : Option ChkVal) : Nat × Nat :=
  match o with
  | some c => (c.val % 2 ^ 32, c.val / 2 ^ 32 % 2 ^ 32)
  | none => (0, 0)

/-- A core's oldest unmatched item: a checkpoint value as its words, or an output entry as its address and data; 0 where
there is none. With both kinds waiting, sel chooses, since the spec does not say which queue holds the older one.
Assumption 43 (DEDUCED). -/
def oldestItem (chk : List ChkVal) (out : List OutEnt) (sel : Bool) : Nat × Nat :=
  match chk.head?, out.head? with
  | some c, none => chkWords (some c)
  | none, some e => (e.addr, e.data.toNat)
  | some c, some e => if sel then chkWords (some c) else (e.addr, e.data.toNat)
  | none, none => (0, 0)

/-- A lag mismatch of pair q (R305 to R307). Assumption 43 (DEDUCED). -/
def lagMismatch (q : Nat) (d : Dev) : Dev :=
  let p := d.pair q
  let a := oldestItem p.chkP p.outP (d.open_ % 2 == 0)
  let b := oldestItem p.chkS p.outS (d.open_ % 2 == 0)
  pairBlock q 5 a.1 a.2 b.1 b.2 d.bump

/-- CHECKPOINT_COMPARE: both cores' oldest values are compared; equal ones are an agreed checkpoint (R305, R307). -/
def execCheckpointCompare (q : Fin 9) (s : State) : Out :=
  s.upd fun d =>
    let q := q.val
    let p := d.pair q
    match p.chkP, p.chkS with
    | a :: ra, b :: rb =>
      if !d.pairRuns q || !d.pairedQ q || d.blockedQ q then d
      else if a.id ≠ b.id ∨ a.val ≠ b.val then
        let x := chkWords (some a)
        let y := chkWords (some b)
        pairBlock q (if a.id ≠ b.id then 1 else 2) x.1 x.2 y.1 y.2 (d.wr (ASY_MIS_ID q) (w32 (a.id % 256 * 256 + b.id % 256)))
      else
        let d1 := d.modCorePair q fun p => { p with chkP := ra, chkS := rb, lastP := some a, lastS := some b, agreed := true, lagT := 0 }
        let d2 := d1.incW (ASY_CHK_CNT q) ASY_CHK_CNT_chk_cnt
        if q < 8 then evcCluster (q / 2) 0x1A0 d2 else d2
    | _, _ => d

/-- Pair q holds an unmatched value or entry, and its lag timer runs (R306). -/
def Dev.lagRuns (d : Dev) (q : Nat) : Bool :=
  let p := d.pair q
  d.pairRuns q && d.pairedQ q && !d.blockedQ q && !d.coreHalted (2 * q) && !d.coreHalted (2 * q + 1) &&
    !(p.chkP == [] && p.chkS == [] && p.outP == [] && p.outS == [])

/-- One ccyc of pair q: its lag timer counts, and so does the copy of a merge, both standing still while the pair's island
does (R306, R310, R311). -/
def pairTick (q : Nat) (d : Dev) : Dev :=
  let d1 := when (d.lagRuns q) (·.modCorePair q fun p => { p with lagT := p.lagT + 1 }) d
  when (d1.pairRuns q && (d1.pair q).copying) (·.modCorePair q fun p => { p with copyT := p.copyT + 1 }) d1

/-- LAG_EXPIRY: the lag timer of a pair with an unmatched value or entry reaches lag_max × 64 acyc of two ccyc; it stands
still while one of the cores is halted (R306). -/
def execLagExpiry (q : Fin 9) (s : State) : Out :=
  s.upd fun d =>
    let q := q.val
    when (d.lagRuns q && d.fld (ASY_PAIR_CTL q) ASY_PAIR_CTL_lag_max * 128 ≤ (d.pair q).lagT) (lagMismatch q) d

/-- The bank that a mirror entry's local bank number names. -/
def mirBank (q l : Nat) : Nat := if q = 8 then 64 + l % 8 else q / 2 * 16 + l

/-- An enabled mirror entry of pair q names banks that their cores do not own (R310). -/
def Dev.mirrorUnowned (d : Dev) (q : Nat) : Bool :=
  (List.range 4).any fun m =>
    d.flag (ASY_MIR q m) ASY_MIR_en &&
      (!d.isOwner (.core (2 * q + 1)) (mirBank q (d.fld (ASY_MIR q m) ASY_MIR_sbank)) ||
        !d.isOwner (.core (2 * q)) (mirBank q (d.fld (ASY_MIR q m) ASY_MIR_pbank)))

/-- A request of SPLIT or MERGE of pair q: its status, and the device with the request pending (R309 to R311).
Assumptions 43, 62 (DEDUCED). -/
def pairAsk (q : Nat) (merge : Bool) (d : Dev) : Dev × Nat :=
  let a := ASY_PAIR_CTL q
  if d.flag a ASY_PAIR_CTL_req_split || d.flag a ASY_PAIR_CTL_req_merge then (d, stBusy)
  else if merge then
    if d.pairedQ q then (d, stNotPermitted)
    else if (d.core (2 * q)).byteMode != (d.core (2 * q + 1)).byteMode || d.mirrorUnowned q then (d, stBadParam)
    else (d.setB a ASY_PAIR_CTL_req_merge true, stOk)
  else if !d.pairedQ q then (d, stNotPermitted)
  else ((d.setB a ASY_PAIR_CTL_req_split true).modCorePair q fun p => { p with agreed := false }, stOk)

/-- A write of ASY_PAIR_CTL: its request bits ask (R309, R310). -/
def pairCtlWrite (w : Writer) (q : Nat) (v : Word) (d : Dev) : Dev :=
  let a := ASY_PAIR_CTL q
  let was := d.rd a
  let x := regWriteCore w a v d
  let d1 := (x.1.setF a ASY_PAIR_CTL_req_split (fget ASY_PAIR_CTL_req_split was)).setF a ASY_PAIR_CTL_req_merge
    (fget ASY_PAIR_CTL_req_merge was)
  let d2 := when (fget ASY_PAIR_CTL_req_split x.2 == 1) (fun y => (pairAsk q false y).1) d1
  when (fget ASY_PAIR_CTL_req_merge x.2 == 1) (fun y => (pairAsk q true y).1) d2

/-- REQ_SPLIT: a write of req_split (R309). -/
def execReqSplit (w : Writer) (q : Fin 9) (s : State) : Out :=
  s.upd fun d => when (d.pairRuns q.val)
    (fun x => pairCtlWrite w q.val (fput ASY_PAIR_CTL_req_split (x.rd (ASY_PAIR_CTL q.val) &&& 0x1FFFFFFF) 1) x) d

/-- REQ_MERGE: a write of req_merge (R310). -/
def execReqMerge (w : Writer) (q : Fin 9) (s : State) : Out :=
  s.upd fun d => when (d.pairRuns q.val)
    (fun x => pairCtlWrite w q.val (fput ASY_PAIR_CTL_req_merge (x.rd (ASY_PAIR_CTL q.val) &&& 0x1FFFFFFF) 1) x) d

/-- A map with the entries from a up to a + n copied to b on. -/
def mcopy {α : Type} [DecidableEq α] (dflt : α) (m : SMap α) (a b n : Nat) : SMap α :=
  (m.entries.filter fun e => a ≤ e.1 && e.1 < a + n).foldl (fun r e => mset dflt r (e.1 - a + b) e.2) (mclear m b (b + n))

/-- Bank a copied to bank b, words with their tags and their error state. -/
def Memory.copyBank (m : Memory) (a b : Nat) : Memory :=
  let x := bankAddr a 0
  let y := bankAddr b 0
  { m with bytes := mcopy 0 m.bytes x y 0x10000, tags := mcopy 0 m.tags x y 0x10000, err := mcopy 0 m.err x y 0x10000 }

/-- Both cores of pair q wait in CHKPT for a MERGE. -/
def Dev.mergeReady (d : Dev) (q : Nat) : Bool :=
  d.pairRuns q && d.flag (ASY_PAIR_CTL q) ASY_PAIR_CTL_req_merge && (d.core (2 * q)).mergeWait &&
    (d.core (2 * q + 1)).mergeWait

/-- MERGE_COPY: with both cores waiting, mirror banks whose copy is set and the primary's state are copied to the shadow
(R310). Assumption 43 (DEDUCED). -/
def execMergeCopy (q : Fin 9) (s : State) : Out :=
  s.updB fun m d =>
    let q := q.val
    if !d.mergeReady q || (d.pair q).copying then (m, d)
    else
      let m1 := (List.range 4).foldl (fun x i =>
        if d.flag (ASY_MIR q i) ASY_MIR_en && d.flag (ASY_MIR q i) ASY_MIR_copy then
          x.copyBank (mirBank q (d.fld (ASY_MIR q i) ASY_MIR_pbank)) (mirBank q (d.fld (ASY_MIR q i) ASY_MIR_sbank))
        else x) m
      let p := d.core (2 * q)
      let d1 := d.modCore (2 * q + 1) fun c => { c with
        w := p.w, tg := p.tg, p := p.p, bk := p.bk, pc := p.pc, tsr := p.tsr, tsbp := p.tsbp, ctxid := p.ctxid,
        ring := p.ring, ipl := p.ipl, ie := p.ie, df := p.df, monitor := p.monitor, late := p.late, lateOvf := p.lateOvf }
      (m1, d1.modCorePair q fun x => { x with copying := true, copyT := 0 })

/-- The ccyc of pair q's merge copy: 16,384 for each entry with copy set, and 960 for the primary's state (R310). -/
def Dev.copySpan (d : Dev) (q : Nat) : Nat :=
  960 + 16384 * ((List.range 4).filter fun i => d.flag (ASY_MIR q i) ASY_MIR_en && d.flag (ASY_MIR q i) ASY_MIR_copy).length

/-- MERGE_COMPLETE: the copy has ended; comparison starts with empty queues, both cores continue after the CHKPT, and the
command completes (R310). -/
def execMergeComplete (q : Fin 9) (s : State) : Out :=
  s.upd fun d =>
    let q := q.val
    if !d.mergeReady q || !(d.pair q).copying || (d.pair q).copyT < d.copySpan q then d
    else
      let go := fun (c : Core) => { c with pc := (c.pc + 4) % 2 ^ 32, sig := [], pfq := [] }
      let d1 := (d.modCore (2 * q) go).modCore (2 * q + 1) go
      let d2 := (d1.modCorePair q fun _ => .reset).setB (ASY_PAIR_CTL q) ASY_PAIR_CTL_paired true
      certEval (pairRequestEnd q true stOk 0 (d2.setB (ASY_PAIR_STAT q) ASY_PAIR_STAT_switched true))

/-- A write of ASY_INA_MAP: an address outside the register range, or of an ASY register, is discarded with cfg_err
(R303). Assumption 43 (DEDUCED). -/
def inaMapWrite (w : Writer) (c n : Nat) (v : Word) (d : Dev) : Dev :=
  let addr := ASY_INA_MAP c n
  let a := fget ASY_INA_MAP_addr v * 4
  if !d.accepts w addr then plainWrite w addr v d
  else if a < 0x02000000 ∨ 0x03000000 ≤ a ∨ (findClass a regsASY).isSome then
    (discardWrite w addr d).setB (ASY_GSTAT c) ASY_GSTAT_cfg_err true
  else plainWrite w addr v d

/-- ASY_INA_MAP_WRITE. -/
def execAsyInaMapWrite (w : Writer) (c : Fin 5) (n : Fin 8) (v : Word) (s : State) : Out :=
  s.upd fun d => when (if c.val < 4 then d.clusterRuns c.val else !d.clkHeld) (inaMapWrite w c.val n.val v) d

/-- A write of an ASY register. -/
def asyWrite (nm : RegName) (ix : List Nat) (w : Writer) (addr : Nat) (v : Word) (d : Dev) : Dev :=
  match nm with
  | .ASY_PAIR_CTL => pairCtlWrite w (ix.headD 0) v d
  | .ASY_INA_MAP => inaMapWrite w (ix.headD 0) (ix.getD 1 0) v d
  | _ => plainWrite w addr v d

end Sys2Proof.Machine
end

