-- ==== Sys2Proof/Machine/Ladle.lean ====
section
/-!
DEFINITION. Chapter "Ladle rings, commands and events": rings, doorbells, fetching and checking of descriptors,
authentication, completions and event records, and MSI-X (R325, R329 to R353).
-/
namespace Sys2Proof.Machine

/-! ## Rings (R329, R330) -/

def tySQ : Nat := 1
def tyCQ : Nat := 2
def tyEQ : Nat := 3
def tyST : Nat := 4

/-- Ring r exists. -/
def Dev.ringOn (d : Dev) (r : Nat) : Bool := d.fldIf (LDL_RING_CFG r) LDL_RING_CFG_valid == 1
/-- The type of ring r. -/
def Dev.ringType (d : Dev) (r : Nat) : Nat := d.fldIf (LDL_RING_CFG r) LDL_RING_CFG_type
/-- Ring r exists and has this type. -/
def Dev.isRing (d : Dev) (r ty : Nat) : Bool := d.ringOn r && d.ringType r == ty
/-- The size of ring r. -/
def Dev.ringN (d : Dev) (r : Nat) : Nat := 2 ^ d.fldIf (LDL_RING_CFG r) LDL_RING_CFG_lg
/-- The base of ring r in host memory. -/
def Dev.ringBase (d : Dev) (r : Nat) : Nat :=
  d.fldIf (LDL_RING_BASE_LO r) LDL_RING_BASE_LO_lo * 64 + d.fldIf (LDL_RING_BASE_HI r) LDL_RING_BASE_HI_hi * 2 ^ 32
/-- The head of ring r. -/
def Dev.ringHead (d : Dev) (r : Nat) : Nat := d.fldIf (LDL_RING_PTR r) LDL_RING_PTR_head
/-- The tail of ring r. -/
def Dev.ringTail (d : Dev) (r : Nat) : Nat := d.fldIf (LDL_RING_PTR r) LDL_RING_PTR_tail
/-- Ring r is in error. -/
def Dev.ringBad (d : Dev) (r : Nat) : Bool := d.fldIf (LDL_RING_STAT r) LDL_RING_STAT_err == 1
/-- The deletion of ring r is under way. -/
def Dev.ringDel (d : Dev) (r : Nat) : Bool := d.fldIf (LDL_RING_STAT r) LDL_RING_STAT_del_pend == 1
/-- The ring that ring r is linked to: the CQ of an SQ. -/
def Dev.ringLink (d : Dev) (r : Nat) : Nat := d.fldIf (LDL_RING_CFG r) LDL_RING_CFG_link
/-- Entries of ring r that its consumer has not taken. -/
def Dev.ringUsed (d : Dev) (r : Nat) : Nat := (d.ringTail r + d.ringN r - d.ringHead r) % d.ringN r
/-- Entries ring r has room for (R330). -/
def Dev.ringRoom (d : Dev) (r : Nat) : Nat := d.ringN r - 1 - d.ringUsed r

/-- The device may use host memory: the link is up and Bus Master Enable is 1. -/
def Dev.hostOk (d : Dev) : Bool := d.linkUp && d.pcie.busMaster

/-- A change of both memories and device by the Ladle. -/
abbrev Mem2 := MD → MD

/-- The head mirror of ring r is written (R333). Assumption 45 (DEDUCED). -/
def headMirror (r : Nat) (x : MD) : MD :=
  let d := x.2
  if d.fldIf (LDL_RING_CFG r) LDL_RING_CFG_mir = 1 then
    let a := d.fldIf (LDL_RING_MIR_LO r) LDL_RING_MIR_LO_lo * 4 + d.fldIf (LDL_RING_MIR_HI r) LDL_RING_MIR_HI_hi * 2 ^ 32
    (x.1.setHost a (leBytes 4 (d.ringHead r)), d)
  else x

/-- Ring r with a type, size, link, vector, head mirror and base comes into existence, empty. -/
def ringMake (r ty lg link : Nat) (vec : Option Nat) (mir base : Nat) (d : Dev) : Dev :=
  let cfg := 2 ^ 31 + ty * 2 ^ 28 + lg % 16 * 2 ^ 24 + (match vec with
      | some v => 2 ^ 23 + v % 64 * 2 ^ 17
      | none => 0) + b2n (mir != 0) * 2 ^ 16 + link % 4096
  let d1 := (d.wr (LDL_RING_CFG r) (w32 cfg)).wr (LDL_RING_BASE_LO r) (w32 (base / 64 * 64))
  let d2 := (d1.wr (LDL_RING_BASE_HI r) (w32 (base / 2 ^ 32))).wr (LDL_RING_STAT r) 0
  let d3 := (d2.wr (LDL_RING_MIR_LO r) (w32 (mir / 4 * 4))).wr (LDL_RING_MIR_HI r) (w32 (mir / 2 ^ 32))
  d3.wr (LDL_RING_PTR r) (if ty = tyCQ ∨ ty = tyEQ then 0x80000000 else 0)

/-- Ring r no longer exists. -/
def ringDrop (r : Nat) (d : Dev) : Dev :=
  let a := LDL_RING_BASE_LO r
  let d1 := { d with
    regs := mclear d.regs a (a + 0x20)
    sqs := mset .reset d.sqs r .reset
    bells := d.bells.filter fun b => b.ring != r
    waits := d.waits.filter fun w => w.sq != r
    cpls := d.cpls.filter fun c => c.sq != r
    lostFor := mset 0 d.lostFor r 0 }
  d1

/-- Ring r enters error: RING_ERROR is posted to the default EQ (R347). -/
def ringError (r code : Nat) (d : Dev) : Dev :=
  if d.ringBad r || !d.ringOn r then d
  else
    let d1 := (d.setB (LDL_RING_STAT r) LDL_RING_STAT_err true).setF (LDL_RING_STAT r) LDL_RING_STAT_err_code code
    if r = 2 then d1
    else
      let rec0 : EvRec := ⟨2, 0x0102, 0, r, d1.stamp 0, [r, code], false⟩
      if !d1.flag LDL_ADMIN_CTL LDL_ADMIN_CTL_en || d1.ringBad 2 || 256 < evLevel d1.events + 1 then loseEvents 2 1 d1
      else d1.setEvents (d1.events ++ [rec0])

/-! ## MSI-X (R325) -/

/-- Vector v. -/
def Dev.vec (d : Dev) (v : Nat) : Vec := mget .reset d.pcie.vecs v

/-- Vector v changed by f. -/
def Dev.modVec (d : Dev) (v : Nat) (f : Vec → Vec) : Dev :=
  d.modPcie fun p => { p with vecs := mset .reset p.vecs v (f (mget .reset p.vecs v)) }

/-- The message of vector v is due: it is sent, or waits for the L1 exit, or sets the pending bit.
Assumption 44 (DEDUCED). -/
def vecSend (v : Nat) (d : Dev) : Dev :=
  if d.fld GLB_PCIE_STAT GLB_PCIE_STAT_dstate = 3 ∨ d.pcie.busMaster = false ∨ d.pcie.msixEn = false ∨ d.pcie.funcMask = true ∨
      (d.vec v).masked = true then d.modVec v fun x => { x with pend := true }
  else if d.flag GLB_PCIE_STAT GLB_PCIE_STAT_l1 then d.modVec v fun x => { x with due := true }
  else evcDevice 0x209 ((sendUp (.msix v) d).modVec v fun x => { x with pend := false, count := 0, due := false })

/-- A record was written to a ring bound to vector v. -/
def vecCount (v : Nat) (d : Dev) : Dev :=
  let d1 := d.modVec v fun x => { x with count := x.count + 1, first := if x.count = 0 then d.time.master else x.first }
  when (d1.fld (GLB_MSIX_MOD v) GLB_MSIX_MOD_cnt_th ≤ (d1.vec v).count) (vecSend v) d1

/-- A record was written to ring r. -/
def ringSignal (r : Nat) (d : Dev) : Dev :=
  if d.fld (LDL_RING_CFG r) LDL_RING_CFG_ven = 1 then vecCount (d.fld (LDL_RING_CFG r) LDL_RING_CFG_vec) d else d

/-- The mask bit of vector v: at unmask one message is sent if its pending bit is set. -/
def vecMask (v : Nat) (m : Bool) (d : Dev) : Dev :=
  let d1 := d.modVec v fun x => { x with masked := m }
  when (!m && (d1.vec v).pend) (vecSend v) d1

/-- The device time at which the timer of vector v fires: the first µs boundary tmo µs after the first unsignalled record,
a µs being 800 ticks (R325). -/
def Dev.vecFires (d : Dev) (v : Nat) : Nat := ((d.vec v).first + d.fld (GLB_MSIX_MOD v) GLB_MSIX_MOD_tmo * 800 + 799) / 800 * 800

/-- MSIX_TIMEOUT: tmo µs have passed since the first unsignalled record (R325). -/
def execMsixTimeout (v : Fin 64) (s : State) : Out :=
  s.upd fun d =>
    when (0 < (d.vec v.val).count && 0 < d.fld (GLB_MSIX_MOD v.val) GLB_MSIX_MOD_tmo && !(d.vec v.val).due && !(d.vec v.val).pend &&
        decide (d.vecFires v.val ≤ d.time.master))
      (vecSend v.val) d

/-- MSIX_UNMASK: the mask bit of vector v is cleared. -/
def execMsixUnmask (v : Fin 64) (s : State) : Out := s.upd (vecMask v.val false)

/-- A word of the MSI-X table (offset within it) or, from 0x400 on, of the pending bits, read (R322). -/
def msixRead (off : Nat) (d : Dev) : Word :=
  if off < 0x400 then
    let x := d.vec (off / 16)
    match off % 16 / 4 with
    | 0 => w32 x.addr
    | 1 => w32 (x.addr / 2 ^ 32)
    | 2 => w32 x.data
    | _ => w32 (b2n x.masked)
  else w32 ((List.range 32).foldl (fun m i => if (d.vec ((off - 0x400) / 4 * 32 + i)).pend then m + 2 ^ i else m) 0)

/-- A word of the MSI-X table written; the pending bits take no write. -/
def msixWrite (off : Nat) (v : Word) (d : Dev) : Dev :=
  let k := off / 16
  if 0x400 ≤ off then d
  else match off % 16 / 4 with
    | 0 => d.modVec k fun x => { x with addr := x.addr / 2 ^ 32 * 2 ^ 32 + v.toNat / 4 * 4 }
    | 1 => d.modVec k fun x => { x with addr := v.toNat * 2 ^ 32 + x.addr % 2 ^ 32 }
    | 2 => d.modVec k fun x => { x with data := v.toNat }
    | _ => vecMask k (v.getLsbD 0) d

/-! ## Doorbells (R334) -/

/-- A doorbell write is discarded for a reason. Assumption 45 (DEDUCED). -/
def badBell (r reason : Nat) (d : Dev) : Dev :=
  (d.setB LDL_GSTAT LDL_GSTAT_db_err true).wr LDL_DB_ERR (w32 (reason * 4096 + r))

/-- The reason to discard a doorbell of ring r with value v, 0 for none. Assumption 45 (DEDUCED). -/
def Dev.bellReason (d : Dev) (w : Writer) (r v : Nat) : Nat :=
  let i := v % 2 ^ 15
  if w ≠ .host then 5
  else if !d.ringOn r || d.ringDel r then 1
  else if d.ringBad r then 4
  else if 2 ^ 15 ≤ v then 3
  else if d.ringN r ≤ i then 2
  else
    let n := d.ringN r
    if d.ringType r = tySQ ∨ d.ringType r = tyST then
      (if d.ringRoom r < (i + n - d.ringTail r) % n then 6 else 0)
    else if d.ringUsed r < (i + n - d.ringHead r) % n then 6 else 0

/-- A doorbell write. -/
def doorbell (w : Writer) (r : Nat) (v : Word) (x : MD) : MD :=
  let d := x.2
  match d.bellReason w r v.toNat with
  | 0 =>
    let i := v.toNat % 2 ^ 15
    let d1 := evcDevice 0x200 d
    if d.ringType r = tySQ ∨ d.ringType r = tyST then
      let d2 := d1.setF (LDL_RING_PTR r) LDL_RING_PTR_tail i
      if d.ringType r = tySQ ∧ i ≠ d.ringTail r then
        (x.1, { d2 with bells := d2.bells ++ [⟨r, i, d2.nextOrder⟩], nextOrder := d2.nextOrder + 1 })
      else (x.1, d2)
    else headMirror r (x.1, d1.setF (LDL_RING_PTR r) LDL_RING_PTR_head i)
  | n => (x.1, badBell r n d)

/-- What a read of a doorbell returns: the last value accepted. Assumption 45 (DEDUCED). -/
def Dev.bellRead (d : Dev) (r : Nat) : Word :=
  if !d.ringOn r then 0
  else if d.ringType r = tySQ ∨ d.ringType r = tyST then w32 (d.ringTail r) else w32 (d.ringHead r)

/-- DOORBELL. -/
def execDoorbell (w : Writer) (r : Fin 4096) (v : Word) (s : State) : Out := s.updB fun m d => doorbell w r.val v (m, d)

/-! ## Descriptors (R336, R337, R340, R342) -/

/-- n bytes of a descriptor from byte i on, as a number. -/
def dget (b : List Byte) (i n : Nat) : Nat := leNat ((b.drop i).take n)

/-- The fields of a descriptor. -/
def dOp (b : List Byte) : Nat := dget b 0 2
def dAuth (b : List Byte) : Bool := bit (dget b 2 1) 0
def dFence (b : List Byte) : Bool := bit (dget b 2 1) 1
def dQuiet (b : List Byte) : Bool := bit (dget b 2 1) 2
def dChain (b : List Byte) : Bool := bit (dget b 2 1) 3
def dSess (b : List Byte) : Nat := dget b 3 1
def dTag (b : List Byte) : Nat := dget b 4 4
def dTarget (b : List Byte) : Nat := dget b 8 4

/-- The first descriptor of a command. -/
def Cmd.d0 (c : Cmd) : List Byte := c.descs.headD []

/-- The opcodes of R359 to R380. -/
def opcodes : List Nat :=
  [0x0101, 0x0102, 0x0110, 0x0111, 0x0113, 0x0120, 0x0130, 0x0131, 0x0201, 0x0202, 0x0203, 0x0204, 0x0210, 0x0211] ++
  [0x0301, 0x0302, 0x0303, 0x0304, 0x0305, 0x0310, 0x0320, 0x0401, 0x0402, 0x0403, 0x0501, 0x0502, 0x0510, 0x0520] ++
  [0x0601, 0x0602, 0x0603, 0x0701, 0x0702, 0x0703, 0x0710, 0x0711, 0x0720, 0x0721, 0x0801, 0x0802, 0x0803, 0x0804] ++
  [0x0810, 0x0901, 0x0902, 0x0903, 0x0A01, 0x0A02, 0x0A03, 0x0A10, 0x0B01, 0x0B02, 0x0B03, 0x0B04, 0x0C01, 0x0C02] ++
  [0x0C03, 0x0C10, 0x0C20]

/-- The fast-path opcodes (R358). -/
def fastOp (op : Nat) : Bool := [0x0301, 0x0310, 0x0320, 0x0403, 0x0510].contains op

/-- The opcodes that may chain. -/
def chainOp (op : Nat) : Bool := [0x0201, 0x0211, 0x0C10].contains op

/-- A chain whose descriptors do not fit together (R337). -/
def badChain (l : List (List Byte)) : Bool :=
  let f := l.headD []
  decide (64 < l.length) ||
    (decide (1 < l.length) && (fastOp (dOp f) ||
      l.any fun b => dOp b != dOp f || dSess b != dSess f || dTag b != dTag f || dget b 2 1 &&& 0xF7 != dget f 2 1 &&& 0xF7))

/-- The status that refuses a command before authentication: unknown opcode, reserved flags or session, malformed chain,
CHAIN on an opcode that may not chain, an auth tag where there is none, or a chain whose earlier descriptors carry
one (R336, R340, R354). -/
def formRefusal (l : List (List Byte)) : Option Nat :=
  let f := l.headD []
  let lastD := l.getLastD []
  if l.any fun b => !opcodes.contains (dOp b) then some stBadOpcode
  else if l.any fun b => 16 ≤ dget b 2 1 || 16 ≤ dSess b then some stBadParam
  else if badChain l || (decide (1 < l.length) && !chainOp (dOp f)) then some stBadParam
  else if (!dAuth f && dget lastD 56 8 != 0) || (l.dropLast.any fun b => dget b 56 8 != 0) then some stBadParam
  else none

/-- The command requires authentication: classes 7, 8 and 0xA, and those the owner has marked (R342, R375). -/
def Dev.needsAuth (d : Dev) (op : Nat) : Bool :=
  let c := op / 256
  c == 7 || c == 8 || c == 10 || (c != 1 && (d.fld HLM_AUTH_MASK HLM_AUTH_MASK_mask).testBit c)

/-- The bytes the authentication tag covers. -/
def authBytes (l : List (List Byte)) : List Byte := l.flatMap fun b => b.take 56

/-- The check of R342: the reason it fails with, or the counter it accepts for a session, or nothing to check.
Assumption 47 (DEDUCED). -/
def Dev.authCheck (d : Dev) (l : List (List Byte)) : Nat ⊕ Option (Nat × Nat) :=
  let f := l.headD []
  let s := dSess f
  let lastD := l.getLastD []
  if !dAuth f && s = 0 then (if d.needsAuth (dOp f) then .inl 4 else .inr none)
  else if !dAuth f || s = 0 then .inl 5
  else match mget none d.hlm.sess s with
    | none => .inl 4
    | some x =>
      let c := dget lastD 48 8
      if Config.hmacTag x.key (authBytes l) % 2 ^ 64 ≠ dget lastD 56 8 then .inl 1
      else if x.used.contains c then .inl 2
      else if c + 64 ≤ x.used.headD 0 ∧ x.used ≠ [] then .inl 3
      else .inr (some (s, c))

/-- A counter put among the accepted ones, the highest first; those that the window has left are forgotten. -/
def useCounter (c : Nat) (l : List Nat) : List Nat :=
  let k := (l.filter fun x => c < x) ++ [c] ++ l.filter fun x => x < c
  k.filter fun x => k.headD 0 < x + 64

/-- A whole chain is checked: the command with what refuses it (R340, R342). Assumption 45 (DEDUCED). -/
def checkCmd (l : List (List Byte)) (head order : Nat) (d : Dev) : Dev × Cmd :=
  match formRefusal l with
  | some n => (d, ⟨l, head, order, some n, false⟩)
  | none =>
    match d.authCheck l with
    | .inl r => (authFail (dOp (l.headD [])) (dSess (l.headD [])) r d, ⟨l, head, order, some stAuthFailed, false⟩)
    | .inr none => (d, ⟨l, head, order, none, false⟩)
    | .inr (some (s, c)) =>
      (d.modHlm fun h => { h with sess := mset none h.sess s ((mget none h.sess s).map fun x => { x with used := useCounter c x.used }) },
        ⟨l, head, order, none, false⟩)

/-- The place in the order of doorbells of the doorbell that made entry i of SQ r visible. -/
def Dev.bellOrder (d : Dev) (r i : Nat) : Nat :=
  let h := d.ringHead r
  let n := d.ringN r
  match d.bells.find? fun b => b.ring == r && decide ((i + n - h) % n < (b.tail + n - h) % n) with
  | some b => b.order
  | none => d.nextOrder

/-- One entry of SQ r is fetched. Assumption 45 (DEDUCED). -/
def fetchOne (r : Nat) (x : MD) : MD :=
  let d := x.2
  let h := d.ringHead r
  if d.ringTail r = h then x
  else
    let b := x.1.hostSpan (d.ringBase r + 64 * h) 64
    let nh := (h + 1) % d.ringN r
    let order := d.bellOrder r h
    let l := (d.sqOf r).part ++ [b]
    let d1 := evcDevice 0x201 (d.setF (LDL_RING_PTR r) LDL_RING_PTR_head nh)
    let d2 := { d1 with bells := d1.bells.filter fun y => !(y.ring == r && y.tail == nh) }
    if dChain b then (x.1, d2.modSq r fun q => { q with part := l })
    else
      let y := checkCmd l nh order d2
      (x.1, y.1.modSq r fun q => { q with part := [], cmds := q.cmds ++ [y.2] })

/-- DESCRIPTOR_FETCH: a burst of up to 8 entries of SQ r, in ring order (R326, R340). -/
def execDescriptorFetch (r : Fin 4096) (s : State) : Out :=
  s.updB fun m d =>
    let r := r.val
    if !d.isRing r tySQ || d.ringBad r || d.ringDel r || !d.hostOk || d.fld GLB_PCIE_STAT GLB_PCIE_STAT_dstate == 3 ||
        d.ringUsed r == 0 then (m, d)
    else headMirror r ((List.range (min 8 (d.ringUsed r))).foldl (fun x _ => fetchOne r x) (m, d))

/-! ## Beginning and completing commands (R340, R341, R344) -/

/-- The completion of the front command of SQ r awaits its record. -/
def Dev.cplOf (d : Dev) (r : Nat) : Option Cpl := d.cpls.find? fun c => c.sq == r

/-- The CQ of SQ r takes another record. -/
def Dev.cqRoom (d : Dev) (r : Nat) : Bool :=
  let q := d.ringLink r
  d.isRing q tyCQ && !d.ringBad q && 0 < d.ringRoom q

/-- No earlier command of the same session is left on another SQ (R341). Assumption 45 (DEDUCED). -/
def Dev.fenceOk (d : Dev) (r : Nat) (c : Cmd) : Bool :=
  let s := dSess c.d0
  let open_ := fun (q : Nat) (x : Cmd) =>
    dSess x.d0 == s && decide (x.order < c.order) && !(x.begun && (d.cplOf q).isSome)
  d.sqs.entries.all (fun e => e.1 == r || !(match e.2.cmds with
    | [] => false
    | f :: rest => open_ e.1 f || rest.any fun y => dSess y.d0 == s && decide (y.order < c.order))) &&
    d.bells.all fun b => b.ring == r || decide (c.order ≤ b.order)

/-- The bench firmware serves the firmware path: a bench core is not in LOCKOUT, and none is halted (R308, R478). -/
def Dev.firmware (d : Dev) : Bool :=
  (!d.locked 16 || !d.locked 17) && d.fld DBG_STAT DBG_STAT_bench_halted == 0

/-- The command of SQ r that begins now, if it has this opcode. -/
def Dev.front (d : Dev) (r op : Nat) : Option Cmd :=
  match (d.sqOf r).cmds with
  | c :: _ =>
    if d.isRing r tySQ && !c.begun && c.refuse == none && dOp c.d0 == op && d.cqRoom r &&
        (!dFence c.d0 || d.fenceOk r c) && (fastOp op || d.firmware) then some c else none
  | [] => none

/-- The front command of SQ r has begun. -/
def beginCmd (r : Nat) (d : Dev) : Dev :=
  d.modSq r fun q => { q with cmds := match q.cmds with
    | c :: l => { c with begun := true } :: l
    | [] => [] }

/-- The command of SQ r ends with this status and result. -/
def finish (r : Nat) (c : Cmd) (status result : Nat) (d : Dev) : Dev :=
  let d1 := beginCmd r d
  { d1 with cpls := d1.cpls ++ [⟨r, dTag c.d0, status, result⟩] }

/-- The timeout parameter of a command in ms, 0 where its opcode has none (R358, R364, R373, R380). -/
def Cmd.limit (c : Cmd) : Nat :=
  let ms := fun (n : Nat) => if n = 0 then 100 else n
  match dOp c.d0 with
  | 0x0203 | 0x0C10 => ms (dget c.d0 14 2)
  | 0x0601 => ms (dget c.d0 26 2)
  | _ => 0

/-- The command of SQ r is under way on a target; what it carries is aux. -/
def await (r : Nat) (c : Cmd) (target : Nat) (aux : List Nat) (d : Dev) : Dev :=
  let d1 := beginCmd r d
  let n := d1.waits.foldl (fun k w => max k (w.seq + 1)) 0
  { d1 with waits := d1.waits ++ [⟨r, dTag c.d0, dOp c.d0, target, aux, n, d.now, c.limit⟩] }

/-- The bytes of a completion record (R338). -/
def cplBytes (tag status op result head phase : Nat) : List Byte :=
  leBytes 4 tag ++ leBytes 2 status ++ leBytes 2 op ++ leBytes 6 result ++ leBytes 2 (head + phase * 2 ^ 15)

/-- Bytes put at the tail of ring q, whose tail and phase advance (R339). -/
def putRecord (q : Nat) (size : Nat) (bytes : Nat → List Byte) (x : MD) : MD :=
  let d := x.2
  let t := d.ringTail q
  let ph := d.fld (LDL_RING_PTR q) LDL_RING_PTR_phase
  let m := x.1.setHost (d.ringBase q + size * t) (bytes ph)
  let nt := (t + 1) % d.ringN q
  let d1 := d.setF (LDL_RING_PTR q) LDL_RING_PTR_tail nt
  (m, ringSignal q (if nt = 0 then d1.setF (LDL_RING_PTR q) LDL_RING_PTR_phase (1 - ph) else d1))

/-- The opcode a completion record echoes: 0xFFFF where the descriptor could not be decoded. Assumption 45 (DEDUCED). -/
def echoOp (c : Cmd) : Nat :=
  if c.refuse = some stBadOpcode ∨ c.descs.any (fun b => dOp b != dOp c.d0) then 0xFFFF else dOp c.d0

/-- What follows a completion that has been written: a new ring exists, a deleted one is gone, a reset is due; after a
lifecycle transition sessions end and debug grants lapse (R332, R348, R361, R441). -/
def afterCpl (c : Cmd) (status : Nat) (d : Dev) : Dev :=
  let b := c.d0
  let r := dTarget b
  if status ≠ stOk then d
  else match dOp b with
    | 0x0110 =>
      let ty := dget b 12 1
      ringMake r ty (dget b 13 1) (if ty = tySQ then dget b 32 2 else if ty = tyST then 0xFFF else 0)
        (if (ty = tyCQ ∨ ty = tyEQ) ∧ dget b 14 1 < 64 then some (dget b 14 1) else none)
        (dget b 24 8) (dget b 16 8) d
    | 0x0111 => ringDrop r d
    | 0x0120 => if dget b 12 1 = 1 then d else d.addDue (.reset (dget b 12 1))
    | 0x0803 => debugLapse 1 (debugLapse 0 (sessEndAll 4 d))
    | _ => d

/-- The admin rings go once ring 0 has nothing left and its deletion is under way (R331). -/
def adminDrop (d : Dev) : Dev :=
  if d.ringDel 0 ∧ (d.sqOf 0).cmds = [] then ringDrop 2 (ringDrop 1 (ringDrop 0 d)) else d

/-- The deletion of SQ r ends once its last fetched command has completed, with the final head as its result (R348). -/
def ringDone (r : Nat) (d : Dev) : Dev :=
  if r ≠ 0 ∧ d.ringDel r ∧ (d.sqOf r).cmds = [] then
    endWaits (fun w => w.op == 0x0111 && w.target == r) stOk (d.ringHead r) d
  else d

/-- The front command of SQ r leaves with this status and result; its record is written unless QUIET forbids it. -/
def completeFront (r : Nat) (c : Cmd) (status result : Nat) (x : MD) : MD :=
  let d1 := x.2.modSq r fun q => { q with cmds := q.cmds.drop 1 }
  let d2 := { d1 with cpls := match d1.cplOf r with
    | some k => d1.cpls.erase k
    | none => d1.cpls }
  let d3 := evcDevice (if fastOp (dOp c.d0) then 0x202 else 0x203) d2
  let x1 := if dQuiet c.d0 && status == stOk then (x.1, d3)
    else
      let y := putRecord (d3.ringLink r) 16 (fun ph => cplBytes (dTag c.d0) status (echoOp c) result c.head ph) (x.1, d3)
      (y.1, evcDevice 0x204 y.2)
  (x1.1, ringDone r (adminDrop (afterCpl c status x1.2)))

/-- COMPLETION_WRITE: the record of SQ r's completed, or refused, front command is written when its CQ has room (R338,
R339, R340, R344). -/
def execCompletionWrite (r : Fin 4096) (s : State) : Out :=
  s.updB fun m d =>
    let r := r.val
    match (d.sqOf r).cmds with
    | c :: _ =>
      let quiet := dQuiet c.d0 && (match d.cplOf r with
        | some k => k.status == stOk
        | none => false)
      if !d.hostOk || (!quiet && !d.cqRoom r) then (m, d)
      else match d.cplOf r, c.refuse with
        | some k, _ => completeFront r c k.status k.result (m, d)
        | none, some st =>
          if c.begun || (dFence c.d0 && !d.fenceOk r c) then (m, d) else completeFront r c st 0 (m, d)
        | none, none => (m, d)
    | [] => (m, d)

/-! ## Event records (R349, R350) -/

/-- The bytes of one event record of a group. -/
def evBytes (e : EvRec) (loss more : Bool) (pay : List Nat) (phase : Nat) : List Byte :=
  leBytes 2 e.code ++ leBytes 1 (phase + b2n loss * 2 + b2n more * 4) ++ leBytes 1 e.island ++ leBytes 4 e.index ++
    leBytes 8 e.time ++ (List.range 4).flatMap fun i => leBytes 4 (pay.getD i 0)

/-- A group of records is written to EQ q: n records are left of it. -/
def putEvent (q : Nat) (e : EvRec) : Nat → List Nat → Bool → MD → MD
  | 0, _, _, x => x
  | n + 1, pay, loss, x =>
    let y := putRecord q 32 (evBytes e loss (n != 0) (pay.take 4)) x
    putEvent q e n (pay.drop 4) false (y.1, evcDevice 0x205 y.2)

/-- An event record written with PME_En set signals PME (R326). -/
def pmeSignal (d : Dev) : Dev :=
  if d.pcie.pmeEn then sendUp .pme (d.modPcie fun p => { p with pmeStatus := true }) else d

/-- EVENT_RECORD_WRITE: the next record of EQ q is written, an EVENTS_LOST record before any other where records were
dropped (R349, R350). -/
def execEventRecordWrite (q : Fin 4096) (s : State) : Out :=
  s.updB fun m d =>
    let q := q.val
    if !d.isRing q tyEQ || d.ringBad q || d.ringDel q || !d.hostOk then (m, d)
    else if mget 0 d.lostFor q ≠ 0 then
      if d.ringRoom q = 0 then (m, d)
      else
        let e : EvRec := ⟨q, 0x0101, 0, 0, d.stamp 0, [mget 0 d.lostFor q], true⟩
        let x := putEvent q e 1 e.pay true (m, { d with lostFor := mset 0 d.lostFor q 0 })
        (x.1, pmeSignal x.2)
    else match d.events.find? fun e => e.eq == q with
      | some e =>
        if d.ringRoom q < e.size then (m, d)
        else
          let x := putEvent q e e.size e.pay e.loss (m, d.setEvents (d.events.erase e))
          (x.1, pmeSignal x.2)
      | none => (m, d)

/-! ## The admin rings (R331) -/

/-- A ring other than 0, 1 and 2 exists. -/
def Dev.otherRings (d : Dev) : Bool :=
  d.regs.entries.any fun e => LDL_RING_CFG 3 ≤ e.1 && e.1 ≤ LDL_RING_CFG 4095 && e.1 % 0x20 == 8 && e.2.toNat.testBit 31

/-- Setting en creates rings 0, 1 and 2; a size outside its range gives an open one. Event records that waited for the
rings are posted (R461). Assumption 45 (DEDUCED). -/
def adminMake (d : Dev) : Dev :=
  let lg := fun (f : Fld) => let n := d.fld LDL_ADMIN_CTL f
    if n < 4 then d.open_ % 16 else n
  let base := fun (lo hi : Nat) => (d.rd lo).toNat / 64 * 64 + (d.rd hi).toNat * 2 ^ 32
  let v := fun (e n : Fld) => if d.flag LDL_ADMIN_VEC e then some (d.fld LDL_ADMIN_VEC n) else none
  let d1 := ringMake 0 tySQ (lg LDL_ADMIN_CTL_asq_lg) 1 none 0 (base LDL_ASQ_BASE_LO LDL_ASQ_BASE_HI) d
  let d2 := ringMake 1 tyCQ (lg LDL_ADMIN_CTL_acq_lg) 0 (v LDL_ADMIN_VEC_acq_ven LDL_ADMIN_VEC_acq_vec) 0
    (base LDL_ACQ_BASE_LO LDL_ACQ_BASE_HI) d1
  let d3 := ringMake 2 tyEQ (lg LDL_ADMIN_CTL_aeq_lg) 0 (v LDL_ADMIN_VEC_aeq_ven LDL_ADMIN_VEC_aeq_vec) 0
    (base LDL_AEQ_BASE_LO LDL_AEQ_BASE_HI) d2
  let d4 := (d3.setB LDL_ADMIN_CTL LDL_ADMIN_CTL_ready (d.flag GLB_PCIE_STAT GLB_PCIE_STAT_fw_ready)).bump
  d4.due.foldl (fun x e =>
    match e with
    | .post c i p => postEvent c (if c / 256 = 7 then 4 else 0) i p (x.dropDue e)
    | _ => x) d4

/-- A write of LDL_ADMIN_CTL. -/
def adminWrite (w : Writer) (v : Word) (d : Dev) : Dev :=
  let a := LDL_ADMIN_CTL
  let refuse := fun (x : Dev) => (discardWrite w a x).setB a LDL_ADMIN_CTL_cfg_refused true
  if !(benchLike w || w == .host) then plainWrite w a v d
  else if !d.flag a LDL_ADMIN_CTL_en then
    let d1 := plainWrite w a v d
    when (d1.flag a LDL_ADMIN_CTL_en) adminMake d1
  else if fget LDL_ADMIN_CTL_en v = 1 then
    (if d.fld a ⟨0, 12⟩ = fget ⟨0, 12⟩ v then plainWrite w a v d else refuse d)
  else if d.otherRings then refuse d
  else
    let d1 := (plainWrite w a v d).setB a LDL_ADMIN_CTL_ready false
    adminDrop (d1.setB (LDL_RING_STAT 0) LDL_RING_STAT_del_pend true)

/-- LDL_ADMIN_CTL_WRITE. -/
def execLdlAdminCtlWrite (w : Writer) (v : Word) (s : State) : Out := s.upd (adminWrite w v)

/-- A write of an LDL register. -/
def ldlWrite (nm : RegName) (w : Writer) (addr : Nat) (v : Word) (d : Dev) : Dev :=
  match nm with
  | .LDL_ADMIN_CTL => adminWrite w v d
  | .LDL_ADMIN_VEC | .LDL_ASQ_BASE_LO | .LDL_ASQ_BASE_HI | .LDL_ACQ_BASE_LO | .LDL_ACQ_BASE_HI | .LDL_AEQ_BASE_LO
  | .LDL_AEQ_BASE_HI =>
    if (benchLike w || w == .host) && d.flag LDL_ADMIN_CTL LDL_ADMIN_CTL_en then
      (discardWrite w addr d).setB LDL_ADMIN_CTL LDL_ADMIN_CTL_cfg_refused true
    else plainWrite w addr v d
  | _ => plainWrite w addr v d

/-- LDL_RING_STAT of ring r with the bits that follow from its commands: fence_wait, fw_busy, cq_stall (R353). -/
def Dev.ringStat (d : Dev) (r : Nat) : Word :=
  let v := d.rd (LDL_RING_STAT r)
  match (d.sqOf r).cmds with
  | c :: _ =>
    let fence := !c.begun && c.refuse == none && dFence c.d0 && !d.fenceOk r c
    let busy := c.begun && !fastOp (dOp c.d0) && (d.cplOf r).isNone
    let stall := !d.cqRoom r
    fput LDL_RING_STAT_cq_stall (fput LDL_RING_STAT_fw_busy (fput LDL_RING_STAT_fence_wait v (b2n fence)) (b2n busy)) (b2n stall)
  | [] => v

end Sys2Proof.Machine
end

