-- ==== Sys2Proof/Machine/Reset.lean ====
section
/-!
DEFINITION. What a reset of each scope does to the state (R327, R361, R460 to R462), the release of a cluster (R465), and
a debug halt and its release (R35, R68, R94, R133, R162, R193, R226, R280, R476, R477).
-/
namespace Sys2Proof.Machine

/-! ## Clusters -/

/-- The cluster that a due item belongs to. -/
def Due.cluster : Due → Option Nat
  | .pulse c _ | .exported c _ _ | .combiner c _ | .seamEvent c _ _ _ => some c
  | .tmrMatch t _ _ => some (t / 32)
  | .rscHit a _ | .timeStart a _ => some (a / 16)
  | .evcThr e _ => if e < 64 then some (e / 16) else none
  | _ => none

/-- The cluster whose block a waiting command concerns (R345). -/
def Wait.cluster (w : Wait) : Option Nat :=
  match w.op with
  | 0x0210 => some (w.target / 4)
  | 0x0201 | 0x0202 | 0x0203 | 0x0204 => some (w.target / 16)
  | 0x0902 => if w.target < 0x100 then some (w.target / 16) else none
  | 0x0C10 => if w.target < 8 then some (w.target / 2) else if w.target < 0x10 then some ((w.target - 8) / 2) else none
  | _ => none

/-- The address of cluster c's window of registers (R26). -/
def clWindow (c : Nat) : Nat := 0x02800000 + c * 0x200000

/-- The writer is a core of cluster c. -/
def writerIn (c : Nat) : Writer → Bool
  | .core k _ => decide (k.val < 16) && k.val / 4 == c
  | _ => false

/-- The registers of cluster c at their reset values, but for the owner fields of its banks (R292). -/
def clearRegs (c : Nat) (d : Dev) : Dev :=
  let a := clWindow c
  let own := (List.range 16).map fun b => (ING_BANK_OWN (c * 16 + b), d.rd (ING_BANK_OWN (c * 16 + b)))
  let d1 := { d with
    regs := mclear d.regs a (a + 0x100000)
    wide := mclear d.wide a (a + 0x100000)
    windows := d.windows.filter fun w => !(decide (a ≤ w.1.1) && decide (w.1.1 < a + 0x100000)) && !writerIn c w.1.2 }
  own.foldl (fun x e => x.wr e.1 e.2) d1

/-- Everything of cluster c at reset; its ingot contents stay (R461). -/
def clearCluster (c : Nat) (d : Dev) : Dev :=
  let d1 := clearRegs c d
  { d1 with
    clusters := mclear d1.clusters c (c + 1)
    crossing := d1.crossing.filter fun x => x.dst != .cl (Fin.ofNat 4 c) && x.src != .cl (Fin.ofNat 4 c)
    due := d1.due.filter fun x => x.cluster != some c
    lanes := mclear d1.lanes (4 * c) (4 * c + 4)
    axes := mclear d1.axes (16 * c) (16 * c + 16)
    interps := mclear d1.interps (16 * c) (16 * c + 16)
    tiles := mclear d1.tiles (16 * c) (16 * c + 16)
    chans := mclear d1.chans (48 * c) (48 * c + 48)
    draining := d1.draining.filter fun n => n / 4 != c
    sdcAt := mclear d1.sdcAt (4 * c) (4 * c + 4)
    pwms := mclear d1.pwms (16 * c) (16 * c + 16)
    fbks := mclear d1.fbks (16 * c) (16 * c + 16)
    encs := mclear d1.encs (4 * c) (4 * c + 4)
    grps := mclear d1.grps (8 * c) (8 * c + 8)
    combs := mclear d1.combs (8 * c) (8 * c + 8)
    timers := mclear d1.timers (32 * c) (32 * c + 32)
    engs := mclear d1.engs (8 * c) (8 * c + 8)
    corePairs := mclear d1.corePairs (2 * c) (2 * c + 2)
    ownNext := mclear d1.ownNext (16 * c) (16 * c + 16)
    evcHigh := d1.evcHigh.filter fun e => decide (64 ≤ e) || e / 16 != c
    evcClr := d1.evcClr.filter fun e => decide (64 ≤ e) || e / 16 != c
    time := { d1.time with copies := mclear d1.time.copies c (c + 1), reload := d1.time.reload.filter (· != c) } }

/-- Cores lo to hi at reset; those of a cluster keep the entry of an image placed for them. -/
def clearCores (lo n : Nat) (d : Dev) : Dev :=
  upTo n (fun i x => x.modCore (lo + i) fun k => { Core.reset with entry := k.entry, byteMode := k.byteMode }) d

/-- The stream binding of axis a ends, in the axis and in the ring (R327). Assumption 49 (DESIGN CHOICE). -/
def streamCut (a : Nat) (d : Dev) : Dev :=
  if d.fldIf (AXS_SEG_STAT a) AXS_SEG_STAT_str = 0 then d
  else
    let r := LDL_RING_CFG (d.fld (AXS_SEG_STAT a) AXS_SEG_STAT_str_ring)
    ((d.setB (AXS_SEG_STAT a) AXS_SEG_STAT_str false).setF (AXS_SEG_STAT a) AXS_SEG_STAT_str_ring 0).setF r LDL_RING_CFG_link 0xFFF

/-- A reset of cluster c: commands under way for it complete with ABORTED_RESET (R345, R361). in_rst says that it stays
in reset. Assumption 55 (DEDUCED). -/
def clusterReset (c : Nat) (stays : Bool) (d : Dev) : Dev :=
  let d0 := upTo 16 (fun l => streamCut (16 * c + l)) d
  let d1 := clearCores (4 * c) 4 (clearCluster c (endWaits (fun w => w.cluster == some c) stAbortedReset 0 d0))
  let d2 := { d1 with time := { d1.time with reload := if stays then d1.time.reload else d1.time.reload ++ [c] } }
  let d3 := d2.setF DBG_STAT DBG_STAT_cl_halted (setBit (d2.fld DBG_STAT DBG_STAT_cl_halted) c false)
  let d4 := d3.setF DBG_STAT DBG_STAT_halt_pend (setBit (d3.fld DBG_STAT DBG_STAT_halt_pend) c false)
  let d5 := upTo 16 (fun l => captureRetired (16 * c + l)) d4
  d5.setF GLB_RST_CTL GLB_RST_CTL_in_rst (setBit (d5.fld GLB_RST_CTL GLB_RST_CTL_in_rst) c stays)

/-- Cluster c may be reset on request: no axis is ARMED, ENABLED, or FAULTED with resp_done = 0 (R361). -/
def Dev.atRest (d : Dev) (c : Nat) : Bool :=
  (List.range 16).all fun l =>
    let st := d.axSt (16 * c + l)
    !(st == stArmed || st == stEnabled || (st == stFaulted && !d.flag (AXS_STATE (16 * c + l)) AXS_STATE_resp_done))

/-- A reset has been taken: src and seen of TCH_RST_CAUSE, and its Touchmark record (R461, R462, R468). -/
def resetTaken (code : Nat) (d : Dev) : Dev :=
  let d1 := d.setF TCH_RST_CAUSE TCH_RST_CAUSE_src code
  let d2 := d1.setF TCH_RST_CAUSE TCH_RST_CAUSE_seen (setBit (d1.fld TCH_RST_CAUSE TCH_RST_CAUSE_seen) (code - 1) true)
  postTouchmark 0x0003 5 0 (if code = 4 then [4, 1] else [code, 0]) d2

/-- A core begins at its image's entry with the state after reset (R239, R465). -/
def startCore (k : Nat) (d : Dev) : Dev :=
  match (d.core k).entry with
  | some e => d.modCore k fun c =>
      { Core.reset with pc := e % 2 ^ 32, running := true, entry := some e, byteMode := c.byteMode, cycBase := d.coreCyc k }
  | none => d

/-- Bytes put into words of ingot memory with tag RAW and valid ECC. Assumption 41 (DEDUCED). -/
def Memory.place : Memory → Nat → List Byte → Memory
  | m, _, [] => m
  | m, a, b :: bs => Memory.place (((m.setByte a b).setTag (a / 4 * 4) 0).setErr (a / 4 * 4) 0) (a + 1) bs

/-- The banks that n bytes from a bank on fill. -/
def banksOf (b n : Nat) : List Nat := (List.range ((n + 0xFFFF) / 0x10000)).map (b + ·)

/-- An image is placed for core k of a cluster: its body stands in the banks it fills, which pass to the core (R379,
R465). -/
def placeImage (k : Nat) (i : CoreImage) (x : MD) : MD :=
  let b := k / 4 * 16 + i.load.val
  let d1 := (banksOf b i.body.length).foldl (fun y n => y.setF (ING_BANK_OWN n) ING_BANK_OWN_owner (k % 4 + 1)) x.2
  (x.1.place (bankAddr b 0) i.body, d1.modCore k fun c => { c with entry := some (bankAddr b 0 + i.entry), byteMode := i.byteMode })

/-- A core pair of a cluster at its release: with pair_at_release it starts paired, if both images are the same; else it
starts split with cfg_err (R300). -/
def pairAtRelease (q : Nat) (imgs : List CoreImage) (d : Dev) : Dev :=
  if !d.flag (ASY_PAIR_CTL q) ASY_PAIR_CTL_pair_at_release then d
  else
    let of := fun (k : Nat) => (imgs.find? fun i => i.core.val == k % 4).map fun i => (i.byteMode, i.load, i.entry, i.body)
    if of (2 * q) == of (2 * q + 1) && (of (2 * q)).isSome then d.setB (ASY_PAIR_CTL q) ASY_PAIR_CTL_paired true
    else d.setB (ASY_GSTAT (q / 2)) ASY_GSTAT_cfg_err true

/-- Cluster c leaves reset: its carrier reference starts at 0, its device-time copy loads at the next boundary, its axes
stand RETIRED, and cores whose image was placed start (R465). -/
def clusterRelease (c : Nat) (imgs : List CoreImage) (x : MD) : MD :=
  let y := imgs.foldl (fun z i => placeImage (4 * c + i.core.val) i z) x
  let d1 := y.2.setF GLB_RST_CTL GLB_RST_CTL_in_rst (setBit (y.2.fld GLB_RST_CTL GLB_RST_CTL_in_rst) c false)
  let d2 := { d1 with time := { d1.time with reload := if d1.time.reload.contains c then d1.time.reload else d1.time.reload ++ [c] } }
  let d3 := imgs.foldl (fun z i => startCore (4 * c + i.core.val) z) d2
  let d4 := pairAtRelease (2 * c + 1) imgs (pairAtRelease (2 * c) imgs d3)
  (y.1, if d4.fld TCH_BOOT TCH_BOOT_stage = 6 then d4.setF TCH_BOOT TCH_BOOT_stage 7 else d4)

/-- A write of GLB_RST_CTL: bits set release clusters; a write that clears a bit resets the cluster, or is discarded with
rst_refused (R361, R465, R469). -/
def rstCtlWrite (w : Writer) (v : Word) (imgs : List CoreImage) (x : MD) : MD :=
  let a := GLB_RST_CTL
  let d := x.2
  let was := d.fld a GLB_RST_CTL_cl_rel
  let is := fget GLB_RST_CTL_cl_rel v &&& partMask d.part
  if !d.accepts w a then (x.1, plainWrite w a v d)
  else if (List.range 4).any fun c => was.testBit c && !is.testBit c && !d.atRest c then
    (x.1, (discardWrite w a d).setB a GLB_RST_CTL_rst_refused true)
  else
    let d1 := (plainWrite w a v d).setF a GLB_RST_CTL_cl_rel is
    (List.range 4).foldl (fun y c =>
      if is.testBit c && !was.testBit c then clusterRelease c imgs y
      else if was.testBit c && !is.testBit c then (y.1, resetTaken 6 (clusterReset c true y.2))
      else y) (x.1, d1)

/-! ## Host island and device (R327, R461) -/

/-- Registers and 64-bit values of an address range at their reset values, but for those that p keeps. -/
def clearRange (lo hi : Nat) (keep : Nat → Bool) (d : Dev) : Dev :=
  let out := fun (a : Nat) => !(decide (lo ≤ a) && decide (a < hi)) || keep a
  { d with regs := ⟨d.regs.entries.filter fun e => out e.1⟩, wide := ⟨d.wide.entries.filter fun e => out e.1⟩,
           windows := d.windows.filter fun w => out w.1.1 }

/-- The owner field of a host bank. Assumption 55 (DEDUCED). -/
def hostOwner (a : Nat) : Bool := (List.range 8).any fun k => a == ING_BANK_OWN (64 + k)

/-- The host island at reset (R327, R469): kept are GLB_PCIE_CTL, GLB_RST_CTL, the owner fields of its banks, lock bits and
temperature, the TAP level and the halts of clusters. Assumption 55 (DEDUCED). -/
def clearHost (d : Dev) : Dev :=
  let dbg := d.rd DBG_STAT
  let clk := d.rd GLB_CLK_STAT
  let d1 := clearRange 0x02000000 0x02200000 (fun a => a == GLB_PCIE_CTL || a == GLB_RST_CTL || a == GLB_TEMP || hostOwner a) d
  let d2 := clearRange 0x02700000 0x02800000 (fun _ => false) d1
  let d3 := (d2.wr DBG_STAT (dbg &&& 0x300000FF)).wr GLB_CLK_STAT (clk &&& 0xC0000000)
  let d4 := { d3 with
    windows := d3.windows.filter fun w => match w.1.2 with
      | .core k _ => k.val < 16 || k.val == 18
      | .dap => true
      | _ => false
    corePairs := mclear d3.corePairs 8 9
    ownNext := mclear d3.ownNext 64 72
    sqs := .empty, bells := [], nextOrder := 0, waits := [], cpls := [], events := [], lostFor := .empty
    caps := .empty
    evcHigh := d3.evcHigh.filter fun e => decide (e < 64)
    evcClr := d3.evcClr.filter fun e => decide (e < 64)
    due := d3.due.filter fun x => match x with
      | .reset _ => false
      | .evcThr e _ => decide (e < 64)
      | _ => true
    crossing := d3.crossing.filter fun x => x.dst != .hi && x.src != .hi
    time := { d3.time with mode := 0, stepDue := false, ePrev := none, lockRun := 0, missed := 0, edgeAt := d3.now, syncOut := false, syncFired := none }
    pcie := { Pcie.reset with subsys := d3.pcie.subsys, serial := d3.pcie.serial, perst := d3.pcie.perst } }
  clearCores 16 2 d4

/-- A reset of the host island from a source: with perst_stop its enabled axes record SOFTWARE first; rings and sessions
cease, the PCI Express debug grant lapses (R327, R447, R448). Assumptions 44, 55 (DEDUCED). -/
def hostReset (code : Nat) (d : Dev) : Dev :=
  let d1 := if d.flag GLB_PCIE_CTL GLB_PCIE_CTL_perst_stop then
      upTo 64 (fun a => when (d.clusterRuns (axCl a) && d.axSt a == stEnabled) (recordCause a 0x0E)) d
    else d
  let d2 := debugLapse 1 (sessEndAll (if code = 3 then 2 else 3) (upTo 64 streamCut d1))
  let d3 := wdtUnfreeze (clearHost d2)
  let d4 := resetTaken code (d3.modHlm fun h => { h with latch1 := false })
  certEval (d4.addDue (.post 0x0112 0 [code, (d4.rd TCH_BOOT).toNat]))

/-- What a device reset other than power-on keeps of the registers: those of AO but for the watchdog and the stage, and
the owner fields of banks (R292, R461). -/
def keptRegs (d : Dev) : SMap Word :=
  let ao := fun (a : Nat) => decide (0x02600000 ≤ a) && decide (a < 0x02700000) && a != TCH_WDT_CFG && a != TCH_WDT_LEFT &&
    a != TCH_BOOT && a != TCH_STAT
  let own := fun (a : Nat) => hostOwner a || (List.range 64).any fun b => a == ING_BANK_OWN b
  ⟨d.regs.entries.filter fun e => ao e.1 || own e.1⟩

/-- A device reset from a source (R37, R327, R460, R461). A power-on reset also resets AO and clears the ingot banks
(R292). Assumptions 41, 55 (DEDUCED). -/
def deviceReset (code : Nat) (x : MD) : MD :=
  let d := x.2
  let on := code == 1
  let base := { Dev.reset with
    part := d.part, free := d.free, bank15 := d.bank15, hlm := { Hlm.reset with otp := d.hlm.otp, maskKept := d.hlm.maskKept },
    fls := { Fls.reset with counts := d.fls.counts, retired := d.fls.retired, suspect := d.fls.suspect, jseq := d.fls.jseq },
    tap := { d.tap with acc := none, resp := none }, pcie := { Pcie.reset with perst := d.pcie.perst } }
  let stat := fun (b : Dev) => (b.setB TCH_STAT TCH_STAT_holdup_ok (d.flag TCH_STAT TCH_STAT_holdup_ok)).setF TCH_STAT TCH_STAT_dropped
    (d.fld TCH_STAT TCH_STAT_dropped)
  let b1 : Dev := if on then { base with bank15 := .empty, tch := { Tch.reset with boots := d.tch.boots } }
    else stat { base with regs := keptRegs d, tchQueue := d.tchQueue, tchDropped := d.tchDropped,
                          tch := { d.tch with busy := false }, clkHeld := d.clkHeld || code == 9 }
  let b2 := if on then b1 else (b1.setB TCH_STAT TCH_STAT_prov_open b1.tch.prov.isSome).setF TCH_STAT TCH_STAT_queued b1.tchQueue.length
  let b3 := (resetTaken code b2).addDue (.post 0x0112 0 [code, 0])
  let m := x.1
  let m1 := if on then { m with
      bytes := mclear (mclear m.bytes 0x10000 0x18000) 0x01000000 0x01480000
      tags := .empty, err := mclear m.err 0x10000 0x01480000 } else m
  (m1, b3)

/-! ## Debug halt and release (R476, R477) -/

/-- The halt of cluster c is carried out: PWM units SAFE, SDC low, items on their way into it discarded, its clock
stopped; monitors clear (R35, R99, R133, R279). -/
def haltCluster (c : Nat) (d : Dev) : Dev :=
  let d1 := upTo 16 (fun l => goSafe (16 * c + l)) d
  let d2 := upTo 4 (fun k x => cutWindows (4 * c + k) (x.setB (DRW_CLK (4 * c + k)) DRW_CLK_running false)) d1
  let d3 := upTo 4 (fun k x =>
    (x.modCore (4 * c + k) fun y => { y with monitor := none, load := none }).setB (ANV_CTL (4 * c + k)) ANV_CTL_halted true) d2
  let d4 := d3.modCluster c fun y => { y with halted := true, halting := false }
  let d5 := d4.setF DBG_STAT DBG_STAT_cl_halted (setBit (d4.fld DBG_STAT DBG_STAT_cl_halted) c true)
  let d6 := d5.setF DBG_STAT DBG_STAT_halt_pend (setBit (d5.fld DBG_STAT DBG_STAT_halt_pend) c false)
  { d6 with
    crossing := d6.crossing.filter fun x => x.dst != .cl (Fin.ofNat 4 c)
    draining := d6.draining.filter fun n => n / 4 != c }

/-- An axis of a released cluster that was not RETIRED stands in FAULTED with cause DEBUG_HALT (R94). -/
def axisAfterHalt (a : Nat) (d : Dev) : Dev :=
  if d.axSt a = stRetired then d
  else retireCheck a ((recordCauseAs a 0x09 4 d).setB (AXS_STATE a) AXS_STATE_resp_done true)

/-- A lane discards its jobs, its publish buffer and its output stage, and shows that nothing runs (R68, R70). -/
def laneAfterHalt (n : Nat) (d : Dev) : Dev :=
  laneStat n <| d.modLane n fun l => { l with cur := none, job := none, released := [], publish := [], ldm := [], out := [] }

/-- A feedback channel takes the present levels and restarts (R162). -/
def fbkAfterHalt (a : Nat) (d : Dev) : Dev :=
  let d1 := setLvZ a (d.fbk a).pinZ (d.modFbk a fun x => { x with lvA := x.pinA, lvB := x.pinB })
  if d.fldIf (FBK_CFG a) FBK_CFG_enc_en = 0 then d1 else fbkRestart a d1

/-- An encoder output channel restarts (R160, R162). Assumption 63 (DEDUCED). -/
def encAfterHalt (k : Nat) (d : Dev) : Dev :=
  if d.fldIf (FBK_EO_CFG k) FBK_EO_CFG_en = 0 then d else encLoad k d

/-- A watchdog reloads and sets debug_resumed (R280). -/
def wdtAfterHalt (k : Nat) (d : Dev) : Dev :=
  if d.fldIf (ANV_WDT_CFG k) ANV_WDT_CFG_en = 0 then d
  else wdtReload k (d.setB (ANV_WDT_CFG k) ANV_WDT_CFG_debug_resumed true)

/-- Cluster c is released from its halt. -/
def releaseCluster (c : Nat) (d : Dev) : Dev :=
  let d1 := d.modCluster c fun y => { y with halted := false }
  let d2 := d1.setF DBG_STAT DBG_STAT_cl_halted (setBit (d1.fld DBG_STAT DBG_STAT_cl_halted) c false)
  let d3 := upTo 4 (fun k x =>
    let n := 4 * c + k
    let x1 := wdtAfterHalt n (laneAfterHalt n (x.setB (ANV_CTL n) ANV_CTL_halted false))
    let x2 := upTo 4 (fun u y => if y.fldIf (DBG_BW_CFG n u) DBG_BW_CFG_armed = 1 then y.setB (DBG_BW_CFG n u) DBG_BW_CFG_armed false else y) x1
    encAfterHalt n (when (x2.flag (DRW_CLK n) DRW_CLK_en) (clockStart n) x2)) (upTo 48 (fun k => restartChan (48 * c + k)) d2)
  let d4 := upTo 16 (fun l x =>
    ((fbkAfterHalt (16 * c + l) (axisAfterHalt (16 * c + l) x)).modAxis (16 * c + l) fun y => { y with smp := none }).modTile (16 * c + l) fun t =>
      { t with delaying := false, opened := false, lost := [], cut := 0, formed := [] }) d3
  let d5 := upTo 16 (fun l => winAfterHalt (16 * c + l)) <| upTo 8 (fun k x =>
    let x1 := combEval (8 * c + k) (x.modComb (8 * c + k) fun b => { b with latch := 0 })
    when (x1.egOn (8 * c + k)) (fun y => portInvalid (8 * c + k) (egStart (8 * c + k) y)) x1) d4
  let d6 := if d5.fldIf (ANV_CWDT_CFG c) ANV_CWDT_CFG_en = 1 then
      cwdtReload c (d5.setB (ANV_CWDT_CFG c) ANV_CWDT_CFG_debug_resumed true) else d5
  let d7 := upTo 8 (fun k x => x.modCap k fun y =>
    if y.specs.headD 0 / 2 ^ 12 % 4 = c ∧ y.specs ≠ [] then { y with resumed := true } else y) d6
  { d7 with time := { d7.time with reload := if d7.time.reload.contains c then d7.time.reload else d7.time.reload ++ [c] } }

end Sys2Proof.Machine
end

