-- ==== Sys2Proof/Machine/Flash.lean ====
section
/-!
DEFINITION. Chapter "Flash array and firmware images": the checks of an image, the flash routine with its erase journal,
the regions, the firmware slots, and the steps of programs and erases (R411 to R427, R444).
-/
namespace Sys2Proof.Machine

/-! ## Images (R423, R424, R444) -/

/-- n bytes of an image header from byte i, as a number. -/
def imgGet (b : List Byte) (i n : Nat) : Nat := dget b i n

/-- Bytes lo up to hi are all 0. -/
def zeros (b : List Byte) (lo hi : Nat) : Bool := ((b.drop lo).take (hi - lo)).all (· == 0)

def imgKind (b : List Byte) : Nat := imgGet b 4 1
def imgMode (b : List Byte) : Nat := imgGet b 5 1
def imgEnc (b : List Byte) : Bool := bit (imgGet b 6 1) 0
def imgVersion (b : List Byte) : Nat := imgGet b 12 4
def imgSecVersion (b : List Byte) : Nat := imgGet b 16 4
def imgLen (b : List Byte) : Nat := imgGet b 20 4
def imgEntry (b : List Byte) : Nat := imgGet b 24 4
def imgLoad (b : List Byte) : Nat := imgGet b 28 4
def imgWords (b : List Byte) : Nat := imgGet b 32 2 % 2048
def imgLawKind (b : List Byte) : Nat := imgGet b 32 2 / 4096 % 4
def imgLawLen (b : List Byte) : Nat := imgGet b 34 2

/-- Check 1: magic, reserved bytes, kind and mode, and a body length that is there and fits its destination. -/
def imgForm (b : List Byte) (room : Nat) : Bool :=
  let k := imgKind b
  decide (256 ≤ b.length) && imgGet b 0 4 == 0x494C4450 && decide (1 ≤ k) && decide (k ≤ 4) && decide (imgMode b ≤ 1) &&
    (imgMode b == 0 || k == 2 || k == 3) && decide (imgGet b 6 1 ≤ 1) && zeros b 7 8 && (k != 3 || zeros b 24 28) &&
    (k == 2 || zeros b 28 32) && (k == 3 || zeros b 32 36) && imgGet b 32 2 / 16384 == 0 && imgGet b 32 2 / 2048 % 2 == 0 &&
    zeros b 36 64 && (imgEnc b || zeros b 112 124) && zeros b 124 128 && (imgEnc b || zeros b 128 144) && zeros b 240 256 &&
    decide (imgLen b ≤ room) && decide (256 + imgLen b ≤ b.length)

/-- The body of an image as stored. -/
def imgBody (b : List Byte) : List Byte := (b.drop 256).take (imgLen b)

/-- Check 2: the body's hash, and a signature by a key that the kind and the lifecycle accept (R442, R444). -/
def Dev.imgSigned (d : Dev) (b : List Byte) : Bool :=
  let sig := (b.drop 144).take 96
  let msg := b.take 144
  let owner := (imgKind b == 2 || imgKind b == 3) && d.ownerKey && d.lifecycle != 0 && d.lifecycle != 4
  (Config.sha384 (imgBody b) == (b.drop 64).take 48) &&
    (Config.ecdsaOk 1 msg sig || Config.ecdsaOk 2 msg sig || (owner && Config.ecdsaOk keyOwner msg sig))

/-- Check 3: the body, decrypted where the image is encrypted; none where the key is absent or locked, or the tag
fails. -/
def Dev.imgPlain (d : Dev) (b : List Byte) : Option (List Byte) :=
  if !imgEnc b then some (imgBody b)
  else if !d.otpHas 0x070 32 || !(d.lifecycle == 1 || d.lifecycle == 2) then none
  else Config.aesGcmOpen 0 (b.take (256 + imgLen b))

/-- The image b checked in the order of R424 for a command of this kind: the reason of R359, 0 where it passes, and the
plain body. room is what its destination holds, place says that a cluster image's banks are right. -/
def Dev.imgCheck (d : Dev) (b : List Byte) (kind room : Nat) (place : Bool) : Nat × List Byte :=
  if !imgForm b room then (1, [])
  else if !d.imgSigned b then (2, [])
  else match d.imgPlain b with
    | none => (3, [])
    | some p =>
      if 0x00010002 < imgGet b 8 4 ∨ (imgKind b = 2 ∧ !place) then (4, [])
      else if imgKind b = 1 ∧ imgSecVersion b < d.fld HLM_FLOOR HLM_FLOOR_floor then (5, [])
      else if imgKind b ≠ kind then (6, [])
      else (0, p)

/-- An image is rejected at start-up (origin 0) or by a command (1): it counts, and IMAGE_REJECTED is posted (R446, R449). -/
def rejectImage (kind reason origin : Nat) (d : Dev) : Dev :=
  postSecurity 0x0804 0 [kind % 256 + reason * 256 + origin * 65536] true
    (d.setF HLM_IMG_REJ HLM_IMG_REJ_rejected (satInc 16 (d.fld HLM_IMG_REJ HLM_IMG_REJ_rejected)))

/-! ## The array (R411 to R413) -/

/-- The fabric address of flash offset x. -/
def flsAddr (x : Nat) : Nat := 0x04000000 + x

/-- n bytes of the array from offset x. -/
def Memory.flash (m : Memory) (x n : Nat) : List Byte := m.span (flsAddr x) n

/-- Bits of the array programmed from 1 to 0 (R412). -/
def flashProg (x : Nat) : List Byte → Memory → Memory
  | [], m => m
  | b :: bs, m => flashProg (x + 1) bs (m.setByte (flsAddr x) (m.byte (flsAddr x) &&& b))

/-- A sector with every byte erased. -/
def flashErase (s : Nat) (m : Memory) : Memory :=
  { m with bytes := mclear m.bytes (flsAddr (s * 0x10000)) (flsAddr (s * 0x10000 + 0x10000)) }

/-- The oldest job whose next operation is a program. -/
def Dev.progJob (d : Dev) : Option FlsJob := d.fls.jobs.find? fun j => match j.acts with
  | .prog _ _ _ :: _ => true
  | _ => false

/-- A page program runs: nothing of a higher kind has the array, and a running page outlasts a supply dip (R414, R417,
R418). -/
def Dev.progRuns (d : Dev) : Bool :=
  if d.fls.frozen then d.fls.progLeft else d.progJob.isSome && (d.fls.erasing.isNone || (d.fls.susp && !d.fls.forced))

/-- The bank that a page program writes to now. -/
def Dev.progBank (d : Dev) : Option Nat :=
  if !d.progRuns then none
  else match d.progJob with
    | some j => match j.acts with
      | .prog o _ _ :: _ => some (o / 0x800000)
      | _ => none
    | none => none

/-- A read of the window at this address completes with a bus error: its bank programs or erases, or its sector's erase is
suspended (R413). -/
def Dev.flashBusy (d : Dev) (a : Nat) : Bool :=
  let x := a - 0x04000000
  d.progBank == some (x / 0x800000) ||
    match d.fls.erasing with
    | some s => if d.fls.susp then x / 0x10000 == s else x / 0x800000 == s / 128
    | none => false

/-- The region a sector belongs to, 0xFF for none (R411, R427). -/
def sectorRegion (s : Nat) : Nat :=
  if 512 ≤ s ∧ s < 528 then 0 else if 528 ≤ s ∧ s < 640 then 1 else if 640 ≤ s ∧ s < 768 then 2
  else if 768 ≤ s ∧ s < 896 then 3 else 0xFF

/-- First sector, ring length and N of a region (R420). -/
def regionShape (r : Nat) : Nat × Nat × Nat :=
  match r with
  | 0 => (512, 16, 4)
  | 1 => (528, 112, 32)
  | 2 => (640, 128, 48)
  | _ => (768, 128, 64)

/-- The sectors of a region's ring that are neither suspect nor retired (R419). -/
def Dev.ringSectors (d : Dev) (r : Nat) : List Nat :=
  ((List.range (regionShape r).2.1).map ((regionShape r).1 + ·)).filter fun s =>
    !d.fls.suspect.contains s && !d.fls.retired.contains s

/-! ## The erase journal (R416) -/

/-- The flash offset of journal entry i (0 to 8,191 over both sectors). -/
def journalAt (i : Nat) : Nat := 0x03900000 + i % 8192 * 16

/-- The entries 0 to n − 1 of the journal sector that begins at entry base, as sector, count and flag word. -/
def Memory.journal (m : Memory) (base n : Nat) : List (Nat × Nat × Nat) :=
  (List.range n).map fun i =>
    let b := m.flash (journalAt (base + i)) 16
    (dget b 0 2, dget b 4 4, dget b 12 4)

/-- The bytes of a journal entry. -/
def journalBytes (sector count flag : Nat) : List Byte :=
  leBytes 2 sector ++ [0xFF, 0xFF] ++ leBytes 4 count ++ [0xFF, 0xFF, 0xFF, 0xFF] ++ leBytes 4 flag

/-- The latest entry of every sector. -/
def latestEntries (l : List (Nat × Nat × Nat)) : List (Nat × Nat × Nat) :=
  l.foldl (fun r e => if e.1 = 0xFFFF then r else r.filter (·.1 != e.1) ++ [e]) []

/-- A sector has been erased: its count; SECTOR_WORN at 90,000 for sectors of regions and the journal (R412). -/
def countErase (s : Nat) (d : Dev) : Dev :=
  let n := mget 0 d.fls.counts s + 1
  let d1 := d.modFls fun f => { f with counts := mset 0 f.counts s n }
  if n = 90000 ∧ (sectorRegion s ≠ 0xFF ∨ s = 912 ∨ s = 913) then postEvent 0x0704 4 s [n] d1 else d1

/-- A full journal sector is copied, by latest entries, into the other, and then erased. Assumption 51 (DESIGN CHOICE). -/
def journalTurn (x : MD) : MD :=
  let i := x.2.fls.jseq
  if i % 4096 ≠ 0 then x
  else
    let full := (i + 4096) % 8192 / 4096 * 4096
    let other := (full + 4096) % 8192
    let l := latestEntries (x.1.journal full 4096)
    let m1 := (l.foldl (fun (y : Memory × Nat) e => (flashProg (journalAt y.2) (journalBytes e.1 e.2.1 e.2.2) y.1, y.2 + 1)) (x.1, other)).1
    let m2 := flashErase (912 + full / 4096) m1
    (m2, countErase (912 + full / 4096) (x.2.modFls fun f => { f with jseq := other + l.length }))

/-- A journal entry for the erase of a sector is programmed. -/
def journalPut (s : Nat) (x : MD) : MD :=
  let i := x.2.fls.jseq
  let m := flashProg (journalAt i) (journalBytes s (mget 0 x.2.fls.counts s + 1) 0xFFFFFFFF) x.1
  journalTurn (m, x.2.modFls fun f => { f with jseq := (i + 1) % 8192 })

/-- The flag word of the latest open entry of a sector is cleared. -/
def journalClear (s : Nat) (m : Memory) : Memory :=
  match (List.range 8192).reverse.find? fun i =>
      let b := m.flash (journalAt i) 16
      dget b 0 2 == s && dget b 12 4 == 0xFFFFFFFF with
  | some i => flashProg (journalAt i + 12) [0, 0, 0, 0] m
  | none => m

/-! ## Jobs of the routine (R414 to R418) -/

/-- The routine's own work is served for this number in place of an SQ. -/
def ownJob : Nat := 4096

/-- Bytes from offset x cut into programs within 256-byte pages. -/
def pagesFrom : Nat → Nat → List Byte → Bool → List FlsAct
  | 0, _, _, _ => []
  | _, _, [], _ => []
  | n + 1, x, b, clear =>
    let k := 256 - x % 256
    .prog x (b.take k) clear :: pagesFrom n (x + k) (b.drop k) clear

/-- The programs that put bytes at offset x. -/
def pages (x : Nat) (b : List Byte) (clear : Bool) : List FlsAct := pagesFrom (b.length + 1) x b clear

/-- The next erase starts, where no operation of a higher kind waits: a job's erase whose turn it is, its journal entry
programmed before it (R414, R416). -/
def flsKick (x : MD) : MD :=
  let f := x.2.fls
  if f.erasing.isSome || f.frozen || (f.jobs.any fun j => match j.acts with
      | .prog _ _ _ :: _ => true
      | _ => false) then x
  else
    match f.jobs.findSome? fun j => match j.acts with
        | .erase s :: _ => some s
        | _ => none with
    | some s =>
      let y := journalPut s x
      (y.1, y.2.modFls fun g => { g with erasing := some s, eraseAt := y.2.now, resumeAt := none, susp := false, forced := false })
    | none => x

/-- A job joins the routine's work. -/
def flsAdd (j : FlsJob) (x : MD) : MD := flsKick (x.1, x.2.modFls fun f => { f with jobs := f.jobs ++ [j] })

/-- The command of a job ends. -/
def flsEndCmd (j : FlsJob) (status result : Nat) (d : Dev) : Dev :=
  endWaits (fun w => w.sq == j.sq && w.op == j.op) status result
    (d.modFls fun f => { f with jobs := f.jobs.filter fun k => k.sq != j.sq || k.op != j.op || k.acts != j.acts })

/-- The flash offset of slot s, and of its state sector's words (R425). -/
def slotAt (s : Nat) : Nat := s * 0x01000000

/-- The image in slot s as it stands in flash. -/
def Memory.slotImage (m : Memory) (s : Nat) : List Byte :=
  let h := m.flash (slotAt s + 0x10000) 256
  m.flash (slotAt s + 0x10000) (256 + min (imgLen h) 16711424)

/-- A job has no operation left: its command completes, or its next phase begins (R421, R425). aux of an FW_UPDATE is slot,
phase and reason. -/
def flsJobDone (j : FlsJob) (x : MD) : MD :=
  let d := x.2
  match j.op with
  | 0x0702 => (x.1, flsEndCmd j stOk j.erased d)
  | 0x0710 => (x.1, flsEndCmd j stOk (j.aux.getD 0 0) d)
  | 0x0720 =>
    let s := j.aux.getD 0 0
    let img := x.1.slotImage s
    match j.aux.getD 1 0 with
    | 0 =>
      let c := d.imgCheck img 1 16711424 true
      let next : FlsJob := if c.1 = 0 then { j with acts := [.prog (slotAt s) [0, 0, 0, 0] true], aux := [s, 1, 0] }
        else { j with acts := (List.range 256).map fun i => .erase (s * 256 + i), aux := [s, 2, c.1] }
      let d1 := when (c.1 != 0) (rejectImage (imgKind img) c.1 1) d
      (x.1, d1.modFls fun f => { f with jobs := f.jobs.map fun k => if k = j then next else k })
    | 1 => (x.1, flsEndCmd j stOk (imgVersion img) d)
    | _ => (x.1, flsEndCmd j stImageRejected (j.aux.getD 2 1) d)
  | 0 =>
    let s := j.aux.getD 0 0
    (x.1, d.modFls fun f => { f with jobs := f.jobs.filter (· != j), suspect := f.suspect.filter (· != s) })
  | _ => (x.1, flsEndCmd j stOk 0 d)

/-- The first operation of job j is done. -/
def flsPop (j : FlsJob) (erased : Nat) (x : MD) : MD :=
  let k := { j with acts := j.acts.drop 1, erased := j.erased + erased }
  let y := (x.1, x.2.modFls fun f => { f with jobs := f.jobs.map fun i => if i = j then k else i })
  flsKick (if k.acts = [] then flsJobDone k y else y)

/-- Bytes that nobody can tell after a program that failed: the old ones with open bits cleared. Assumption 52 (DEDUCED). -/
def flashOpen (x : Nat) (n free : Nat) (m : Memory) : Memory :=
  flashProg x ((List.range n).map fun i => BitVec.ofNat 8 (free / 256 ^ i)) m

/-- The ccyc of a millisecond. -/
def flashMs : Nat := 800000

/-- After a resume the running erase may not be suspended for a read or a program yet (R417). -/
def Dev.eraseFresh (d : Dev) : Bool :=
  d.fls.erasing.isSome && !d.fls.susp &&
    match d.fls.resumeAt with
    | some t => decide (d.now < t + flashMs)
    | none => false

/-- Every byte that a job's programs write, but for clear forms, is blank. -/
def jobBlank (m : Memory) (j : FlsJob) : Bool := j.acts.all fun a =>
  match a with
  | .prog x b false => (m.flash x b.length).all (· == 0xFF)
  | _ => true

/-- The job erases before it programs. -/
def jobErases (j : FlsJob) : Bool := j.acts.any fun a => match a with
  | .erase _ => true
  | _ => false

/-- PAGE_PROGRAM_DONE: the routine's next page is blank-checked, programmed and read back; bad says that it differs
(R415). Assumption 52 (DEDUCED). -/
def execPageProgramDone (bad : Bool) (s : State) : Out :=
  s.updB fun m d =>
    let f := d.fls
    if (f.erasing.isSome && f.forced) || (f.frozen && !f.progLeft) || d.eraseFresh then (m, d)
    else match d.progJob with
      | none => (m, d)
      | some j =>
        match j.acts with
        | .prog x b clear :: _ =>
          let d0 := d.modFls fun g => { g with progLeft := false, susp := g.susp || g.erasing.isSome }
          if !clear && !jobErases j && !jobBlank m j then flsKick (m, flsEndCmd j stNotErased 0 d0)
          else if bad then flsKick (flashOpen x b.length d.open_ m, (flsEndCmd j stVerifyFailed 0 d0).bump)
          else flsPop j 0 (flashProg x b m, d0)
        | _ => (m, d)

/-- The job whose erase runs. -/
def Dev.eraseJob (d : Dev) (s : Nat) : Option FlsJob := d.fls.jobs.find? fun j => j.acts.head? == some (.erase s)

/-- A suspect sector whose re-erase failed: after the third time it is retired (R419). -/
def reEraseFailed (j : FlsJob) (s : Nat) (d : Dev) : Dev :=
  let n := j.aux.getD 1 0 + 1
  if n < 3 then d.modFls fun f => { f with jobs := f.jobs.map fun k => if k = j then { j with aux := [s, n] } else k }
  else
    let d1 := d.modFls fun f =>
      { f with jobs := f.jobs.filter (· != j), suspect := f.suspect.filter (· != s), retired := f.retired ++ [s] }
    let r := sectorRegion s
    postEvent 0x0703 4 s [r + (if r = 0xFF then 0 else (d1.ringSectors r).length * 256)] d1

/-- ERASE_DONE: the erase in progress ends; bad says that it does not verify blank (R416). Assumption 52 (DEDUCED). -/
def execEraseDone (bad : Bool) (st : State) : Out :=
  st.updB fun m d =>
    match d.fls.erasing with
    | none => (m, d)
    | some s =>
      if d.fls.susp || d.fls.frozen then (m, d)
      else
        let d1 := countErase s (d.modFls fun f => { f with erasing := none, forced := false })
        match d1.eraseJob s with
        | none => flsKick (journalClear s (flashErase s m), d1)
        | some j =>
          if bad then
            let m1 := flashOpen (s * 0x10000) 256 d1.open_ (flashErase s m)
            let d2 := d1.bump
            flsKick (m1, if j.sq = ownJob then reEraseFailed j s d2 else flsEndCmd j stVerifyFailed j.erased d2)
          else flsPop j 1 (journalClear s (flashErase s m),
            d1.modTch fun t => if t.ringErase = some s then { t with ringErase := none } else t)

/-- ERASE_RESUME: the requests that suspended the erase have been served; a forced erase leaves programs waiting (R417). -/
def execEraseResume (s : State) : Out :=
  s.upd fun d =>
    if d.fls.frozen || !d.fls.susp || (d.progJob.isSome && !d.fls.forced) then d
    else d.modFls fun f => { f with susp := false, resumeAt := some d.now }

/-- ERASE_FORCED: the erase's age has reached its limit; it no longer yields to reads and programs (R417, R427). -/
def execEraseForced (st : State) : Out :=
  st.upd fun d =>
    match d.fls.erasing with
    | none => d
    | some s =>
      match d.eraseJob s with
      | some j =>
        let age := (d.now - d.fls.eraseAt) / flashMs
        if j.limit = 0 || d.fls.forced || decide (age < j.limit) then d
        else postEvent 0x0701 4 s [age, j.limit] (d.modFls fun f => { f with forced := true })
      | none => d

/-! ## Regions (R420 to R422) -/

/-- The payload bytes of a sector. -/
def pieceLen : Nat := 65472

/-- The generation that begins at position p of a ring: its number and payload, where it is committed, whole, and its
hash checks. -/
def Memory.genAt (m : Memory) (r : Nat) (ring : List Nat) (p : Nat) : Option (Nat × Nat × List Byte) :=
  let hd := fun (i : Nat) => m.flash (ring.getD ((p + i) % ring.length) 0 * 0x10000) 64
  let h := hd 0
  let gen := dget h 4 4
  let n := dget h 10 2
  let len := dget h 12 4
  if dget h 0 4 ≠ r ∨ dget h 8 2 ≠ 0 ∨ dget h 60 4 ≠ 0 ∨ n = 0 ∨ ring.length < n ∨ n * pieceLen < len then none
  else if (List.range n).all fun i => dget (hd i) 0 4 == r && dget (hd i) 4 4 == gen && dget (hd i) 8 2 == i then
    let body := ((List.range n).flatMap fun i =>
      m.flash (ring.getD ((p + i) % ring.length) 0 * 0x10000 + 64) (min pieceLen (len - i * pieceLen)))
    if (Config.sha384 body).take 32 == (h.drop 20).take 32 then some (gen, n, body) else none
  else none

/-- The current generation of a region: position, number, sectors, payload. -/
def Dev.region (d : Dev) (m : Memory) (r : Nat) : Option (Nat × Nat × Nat × List Byte) :=
  let ring := d.ringSectors r
  (List.range ring.length).foldl (fun b p =>
    match m.genAt r ring p, b with
    | some (g, n, body), none => some (p, g, n, body)
    | some (g, n, body), some x => if x.2.1 < g then some (p, g, n, body) else some x
    | none, _ => b) none

/-- The operations of a REGION_WRITE, and its generation: none where the ring has no room for it. -/
def Dev.regionActs (d : Dev) (m : Memory) (r : Nat) (body : List Byte) : Option (List FlsAct × Nat) :=
  let ring := d.ringSectors r
  let n := max 1 ((body.length + pieceLen - 1) / pieceLen)
  let big := (regionShape r).2.2
  if big < n ∨ (ring.length < 2 * big ∧ ring.length / 2 < n) ∨ ring = [] then none
  else
    let start := match d.region m r with
      | some (p, _, k, _) => p + k
      | none => 0
    let gen := match d.region m r with
      | some (_, g, _, _) => g + 1
      | none => 1
    let sec := fun (i : Nat) => ring.getD ((start + i) % ring.length) 0
    let head := fun (i : Nat) =>
      leBytes 4 r ++ leBytes 4 gen ++ leBytes 2 i ++ leBytes 2 n ++ leBytes 4 body.length ++
        leBytes 4 (mget 0 d.fls.counts (sec i) + 1) ++ ((Config.sha384 body) ++ List.replicate 48 0).take 32 ++
        List.replicate 12 0xFF
    let erases := (List.range n).map fun i => FlsAct.erase (sec i)
    let progs := (List.range n).flatMap fun i =>
      pages (sec i * 0x10000) (head i ++ (body.drop (i * pieceLen)).take pieceLen) false
    some (erases ++ progs ++ [.prog (sec 0 * 0x10000 + 60) [0, 0, 0, 0] true], gen)

/-! ## Firmware slots (R425, R426) -/

/-- Slot s is verified. -/
def Memory.slotVerified (m : Memory) (s : Nat) : Bool := dget (m.flash (slotAt s) 4) 0 4 == 0

/-- Word i of a table of the state sector of slot s. -/
def Memory.slotWord (m : Memory) (s off i : Nat) : Nat := dget (m.flash (slotAt s + off + 4 * i) 4) 0 4

/-- The highest select sequence of slot s, 0 for none. -/
def Memory.slotSeq (m : Memory) (s : Nat) : Nat :=
  (List.range 4096).foldl (fun n i => let v := m.slotWord s 4 i
    if v = 0xFFFFFFFF then n else max n v) 0

/-- The next free entry of a table of erased words. -/
def Memory.slotFree (m : Memory) (s off : Nat) : Option Nat := (List.range 4096).find? fun i => m.slotWord s off i == 0xFFFFFFFF

/-- The last three boot attempt words are cleared without a matching confirm word. -/
def Memory.slotFailed (m : Memory) (s : Nat) : Bool :=
  let n := (m.slotFree s 0x8000).getD 4096
  decide (3 ≤ n) && (List.range 3).all fun i => m.slotWord s 0xC000 (n - 1 - i) != 0

/-- A confirmed image: some boot attempt has its confirm word cleared. -/
def Memory.slotConfirmed (m : Memory) (s : Nat) : Bool := (List.range 4096).any fun i => m.slotWord s 0xC000 i == 0

/-- The operations of FW_SELECT on slot s: the next sequence number into the first free entry, or a state sector rewritten
because its select entries or boot attempt words have run out. -/
def Memory.selectActs (m : Memory) (s : Nat) : List FlsAct :=
  let v := max (m.slotSeq 0) (m.slotSeq 1) + 1
  match m.slotFree s 4, m.slotFree s 0x8000 with
  | some i, some _ => [.prog (slotAt s + 4 + 4 * i) (leBytes 4 v) false]
  | _, _ => [.erase (s * 256), .prog (slotAt s) [0, 0, 0, 0] false, .prog (slotAt s + 4) (leBytes 4 v) false]

/-- Sectors whose journal entry has no cleared flag are suspect: they leave their windows and are re-erased at the next
idle time (R419). -/
def resolveFlash (x : MD) : MD :=
  let l := latestEntries (x.1.journal 0 8192)
  let bad := l.filter fun e => e.2.2 == 0xFFFFFFFF && decide (e.1 < 1024)
  bad.foldl (fun y e =>
    let d1 := postEvent 0x0702 4 e.1 [sectorRegion e.1] (y.2.modFls fun f =>
      { f with suspect := if f.suspect.contains e.1 then f.suspect else f.suspect ++ [e.1],
               jobs := f.jobs ++ [⟨ownJob, 0, [.erase e.1], 0, 0, [e.1, 0]⟩] })
    (y.1, d1)) x

end Sys2Proof.Machine
end

