-- ==== Sys2Proof/Machine/AxisRows.lean ====
section
/-!
DEFINITION. The commands of the axis block: requests through AXS_CTL (R93, R98), SOFTWARE causes (R89), the end of a ramp
(R92), and the writes of AXS registers.
-/
namespace Sys2Proof.Machine

/-- The last request was not allowed. -/
def ctlRefused (a : Nat) (no : Bool) (d : Dev) : Dev := when no (·.setB (AXS_CTL a) AXS_CTL_refused true) d

/-- A request of AXS_CTL by its code: 1 ARM, 2 ENABLE, 3 STOP_RAMP, 4 STOP_STO, 5 DISARM, 6 ACK (R98). -/
def ctlAct (a code : Nat) (d : Dev) : Dev :=
  match code with
  | 0 => d
  | 1 => let x := if d.axSt a = stAdmitted then axisEnable a 1 d else (d, some stNotPermitted)
    ctlRefused a x.2.isSome x.1
  | 2 => let x := axisEnable a 2 d
    ctlRefused a x.2.isSome x.1
  | 3 => if d.axSt a = stEnabled ∧ d.axBusy a = false then (stopRamp a stArmed d).1 else ctlRefused a true d
  | 4 => if d.axSt a = stEnabled ∧ d.axBusy a = false then stopSto a stArmed d else ctlRefused a true d
  | 5 => if d.axSt a = stArmed ∧ d.axBusy a = false then cutEnable a stAdmitted (d.setAxSt a stAdmitted)
    else ctlRefused a true d
  | _ => if d.axSt a = stFaulted ∧ (d.axis a).retiring = false then
      let x := axisAck a d
      ctlRefused a x.2.isSome x.1
    else ctlRefused a true d

/-- A write of AXS_CTL: the flag clears by its access code, and an accepted request acts; a reserved one has an open
effect (R11). Assumption 20 (DEDUCED). -/
def ctlWrite (w : Writer) (a : Nat) (v : Word) (d : Dev) : Dev :=
  let ok := d.accepts w (AXS_CTL a)
  let d1 := plainWrite w (AXS_CTL a) v d
  let req := fget AXS_CTL_req v
  if !ok then d1 else if req ≤ 6 then ctlAct a req d1 else ctlAct a (d1.open_ % 7) d1.bump

/-- AXS_CTL_ARM. -/
def execAxsCtlArm (w : Writer) (a : Fin 64) (s : State) : Out := s.onCluster (axCl a.val) (ctlWrite w a.val 1)
/-- AXS_CTL_ENABLE. -/
def execAxsCtlEnable (w : Writer) (a : Fin 64) (s : State) : Out := s.onCluster (axCl a.val) (ctlWrite w a.val 2)
/-- AXS_CTL_STOP_RAMP. -/
def execAxsCtlStopRamp (w : Writer) (a : Fin 64) (s : State) : Out := s.onCluster (axCl a.val) (ctlWrite w a.val 3)
/-- AXS_CTL_STOP_STO. -/
def execAxsCtlStopSto (w : Writer) (a : Fin 64) (s : State) : Out := s.onCluster (axCl a.val) (ctlWrite w a.val 4)
/-- AXS_CTL_DISARM. -/
def execAxsCtlDisarm (w : Writer) (a : Fin 64) (s : State) : Out := s.onCluster (axCl a.val) (ctlWrite w a.val 5)
/-- AXS_CTL_ACK. -/
def execAxsCtlAck (w : Writer) (a : Fin 64) (s : State) : Out := s.onCluster (axCl a.val) (ctlWrite w a.val 6)

/-- A write of AXS_FAULT_REQ: 0x0E records SOFTWARE, other values are discarded (R98). -/
def faultReqWrite (a : Nat) (v : Word) (d : Dev) : Dev :=
  if fget AXS_FAULT_REQ_cause v = 0x0E then recordCause a 0x0E d else d

/-- AXS_FAULT_REQ: any master may write. -/
def execAxsFaultReq (w : Writer) (a : Fin 64) (v : Word) (s : State) : Out :=
  s.onCluster (axCl a.val) fun d => closeAt w (AXS_FAULT_REQ a.val) (faultReqWrite a.val v d)

/-- RAMP_HOLD_END: the final position has been held for ramp_hold; FR_STO applies, or the disable reaches its target
(R92, R93). Assumption 4 (DESIGN CHOICE). -/
def execRampHoldEnd (a : Fin 64) (s : State) : Out :=
  s.onCluster (axCl a.val) fun d =>
    let held := (d.cluster (axCl a.val)).ref - (d.axis a.val).rampHoldT
    if d.ramping a.val ∧ (d.axis a.val).rampHold ∧ d.fld (AXS_RAMP_HOLD a.val) AXS_RAMP_HOLD_ramp_hold * 800 ≤ held then
      rampFinished a.val 1 d
    else d

/-- RAMP_TIMEOUT: ramp_tmax has passed since the ramp began (R92). Assumption 4 (DESIGN CHOICE). -/
def execRampTimeout (a : Fin 64) (s : State) : Out :=
  s.onCluster (axCl a.val) fun d =>
    let ran := (d.cluster (axCl a.val)).ref - (d.axis a.val).rampT
    if d.ramping a.val ∧ d.fld (AXS_RAMP_TMAX a.val) AXS_RAMP_TMAX_ramp_tmax * 800 ≤ ran then rampFinished a.val 2 d else d

/-- The bits of AXS_FRMAP word k that a write changes: those of the causes of R86 without FLT_INPUT, STO_REQUEST and
RETIRE (R98). -/
def frmapMask (k : Nat) : Word :=
  match k with
  | 0 => 0x77777000
  | 1 => 0x07777777
  | 2 => 0x00000077
  | _ => 0x77777777

/-- A write of an AXS register. -/
def axsWrite (nm : RegName) (ix : List Nat) (w : Writer) (addr : Nat) (v : Word) (d : Dev) : Dev :=
  let a := ix.headD 0
  match nm with
  | .AXS_CTL => ctlWrite w a v d
  | .AXS_FAULT_REQ => faultReqWrite a v d
  | .AXS_FRMAP =>
    let m := frmapMask (ix.getD 1 0)
    plainWrite w addr ((v &&& m) ||| (d.rd addr &&& ~~~m)) d
  | _ => plainWrite w addr v d

end Sys2Proof.Machine
end

