-- ==== Sys2Proof/Machine/Crucible.lean ====
section
/-!
DEFINITION. Chapter "Crucible precision converters" (R229 to R238).
-/
namespace Sys2Proof.Machine

/-- The Crucible changed by f. -/
def Dev.modCru (d : Dev) (f : Cru → Cru) : Dev := { d with cru := f d.cru }

/-- The conversion converter j runs. -/
def Dev.cruRun (d : Dev) (j : Nat) : Option ConvRun := mget none d.cru.runs j

/-- The conversion of converter j set; busy follows it (R232). -/
def Dev.setRun (d : Dev) (j : Nat) (r : Option ConvRun) : Dev :=
  (d.modCru fun c => { c with runs := mset none c.runs j r }).setB (CRU_STAT j) CRU_STAT_busy r.isSome

/-- Trigger k. -/
def Dev.cruTrig (d : Dev) (k : Nat) : CruTrig := mget .reset d.cru.trigs k

/-- Trigger k changed by f. -/
def Dev.modTrig (d : Dev) (k : Nat) (f : CruTrig → CruTrig) : Dev :=
  d.modCru fun c => { c with trigs := mset .reset c.trigs k (f (d.cruTrig k)) }

/-- Pair p. -/
def Dev.cruPair (d : Dev) (p : Nat) : CruPair := mget .reset d.cru.pairs p

/-- Pair p changed by f. -/
def Dev.modPair (d : Dev) (p : Nat) (f : CruPair → CruPair) : Dev :=
  d.modCru fun c => { c with pairs := mset .reset c.pairs p (f (d.cruPair p)) }

/-- The integration time of a setting: the base period over 2^frac, to nearest (R232). -/
def cruTInt (mains : Bool) (frac : Nat) : Nat :=
  let p := if mains then 666667 else 800000
  (2 * p + 2 ^ frac) / (2 * 2 ^ frac)

/-- The event of a Flux source: converter j has done what evt names, and each CRU[k] that selects it starts towards
every cluster of the part (R237). -/
def cruFlux (evt j : Nat) (d : Dev) : Dev :=
  upTo 4 (fun k x =>
    let conv := x.fld (CRU_FSRC k) CRU_FSRC_conv
    if x.flag (CRU_FSRC k) CRU_FSRC_en && x.fld (CRU_FSRC k) CRU_FSRC_evt == evt &&
        (if evt = 1 then conv / 2 == j / 2 else conv == j) then fluxToAll .ai (0xCC + k) x
    else x) d

/-- The reference of a conversion that starts now is unsettled (R231): ref_ok is 0, or a ratiometric conversion's
excitation output is on for less than 2 ms. -/
def Dev.cruUnsettled (d : Dev) (cfg : Word) : Bool :=
  let k := fget CRU_CFG_exc cfg
  !d.flag CRU_REF_CTL CRU_REF_CTL_ref_ok ||
    (fget CRU_CFG_ratio cfg == 1 && (d.fld CRU_REF_CTL CRU_REF_CTL_exc_en).testBit k &&
      !(d.fld CRU_REF_CTL CRU_REF_CTL_exc_ok).testBit k)

/-- The present icyc (R8). -/
def Dev.icyc (d : Dev) : Nat := d.now / 20

/-- Converter j begins to integrate with the given settings. -/
def cruBegin (j : Nat) (cfg : Word) (check : Bool) (d : Dev) : Dev :=
  d.setRun j (some {
    cfg := cfg, unsettled := d.cruUnsettled cfg
    tInt := cruTInt (d.flag CRU_REF_CTL CRU_REF_CTL_mains) (fget CRU_CFG_frac cfg), rundown := false, check := check
    began := d.icyc, tWas := d.wide64 (CRU_T_LO j), pairWas := d.cruPair (j / 2) })

/-- A start of converter A of pair p counts towards the next check cycle, in which B starts with A's settings, or is
skipped because B is busy (R236). -/
def cruCheckStart (p : Nat) (d : Dev) : Dev :=
  if !d.flag (CRU_PAIR_CFG p) CRU_PAIR_CFG_xen then d
  else
    let n := (d.cruPair p).starts + 1
    if n < d.fld (CRU_PAIR_CFG p) CRU_PAIR_CFG_xdiv then d.modPair p fun q => { q with starts := n }
    else
      let d1 := d.modPair p fun q => { q with starts := 0 }
      if (d1.cruRun (2 * p + 1)).isSome then d1.incF (CRU_PAIR_STAT p) CRU_PAIR_STAT_xskip
      else cruBegin (2 * p + 1) (d.rd (CRU_CFG (2 * p))) true
        (d1.modPair p fun q => { q with active := true, resA := none, resB := none })

/-- A start of converter j with its trigger time: ignored without a reference (no_ref), while the converter is disabled,
or busy (overrun); one in the icyc of an earlier start shares that start's conversion (R231, R235).
Assumption 35 (DEDUCED). -/
def cruStart (j t : Nat) (d : Dev) : Dev :=
  let cfg := d.rd (CRU_CFG j)
  if !d.flag CRU_REF_CTL CRU_REF_CTL_ref_en then d.setB (CRU_STAT j) CRU_STAT_no_ref true
  else if fget CRU_CFG_en cfg = 0 then d
  else match d.cruRun j with
    | some r => if !r.check ∧ r.began = d.icyc then d else d.setB (CRU_STAT j) CRU_STAT_overrun true
    | none => when (j % 2 == 0) (cruCheckStart (j / 2)) ((cruBegin j cfg false d).setWide (CRU_T_LO j) t)

/-- A start of converter j in this icyc is undone, with the check it began, since a clear of en in the same icyc wins
(R235). -/
def cruUndo (j : Nat) (r : ConvRun) (d : Dev) : Dev :=
  let d1 := (d.setRun j none).setWide (CRU_T_LO j) r.tWas
  if j % 2 = 1 then d1
  else
    let d2 := d1.modPair (j / 2) fun _ => r.pairWas
    match d.cruRun (j + 1) with
    | some b => if b.check ∧ b.began = r.began then d2.setRun (j + 1) none else d2
    | none => d2

/-- The conversion of converter j is discarded: aborted sets and valid clears, res stays; a check of its pair is
dropped, and a CRU_CONVERT that waits for it ends (R235, R236, R372). Assumption 35 (DEDUCED). -/
def cruAbort (j : Nat) (d : Dev) : Dev :=
  match d.cruRun j with
  | none => d
  | some r =>
    let d1 := (d.setRun j none).modPair (j / 2) fun q =>
      if j % 2 = 0 ∨ r.check then { q with active := false, resA := none, resB := none } else q
    let d2 := when (r.check || (j % 2 == 0 && (d.cruPair (j / 2)).active)) (·.setB (CRU_XRES (j / 2)) CRU_XRES_valid false) d1
    if r.check then cruFlux 2 j d2
    else
      endWaits (fun w => w.op == 0x0520 && w.target == j) stAbortedDisabled 0
        (cruFlux 2 j ((d2.setB (CRU_RES j) CRU_RES_aborted true).setB (CRU_RES j) CRU_RES_valid false))

/-- en of converter j is cleared: a start of this icyc is undone, an older conversion is discarded (R235). -/
def cruDisable (j : Nat) (d : Dev) : Dev :=
  match d.cruRun j with
  | some r => if !r.check ∧ r.began = d.icyc then cruUndo j r d else cruAbort j d
  | none => d

/-! ## Triggers (R233, R234) -/

/-- CRU_START: a pulse on CRU_START[k] in cluster c sends that ccyc's device time to the analogue island, where trigger
k listens to this cluster (R233). -/
def execCruStart (c : Fin 4) (k : Fin 4) (s : State) : Out :=
  s.onCluster c.val fun d =>
    let d1 := fluxArrive c.val (0x70 + k.val) d
    if d.flag (CRU_TRG_CFG k.val) CRU_TRG_CFG_en && d.fld (CRU_TRG_CFG k.val) CRU_TRG_CFG_cl == c.val then
      { d1 with crossing := d1.crossing ++ [⟨.cl c, .ai, .trig k.val (d.copy c.val)⟩] }
    else d1

/-- dly evaluated against the count of a running delay counter (R28, R234). -/
def cruEval (k : Nat) (d : Dev) : Dev :=
  let x := ((d.rd (CRU_TRG_DLY k)).toNat + 2 ^ 32 - (d.cruTrig k).count % 2 ^ 32) % 2 ^ 32
  if x = 0 then d.addDue (.cruMatch k false)
  else if 2 ^ 31 ≤ x then d.addDue (.cruMatch k true)
  else d

/-- The item is a start of trigger k (R233). -/
def CrossItem.starts (x : CrossItem) (k : Nat) : Bool :=
  match x.pay with
  | .trig i _ => i == k
  | _ => false

/-- The start of trigger k that arrives next: one that stands first in its crossing (R33). -/
def Dev.nextStart (d : Dev) (k : Nat) : Option CrossItem :=
  d.crossing.find? fun x => x.starts k && d.crossing.find? (fun y => y.src == x.src && y.dst == x.dst) == some x

/-- TRIGGER_ARRIVAL: a start of trigger k arrives after 4 + l icyc, which the converters it will start record: its delay
counter starts at 0; one that arrives while the counter runs is ignored and sets trg_ovr (R233, R234).
Assumption 35 (DEDUCED). -/
def execTriggerArrival (k : Fin 4) (l : Fin 3) (s : State) : Out :=
  s.upd fun d =>
    match d.nextStart k.val with
    | some ⟨a, b, .trig i t⟩ =>
      let d1 := { d with crossing := d.crossing.erase ⟨a, b, .trig i t⟩ }
      if d.flag (CRU_TRG_CFG k.val) CRU_TRG_CFG_counting then d1.setB (CRU_TRG_CFG k.val) CRU_TRG_CFG_trg_ovr true
      else
        let d2 := upTo 16 (fun j => when ((d.fld (CRU_TRG_CFG k.val) CRU_TRG_CFG_conv).testBit j)
          (·.setF (CRU_STAT j) CRU_STAT_lat (4 + l.val))) d1
        cruEval k.val ((d2.setB (CRU_TRG_CFG k.val) CRU_TRG_CFG_counting true).modTrig k.val fun _ => { count := 0, tTrig := t })
    | _ => d

/-- TRIGGER_DELAY_MATCH: a match of the delay counter of trigger k with dly that is due, by counting or by evaluation:
every converter of conv starts (R233). A match by evaluation in the past sets late (R234). Assumption 4
(DESIGN CHOICE). -/
def execTriggerDelayMatch (k : Fin 4) (s : State) : Out :=
  s.upd fun d =>
    let late := decide (Due.cruMatch k.val true ∈ d.due)
    if !d.flag (CRU_TRG_CFG k.val) CRU_TRG_CFG_counting || (!late && !decide (Due.cruMatch k.val false ∈ d.due)) then d
    else
      let g := d.cruTrig k.val
      let d1 := (d.dropDue (.cruMatch k.val true)).dropDue (.cruMatch k.val false)
      let d2 := (d1.setB (CRU_TRG_CFG k.val) CRU_TRG_CFG_counting false).modTrig k.val fun q => { q with count := 0 }
      let d3 := when late (·.setB (CRU_TRG_CFG k.val) CRU_TRG_CFG_late true) d2
      upTo 16 (fun j => when ((d.fld (CRU_TRG_CFG k.val) CRU_TRG_CFG_conv).testBit j) (cruStart j g.tTrig)) d3

/-- A write of CRU_TRG_DLY: while the counter runs, an earlier match that is due is discarded and the new value
evaluated (R234). -/
def cruDlyWrite (w : Writer) (k : Nat) (v : Word) (d : Dev) : Dev :=
  let d1 := plainWrite w (CRU_TRG_DLY k) v d
  if d.flag (CRU_TRG_CFG k) CRU_TRG_CFG_counting then
    cruEval k ((d1.dropDue (.cruMatch k true)).dropDue (.cruMatch k false))
  else d1

/-- CRU_TRG_DLY_WRITE. -/
def execCruTrgDlyWrite (w : Writer) (k : Fin 4) (v : Word) (s : State) : Out := s.upd (cruDlyWrite w k.val v)

/-! ## Converters -/

/-- A setting that CRU_CFG does not take: ch above 23, an odd ch with diff, or frac = 7 (R235). -/
def cruCfgBad (v : Word) : Bool :=
  23 < fget CRU_CFG_ch v || (fget CRU_CFG_diff v == 1 && fget CRU_CFG_ch v % 2 == 1) || fget CRU_CFG_frac v == 7

/-- A write of CRU_CFG: the clear of en aborts a conversion; any other write while the converter is busy, and a
reserved setting, is discarded with cfg_err; go starts the converter with t_trig 0 (R234, R235). -/
def cruCfgWrite (w : Writer) (j : Nat) (v : Word) (d : Dev) : Dev :=
  let clear := fget CRU_CFG_en v == 0 && d.flag (CRU_CFG j) CRU_CFG_en
  if cruCfgBad v || ((d.cruRun j).isSome && !clear) then
    discardWrite w (CRU_CFG j) (d.setB (CRU_STAT j) CRU_STAT_cfg_err true)
  else
    let d1 := plainWrite w (CRU_CFG j) v d
    if clear then cruDisable j d1 else when (fget CRU_CFG_go v == 1) (cruStart j 0) d1

/-- CRU_CFG_WRITE. -/
def execCruCfgWrite (w : Writer) (j : Fin 16) (v : Word) (s : State) : Out := s.upd (cruCfgWrite w j.val v)

/-- CRU_GO: a write of CRU_CFG with go set. -/
def execCruGo (w : Writer) (j : Fin 16) (v : Word) (s : State) : Out :=
  s.upd (cruCfgWrite w j.val (fput CRU_CFG_go v 1))

/-- INTEGRATION_END: the conversion of converter j enters its rundown (R232). -/
def execIntegrationEnd (j : Fin 16) (s : State) : Out :=
  s.upd fun d =>
    match d.cruRun j.val with
    | some r => d.setRun j.val (some { r with rundown := true })
    | none => d

/-- The gain a setting selects (R229). -/
def cruGain (v : Word) : Nat :=
  match fget CRU_CFG_gain v with
  | 0 => 1
  | 1 => 8
  | 2 => 64
  | _ => 128

/-- The result for an input of vin against a reference of vref, both in nV: to nearest, an exact half towards +∞,
clamped, its lowest frac bits 0; and whether it was clamped (R229, R232). Assumption 35 (DEDUCED). -/
def cruResult (cfg : Word) (vin : Int) (vref : Nat) : Int × Bool :=
  let num := (cruGain cfg : Int) * vin * 2 ^ 23
  let r := (2 * num + vref) / (2 * (vref : Int))
  let c := satI 24 r
  (c / 2 ^ fget CRU_CFG_frac cfg * 2 ^ fget CRU_CFG_frac cfg, c != r)

/-- The voltage that excitation output k drives, in nV: 1.2 V, or 1.5 V with its exc_hv bit, and 0 V while it or the
reference buffer is off (R230, R231). -/
def Dev.excLevel (d : Dev) (k : Nat) : Nat :=
  if !d.flag CRU_REF_CTL CRU_REF_CTL_ref_en || !(d.fld CRU_REF_CTL CRU_REF_CTL_exc_en).testBit k then 0
  else if (d.fld CRU_REF_CTL CRU_REF_CTL_exc_hv).testBit k then 1500000000 else 1200000000

/-- The voltage that a setting measures, from those at AIN00 to AIN23 in nV (R229). -/
def cruVin (cfg : Word) (ain : List Int) : Int :=
  let ch := fget CRU_CFG_ch cfg
  if fget CRU_CFG_diff cfg = 1 then ain.getD ch 0 - ain.getD (ch + 1) 0 else ain.getD ch 0

/-- The voltage at the ball of the excitation output that a setting takes as its reference: what the output drives, or,
where its load holds it below that, exc (R229, R230). -/
def Dev.cruVref (d : Dev) (cfg : Word) (exc : Option Nat) : Nat :=
  let n := d.excLevel (fget CRU_CFG_exc cfg)
  if n = 0 then 0 else exc.getD n

/-- The result of converter j for the input it saw; with a reference of 0 V the result is open. Assumption 35 (DEDUCED). -/
def Dev.cruMeasure (d : Dev) (cfg : Word) (vin : Int) (vref : Nat) : Int × Bool :=
  if fget CRU_CFG_ratio cfg = 0 then cruResult cfg vin 1250000000
  else if vref = 0 then (sx 24 d.open_ / 2 ^ fget CRU_CFG_frac cfg * 2 ^ fget CRU_CFG_frac cfg, d.open_.testBit 24)
  else cruResult cfg vin vref

/-- A check cycle whose two results stand is compared (R236). -/
def cruCompare (p : Nat) (d : Dev) : Dev :=
  match (d.cruPair p).resA, (d.cruPair p).resB with
  | some a, some b =>
    let d1 := d.modPair p fun q => { q with active := false, resA := none, resB := none }
    if d.fld (CRU_XTH p) CRU_XTH_xth < (a - b).natAbs then
      let d2 := (d1.setB (CRU_PAIR_STAT p) CRU_PAIR_STAT_plausibility true).incF (CRU_PAIR_STAT p) CRU_PAIR_STAT_xfail
      cruFlux 1 (2 * p) (postEvent (evOpen 5 4) 3 p [wrapN 32 a, wrapN 32 b] d2)
    else d1
  | _, _ => d

/-- The status and result of a CRU_CONVERT whose conversion ended (R372). -/
def cruConvertEnd (j : Nat) (d : Dev) : Dev :=
  let warn := d.flag (CRU_RES j) CRU_RES_ref_unsettled || d.flag (CRU_RES j) CRU_RES_clip
  endWaits (fun w => w.op == 0x0520 && w.target == j) (if warn then stOkWarning else stOk) (bits (d.rd (CRU_RES j)).toNat 23 0 + bits (d.rd (CRU_RES j)).toNat 31 28 * 2 ^ 24) d

/-- CONVERSION_END: rundown of converter j ends with these voltages in nV at AIN00 to AIN23, and exc nV at the ball of its
excitation output where a load holds that below what it drives; the result stands (R229, R232, R236, R237). The result of
a check that was dropped goes nowhere. Assumption 35 (DEDUCED). -/
def execConversionEnd (j : Fin 16) (ain : List Int) (exc : Option Nat) (s : State) : Out :=
  s.upd fun d =>
    match d.cruRun j.val with
    | none => d
    | some r =>
      if !r.rundown then d
      else
      let j := j.val
      let m := d.cruMeasure r.cfg (cruVin r.cfg ain) (d.cruVref r.cfg exc)
      let d1 := evcDevice (0x330 + j) ((d.setRun j none).incF (CRU_STAT j) CRU_STAT_conv_cnt).bump
      if r.check then
        if !(d.cruPair (j / 2)).active then d1
        else cruCompare (j / 2) ((d1.wr (CRU_XRES (j / 2)) (w32 (2 ^ 31 + wrapN 24 m.1))).modPair (j / 2) fun q =>
          { q with resB := some m.1 })
      else
        let seq := (d.fld (CRU_RES j) CRU_RES_seq + 1) % 16
        let d2 := d1.wr (CRU_RES j)
          (w32 (2 ^ 31 + b2n r.unsettled * 2 ^ 30 + b2n m.2 * 2 ^ 28 + seq * 2 ^ 24 + wrapN 24 m.1))
        let d3 := cruConvertEnd j (cruFlux 0 j d2)
        if j % 2 = 0 then
          cruCompare (j / 2) (d3.modPair (j / 2) fun q => if q.active then { q with resA := some m.1 } else q)
        else d3

/-! ## Reference and excitation (R230, R231) -/

/-- A write of CRU_REF_CTL: clearing ref_en aborts every conversion and drives the excitation balls to 0 V; an output
that is switched off or was off counts its 2 ms anew (R230, R231, R235). -/
def cruRefWrite (w : Writer) (v : Word) (d : Dev) : Dev :=
  let on := d.flag CRU_REF_CTL CRU_REF_CTL_ref_en
  let d1 := plainWrite w CRU_REF_CTL v d
  let d2 := d1.setF CRU_REF_CTL CRU_REF_CTL_exc_ok
    (d1.fld CRU_REF_CTL CRU_REF_CTL_exc_ok &&& d1.fld CRU_REF_CTL CRU_REF_CTL_exc_en)
  if d1.flag CRU_REF_CTL CRU_REF_CTL_ref_en then d2
  else
    let d3 := d2.setB CRU_REF_CTL CRU_REF_CTL_ref_ok false
    when on (upTo 16 cruAbort) d3

/-- CRU_REF_CTL_WRITE. -/
def execCruRefCtlWrite (w : Writer) (v : Word) (s : State) : Out := s.upd (cruRefWrite w v)

/-- REF_OK: 2 ms after ref_en, ref_ok sets (R231). -/
def execRefOk (s : State) : Out :=
  s.upd fun d => when (d.flag CRU_REF_CTL CRU_REF_CTL_ref_en) (·.setB CRU_REF_CTL CRU_REF_CTL_ref_ok true) d

/-- EXC_OK: 2 ms after output k was enabled, its exc_ok bit sets (R231). -/
def execExcOk (k : Fin 4) (s : State) : Out :=
  s.upd fun d =>
    when ((d.fld CRU_REF_CTL CRU_REF_CTL_exc_en).testBit k.val)
      (fun x => x.setF CRU_REF_CTL CRU_REF_CTL_exc_ok (setBit (x.fld CRU_REF_CTL CRU_REF_CTL_exc_ok) k.val true)) d

/-- EXC_CURRENT_LIMIT: output k, which is on, exceeds 12 mA: it limits and its exc_ilim bit sets (R230). -/
def execExcCurrentLimit (k : Fin 4) (s : State) : Out :=
  s.upd fun d =>
    when ((d.fld CRU_REF_CTL CRU_REF_CTL_exc_en).testBit k.val && d.flag CRU_REF_CTL CRU_REF_CTL_ref_en)
      (fun x => x.setF CRU_REF_CTL CRU_REF_CTL_exc_ilim (setBit (x.fld CRU_REF_CTL CRU_REF_CTL_exc_ilim) k.val true)) d

/-- A write of a CRU register (R238). -/
def cruWrite (nm : RegName) (ix : List Nat) (w : Writer) (addr : Nat) (v : Word) (d : Dev) : Dev :=
  let i := ix.headD 0
  match nm with
  | .CRU_REF_CTL => cruRefWrite w v d
  | .CRU_TRG_DLY => cruDlyWrite w i v d
  | .CRU_CFG => cruCfgWrite w i v d
  | _ => plainWrite w addr v d

/-- One icyc of the triggers' delay counters; the match itself has a row of its own. Assumption 12 (DEDUCED). -/
def cruTick (d : Dev) : Dev :=
  upTo 4 (fun k x =>
    if x.flag (CRU_TRG_CFG k) CRU_TRG_CFG_counting then
      let x1 := x.modTrig k fun g => { g with count := (g.count + 1) % 2 ^ 32 }
      when (decide ((x1.cruTrig k).count = (x.rd (CRU_TRG_DLY k)).toNat)) (·.addDue (.cruMatch k false)) x1
    else x) d

end Sys2Proof.Machine
end

