-- ==== Sys2Proof/Machine/Touchmark.lean ====
section
/-!
DEFINITION. Chapter "Touchmark black-box record": the record's layout, the writer's commits, and supply dips and loss
(R428 to R437, R454 to R459).
-/
namespace Sys2Proof.Machine

/-! ## Records (R428 to R430) -/

/-- One bit of the CRC-32 of IEEE 802.3, lowest bit first. -/
def crcBit32 (c : Nat) : Nat := if c % 2 = 1 then (c / 2) ^^^ 0xEDB88320 else c / 2

/-- One byte of the CRC-32. -/
def crcByte32 (c : Nat) (b : Byte) : Nat :=
  crcBit32 (crcBit32 (crcBit32 (crcBit32 (crcBit32 (crcBit32 (crcBit32 (crcBit32 (c ^^^ b.toNat))))))))

/-- The CRC-32 with the IEEE 802.3 polynomial (R430). Assumption 7 (PRESUMED). -/
def crc32 (bs : List Byte) : Nat := bs.foldl crcByte32 0xFFFFFFFF ^^^ 0xFFFFFFFF

/-- Bytes cut or filled to a length. -/
def padTo (n : Nat) (v : Byte) (b : List Byte) : List Byte := (b ++ List.replicate n v).take n

/-- The 512 bytes of a record with a sequence number (R430). -/
def tchBytes (r : TchRec) (seq : Nat) (pinned holdup : Bool) (d : Dev) : List Byte :=
  let flags := b2n pinned + b2n holdup * 2 + b2n r.prov * 4 + b2n (d.tchDropped != 0) * 8
  let head := leBytes 4 0x4B524D54 ++ leBytes 4 seq ++ leBytes 8 r.time ++ leBytes 2 r.cause ++ leBytes 1 flags ++
    leBytes 1 r.island ++ leBytes 4 r.index ++ leBytes 4 d.tch.boots ++ leBytes 1 d.lifecycle ++ leBytes 1 d.dbgLevel ++
    leBytes 2 d.tchDropped ++ leBytes 4 d.hlm.fwVersion ++ leBytes 2 d.tch.minCore ++ leBytes 2 d.tch.minAux ++
    leBytes 2 r.holdupMv ++ leBytes 2 r.temp
  let body := padTo 64 0 head ++ padTo 384 0 (r.pay.flatMap (leBytes 4)) ++ List.replicate 60 0xFF
  body ++ leBytes 4 (crc32 body)

/-- The flash offset of slot i. -/
def tchSlot (i : Nat) : Nat := 0x03800000 + 512 * i

/-- The slot of the next record: the first 16 are pinned, the others go round the ring (R429). -/
def Dev.tchNext (d : Dev) : Nat :=
  let seq := d.fld TCH_SEQ TCH_SEQ_seq
  let n := d.fld TCH_NEWEST TCH_NEWEST_slot
  if seq < 16 then seq else if n < 128 ∨ n = 2047 then 128 else n + 1

/-- The ring sector after the one that slot i begins, which is erased when that slot is committed (R429).
Assumption 61 (DEDUCED). -/
def tchEraseNext (i : Nat) : Option Nat := if 128 ≤ i ∧ i % 128 = 0 then some (896 + (if i / 128 = 15 then 1 else i / 128 + 1)) else none

/-- A record is committed into the next slot (R429, R430, R435). -/
def tchCommit (r : TchRec) (holdup : Bool) (x : MD) : MD :=
  let d := x.2
  let i := d.tchNext
  let seq := d.fld TCH_SEQ TCH_SEQ_seq + 1
  let m := flashProg (tchSlot i) (tchBytes r seq (decide (i < 16)) holdup d) x.1
  let d1 := ((d.setF TCH_NEWEST TCH_NEWEST_slot i).setF TCH_SEQ TCH_SEQ_seq seq).setB TCH_STAT TCH_STAT_new_rec true
  let d2 := { d1 with tchDropped := 0 }
  let d3 := d2.modTch fun t => { t with
    minCore := d.fld TCH_SUP_VCORE TCH_SUP_VCORE_mv, minAux := d.fld TCH_SUP_VAUX TCH_SUP_VAUX_mv }
  let d4 := if r.cause = 1 then d3.setF TCH_DIP_CNT TCH_DIP_CNT_dips (satInc 32 (d3.fld TCH_DIP_CNT TCH_DIP_CNT_dips)) else d3
  let d5 := evcDevice 0x342 (d4.modFls fun f => { f with susp := f.susp || f.erasing.isSome })
  match tchEraseNext i with
  | none => (m, d5)
  | some s => flsAdd ⟨ownJob, 1, [.erase s], 0, 0, []⟩ (m, d5.modTch fun t => { t with ringErase := some s })

/-- The next slot's sector is erased. Assumption 61 (DEDUCED). -/
def Dev.tchRoom (d : Dev) : Bool := d.tch.ringErase != some (896 + d.tchNext / 128)

/-- TOUCHMARK_COMMIT: the oldest queued record is committed. Assumption 61 (DEDUCED). -/
def execTouchmarkCommit (s : State) : Out :=
  s.updB fun m d =>
    match d.tchQueue with
    | r :: rest =>
      if !d.flag TCH_STAT TCH_STAT_ready || !d.tchRoom then (m, d)
      else tchCommit r false (m, ({ d with tchQueue := rest } : Dev).setF TCH_STAT TCH_STAT_queued (min 8 rest.length))
    | [] => (m, d)

/-- The log is erased, and a DECOMMISSION record becomes pinned slot 0 (R436). -/
def tchEraseLog (x : MD) : MD :=
  let m := (List.range 16).foldl (fun y i => flashErase (896 + i) y) x.1
  let d1 := ((x.2.wr TCH_NEWEST 0).wr TCH_SEQ 0).modTch fun t => { t with boots := 0, ringErase := none }
  let r : TchRec := ⟨0x000A, 4, 0, d1.stamp 4, [0], false, d1.fld TCH_HOLDUP TCH_HOLDUP_mv, d1.fld GLB_TEMP GLB_TEMP_temp⟩
  tchCommit r false (m, ({ d1.stamped 4 with tchQueue := [] } : Dev).setF TCH_STAT TCH_STAT_queued 0)

/-! ## Supplies (R433, R434, R455, R458, R459) -/

/-- The voltage of a supply: VAUX where aux, else VCORE. -/
def setSupply (aux : Bool) (mv : Nat) (d : Dev) : Dev :=
  let a := if aux then TCH_SUP_VAUX else TCH_SUP_VCORE
  let d1 := (d.setF a TCH_SUP_VCORE_mv mv).setF a TCH_SUP_VCORE_min_mv (min mv (d.fld a TCH_SUP_VCORE_min_mv))
  d1.modTch fun t => if aux then { t with minAux := min t.minAux mv } else { t with minCore := min t.minCore mv }

/-- A supply's warning and reset levels in mV (R457). -/
def warnLevel (aux : Bool) : Nat := if aux then 1660 else 850
def resetLevel (aux : Bool) : Nat := if aux then 1550 else 810

/-- SUPPLIES_VALID: both supplies have stood above warning plus 20 mV, and power-on reset ends (R455). -/
def execSuppliesValid (vcore vaux : Fin 65536) (s : State) : Out :=
  s.upd fun d =>
    if d.tch.valid || decide (vcore.val ≤ warnLevel false + 20) || decide (vaux.val ≤ warnLevel true + 20) then d
    else (setSupply true vaux.val (setSupply false vcore.val d)).modTch fun t => { t with valid := true }

/-- A supply's code in events and records: 0 VCORE, 1 VAUX. Assumption 56 (DEDUCED). -/
def supplyNo (aux : Bool) : Nat := b2n aux

/-- SUPPLY_WARNING: a supply stands below its warning level: the flash routine freezes, a provisional record opens or is
extended, and SUPPLY_WARN is queued (R418, R433, R457, R458). -/
def execSupplyWarning (aux : Bool) (mv : Fin 65536) (s : State) : Out :=
  s.upd fun d =>
    if !d.tch.valid || decide (warnLevel aux ≤ mv.val) then d
    else
      let d1 := ((setSupply aux mv.val d).setB TCH_SUP_STAT (if aux then TCH_SUP_STAT_vaux_warn else TCH_SUP_STAT_vcore_warn) true).setB
        TCH_SUP_STAT TCH_SUP_STAT_warn_seen true
      let run := !d.fls.frozen && d.progRuns
      let d2 := d1.modFls fun f => { f with
        frozen := true, susp := f.susp || f.erasing.isSome, progLeft := f.progLeft || run }
      let r : TchRec := ⟨0x0001, 5, supplyNo aux, d2.stamp 5, [], true, d2.fld TCH_HOLDUP TCH_HOLDUP_mv, d2.fld GLB_TEMP GLB_TEMP_temp⟩
      let d3 := d2.modTch fun t =>
        match t.prov with
        | some q => { t with provMv := if q.index = supplyNo aux then min t.provMv mv.val else t.provMv, provN := t.provN + 1 }
        | none => { t with prov := some r, provMv := mv.val, provN := 1, provT := 0 }
      postEvent 0x0110 5 (supplyNo aux) [supplyNo aux, mv.val] ((d3.setB TCH_STAT TCH_STAT_prov_open true).stamped 5)

/-- The dip of a supply went down to low mV: the open record of that supply holds its lowest voltage (R433). -/
def dipLow (aux : Bool) (low : Nat) (d : Dev) : Dev :=
  (setSupply aux low d).modTch fun t =>
    match t.prov with
    | some r => if r.index = supplyNo aux then { t with provMv := min t.provMv low } else t
    | none => t

/-- SUPPLY_RECOVERED: a supply stands at mV above warning plus 20 mV for 50 µs, after a dip down to low; with both above,
the dip's record joins the queue, SUPPLY_RECOVERED is posted with its duration in µs, from the first crossing on, and
flash work resumes (R418, R433, R457, R458). Assumption 61 (DEDUCED). -/
def execSupplyRecovered (aux : Bool) (mv low : Fin 65536) (s : State) : Out :=
  s.updB fun m d =>
    let f := if aux then TCH_SUP_STAT_vaux_warn else TCH_SUP_STAT_vcore_warn
    let g := if aux then TCH_SUP_STAT_vcore_warn else TCH_SUP_STAT_vaux_warn
    let dur := d.tch.provT / 800
    if !d.flag TCH_SUP_STAT f || decide (mv.val ≤ warnLevel aux + 20) then (m, d)
    else
      let d1 := (setSupply aux mv.val (dipLow aux low.val d)).setB TCH_SUP_STAT f false
      if d1.flag TCH_SUP_STAT g then (m, d1)
      else
        let d2 := (d1.setB TCH_SUP_STAT TCH_SUP_STAT_dip_seen true).setB TCH_STAT TCH_STAT_prov_open false
        let d3 := match d2.tch.prov with
          | some r =>
            let q := { r with pay := [r.index, d2.tch.provMv, dur, d2.tch.provN] }
            let l := (d2.tchQueue.filter fun y => y.time < q.time) ++ [q] ++ d2.tchQueue.filter fun y => q.time ≤ y.time
            (({ d2 with tchQueue := l } : Dev).setF TCH_STAT TCH_STAT_queued (min 8 l.length)).modTch fun t => { t with prov := none }
          | none => d2
        let d4 := postEvent 0x0111 5 (supplyNo aux) [dur] d3
        flsKick (m, d4.modFls fun f => { f with
          frozen := false, susp := false, progLeft := false, resumeAt := if f.susp then some d4.now else f.resumeAt })

/-- The sector whose erase was cut off holds bytes that nobody can tell (R419). Assumption 52 (DEDUCED). -/
def cutErase (x : MD) : MD :=
  match x.2.fls.erasing with
  | some s => (flashOpen (s * 0x10000) 0x10000 x.2.open_ (flashErase s x.1), x.2.bump)
  | none => x

/-- SUPPLY_RESET_LEVEL: after the supplies were valid, SUPPLY_LOSS and up to 3 queued records are committed from the
reservoir (whether they stand without holdup_ok is open), and the device enters power-on reset; the record holds the ms
since the warning crossing, and other is the voltage of the other supply (R434, R457, R459). Assumptions 56, 61
(DEDUCED). -/
def execSupplyResetLevel (aux : Bool) (mv other : Fin 65536) (s : State) : Out :=
  s.updB fun m d =>
    let ms := if d.tch.prov.isSome then d.tch.provT / 800000 else 0
    if !d.tch.valid || decide (resetLevel aux < mv.val) then (m, d)
    else
      let x := cutErase (m, setSupply aux mv.val (setSupply (!aux) other.val d))
      let d1 := x.2
      let stands := d1.flag TCH_STAT TCH_STAT_holdup_ok || d1.open_ % 2 == 0
      let t := match d1.tch.prov with
        | some r => r.time
        | none => d1.stamp 5
      let lost := d1.tchQueue.length - 3
      let r : TchRec := ⟨0x0002, 5, supplyNo aux, t, [supplyNo aux, ms, lost], d1.tch.prov.isSome, d1.fld TCH_HOLDUP TCH_HOLDUP_mv,
        d1.fld GLB_TEMP GLB_TEMP_temp⟩
      let y := if stands && d1.tchRoom then
          (d1.tchQueue.take 3).foldl (fun z q => if z.2.tchRoom then tchCommit q true z else z) (tchCommit r true (x.1, d1.stamped 5))
        else (x.1, d1.stamped 5)
      deviceReset 1 y

/-- HOLDUP_CHARGED: the reservoir is charged (R434). -/
def execHoldupCharged (mv : Fin 65536) (s : State) : Out :=
  s.upd fun d =>
    when d.tch.valid (fun x => (x.setF TCH_HOLDUP TCH_HOLDUP_mv mv.val).setB TCH_STAT TCH_STAT_holdup_ok true) d

/-- One ccyc of an open provisional record. -/
def dipTick (d : Dev) : Dev := when d.tch.prov.isSome (·.modTch fun t => { t with provT := t.provT + 1 }) d

/-- A write of TCH_WDT_KICK: a bench core's 0x3C96 sets out on its way into AO (R466). -/
def wdtKickWrite (w : Writer) (v : Word) (d : Dev) : Dev :=
  if benchLike w && v.toNat % 65536 == 0x3C96 then { d with crossing := d.crossing ++ [⟨.hi, .ao, .wdtKick⟩] } else d

/-- TCH_WDT_KICK. -/
def execTchWdtKick (w : Writer) (v : Word) (s : State) : Out := s.upd fun d => closeAt w TCH_WDT_KICK (wdtKickWrite w v d)

/-- A write of a TCH register. -/
def tchWrite (nm : RegName) (w : Writer) (addr : Nat) (v : Word) (d : Dev) : Dev :=
  match nm with
  | .TCH_WDT_KICK => wdtKickWrite w v d
  | _ => plainWrite w addr v d

end Sys2Proof.Machine
end

