-- ==== Sys2Proof/Machine/Power.lean ====
section
/-!
DEFINITION. Chapter "Supplies, supervision, reset and start-up": the reset sources, the stages of a start, the choice and
start of the bench image, the PCI Express link, configuration requests, and the Hallmark's own events (R32, R318 to R328,
R362, R377, R426, R438 to R446, R460 to R467).
-/
namespace Sys2Proof.Machine

/-! ## The bench image (R300, R426, R445, R446, R464) -/

/-- The flash offset of the recovery image and the room it has (R411). -/
def recoveryAt : Nat := 0x03920000
def recoveryRoom : Nat := 0x006E0000 - 256

/-- The recovery image as it stands in flash. -/
def Memory.recoveryImage (m : Memory) : List Byte :=
  m.flash recoveryAt (256 + min (imgLen (m.flash recoveryAt 256)) recoveryRoom)

/-- The first slot of a list that boots: not skipped for its words, and its image passes R424; rejected ones are
reported. -/
def trySlots (m : Memory) : List Nat → Dev → Dev × Option (Nat × List Byte × List Byte)
  | [], d => (d, none)
  | s :: rest, d =>
    if !m.slotVerified s || m.slotFailed s then trySlots m rest d
    else
      let img := m.slotImage s
      let c := d.imgCheck img 1 16711424 true
      if c.1 = 0 then (d, some (s, img, c.2)) else trySlots m rest (rejectImage (imgKind img) c.1 0 d)

/-- The slots in the order in which the ROM tries them. Assumption 56 (DEDUCED). -/
def Memory.slotOrder (m : Memory) : List Nat := if m.slotSeq 0 < m.slotSeq 1 then [1, 0] else [0, 1]

/-- The image that starts in a boot mode: slot, image and plain body. Assumption 56 (DEDUCED). -/
def chooseImage (mode : Nat) (m : Memory) (d : Dev) : Dev × Option (Nat × List Byte × List Byte) :=
  let tried := mode == 0 || mode == 2
  let x := if tried then trySlots m m.slotOrder d else (d, none)
  match x.2 with
  | some y => (x.1, some y)
  | none =>
    let img := m.recoveryImage
    let c := x.1.imgCheck img 4 recoveryRoom true
    if c.1 = 0 then (when tried (·.addDue (.post 0x0705 2 [2])) x.1, some (2, img, c.2))
    else (rejectImage (imgKind img) c.1 0 x.1, none)

/-- The vendor rollback floor rises to a number of bits (R445). -/
def raiseFloor (n : Nat) (d : Dev) : Dev :=
  let d1 := otpProg 0xD0 (leBytes 16 (2 ^ n - 1)) d
  postSecurity 0x080B 0 [n] true (d1.setF HLM_FLOOR HLM_FLOOR_floor n)

/-- What a start from slot s does to the floor and to the slot's words: the floor rises in FIELD to a confirmed image's
security version, and the next boot attempt word is cleared; where none is left the state sector is rewritten (R425,
R445). Assumption 56 (DEDUCED). -/
def slotStart (s : Nat) (img : List Byte) (x : MD) : MD :=
  let v := min 128 (imgSecVersion img)
  let d1 := when (x.2.lifecycle == 2 && x.1.slotConfirmed s && decide (x.2.fld HLM_FLOOR HLM_FLOOR_floor < imgSecVersion img))
    (raiseFloor v) x.2
  match x.1.slotFree s 0x8000 with
  | some i => (flashProg (slotAt s + 0x8000 + 4 * i) [0, 0, 0, 0] x.1, d1)
  | none =>
    let q := x.1.slotSeq s
    let m1 := flashProg (slotAt s) [0, 0, 0, 0] (flashErase (s * 256) x.1)
    (flashProg (slotAt s + 0x8000) [0, 0, 0, 0] (flashProg (slotAt s + 4) (leBytes 4 q) m1), d1)

/-- The bench image is placed from host bank H0 on, whose banks pass to core 16 and can be read by core 17, and both bench
cores start paired at its entry; the device watchdog starts (R300, R466). Assumption 40 (DEDUCED). -/
def startBench (slot : Nat) (img body : List Byte) (x : MD) : MD :=
  let m := x.1.place (bankAddr 64 0) body
  let d1 := (banksOf 64 body.length).foldl (fun y b =>
    (y.setF (ING_BANK_OWN b) ING_BANK_OWN_owner 1).setF (ING_BANK_SHARE b) ING_BANK_SHARE_share_rd
      (y.fld (ING_BANK_SHARE b) ING_BANK_SHARE_share_rd ||| 4)) x.2
  let d2 := upTo 2 (fun j y => startCore (16 + j) (y.modCore (16 + j) fun c =>
    { c with entry := some (bankAddr 64 0 + imgEntry img), byteMode := false })) d1
  let d3 := (d2.setB (ASY_PAIR_CTL 8) ASY_PAIR_CTL_paired true).setF TCH_BOOT TCH_BOOT_slot slot
  let d4 := ((d3.setB TCH_WDT_CFG TCH_WDT_CFG_en true).setF TCH_WDT_CFG TCH_WDT_CFG_period 2000).setF TCH_WDT_LEFT TCH_WDT_LEFT_left 2000
  (m, certEval (d4.modHlm fun h => { h with fwVersion := imgVersion img, fwVendor := true }))

/-- The ROM chooses an image, raises the floor, and starts the bench cores; with no image it stops with stage 0xE (R463).
Assumption 40 (DEDUCED). -/
def bootBench (mode : Nat) (x : MD) : MD :=
  let y := chooseImage mode x.1 x.2
  match y.2 with
  | none => (x.1, y.1.setF TCH_BOOT TCH_BOOT_stage 0xE)
  | some (s, img, body) => startBench s img body (if s ≤ 1 then slotStart s img (x.1, y.1) else (x.1, y.1))

/-- A reset of the host island has ended: the bench firmware is authenticated and loaded again (R327). -/
def reloadBench (x : MD) : MD :=
  if x.2.fld TCH_BOOT TCH_BOOT_stage < 5 ∨ 8 < x.2.fld TCH_BOOT TCH_BOOT_stage then x
  else bootBench (x.2.fld TCH_BOOT TCH_BOOT_boot_mode) x

/-! ## The stages of a start (R463) -/

/-- The records of the log that count: the newest slot and the highest sequence number (R429, R430). -/
def Memory.scanLog (m : Memory) : Nat × Nat :=
  (List.range 2048).foldl (fun r i =>
    let b := m.flash (tchSlot i) 512
    if dget b 0 4 == 0x4B524D54 && crc32 (b.take 508) == dget b 508 4 && decide (r.2 < dget b 4 4) then (i, dget b 4 4) else r) (0, 0)

/-- The number of 1 bits among n. -/
def ones (n x : Nat) : Nat := ((List.range n).filter fun i => x.testBit i).length

/-- The seed as the number that selects the identity key pair. -/
def Dev.seed (d : Dev) : Nat := leNat (d.otpSpan 0x090 64)

/-- The device identity's public key (R439). Assumption 56 (DEDUCED). -/
def Dev.identity (d : Dev) : List Byte := padTo 96 0 (Config.pubBytes 3 d.seed)

/-- The Hallmark registers that are loaded from OTP and configuration flash (R453). Assumption 56 (DEDUCED). -/
def loadHallmark (d : Dev) : Dev :=
  let d1 := ((d.setF HLM_STAT HLM_STAT_lifecycle d.lifecycle).setF HLM_FLOOR HLM_FLOOR_floor (ones 128 (leNat (d.otpSpan 0x0D0 16)))).setF
    HLM_AUTH_MASK HLM_AUTH_MASK_mask d.hlm.maskKept
  let d2 := (d1.wr HLM_SERIAL_LO (w32 (leNat (d.otpSpan 0x0E8 4)))).wr HLM_SERIAL_HI (w32 (leNat (d.otpSpan 0x0EC 4)))
  upTo 24 (fun i x => x.wr (HLM_ID_PUB i) (w32 (dget d.identity (4 * i) 4))) d2

/-- Stage 3: the identity seed at the first start in BLANK, the Hallmark's registers, the entropy source, BOOT_MODE,
interrupted flash work, and the scan of the Touchmark log (R419, R430, R438 to R440, R464). Assumption 56 (DEDUCED). -/
def stageThree (bm : Nat) (x : MD) : MD :=
  let d := x.2
  let d1 := if d.lifecycle == 0 && !d.otpHas 0x090 64 then
      let y := drbgDraw 64 d
      otpProg 0x090 y.2 y.1
    else d
  let d2 := (loadHallmark d1).setB HLM_STAT HLM_STAT_ent_ok true
  let d3 := ((d2.setF TCH_BOOT TCH_BOOT_boot_mode bm).setB TCH_BOOT TCH_BOOT_bm_err (bm == 3)).setF TCH_BOOT TCH_BOOT_stage 3
  let y := resolveFlash (x.1, d3)
  let l := y.1.scanLog
  let d4 := ((y.2.setF TCH_NEWEST TCH_NEWEST_slot l.1).setF TCH_SEQ TCH_SEQ_seq l.2).setB TCH_STAT TCH_STAT_ready true
  (y.1, d4.modTch fun t => { t with boots := t.boots + 1 })

/-- Stages 4 and 5: the bench image is chosen and the bench cores start. -/
def stageFour (mode : Nat) (x : MD) : MD :=
  let y := bootBench mode (x.1, x.2.setF TCH_BOOT TCH_BOOT_stage 4)
  if y.2.fld TCH_BOOT TCH_BOOT_stage = 4 then (y.1, y.2.setF TCH_BOOT TCH_BOOT_stage 5) else y

/-- The device waits for debug, FULL is granted through the TAP, and the debugger releases it: the start continues as
normal (R464). -/
def waitDebugGo (x : MD) : MD :=
  if x.2.fld TCH_BOOT TCH_BOOT_stage = 0xF ∧ x.2.fld DBG_STAT DBG_STAT_tap_level = 2 then stageFour 2 x else x

/-- STARTUP: the start goes on by one stage, as far as its conditions hold; bm are the levels of BOOT_MODE (R463). -/
def execStartup (bm : Fin 4) (s : State) : Out :=
  s.updB fun m d =>
    let at_ := fun (n : Nat) => (m, d.setF TCH_BOOT TCH_BOOT_stage n)
    if !d.tch.valid || d.clkHeld then (m, d)
    else match d.fld TCH_BOOT TCH_BOOT_stage with
      | 0 => at_ 1
      | 1 => if d.flag GLB_CLK_STAT GLB_CLK_STAT_main_lock && d.flag GLB_CLK_STAT GLB_CLK_STAT_link_lock then at_ 2 else (m, d)
      | 2 => stageThree bm.val (m, d)
      | 3 => if d.fld TCH_BOOT TCH_BOOT_boot_mode = 2 then at_ 0xF else stageFour (d.fld TCH_BOOT TCH_BOOT_boot_mode) (m, d)
      | _ => (m, d)

/-- PLL_LOCK: the main and link PLLs lock in stage 1 (R30, R463). -/
def execPllLock (s : State) : Out :=
  s.upd fun d => when (d.fld TCH_BOOT TCH_BOOT_stage == 1)
    (fun x => (x.setB GLB_CLK_STAT GLB_CLK_STAT_main_lock true).setB GLB_CLK_STAT GLB_CLK_STAT_link_lock true) d

/-- DDR4_INIT_DONE: training and initialisation end (R294, R463). -/
def execDdr4InitDone (s : State) : Out :=
  s.upd fun d =>
    let st := d.fld TCH_BOOT TCH_BOOT_stage
    if st = 0 ∨ !d.tch.valid ∨ d.clkHeld then d
    else (if st = 5 then d.setF TCH_BOOT TCH_BOOT_stage 6 else d).setB MEM_STAT MEM_STAT_init_done true

/-- FW_READY: the bench firmware can serve the rings: fw_ready sets, admin rings are ready, and the confirm word of this
start is cleared (R321, R331, R425). -/
def execFwReady (s : State) : Out :=
  s.updB fun m d =>
    let st := d.fld TCH_BOOT TCH_BOOT_stage
    if st < 6 ∨ 8 < st ∨ d.pcie.perst ∨ d.pcie.dlDown ∨ !((d.core 16).running || (d.core 17).running) ∨
        d.flag GLB_PCIE_STAT GLB_PCIE_STAT_fw_ready then (m, d)
    else
      let d1 := (d.setF TCH_BOOT TCH_BOOT_stage 8).setB GLB_PCIE_STAT GLB_PCIE_STAT_fw_ready true
      let d2 := when (d1.flag LDL_ADMIN_CTL LDL_ADMIN_CTL_en && d1.ringOn 0) (·.setB LDL_ADMIN_CTL LDL_ADMIN_CTL_ready true) d1
      let sl := d.fld TCH_BOOT TCH_BOOT_slot
      if sl ≤ 1 then
        match (m.slotFree sl 0x8000).getD 4096 with
        | 0 => (m, d2)
        | i + 1 => (flashProg (slotAt sl + 0xC000 + 4 * i) [0, 0, 0, 0] m, d2)
      else (m, d2)

/-- CLUSTER_RELEASE: a write sets a cl_rel bit; imgs are the images the bench firmware placed before (R465). -/
def execClusterRelease (w : Writer) (c : Fin 4) (imgs : List CoreImage) (s : State) : Out :=
  s.updB fun m d => rstCtlWrite w (w32 (setBit (d.fld GLB_RST_CTL GLB_RST_CTL_cl_rel) c.val true)) imgs (m, d)

/-- CL_REL_CLEAR: a write clears a cl_rel bit (R361, R465). -/
def execClRelClear (w : Writer) (c : Fin 4) (s : State) : Out :=
  s.updB fun m d => rstCtlWrite w (w32 (setBit (d.fld GLB_RST_CTL GLB_RST_CTL_cl_rel) c.val false)) [] (m, d)

/-! ## Reset sources (R32, R460 to R462, R466) -/

/-- The device is in a reset that supplies or the clock monitor hold: another source has no effect.
Assumption 12 (DEDUCED). -/
def Dev.inReset (d : Dev) : Bool := !d.tch.valid || d.clkHeld

/-- CLOCK_FAIL: the resonator stops (no deviation) or deviates by so many ppm; the Touchmark record is committed, and the
device is held in reset (R32). Assumption 19 (DEDUCED). -/
def execClockFail (ppm : Option Nat) (s : State) : Out :=
  s.updB fun m d =>
    if d.inReset then (m, d)
    else
      let pay := [ppm.getD 0x7FFFFFFF]
      let r : TchRec := ⟨0x0004, 5, 0, d.stamp 5, pay, false, d.fld TCH_HOLDUP TCH_HOLDUP_mv, d.fld GLB_TEMP GLB_TEMP_temp⟩
      deviceReset 9 (if d.flag TCH_STAT TCH_STAT_ready && d.tchRoom then tchCommit r false (m, d.stamped 5) else (m, postTouchmark 0x0004 5 0 pay d))

/-- SYS_RST_N: low for 2 µs (R460). -/
def execSysRstN (s : State) : Out := s.updB fun m d => if d.inReset then (m, d) else deviceReset 2 (m, d)

/-- HALLMARK_RESET: an OTP, self-test or LOCKOUT failure of the Hallmark (R460). -/
def execHallmarkReset (s : State) : Out := s.updB fun m d => if d.inReset then (m, d) else deviceReset 5 (m, d)

/-- DEVICE_WDT_EXPIRY: the device watchdog reaches 0 (R466, R467). -/
def execDeviceWdtExpiry (s : State) : Out :=
  s.updB fun m d =>
    if d.inReset || !d.flag TCH_WDT_CFG TCH_WDT_CFG_en || d.flag TCH_WDT_CFG TCH_WDT_CFG_frozen ||
        d.fld TCH_WDT_LEFT TCH_WDT_LEFT_left != 0 then (m, d) else deviceReset 4 (m, d)

/-- The host island is reset by a source and its link is down; sep_ref and the count of DL_Down transitions stay. -/
def islandDown (code : Nat) (d : Dev) : Dev :=
  let v := d.rd GLB_PCIE_STAT
  let d1 := hostReset code d
  (d1.setB GLB_PCIE_STAT GLB_PCIE_STAT_sep_ref (v.getLsbD 29)).setF GLB_PCIE_STAT GLB_PCIE_STAT_link_downs (v.toNat % 256)

/-- RESET_COMMAND_EFFECT: the reset of a RESET command of scope 2 or 3 (R361). -/
def execResetCommandEffect (s : State) : Out :=
  s.updB fun m d =>
    match d.due.findSome? fun x => match x with
      | .reset k => some k
      | _ => none with
    | some 2 => reloadBench (m, islandDown 7 (d.dropDue (.reset 2)))
    | some k => deviceReset 8 (m, d.dropDue (.reset k))
    | none => (m, d)

/-! ## PERST_N and the link (R318, R319, R327) -/

/-- What an assertion of PERST_N does to the device. Assumption 55 (DEDUCED). -/
def perstEffect (x : MD) : MD :=
  if x.2.flag GLB_PCIE_CTL GLB_PCIE_CTL_perst_dev then deviceReset 3 x else (x.1, islandDown 3 x.2)

/-- PERST_ASSERT: PERST_N goes low (R327, R462). Assumption 44 (DEDUCED). -/
def execPerstAssert (s : State) : Out :=
  s.updB fun m d =>
    if d.pcie.perst then (m, d)
    else
      let d1 := d.modPcie fun p => { p with perst := true }
      if d.inReset then (m, d1) else perstEffect (m, d1)

/-- The reference selection evaluated at a release; runs says that PE_REFCLK toggles (R319). -/
def Dev.sepRef (d : Dev) (runs : Bool) : Bool :=
  match d.fld GLB_PCIE_CTL GLB_PCIE_CTL_refclk_sel with
  | 0 => !runs
  | 1 => false
  | 2 => true
  | _ => d.open_ % 2 == 1

/-- PERST_RELEASE: the bench firmware is loaded again, and the reference is chosen (R319, R327). -/
def execPerstRelease (refclk : Bool) (s : State) : Out :=
  s.updB fun m d =>
    if !d.pcie.perst then (m, d)
    else
      let d1 := d.modPcie fun p => { p with perst := false }
      if d1.inReset then (m, d1)
      else reloadBench (m, (d1.setB GLB_PCIE_STAT GLB_PCIE_STAT_sep_ref (d1.sepRef refclk)).bump)

/-- DL_DOWN: a hot reset, a link disable or DL_Down acts as an assertion of PERST_N that ends when the link trains again. -/
def execDlDown (s : State) : Out :=
  s.updB fun m d =>
    if d.inReset || !d.flag GLB_PCIE_STAT GLB_PCIE_STAT_link_up then (m, d)
    else
      let n := satInc 8 (d.fld GLB_PCIE_STAT GLB_PCIE_STAT_link_downs)
      let y := perstEffect (m, d)
      (y.1, (y.2.modPcie fun p => { p with dlDown := true }).setF GLB_PCIE_STAT GLB_PCIE_STAT_link_downs n)

/-- The link stands at a generation and width, at most max_gen and max_width. -/
def linkAt (gen width : Nat) (rev : Bool) (d : Dev) : Dev :=
  let d1 := ((d.setF GLB_PCIE_STAT GLB_PCIE_STAT_gen gen).setF GLB_PCIE_STAT GLB_PCIE_STAT_width width).setB
    GLB_PCIE_STAT GLB_PCIE_STAT_lane_rev rev
  d1.modPcie fun p => { p with subsys := leNat (d.otpSpan 0x0E0 4), serial := leNat (d.otpSpan 0x0E8 8) }

/-- A generation and width that the link may train to. -/
def Dev.linkCan (d : Dev) (gen width : Nat) : Bool :=
  decide (1 ≤ gen) && decide (gen ≤ 5) && decide (width ≤ 2) && decide (gen ≤ d.fld GLB_PCIE_CTL GLB_PCIE_CTL_max_gen) &&
    decide (width ≤ d.fld GLB_PCIE_CTL GLB_PCIE_CTL_max_width)

/-- PCIE_LINK_UP: the link has trained (R318, R320, R327). -/
def execPcieLinkUp (gen : Fin 8) (width : Fin 4) (rev : Bool) (s : State) : Out :=
  s.updB fun m d =>
    let st := d.fld TCH_BOOT TCH_BOOT_stage
    if d.inReset || d.pcie.perst || decide (st < 2) || d.flag GLB_PCIE_STAT GLB_PCIE_STAT_link_up || !d.linkCan gen.val width.val then (m, d)
    else
      let d1 := (linkAt gen.val width.val rev d).setB GLB_PCIE_STAT GLB_PCIE_STAT_link_up true
      if d1.pcie.dlDown then reloadBench (m, d1.modPcie fun p => { p with dlDown := false }) else (m, d1)

/-- A write of GLB_PCIE_CTL: retrain trains the link again, to what the two ends support (R318, R328). -/
def pcieCtlWrite (w : Writer) (v : Word) (gen width : Nat) (d : Dev) : Dev :=
  let x := regWriteCore w GLB_PCIE_CTL v d
  if fget GLB_PCIE_CTL_retrain x.2 = 1 ∧ x.1.flag GLB_PCIE_STAT GLB_PCIE_STAT_link_up ∧ x.1.linkCan gen width then
    linkAt gen width (x.1.flag GLB_PCIE_STAT GLB_PCIE_STAT_lane_rev) x.1
  else x.1

/-- The same write where nothing says what the far end supports: a rate and a width within the limits.
Assumption 44 (DEDUCED). -/
def pcieCtlPlain (w : Writer) (v : Word) (d : Dev) : Dev :=
  let g := fget GLB_PCIE_CTL_max_gen v
  let n := fget GLB_PCIE_CTL_max_width v
  (pcieCtlWrite w v (1 + d.open_ % (max 1 (min 5 g))) (d.open_ / 8 % (min 2 n + 1)) d).bump

/-- LINK_RETRAIN: a write of GLB_PCIE_CTL whose retrain bit is set. Assumption 44 (DEDUCED). -/
def execLinkRetrain (w : Writer) (v : Word) (gen : Fin 8) (width : Fin 4) (s : State) : Out :=
  s.upd (pcieCtlWrite w (v ||| 1) gen.val width.val)

/-- L1_ENTRY. -/
def execL1Entry (s : State) : Out :=
  s.upd fun d => when (d.flag GLB_PCIE_STAT GLB_PCIE_STAT_link_up) (·.setB GLB_PCIE_STAT GLB_PCIE_STAT_l1 true) d

/-- L1_EXIT: messages that waited for the exit are sent (R325). -/
def execL1Exit (s : State) : Out :=
  s.upd fun d => upTo 64 (fun v x => when (x.vec v).due (vecSend v) x) (d.setB GLB_PCIE_STAT GLB_PCIE_STAT_l1 false)

/-- D3HOT_ENTRY: the function enters D3hot (R326). -/
def execD3hotEntry (s : State) : Out :=
  s.upd fun d => when (d.flag GLB_PCIE_STAT GLB_PCIE_STAT_fw_ready) (·.setF GLB_PCIE_STAT GLB_PCIE_STAT_dstate 3) d

/-- D0_RETURN: the function returns to D0 with the ring state it kept (R326). -/
def execD0Return (s : State) : Out := s.upd (·.setF GLB_PCIE_STAT GLB_PCIE_STAT_dstate 0)

/-! ## Configuration requests (R320, R321) -/

/-- The device ID of the part. -/
def deviceId : Part → Nat
  | .pdl16 => 0x5016 | .pdl32 => 0x5032 | .pdl64 => 0x5064

/-- A doubleword of configuration space; what the spec does not place is open. Assumption 44 (DEDUCED). -/
def Dev.config (d : Dev) (dw : Nat) : Word :=
  let ids := deviceId d.part * 65536 + 0x1D6F
  let f := w32 d.open_
  match dw with
  | 0 => w32 ids
  | 1 => fput ⟨1, 1⟩ (fput ⟨2, 1⟩ f (b2n d.pcie.busMaster)) (b2n d.pcie.memSpace)
  | 2 => 0x11800010
  | 8 | 9 | 12 => 0
  | 11 => if d.pcie.subsys = 0 then w32 ids else w32 d.pcie.subsys
  | _ => f

/-- Vectors whose pending bit is set and that nothing masks any more send one message (R325). -/
def sendPending (d : Dev) : Dev := upTo 64 (fun v x => when ((x.vec v).pend && !(x.vec v).masked) (vecSend v) x) d

/-- CONFIG_REQUEST: retried until fw_ready sets, then served. Assumption 44 (DEDUCED). -/
def execConfigRequest (q : CfgReq) (s : State) : Out :=
  s.upd fun d =>
    if !d.linkUp then d
    else if !d.flag GLB_PCIE_STAT GLB_PCIE_STAT_fw_ready then sendUp (.cpl 2 [] false) d
    else match q with
      | .read dw => (sendUp (.cpl 0 [d.config dw.val] false) d).bump
      | .command mem bus => sendUp (.cpl 0 [] false) (d.modPcie fun p => { p with memSpace := mem, busMaster := bus })
      | .msix en mask =>
        let d1 := sendUp (.cpl 0 [] false) (d.modPcie fun p => { p with msixEn := en, funcMask := mask })
        when (en && !mask && (!d.pcie.msixEn || d.pcie.funcMask)) sendPending d1
      | .pme en clear => sendUp (.cpl 0 [] false) (d.modPcie fun p => { p with pmeEn := en, pmeStatus := p.pmeStatus && !clear })
      | .other _ _ => sendUp (.cpl 0 [] false) d

/-! ## Hallmark (R362, R377, R440) -/

/-- ENTROPY_FAIL: a health test fails, 0 repetition count, 1 adaptive proportion (R440). -/
def execEntropyFail (test : Fin 2) (s : State) : Out :=
  s.upd fun d =>
    if !d.flag HLM_STAT HLM_STAT_ent_ok then d
    else certEval (postSecurity 0x080A 0 [test.val + 1] true (d.setB HLM_STAT HLM_STAT_ent_ok false))

/-- ENTROPY_RETEST: the source passes its test again. -/
def execEntropyRetest (s : State) : Out :=
  s.upd fun d =>
    if d.flag HLM_STAT HLM_STAT_ent_ok || decide (d.fld TCH_BOOT TCH_BOOT_stage < 3) then d
    else certEval (d.setB HLM_STAT HLM_STAT_ent_ok true)

/-- NONCE_EXPIRY: 10 s after its command an unused nonce is spent (R362). -/
def execNonceExpiry (s : State) : Out :=
  s.upd fun d => d.modHlm fun h => if d.stale h.nonceAt then { h with nonce := none } else h

/-- CHALLENGE_EXPIRY: 10 s after it was drawn an unused debug challenge is spent, that of the TAP or of PCI Express (R377,
R473). -/
def execChallengeExpiry (tap : Bool) (s : State) : Out :=
  s.upd fun d => d.modHlm fun h =>
    if tap then (if d.stale h.tapChalAt then { h with tapChal := none } else h)
    else if d.stale h.chalAt then { h with chal := none } else h

end Sys2Proof.Machine
end

