-- ==== Sys2Proof/Machine/Solder.lean ====
section
/-!
DEFINITION. Chapter "Solder bus feeder ports": frames, slots, rounds, the node mailboxes in H7 and the port registers
(R381 to R392).
-/
namespace Sys2Proof.Machine

/-! ## Frames (R218, R382, R384) -/

/-- The n lowest bits of a number, least significant first. -/
def bitsOf (n x : Nat) : List Bool := (List.range n).map x.testBit

/-- The bits of bytes in the order in which they are sent. -/
def byteBits (b : List Byte) : List Bool := b.flatMap fun x => bitsOf 8 x.toNat

/-- The number whose bits these are, least significant first. -/
def bitsNat : List Bool → Nat
  | [] => 0
  | b :: r => b2n b + 2 * bitsNat r

/-- The bytes that bits in the order in which they are sent make up. -/
def bitsBytes (n : Nat) (l : List Bool) : List Byte := leBytes n (bitsNat (l.take (8 * n)))

/-- A CRC of w bits over bits, as R218 defines it. -/
def crcOver (w poly init : Nat) (l : List Bool) : Nat :=
  l.foldl (fun c b => let f := b != c.testBit (w - 1)
    let sh := 2 * c % 2 ^ w
    if f then sh ^^^ poly else sh) init

/-- The check bits, most significant first. -/
def checkBits (w c : Nat) : List Bool := (bitsOf w c).reverse

/-- The 12 bits of a header: node, kind, seq, and par, which makes their weight odd. -/
def sldHeader (node kind : Nat) (seq : Bool) : List Bool :=
  let l := bitsOf 7 node ++ bitsOf 2 kind ++ [seq]
  l ++ [(l.filter id).length % 2 == 0]

/-- A header frame from start bit to stop bit. -/
def headerFrame (node kind : Nat) (seq : Bool) : List Bool := [false] ++ sldHeader node kind seq ++ [true]

/-- A command frame. -/
def commandFrame (node : Nat) (seq : Bool) (pay : List Byte) : List Bool :=
  let l := sldHeader node 2 seq ++ byteBits pay
  [false] ++ l ++ checkBits 16 (crcOver 16 0x1021 0xFFFF l) ++ [true]

/-- A response as the poller judges it: a timeout; else its bytes, whether its CRC checks, and its stop bit. Bits that do
not come read as the idle line does. -/
structure SldHeard where
  bytes : List Byte
  crcOk : Bool
  stop : Bool
deriving DecidableEq, Repr

/-- A short response of a node. Assumption 57 (DEDUCED). -/
def hearShort (node : Nat) (l : List Bool) : SldHeard :=
  let b := l ++ List.replicate 13 true
  { bytes := bitsBytes 1 b, crcOk := crcOver 4 3 0xF (bitsOf 7 node ++ b.take 12) == 0, stop := b.getD 12 true }

/-- A long response. Assumption 57 (DEDUCED). -/
def hearLong (l : List Bool) : SldHeard :=
  let b := l ++ List.replicate 145 true
  { bytes := bitsBytes 16 b, crcOk := crcOver 16 0x1021 0xFFFF (b.take 144) == 0, stop := b.getD 144 true }

/-! ## Mailboxes in H7 (R389) -/

/-- The offset in H7 of the status mailbox of node n of port p. -/
def statusBox (p n : Nat) : Nat := p * 0x1000 + n * 0x20
/-- The offset of its command mailbox. -/
def commandBox (p n : Nat) : Nat := statusBox p n + 0x10
/-- The offset of its state word. -/
def stateWord (p n : Nat) : Nat := 0x8000 + p * 0x200 + n * 4

/-- Words put into H7 from an offset on. -/
def h7Put : Nat → List Word → MD → MD
  | _, [], x => x
  | o, v :: r, x => h7Put (o + 4) r (ingotPut 71 o v 0 x.1 x.2)

/-- The words that bytes make up. -/
def bytesWords (b : List Byte) : List Word := (List.range ((b.length + 3) / 4)).map fun i => w32 (dget b (4 * i) 4)

/-- n bytes of H7 from an offset. -/
def Memory.h7 (m : Memory) (o n : Nat) : List Byte := m.span (bankAddr 71 o) n

/-- The state word of a node. -/
def Memory.nodeState (m : Memory) (p n : Nat) : Nat := (m.word (bankAddr 71 (stateWord p n))).toNat

/-! ## Bits of nodes -/

/-- Bit n of a register of node bits. -/
def Dev.nodeBit (d : Dev) (a : Nat → Nat) (n : Nat) : Bool := (d.rd (a (n / 32))).toNat.testBit (n % 32)

/-- Bit n of a register of node bits set to b. -/
def setNode (a : Nat → Nat) (n : Nat) (b : Bool) (d : Dev) : Dev :=
  d.wr (a (n / 32)) (w32 (setBit (d.rd (a (n / 32))).toNat (n % 32) b))

/-- Node n of port p is on the active list. -/
def Dev.sldListed (d : Dev) (p n : Nat) : Bool := 1 ≤ n && n < 128 && d.nodeBit (SLD_LIST p) n
/-- Its command is pending. -/
def Dev.sldPend (d : Dev) (p n : Nat) : Bool := d.nodeBit (SLD_CMD_PEND p) n
/-- It is present. -/
def Dev.sldPresent (d : Dev) (p n : Nat) : Bool := d.nodeBit (SLD_PRESENT p) n

/-- A feeder event of a node (R390). -/
def sldEvent (code p n : Nat) (pay : List Nat) (d : Dev) : Dev :=
  when (d.flag (SLD_CTL p) SLD_CTL_evt_en) (postEvent code 2 (p * 128 + n) pay) d

/-- An error field of a port counts one up. Assumption 57 (DEDUCED). -/
def sldErr (p : Nat) (f : Fld) (d : Dev) : Dev := d.incF (SLD_ERR p) f

/-! ## Rounds (R385) -/

/-- The staged list of port p becomes active; a FEEDER_POLL_SET that waits completes with the round from which it
applies. -/
def sldApply (p rnd : Nat) (d : Dev) : Dev :=
  if !d.flag (SLD_STAT p) SLD_STAT_list_req then d
  else
    let old := d
    let d1 := upTo 4 (fun i x =>
      x.wr (SLD_LIST p i) (if i = 0 then x.rd (SLD_LIST_NEXT p 0) &&& 0xFFFFFFFE else x.rd (SLD_LIST_NEXT p i))) d
    let added := (List.range 128).filter fun n => d1.sldListed p n && !old.sldListed p n
    let d2 := d1.modSld p fun s => { s with fresh := (s.fresh.filter fun n => d1.sldListed p n && !added.contains n) ++ added }
    endWaits (fun w => w.op == 0x0401 && w.target == p) stOk rnd (d2.setB (SLD_STAT p) SLD_STAT_list_req false)

/-- The number of the next round of port p. Assumption 57 (DEDUCED). -/
def Dev.nextRound (d : Dev) (p : Nat) : Nat := (d.fld (SLD_ROUND p) SLD_ROUND_round + 1) % 2 ^ 32

/-- A port that does not poll takes a staged list at once. -/
def sldIdle (p : Nat) (d : Dev) : Dev :=
  if d.flag (SLD_CTL p) SLD_CTL_en || (d.sld p).inRound then d else sldApply p (d.nextRound p) d

/-- The ccyc of so many bit times of 80 ns (R381). -/
def bitTimes (n : Nat) : Nat := 64 * n

/-- The next round of port p may begin: the last slot has ended, and round_iv µs have passed since the previous round began
(R385). -/
def Dev.roundDue (d : Dev) (p : Nat) : Bool :=
  decide ((d.sld p).slotAt ≤ d.now) &&
    match (d.sld p).roundAt with
    | some t => decide (t + d.fld (SLD_CTL p) SLD_CTL_round_iv * 800 ≤ d.now)
    | none => true

/-- SOLDER_ROUND_START: a round begins over the active list. -/
def execSolderRoundStart (p : Fin 8) (s : State) : Out :=
  s.upd fun d =>
    let p := p.val
    if !d.flag (SLD_CTL p) SLD_CTL_en || (d.sld p).inRound || !d.roundDue p then d
    else
      let d1 := sldApply p (d.nextRound p) (d.modSld p fun s => { s with slotAt := d.now, roundAt := some d.now })
      let d2 := evcDevice (0x308 + p) (d1.setF (SLD_ROUND p) SLD_ROUND_round (d1.nextRound p))
      let todo := (List.range 128).filter (d2.sldListed p)
      let bc := d2.sldPend p 0
      if todo = [] ∧ !bc then d2.setF (SLD_ROUND_LEN p) SLD_ROUND_LEN_len 0
      else (d2.modSld p fun s => { s with inRound := true, todo := todo, bits := 0, tries := 0, bcast := bc }).setB
        (SLD_STAT p) SLD_STAT_running true

/-- A slot of so many bit times ends, and the next begins with it: the round ends with its last slot, or with this one where the port has been disabled
(R385, R391). -/
def slotEnd (p len : Nat) (d : Dev) : Dev :=
  let d1 := d.modSld p fun s => { s with bits := s.bits + len, slotAt := s.slotAt + bitTimes len }
  let s := d1.sld p
  if (s.todo = [] ∧ s.bcast = false) ∨ !d1.flag (SLD_CTL p) SLD_CTL_en then
    let d2 := (d1.modSld p fun s => { s with inRound := false, todo := [], tries := 0, bcast := false }).setB
      (SLD_STAT p) SLD_STAT_running false
    sldIdle p (d2.setF (SLD_ROUND_LEN p) SLD_ROUND_LEN_len s.bits)
  else d1

/-! ## Transactions (R386 to R388, R390) -/

/-- The kind of the slot of node n: that of a retried slot, a pending command, a changed status block, or a poll. -/
def Dev.slotKind (d : Dev) (m : Memory) (p n : Nat) : Nat :=
  if (d.sld p).tries ≠ 0 then (d.sld p).kind
  else if d.sldPend p n then 2
  else if (m.nodeState p n).testBit 1 then 1
  else 0

/-- The slot of node n is over: the next node's follows. -/
def slotPass (p : Nat) (d : Dev) : Dev := d.modSld p fun s => { s with todo := s.todo.drop 1, tries := 0 }

/-- A good response of node n stores its status byte. Assumption 57 (DEDUCED). -/
def sldStatus (p n st : Nat) (x : MD) : MD :=
  let d := x.2
  let w := x.1.nodeState p n
  let old := w % 256
  let was := d.sldPresent p n
  let up := !was || (d.sld p).fresh.contains n
  let y := h7Put (stateWord p n) [w32 (2 ^ 31 + bits w 15 8 * 256 + st)] x
  let d1 := setNode (SLD_PRESENT p) n true y.2
  let d2 := if up then
      (sldEvent 0x0404 p n [st] (d1.modSld p fun s =>
        { s with seqs := s.seqs.filter (· != n), fresh := s.fresh.filter (· != n) })).setB (SLD_STAT p) SLD_STAT_att true
    else d1
  let d3 := when (st != old) (sldEvent 0x0401 p n [st + old * 256]) d2
  let pulse := st.testBit 0 && (!old.testBit 0 || !was) && d3.flag (SLD_CTL p) SLD_CTL_rdy_flux
  (y.1, when pulse (fluxToAll .li (0xE0 + p)) d3)

/-- A failed transaction of node n: it is retried, or counts as a failed poll; fail_lim of these in a row make the node
absent. -/
def sldFail (p n kind : Nat) (x : MD) : MD :=
  let d := x.2
  let s := d.sld p
  if d.sldPresent p n ∧ s.tries < d.fld (SLD_CTL p) SLD_CTL_retries then
    (x.1, d.modSld p fun s => { s with tries := s.tries + 1, kind := kind })
  else
    let w := x.1.nodeState p n
    let run := satInc 8 (bits w 23 16)
    let lost := d.sldPresent p n && decide (d.fld (SLD_CTL p) SLD_CTL_fail_lim ≤ run)
    let d1 := evcDevice (0x300 + p) (sldErr p SLD_ERR_failed (slotPass p d))
    let y := h7Put (stateWord p n)
      [w32 (b2n (d.sldPresent p n && !lost) * 2 ^ 31 + run * 2 ^ 16 + satInc 8 (bits w 15 8) * 256 + w % 256)] (x.1, d1)
    if !lost then y
    else
      let cmd := y.2.sldPend p n
      let d2 := setNode (SLD_CMD_PEND p) n false (setNode (SLD_PRESENT p) n false y.2)
      let d3 := when cmd (·.setB (SLD_STAT p) SLD_STAT_cmd_lost true) (d2.setB (SLD_STAT p) SLD_STAT_att true)
      (y.1, sldEvent 0x0403 p n [b2n cmd] d3)

/-- A transaction with the node whose turn it is, of a kind and slot length, which may be decided from bit fin of its slot
on: frame is what the port sends, r the bits it hears after the start bit, none where no start bit comes; good is what a
good response does beside its status byte. Assumptions 57, 76 (DEDUCED). -/
def transact (p kind len fin : Nat) (frame : Memory → Dev → Nat → List Bool) (r : Option (List Bool)) (long : Bool)
    (good : Nat → SldHeard → MD → MD) (m : Memory) (d : Dev) : MD :=
  match (d.sld p).todo with
  | [] => (m, d)
  | n :: _ =>
    if !(d.sld p).inRound || (d.sld p).bcast || d.slotKind m p n != kind || decide (d.now < (d.sld p).slotAt + bitTimes fin) then (m, d)
    else
      let d1 := d.modSld p fun s => { s with frame := frame m d n }
      let y := match r with
        | none => sldFail p n kind (m, sldErr p SLD_ERR_tmo d1)
        | some l =>
          let h := if long then hearLong l else hearShort n l
          if h.crcOk && h.stop then
            let z := good n h (sldStatus p n (dget h.bytes 0 1) (m, d1))
            (z.1, slotPass p z.2)
          else
            let d2 := when (!h.crcOk) (sldErr p SLD_ERR_crc) d1
            sldFail p n kind (m, when (!h.stop) (sldErr p SLD_ERR_frm) d2)
      (y.1, slotEnd p len y.2)

/-- The seq bit of node n. -/
def Dev.sldSeq (d : Dev) (p n : Nat) : Bool := (d.sld p).seqs.contains n

/-- SLOT_POLL: a POLL transaction is decided. -/
def execSlotPoll (p : Fin 8) (r : Option (List Bool)) (s : State) : Out :=
  s.updB fun m d => transact p.val 0 38 30 (fun _ e n => headerFrame n 0 (e.sldSeq p.val n)) r false (fun _ _ x => x) m d

/-- SLOT_READ: a READ transaction stores the status block. -/
def execSlotRead (p : Fin 8) (r : Option (List Bool)) (s : State) : Out :=
  s.updB fun m d => transact p.val 1 170 162 (fun _ e n => headerFrame n 1 (e.sldSeq p.val n)) r true
    (fun n h x =>
      let y := h7Put (statusBox p.val n) (bytesWords h.bytes) x
      (y.1, when (y.2.flag (SLD_CTL p.val) SLD_CTL_mbx_evt)
        (sldEvent 0x0402 p.val n ((List.range 4).map fun i => dget h.bytes (4 * i) 4)) y.2)) m d

/-- SLOT_CMD: a CMD transaction sends the command mailbox; its acknowledgement clears the pending bit and inverts seq. -/
def execSlotCmd (p : Fin 8) (r : Option (List Bool)) (s : State) : Out :=
  s.updB fun m d => transact p.val 2 182 174
    (fun mm e n => commandFrame n (e.sldSeq p.val n) (mm.h7 (commandBox p.val n) 16)) r false
    (fun n _ x => (x.1, setNode (SLD_CMD_PEND p.val) n false (x.2.modSld p.val fun s =>
      { s with seqs := if s.seqs.contains n then s.seqs.filter (· != n) else s.seqs ++ [n] }))) m d

/-- SLOT_BROADCAST: the BROADCAST slot that opens the round ends. -/
def execSlotBroadcast (p : Fin 8) (s : State) : Out :=
  s.updM fun m d =>
    let p := p.val
    if !(d.sld p).inRound || !(d.sld p).bcast || decide (d.now < (d.sld p).slotAt + bitTimes 162) then d
    else
      let f := commandFrame 0 false (m.h7 (commandBox p 0) 16)
      slotEnd p 162 (setNode (SLD_CMD_PEND p) 0 false (d.modSld p fun s => { s with bcast := false, frame := f }))

/-! ## Registers (R385, R389, R391, R392) -/

/-- A write of SLD_STAT: list_req stages the next list. -/
def sldStatWrite (w : Writer) (p : Nat) (v : Word) (d : Dev) : Dev := sldIdle p (plainWrite w (SLD_STAT p) v d)

/-- A write of SLD_CTL: a port that is disabled drains after the slot in progress, and one that is enabled resumes with a
new round (R391). -/
def sldCtlWrite (w : Writer) (p : Nat) (v : Word) (d : Dev) : Dev :=
  let d1 := plainWrite w (SLD_CTL p) v d
  sldIdle p (when (!d.flag (SLD_CTL p) SLD_CTL_en && d1.flag (SLD_CTL p) SLD_CTL_en) (·.modSld p fun s => { s with roundAt := none }) d1)

/-- A write of an SLD register. -/
def sldWrite (nm : RegName) (ix : List Nat) (w : Writer) (addr : Nat) (v : Word) (d : Dev) : Dev :=
  match nm with
  | .SLD_STAT => sldStatWrite w (ix.headD 0) v d
  | .SLD_CTL => sldCtlWrite w (ix.headD 0) v d
  | .SLD_LIST_NEXT => plainWrite w addr (if ix.getD 1 0 = 0 then v &&& 0xFFFFFFFE else v) d
  | _ => plainWrite w addr v d

/-- SLD_LIST_REQ: a write of SLD_STAT whose list_req bit is set. -/
def execSldListReq (w : Writer) (p : Fin 8) (v : Word) (s : State) : Out :=
  s.upd (sldStatWrite w p.val (v ||| 0x40000000))

/-- SLD_CMD_PEND_WRITE. -/
def execSldCmdPendWrite (w : Writer) (p : Fin 8) (i : Fin 4) (v : Word) (s : State) : Out :=
  s.upd (plainWrite w (SLD_CMD_PEND p.val i.val) v)

/-- SLD_CTL_WRITE. -/
def execSldCtlWrite (w : Writer) (p : Fin 8) (v : Word) (s : State) : Out := s.upd (sldCtlWrite w p.val v)

end Sys2Proof.Machine
end

