-- ==== Sys2Proof/Machine/Seam.lean ====
section
/-!
DEFINITION. Chapter "Seam link between devices": frames and their loop, the cycle, time over the link, scheduled events,
mailboxes, epochs and membership, formation, link faults and the SEM registers (R39, R393 to R410).
-/
namespace Sys2Proof.Machine

/-! ## Settings and time -/

/-- This device's node number. -/
def Dev.semNode (d : Dev) : Nat := d.fld SEM_CTL SEM_CTL_node
/-- Its services run. -/
def Dev.semEn (d : Dev) : Bool := d.flag SEM_CTL SEM_CTL_en
/-- It is in the layout. -/
def Dev.member (d : Dev) : Bool := d.flag SEM_STAT SEM_STAT_member
/-- It is keeper. -/
def Dev.keeper (d : Dev) : Bool := d.flag SEM_STAT SEM_STAT_keeper
/-- The cycle length in ticks (R398). -/
def Dev.semTc (d : Dev) : Nat := d.fld SEM_CYC SEM_CYC_cyc_q * 200
/-- The length of an epoch in cycles. -/
def Dev.epochLen (d : Dev) : Nat := d.fld SEM_CYC SEM_CYC_epoch_len
/-- The number of the cycle now. -/
def Dev.semCycle (d : Dev) : Nat := d.liTime / d.semTc
/-- The link of port n works and carries frames. -/
def Dev.portWorks (d : Dev) (n : Nat) : Bool := d.flag (SEM_PORT_STAT n) SEM_PORT_STAT_up && !d.flag (SEM_PORT_STAT n) SEM_PORT_STAT_loop
/-- The length of this device's section. -/
def Dev.sectLen (d : Dev) : Nat := d.fld SEM_SECT SEM_SECT_len
/-- Node n is in the current layout. -/
def Dev.inLayout (d : Dev) (n : Nat) : Bool := d.sem.layout.any fun e => e.1 == n
/-- Sections of these lengths fit the cycle (R400). -/
def Dev.semFits (d : Dev) (l : List (Nat × Nat)) : Bool :=
  2 * (l.foldl (fun n e => n + e.2) 0) ≤ 125 * d.fld SEM_CYC SEM_CYC_cyc_q

/-- An event record of the link (R409). -/
def semEvent (code idx : Nat) (pay : List Nat) (d : Dev) : Dev := postEvent code 2 idx pay d

/-- An event for port n sets att of that port. -/
def portAtt (n : Nat) (d : Dev) : Dev := d.setB (SEM_PORT_STAT n) SEM_PORT_STAT_att true

/-! ## Frames and their loop (R395 to R398) -/

/-- Type codes. -/
def fCYCLIC : Nat := 1
def fTIME : Nat := 2
def fEVENT : Nat := 3
def fMBOX : Nat := 4
def fACK : Nat := 5
def fEPOCH : Nat := 6
def fPROBE : Nat := 7
def fREPLY : Nat := 8
def fJOIN : Nat := 9
def fLEAVE : Nat := 10
def fCLAIM : Nat := 11

/-- A frame handed to port n, which sends only idle while it does not work. -/
def semSend (n : Nat) (f : Frame) (d : Dev) : Dev := if d.portWorks n then d.modSem fun s => { s with out := s.out ++ [(n, f)] } else d

/-- A frame of this device's own. -/
def Dev.ownFrame (d : Dev) (typ dst : Nat) (pay : List Byte) : Frame :=
  { typ := typ, pass := false, healed := d.sem.healed, src := d.semNode, dst := dst, hops := 0, pay := pay, crcOk := true }

/-- A frame of its own leaves on both ports. Assumption 58 (DEDUCED). -/
def semOwn (typ dst : Nat) (pay : List Byte) (d : Dev) : Dev :=
  semSend 0 (d.ownFrame typ dst pay) (semSend 1 (d.ownFrame typ dst pay) d)

/-- What tells a frame that the keeper has turned. -/
def frameKey (f : Frame) : Frame :=
  { f with pass := false, healed := false, hops := 0, pay := if f.typ = fCYCLIC ∨ f.typ = fTIME then [] else f.pay }

/-- A frame that arrived on port a goes on: out of the other port, or back where that has no working link; the keeper
sends it out of port 0 once, and otherwise ends the loop. The answer says whether the loop ends here.
Assumption 58 (DEDUCED). -/
def relay (a : Nat) (f : Frame) (d : Dev) : Dev × Bool :=
  if d.keeper then
    if d.sem.turned.contains (frameKey f) || !d.portWorks 0 then (d, true)
    else (semSend 0 { f with pass := a == 0 } (d.modSem fun s => { s with turned := s.turned ++ [frameKey f] }), false)
  else
    let d1 := evcDevice 0x313 d
    if d.portWorks (1 - a) then (semSend (1 - a) f d1, false) else (semSend a { f with pass := true } d1, false)

/-- The frame turns back at this device. -/
def Dev.turnsBack (d : Dev) (a : Nat) : Bool := !d.keeper && !d.portWorks (1 - a)

/-- A frame with a wrong CRC is counted (R395, R407). -/
def crcError (a : Nat) (d : Dev) : Dev :=
  evcDevice (0x310 + a) ((d.incF (SEM_PORT_ERR a) SEM_PORT_ERR_crc).modSem fun s => { s with crcRun := mset 0 s.crcRun a (mget 0 s.crcRun a + 1) })

/-- A frame of a type arrives on port a: one with a wrong CRC is counted and goes on inverted (unless it travels one link
only), one of a reserved type is counted, and f does the rest. -/
def arrive (a typ : Nat) (f : Frame) (bad : Dev → Dev) (g : Frame → MD → MD) (x : MD) : MD :=
  let d := x.2
  if !d.portWorks a then x
  else if f.typ ≠ typ then (if 1 ≤ f.typ ∧ f.typ ≤ 11 then x else (x.1, crcError a d))
  else
    let f1 := { f with hops := (f.hops + 1) % 65536 }
    if f.crcOk then g f1 x
    else
      let d1 := bad (crcError a d)
      (x.1, if typ = fPROBE ∨ typ = fREPLY ∨ typ = fCLAIM then d1 else (relay a f1 d1).1)

/-! ## DDR4 (R399, R403) -/

/-- Bytes put into DDR4 from an address on, in words of 8 bytes. -/
def ddrPut : Nat → Nat → List Byte → MD → MD
  | 0, _, _, x => x
  | _, _, [], x => x
  | n + 1, a, b, x =>
    let k := 8 - a % 8
    let y := ddrWrite a (b.take k) x.1 x.2
    ddrPut n (a + k) (b.drop k) (y.1, y.2.1)

/-- Bytes stored in DDR4, whose blocks count as written. -/
def ddrStore (a : Nat) (b : List Byte) (x : MD) : MD :=
  ddrPut (b.length + 1) a b (x.1, ddrCount true ((List.range b.length).map (a + ·)) x.2)

/-- n bytes from DDR4; where the address names none, or DDR4 is not ready, nobody can tell them. Assumption 58 (DEDUCED). -/
def ddrFetch (a n : Nat) (x : MD) : MD × List Byte :=
  if a < 0x80000000 ∨ 0xF0000000 ≤ a ∨ !x.2.ddrUp then
    ((x.1, x.2.bump), (List.range n).map fun i => BitVec.ofNat 8 (x.2.open_ / 256 ^ i))
  else
    let y := (List.range ((n + 3) / 4)).foldl (fun (z : MD) i => let r := ddrRead (a + 4 * i) z.1 z.2
      (r.1, r.2.1)) x
    ((y.1, ddrCount false ((List.range n).map (a + ·)) y.2), y.1.span a n)

/-! ## The cycle (R398, R399) -/

/-- A section of a CYCLIC frame: node, written, data. -/
abbrev Section := Nat × Bool × List Byte

/-- The sections of a CYCLIC payload behind its first 8 bytes. -/
def readSections : Nat → List Byte → List Section
  | 0, _ => []
  | _, [] => []
  | n + 1, b =>
    let h := dget b 0 2
    let len := dget b 2 2 % 512
    (h % 1024, h.testBit 15, (b.drop 4).take len) :: readSections n (b.drop (4 + (len + 3) / 4 * 4))

/-- The bytes of a section. -/
def sectionBytes (s : Section) : List Byte :=
  leBytes 2 (s.1 + b2n s.2.1 * 2 ^ 15) ++ leBytes 2 (s.2.2.length % 512) ++ padTo ((s.2.2.length + 3) / 4 * 4) 0 s.2.2

/-- A CYCLIC payload. -/
def cyclicPay (k epoch : Nat) (l : List Section) : List Byte := leBytes 4 k ++ leBytes 4 epoch ++ l.flatMap sectionBytes

/-- The sections of a CYCLIC payload. -/
def paySections (b : List Byte) : List Section := readSections 1024 (b.drop 8)

/-- This device writes its own section among these. -/
def writeOwn (l : List Section) (x : MD) : MD × List Section :=
  let d := x.2
  if !d.semEn || !d.member || !l.any (fun s => s.1 == d.semNode) then (x, l)
  else
    let len := ((d.sem.layout.find? fun e => e.1 == d.semNode).map (·.2)).getD 0
    let a := (d.rd SEM_TX_BASE).toNat / 512 * 512 + d.fld SEM_SECT SEM_SECT_sel * 0x100
    let y := ddrFetch a len x
    (y.1, l.map fun s => if s.1 = d.semNode then (s.1, true, y.2) else s)

/-- A CYCLIC payload is stored in its receive bank (R399). -/
def storeBank (pay : List Byte) (x : MD) : MD :=
  let d := x.2
  let k := dget pay 0 4
  let base := (d.rd SEM_RX_BASE).toNat / 0x80000 * 0x80000 + k % 2 * 0x40000
  let l := paySections pay
  if base < 0x80000000 ∨ !d.ddrUp then x
  else
    let x1 := l.foldl (fun y s => ddrStore (base + s.1 * 0x100) s.2.2 y) x
    let words := (List.range 1000).flatMap fun n =>
      match l.find? fun s => s.1 == n with
      | some s => leBytes 4 (2 ^ 31 + b2n s.2.1 * 2 ^ 30 + s.2.2.length % 512)
      | none => leBytes 4 0
    let x2 := ddrStore (base + 0x3E800) words x1
    let x3 := ddrStore (base + 0x3F800) (leBytes 4 k ++ leBytes 4 (dget pay 4 4) ++ leBytes 8 (k * d.semTc)) x2
    (x3.1, x3.2.setF SEM_CYC_STAT SEM_CYC_STAT_cycle k)

/-- The last visit of cycle k comes on port a: cycles without one are lost (R407). Assumption 58 (DEDUCED). -/
def lastVisit (a k : Nat) (d : Dev) : Dev :=
  let gone := match d.sem.lastCyc with
    | some j => if j < k then k - j - 1 else 0
    | none => 0
  let d1 := d.modSem fun s => { s with lastCyc := some k }
  upTo (min gone 16) (fun i x =>
    evcDevice 0x312 (semEvent 0x0609 a [(k - gone + i) % 2 ^ 32] (x.incF (SEM_PORT_ERR a) SEM_PORT_ERR_lost))) d1

/-- The loop of a CYCLIC frame ends at the keeper: section contents are kept, members without a written section are
counted, and the keeper's own bank is stored (R399, R405). -/
def loopEnds (a : Nat) (pay : List Byte) (x : MD) : MD :=
  let l := paySections pay
  let step := fun (d : Dev) (s : Section) =>
    let n := if s.2.1 then 0 else mget 0 d.sem.missed s.1 + 1
    let d1 := d.modSem fun q => { q with sections := mset [] q.sections s.1 s.2.2, missed := mset 0 q.missed s.1 n }
    if d.fld SEM_KEEP SEM_KEEP_miss_lim ≤ n ∧ s.1 ≠ d.semNode ∧ !d1.sem.leaves.any (fun e => e.1 == s.1) then
      d1.modSem fun q => { q with leaves := q.leaves ++ [(s.1, true)] }
    else d1
  storeBank pay (x.1, lastVisit a (dget pay 0 4) (l.foldl step x.2))

/-- The layout that applies from the next boundary: leaves first, then joins in their order of arrival that are neither
duplicates nor beyond the budget (R404). -/
def Dev.nextLayout (d : Dev) : List (Nat × Nat) :=
  let l := d.sem.layout.filter fun e => !d.sem.leaves.any fun x => x.1 == e.1
  d.sem.joins.foldl (fun l j =>
    let m := (l.filter fun e => e.1 < j.1) ++ [j] ++ l.filter fun e => j.1 < e.1
    if l.contains j || !d.semFits m then l else m) l

/-- An EPOCH payload. -/
def epochPay (epoch first : Nat) (l : List (Nat × Nat)) : List Byte :=
  leBytes 4 epoch ++ leBytes 4 first ++ leBytes 2 l.length ++ [0, 0] ++ l.flatMap fun e => leBytes 4 (e.1 % 1024 + e.2 % 512 * 2 ^ 16)

/-- A message waits for its acknowledgement one cycle longer. -/
def ageMessages (d : Dev) : Dev :=
  d.modSem fun s => { s with msgs := s.msgs.map fun q => if q.sent then { q with age := q.age + 1 } else q }

/-- One ccyc of the keeper, after which was is the cycle of before: at the start of a cycle its TIME frame is due (R398). -/
def seamTick (was : Nat) (d : Dev) : Dev := when (d.keeper && d.semCycle != was) (·.modSem fun q => { q with cycDue := true }) d

/-- SEAM_CYCLE_START: the keeper begins cycle k (R398, R399, R404). -/
def execSeamCycleStart (s : State) : Out :=
  s.updB fun m d =>
    if !d.keeper || !d.sem.cycDue then (m, d)
    else
      let k := d.semCycle
      let d1 := ageMessages (d.modSem fun q => { q with turned := [], cycDue := false })
      let t := d1.liTime
      let timePay := leBytes 8 t ++ [0, 0, 0, 0] ++ leBytes 4 0
      let x := writeOwn (d1.sem.layout.map fun e => (e.1, false, padTo e.2 0 (mget [] d1.sem.sections e.1))) (m, d1)
      let pay := cyclicPay (k % 2 ^ 32) (x.1.2.fld SEM_EPOCH SEM_EPOCH_epoch) x.2
      let d2 := x.1.2
      let p := if d2.portWorks 1 then 1 else 0
      let turn := fun (f : Frame) (y : Dev) => if p = 0 then y.modSem fun q => { q with turned := q.turned ++ [frameKey f] } else y
      let ft := d2.ownFrame fTIME 0x3FF timePay
      let fc := d2.ownFrame fCYCLIC 0x3FF pay
      let d3 := semSend p fc (turn fc (semSend p ft (turn ft d2)))
      let x1 := if d3.portWorks 0 || d3.portWorks 1 then (x.1.1, d3) else loopEnds 0 pay (x.1.1, d3)
      let d4 := x1.2
      if (k + 1) % d4.epochLen = 0 ∧ d4.member then
        let l := d4.nextLayout
        let e := (d4.fld SEM_EPOCH SEM_EPOCH_epoch + 1) % 2 ^ 32
        let d5 := d4.modSem fun q => { q with next := some l, nextEpoch := e, nextCycle := k + 1, joins := [] }
        (x1.1, semOwn fEPOCH 0x3FF (epochPay e ((k + 1) % 2 ^ 32) l) d5)
      else x1

/-! ## Membership (R404 to R406) -/

/-- The topology as SEM_STAT shows it; a change posts TOPOLOGY. Assumption 58 (DEDUCED). -/
def setTopo (n : Nat) (d : Dev) : Dev :=
  if d.fld SEM_STAT SEM_STAT_topo = n then d
  else semEvent 0x0608 (d.fld SEM_STAT SEM_STAT_keeper_node) [n + d.fld SEM_STAT SEM_STAT_keeper_node * 2 ^ 16] (d.setF SEM_STAT SEM_STAT_topo n)

/-- A message's next one to the same node is sent once none is in flight to it (R403). -/
def mboxFrames (q : SemMsg) : List (List Byte) :=
  (List.range ((q.data.length + 255) / 256)).map fun i =>
    leBytes 2 q.id ++ leBytes 2 i ++ leBytes 2 q.data.length ++ [0, 0] ++ (q.data.drop (256 * i)).take 256

/-- A message is sent whole. -/
def mboxSend (q : SemMsg) (d : Dev) : Dev :=
  let d1 := d.modSem fun s => { s with msgs := s.msgs.map fun x => if x = q then { x with sent := true, age := 0, again := false } else x }
  (mboxFrames q).foldl (fun y b => semOwn fMBOX q.dest b y) d1

/-- The oldest message to node n goes out if none to it is in flight. -/
def mboxNext (n : Nat) (d : Dev) : Dev :=
  if d.sem.msgs.any fun q => q.dest == n && q.sent then d
  else match d.sem.msgs.find? fun q => q.dest == n with
    | some q => mboxSend q d
    | none => d

/-- Messages that p picks end: their commands complete with a status. -/
def mboxEnd (p : SemMsg → Bool) (status : Nat) (d : Dev) : Dev :=
  let gone := d.sem.msgs.filter p
  endWaits (fun w => w.op == 0x0601 && gone.any fun q => q.sq == w.sq) status 0
    (d.modSem fun s => { s with msgs := s.msgs.filter fun q => !p q })

/-- An event is dropped: counted, and EVT_DROPPED posted (R405, R408). -/
def dropEvent (k node t : Nat) (d : Dev) : Dev :=
  semEvent 0x0604 node [k + node * 2 ^ 16, 0, t % 2 ^ 32, t / 2 ^ 32] (d.incF SEM_GSTAT SEM_GSTAT_evt_drop)

/-- A node has left: what was in flight for it ends (R405). -/
def nodeGone (n : Nat) (d : Dev) : Dev :=
  let d1 := mboxEnd (fun q => q.dest == n) stUnreachable d
  let old := d1.sem.events.filter fun e => e.1 == n && decide (d1.liTime < e.2.2)
  let d2 := d1.modSem fun s => { s with events := s.events.filter fun e => e.1 != n }
  old.foldl (fun y e => dropEvent e.2.1 n e.2.2 y) d2

/-- This device is no longer a member; formation begins again (R406). -/
def loseNetwork (d : Dev) : Dev :=
  let others := (d.sem.layout.map (·.1)).filter (· != d.semNode)
  let d1 := others.foldl (fun y n => nodeGone n y) d
  let d2 := mboxEnd (fun _ => true) stUnreachable d1
  let d3 := (d2.setB SEM_STAT SEM_STAT_member false).setB SEM_STAT SEM_STAT_keeper false
  let d4 := if d3.time.mode = 2 then (d3.setB GLB_CLK_STAT GLB_CLK_STAT_locked false).modTime
      fun t => { t with ePrev := none, lockRun := 0 } else d3
  setTopo 0 (d4.modSem fun s => { s with
    layout := [], next := none, joins := [], leaves := [], missed := .empty, sections := .empty, turned := [],
    stepped := false, claiming := false, claimRun := 0, cycDue := false, joinSent := false, lastCyc := none, healed := false })

/-- A node of the new layout joined. -/
def nodeJoins (n epoch : Nat) (d : Dev) : Dev := semEvent 0x0602 n [n, epoch] d

/-- A node left at the boundary. -/
def nodeLeaves (n epoch : Nat) (d : Dev) : Dev :=
  let planned := d.sem.leaves.any fun e => e.1 == n && !e.2
  nodeGone n (semEvent 0x0603 n [n + b2n (!planned) * 2 ^ 16, epoch] d)

/-- The first cycle of the next epoch, of which frames carry 32 bits, has begun (R404). -/
def Dev.epochDue (d : Dev) : Bool := decide ((d.semCycle + (2 ^ 32 - d.sem.nextCycle % 2 ^ 32)) % 2 ^ 32 < 2 ^ 31)

/-- EPOCH_BOUNDARY: the next layout applies (R404, R405, R407). -/
def execEpochBoundary (s : State) : Out :=
  s.upd fun d =>
    match d.sem.next with
    | none => d
    | some l =>
      if !d.epochDue then d else
      let old := d.sem.layout
      let e := d.sem.nextEpoch
      let me := d.semNode
      let d1 := (d.modSem fun q => { q with layout := l, next := none, crcRun := .empty }).setF SEM_EPOCH SEM_EPOCH_epoch e
      let d2 := (l.filter fun x => !old.any fun y => y.1 == x.1).foldl (fun y x => nodeJoins x.1 e y) d1
      let d3 := (old.filter fun x => !l.any fun y => y.1 == x.1).foldl (fun y x => nodeLeaves x.1 e y) d2
      let d4 := upTo 2 (fun n y => y.setB (SEM_PORT_STAT n) SEM_PORT_STAT_loop (!y.flag (SEM_PORT_STAT n) SEM_PORT_STAT_up)) d3
      let d5 := d4.modSem fun q => { q with leaves := [], healed := q.healed && !(d4.portWorks 0 && d4.portWorks 1) }
      if l.any fun x => x.1 == me then
        let d6 := when (d5.sem.joinSent || d5.keeper) (fun y => endWaits (fun w => w.op == 0x0603 && w.aux.headD 0 == 1) stOk e
          ((y.setB SEM_STAT SEM_STAT_member true).modSem fun q => { q with joining := false, joinSent := false })) d5
        d6
      else if d5.member then
        endWaits (fun w => w.op == 0x0603 && w.aux.headD 0 == 2) stOk e
          (loseNetwork (d5.modSem fun q => { q with leaving := false }))
      else d5.modSem fun q => { q with joinSent := false }

/-- EPOCH_FRAME: an EPOCH frame carries the next layout; a join that it does not grant is refused as a duplicate or for
the budget (R404). -/
def execEpochFrame (a : Fin 2) (f : Frame) (s : State) : Out :=
  s.updB fun m d => arrive a.val fEPOCH f id (fun f x =>
    let y := relay a.val f x.2
    if y.1.keeper then (x.1, y.1)
    else
      let l := (List.range (dget f.pay 8 2)).map fun i => (dget f.pay (12 + 4 * i) 2 % 1024, dget f.pay (14 + 4 * i) 2 % 512)
      let d1 := y.1.modSem fun q => { q with next := some l, nextEpoch := dget f.pay 0 4, nextCycle := dget f.pay 4 4 }
      let me := d1.semNode
      if !d1.member && d1.sem.joinSent then
        if d1.inLayout me then
          (x.1, endWaits (fun w => w.op == 0x0603 && w.aux.headD 0 == 1) stNotPermitted 1 (d1.modSem fun q => { q with joining := false, joinSent := false }))
        else if !(l.any fun e => e.1 == me) && !d1.semFits (l ++ [(me, d1.sectLen)]) then
          (x.1, endWaits (fun w => w.op == 0x0603 && w.aux.headD 0 == 1) stNotPermitted 2 (d1.modSem fun q => { q with joining := false, joinSent := false }))
        else (x.1, d1)
      else (x.1, d1)) (m, d)

/-- JOIN_FRAME: a request reaches the keeper (R404). -/
def execJoinFrame (a : Fin 2) (f : Frame) (s : State) : Out :=
  s.updB fun m d => arrive a.val fJOIN f id (fun f x =>
    let y := relay a.val f x.2
    (x.1, if y.1.keeper then y.1.modSem fun q =>
      { q with joins := (q.joins.filter fun e => e.1 != f.src) ++ [(f.src, dget f.pay 0 2)] } else y.1)) (m, d)

/-- LEAVE_FRAME: a request to leave (R405). -/
def execLeaveFrame (a : Fin 2) (f : Frame) (s : State) : Out :=
  s.updB fun m d => arrive a.val fLEAVE f id (fun f x =>
    let y := relay a.val f x.2
    (x.1, y.1.modSem fun q => { q with leaves := (q.leaves.filter fun e => e.1 != f.src) ++ [(f.src, false)] })) (m, d)

/-- This device asks to join: a JOIN with its section's length. -/
def sendJoin (d : Dev) : Dev :=
  if d.keeper then d.modSem fun q => { q with joins := (q.joins.filter fun e => e.1 != d.semNode) ++ [(d.semNode, d.sectLen)] }
  else semOwn fJOIN (d.fld SEM_STAT SEM_STAT_keeper_node) (leBytes 2 d.sectLen) (d.modSem fun q => { q with joinSent := true })

/-- A device that is to join sends JOIN once it is locked; without lock within one epoch the join ends (R404).
Assumption 58 (DEDUCED). -/
def joinStep (d : Dev) : Dev :=
  if d.member || !d.semEn || d.time.mode != 2 || !(d.sem.joining || d.flag SEM_CTL SEM_CTL_auto_join) then d
  else if d.flag GLB_CLK_STAT GLB_CLK_STAT_locked then (if d.sem.joinSent then d else sendJoin d)
  else if d.sem.joining && decide (d.epochLen ≤ d.sem.joinAge) then
    endWaits (fun w => w.op == 0x0603 && w.aux.headD 0 == 1) stTimeout 0 (d.modSem fun q => { q with joining := false })
  else d

/-! ## Time (R401) -/

/-- The discipline of device time by a phase error e, in ticks: the first beyond a quarter cycle steps device time.
Assumption 58 (DEDUCED). -/
def seamDiscipline (e : Int) (d : Dev) : Dev :=
  if d.time.mode ≠ 2 then d
  else
    let d1 := d.modSem fun q => { q with stepped := true }
    if d.semTc < 4 * e.natAbs then
      if d.sem.stepped then d1.incF GLB_CLK_STAT GLB_CLK_STAT_spurious_edges
      else (d1.wr GLB_TIME_STEP (wI (-e))).modTime fun t => { t with stepDue := true }
    else syncAccept d.semTc e d1

/-- TIME_FRAME: it is corrected and goes on; a member takes its time from it (R401). -/
def execTimeFrame (a : Fin 2) (f : Frame) (s : State) : Out :=
  s.updB fun m d => arrive a.val fTIME f id (fun f x =>
    let d := x.2
    if d.keeper then
      let d1 := if !f.pass && a.val == 0 then setTopo 2 (d.modSem fun q => { q with healed := false })
        else if f.pass && a.val == 1 && d.fld SEM_STAT SEM_STAT_topo == 2 && !d.sem.turned.contains (frameKey f) then
          setTopo 3 (d.modSem fun q => { q with healed := true })
        else d
      (x.1, (relay a.val f d1).1)
    else
      let corr := (dget f.pay 12 4 + (d.rd (SEM_LINK_DLY a.val)).toNat) % 2 ^ 32
      let pay := f.pay.take 12 ++ leBytes 4 ((corr + 192 * 256) % 2 ^ 32)
      let e := (((d.liTime * 256 : Nat) : Int) - ((dget f.pay 0 8 * 256 + dget f.pay 8 1 + corr : Nat) : Int)) / 256
      let d1 := (relay a.val { f with pay := pay } d).1
      let d2 := (d1.modSem fun q => { q with heardAt := d.now, claiming := false, claimRun := 0 }).setF SEM_STAT SEM_STAT_keeper_node f.src
      if f.pass then (x.1, d2)
      else
        let d3 := (ageMessages d2).setF SEM_STAT SEM_STAT_hops f.hops
        let d4 := d3.modSem fun q => { q with joinAge := q.joinAge + 1, healed := f.healed }
        let old := d4.fld SEM_STAT SEM_STAT_topo
        let topo := if f.healed then 3 else if !d4.portWorks 0 || !d4.portWorks 1 then 1
          else if old = 1 ∨ old = 2 then old else 1 + d4.open_ % 2
        let d5 := when d4.member (fun y => setTopo topo y) d4.bump
        (x.1, joinStep (seamDiscipline e d5))) (m, d)

/-- Sixteen cycles have passed since the latest PROBE of port a, or none has been sent (R401). -/
def Dev.probeDue (d : Dev) (a : Nat) : Bool :=
  match mget none d.sem.probeCyc a with
  | some k => decide (k + 16 ≤ d.semCycle) || decide (d.semCycle < k)
  | none => true

/-- PROBE_SEND: every 16 cycles a port with a link partner sends a PROBE (R401). -/
def execProbeSend (a : Fin 2) (s : State) : Out :=
  s.upd fun d =>
    if !d.portWorks a.val || !d.probeDue a.val then d
    else
      let k := if d.member then d.fld SEM_STAT SEM_STAT_keeper_node else 0x3FF
      semSend a.val (d.ownFrame fPROBE 0x3FF (leBytes 8 d.liTime ++ leBytes 2 k))
        (d.modSem fun q =>
          { q with probe := mset none q.probe a.val (some d.liTime), probeCyc := mset none q.probeCyc a.val (some d.semCycle) })

/-- The network of this device and that of its link partner differ: the one whose keeper has the higher node number
dissolves (R406). -/
def meetNetwork (k : Nat) (d : Dev) : Dev :=
  if d.member && k != 0x3FF && decide (k < d.fld SEM_STAT SEM_STAT_keeper_node) then loseNetwork d else d

/-- PROBE_FRAME: it is answered 240 ns later. -/
def execProbeFrame (a : Fin 2) (f : Frame) (s : State) : Out :=
  s.updB fun m d => arrive a.val fPROBE f id (fun f x =>
    let d := x.2
    let k := if d.member then d.fld SEM_STAT SEM_STAT_keeper_node else 0x3FF
    let d1 := semSend a.val (d.ownFrame fREPLY f.src (leBytes 8 (d.liTime + 192) ++ leBytes 2 k)) d
    (x.1, meetNetwork (dget f.pay 8 2) d1)) (m, d)

/-- PROBE_REPLY_FRAME: it updates the link delay, the mean of the last 16 exchanges in 2^-8 tick. -/
def execProbeReplyFrame (a : Fin 2) (f : Frame) (s : State) : Out :=
  s.updB fun m d => arrive a.val fREPLY f id (fun f x =>
    let d := x.2
    let d0 := meetNetwork (dget f.pay 8 2) d
    match mget none d.sem.probe a.val with
    | none => (x.1, d0)
    | some t =>
      let l := ((mget [] d.sem.trips a.val) ++ [d.liTime - t]).reverse.take 16 |>.reverse
      let sum := l.foldl (fun n r => n + (r - 192) * 128) 0
      (x.1, (d0.modSem fun q => { q with probe := mset none q.probe a.val none, trips := mset [] q.trips a.val l }).wr
        (SEM_LINK_DLY a.val) (w32 (sum / l.length)))) (m, d)

/-! ## CYCLIC frames (R399) -/

/-- CYCLIC_FRAME: a visit of a CYCLIC frame. -/
def execCyclicFrame (a : Fin 2) (f : Frame) (s : State) : Out :=
  s.updB fun m d => arrive a.val fCYCLIC f
    (fun y => if y.member && (f.pass || y.turnsBack a.val) then
        (y.incF (SEM_PORT_ERR a.val) SEM_PORT_ERR_lost).modSem fun q => { q with lastCyc := q.lastCyc.map (· + 1) } else y)
    (fun f x =>
      if x.2.keeper then
        let y := relay a.val f x.2
        if y.2 then loopEnds a.val f.pay (x.1, y.1) else (x.1, y.1)
      else
        let last := f.pass || x.2.turnsBack a.val
        let y := if f.pass then (x, paySections f.pay) else writeOwn (paySections f.pay) x
        let pay := cyclicPay (dget f.pay 0 4) (dget f.pay 4 4) y.2
        let d1 := (relay a.val { f with pay := pay } y.1.2).1
        if last && d1.member then storeBank pay (y.1.1, lastVisit a.val (dget pay 0 4) d1) else (y.1.1, d1)) (m, d)

/-! ## Scheduled events (R39, R402) -/

/-- Event k of a source for device time t is scheduled here: towards every enabled cluster, late where fewer than 64 ticks
are left, and then 12 ccyc after its arrival (R39). Assumption 58 (DEDUCED). -/
def schedule (k src t : Nat) (d : Dev) : Dev :=
  let late := decide (t < d.liTime + 64)
  let d1 := upTo 4 (fun c y => when (y.released c) (·.addDue (.seamEvent c k t (if late then some (d.now + 12) else none))) y) d
  if late then semEvent 0x0605 src [k + src * 2 ^ 16, 0, t % 2 ^ 32, t / 2 ^ 32 % 2 ^ 32] (d1.setB SEM_GSTAT SEM_GSTAT_evt_late true) else d1

/-- EVENT_FRAME: a received EVENT schedules event k at device time t. -/
def execEventFrame (a : Fin 2) (f : Frame) (s : State) : Out :=
  s.updB fun m d => arrive a.val fEVENT f id (fun f x =>
    let d1 := (relay a.val f x.2).1
    let k := dget f.pay 0 1 % 8
    let t := dget f.pay 4 8
    if !d1.semEn || !d1.member || !(f.dst == d1.semNode || f.dst == 0x3FF) || d1.sem.seen.contains (f.src, k, t) ||
        f.src == d1.semNode then (x.1, d1)
    else (x.1, schedule k f.src t (d1.modSem fun q => { q with seen := ((f.src, k, t) :: q.seen).take 64 }))) (m, d)

/-- The instant of an event scheduled in cluster c for device time t has come: the cluster's copy equals t, or the device
time that would be its copy's while its clock is stopped; a late one's ccyc is reached (R35, R38, R39). -/
def Dev.seamNow (d : Dev) (c t : Nat) (lateAt : Option Nat) : Bool :=
  match lateAt with
  | some n => decide (n ≤ d.now)
  | none => (if d.clusterRuns c then d.copy c else d.time.master) == t

/-- SEAM_EVENT_FIRE: a scheduled Seam event whose instant has come pulses SEAM[k] in a cluster; a halted cluster's item is
discarded (R35, R39). Assumption 4 (DESIGN CHOICE). -/
def execSeamEventFire (c : Fin 4) (k : Fin 8) (s : State) : Out :=
  s.upd fun d =>
    match d.due.find? fun x => match x with
      | .seamEvent c' k' t l => c' == c.val && k' == k.val && d.seamNow c.val t l
      | _ => false with
    | some x =>
      let d1 := d.dropDue x
      if d1.clusterRuns c.val then fluxFire c.val (0xE8 + k.val) d1 else d1.incF GLB_CLK_STAT GLB_CLK_STAT_flux_drop
    | none => d

/-! ## Mailboxes (R403) -/

/-- An acknowledgement of message id goes to a node. -/
def sendAck (n id status : Nat) (d : Dev) : Dev := semOwn fACK n (leBytes 2 id ++ [BitVec.ofNat 8 status, 0]) d

/-- A complete message of a source: it is stored in the lowest free slot, or refused. -/
def mboxStore (a src id : Nat) (data : List Byte) (x : MD) : MD :=
  let d := x.2
  let full := d.fld SEM_MBX_STAT SEM_MBX_STAT_full
  match (List.range 8).find? fun i => !full.testBit i with
  | none => (x.1, sendAck src id 1 d)
  | some i =>
    let base := (d.rd SEM_MBX_BASE).toNat / 0x2000 * 0x2000
    let y := if base < 0x80000000 then x else ddrStore (base + i * 0x400) data x
    let d1 := (y.2.setF SEM_MBX_STAT SEM_MBX_STAT_full (setBit full i true)).modSem fun q =>
      { q with lastId := mset none q.lastId src (some id) }
    (y.1, sendAck src id 0 (portAtt a (semEvent 0x0601 src [i + src * 2 ^ 16, data.length] d1)))

/-- MBOX_FRAME: a fragment completes and stores a message. -/
def execMboxFrame (a : Fin 2) (f : Frame) (s : State) : Out :=
  s.updB fun m d => arrive a.val fMBOX f id (fun f x =>
    let d1 := (relay a.val f x.2).1
    if !d1.semEn || f.dst != d1.semNode then (x.1, d1)
    else
      let id := dget f.pay 0 2
      let off := dget f.pay 2 2
      let total := dget f.pay 4 2
      if mget none d1.sem.lastId f.src = some id then
        (x.1, if off * 256 + 256 < total then d1 else sendAck f.src id 0 d1)
      else
        let old := match mget none d1.sem.rx f.src with
          | some r => if r.id = id ∧ r.total = total then r.got else []
          | none => []
        let got := (old.filter fun e => e.1 != off) ++ [(off, (f.pay.drop 8).take 256)]
        let n := (total + 255) / 256
        if (List.range n).all fun i => got.any fun e => e.1 == i then
          let data := ((List.range n).flatMap fun i => ((got.find? fun e => e.1 == i).map (·.2)).getD []).take total
          mboxStore a.val f.src id data (x.1, d1.modSem fun q => { q with rx := mset none q.rx f.src none })
        else (x.1, d1.modSem fun q => { q with rx := mset none q.rx f.src (some ⟨id, total, got⟩) })) (m, d)

/-- MBOX_ACK_FRAME: the message is complete, or is to be sent again. -/
def execMboxAckFrame (a : Fin 2) (f : Frame) (s : State) : Out :=
  s.updB fun m d => arrive a.val fACK f id (fun f x =>
    let d1 := (relay a.val f x.2).1
    let id := dget f.pay 0 2
    if f.dst != d1.semNode then (x.1, d1)
    else if dget f.pay 2 1 = 0 then
      (x.1, mboxNext f.src (mboxEnd (fun q => q.dest == f.src && q.id == id && q.sent) stOk d1))
    else (x.1, d1.modSem fun q => { q with msgs := q.msgs.map fun y =>
      if y.dest = f.src ∧ y.id = id ∧ y.sent then { y with again := true } else y })) (m, d)

/-- MBOX_RESEND: the message to a node that has waited 4 cycles, or was refused, is sent again whole, once per cycle (R403). -/
def execMboxResend (n : Fin 1024) (s : State) : Out :=
  s.upd fun d =>
    match d.sem.msgs.find? fun q => q.dest == n.val && q.sent && (q.again && decide (1 ≤ q.age) || decide (4 ≤ q.age)) with
    | some q => mboxSend q d
    | none => d

/-- A write of SEM_MBX_REL frees slots. -/
def mbxRelWrite (w : Writer) (v : Word) (d : Dev) : Dev :=
  let x := regWriteCore w SEM_MBX_REL v d
  let r := fget SEM_MBX_REL_rel x.2
  x.1.setF SEM_MBX_STAT SEM_MBX_STAT_full ((List.range 8).foldl (fun n i => if r.testBit i then setBit n i false else n)
    (x.1.fld SEM_MBX_STAT SEM_MBX_STAT_full))

/-- SEM_MBX_REL. -/
def execSemMbxRel (w : Writer) (v : Word) (s : State) : Out := s.upd (mbxRelWrite w v)

/-! ## Formation and link faults (R406, R407) -/

/-- No TIME frame has come for 4 cycles (R406). -/
def Dev.semSilent (d : Dev) : Bool := !d.keeper && decide (d.sem.heardAt + 4 * d.semTc ≤ d.now)

/-- TIME_FRAME_LOSS: no TIME frame for 4 cycles; a member loses its membership, and formation begins again (R406). -/
def execTimeFrameLoss (s : State) : Out := s.upd fun d => when (d.semSilent && d.member) loseNetwork d

/-- CLAIM_SEND: a device that may become keeper and sees no TIME frame claims on both ports, once per cycle (R406). -/
def execClaimSend (s : State) : Out :=
  s.upd fun d =>
    if d.keeper || d.member || !d.semEn || !d.flag SEM_CTL SEM_CTL_keeper_cap || !d.semSilent ||
        (d.sem.claiming && d.sem.claimCyc == some d.semCycle) then d
    else semOwn fCLAIM 0x3FF [] (d.modSem fun q =>
      { q with claiming := true, claimRun := if q.claiming then q.claimRun + 1 else 1, claimCyc := some d.semCycle })

/-- CLAIM_FRAME: a CLAIM goes on; one of a lower node stops this device's. -/
def execClaimFrame (a : Fin 2) (f : Frame) (s : State) : Out :=
  s.updB fun m d => arrive a.val fCLAIM f id (fun f x =>
    let d := x.2
    let d1 := if f.src = d.semNode then d else semSend (1 - a.val) f d
    (x.1, if d1.sem.claiming ∧ f.src < d1.semNode then d1.modSem fun q => { q with claiming := false, claimRun := 0, heardAt := d.now } else d1)) (m, d)

/-- KEEPER_ELECTED: 4 cycles of claiming without a lower CLAIM make the device keeper; epoch 0 begins at its next boundary. -/
def execKeeperElected (s : State) : Out :=
  s.upd fun d =>
    if d.keeper || !d.sem.claiming || decide (d.sem.claimRun < 4) || d.sem.claimCyc == some d.semCycle || !d.semEn then d
    else
      let n := d.semNode
      let d1 := (d.setB SEM_STAT SEM_STAT_keeper true).setF SEM_STAT SEM_STAT_keeper_node n
      setTopo 1 (d1.modSem fun q => { q with
        claiming := false, claimRun := 0, layout := [], next := some [(n, d.sectLen)], nextEpoch := 0,
        nextCycle := (d.semCycle / d.epochLen + 1) * d.epochLen, joins := [], leaves := [], healed := false })

/-- PORT_DOWN: port n loses synchronisation, or has counted crc_lim CRC errors in this epoch. -/
def execPortDown (n : Fin 2) (crc : Bool) (s : State) : Out :=
  s.upd fun d =>
    let a := SEM_PORT_STAT n.val
    if !d.flag a SEM_PORT_STAT_up || (crc && decide (mget 0 d.sem.crcRun n.val < d.fld SEM_KEEP SEM_KEEP_crc_lim)) then d
    else
      let d1 := ((((d.setB a SEM_PORT_STAT_up false).setB a SEM_PORT_STAT_sync crc).setB a SEM_PORT_STAT_loop true).incF a SEM_PORT_STAT_downs)
      let d2 := portAtt n.val (semEvent 0x0606 n.val [n.val + b2n crc * 256] d1)
      let ring := d2.keeper && d2.fld SEM_STAT SEM_STAT_topo == 2
      when ring (fun y => setTopo 3 (y.modSem fun q => { q with healed := true }))
        (d2.modSem fun q =>
          { q with probe := mset none q.probe n.val none, trips := mset [] q.trips n.val [], probeCyc := mset none q.probeCyc n.val none })

/-- PORT_UP: port n has synchronisation again and its probes are complete; it carries frames from the next boundary, or at
once where there is no network. -/
def execPortUp (n : Fin 2) (s : State) : Out :=
  s.upd fun d =>
    let a := SEM_PORT_STAT n.val
    if d.flag a SEM_PORT_STAT_up then d
    else
      let d1 := (d.setB a SEM_PORT_STAT_up true).setB a SEM_PORT_STAT_sync true
      let d2 := when (!d1.member) (·.setB a SEM_PORT_STAT_loop false) d1
      portAtt n.val (semEvent 0x0607 n.val [n.val] d2)

/-! ## Registers (R404, R408, R410) -/

/-- The device's own services stop (R408). Assumption 58 (DEDUCED). -/
def semStop (d : Dev) : Dev :=
  let d1 := endWaits (fun w => w.op == 0x0601 || w.op == 0x0602 || w.op == 0x0603) stAbortedDisabled 0
    (d.modSem fun q => { q with msgs := [], joining := false, joinSent := false, leaving := false, claiming := false, claimRun := 0 })
  let mine := (d1.due.filterMap fun x => match x with
    | .seamEvent _ k t _ => some (k, t)
    | _ => none).eraseDups
  let d2 := d1.dropDues fun x => match x with
    | .seamEvent _ _ _ _ => true
    | _ => false
  mine.foldl (fun y e => dropEvent e.1 y.semNode e.2 y) d2

/-- A write of SEM_CTL: node is written only while en = 0; clearing en stops the services. -/
def semCtlWrite (w : Writer) (v : Word) (d : Dev) : Dev :=
  let was := d.semEn
  let v1 := if was then fput SEM_CTL_node v d.semNode else v
  let d1 := plainWrite w SEM_CTL v1 d
  when (was && !d1.semEn) semStop d1

/-- A write of a base register that does not name DDR4 with its alignment is discarded. -/
def semBaseWrite (w : Writer) (addr align : Nat) (v : Word) (d : Dev) : Dev :=
  if !d.accepts w addr then plainWrite w addr v d
  else if v.toNat < 0x80000000 ∨ 0xF0000000 ≤ v.toNat ∨ v.toNat % align ≠ 0 then
    (discardWrite w addr d).setB SEM_GSTAT SEM_GSTAT_cfg_err true
  else plainWrite w addr v d

/-- A write of SEM_CYC: taken while the device is no member, or keeper and sole member (R404). -/
def semCycWrite (w : Writer) (v : Word) (d : Dev) : Dev :=
  if !d.accepts w SEM_CYC then plainWrite w SEM_CYC v d
  else if d.member && !(d.keeper && decide (d.sem.layout.length ≤ 1)) then
    (discardWrite w SEM_CYC d).setB SEM_GSTAT SEM_GSTAT_cfg_err true
  else plainWrite w SEM_CYC v d

/-- A write of SEM_SECT: a member's new length is sent as a JOIN. -/
def semSectWrite (w : Writer) (v : Word) (d : Dev) : Dev :=
  let n := d.sectLen
  let d1 := plainWrite w SEM_SECT v d
  when (d1.member && d1.sectLen != n) sendJoin d1

/-- A write of a SEM register. -/
def semWrite (nm : RegName) (w : Writer) (addr : Nat) (v : Word) (d : Dev) : Dev :=
  match nm with
  | .SEM_CTL => semCtlWrite w v d
  | .SEM_CYC => semCycWrite w v d
  | .SEM_SECT => semSectWrite w v d
  | .SEM_TX_BASE => semBaseWrite w addr 0x200 v d
  | .SEM_RX_BASE => semBaseWrite w addr 0x80000 v d
  | .SEM_MBX_BASE => semBaseWrite w addr 0x2000 v d
  | .SEM_MBX_REL => mbxRelWrite w v d
  | _ => plainWrite w addr v d

/-- SEM_CTL_WRITE. -/
def execSemCtlWrite (w : Writer) (v : Word) (s : State) : Out := s.upd (semCtlWrite w v)

end Sys2Proof.Machine
end

