-- ==== Sys2Proof/Machine/Evc.lean ====
section
/-!
DEFINITION. Event counters and the variable capture (R481 to R488).
-/
namespace Sys2Proof.Machine

/-! ## Counters -/

/-- The cluster whose clock event counter e needs; host and global counters lie in HI (R481). -/
def Dev.evcRuns (d : Dev) (e : Nat) : Bool := if e < 64 then d.clusterRuns (e / 16) else !d.clkHeld

/-- Is a level source of the catalogues high (R484)? Stalls are timing, which this model leaves out: they read low.
Assumption 11 (DESIGN CHOICE). -/
def Dev.evcLevelOf (d : Dev) (c src : Nat) : Bool :=
  if src = 0x1FF then true
  else if 0x130 ≤ src ∧ src < 0x140 then d.outMode (c * 16 + (src - 0x130)) == 0
  else if 0x160 ≤ src ∧ src < 0x164 then d.flag (PLN_LANE_STAT (c * 4 + (src - 0x160))) PLN_LANE_STAT_fg_busy
  else if 0x164 ≤ src ∧ src < 0x168 then d.flag (PLN_LANE_STAT (c * 4 + (src - 0x164))) PLN_LANE_STAT_bg_busy
  else if src = 0x207 then d.sqs.entries.any fun e => fget LDL_RING_STAT_fence_wait (d.ringStat e.1) == 1
  else if src = 0x208 then d.sqs.entries.any fun e => fget LDL_RING_STAT_cq_stall (d.ringStat e.1) == 1
  else if src = 0x20C then d.flag GLB_PCIE_STAT GLB_PCIE_STAT_l1
  else if src = 0x340 then d.fls.erasing.isSome && !d.fls.susp
  else if src = 0x350 then d.flag TCH_SUP_STAT TCH_SUP_STAT_vcore_warn || d.flag TCH_SUP_STAT TCH_SUP_STAT_vaux_warn
  else false

/-- The level source that event counter e selects is high. -/
def Dev.evcLevel (d : Dev) (e : Nat) : Bool :=
  d.evcLevelOf (if e < 64 then e / 16 else d.fld (EVC_CFG e) EVC_CFG_cl) (d.fld (EVC_CFG e) EVC_CFG_src)

/-- The level that an edge of counter e's source starts from is the present one. -/
def evcSeen (e : Nat) (d : Dev) : Dev :=
  { d with evcHigh := if d.evcLevel e then (if d.evcHigh.contains e then d.evcHigh else d.evcHigh ++ [e]) else d.evcHigh.filter (· != e) }

/-- The count of event counter e copied into its snapshot (R483). -/
def evcSnap (e : Nat) (d : Dev) : Dev :=
  (d.wr (EVC_SNAP_LO e) (w32 (d.wide64 (EVC_CNT_LO e)))).setF (EVC_SNAP_HI e) EVC_SNAP_HI_snap_hi (d.wide64 (EVC_CNT_LO e) / 2 ^ 32)

/-- A hit of counter e is no longer due. -/
def evcDrop (e : Nat) (d : Dev) : Dev := (d.dropDue (.evcThr e false)).dropDue (.evcThr e true)

/-- The threshold of counter e evaluated (R28, R482). -/
def evcEval (e : Nat) (d : Dev) : Dev :=
  let d1 := evcDrop e d
  if d.fldIf (EVC_CFG e) EVC_CFG_thr_en = 0 then d1
  else match cmpEval 48 (d.evcThr e) (d.wide64 (EVC_CNT_LO e)) with
    | some late => d1.addDue (.evcThr e late)
    | none => d1

/-- The count of counter e cleared. -/
def evcZero (e : Nat) (d : Dev) : Dev := d.setWide (EVC_CNT_LO e) 0

/-- EVC_THRESHOLD: the hit that is due; thr_clr clears the count in the next ccyc (R482). -/
def evcHit (e : Nat) (d : Dev) : Dev :=
  let late := d.due.contains (.evcThr e true)
  if !d.evcRuns e || !(late || d.due.contains (.evcThr e false)) then d
  else
    let g := EVC_CFG e
    let v := d.wide64 (EVC_CNT_LO e)
    let d1 := (evcDrop e d).setB g EVC_CFG_thr_hit true
    let d2 := when late (·.setB g EVC_CFG_late true) d1
    let d3 := if d.flag g EVC_CFG_thr_clr then { d2 with evcClr := if d2.evcClr.contains e then d2.evcClr else d2.evcClr ++ [e] } else d2
    if 64 ≤ e ∧ e < 80 then d3
    else postEvent 0x0912 (if e < 64 then 0x10 + e / 16 else 0) e [e, v % 2 ^ 32, v / 2 ^ 32] d3

/-- EVC_THRESHOLD. Assumption 4 (DESIGN CHOICE). -/
def execEvcThreshold (e : Fin 96) (s : State) : Out := s.upd (evcHit e.val)

/-- EVC_OVERFLOW: the count after 2^48 - 1 is 0, with ovf set (R481). -/
def execEvcOverflow (e : Fin 96) (s : State) : Out :=
  s.upd fun d =>
    when (d.evcRuns e.val && d.flag (EVC_CFG e.val) EVC_CFG_en && d.wide64 (EVC_CNT_LO e.val) == 2 ^ 48 - 1)
      (evcPulse e.val (evcTick e.val)) d

/-- The values of EVC_CFG that R482, R484 and R488 reserve for counter e. Assumption 13 (DEDUCED). -/
def evcReserved (e : Nat) (v : Word) : Bool :=
  let src := fget EVC_CFG_src v
  let cl := decide (src < 0x168) || (decide (0x170 ≤ src) && decide (src < 0x1A3)) || src == 0x1FF
  let host := src == 0x1FF || (decide (0x200 ≤ src) && decide (src < 0x20D)) || (decide (0x210 ≤ src) && decide (src < 0x228))
  let dev := (decide (0x300 ≤ src) && decide (src < 0x314)) || (decide (0x320 ≤ src) && decide (src < 0x324)) ||
    (decide (0x330 ≤ src) && decide (src < 0x343)) || src == 0x350
  fget EVC_CFG_mode v == 3 || !(if e < 64 then cl else if e < 80 then host else cl || host || dev)

/-- A write of EVC_CFG: clr clears the count; thr_en set evaluates the threshold (R28, R482, R488).
Assumption 13 (DEDUCED). -/
def evcCfgWrite (w : Writer) (e : Nat) (v : Word) (d : Dev) : Dev :=
  let g := EVC_CFG e
  let d1 := plainWrite w g v d
  let d2 := if evcReserved e v then
      ((d1.setF g ⟨26, 5⟩ (d.open_ / 2 ^ 12)).setF g ⟨0, 14⟩ d.open_).bump else d1
  let d3 := evcSeen e (when (fget EVC_CFG_clr v == 1) (evcZero e) d2)
  if d3.flag g EVC_CFG_thr_en then (if d.flag g EVC_CFG_thr_en then d3 else evcEval e d3) else evcDrop e d3

/-- EVC_CLR: the write with clr set. -/
def execEvcClr (w : Writer) (e : Fin 96) (v : Word) (s : State) : Out :=
  s.upd fun d => when (d.evcRuns e.val && fget EVC_CFG_clr v == 1) (evcCfgWrite w e.val v) d

/-- A write of EVC_THR_HI evaluates the threshold (R482). -/
def evcThrWrite (w : Writer) (e : Nat) (v : Word) (d : Dev) : Dev := evcEval e (plainWrite w (EVC_THR_HI e) v d)

/-- EVC_THR_HI_WRITE. -/
def execEvcThrHiWrite (w : Writer) (e : Fin 96) (v : Word) (s : State) : Out :=
  s.upd fun d => when (d.evcRuns e.val) (evcThrWrite w e.val v) d

/-- Every host and global counter into its snapshot, in one ccyc, with its device time (R483). -/
def evcGlobalSnap (d : Dev) : Dev := (upTo 32 (fun i => evcSnap (64 + i)) d).setWide EVC_GSNAP_T_LO d.time.master

/-- A write of EVC_GSNAP takes the snapshot when its field snap is written. Assumption 60 (DEDUCED). -/
def evcGsnapWrite (w : Writer) (v : Word) (d : Dev) : Dev :=
  when (v != 0) evcGlobalSnap (plainWrite w EVC_GSNAP v d)

/-- EVC_GSNAP. -/
def execEvcGsnap (w : Writer) (v : Word) (s : State) : Out := s.upd (evcGsnapWrite w v)

/-! ### The snapshot of EVC_DUMP

A dump under way carries the fab bit and the address of its buffer, its boundary, a mask of the islands that have copied
(0 to 3 for the clusters, 4 for HI), and the 96 counts. -/

/-- The boundary of a dump dispatched at device time t: the first at least 2 µs later (R483). -/
def dumpBoundary (t : Nat) : Nat := (t + 1600 + 1023) / 1024 * 1024

/-- Island i's time has reached the boundary b; a cluster whose clock stands gives its frozen counts when the master
does. Assumption 77 (DEDUCED). -/
def Dev.dumpReady (d : Dev) (i b : Nat) : Bool :=
  if i < 4 && d.clusterRuns i then decide (b ≤ d.copy i) else decide (b ≤ d.time.master)

/-- The counters of island i. -/
def dumpSet (i : Nat) : List Nat := if i < 4 then (List.range 16).map (16 * i + ·) else (List.range 32).map (64 + ·)

/-- What a dump carries after island i copied its counters; those of an absent cluster read 0 (R376). -/
def Dev.dumpAux (d : Dev) (i : Nat) (aux : List Nat) : List Nat :=
  (aux.take 3 ++ [setBit (aux.getD 3 0) i true]) ++ (List.range 96).map fun e =>
    if (dumpSet i).contains e then (if e < 64 && !d.hasCluster (e / 16) then 0 else d.wide64 (EVC_CNT_LO e) % 2 ^ 48)
    else aux.getD (4 + e) 0

/-- Island i copies its counters for the dump that has place q in the order of dispatch, where it has to (R483). -/
def dumpIsland (q i : Nat) (d : Dev) : Dev :=
  match d.waits.find? fun w => w.seq == q with
  | none => d
  | some w =>
    if (w.aux.getD 3 0).testBit i || !d.dumpReady i (w.aux.getD 2 0) then d
    else
      let d1 := if i < 4 && !d.hasCluster i then d else (dumpSet i).foldl (fun x e => evcSnap e x) d
      { d1 with waits := d1.waits.map fun v => if v.seq = q then { v with aux := d.dumpAux i w.aux } else v }

/-- One ccyc of every dump under way. -/
def dumpTick (d : Dev) : Dev :=
  (d.waits.filter fun w => w.op == 0x0901).foldl (fun x w => upTo 5 (dumpIsland w.seq) x) d

/-- The dump of SQ r whose islands have all copied. -/
def Dev.dumpDone (d : Dev) (r : Nat) : Option Wait :=
  d.waits.find? fun w => w.sq == r && w.op == 0x0901 && w.aux.getD 3 0 == 31

/-- EVC_IN: a pulse snapshots counter n of its cluster where snap_en is set (R483). -/
def execEvcIn (n : Fin 64) (s : State) : Out :=
  s.onCluster (n.val / 16) fun d =>
    when (d.flag (EVC_CFG n.val) EVC_CFG_snap_en) (evcSnap n.val) (fluxArrive (n.val / 16) (0x60 + n.val % 16) d)

/-- EVC_CNT_LO_READ. -/
def execEvcCntLoRead (e : Fin 96) (s : State) : Out :=
  s.upd fun d => when (d.evcRuns e.val) (readTo (plainRead (EVC_CNT_LO e.val))) d

/-- A write of an EVC register. -/
def evcWrite (nm : RegName) (ix : List Nat) (w : Writer) (addr : Nat) (v : Word) (d : Dev) : Dev :=
  let e := ix.headD 0
  match nm with
  | .EVC_CFG => evcCfgWrite w e v d
  | .EVC_THR_HI => evcThrWrite w e v d
  | .EVC_GSNAP => evcGsnapWrite w v d
  | _ => plainWrite w addr v d

/-! ## Capture (R485, R486) -/

/-- The cluster, global lane, slot and variable word of a specification (R371). -/
def specOf (x : Nat) : Nat × Nat × Nat × Nat := (x / 4096 % 4, x / 4096 % 4 * 4 + x / 1024 % 4, x / 256 % 4, x % 256)

/-- The value of one variable; 0 where its cluster is halted (R485). -/
def Dev.specValue (d : Dev) (x : Nat) : Nat :=
  match specOf x with
  | (c, n, s, i) => if d.clusterRuns c then (d.windowRead n s i true).toNat else 0

/-- The bytes of a record of capture k for a sample instant (R485). Assumption 60 (DEDUCED). -/
def Dev.capBytes (d : Dev) (k t : Nat) : List Byte :=
  let c := d.cap k
  let gone := c.specs.any fun x => !d.clusterRuns (specOf x).1
  let flags := b2n (c.lost != 0) + b2n gone * 2 + b2n (d.axis c.axis).curMiss * 4 + b2n c.resumed * 8
  let vals := c.specs.flatMap fun x => leBytes 4 (d.specValue x)
  let body := leBytes 8 t ++ leBytes 4 (d.rd (DBG_CAP_SEQ k)).toNat ++ leBytes 2 c.specs.length ++ leBytes 1 flags ++ leBytes 1 0 ++ vals
  body ++ List.replicate (c.recSize - body.length) 0

/-- The carrier reference of the latest sample instant of capture k's reference axis. -/
def Dev.recordRef (d : Dev) (k : Nat) : Nat := (d.axis (d.cap k).axis).smpRef

/-- Capture k forms a record: 288 ticks after a sample instant of its reference that it has not recorded (R485). -/
def Dev.recordDue (d : Dev) (k : Nat) : Bool :=
  d.recordRef k != 0 && (d.cap k).recd != d.recordRef k && (d.cluster (axCl (d.cap k).axis)).ref == d.recordRef k + 288

/-- A record of capture k is formed and queued, or dropped where the queue is full (R485, R486). Assumption 60 (DEDUCED). -/
def captureRecord (k : Nat) (full : Bool) (x : MD) : MD :=
  let d := x.2
  let c := d.cap k
  let st := DBG_CAP_STAT k
  if d.fldIf st DBG_CAP_STAT_running = 0 ∨ !d.clusterRuns (axCl c.axis) ∨ !d.recordDue k then x
  else if full then
    (x.1, (d.setF st DBG_CAP_STAT_lost (satInc 16 (d.fld st DBG_CAP_STAT_lost))).modCap k fun y =>
      { y with lost := y.lost + 1, recd := d.recordRef k })
  else
    let p := (d.rd (DBG_CAP_WPTR k)).toNat
    let fits := decide (p + c.recSize ≤ c.size)
    if !fits && (!c.wrap || c.size < c.recSize) then
      (x.1, postEvent 0x0910 0 k [] ((d.setB st DBG_CAP_STAT_running false).setB st DBG_CAP_STAT_full true))
    else
      let p1 := if fits then p else 0
      let y := ddrStore (c.base + p1) (d.capBytes k ((d.copy (axCl c.axis) + 2 ^ 64 - 288) % 2 ^ 64)) x
      let next := p1 + c.recSize
      let past := c.wrap && decide (c.size < next + c.recSize)
      let d1 := y.2.wr (DBG_CAP_WPTR k) (w32 (if past then 0 else next))
      let d2 := when past (·.setB st DBG_CAP_STAT_wrapped true) d1
      (y.1, (d2.wr (DBG_CAP_SEQ k) (d2.rd (DBG_CAP_SEQ k) + 1)).modCap k fun z =>
        { z with lost := 0, resumed := false, bytes := z.bytes + c.recSize, recd := d.recordRef k })

/-- CAPTURE_RECORD: at S + 288 of the reference slot; full says that the queue of 64 holds no room. -/
def execCaptureRecord (k : Fin 8) (full : Bool) (s : State) : Out := s.updB fun m d => captureRecord k.val full (m, d)

end Sys2Proof.Machine
end

