-- ==== Sys2Proof/Machine/Debug.lean ====
section
/-!
DEFINITION. Halting, releasing and stepping by the debugger, its freeze of the device watchdog, and writes of the DBG
registers (R467, R476 to R480, R487).
-/
namespace Sys2Proof.Machine

/-- The TAP holds FULL. -/
def Dev.tapFull (d : Dev) : Bool := d.fld DBG_STAT DBG_STAT_tap_level == 2

/-- Release bits of clusters: a halted one is released, and one in its halt sequence once its clock has stopped (R477). -/
def releaseBits (cs : Nat) (d : Dev) : Dev :=
  upTo 4 (fun c x =>
    if !cs.testBit c then x
    else
      let y := x.setF DBG_CTL DBG_CTL_halt (setBit (x.fld DBG_CTL DBG_CTL_halt) c false)
      if (d.cluster c).halted then releaseCluster c y
      else if (d.cluster c).halting then y.modCluster c fun z => { z with relPend := true }
      else x) d

/-- Halt bits of clusters (R476). -/
def haltBits (cs : Nat) (d : Dev) : Dev := upTo 4 (fun c => when (cs.testBit c) (haltStart c 1 0)) d

/-- Bench core k goes on; step says for one instruction (R478). -/
def benchGo (k : Nat) (step : Bool) (d : Dev) : Dev :=
  if !d.coreHalted k then d
  else
    let d1 := (d.setB (ANV_CTL k) ANV_CTL_halted false).modCore k fun c => { c with stepping := step }
    let d2 := d1.setF DBG_STAT DBG_STAT_bench_halted (setBit (d1.fld DBG_STAT DBG_STAT_bench_halted) (k - 16) false)
    if step then d2
    else
      let d3 := d2.setF DBG_CTL DBG_CTL_bench_halt (setBit (d2.fld DBG_CTL DBG_CTL_bench_halt) (k - 16) false)
      upTo 4 (fun u y => if y.fldIf (DBG_BW_CFG k u) DBG_BW_CFG_armed = 1 then y.setB (DBG_BW_CFG k u) DBG_BW_CFG_armed false else y)
        (wdtAfterHalt k d3)

/-- The bench cores a bit mask concerns: both, where a bit names one of a paired pair. -/
def Dev.benchSet (d : Dev) (js : Nat) : List Nat :=
  if js % 4 ≠ 0 ∧ d.pairedQ 8 then [16, 17] else (List.range 2).filterMap fun j => if js.testBit j then some (16 + j) else none

/-- bench_release bits: the cores are released, and a device that waits for debug starts its firmware (R464, R478). -/
def benchRelease (js : Nat) (x : MD) : MD :=
  if js % 4 = 0 then x else waitDebugGo (x.1, (x.2.benchSet js).foldl (fun y k => benchGo k false y) x.2)

/-- bench_halt bits. -/
def benchHaltBits (js : Nat) (d : Dev) : Dev := (d.benchSet js).foldl (fun y k => if y.coreHalted k then y else benchHalt k y) d

/-- A write of step: every halted bench core runs one instruction (R478). Assumption 59 (DEDUCED). -/
def benchStep (d : Dev) : Dev := benchGo 17 true (benchGo 16 true d)

/-- A write of DBG_CTL: only through the debug access port at FULL (R487). Assumption 59 (DEDUCED). -/
def dbgCtlWrite (w : Writer) (v : Word) (x : MD) : MD :=
  if w ≠ .dap ∨ !x.2.tapFull then x
  else
    let d1 := plainWrite w DBG_CTL v x.2
    let d2 := haltBits (fget DBG_CTL_halt v) (releaseBits (fget DBG_CTL_release v) d1)
    let y := benchRelease (fget DBG_CTL_bench_release v) (x.1, benchHaltBits (fget DBG_CTL_bench_halt v) d2)
    (y.1, when (fget DBG_CTL_step v == 1) benchStep y.2)

/-- DBG_HALT: the halt sequence of cluster c ends; a release that was written meanwhile takes effect (R476, R477). -/
def execDbgHalt (c : Fin 4) (s : State) : Out :=
  s.upd fun d =>
    if !d.clusterRuns c.val || !(d.cluster c.val).halting then d
    else
      let p := (d.cluster c.val).relPend
      when p (releaseCluster c.val) ((haltCluster c.val d).modCluster c.val fun y => { y with relPend := false })

/-- DBG_RELEASE: release bits written at FULL. -/
def execDbgRelease (cs : Fin 16) (s : State) : Out := s.upd fun d => when d.tapFull (releaseBits cs.val) d

/-- BENCH_HALT: a bench_halt bit written at FULL. -/
def execBenchHalt (j : Fin 2) (s : State) : Out :=
  s.upd fun d => when d.tapFull (fun x => benchHaltBits (2 ^ j.val)
    (x.setF DBG_CTL DBG_CTL_bench_halt (setBit (x.fld DBG_CTL DBG_CTL_bench_halt) j.val true))) d

/-- BENCH_RELEASE: bench_release bits written at FULL. -/
def execBenchRelease (js : Fin 4) (s : State) : Out :=
  s.updB fun m d => if d.tapFull then benchRelease js.val (m, d) else (m, d)

/-- DBG_STEP. -/
def execDbgStep (s : State) : Out := s.upd fun d => when d.tapFull benchStep d

/-- A write of DBG_WDT_FREEZE: at FULL it stops the device watchdog, or ends the freeze (R467, R487). -/
def wdtFreezeWrite (w : Writer) (v : Word) (d : Dev) : Dev :=
  if w ≠ .dap ∨ !d.tapFull then d
  else
    let d1 := plainWrite w DBG_WDT_FREEZE v d
    if fget DBG_WDT_FREEZE_freeze v = 1 then d1.setB TCH_WDT_CFG TCH_WDT_CFG_frozen true else wdtUnfreeze d1

/-- DBG_WDT_FREEZE. -/
def execDbgWdtFreeze (w : Writer) (v : Word) (s : State) : Out := s.upd (wdtFreezeWrite w v)

/-- A write of DBG_BW_CFG: the halt action is stored only from the debug access port at FULL; reserved links and actions
leave both fields open, but for the halt action (R480). Assumption 13 (DEDUCED). -/
def bwCfgWrite (w : Writer) (u addr : Nat) (v : Word) (d : Dev) : Dev :=
  let act := fget DBG_BW_CFG_action v
  let v1 := if act = 2 ∧ (w ≠ .dap ∨ !d.tapFull) then fput DBG_BW_CFG_action v 0 else v
  let d1 := plainWrite w addr v1 d
  if fget DBG_BW_CFG_link v = 3 ∨ act = 3 ∨ (u % 4 = 3 ∧ fget DBG_BW_CFG_link v ≠ 0) then
    if d1.rd addr = d.rd addr then d1
    else
      let d2 := d1.setF addr ⟨27, 4⟩ d1.open_
      (when (decide (w ≠ .dap) && d2.fld addr DBG_BW_CFG_action == 2) (·.setF addr DBG_BW_CFG_action 0) d2).bump
  else d1

/-- A write of a DBG register. -/
def dbgWrite (nm : RegName) (ix : List Nat) (w : Writer) (addr : Nat) (v : Word) (x : MD) : MD :=
  match nm with
  | .DBG_CTL => dbgCtlWrite w v x
  | .DBG_WDT_FREEZE => (x.1, wdtFreezeWrite w v x.2)
  | .DBG_BW_CFG => (x.1, bwCfgWrite w (ix.getD 1 (ix.headD 0)) addr v x.2)
  | _ => (x.1, plainWrite w addr v x.2)

end Sys2Proof.Machine
end

