-- ==== Sys2Proof/Machine/Flux.lean ====
section
/-!
DEFINITION. The Flux matrix (R185 to R194): captures, combiners, imports, software fire, windows by register write, and
the coordination group tables (R181).
-/
namespace Sys2Proof.Machine

/-! ## Captures (R192) -/

/-- CAP: a pulse stores the live counter and device time of its ccyc. -/
def capPulse (k : Nat) (d : Dev) : Dev :=
  let c := k / 16
  let i := k % 16
  let d1 := fluxArrive c (0x40 + i) d
  let cfg := FLX_CAP_CFG c i
  if d1.fldIf cfg FLX_CAP_CFG_en = 0 then d1
  else
    let a := c * 16 + d1.fld cfg FLX_CAP_CFG_cap_axis
    let d2 := when (d1.flag cfg FLX_CAP_CFG_full) (·.setB cfg FLX_CAP_CFG_ovr true) d1
    ((d2.setB cfg FLX_CAP_CFG_full true).wr (FLX_CAP_POS c i) (d2.rd (FBK_POS a))).setWide (FLX_CAP_T_LO c i) (d2.copy c)

/-- CAP. -/
def execCap (k : Fin 64) (s : State) : Out := s.onCluster (k.val / 16) (capPulse k.val)

/-- A read of FLX_CAP_T_HI_SNAP clears full (R192). -/
def capSnapRead (k : Nat) (d : Dev) : Dev × Word :=
  let x := plainRead (FLX_CAP_T_HI_SNAP (k / 16) (k % 16)) d
  (x.1.setB (FLX_CAP_CFG (k / 16) (k % 16)) FLX_CAP_CFG_full false, x.2)

/-- FLX_CAP_T_HI_SNAP_READ. -/
def execFlxCapTHiSnapRead (k : Fin 64) (s : State) : Out := s.onCluster (k.val / 16) (readTo (capSnapRead k.val))

/-! ## Combiners (R190) -/

/-- Combiner k re-armed with its latches clear; where its condition holds, its firing is due. One that has fired in this
ccyc stays armed, as if it had never been disarmed (R190). -/
def combRearm (k : Nat) (d : Dev) : Dev :=
  let d1 := (d.setB (FLX_COMB_CFG (k / 8) (k % 8)) FLX_COMB_CFG_armed true).modComb k
    fun b => { b with latch := 0, armAt := some d.now }
  if (d.comb k).firedAt = some d.now then d1.modComb k fun b => { b with held := d1.combTrue k } else combEval k d1

/-- COMB_ARM: a pulse re-arms the combiner. -/
def execCombArm (k : Fin 32) (s : State) : Out :=
  s.onCluster (k.val / 8) fun d => combRearm k.val (fluxArrive (k.val / 8) (0x74 + k.val % 8) d)

/-- COMBINER_FIRE: COMB pulses one ccyc after the condition became true; the latches clear, and one_shot disarms, unless the
combiner is re-armed in this ccyc (R190). -/
def combinerFire (k : Nat) (d : Dev) : Dev :=
  let c := k / 8
  let cfg := FLX_COMB_CFG c (k % 8)
  if .combiner c (k % 8) ∈ d.due ∧ (d.comb k).trueAt < d.now then
    let d1 := (d.dropDue (.combiner c (k % 8))).setB cfg FLX_COMB_CFG_fired true
    let d2 := when (d1.flag cfg FLX_COMB_CFG_one_shot && (d.comb k).armAt != some d.now) (·.setB cfg FLX_COMB_CFG_armed false) d1
    fluxFire c (0xF0 + k % 8) (combEval k (d2.modComb k fun b => { b with latch := 0, firedAt := some d.now }))
  else d

/-- COMBINER_FIRE. -/
def execCombinerFire (k : Fin 32) (s : State) : Out := s.onCluster (k.val / 8) (combinerFire k.val)

/-- A write of FLX_COMB_CFG: rearm re-arms; the condition is taken anew (R190, R194). -/
def combCfgWrite (w : Writer) (k : Nat) (v : Word) (d : Dev) : Dev :=
  let d1 := plainWrite w (FLX_COMB_CFG (k / 8) (k % 8)) v d
  if fget FLX_COMB_CFG_rearm v = 1 then combRearm k d1 else combEval k d1

/-- COMB_REARM: a write of FLX_COMB_CFG with rearm. -/
def execCombRearm (w : Writer) (k : Fin 32) (v : Word) (s : State) : Out :=
  s.onCluster (k.val / 8) (combCfgWrite w k.val v)

/-! ## Exports and imports (R191) -/

/-- IMPORT_PULSE: an exported pulse arrives at another cluster; a halted one discards it and counts it (R35, R191). -/
def importPulse (tgt src k : Nat) (d : Dev) : Dev :=
  if .exported src k tgt ∈ d.due then
    let d1 := { d with due := d.due.erase (.exported src k tgt) }
    if (d1.cluster tgt).halted then d1.incF GLB_CLK_STAT GLB_CLK_STAT_flux_drop
    else if !d1.clusterRuns tgt then d1
    else upTo 8 (fun j x =>
      let r := FLX_IMPORT tgt j
      when (d1.fldIf r FLX_IMPORT_en == 1 && d1.fldIf r FLX_IMPORT_cl == src && d1.fldIf r FLX_IMPORT_exp == k)
        (fluxFire tgt (0xF8 + j)) x) d1
  else d

/-- IMPORT_PULSE. -/
def execImportPulse (tgt src : Fin 4) (k : Fin 8) (s : State) : Out := s.upd (importPulse tgt.val src.val k.val)

/-- A write of FLX_IMPORT (R191). -/
def importWrite (w : Writer) (c k : Nat) (v : Word) (d : Dev) : Dev :=
  let cl := fget FLX_IMPORT_cl v
  if fget FLX_IMPORT_en v = 1 ∧ (cl = c ∨ d.hasCluster cl = false) then
    discardWrite w (FLX_IMPORT c k) (d.setB (FLX_STAT c) FLX_STAT_cfg_err true)
  else plainWrite w (FLX_IMPORT c k) v d

/-- FLX_IMPORT_WRITE. -/
def execFlxImportWrite (w : Writer) (c : Fin 4) (k : Fin 8) (v : Word) (s : State) : Out :=
  s.onCluster c.val (importWrite w c.val k.val v)

/-! ## Software fire (R192) -/

/-- SW[n] of cluster c pulses for every bit n of v. -/
def swFire (c : Nat) (v : Word) (d : Dev) : Dev := upTo 4 (fun n => when (v.getLsbD n) (fluxFire c (0xC8 + n))) d

/-- FLX_SWFIRE. -/
def execFlxSwfire (w : Writer) (c : Fin 4) (v : Word) (s : State) : Out :=
  s.onCluster c.val fun d => swFire c.val v (plainWrite w (FLX_SWFIRE c.val) v d)

/-! ## Position windows (R189) -/

/-- A write of FLX_WIN_CFG: setting en evaluates the window as a change from outside; clearing it offers the level
outside. -/
def winCfgWrite (w : Writer) (a : Nat) (v : Word) (d : Dev) : Dev :=
  let was := d.flag (FLX_WIN_CFG a) FLX_WIN_CFG_en
  let d1 := plainWrite w (FLX_WIN_CFG a) v d
  let is := d1.flag (FLX_WIN_CFG a) FLX_WIN_CFG_en
  if is && !was then winEval a true d1
  else if was && !is then winSet a false d1
  else d1

/-- A write of the window register r of axis a: 0 CFG, 1 LO, 2 HI. -/
def winWrite (w : Writer) (a r : Nat) (v : Word) (d : Dev) : Dev :=
  match r with
  | 0 => winCfgWrite w a v d
  | 1 => winEval a true (plainWrite w (FLX_WIN_LO a) v d)
  | _ => winEval a true (plainWrite w (FLX_WIN_HI a) v d)

/-- FLX_WIN_WRITE. -/
def execFlxWinWrite (w : Writer) (a : Fin 64) (r : Fin 3) (v : Word) (s : State) : Out :=
  s.onCluster (axCl a.val) (winWrite w a.val r.val v)

/-! ## Group tables (R181) -/

/-- The members a table of these three words names. Assumption 49 (DESIGN CHOICE). -/
def tableMembers (cfg lo hi : Word) : List Nat :=
  if fget FLX_GRP_CFG_en cfg = 0 then []
  else (List.range 8).filterMap fun i =>
    if (fget FLX_GRP_CFG_mem_en cfg).testBit i then
      some (bits (if i < 4 then lo else hi).toNat (8 * (i % 4) + 5) (8 * (i % 4)))
    else none

/-- What becomes of a table change of group g: 0 it takes effect, 1 it is a configuration error, 2 the admission lock
discards it (R181). -/
def Dev.grpCheck (d : Dev) (g : Nat) (cfg lo hi : Word) : Nat :=
  let old := d.members g
  let new := tableMembers cfg lo hi
  let en := fget FLX_GRP_CFG_mem_en cfg
  if (en ≠ 0 ∧ en.testBit 0 = false) ∨ ¬ new.Nodup ∨
      (new.any fun a => (List.range 32).any fun h => h != g && (d.members h).contains a) = true then 1
  else if old ≠ new ∧ ((old ++ new).any fun a => d.axSt a != stRetired && d.axSt a != stAdmitted) = true then 2
  else 0

/-- span as the members of group g now stand (R183, R194). -/
def grpSpan (g : Nat) (d : Dev) : Dev :=
  let ms := d.members g
  d.setB (FLX_GRP_CFG g) FLX_GRP_CFG_span (ms.any fun a => axCl a != axCl (ms.headD 0))

/-- A write of the group register r of group g: 0 CFG, 1 MEM_LO, 2 MEM_HI, whose bits 7:6 of each byte are reserved
(R181, R194). -/
def grpWrite (w : Writer) (g r : Nat) (x : Word) (d : Dev) : Dev :=
  let v := if r = 0 then x else x &&& 0x3F3F3F3F
  let addr := if r = 0 then FLX_GRP_CFG g else if r = 1 then FLX_GRP_MEM_LO g else FLX_GRP_MEM_HI g
  if !d.accepts w addr then plainWrite w addr v d
  else
    let pick := fun (i : Nat) (x : Word) => if r = i then v else x
    match d.grpCheck g (pick 0 (d.rd (FLX_GRP_CFG g))) (pick 1 (d.rd (FLX_GRP_MEM_LO g)))
        (pick 2 (d.rd (FLX_GRP_MEM_HI g))) with
    | 0 => grpSpan g (plainWrite w addr v d)
    | 1 => discardWrite w addr (d.setB (FLX_STAT (g / 8)) FLX_STAT_cfg_err true)
    | _ => discardWrite w addr (d.setB (FLX_STAT (g / 8)) FLX_STAT_adm_lock true)

/-- FLX_GRP_WRITE. -/
def execFlxGrpWrite (w : Writer) (g : Fin 32) (r : Fin 3) (v : Word) (s : State) : Out :=
  s.onCluster (g.val / 8) (grpWrite w g.val r.val v)

/-! ## Writes of FLX registers -/

/-- A write of an FLX register. -/
def flxWrite (nm : RegName) (ix : List Nat) (w : Writer) (addr : Nat) (v : Word) (d : Dev) : Dev :=
  let i := ix.headD 0
  let j := ix.getD 1 0
  match nm with
  | .FLX_IMPORT => importWrite w i j v d
  | .FLX_COMB_CFG => combCfgWrite w (i * 8 + j) v d
  | .FLX_COMB_IN => combEval (i * 8 + j) (plainWrite w addr v d)
  | .FLX_SWFIRE => swFire i v (plainWrite w addr v d)
  | .FLX_WIN_CFG => winWrite w i 0 v d
  | .FLX_WIN_LO => winWrite w i 1 v d
  | .FLX_WIN_HI => winWrite w i 2 v d
  | .FLX_GRP_CFG => grpWrite w i 0 v d
  | .FLX_GRP_MEM_LO => grpWrite w i 1 v d
  | .FLX_GRP_MEM_HI => grpWrite w i 2 v d
  | _ => plainWrite w addr v d

end Sys2Proof.Machine
end

