-- ==== Sys2Proof/Machine/RegBus.lean ====
section
/-!
DEFINITION. One write and one read of a register by any master: the dispatch to the blocks, and BAR0 (R4, R19, R23 to R25,
R35, R323, R453, R474, R475).
-/
namespace Sys2Proof.Machine

/-- A register of the Hallmark that R453 does not list. Assumption 16 (DESIGN CHOICE). -/
def hlmHidden (addr : Nat) : Bool := decide (0x02300000 ≤ addr) && decide (addr < 0x02400000) && (regAt addr).isNone

/-- The ring of a writer, for the registers reachable from ring 0 only; the host has ring 1 (R19, R475). -/
def writerRing : Writer → Nat
  | .core _ r => r.val
  | .dap => 0
  | _ => 1

/-- How an access to the register range ends. -/
inductive RegRes where
  | ok (v : Word)
  /-- A reserved offset, or nothing answers (R4, R23, R35). -/
  | bus (gap : Bool)
deriving DecidableEq, Repr

/-! ## Reads -/

/-- Is the address a doorbell, with its ring (R26)? -/
def bellAt (addr : Nat) : Option Nat := if 0x02F00000 ≤ addr ∧ addr < 0x02F04000 then some ((addr - 0x02F00000) / 4) else none

/-- The offset in the MSI-X table, or 0x400 on in the pending bits (R322). -/
def msixAt (addr : Nat) : Option Nat :=
  if 0x02004000 ≤ addr ∧ addr < 0x02004400 then some (addr - 0x02004000)
  else if 0x02005000 ≤ addr ∧ addr < 0x02005008 then some (0x400 + (addr - 0x02005000)) else none

/-- The read of a register with its side effects, and its value. -/
def regReadCore (k : RegClass) (ix : List Nat) (addr : Nat) (d : Dev) : Dev × Word :=
  let i := ix.headD 0
  match k.name with
  | .GLB_TIME_LO => timeLoRead d
  | .GLB_TIME_HI => (d, w32 (d.time.master / 2 ^ 32))
  | .GLB_PCIE_STAT => (d.modPcie fun p => { p with statSeen := false }, (plainRead addr d).2)
  | .FBK_IDX_STAT => idxStatRead i d
  | .FLX_CAP_T_HI_SNAP => capSnapRead (i * 16 + ix.getD 1 0) d
  | .PLN_LS_DATA_LO => lawStoreRead i d
  | .TMR_CNT => tmrCntRead i d
  | .TMR_CAP => tmrCapRead i d
  | .CHS_OUTQ => chsOutqRead i d
  | .ANV_INT_PEND_LO => (d, d.pendWord i 0)
  | .ANV_INT_PEND_HI => (d, d.pendWord i 32)
  | .PWM_STAT => let x := plainRead addr d; (x.1, fput PWM_STAT_cnt x.2 (d.pwmCount i))
  | .FBK_STAT => let x := plainRead addr d; (x.1, fput FBK_STAT_ser_stale x.2 (b2n (d.serialStale i)))
  | .AXS_SEG_STAT => let x := plainRead addr d; (x.1, fput AXS_SEG_STAT_ist x.2 (d.istOf i))
  | .FLX_GRP_STAT => let x := plainRead addr d; (x.1, fput FLX_GRP_STAT_gst x.2 (d.gstOf i))
  | .CHS_CTL => let x := plainRead addr d; (x.1, fput CHS_CTL_pc x.2 (d.nextFetch i))
  | .LDL_RING_STAT => let x := plainRead addr d; (x.1, d.ringStat i)
  | .AXS_STATE =>
    let x := plainRead addr d
    (x.1, if (d.cluster (axCl i)).halted ∧ d.axSt i ≠ stRetired then fput AXS_STATE_state x.2 5 else x.2)
  | _ => plainRead addr d

/-- A read of a register by a master; with peek it has no side effect (R474). Assumption 16 (DESIGN CHOICE). -/
def regRead (w : Writer) (peek : Bool) (addr : Nat) (d : Dev) : Dev × RegRes :=
  if d.regDead w addr then (d, .bus false)
  else if w = .ladle ∧ 0x02300000 ≤ addr ∧ addr < 0x02400000 then (d, .bus false)
  else if hlmHidden addr then
    (if w = .host then (d, .ok 0)
     else if writerRing w = 0 then (d.bump, .ok (w32 d.open_)) else (d, .bus false))
  else match bellAt addr, msixAt addr, plnWindow addr with
    | some r, _, _ => (d, .ok (d.bellRead r))
    | none, some o, _ => (d, .ok (msixRead o d))
    | none, none, some (n, s, i, var) => (d, .ok (d.windowRead n s i var))
    | none, none, none =>
      match regAt addr with
      | none => (d, .bus true)
      | some (k, ix) =>
        let x := regReadCore k ix addr d
        (if peek then d else x.1, .ok x.2)

/-! ## Writes -/

/-- The write of a register of the GLB block. A sync_period below 800, an out_offset not below out_period and an out_width
outside 8 to out_period - 8 are stored and used as written. Assumption 18 (DESIGN CHOICE). -/
def glbWrite (nm : RegName) (w : Writer) (addr : Nat) (v : Word) (imgs : List CoreImage) (x : MD) : MD :=
  match nm with
  | .GLB_TIME_STEP => (x.1, timeStepWrite w v x.2)
  | .GLB_CLK_TRIM => (x.1, clkTrimWrite w v x.2)
  | .GLB_SYNC_OUT_PERIOD | .GLB_SYNC_OUT_OFFSET => (x.1, syncOutWrite w addr v x.2)
  | .GLB_RST_CTL => rstCtlWrite w v imgs x
  | .GLB_PCIE_CTL => (x.1, pcieCtlPlain w v x.2)
  | _ => (x.1, plainWrite w addr v x.2)

/-- The block that takes the write of a register of this class. -/
def regWriteBlock (k : RegClass) (ix : List Nat) (w : Writer) (addr : Nat) (v : Word) (imgs : List CoreImage) (x : MD) : MD :=
  let only := fun (f : Dev → Dev) => (x.1, f x.2)
  if k.unlock.isSome ∧ unlockOf k addr = some addr then only (unlockRegWrite w addr v)
  else if addr < 0x02100000 then
    match k.name with
    | .ING_BANK_OWN | .ING_BANK_SHARE => only (ingWrite k.name ix w addr v)
    | .ASY_PAIR_CTL | .ASY_INA_MAP => only (asyWrite k.name ix w addr v)
    | .ANV_WDT_CFG | .ANV_WDT_KICK => only (anvWrite k.name ix w addr v)
    | nm => glbWrite nm w addr v imgs x
  else if addr < 0x02200000 then only (ldlWrite k.name w addr v)
  else if addr < 0x02400000 then only (plainWrite w addr v)
  else if addr < 0x02410000 then only (semWrite k.name w addr v)
  else if addr < 0x02500000 then only (sldWrite k.name ix w addr v)
  else if addr < 0x02600000 then only (cruWrite k.name ix w addr v)
  else if addr < 0x02700000 then only (tchWrite k.name w addr v)
  else if addr < 0x02708000 then dbgWrite k.name ix w addr v x
  else if addr < 0x02800000 then only (evcWrite k.name ix w addr v)
  else match (addr - 0x02800000) % 0x00200000 / 0x10000 with
    | 0 => only (plnWrite k.name ix w addr v)
    | 1 => only (axsWrite k.name ix w addr v)
    | 2 => only (pwmWrite k.name ix w addr v)
    | 3 => only (fbkWrite k.name ix w addr v)
    | 4 => only (drwWrite k.name ix w addr v)
    | 5 => only (tmrWrite k.name ix w addr v)
    | 6 => only (chsWrite k.name ix w addr v)
    | 7 => only (flxWrite k.name ix w addr v)
    | 8 => only (ingWrite k.name ix w addr v)
    | 9 => only (anvWrite k.name ix w addr v)
    | 10 => only (asyWrite k.name ix w addr v)
    | _ => only (evcWrite k.name ix w addr v)

/-- A write of a register by a master: its effects, and whether it was taken without a bus error. imgs are the images
that a release of clusters finds placed. Assumptions 14, 16 (DEDUCED, DESIGN CHOICE). -/
def regWrite (w : Writer) (addr : Nat) (v : Word) (imgs : List CoreImage) (x : MD) : MD × RegRes :=
  let d := x.2
  if d.regDead w addr then (x, .bus false)
  else if w = .ladle ∧ 0x02300000 ≤ addr ∧ addr < 0x02400000 then (x, .bus false)
  else if hlmHidden addr then (x, if w = .host ∨ writerRing w = 0 then .ok 0 else .bus false)
  else match bellAt addr, msixAt addr, plnWindow addr with
    | some r, _, _ => (doorbell w r v x, .ok 0)
    | none, some o, _ => ((x.1, msixWrite o v d), .ok 0)
    | none, none, some (n, s, i, var) =>
      ((x.1, closeAt w addr (if var then varWrite n s i v d else gainWrite w n s i v d)), .ok 0)
    | none, none, none =>
      match regAt addr with
      | none => ((x.1, closeAt w addr d), .bus true)
      | some (k, ix) =>
        let y := regWriteBlock k ix w addr v imgs x
        (if unlockOf k addr = some addr then y else (y.1, closeAt w addr y.2), .ok 0)

/-- REGISTER_WRITE: a write by any master; a debugger writes at FULL only (R10 to R12, R475). -/
def execRegisterWrite (w : Writer) (addr : Word) (v : Word) (s : State) : Out :=
  s.updB fun m d =>
    if addr.toNat % 4 ≠ 0 ∨ (w = .dap ∧ !d.tapFull) then (m, d)
    else (regWrite w addr.toNat v [] (m, d)).1

/-! ## BAR0 (R19, R23 to R25, R323) -/

/-- One read of a register through BAR0: what it returns. -/
def bar0Read (addr : Nat) (d : Dev) : Dev × Word :=
  match regRead .host false addr d with
  | (d1, .ok v) => (d1, v)
  | (d1, .bus _) => (d1, 0xFFFFFFFF)

/-- BAR0_REQUEST: a request of len bytes at offset x, data for a write in 4-byte words, lower address first. -/
def bar0Request (wr poisoned : Bool) (off len : Nat) (lo hi : Word) (x : MD) : MD :=
  let d := x.2
  if !d.linkUp then x
  else if d.memOff then (x.1, answerUR (!wr) d)
  else if wr && poisoned then (x.1, poisonedWrite d)
  else if 8 < len || (4 ≤ len && (decide (off % 4 ≠ 0) || decide (len % 4 ≠ 0))) then (x.1, answerCA (!wr) d)
  else
    let d1 := evcDevice 0x20A d
    let a := 0x02000000 + off
    if len < 4 then (x.1, if wr then d1 else sendUp (.cpl 0 [0xFFFFFFFF] false) d1)
    else if wr then
      let y := (regWrite .host a lo [] (x.1, d1)).1
      if len = 8 then (regWrite .host (a + 4) hi [] y).1 else y
    else
      let r := bar0Read a d1
      if len = 8 then
        let q := bar0Read (a + 4) r.1
        (x.1, sendUp (.cpl 0 [r.2, q.2] false) q.1)
      else (x.1, sendUp (.cpl 0 [r.2] false) r.1)

/-- BAR0_REQUEST. Assumption 42 (DEDUCED). -/
def execBar0Request (wr poisoned : Bool) (off : Fin 0x1000000) (len : Fin 4096) (lo hi : Word) (s : State) : Out :=
  s.updB fun m d => bar0Request wr poisoned off.val len.val lo hi (m, d)

end Sys2Proof.Machine
end

