-- ==== Sys2Proof/Machine/AnvMem.lean ====
section
/-!
DEFINITION. The memory port of an Anvil core (R242 to R246, R251, R252, R304): reads and writes at a target, the store
buffer, output queues, late failures, and the reservation stations of the side units (R253, R254).
-/
namespace Sys2Proof.Machine

/-! ## Targets -/

/-- The island of a register address (R26, R27). -/
def regIsl (a : Nat) : Nat :=
  match regCluster a with
  | some c => 0x10 + c
  | none =>
    if a < 0x02200000 then 0
    else if a < 0x02300000 then 1
    else if a < 0x02400000 then 4
    else if a < 0x02500000 then 2
    else if a < 0x02600000 then 3
    else if a < 0x02700000 then 5
    else 0

/-- The island that holds a fabric address (R15, R22). -/
def tgtIsl (a : Nat) : Nat :=
  match kindOf a with
  | .rom | .hprivate | .flash => 4
  | .ingot b _ _ => bankIsland b
  | .ddr => 1
  | .registers => regIsl a
  | .reserved => 0

/-- The core as a writer of registers, in a ring. -/
def wCore (k ring : Nat) : Writer := .core (Fin.ofNat 19 k) (Fin.ofNat 4 ring)

/-- One read by core k of a word (size 4) or a byte (size 1) at its target: the word or byte and the tag a LD gives, or
none for a bus error (R18, R22 to R24, R246, R289, R291, R413). Assumption 38 (DEDUCED). -/
def coreRead (k ring a size : Nat) (x : MD) : MD × Option (Word × Nat) :=
  let part := fun (v : Word) => if size = 1 then w32 (bits v.toNat (8 * (a % 4) + 7) (8 * (a % 4))) else v
  match kindOf a with
  | .rom => (x, if k = 18 ∧ ring = 0 then some (part (x.1.word (a / 4 * 4)), 0) else none)
  | .hprivate => (x, if k = 18 then some (part (x.1.word (a / 4 * 4)), x.1.tag (a / 4 * 4)) else none)
  | .ingot b o als =>
    match ingotRead (.core k) (x.2.mirror k b) (o / 4 * 4) x.1 x.2 with
    | (m, d, .ok v t) => if als = 0 then ((m, d), some (part v, t)) else (x, some (part v, 0))
    | (m, d, _) => ((m, d), none)
  | .registers =>
    if size ≠ 4 then (x, none)
    else match regRead (wCore k ring) false a x.2 with
      | (d, .ok v) => ((x.1, d), some (v, 0))
      | (d, .bus _) => ((x.1, d), none)
  | .flash => (x, if size ≠ 4 ∨ x.2.flashBusy a then none else some (x.1.word a, 0))
  | .ddr =>
    match ddrRead (a / 4 * 4) x.1 x.2 with
    | (m, d, .ok v _) => ((m, ddrCount false [a] d), some (part v, 0))
    | (m, d, _) => ((m, d), none)
  | .reserved => (x, none)

/-- One write by core k of a word or a byte at its target: taken, or a bus error (R22 to R24, R246, R289, R291, R413). -/
def coreWrite (k ring a size : Nat) (v : Word) (tag : Nat) (x : MD) : MD × Bool :=
  let i := a % 4
  let byte : Byte := v.setWidth 8
  let put := fun (w : Word) => putByte i byte w
  match kindOf a with
  | .rom | .flash | .reserved => (x, false)
  | .hprivate =>
    if k ≠ 18 then (x, false)
    else
      let w := a / 4 * 4
      let n := if size = 1 then put (x.1.word w) else v
      (((x.1.setWord w n).setTag w (if size = 1 then 0 else tag), clearMonitors w x.2), true)
  | .ingot b o als =>
    let b' := x.2.mirror k b
    let w := o / 4 * 4
    let r := if als ≠ 0 then
        ingotModify (.core k) b' w (aliasOp als (if size = 1 then put 0 else v)) (fun t => t) x.1 x.2
      else if size = 1 then ingotModify (.core k) b' w put (fun _ => 0) x.1 x.2
      else ingotWrite (.core k) b' w v tag x.1 x.2
    ((r.1, r.2.1), r.2.2)
  | .registers =>
    if size ≠ 4 then (x, false)
    else match regWrite (wCore k ring) a v [] x with
      | (y, .ok _) => (y, true)
      | (y, .bus _) => (y, false)
  | .ddr =>
    let r := ddrWrite a (if size = 1 then [byte] else leBytes 4 v.toNat) x.1 x.2
    ((r.1, if r.2.2 then ddrCount true [a] r.2.1 else r.2.1), r.2.2)

/-! ## The store buffer (R252, R270, R304) -/

/-- A store of core k has failed after leaving the buffer: the first failure is held, later ones are lost (R270).
Assumption 38 (DEDUCED). -/
def lateFail (k a size : Nat) (v : Word) (d : Dev) : Dev :=
  d.modCore k fun c => if c.late.isSome then { c with lateOvf := true } else { c with late := some (a, v, size) }

/-- The output queue of core k in its pair. -/
def outOf (k : Nat) (p : Pair) : List OutEnt := if isShadowCore k then p.outS else p.outP

/-- The pair and window that take a store of core k at an address (R304). -/
def Dev.windowOf (d : Dev) (k a : Nat) : Option (Nat × Nat) :=
  match pairOf k with
  | none => none
  | some q => if d.pairedQ q then (d.outWindow q a).map fun w => (q, w) else none

/-- A store that leaves the buffer of core k: to its output queue, or to its target; none while a full output queue
stalls it (R252, R304, R307). Assumption 38 (DEDUCED). -/
def storeLeave (k : Nat) (e : StoreEnt) (x : MD) : Option MD :=
  match x.2.windowOf k e.addr with
  | some (q, _) =>
    if x.2.blockedQ q then some (x.1, outDrop q 1 x.2)
    else if 8 ≤ (outOf k (x.2.pair q)).length then none
    else
      let n : OutEnt := ⟨e.addr, e.size, e.data, e.tag, e.ring⟩
      some (x.1, x.2.modCorePair q fun p =>
        if isShadowCore k then { p with outS := p.outS ++ [n] } else { p with outP := p.outP ++ [n] })
  | none =>
    match coreWrite k e.ring e.addr e.size e.data e.tag x with
    | (y, true) => some y
    | (y, false) => some (y.1, lateFail k e.addr e.size e.data y.2)

/-- Entry i of core k's store buffer leaves, where the buffer holds it and it may leave. -/
def storeDone (k i : Nat) (x : MD) : Option MD :=
  match (x.2.core k).stores[i]? with
  | none => none
  | some e => storeLeave k e (x.1, x.2.modCore k fun c => { c with stores := c.stores.eraseIdx i })

/-- The stores of core k to one island complete, oldest first; none where one of them is stalled (R20, R252). -/
def drainIsl (k isl : Nat) : Nat → MD → Option MD
  | 0, x => some x
  | n + 1, x =>
    match (x.2.core k).stores.findIdx? fun e => tgtIsl e.addr == isl with
    | none => some x
    | some i => match storeDone k i x with
      | none => none
      | some y => drainIsl k isl n y

/-- Every buffered store of core k completes (R252). -/
def drainAll (k : Nat) : Nat → MD → Option MD
  | 0, x => some x
  | n + 1, x =>
    if (x.2.core k).stores = [] then some x
    else match storeDone k 0 x with
      | none => none
      | some y => drainAll k n y

/-- STORE_COMPLETE: a buffered store completes at its target, unless an older one waits for the same island (R20, R252,
R270, R304). -/
def execStoreComplete (k : Fin 19) (n : Fin 4) (s : State) : Out :=
  s.updB fun m d =>
    let l := (d.core k.val).stores
    match l[n.val]? with
    | none => (m, d)
    | some e =>
      if !d.coreClock k.val || (l.take n.val).any (fun f => tgtIsl f.addr == tgtIsl e.addr) then (m, d)
      else (storeDone k.val n.val (m, d)).getD (m, d)

/-- A store enters the buffer, which first completes its oldest entry when it is full, and the store signature takes
address, size and data (R252, R259); none while the buffer is stalled. Assumption 38 (DEDUCED). -/
def storeEnter (k a size : Nat) (v : Word) (tag : Nat) (x : MD) : Option MD :=
  let x1 := if 4 ≤ (x.2.core k).stores.length then storeDone k 0 x else some x
  x1.map fun y => (y.1, y.2.modCore k fun c =>
    { c with stores := c.stores ++ [⟨a, size, v, tag, c.ring⟩], sig := c.sig ++ [a, size, v.toNat] })

/-- OUTPUT_COMPARE: the oldest entries of both output queues are compared; equal ones leave as one write of the primary,
unequal ones block the pair (R304, R306, R307). -/
def execOutputCompare (q : Fin 9) (s : State) : Out :=
  s.updB fun m d =>
    let q := q.val
    match (d.pair q).outP, (d.pair q).outS with
    | a :: ra, b :: rb =>
      if !d.pairRuns q || !d.pairedQ q || d.blockedQ q then (m, d)
      else if a.addr ≠ b.addr ∨ a.size ≠ b.size then
        (m, pairBlock q 3 a.addr a.data.toNat b.addr b.data.toNat d)
      else if a.data ≠ b.data then (m, pairBlock q 4 a.addr a.data.toNat b.addr b.data.toNat d)
      else
        let d1 := d.modCorePair q fun p => { p with outP := ra, outS := rb, lagT := 0 }
        let d2 := d1.incW (ASY_OUT_CNT q) ASY_OUT_CNT_out_cnt
        let d3 := if q < 8 then evcCluster (q / 2) 0x1A1 d2 else d2
        match coreWrite (primaryOf q) a.ring a.addr a.size a.data a.tag (m, d3) with
        | (y, true) => y
        | (y, false) => (y.1, lateFail (2 * q + 1) a.addr a.size a.data (lateFail (2 * q) a.addr a.size a.data y.2))
    | _, _ => (m, d)

/-! ## Reservation stations (R253 to R255) -/

/-- The side unit of an operation: MUL, MAC64, F32, SQRT, DIV, CORDIC. -/
def unitOf (op : Nat) : Nat :=
  if op ≤ 0x21 then 0 else if op = 0x22 then 1 else if op ≤ 0x27 then 2 else if op = 0x28 then 3
  else if op ≤ 0x2A then 4 else 5

/-- The operation belongs to a side unit. -/
def isSide (op : Nat) : Bool := decide (0x20 ≤ op) && decide (op ≤ 0x2C)

/-- All operands of the station stand. -/
def Stn.ready (s : Stn) : Bool := s.a.link.isNone && s.b.link.isNone

/-- The tags that the station's result takes, by what its operand tags promised at dispatch. -/
def Stn.tags (byte : Bool) (s : Stn) : List Nat :=
  match sideTags s.op byte s.r s.sub s.a.tag s.b.tag 0 0 with
  | .inr l => l
  | .inl _ => []

/-- An operand that waits for register n takes the value v. -/
def StnOp.feed (o : StnOp) (n : Nat) (v : Word) : StnOp := if o.link = some n then { o with val := v, link := none } else o

/-- Result j of a station that produces registers from d on reaches the register file and the stations behind it. -/
def sideWrite (d : Nat) : List (Word × Nat) → Core → Core
  | [], c => c
  | (v, t) :: r, c =>
    let c1 := c.setW d v t
    sideWrite (d + 1) r { c1 with stns := c1.stns.map fun s => { s with a := s.a.feed d v, b := s.b.feed d v } }

/-- The operation in station i of core k ends: results, SUERR, predicate, and the station is free (R253, R255). -/
def sideFinish (k i : Nat) (d : Dev) : Dev :=
  let c := d.core k
  match c.stns[i]? with
  | none => d
  | some s =>
    let acc := (c.wv (s.d + 1)).toNat * 2 ^ 32 + (c.wv s.d).toNat
    let r := sideCalc s.op c.byteMode s.r s.sub s.a.val s.b.val s.a.tag s.b.tag acc d.open_ d.bump.open_
    d.bump.bump.modCore k fun c =>
      let c1 := sideWrite s.d r.vals { c with stns := c.stns.eraseIdx i, suerr := c.suerr ||| r.err }
      match r.pred with
      | some b => c1.setP s.d b
      | none => c1

/-- Station i is the one its unit executes: its operands stand, and no station of the unit before it is ready. -/
def sideTurn (l : List Stn) (i : Nat) : Bool :=
  match l[i]? with
  | none => false
  | some s => s.ready && !(l.take i).any fun t => unitOf t.op == unitOf s.op && t.ready

/-- SIDE_UNIT_RESULT: the result of the station in this place reaches the register file (R253 to R255). -/
def execSideUnitResult (k : Fin 19) (n : Fin 12) (s : State) : Out :=
  s.upd fun d =>
    when (d.coreClock k.val && (d.core k.val).running && !d.locked k.val && !d.coreHalted k.val && sideTurn (d.core k.val).stns n.val)
      (sideFinish k.val n.val) d

/-- The places of the stations that must end before these registers and predicates are read or written, and of those
their units execute first. -/
def sideNeed : List (Stn × Nat) → List Nat → List Nat → List Nat → List Nat
  | [], _, _, _ => []
  | (s, i) :: older, regs, preds, units =>
    let hit := s.dests.any (regs.contains ·) || (s.op == 0x26 && preds.contains s.d) || (s.ready && units.contains (unitOf s.op))
    if hit then
      let links := s.a.link.toList ++ s.b.link.toList
      i :: sideNeed older (links ++ regs) preds (unitOf s.op :: units)
    else sideNeed older regs preds units

/-- The stations at these places, given in rising order, end. -/
def sideFinishAll (k : Nat) : List Nat → Nat → Dev → Dev
  | [], _, d => d
  | i :: is, n, d => sideFinishAll k is (n + 1) (sideFinish k (i - n) d)

/-- The core waits until no result for these registers and predicates is pending (R241, R254). -/
def settle (k : Nat) (regs preds : List Nat) (d : Dev) : Dev :=
  let need := sideNeed (d.core k).stns.zipIdx.reverse regs preds []
  sideFinishAll k need.reverse 0 d

/-- Every station of core k ends. -/
def settleAll (k : Nat) (d : Dev) : Dev := settle k (List.range 16) (List.range 8) d

/-- The place of a station of this unit that is to end first when both are occupied. -/
def unitFirst (l : List Stn) (u : Nat) : Option Nat :=
  let ours := (l.zipIdx.filter fun e => unitOf e.1.op == u)
  if ours.length < 2 then none
  else match ours.find? fun e => e.1.ready with
    | some e => some e.2
    | none => ours.head?.map (·.2)

/-- A station of the unit is free, after one has ended where both were occupied (R253). -/
def unitFree (k u : Nat) (d : Dev) : Dev :=
  match unitFirst (d.core k).stns u with
  | none => d
  | some i =>
    match (d.core k).stns[i]? with
    | some s => settle k s.dests (if s.op = 0x26 then [s.d] else []) d
    | none => d

/-- Register n as an operand at dispatch: its value, or the link to the station that produces it with the tag its result
promises (R253). -/
def Core.operand (c : Core) (n : Nat) : StnOp :=
  match c.stns.reverse.find? fun s => s.dests.contains n with
  | some s => ⟨0, (s.tags c.byteMode).getD (n - s.d) 0, some n⟩
  | none => ⟨c.wv n, c.tag n, none⟩

end Sys2Proof.Machine
end

