-- ==== Sys2Proof/Machine/AnvStep.lean ====
section
/-!
DEFINITION. One instruction of an Anvil core (R239 to R260, R267 to R269): when it may run, its guard, the results it waits
for, break and watch units, repeats, and what follows it.
-/
namespace Sys2Proof.Machine

/-! ## What an instruction waits for (R241, R254) -/

/-- The registers an instruction reads or writes; a side-unit instruction links its sources instead (R253, R254). -/
def iwRegs (w : Word) : List Nat :=
  let op := iwOp w
  let d := iwD w
  if op = 0x00 ∨ op = 0x1E ∨ op = 0x1F ∨ op = 0x2F ∨ op = 0x38 ∨ op = 0x39 ∨ op = 0x3A ∨ op = 0x3F then []
  else if op ≤ 0x0A then [d, iwA w, iwB w]
  else if op ≤ 0x0D then [d, iwA w]
  else if op ≤ 0x0F then [d]
  else if op ≤ 0x16 then [d, iwA w]
  else if op = 0x17 then (if bit w.toNat 13 then [iwA w] else [])
  else if op ≤ 0x19 then [d]
  else if op ≤ 0x1B then [d, iwA w]
  else if op = 0x1C then [iwA w, iwB w]
  else if op = 0x1D then [iwCiA w]
  else if op = 0x26 then []
  else if op = 0x22 ∨ op = 0x2B ∨ op = 0x2C then [d, d + 1]
  else if op ≤ 0x2C then [d]
  else if op = 0x2D then [d]
  else if op = 0x2E then List.range 16
  else if op ≤ 0x35 then (if bits w.toNat 17 16 = 0 then [d] else [d, bits w.toNat 15 12])
  else if op = 0x36 then [d, iwA w]
  else if op = 0x37 then [d, iwA w, iwB w]
  else if op = 0x3B then [14]
  else if op = 0x3C then [iwA w]
  else if w.toNat % 4 = 1 then List.range 16
  else []

/-- The predicates an instruction reads or writes beside its guard. -/
def iwPreds (w : Word) : List Nat :=
  let op := iwOp w
  if op = 0x0E ∨ op = 0x0F then (if w.toNat % 64 = 0x09 then List.range 8 else [])
  else if op = 0x1C ∨ op = 0x1D ∨ op = 0x26 then [iwPd w]
  else if op = 0x1E then [iwPd w, iwCiCc w, bits w.toNat 15 13]
  else if op = 0x2E ∨ (op = 0x3D ∧ w.toNat % 4 = 1) then List.range 8
  else []

/-! ## Repeats and the next instruction -/

/-- The core goes on with the next instruction, or with the next iteration of an active repeat (R256, R257). -/
def anvNext (c : Core) : Core :=
  match c.rep with
  | some r =>
    if 2 ≤ r.left then { c with rep := some { r with left := r.left - 1 } }
    else { c with rep := none, pc := (c.pc + 4) % 2 ^ 32, pfq := c.pfq.drop 1 }
  | none => { c with pc := (c.pc + 4) % 2 ^ 32, pfq := c.pfq.drop 1 }

/-- The core skips an instruction whose guard is false, which ends a repeat (R241, R256). -/
def anvSkip (c : Core) : Core := { c with rep := none, pc := (c.pc + 4) % 2 ^ 32, pfq := c.pfq.drop 1 }

/-- The core continues at the target of a taken branch, which flushes the prefetch queue (R251). -/
def anvJump (a : Nat) (c : Core) : Core := { c with pc := a % 2 ^ 32, pfq := [] }

/-- The source that counts executed instructions of core k (R484). -/
def executedEvc (k : Nat) (d : Dev) : Dev :=
  if k < 16 then evcCluster (k / 4) (0x180 + k % 4) d
  else if k < 18 then evcDevice (0x210 + (k - 16)) d else d

/-- A core stepped by the debugger halts again, alone (R478). -/
def stepEnd (k : Nat) (d : Dev) : Dev :=
  if !(d.core k).stepping then d
  else
    let d1 := (d.setB (ANV_CTL k) ANV_CTL_halted true).modCore k fun c => { c with monitor := none, stepping := false, load := none }
    d1.setF DBG_STAT DBG_STAT_bench_halted (setBit (d1.fld DBG_STAT DBG_STAT_bench_halted) (k - 16) true)

/-- The end of an instruction boundary's work: the prefetch queue takes words as the port allows, which the spec bounds
but does not place in the order of rows, and a stepped core halts (R251, R478). -/
def anvEnd (k : Nat) (x : MD) : MD :=
  let y := prefetch k (x.2.open_ % 5) (x.1, x.2.bump)
  (y.1, stepEnd k y.2)

/-- An executed instruction ends. -/
def anvDone (k : Nat) (jump : Option Nat) (x : MD) : MD :=
  let d := executedEvc k x.2
  anvEnd k (x.1, d.modCore k fun c => match jump with
    | some a => anvJump a c
    | none => anvNext c)

/-! ## Break and watch units -/

/-- The units that match, beside what they do: 0 count, 1 the BRK exception, 2 a halt (R480). -/
def bwAct (k : Nat) (acc : List (Nat × Nat × Word)) (d : Dev) : Nat × List Nat :=
  let us := d.bwMatches k acc
  let a := fun (u : Nat) => d.fld (DBG_BW_CFG k u) DBG_BW_CFG_action
  if us.any fun u => a u == 2 then (2, us) else if us.any fun u => a u == 1 then (1, us) else (0, us)

/-- A halt by unit u of core k: of its cluster, or of the bench core (R476, R478, R480). -/
def bwHalt (k u : Nat) (d : Dev) : Dev := if k < 16 then haltStart (k / 4) 4 (k % 4 * 4 + u) d else benchHalt k d

/-- What the break and watch units do about an instruction with these accesses that would have this outcome: a break
or a halt takes its place (R479, R480). pre is the state before its effect. -/
def bwThen (k : Nat) (acc : List (Nat × Nat × Word)) (pre : MD) (go : MD → MD) (done : MD) : MD :=
  match bwAct k acc pre.2 with
  | (0, us) => go (done.1, us.foldl (bwMark k) done.2)
  | (1, us) => let y := anvExc k 15 0 0 0 (pre.1, us.foldl (bwMark k) pre.2)
    (y.1, stepEnd k y.2)
  | (_, us) =>
    let u := (us.find? fun u => pre.2.fld (DBG_BW_CFG k u) DBG_BW_CFG_action == 2).getD 0
    (pre.1, bwHalt k u (us.foldl (bwMark k) pre.2))

/-! ## The instruction -/

/-- Core k stands at an instruction boundary and goes on with an instruction: it runs, waits for nothing, and nothing of
higher order is due (R267, R277, R310). -/
def Dev.anvReady (d : Dev) (k : Nat) : Bool :=
  let c := d.core k
  d.coreLive k && !c.waiting && !c.mergeWait && c.load.isNone && c.late.isNone && !d.intReady k &&
    !(match pairOf k with
      | some q => (d.pair q).copying
      | none => false)

/-- An instruction w of core k with its outcome on the state pre: exceptions of numbers 4 to 13 come before a break, all
others after it (R267, R480). -/
def anvOutcome (k : Nat) (w : Word) (old pre : MD) (r : Res) : MD :=
  let pc := (pre.2.core k).pc
  match r with
  | .wait => old
  | .begun z => z
  | .excAt z n fa =>
    let y := anvExc k n 0 fa 0 z
    (y.1, stepEnd k y.2)
  | .exc n detail fa fd =>
    if n ≤ 13 then
      let y := anvExc k n detail fa fd pre
      (y.1, stepEnd k y.2)
    else bwThen k [(0, pc, w)] pre (fun z =>
      let y := anvExc k n detail fa fd z
      (y.1, stepEnd k y.2)) pre
  | .ok z acc jump => bwThen k ((0, pc, w) :: acc) pre (anvDone k jump) z

/-- The fetched instruction w of core k under its guard, with the meaning sem (R241, R254). -/
def anvRun (k : Nat) (w : Word) (sem : Nat → Word → MD → Res) (old x : MD) : MD :=
  let d1 := settle k [] [iwPg w] x.2
  if (d1.core k).pred (iwPg w) == iwPn w then anvEnd k (x.1, d1.modCore k anvSkip)
  else
    let pre := (x.1, settle k (iwRegs w) (iwPreds w) d1)
    anvOutcome k w old pre (sem k w pre)

/-- A fetch of core k that fails raises NX_FETCH or FETCH_BUS (R243, R266, R267). -/
def anvFetchFail (k n : Nat) (x : MD) : MD :=
  let y := anvExc k n 0 0 0 x
  (y.1, stepEnd k y.2)

/-- Core k carries out its next instruction where that is the one that op and pick name; an instruction of another kind,
or one that raises UNDEF for its encoding, belongs to another row. -/
def anvStep (op : Nat) (pick : Word → Bool) (sem : Nat → Word → MD → Res) (k : Fin 19) (s : State) : Out :=
  s.updB fun m d =>
    if !d.anvReady k.val then (m, d)
    else match anvFetch k.val (m, d) with
      | (x, .inl n) => anvFetchFail k.val n x
      | (x, .inr w) =>
        if iwOp w ≠ op ∨ !pick w ∨ iwUndef (d.core k.val).byteMode w then (m, d)
        else anvRun k.val w sem (m, d) x

/-- Any word of the operation. -/
def anyWord (_ : Word) : Bool := true

/-- UNDEF_ENCODING: a reserved encoding raises UNDEF whatever its guard, before any effect (R248, R260). -/
def execUndefEncoding (k : Fin 19) (s : State) : Out :=
  s.updB fun m d =>
    if !d.anvReady k.val then (m, d)
    else match anvFetch k.val (m, d) with
      | (x, .inl n) => anvFetchFail k.val n x
      | (x, .inr w) =>
        if !iwUndef (d.core k.val).byteMode w then (m, d)
        else anvFetchFail k.val 6 x

/-- A core's register d written, nothing else touched. -/
def setReg (k n : Nat) (v : Word) (t : Nat) (x : MD) : MD := (x.1, x.2.modCore k (·.setW n v t))

/-- An outcome that writes one register. -/
def okReg (k n : Nat) (x : MD) (v : Word) (t : Nat) : Res := .ok (setReg k n v t x) [] none

/-- An outcome that writes one predicate. -/
def okPred (k n : Nat) (x : MD) (b : Bool) : Res := .ok (x.1, x.2.modCore k (·.setP n b)) [] none

/-- A tagged result into a register, or its exception. -/
def taggedTo (k n : Nat) (x : MD) (r : Tagged) : Res :=
  match r with
  | .inl e => .exc e 0 0 0
  | .inr (v, t) => okReg k n x v t

end Sys2Proof.Machine
end

