-- ==== Sys2Proof/Machine/AnvOps.lean ====
section
/-!
DEFINITION. The Anvil instructions on registers: ALU, immediates, predicates, special registers, repeats, branches, and the
dispatch to side units (R240, R247 to R250, R253, R256, R257).
-/
namespace Sys2Proof.Machine

/-! ## ALU (R247, R248, R250) -/

/-- d ← a op b. -/
def aluR (k : Nat) (w : Word) (x : MD) : Res :=
  let c := x.2.core k
  taggedTo k (iwD w) x (alu2 (iwOp w) c.byteMode (iwR w) (c.wv (iwA w)) (c.wv (iwB w)) (c.tag (iwA w)) (c.tag (iwB w)))

/-- d ← op a. -/
def aluU (k : Nat) (w : Word) (x : MD) : Res :=
  let c := x.2.core k
  taggedTo k (iwD w) x (alu1 (iwOp w) c.byteMode (iwR w) (c.wv (iwA w)) (c.tag (iwA w)))

/-- d ← a op an immediate, with op the register form's code; tb is the immediate's tag. -/
def aluI (op : Nat) (imm : Word) (tb : Nat → Nat) (k : Nat) (w : Word) (x : MD) : Res :=
  let c := x.2.core k
  taggedTo k (iwD w) x (alu2 op c.byteMode false (c.wv (iwA w)) imm (c.tag (iwA w)) (tb (c.tag (iwA w))))

/-- The immediate forms of ADD, AND, OR and XOR: a signed immediate. Assumption 36 (DEDUCED). -/
def aluImm (op : Nat) (k : Nat) (w : Word) (x : MD) : Res := aluI op (wI (iwImm14 w)) immTag k w x

/-- The immediate shifts: the count is an INT. Assumption 36 (DEDUCED). -/
def aluShift (op : Nat) (k : Nat) (w : Word) (x : MD) : Res := aluI op (w32 (w.toNat % 32)) (fun _ => tINT) k w x

/-- NOP. -/
def execNop (k : Fin 19) (s : State) : Out := anvStep 0x00 anyWord (fun _ _ x => .ok x [] none) k s
/-- ADD. -/
def execAdd (k : Fin 19) (s : State) : Out := anvStep 0x01 anyWord aluR k s
/-- SUB. -/
def execSub (k : Fin 19) (s : State) : Out := anvStep 0x02 anyWord aluR k s
/-- AND. -/
def execAnd (k : Fin 19) (s : State) : Out := anvStep 0x03 anyWord aluR k s
/-- OR. -/
def execOr (k : Fin 19) (s : State) : Out := anvStep 0x04 anyWord aluR k s
/-- XOR. -/
def execXor (k : Fin 19) (s : State) : Out := anvStep 0x05 anyWord aluR k s
/-- SHL. -/
def execShl (k : Fin 19) (s : State) : Out := anvStep 0x06 anyWord aluR k s
/-- SHR. -/
def execShr (k : Fin 19) (s : State) : Out := anvStep 0x07 anyWord aluR k s
/-- SHRU. -/
def execShru (k : Fin 19) (s : State) : Out := anvStep 0x08 anyWord aluR k s
/-- MIN. -/
def execMin (k : Fin 19) (s : State) : Out := anvStep 0x09 anyWord aluR k s
/-- MAX. -/
def execMax (k : Fin 19) (s : State) : Out := anvStep 0x0A anyWord aluR k s
/-- MOV. -/
def execMov (k : Fin 19) (s : State) : Out := anvStep 0x0B anyWord aluU k s
/-- NEG. -/
def execNeg (k : Fin 19) (s : State) : Out := anvStep 0x0C anyWord aluU k s
/-- ABS. -/
def execAbs (k : Fin 19) (s : State) : Out := anvStep 0x0D anyWord aluU k s
/-- ADDI. -/
def execAddi (k : Fin 19) (s : State) : Out := anvStep 0x10 anyWord (aluImm 0x01) k s
/-- ANDI. -/
def execAndi (k : Fin 19) (s : State) : Out := anvStep 0x11 anyWord (aluImm 0x03) k s
/-- ORI. -/
def execOri (k : Fin 19) (s : State) : Out := anvStep 0x12 anyWord (aluImm 0x04) k s
/-- XORI. -/
def execXori (k : Fin 19) (s : State) : Out := anvStep 0x13 anyWord (aluImm 0x05) k s
/-- SHLI. -/
def execShli (k : Fin 19) (s : State) : Out := anvStep 0x14 anyWord (aluShift 0x06) k s
/-- SHRI. -/
def execShri (k : Fin 19) (s : State) : Out := anvStep 0x15 anyWord (aluShift 0x07) k s
/-- SHRUI. -/
def execShrui (k : Fin 19) (s : State) : Out := anvStep 0x16 anyWord (aluShift 0x08) k s

/-! ## Constants, tags and predicates (R249, R250) -/

/-- LDI: the sign-extended immediate, RAW. -/
def execLdi (k : Fin 19) (s : State) : Out :=
  anvStep 0x18 anyWord (fun k w x => okReg k (iwD w) x (wI (sx 16 (iwImm16 w))) tRAW) k s

/-- LDIH: the upper half; the tag is kept. -/
def execLdih (k : Fin 19) (s : State) : Out :=
  anvStep 0x19 anyWord (fun k w x =>
    let c := x.2.core k
    okReg k (iwD w) x (fput ⟨16, 16⟩ (c.wv (iwD w)) (iwImm16 w)) (c.tag (iwD w))) k s

/-- TAG: d ← a with a new tag. -/
def execTag (k : Fin 19) (s : State) : Out :=
  anvStep 0x1A anyWord (fun k w x => okReg k (iwD w) x ((x.2.core k).wv (iwA w)) (w.toNat % 16)) k s

/-- GTAG: the tag of a as INT. -/
def execGtag (k : Fin 19) (s : State) : Out :=
  anvStep 0x1B anyWord (fun k w x => okReg k (iwD w) x (w32 ((x.2.core k).tag (iwA w))) tINT) k s

/-- A comparison into a predicate, or its exception. Assumption 36 (DEDUCED). -/
def cmpTo (k pd : Nat) (x : MD) (r : Nat ⊕ Bool) : Res :=
  match r with
  | .inl e => .exc e 0 0 0
  | .inr b => okPred k pd x b

/-- CMP. -/
def execCmp (k : Fin 19) (s : State) : Out :=
  anvStep 0x1C anyWord (fun k w x =>
    let c := x.2.core k
    cmpTo k (iwPd w) x (cmpTagged c.byteMode (iwCr w) (iwCc w) (c.wv (iwA w)) (c.wv (iwB w)) (c.tag (iwA w)) (c.tag (iwB w)))) k s

/-- CMPI. -/
def execCmpi (k : Fin 19) (s : State) : Out :=
  anvStep 0x1D anyWord (fun k w x =>
    let c := x.2.core k
    let t := c.tag (iwCiA w)
    cmpTo k (iwPd w) x (cmpTagged c.byteMode false (iwCiCc w) (c.wv (iwCiA w)) (wI (iwImm12 w)) t (immTag t))) k s

/-- PLOG. -/
def execPlog (k : Fin 19) (s : State) : Out :=
  anvStep 0x1E anyWord (fun k w x =>
    let c := x.2.core k
    let a := c.pred (iwCiCc w)
    let b := c.pred (bits w.toNat 15 13)
    okPred k (iwPd w) x (match bits w.toNat 12 11 with
      | 0 => a && b
      | 1 => a || b
      | 2 => a != b
      | _ => a && !b)) k s

/-- MOVBK. -/
def execMovbk (k : Fin 19) (s : State) : Out :=
  anvStep 0x38 anyWord (fun k w x => .ok (x.1, x.2.modCore k fun c => { c with bk := iwImm16 w }) [] none) k s

/-! ## Special registers (R240, R261) -/

/-- CORE_STAT. -/
def Core.coreStat (c : Core) : Nat :=
  b2n c.late.isSome * 2048 + b2n c.monitor.isSome * 1024 + b2n c.df * 512 + c.ipl % 16 * 16 + b2n c.ie * 4 + c.ring % 4

/-- The special register of this number, as core k reads it; none where none has the number. -/
def Dev.special (d : Dev) (k n : Nat) : Option Nat :=
  let c := d.core k
  match n with
  | 0x00 => some (c.bk % 65536)
  | 0x01 => some c.tsr
  | 0x02 | 0x03 | 0x04 | 0x05 => some (mget 0 c.tsbp (n - 2))
  | 0x06 => some (c.ctxid % 65536)
  | 0x07 => some 0x00010002
  | 0x08 => some (b2n c.byteMode)
  | 0x09 => some (c.p / 2 * 2 % 256 + 1)
  | 0x0A => some c.coreStat
  | 0x0B => some c.suerr
  | 0x0C => some ((d.coreCyc k - c.cycBase) % 2 ^ 32)
  | 0x0D => some c.cycHi
  | _ => none

/-- MFS: d ← special register, RAW; the read of CYC_LO captures the high half. -/
def mfs (k : Nat) (w : Word) (x : MD) : Res :=
  let n := w.toNat % 64
  match x.2.special k n with
  | none => .exc 6 0 0 0
  | some v =>
    let d1 := when (n == 0x0C) (·.modCore k fun c => { c with cycHi := (x.2.coreCyc k - c.cycBase) / 2 ^ 32 % 2 ^ 32 }) x.2
    okReg k (iwD w) (x.1, d1) (w32 v) tRAW

/-- MFS. -/
def execMfs (k : Fin 19) (s : State) : Out := anvStep 0x0E anyWord mfs k s

/-- What MTS of v does to special register n. -/
def mtsPut (n : Nat) (v : Word) (c : Core) : Core :=
  match n with
  | 0x00 => { c with bk := v.toNat % 65536 }
  | 0x01 => { c with tsr := v.toNat }
  | 0x02 | 0x03 | 0x04 | 0x05 => { c with tsbp := mset 0 c.tsbp (n - 2) v.toNat }
  | 0x06 => { c with ctxid := v.toNat % 65536 }
  | 0x09 => { c with p := v.toNat % 256 / 2 * 2 }
  | 0x0A => { c with ie := bit v.toNat 2, ipl := bits v.toNat 7 4 }
  | _ => { c with suerr := c.suerr &&& ((2 ^ 32 - 1) ^^^ v.toNat) }

/-- The highest ring that may write special register n; none for one that is read-only or does not exist. -/
def mtsRing (n : Nat) : Option Nat :=
  match n with
  | 0x00 | 0x09 | 0x0B => some 3
  | 0x01 | 0x02 | 0x03 | 0x04 | 0x05 | 0x0A => some 0
  | 0x06 => some 1
  | _ => none

/-- MTS: special register ← Wd (R240). -/
def mts (k : Nat) (w : Word) (x : MD) : Res :=
  let n := w.toNat % 64
  let c := x.2.core k
  match mtsRing n with
  | none => .exc 6 0 0 0
  | some r => if r < c.ring then .exc 7 0 0 0 else .ok (x.1, x.2.modCore k (mtsPut n (c.wv (iwD w)))) [] none

/-- MTS. -/
def execMts (k : Fin 19) (s : State) : Out := anvStep 0x0F anyWord mts k s

/-! ## Repeats (R256, R257) -/

/-- The word after the core's instruction, where it can be fetched. Assumption 39 (DEDUCED). -/
def anvPeekNext (k : Nat) (x : MD) : Option Word :=
  match (anvFetch k (x.1, x.2.modCore k fun c => { c with pc := (c.pc + 4) % 2 ^ 32, pfq := c.pfq.drop 1 })).2 with
  | .inr w => some w
  | .inl _ => none

/-- A repeat of n iterations of the next instruction begins; with none of them, the instruction is skipped. The core
has moved on to that instruction, and the end of this one takes one off the count. -/
def repBegin (k : Nat) (form : Bool) (n : Nat) (x : MD) : Res :=
  .ok (x.1, x.2.modCore k fun c =>
    { c with pc := (c.pc + 4) % 2 ^ 32, pfq := c.pfq.drop 1, rep := if n = 0 then none else some ⟨form, n + 1⟩ }) [] none

/-- The count of REP: the immediate plus 1, or Wa. -/
def repCount (c : Core) (w : Word) : Nat := if bit w.toNat 13 then (c.wv (iwA w)).toNat else bits w.toNat 11 0 + 1

/-- A repeat prefix: UNDEF where the next instruction is not one it accepts, or the count is too large.
Assumption 39 (DEDUCED). -/
def repSem (form : Bool) (accepts : Nat → Bool) (count : Core → Word → Nat) (k : Nat) (w : Word) (x : MD) : Res :=
  let bad := match anvPeekNext k x with
    | some v => !accepts (iwOp v)
    | none => false
  let n := count (x.2.core k) w
  if bad || 4096 < n then .exc 6 0 0 0 else repBegin k form n x

/-- REP. -/
def execRep (k : Fin 19) (s : State) : Out := anvStep 0x17 anyWord (repSem false repAccepts repCount) k s

/-- REPN. -/
def execRepn (k : Fin 19) (s : State) : Out :=
  anvStep 0x1F anyWord (repSem true repnAccepts fun _ w => w.toNat % 4 + 1) k s

/-! ## Branches (R250) -/

/-- The target of a branch with a word offset from its own address. -/
def brTarget (c : Core) (w : Word) : Nat := wrapN 32 ((c.pc : Int) + 4 * iwOff22 w)

/-- BR. -/
def execBr (k : Fin 19) (s : State) : Out :=
  anvStep 0x3A anyWord (fun k w x => .ok x [] (some (brTarget (x.2.core k) w))) k s

/-- CALL: W14 takes the return address, tag PTR, or RAW in byte mode. -/
def execCall (k : Fin 19) (s : State) : Out :=
  anvStep 0x3B anyWord (fun k w x =>
    let c := x.2.core k
    .ok (setReg k 14 (w32 (c.pc + 4)) (if c.byteMode then tRAW else tPTR) x) [] (some (brTarget c w))) k s

/-- The exception of a base register's tag, 8 or 9; none for PTR, INT and RAW, and in byte mode (R242). -/
def baseBad (c : Core) (n : Nat) : Option Nat :=
  let t := c.tag n
  if c.byteMode then none else if t = tPOISON then some 8 else if t = tPTR ∨ t = tINT ∨ t = tRAW then none else some 9

/-- JR: the target's tag as a base, which r = 1 does not look at, then its alignment (R247, R250). Assumption 36 (DEDUCED). -/
def execJr (k : Fin 19) (s : State) : Out :=
  anvStep 0x3C anyWord (fun k w x =>
    let c := x.2.core k
    let a := (c.wv (iwA w)).toNat
    match (if iwR w then none else baseBad c (iwA w)) with
    | some e => .exc e 0 0 0
    | none => if a % 4 ≠ 0 then .exc 10 0 a 0 else .ok x [] (some a)) k s

/-! ## Side units (R253) -/

/-- Dispatch to a side unit: the tags are checked, a station of the unit is freed where both are occupied, and the
operation enters its station with the operands that stand and links to those that do not; an operation of one operand
records 0 for b. -/
def sideSem (a : Word → Nat) (b : Option (Word → Nat)) (sub : Word → Nat) (raw : Word → Bool) (dst : Word → Nat) (k : Nat) (w : Word) (x : MD) : Res :=
  let op := iwOp w
  let d0 := unitFree k (unitOf op) x.2
  let c := d0.core k
  let p := c.operand (a w)
  let q := match b with
    | some g => c.operand (g w)
    | none => ⟨0, 0, none⟩
  match sideTags op c.byteMode (raw w) (sub w) p.tag q.tag (c.tag (dst w)) (c.tag (dst w + 1)) with
  | .inl n => .exc n 0 0 0
  | .inr _ => .ok (x.1, d0.modCore k fun c => { c with stns := c.stns ++ [⟨op, dst w, raw w, sub w, p, q⟩] }) [] none

/-- The R-format side-unit instructions. -/
def sideR (k : Nat) (w : Word) (x : MD) : Res := sideSem iwA (some iwB) (fun _ => 0) iwR iwD k w x

/-- Those of one operand, whose b takes no part. -/
def sideOne (k : Nat) (w : Word) (x : MD) : Res := sideSem iwA none (fun _ => 0) iwR iwD k w x

/-- MUL. -/
def execMul (k : Fin 19) (s : State) : Out := anvStep 0x20 anyWord sideR k s
/-- MULH. -/
def execMulh (k : Fin 19) (s : State) : Out := anvStep 0x21 anyWord sideR k s
/-- MAC. -/
def execMac (k : Fin 19) (s : State) : Out := anvStep 0x22 anyWord sideR k s
/-- FADD. -/
def execFadd (k : Fin 19) (s : State) : Out := anvStep 0x23 anyWord sideR k s
/-- FSUB. -/
def execFsub (k : Fin 19) (s : State) : Out := anvStep 0x24 anyWord sideR k s
/-- FMUL. -/
def execFmul (k : Fin 19) (s : State) : Out := anvStep 0x25 anyWord sideR k s
/-- FCMP. -/
def execFcmp (k : Fin 19) (s : State) : Out :=
  anvStep 0x26 anyWord (fun k w x => sideSem iwA (some iwB) iwCc iwCr iwPd k w x) k s
/-- FCVT. -/
def execFcvt (k : Fin 19) (s : State) : Out :=
  anvStep 0x27 anyWord (fun k w x => sideSem iwA none (fun v => v.toNat % 8) (fun _ => false) iwD k w x) k s
/-- SQRT. -/
def execSqrt (k : Fin 19) (s : State) : Out := anvStep 0x28 anyWord sideOne k s
/-- DIV. -/
def execDiv (k : Fin 19) (s : State) : Out := anvStep 0x29 anyWord sideR k s
/-- REM. -/
def execRem (k : Fin 19) (s : State) : Out := anvStep 0x2A anyWord sideR k s
/-- SINCOS. -/
def execSincos (k : Fin 19) (s : State) : Out := anvStep 0x2B anyWord sideOne k s
/-- ATAN2. -/
def execAtan2 (k : Fin 19) (s : State) : Out := anvStep 0x2C anyWord sideR k s

end Sys2Proof.Machine
end

