-- ==== Sys2Proof/Machine/AnvLoad.lean ====
section
/-!
DEFINITION. Loads, stores, exclusive accesses, agreed inputs, checkpoints and SYNC.S of the Anvil cores (R242 to R246, R251,
R252, R258, R259, R270, R279).
-/
namespace Sys2Proof.Machine

/-! ## Addresses (R242) -/

/-- The short form's address, or that of a base and an offset in units: in byte mode 16 bits of it, extended by BK. -/
def baseAddr (c : Core) (base : Word) (off : Int) : Nat :=
  if c.byteMode then c.bk % 65536 * 65536 + wrapN 16 ((base.toNat : Int) + off) else wrapN 32 ((base.toNat : Int) + off)

/-- The address form of a memory instruction. -/
def iwAm (w : Word) : Nat := bits w.toNat 17 16

/-- Its base register. -/
def iwBase (w : Word) : Nat := bits w.toNat 15 12

/-- Its offset in bytes. -/
def iwOff (w : Word) (size : Nat) : Int := sx 12 (bits w.toNat 11 0) * size

/-- The fabric address of a memory instruction. -/
def memAddr (c : Core) (w : Word) (size : Nat) : Nat :=
  match iwAm w with
  | 0 => c.bk % 65536 * 65536 + iwImm16 w
  | 1 => baseAddr c (c.wv (iwBase w)) (iwOff w size)
  | _ => baseAddr c (c.wv (iwBase w)) 0

/-- The base register after a post-increment, with its tag kept. -/
def postInc (w : Word) (size : Nat) (c : Core) : Core :=
  if iwAm w = 2 then c.setW (iwBase w) (wI (sgn (c.wv (iwBase w)) + iwOff w size)) (c.tag (iwBase w)) else c

/-- The exception that the address of an access raises before anything is accessed: base tag, ALIGN, PROT (R242, R243,
R266, R267). -/
def accessBad (k a size right : Nat) (tagged : Option Nat) (d : Dev) : Option Nat :=
  match tagged with
  | some e => some e
  | none =>
    if size = 4 ∧ a % 4 ≠ 0 then some 10
    else if !(d.rights k (d.core k).ring a).testBit right then some 11 else none

/-- The exception of the base register's tag of a memory instruction. -/
def memBase (c : Core) (w : Word) : Option Nat := if iwAm w = 0 then none else baseBad c (iwBase w)

/-! ## Loads -/

/-- An own queued entry for the window of this address stands, so a load of core k waits (R304). -/
def Dev.loadHeld (d : Dev) (k a : Nat) : Bool :=
  match d.windowOf k a with
  | some (q, w) => (outOf k (d.pair q)).any fun e => d.outWindow q e.addr == some w
  | none => false

/-- The word that the exclusive monitor of core k holds for an address: of the bank it reaches; none where it is no
ingot memory (R279, R301). -/
def monAddr (k a : Nat) (d : Dev) : Option Nat :=
  match kindOf a with
  | .ingot b o 0 => some (bankAddr (d.mirror k b) o)
  | .hprivate => some a
  | _ => none

/-- The tag of a loaded word counts as POISON (R245). -/
def poisonTag (t : Nat) : Bool := decide (9 ≤ t)

/-- The address of a load by its operation: a register for LDX, the memory form for the others. Assumption 36 (DEDUCED). -/
def loadAddr (c : Core) (w : Word) : Nat :=
  if iwOp w = 0x36 then baseAddr c (c.wv (iwA w)) 0 else memAddr c w (if iwOp w = 0x34 then 1 else 4)

/-- The end of a load with its data: BUS, TAG_POISON, or the register written; with a post-increment of the destination
itself the spec does not say which of the two values stays. Assumptions 37, 38 (DEDUCED). -/
def loadEnd (k : Nat) (w : Word) (r : Option (Word × Nat)) (x : MD) : Res :=
  let c := x.2.core k
  let a := loadAddr c w
  match r with
  | none => .excAt x 13 a
  | some (v, t) =>
    if iwOp w = 0x30 ∧ poisonTag t then .excAt x 8 a
    else
      let put := fun (y : Core) => y.setW (iwD w) v (if iwOp w = 0x30 then t else tRAW)
      let inc := fun (y : Core) => if iwOp w = 0x36 then y else postInc w (if iwOp w = 0x34 then 1 else 4) y
      let both := iwOp w != 0x36 && iwAm w == 2 && iwBase w == iwD w && x.2.open_ % 2 == 0
      .ok (x.1, x.2.bump.modCore k fun y => if both then inc y else put (inc y)) [(1, a, v)] none

/-- A load: its checks, the wait for own stores to the same island and for the window, the access, and the end, which
waits for the data where the target lies in another island (R242, R243, R251, R252, R266, R304).
Assumption 38 (DEDUCED). -/
def loadSem (k : Nat) (w : Word) (x : MD) : Res :=
  let c := x.2.core k
  let a := loadAddr c w
  let size := if iwOp w = 0x34 then 1 else 4
  match accessBad k a size 0 (if iwOp w = 0x36 then none else memBase c w) x.2 with
  | some e => .exc e 0 a 0
  | none =>
    if x.2.loadHeld k a then .wait
    else match drainIsl k (tgtIsl a) 4 x with
      | none => .wait
      | some y =>
        let r := coreRead k c.ring a size y
        let z := if iwOp w = 0x36 ∧ r.2.isSome then
            (r.1.1, r.1.2.modCore k fun c => { c with monitor := monAddr k a r.1.2 }) else r.1
        if tgtIsl a = coreIsl k then loadEnd k w r.2 z
        else
          let p : LoadPend := ⟨w, r.2.isSome, (r.2.getD (0, 0)).1, (r.2.getD (0, 0)).2⟩
          .begun (z.1, z.2.modCore k fun c => { c with load := some p })

/-- LD. -/
def execLd (k : Fin 19) (s : State) : Out := anvStep 0x30 anyWord loadSem k s
/-- LDR. -/
def execLdr (k : Fin 19) (s : State) : Out := anvStep 0x31 anyWord loadSem k s
/-- LDB. -/
def execLdb (k : Fin 19) (s : State) : Out := anvStep 0x34 anyWord loadSem k s
/-- LDX: sets the monitor to an ingot word, and clears it for any other memory (R279). -/
def execLdx (k : Fin 19) (s : State) : Out := anvStep 0x36 anyWord loadSem k s

/-- LOAD_COMPLETE: the data of a load from another island arrive, and the core continues (R251). Assumption 38 (DEDUCED). -/
def execLoadComplete (k : Fin 19) (s : State) : Out :=
  s.updB fun m d =>
    let k := k.val
    match (d.core k).load with
    | none => (m, d)
    | some p =>
      if !d.coreLive k then (m, d)
      else
        let pre := (m, d.modCore k fun c => { c with load := none })
        anvOutcome k p.iw (m, d) pre (loadEnd k p.iw (if p.ok then some (p.val, p.tag) else none) pre)

/-! ## Stores -/

/-- The memory keeps tags for an ST (R246, R289). -/
def keepsTags (a : Nat) : Bool :=
  match kindOf a with
  | .ingot _ _ 0 | .hprivate => true
  | _ => false

/-- A store: its checks, TAG_SPILL, and the entry into the store buffer (R242, R243, R246, R252, R266). -/
def storeSem (k : Nat) (w : Word) (x : MD) : Res :=
  let c := x.2.core k
  let size := if iwOp w = 0x35 then 1 else 4
  let a := memAddr c w size
  let v := if iwOp w = 0x35 then w32 ((c.wv (iwD w)).toNat % 256) else c.wv (iwD w)
  let t := if iwOp w = 0x32 then c.tag (iwD w) else tRAW
  match accessBad k a size 1 (memBase c w) x.2 with
  | some e => .exc e 0 a 0
  | none =>
    if t ≠ tRAW ∧ !keepsTags a then .exc 12 0 a 0
    else match storeEnter k a size v t x with
      | none => .wait
      | some y => .ok (y.1, y.2.modCore k (postInc w size)) [(2, a, v)] none

/-- ST. -/
def execSt (k : Fin 19) (s : State) : Out := anvStep 0x32 anyWord storeSem k s
/-- STR. -/
def execStr (k : Fin 19) (s : State) : Out := anvStep 0x33 anyWord storeSem k s
/-- STB. -/
def execStb (k : Fin 19) (s : State) : Out := anvStep 0x35 anyWord storeSem k s

/-- STX: unbuffered, it stores while the monitor holds its address and answers 0, else 1; the monitor clears (R252,
R279). Assumption 36 (DEDUCED). -/
def stxSem (k : Nat) (w : Word) (x : MD) : Res :=
  let c := x.2.core k
  let a := baseAddr c (c.wv (iwA w)) 0
  let v := c.wv (iwB w)
  match accessBad k a 4 1 none x.2 with
  | some e => .exc e 0 a 0
  | none =>
    match drainAll k 4 x with
    | none => .wait
    | some y =>
      let fin := fun (n : Nat) (z : MD) => setReg k (iwD w) (w32 n) tINT (z.1, z.2.modCore k fun c => { c with monitor := none })
      if (y.2.core k).monitor.isSome ∧ (y.2.core k).monitor = monAddr k a y.2 then
        match coreWrite k c.ring a 4 v tRAW y with
        | (z, false) => .excAt z 13 a
        | (z, true) => .ok (fin 0 (z.1, z.2.modCore k fun c => { c with sig := c.sig ++ [a, 4, v.toNat] })) [(2, a, v)] none
      else .ok (fin 1 y) [] none

/-- STX. -/
def execStx (k : Fin 19) (s : State) : Out := anvStep 0x37 anyWord stxSem k s

/-- SYNC.S: the buffer drains, a held failure is taken with this instruction's PC, and the prefetch queue is flushed
(R243, R252, R270). -/
def execSyncS (k : Fin 19) (s : State) : Out :=
  anvStep 0x2F anyWord (fun k _ x =>
    match drainAll k 4 x with
    | none => .wait
    | some y =>
      if (y.2.core k).late.isSome then .begun ((lateEntry k y).1, stepEnd k (lateEntry k y).2)
      else .ok y [] (some ((y.2.core k).pc + 4))) k s

/-! ## Agreed inputs and checkpoints (R258, R259, R303, R305, R310) -/

/-- The Assay unit of core k: its cluster, or 4 for the host's; none for the Hallmark core. -/
def asyOf (k : Nat) : Option Nat := if k < 16 then some (k / 4) else if k < 18 then some 4 else none

/-- The register that port n of core k reads; none for an unmapped port. -/
def Dev.inaAddr (d : Dev) (k n : Nat) : Option Nat :=
  match asyOf k with
  | none => none
  | some c => if d.flag (ASY_INA_MAP c n) ASY_INA_MAP_en then some (d.fld (ASY_INA_MAP c n) ASY_INA_MAP_addr * 4) else none

/-- INA with a real read of the port, behind older stores of the core to its island (R20, R258); a paired primary delivers the value to its shadow. Assumption 38 (DEDUCED). -/
def inaRead (k : Nat) (w : Word) (give : Bool) (x : MD) : Res :=
  let hand := fun (v : Word) (d : Dev) => match pairOf k with
    | some q => when give (·.modCorePair q fun p => { p with ina := p.ina ++ [v] }) d
    | none => d
  match x.2.inaAddr k (w.toNat % 8) with
  | none => okReg k (iwD w) (x.1, hand 0 x.2) 0 tRAW
  | some a =>
    match drainIsl k (tgtIsl a) 4 x with
    | none => .wait
    | some z =>
      match coreRead k (z.2.core k).ring a 4 z with
      | (y, none) => .excAt y 13 a
      | (y, some (v, _)) => .ok (setReg k (iwD w) v tRAW (y.1, hand v y.2)) [(1, a, v)] none

/-- INA: a paired shadow takes the primary's value, and waits for it; a shadow that waits when the pair blocks takes
0 (R258, R303, R307). Assumption 38 (DEDUCED). -/
def inaSem (k : Nat) (w : Word) (x : MD) : Res :=
  let d := x.2
  let take := fun (v : Word) (e : Dev) => okReg k (iwD w) (x.1, e.modCore k fun c => { c with inaWait := false }) v tRAW
  match pairOf k with
  | none => inaRead k w false x
  | some q =>
    if !d.pairedQ q then inaRead k w false x
    else if d.blockedQ q then (if (d.core k).inaWait then take 0 d else inaRead k w false x)
    else if !isShadowCore k then inaRead k w true x
    else match (d.pair q).ina with
      | v :: r => take v (d.modCorePair q fun p => { p with ina := r })
      | [] => .begun (x.1, d.modCore k fun c => { c with inaWait := true })

/-- INA. -/
def execIna (k : Fin 19) (s : State) : Out := anvStep 0x2D anyWord inaSem k s

/-- What a checkpoint of this core folds (R259). -/
def chkItems (c : Core) : List Nat :=
  (List.range 16).flatMap (fun n => [(c.wv n).toNat, c.tag n]) ++ [c.p / 2, c.bk] ++ c.sig

/-- CHKPT: with a MERGE asked for, the core waits here; else its value goes to the Assay unit, where a full queue is a
lag mismatch (R259, R305, R310). Assumptions 37, 38, 62 (DEDUCED). -/
def chkptSem (k : Nat) (w : Word) (x : MD) : Res :=
  let d := x.2
  let v : ChkVal := ⟨w.toNat % 256, Config.checkpointFold 0 (chkItems (d.core k)) % 2 ^ 64⟩
  let d1 := d.modCore k fun c => { c with sig := [] }
  match pairOf k with
  | none => .ok (x.1, d1) [] none
  | some q =>
    let mine := if isShadowCore k then (d.pair q).chkS else (d.pair q).chkP
    if d.flag (ASY_PAIR_CTL q) ASY_PAIR_CTL_req_merge then
      .begun (x.1, d.modCore k fun c => { c with mergeWait := true })
    else if !d.pairedQ q || d.blockedQ q then
      .ok (x.1, d1.modCorePair q fun p => if isShadowCore k then { p with lastS := some v } else { p with lastP := some v }) [] none
    else if 4 ≤ mine.length then .ok (x.1, lagMismatch q d1) [] none
    else .ok (x.1, d1.modCorePair q fun p =>
      if isShadowCore k then { p with chkS := p.chkS ++ [v] } else { p with chkP := p.chkP ++ [v] }) [] none

/-- CHKPT. -/
def execChkpt (k : Fin 19) (s : State) : Out := anvStep 0x2E anyWord chkptSem k s

end Sys2Proof.Machine
end

