-- ==== Sys2Proof/Machine/AnvSys.lean ====
section
/-!
DEFINITION. Gates, return from exceptions, WAIT, BRK and TRAP of the Anvil cores, and the split of a pair, which restores
the shadow as a return does (R263, R264, R273, R274, R277, R309).
-/
namespace Sys2Proof.Machine

/-! ## Gates (R262 to R264) -/

/-- The return slot t of the block that TSR names can be reached. -/
def slotOk (k tsr : Nat) : Bool := blockPlace k tsr && tsr % 512 == 0

/-- A return slot's address. Assumption 39 (DEDUCED). -/
def gateSlot (tsr t : Nat) : Nat := tsr + 0x80 + 8 * t

/-- CALLG with its descriptor read (R262, R263). -/
def callGate (k a : Nat) (w0 w1 : Word) (x : MD) : Res :=
  let c := x.2.core k
  let t := w1.toNat % 4
  if bits w0.toNat 1 0 ≠ 0 ∨ !bit w1.toNat 31 ∨ bits w1.toNat 30 8 ≠ 0 ∨ bits w1.toNat 3 2 ≠ 0 ∨
      !(bits w1.toNat 7 4).testBit c.ring ∨ c.ring ≤ t then .excAt x 7 0
  else if !slotOk k c.tsr then .excAt x 13 (gateSlot c.tsr t)
  else
    match saveGet k (gateSlot c.tsr t + 4) x with
    | (y, s, _) =>
      if bit s.toNat 31 then .excAt y 7 0
      else
        let y1 := savePut k (gateSlot c.tsr t) (w32 (c.pc + 4)) y
        let y2 := savePut k (gateSlot c.tsr t + 4) (w32 (2 ^ 31 + c.ring)) y1
        .ok (y2.1, y2.2.modCore k fun c => { c with ring := t }) [(1, a, w0), (1, a + 4, w1)] (some w0.toNat)

/-- CALLG g: PRIV beyond the table, the read of the descriptor, and the call. Assumption 39 (DEDUCED). -/
def callgSem (k : Nat) (w : Word) (x : MD) : Res :=
  let c := x.2.core k
  let g := bits w.toNat 11 0
  let a := (x.2.fldIf (anvA ANV_GATE_BASE k) ANV_GATE_BASE_gate_base * 8 + 8 * g) % 2 ^ 32
  if x.2.fldIf (anvA ANV_GATE_CNT k) ANV_GATE_CNT_gate_cnt ≤ g then .exc 7 0 0 0
  else if !(x.2.rights k c.ring a).testBit 0 || !(x.2.rights k c.ring (a + 4)).testBit 0 then .exc 11 0 a 0
  else match drainIsl k (tgtIsl a) 4 x with
    | none => .wait
    | some y =>
      match coreRead k c.ring a 4 y with
      | (z, none) => .excAt z 13 a
      | (z, some (w0, _)) =>
        match coreRead k c.ring (a + 4) 4 z with
        | (u, none) => .excAt u 13 (a + 4)
        | (u, some (w1, _)) => callGate k a w0 w1 u

/-- CALLG. -/
def execCallg (k : Fin 19) (s : State) : Out := anvStep 0x39 anyWord callgSem k s

/-- RETG: back through the return slot of the ring (R264, R279). Assumption 39 (DEDUCED). -/
def retgSem (k : Nat) (_ : Word) (x : MD) : Res :=
  let c := x.2.core k
  let at_ := gateSlot c.tsr c.ring
  if c.ring = 3 then .exc 7 0 0 0
  else if !slotOk k c.tsr then .exc 7 0 0 0
  else
    match saveGet k at_ x with
    | (y, pc, _) =>
      match saveGet k (at_ + 4) y with
      | (z, s, _) =>
        if !bit s.toNat 31 ∨ s.toNat % 4 ≤ c.ring then .excAt z 7 0
        else
          let u := savePut k (at_ + 4) (s &&& 0x7FFFFFFF) z
          .ok (u.1, u.2.modCore k fun c => { c with ring := s.toNat % 4, monitor := none }) [] (some pc.toNat)

/-- The SYS instruction of this number. -/
def sysOf (n : Nat) (w : Word) : Bool := w.toNat % 4 == n

/-- RETG. -/
def execRetg (k : Fin 19) (s : State) : Out := anvStep 0x3D (sysOf 0) retgSem k s

/-! ## Return from an exception (R273, R274) -/

/-- A word of a block as it is read back, with the mark of a bad word. -/
abbrev GetWord := Nat → MD → MD × Word × Bool

/-- The words at these offsets of a block. -/
def getWords (g : GetWord) : List Nat → MD → MD × List (Nat × Word × Bool)
  | [], x => (x, [])
  | o :: os, x =>
    let r := g o x
    let s := getWords g os r.1
    (s.1, (o, r.2.1, r.2.2) :: s.2)

/-- The word of an offset among those read. -/
def gotW (l : List (Nat × Word × Bool)) (o : Nat) : Word × Bool := (alookup o l).getD (0, false)

/-- An operand of a saved station: a value, or the register of the station that link names, whose operand tag tells which
of two destinations it is where their tags differ. -/
def stnOperand (byte : Bool) (done : List Stn) (link : Nat) (tag : Nat) (v : Word) (free : Nat) : StnOp :=
  if link = 0 then ⟨v, tag, none⟩
  else match done[link - 1]? with
    | none => ⟨v, tag, none⟩
    | some s =>
      let fit := s.dests.filter fun r => (s.tags byte).getD (r - s.d) 0 == tag
      let pick := if fit = [] then s.dests else fit
      ⟨0, tag, pick[free % pick.length]?⟩

/-- A saved station record (R273). -/
def stnOf (byte : Bool) (done : List Stn) (w0 w1 w2 : Word) (free : Nat) : Stn :=
  let n := w0.toNat
  { op := bits n 30 25, d := bits n 24 21, r := bit n 20, sub := bits n 19 17,
    a := stnOperand byte done (bits n 8 5) (bits n 16 13) w1 free,
    b := stnOperand byte done (bits n 4 1) (bits n 12 9) w2 free }

/-- The stations that a block's records name, in order. -/
def stnsOf (byte : Bool) (l : List (Nat × Word × Bool)) (n free : Nat) : List Stn :=
  (List.range (min n 12)).foldl (fun done i =>
    let w0 := (gotW l (0x100 + 16 * i)).1
    if bit w0.toNat 31 then
      done ++ [stnOf byte done w0 (gotW l (0x104 + 16 * i)).1 (gotW l (0x108 + 16 * i)).1 free]
    else done) []

/-- The core with what a block's words restore: registers, tags, PC, STATUS, BK, CTXID, repeat and stations; a register
whose word was bad takes tag POISON (R274, R291). Assumption 37 (DEDUCED). -/
def coreRestore (l : List (Nat × Word × Bool)) (free : Nat) (c : Core) : Core :=
  let word := fun (o : Nat) => (gotW l o).1.toNat
  let c1 := (List.range 16).foldl (fun (y : Core) i =>
    let r := gotW l (4 * i)
    y.setW i r.1 (if r.2 then tPOISON else bits (word (0x40 + i / 8 * 4)) (i % 8 * 4 + 3) (i % 8 * 4))) c
  let st := word 0x4C
  let rp := word 0x60
  { c1 with
    pc := word 0x48, p := bits st 15 8 / 2 * 2, ipl := bits st 7 4, ie := bit st 2, ring := st % 4,
    ctxid := word 0x50 / 65536, bk := word 0x50 % 65536,
    rep := if bit rp 31 then some ⟨bit rp 13, rp % 8192⟩ else none,
    stns := stnsOf c.byteMode l (word 0x64 % 16) free, monitor := none, waiting := false, pfq := [] }

/-- The offsets that a return reads: the saved state and the station records. -/
def restoreOffsets : List Nat :=
  ((List.range 26).map (4 * ·)) ++ (List.range 12).flatMap fun i => [0x100 + 16 * i, 0x104 + 16 * i, 0x108 + 16 * i]

/-- Core k restores from the block at an address (R274). Assumption 37 (DEDUCED). -/
def restoreFrom (k a : Nat) (x : MD) : MD :=
  let r := getWords (fun o y => saveGet k (a + o) y) restoreOffsets x
  (r.1.1, r.1.2.bump.modCore k (coreRestore r.2 r.1.2.open_))

/-- RETI: with df = 1 from the emergency block, else from the block that LINK names; a block that fails its checks makes
it a DOUBLE_FAULT, whose record of the entry that failed the spec leaves open (R274, R275). Assumption 37 (DEDUCED). -/
def retiSem (k : Nat) (_ : Word) (x : MD) : Res :=
  let c := x.2.core k
  if c.ring = 3 then .exc 7 0 0 0
  else if c.df then
    let emb := fun (o : Nat) => x.2.rd (anvA (fun i => ANV_EMB i (o / 4)) k)
    let l := (List.range 27).map fun i => (4 * i, emb (4 * i), false)
    let d1 := setDf k false (x.2.modCore k (coreRestore l 0))
    let d2 := d1.modCore k fun c => { c with tsr := (emb 0x68).toNat, stns := [] }
    .ok (x.1, d2) [] (some (emb 0x48).toNat)
  else
    let bad := fun (y : MD) =>
      let z := doubleFault k (y.2.open_ % 256) c.pc 0 0 0 (y.1, y.2.bump)
      Res.begun (z.1, stepEnd k z.2)
    if !x.2.blockOk k c.tsr c.ring then bad x
    else
      match saveGet k (c.tsr + 0x68) x with
      | (y, link, _) =>
        if !y.2.blockOk k link.toNat c.ring then bad y
        else
          let z := restoreFrom k link.toNat y
          .ok (z.1, z.2.modCore k fun c => { c with tsr := link.toNat }) [] (some (z.2.core k).pc)

/-- RETI. -/
def execReti (k : Fin 19) (s : State) : Out := anvStep 0x3D (sysOf 1) retiSem k s

/-! ## WAIT, BRK, TRAP -/

/-- WAIT: the core stands until WAIT_END (R277). -/
def execWait (k : Fin 19) (s : State) : Out :=
  anvStep 0x3D (sysOf 2) (fun k _ x => .ok (x.1, x.2.modCore k fun c => { c with waiting := true }) [] none) k s

/-- BRK: on a cluster core with brk_halt set its cluster halts; else the BRK exception. The index that the halt records
for it the spec leaves open (R267, R476). Assumptions 37, 39 (DEDUCED). -/
def brkSem (k : Nat) (_ : Word) (x : MD) : Res :=
  if k < 16 ∧ x.2.flag DBG_CTL DBG_CTL_brk_halt then .ok (x.1, haltStart (k / 4) 5 (x.2.open_ % 256) x.2.bump) [] none
  else .exc 15 0 0 0

/-- BRK. -/
def execBrk (k : Fin 19) (s : State) : Out := anvStep 0x3D (sysOf 3) brkSem k s

/-- TRAP: the exception with the code as its detail (R267, R272). -/
def execTrap (k : Fin 19) (s : State) : Out :=
  anvStep 0x3F anyWord (fun _ w _ => .exc 14 (w.toNat % 256) 0 0) k s

/-! ## Split (R309) -/

/-- The split of pair q may apply: an agreed checkpoint since the request with empty output queues, or a blocked pair,
and the shadow at an instruction boundary. -/
def Dev.splitReady (d : Dev) (q : Nat) : Bool :=
  let p := d.pair q
  d.pairRuns q && d.pairedQ q && d.flag (ASY_PAIR_CTL q) ASY_PAIR_CTL_req_split &&
    (d.blockedQ q || (p.agreed && p.outP == [] && p.outS == [])) &&
    d.coreLive (2 * q + 1) && (d.core (2 * q + 1)).load.isNone

/-- SPLIT_APPLY: redirection and comparison end, the shadow restores from the block that its TSR names, switched sets
and the command completes (R309, R316). -/
def execSplitApply (q : Fin 9) (s : State) : Out :=
  s.updB fun m d =>
    let q := q.val
    if !d.splitReady q then (m, d)
    else
      let k := 2 * q + 1
      let d1 := (pairEnd q d).setB (ASY_PAIR_STAT q) ASY_PAIR_STAT_switched true
      let c := d1.core k
      let x := if d1.blockOk k c.tsr c.ring then restoreFrom k c.tsr (m, d1)
        else if c.df then (m, anvLockout k 1 d1)
        else doubleFault k (d1.open_ % 256) c.pc 0 0 0 (m, d1.bump)
      (x.1, certEval (pairRequestEnd q false stOk 0 x.2))

end Sys2Proof.Machine
end

