-- ==== Sys2Proof/Machine/Tap.lean ====
section
/-!
DEFINITION. The TAP and the debug access port (R448, R470 to R475).
-/
namespace Sys2Proof.Machine

/-! ## The peek path and debugger writes (R474, R475) -/

/-- Bank b answers the debugger: its cluster is there and out of reset, halted or not (R4, R475). -/
def Dev.bankSeen (d : Dev) (b : Nat) : Bool :=
  match bankCluster b with
  | some c => d.released c
  | none => true

/-- What a debug access returns: its data, its tag and its status (R472). -/
structure DapRes where
  data : Word
  tag : Nat
  stat : Nat
deriving DecidableEq, Repr

/-- A word read by the debugger; with peek without any side effect (R474). Assumption 59 (DEDUCED). -/
def dapRead (peek : Bool) (a : Nat) (x : MD) : MD × DapRes :=
  let m := x.1
  let d := x.2
  if a % 4 ≠ 0 then (x, ⟨0, 0, 2⟩)
  else match kindOf a with
    | .rom => (x, ⟨m.word a, 0, 0⟩)
    | .hprivate | .reserved => (x, ⟨0, 0, 5⟩)
    | .registers =>
      match regRead .dap peek a d with
      | (d1, .ok v) => ((m, d1), ⟨v, 0, 0⟩)
      | (d1, .bus gap) => ((m, d1), ⟨0, 0, if gap then 5 else 2⟩)
    | .ingot b o als =>
      if !d.bankSeen b then (x, ⟨0, 0, 2⟩)
      else match ingotRead .peek b o m d with
        | (m1, d1, .ok v t) => ((m1, d1), ⟨v, if als = 0 then t else 0, 0⟩)
        | (m1, d1, .uncorr v) => ((m1, d1), ⟨v, 0, 4⟩)
        | (m1, d1, .bus) => ((m1, d1), ⟨0, 0, 2⟩)
    | .flash => if d.flashBusy a then (x, ⟨0, 0, 2⟩) else (x, ⟨m.word a, 0, 0⟩)
    | .ddr =>
      if !d.ddrUp then (x, ⟨0, 0, 2⟩)
      else if peek then (x, ⟨m.word a, 0, if 2 ≤ m.errAt (a / 8 * 8) then 4 else 0⟩)
      else match ddrRead a m (ddrCount false [a] d) with
        | (m1, d1, .ok v _) => ((m1, d1), ⟨v, 0, 0⟩)
        | (m1, d1, .uncorr v) => ((m1, d1), ⟨v, 0, 4⟩)
        | (m1, d1, .bus) => ((m1, d1), ⟨0, 0, 2⟩)

/-- A word written by the debugger: ingot words take RAW or the tag given (R290, R475). Assumption 59 (DEDUCED). -/
def dapWrite (a : Nat) (v : Word) (tag : Nat) (x : MD) : MD × Nat :=
  let m := x.1
  let d := x.2
  if a % 4 ≠ 0 then (x, 2)
  else match kindOf a with
    | .registers =>
      match regWrite .dap a v [] x with
      | (y, .ok _) => (y, 0)
      | (y, .bus gap) => (y, if gap then 5 else 2)
    | .ingot b o als =>
      if !d.bankSeen b then (x, 2)
      else
        let r := if als = 0 then ingotWrite .peek b o v tag m d else ingotModify .peek b o (aliasOp als v) id m d
        ((r.1, r.2.1), if r.2.2 then 0 else 2)
    | .ddr =>
      let r := ddrWrite a (leBytes 4 v.toNat) m (ddrCount true [a] d)
      ((r.1, r.2.1), if r.2.2 then 0 else 2)
    | .rom | .flash => (x, 2)
    | .hprivate | .reserved => (x, 5)

/-! ## Instructions (R470, R471, R473) -/

/-- Boundary scan is permitted: FULL, or any level in BLANK and DECOMMISSIONED (R470). -/
def Dev.scanOk (d : Dev) : Bool := d.dbgLevel == 2 || d.lifecycle == 0 || d.lifecycle == 4

/-- A boundary-scan instruction: the cells take what is shifted in, what is captured from the balls is open; without its
level it captures zeros and changes nothing. Assumption 59 (DEDUCED). -/
def boundaryScan (ir si : Nat) (d : Dev) : Dev :=
  if d.scanOk then (d.modTap fun t => { t with ir := ir, cells := si, dr := d.open_ }).bump
  else d.modTap fun t => { t with ir := ir, dr := 0 }

/-- EXTEST. -/
def execExtest (si : Nat) (s : State) : Out := s.upd (boundaryScan 0x00 si)

/-- SAMPLE_PRELOAD. -/
def execSamplePreload (si : Nat) (s : State) : Out := s.upd (boundaryScan 0x01 si)

/-- The part code of R5 in IDCODE. Assumption 3 (DESIGN CHOICE). -/
def partCode : Part → Nat
  | .pdl16 => 1
  | .pdl32 => 2
  | .pdl64 => 4

/-- The value of IDCODE (R471). -/
def idcodeOf (p : Part) : Nat := 0x1 * 2 ^ 28 + (0x9D40 + partCode p) * 2 ^ 12 + 0x41D * 2 + 1

/-- IDCODE. -/
def execIdcode (s : State) : Out := s.upd fun d => d.modTap fun t => { t with ir := 0x02, dr := idcodeOf d.part }

/-- BYPASS: 0x3F and every encoding that the table does not list select the 1-bit register (R470). -/
def execBypass (ir : Fin 64) (s : State) : Out :=
  s.upd fun d =>
    if [0x00, 0x01, 0x02, 0x10, 0x11, 0x12, 0x13].contains ir.val then d
    else d.modTap fun t => { t with ir := ir.val, dr := 0 }

/-- DAP_CHAL: the data register takes the current challenge, drawn where none is open (R473). -/
def execDapChal (s : State) : Out :=
  s.upd fun d =>
    match if d.stale d.hlm.tapChalAt then none else d.hlm.tapChal with
    | some c => d.modTap fun t => { t with ir := 0x10, dr := leNat c }
    | none =>
      let r := drbgDraw 32 d
      (r.1.modHlm fun h => { h with tapChal := some r.2, tapChalAt := d.now }).modTap fun t => { t with ir := 0x10, dr := leNat r.2 }

/-- DAP_RESP: a signature and a level are shifted in, and verification starts (R473). Assumption 59 (DEDUCED). -/
def execDapResp (sig : List Byte) (level : Fin 256) (s : State) : Out :=
  s.upd fun d =>
    if d.flag DBG_STAT DBG_STAT_resp_busy then d.modTap fun t => { t with ir := 0x11 }
    else (d.modTap fun t => { t with ir := 0x11, resp := some ((sig ++ List.replicate 96 0).take 96, level.val) }).setB
      DBG_STAT DBG_STAT_resp_busy true

/-- TAP_GRANT: verification ends; in BLANK and DECOMMISSIONED no signature is needed, and a challenge serves one grant
(R442, R448, R473). -/
def execTapGrant (s : State) : Out :=
  s.upd fun d =>
    match d.tap.resp with
    | none => d
    | some (sig, lvl) =>
      let d1 := (d.modTap fun t => { t with resp := none }).setB DBG_STAT DBG_STAT_resp_busy false
      let free := d.lifecycle == 0 || d.lifecycle == 4
      let signed : Bool := match d.hlm.tapChal with
        | some c => !d.stale d.hlm.tapChalAt && d.ownerKey && Config.ecdsaOk keyOwner (c ++ [BitVec.ofNat 8 lvl]) sig
        | none => false
      if (lvl == 1 || lvl == 2) && (free || signed) then
        debugGrant lvl 0 (!free) (d1.modHlm fun h => { h with tapChal := none })
      else postSecurity 0x0807 0 [lvl] true d1

/-- DAP_CTL: at FULL the data register shows DBG_CTL and its update writes it (R470). -/
def execDapCtl (v : Word) (s : State) : Out :=
  s.updB fun m d =>
    if d.tapFull then dbgCtlWrite .dap v (m, d.modTap fun t => { t with ir := 0x13, dr := (d.rd DBG_CTL).toNat })
    else (m, d.modTap fun t => { t with ir := 0x13, dr := 0 })

/-- The 76 bits that a capture of DAP_ACC returns (R472). -/
def Dev.accBits (d : Dev) : Nat :=
  if d.dbgLevel = 0 then 0
  else if d.tap.acc.isSome then 1 * 2 ^ 72
  else d.tap.resStat * 2 ^ 72 + d.tap.resData.toNat * 2 ^ 40 + d.tap.resTag * 2 ^ 4

/-- DAP_ACC: the debug access register is selected and captured. -/
def execDapAcc (s : State) : Out := s.upd fun d => d.modTap fun t => { t with ir := 0x12, dr := d.accBits }

/-- An update of DAP_ACC: one that finds an access pending is discarded with dap_ovr, and one whose level is too low
accesses nothing (R472). Assumption 59 (DEDUCED). -/
def dapStart (need : Nat) (a : DapAcc) (f : MD → MD × DapRes) (x : MD) : MD :=
  let d := x.2
  if d.tap.acc.isSome then (x.1, d.setB DBG_STAT DBG_STAT_dap_ovr true)
  else if d.dbgLevel = 0 then x
  else if d.dbgLevel < need then (x.1, d.modTap fun t => { t with resData := 0, resTag := 0, resStat := 3 })
  else
    let y := f x
    (y.1.1, y.1.2.modTap fun t => { t with acc := some a, resData := y.2.data, resTag := y.2.tag, resStat := y.2.stat })

/-- DAP_READ. -/
def execDapRead (addr : Word) (s : State) : Out :=
  s.updB fun m d => dapStart 1 ⟨false, false, false, 0, addr.toNat, 0⟩ (dapRead true addr.toNat) (m, d)

/-- DAP_CONSUME. -/
def execDapConsume (addr : Word) (s : State) : Out :=
  s.updB fun m d => dapStart 2 ⟨false, true, false, 0, addr.toNat, 0⟩ (dapRead false addr.toNat) (m, d)

/-- DAP_WRITE. -/
def execDapWrite (addr v : Word) (tag : Option (Fin 16)) (s : State) : Out :=
  s.updB fun m d =>
    let t := match tag with
      | some t => t.val
      | none => 0
    dapStart 2 ⟨true, false, tag.isSome, t, addr.toNat, v⟩
      (fun x => let y := dapWrite addr.toNat v t x; (y.1, ⟨0, 0, y.2⟩)) (m, d)

/-- DAP_ACCESS_DONE: the pending access is over, and its result can be captured (R472). Assumption 59 (DEDUCED). -/
def execDapAccessDone (s : State) : Out := s.upd fun d => d.modTap fun t => { t with acc := none }

/-- TRST_N: Test-Logic-Reset, and the TAP's grant lapses (R448, R470). -/
def execTrstN (s : State) : Out :=
  s.upd fun d =>
    let d1 := (d.modTap fun t => { Tap.reset with resData := t.resData, resTag := t.resTag, resStat := t.resStat }).setB
      DBG_STAT DBG_STAT_resp_busy false
    if d.fld DBG_STAT DBG_STAT_tap_level = 0 then d1 else debugLapse 0 d1

end Sys2Proof.Machine
end

