-- ==== Sys2Proof/Machine/Cmd.lean ====
section
/-!
DEFINITION. What the commands of chapter "Command opcode reference" share (R345, R346, R354 to R359): reserved bytes,
targets, buffers and the Ladle's transfers, and the end of a command.
-/
namespace Sys2Proof.Machine

/-! ## Outcomes -/

/-- What the execution of a command comes to. -/
inductive CmdRes where
  /-- Refused: it has no effect (R357). -/
  | no (status result : Nat)
  /-- Completed, with the state its effect leaves. -/
  | done (status result : Nat) (x : MD)
  /-- Under way on a target; aux is what it carries. -/
  | wait (target : Nat) (aux : List Nat) (x : MD)
  /-- It cannot begin yet. -/
  | hold

/-- The first check that fails decides the status; else the command goes on (R357). -/
def chk (l : List (Bool × Nat)) (go : Unit → CmdRes) : CmdRes :=
  match l.find? (·.1) with
  | some e => .no e.2 0
  | none => go ()

/-- The command of this opcode at the front of SQ r, if pick takes it, is carried out by f. Assumption 46 (DEDUCED). -/
def runCmd (op : Nat) (pick : Cmd → Bool) (f : Nat → Cmd → MD → CmdRes) (r : Fin 4096) (s : State) : Out :=
  s.updB fun m d =>
    match d.front r.val op with
    | none => (m, d)
    | some c =>
      if !pick c then (m, d)
      else match f r.val c (m, d) with
        | .no st n => (m, finish r.val c st n d)
        | .done st n x => (x.1, finish r.val c st n x.2)
        | .wait t aux x => (x.1, await r.val c t aux x.2)
        | .hold => (m, d)

/-- Every command of the opcode. -/
def anyCmd (_ : Cmd) : Bool := true

/-! ## Descriptors -/

/-- Byte i of the first descriptor. -/
def Cmd.byte (c : Cmd) (i : Nat) : Nat := dget c.d0 i 1

/-- n bytes of the first descriptor from byte i on. -/
def Cmd.get (c : Cmd) (i n : Nat) : Nat := dget c.d0 i n

/-- The target. -/
def Cmd.tgt (c : Cmd) : Nat := dTarget c.d0

/-- A bit outside the used fields (first byte, length, mask of every byte) is set, from byte first on; with AUTH the
last descriptor's counter is no parameter (R354, R336). Assumption 46 (DEDUCED). -/
def reservedSet (auth : Bool) (b : List Byte) (first : Nat) (used : List (Nat × Nat × Nat)) : Bool :=
  (List.range 56).any fun i =>
    let mask := used.foldl (fun m e => if e.1 ≤ i ∧ i < e.1 + e.2.1 then m ||| e.2.2 else m) 0
    decide (first ≤ i) && !(auth && decide (48 ≤ i)) && dget b i 1 ||| mask != mask

/-- The reserved bits of a command of one descriptor. Assumption 46 (DEDUCED). -/
def Cmd.bad (c : Cmd) (used : List (Nat × Nat × Nat)) : Bool := reservedSet (dAuth c.d0) c.d0 12 used

/-! ## Targets (R4, R345, R356) -/

/-- The target is not 0, where the opcode names none. -/
def Cmd.badNone (c : Cmd) : Bool := c.tgt != 0

/-- No axis of the part. -/
def Dev.badAxis (d : Dev) (a : Nat) : Bool := decide (64 ≤ a) || !d.hasCluster (a / 16)

/-- No cluster of the part. -/
def Dev.badCluster (d : Dev) (c : Nat) : Bool := decide (4 ≤ c) || !d.hasCluster c

/-- The state checks of every command on a cluster: BUSY while it is halted by the debugger, NOT_PERMITTED while it is
held in reset. -/
def Dev.clusterBad (d : Dev) (c : Nat) : List (Bool × Nat) :=
  [((d.cluster c).halted || (d.cluster c).halting, stBusy), (!d.clusterRuns c, stNotPermitted)]

/-! ## The Ladle's transfers (R18, R33, R290, R346, R355) -/

/-- An offset of the register range that the Ladle reaches. -/
def ladReg (a : Nat) : Bool :=
  !(decide (0x02300000 ≤ a) && decide (a < 0x02400000)) &&
    ((regAt a).isSome || (bellAt a).isSome || (msixAt a).isSome || (plnWindow a).isSome)

/-- No bank that a range of an ingot window touches is a cluster's bank 15 or H7. -/
def ladBanks (base a n : Nat) : Bool :=
  (List.range ((a + n - 1 - base) / 0x10000 + 1 - (a - base) / 0x10000)).all fun i =>
    let b := (a - base) / 0x10000 + i
    b != 71 && !(decide (b < 64) && b % 16 == 15)

/-- A fabric range of n bytes lies where a command may move data (R355). Assumption 46 (DEDUCED). -/
def ladRange (a n : Nat) : Bool :=
  let inside := fun (lo hi : Nat) => decide (lo ≤ a) && decide (a + n ≤ hi)
  (inside 0x01000000 0x01480000 && ladBanks 0x01000000 a n) ||
    (inside 0x01500000 0x01980000 && ladBanks 0x01500000 a n) ||
    (inside 0x01A00000 0x01E80000 && ladBanks 0x01A00000 a n) ||
    (inside 0x02000000 0x03000000 && a % 4 == 0 && n % 4 == 0 && (List.range (n / 4)).all fun i => ladReg (a + 4 * i)) ||
    inside 0x80000000 0xF0000000

/-- The reasons of R346. Assumption 46 (DEDUCED). -/
def whyDenied : Nat := 3
def whyUncorr : Nat := 4

/-- A word read by the Ladle at a word address, or why it fails. -/
def ladReadWord (a : Nat) (x : MD) : MD × (Word ⊕ Nat) :=
  match kindOf a with
  | .ingot b o _ =>
    match ingotRead .ladle b o x.1 x.2 with
    | (m, d, .ok v _) => ((m, d), .inl v)
    | (m, d, .bus) => ((m, d), .inr whyDenied)
    | (m, d, .uncorr _) => ((m, d), .inr whyUncorr)
  | .registers =>
    match regRead .ladle false a x.2 with
    | (d, .ok v) => ((x.1, d), .inl v)
    | (d, .bus _) => ((x.1, d), .inr whyDenied)
  | .ddr =>
    match ddrRead a x.1 x.2 with
    | (m, d, .ok v _) => ((m, if a % 64 < 4 then evcDevice 0x322 d else d), .inl v)
    | (m, d, .bus) => ((m, d), .inr whyDenied)
    | (m, d, .uncorr _) => ((m, d), .inr whyUncorr)
  | _ => (x, .inr whyDenied)

/-- A word with its bytes from byte i on replaced. -/
def patchWord (i : Nat) (bs : List Byte) (w : Word) : Word :=
  (bs.zipIdx.foldl (fun v e => putByte (i + e.2) e.1 v) w)

/-- Bytes within one word written by the Ladle, or why it fails. A word it writes takes tag RAW. -/
def ladWriteWord (a : Nat) (bs : List Byte) (x : MD) : MD × Option Nat :=
  let v := w32 (leNat bs)
  match kindOf a with
  | .ingot b o als =>
    let w := o / 4 * 4
    let r := if als ≠ 0 then ingotModify .ladle b w (aliasOp als (patchWord (a % 4) bs 0)) (fun t => t) x.1 x.2
      else if bs.length = 4 then ingotWrite .ladle b w v 0 x.1 x.2
      else ingotModify .ladle b w (patchWord (a % 4) bs) (fun _ => 0) x.1 x.2
    let why := if (x.2.ingotOk .ladle b true) then whyUncorr else whyDenied
    ((r.1, r.2.1), if r.2.2 then none else some why)
  | .registers =>
    match regWrite .ladle a v [] x with
    | (y, .ok _) => (y, none)
    | (y, .bus _) => (y, some whyDenied)
  | .ddr =>
    let r := ddrWrite a bs x.1 x.2
    ((r.1, if r.2.2 ∧ a % 64 < 4 then evcDevice 0x323 r.2.1 else r.2.1),
      if r.2.2 then none else some (if x.2.ddrUp then whyUncorr else whyDenied))
  | _ => (x, some whyDenied)

/-- The failing address and the reason as a result (R346). -/
def failCode (a why : Nat) : Nat := a % 2 ^ 32 + why * 2 ^ 32

/-- n bytes read from fabric address a on, word by word: those read before a failure, and its code. -/
def ladRead : Nat → Nat → Nat → MD → MD × List Byte × Option Nat
  | 0, _, _, x => (x, [], none)
  | f + 1, a, n, x =>
    if n = 0 then (x, [], none)
    else
      let k := min n (4 - a % 4)
      match ladReadWord (a / 4 * 4) x with
      | (y, .inr why) => (y, [], some (failCode (a / 4 * 4) why))
      | (y, .inl v) =>
        let r := ladRead f (a + k) (n - k) y
        (r.1, ((leBytes 4 v.toNat).drop (a % 4)).take k ++ r.2.1, r.2.2)

/-- Bytes written from fabric address a on, word by word; the number written before a failure, and its code. -/
def ladWrite : Nat → Nat → List Byte → MD → MD × Nat × Option Nat
  | 0, _, _, x => (x, 0, none)
  | f + 1, a, bs, x =>
    if bs = [] then (x, 0, none)
    else
      let k := min bs.length (4 - a % 4)
      match ladWriteWord a (bs.take k) x with
      | (y, some why) => (y, 0, some (failCode (a / 4 * 4) why))
      | (y, none) =>
        let r := ladWrite f (a + k) (bs.drop k) y
        (r.1, r.2.1 + k, r.2.2)

/-! ## Buffers (R355) -/

/-- A buffer: host memory, or with fab a fabric address. -/
structure Buf where
  fab : Bool
  addr : Nat
deriving DecidableEq, Repr

/-- The buffer at byte i of the first descriptor, with its fab bit in bit 0 of byte f. -/
def Cmd.buf (c : Cmd) (i f : Nat) : Buf := ⟨bit (c.byte f) 0, c.get i 8⟩

/-- The buffer cannot hold n bytes. -/
def Buf.bad (b : Buf) (n : Nat) : Bool := b.fab && (decide (2 ^ 32 ≤ b.addr) || !ladRange b.addr n)

/-- The n bytes of an input buffer, then the rest; a transfer that fails ends the command, and one of host memory waits
until the device may use it. -/
def withIn (b : Buf) (n : Nat) (x : MD) (k : List Byte → MD → CmdRes) : CmdRes :=
  if b.fab then
    match ladRead (n + 1) b.addr n x with
    | (y, bs, none) => k bs y
    | (y, _, some code) => .done stTransferFailed code y
  else if !x.2.hostOk then .hold
  else k (x.1.hostSpan b.addr n) x

/-- The bytes written to an output buffer, then the rest. -/
def withOut (b : Buf) (bs : List Byte) (x : MD) (k : MD → CmdRes) : CmdRes :=
  if b.fab then
    match ladWrite (bs.length + 1) b.addr bs x with
    | (y, _, none) => k y
    | (y, _, some code) => .done stTransferFailed code y
  else if !x.2.hostOk then .hold
  else k (x.1.setHost b.addr bs, x.2)

end Sys2Proof.Machine
end

