-- ==== Sys2Proof/Machine/CmdSys.lean ====
section
/-!
DEFINITION. The commands of class 0x01 (R332, R348, R359 to R362): identification, rings, event routes, resets and
sessions.
-/
namespace Sys2Proof.Machine

/-- A command without parameters and target, and with this effect. -/
def plainCmd (c : Cmd) (go : Unit → CmdRes) : CmdRes := chk [(c.badNone, stBadTarget), (c.bad [], stBadParam)] go

/-- CMD_NOP completes with OK. -/
def execCmdNop (sq : Fin 4096) (s : State) : Out := runCmd 0x0101 anyCmd (fun _ c x => plainCmd c fun _ => .done stOk 0 x) sq s

/-- IDENTIFY: GLB_ID, and the minor and major version of the bench firmware (R5, R423). -/
def doIdentify (_ : Nat) (c : Cmd) (x : MD) : CmdRes :=
  plainCmd c fun _ =>
    let v := x.2.hlm.fwVersion
    .done stOk ((x.2.rd GLB_ID).toNat + bits v 23 16 * 2 ^ 32 + bits v 31 24 * 2 ^ 40) x

/-- IDENTIFY. -/
def execIdentify (sq : Fin 4096) (s : State) : Out := runCmd 0x0102 anyCmd doIdentify sq s

/-! ## Rings (R332, R348, R360) -/

/-- A command that only the admin SQ may issue. -/
def notAdmin (r : Nat) : Bool × Nat := (r != 0, stNotPermitted)

/-- The rings that exist. -/
def Dev.rings (d : Dev) : List Nat :=
  d.regs.entries.filterMap fun e =>
    if LDL_RING_CFG 0 ≤ e.1 ∧ e.1 ≤ LDL_RING_CFG 4095 ∧ (e.1 - LDL_RING_CFG 0) % 0x20 = 0 ∧ e.2.toNat.testBit 31 then
      some ((e.1 - LDL_RING_CFG 0) / 0x20) else none

/-- A ring of these settings cannot be made: a reserved type, size, vector, base or mirror, or an SQ without a CQ.
Assumption 46 (DEDUCED). -/
def badRing (d : Dev) (c : Cmd) : Bool :=
  let ty := c.byte 12
  let v := c.byte 14
  decide (ty < 1 ∨ 4 < ty ∨ c.byte 13 < 4 ∨ 15 < c.byte 13 ∨ (64 ≤ v ∧ v ≠ 0xFF) ∨ c.get 16 8 % 64 ≠ 0 ∨ c.get 24 8 % 4 ≠ 0) ||
    (ty == tySQ && (decide (4096 ≤ c.get 32 2) || !d.isRing (c.get 32 2) tyCQ))

/-- RING_CREATE: the ring exists once the completion is written. Assumption 46 (DEDUCED). -/
def doRingCreate (r : Nat) (c : Cmd) (x : MD) : CmdRes :=
  chk [(decide (4096 ≤ c.tgt) || c.bad [(12, 3, 0xFF), (16, 18, 0xFF)] || badRing x.2 c, stBadParam), notAdmin r,
    (x.2.ringOn c.tgt, stBusy)] fun _ => .done stOk 0 x

/-- RING_CREATE. -/
def execRingCreate (sq : Fin 4096) (s : State) : Out := runCmd 0x0110 anyCmd doRingCreate sq s

/-- An SQ completes into CQ r. -/
def Dev.cqBound (d : Dev) (r : Nat) : Bool := d.rings.any fun q => d.ringType q == tySQ && d.ringLink q == r

/-- Records of EQ r go to ring 2, the first with the loss flag, and its classes route there. -/
def eqLeave (r : Nat) (d : Dev) : Dev :=
  let d1 := upTo 12 (fun i x => if x.fld (LDL_EVT_ROUTE (i + 1)) LDL_EVT_ROUTE_eq = r then
    x.setF (LDL_EVT_ROUTE (i + 1)) LDL_EVT_ROUTE_eq 2 else x) d
  let move := fun (l : List EvRec × Bool) (e : EvRec) =>
    if e.eq = r then (l.1 ++ [{ e with eq := 2, loss := e.loss || l.2 }], false) else (l.1 ++ [e], l.2)
  { d1 with events := (d1.events.foldl move ([], true)).1 }

/-- The stream binding of an axis ends; records already in its queue stay (R179, R348). -/
def unbindStream (a r : Nat) (d : Dev) : Dev :=
  let d1 := (d.setB (AXS_SEG_STAT a) AXS_SEG_STAT_str false).setF (AXS_SEG_STAT a) AXS_SEG_STAT_str_ring 0
  d1.setF (LDL_RING_CFG r) LDL_RING_CFG_link 0xFFF

/-- The axis that ST ring r feeds. -/
def Dev.stBound (d : Dev) (r : Nat) : Option Nat := if d.ringLink r = 0xFFF then none else some (d.ringLink r % 64)

/-- RING_DELETE by the type of the ring. -/
def doRingDelete (r : Nat) (c : Cmd) (x : MD) : CmdRes :=
  let d := x.2
  let t := c.tgt
  let del := d.setB (LDL_RING_STAT t) LDL_RING_STAT_del_pend true
  chk [(decide (4096 ≤ t) || !d.ringOn t, stBadTarget), (c.bad [], stBadParam), notAdmin r,
    (decide (t ≤ 2), stNotPermitted), (d.ringType t == tyCQ && d.cqBound t, stBusy)] fun _ =>
    if d.ringType t = tySQ then
      let d1 := del.modSq t fun q => { q with part := [] }
      if (d.sqOf t).cmds = [] then .done stOk (d.ringHead t) (x.1, d1) else .wait t [] (x.1, d1)
    else if d.ringType t = tyEQ then .done stOk 0 (x.1, eqLeave t del)
    else if d.ringType t = tyST then
      .done stOk 0 (x.1, match d.stBound t with
        | some a => unbindStream a t del
        | none => del)
    else .done stOk 0 (x.1, del)

/-- RING_DELETE. -/
def execRingDelete (sq : Fin 4096) (s : State) : Out := runCmd 0x0111 anyCmd doRingDelete sq s

/-- EVT_ROUTE writes LDL_EVT_ROUTE of a class with an EQ. -/
def doEvtRoute (r : Nat) (c : Cmd) (x : MD) : CmdRes :=
  let k := c.byte 12
  chk [(decide (4096 ≤ c.tgt), stBadTarget),
    (c.bad [(12, 1, 0xFF)] || decide (k < 1 ∨ 12 < k) || !x.2.isRing c.tgt tyEQ, stBadParam), notAdmin r] fun _ =>
    .done stOk 0 (x.1, x.2.setF (LDL_EVT_ROUTE k) LDL_EVT_ROUTE_eq c.tgt)

/-- EVT_ROUTE. -/
def execEvtRoute (sq : Fin 4096) (s : State) : Out := runCmd 0x0113 anyCmd doEvtRoute sq s

/-! ## Resets (R361) -/

/-- RESET by its scope: a cluster at rest is reset; the host island and the device follow their completion by 1 ms.
Assumption 46 (DEDUCED). -/
def doReset (r : Nat) (c : Cmd) (x : MD) : CmdRes :=
  let d := x.2
  let k := c.byte 12
  let t := c.tgt
  if k = 1 then
    chk ([(d.badCluster t, stBadTarget), (c.bad [(12, 1, 0xFF)], stBadParam), notAdmin r] ++ d.clusterBad t ++
      [(!d.atRest t, stNotPermitted)]) fun _ => .done stOk 0 (x.1, resetTaken 6 (clusterReset t false d))
  else
    chk [((k == 2 || k == 3) && c.badNone, stBadTarget), (c.bad [(12, 1, 0xFF)] || !(k == 2 || k == 3), stBadParam),
      notAdmin r] fun _ => .done stOk 0 x

/-- RESET_CLUSTER: scope 1, and a scope that is none. -/
def execResetCluster (sq : Fin 4096) (s : State) : Out :=
  runCmd 0x0120 (fun c => c.byte 12 != 2 && c.byte 12 != 3) doReset sq s
/-- RESET_HOST_ISLAND: scope 2. -/
def execResetHostIsland (sq : Fin 4096) (s : State) : Out := runCmd 0x0120 (fun c => c.byte 12 == 2) doReset sq s
/-- RESET_DEVICE: scope 3. -/
def execResetDevice (sq : Fin 4096) (s : State) : Out := runCmd 0x0120 (fun c => c.byte 12 == 3) doReset sq s

/-! ## Sessions (R362, R440, R442) -/

/-- The entropy source does not serve (R440). -/
def Dev.noEntropy (d : Dev) : Bool := !d.flag HLM_STAT HLM_STAT_ent_ok

/-- n bytes, cut or filled with zeros. -/
def fit (n : Nat) (b : List Byte) : List Byte := (b ++ List.replicate n 0).take n

/-- SESSION_NONCE: a fresh nonce, which replaces an unused one. -/
def doSessionNonce (_ : Nat) (c : Cmd) (x : MD) : CmdRes :=
  chk [(c.badNone, stBadTarget), (c.bad [(12, 8, 0xFF), (20, 1, 1)] || (c.buf 12 20).bad 32, stBadParam),
    (x.2.noEntropy, stBusy)] fun _ =>
    let n := drbgDraw 32 x.2
    withOut (c.buf 12 20) n.2 (x.1, n.1) fun y => .done stOk 0 (y.1, y.2.modHlm fun h => { h with nonce := some n.2, nonceAt := y.2.now })

/-- SESSION_NONCE. -/
def execSessionNonce (sq : Fin 4096) (s : State) : Out := runCmd 0x0130 anyCmd doSessionNonce sq s

/-- The numbers that no session holds. -/
def Dev.freeSessions (d : Dev) : List Nat := ((List.range 15).map (· + 1)).filter fun i => (mget none d.hlm.sess i).isNone

/-- The request in an input buffer is good: its nonce is the current one, at most 10 s old, and the owner signed it where the lifecycle asks
for that. -/
def Dev.sessionGood (d : Dev) (b : List Byte) : Bool :=
  d.hlm.nonce == some (b.take 32) && !d.stale d.hlm.nonceAt && d.lifecycle != 4 &&
    (d.lifecycle == 0 || (d.ownerKey && Config.ecdsaOk keyOwner (b.take 128) ((b.drop 128).take 96)))

/-- SESSION_OPEN: the nonce is spent, and a session exists with a fresh key and no accepted counter; which free number it
takes is open. Assumption 47 (DEDUCED). -/
def doSessionOpen (_ : Nat) (c : Cmd) (x : MD) : CmdRes :=
  let outB : Buf := ⟨bit (c.byte 28) 0, c.get 20 8⟩
  chk [(c.badNone, stBadTarget),
    (c.bad [(12, 16, 0xFF), (28, 1, 1)] || (c.buf 12 28).bad 224 || outB.bad 192, stBadParam),
    (x.2.noEntropy || x.2.freeSessions == [], stBusy)] fun _ =>
    withIn (c.buf 12 28) 224 x fun b y =>
      let d := y.2
      if !d.sessionGood b then .done stAuthFailed 0 y
      else
        let n := d.hlm.draws
        let pub := fit 96 (Config.pubBytes 1 n)
        let sig := fit 96 (Config.ecdsaSign 3 (b.take 128 ++ pub))
        let free := d.freeSessions
        let k := free.getD (d.open_ % free.length) 1
        withOut outB (pub ++ sig) (y.1, d.bump) fun z =>
          let d1 := z.2.modHlm fun h => { h with
            nonce := none, draws := n + 1, sess := mset none h.sess k (some ⟨Config.sessionKey n (b.take 128), []⟩) }
          .done stOk k (z.1, postSecurity 0x0802 k [k] false (sessShow d1))

/-- SESSION_OPEN. -/
def execSessionOpen (sq : Fin 4096) (s : State) : Out := runCmd 0x0131 anyCmd doSessionOpen sq s

end Sys2Proof.Machine
end

