-- ==== Sys2Proof/Machine/CmdAxis.lean ====
section
/-!
DEFINITION. The commands of class 0x02 (R93, R95, R96, R363 to R366): admission of axes, their transitions, law images and
gain sets.
-/
namespace Sys2Proof.Machine

/-! ## AXIS_ADMIT (R63 to R67, R363) -/

/-- The bits of bytes 12 to 39 that R363 defines. -/
def admitBits : List (Nat × Nat × Nat) :=
  [(12, 2, 0x03), (14, 2, 0x0F), (16, 1, 0xFF), (17, 1, 0x07), (18, 1, 0xFF), (19, 1, 0x3F), (20, 1, 0xFF), (21, 1, 0x07)] ++
  [(22, 1, 0xFF), (23, 1, 0x7F), (24, 1, 0xFF), (25, 1, 0x07), (26, 1, 0xFF), (27, 1, 0x7F), (28, 2, 0xFF), (30, 1, 0x01)] ++
  [(32, 2, 0xFF), (34, 1, 0x01), (36, 4, 0xFF)]

/-- The configuration that a descriptor carries for the axis it names. Assumption 48 (DESIGN CHOICE). -/
def admitRec (b : List Byte) : AdmitRec :=
  let f := dget b 14 1
  let p := dget b 19 1
  { axis := dTarget b, lane := dget b 12 1 % 4, slot := dget b 13 1 % 4, velEn := bit f 0, posEn := bit f 1, emuEn := bit f 2,
    replace := bit f 3, bgPhase := dget b 15 1 % 16, curBase := dget b 16 2 % 2048, curLen := dget b 18 1,
    velBase := dget b 20 2 % 2048, velLen := dget b 22 2 % 4096, velDiv := dget b 22 2 / 4096 % 8,
    posBase := dget b 24 2 % 2048, posLen := dget b 26 2 % 4096, posDiv := dget b 26 2 / 4096 % 8,
    adm := { center := bit p 0, dbl := bit p 1, updPt := bit p 2, updDiv := bits p 4 3, winEvt := bit p 5,
             per := dget b 28 4 % 2 ^ 17, ofs := dget b 32 4 % 2 ^ 17, winDelay := dget b 36 2, winLen := dget b 38 2 } }

/-- Settings that no register takes: a divisor code, update settings, period, offset or window out of their range (R70,
R116, R120, R136). Assumption 48 (DESIGN CHOICE). -/
def badAdmit (r : AdmitRec) : Bool :=
  let a := r.adm
  decide (5 ≤ r.velDiv ∨ 5 ≤ r.posDiv ∨ a.updDiv = 3 ∨ a.winLen = 0 ∨ a.carrier ≤ a.ofs) || (a.dbl && (!a.center || a.updDiv != 0)) ||
    (if a.center then decide (a.per < 1000 ∨ 50000 < a.per) else decide (a.per < 2000 ∨ 100000 < a.per))

/-- The state of the axis does not take this record: replace says otherwise, or the table of R93 has no such row. -/
def Dev.admitDenied (d : Dev) (r : AdmitRec) : Bool :=
  let st := d.axSt r.axis
  if r.replace then !(st == stAdmitted || st == stArmed || st == stEnabled) else st != stRetired

/-- The lanes that records touch: those they go to, and those that the axes leave. -/
def Dev.lanesTouched (d : Dev) (l : List AdmitRec) : List Nat :=
  (l.flatMap fun r => d.lanesOf (axCl r.axis * 4 + r.lane) ++ (if d.axSt r.axis = stRetired then [] else d.axLanes r.axis)).eraseDups

/-- Records are staged and judged: a refusal, or a wait for the commit of the lanes that they mark. A law load answers with
result; the others with the load of lane n (R363, R365). -/
def admitWait (target result n : Nat) (lanes : Dev → List Nat) (stage : Dev → Dev) (x : MD) : CmdRes :=
  match judge lanes stage x.2 with
  | (_, some r) => .done stAdmissionRefused (refusalResult r) x
  | (d, none) => .wait target (result :: n :: (lanes d).filter fun m => d.marked [m] != []) (x.1, d)

/-- AXIS_ADMIT: every axis of the chain is admitted, or none. Assumption 48 (DESIGN CHOICE). -/
def doAxisAdmit (_ : Nat) (c : Cmd) (x : MD) : CmdRes :=
  let d := x.2
  let l := c.descs.map admitRec
  let last := c.descs.length - 1
  let res := c.descs.zipIdx.any fun e => reservedSet (dAuth e.1 && e.2 == last) e.1 12 admitBits
  let cl := axCl c.tgt
  chk ([(l.any fun r => d.badAxis r.axis, stBadTarget),
      (res || l.any badAdmit || (l.any fun r => axCl r.axis != cl) || !(l.map AdmitRec.axis).Nodup, stBadParam)] ++
      d.clusterBad cl ++ [(l.any fun r => d.axBusy r.axis, stBusy), (l.any d.admitDenied, stNotPermitted)]) fun _ =>
    admitWait c.tgt 0 (cl * 4 + (admitRec c.d0).lane) (fun y => y.lanesTouched l) (fun y => l.foldl (fun z r => stageAxis r z) y) x

/-- AXIS_ADMIT. -/
def execAxisAdmit (sq : Fin 4096) (s : State) : Out := runCmd 0x0201 anyCmd doAxisAdmit sq s

/-! ## Transitions (R93, R95, R96, R364) -/

/-- The checks of a command of one axis before its state: target, parameters, cluster. Assumption 48 (DESIGN CHOICE). -/
def axisChecks (c : Cmd) (bad : Bool) (d : Dev) : List (Bool × Nat) :=
  [(d.badAxis c.tgt, stBadTarget), (bad, stBadParam)] ++ d.clusterBad (axCl c.tgt)

/-- AXIS_RETIRE with response 2 FR_RAMP or 4 FR_STO. Assumption 48 (DESIGN CHOICE). -/
def doAxisRetire (_ : Nat) (c : Cmd) (x : MD) : CmdRes :=
  let r := c.byte 12
  chk (axisChecks c (c.bad [(12, 1, 0xFF)] || !(r == 2 || r == 4)) x.2) fun _ =>
    match axisRetire c.tgt r x.2 with
    | (_, some st) => .no st 0
    | (d, none) => .wait c.tgt [] (x.1, d)

/-- AXIS_RETIRE. -/
def execAxisRetire (sq : Fin 4096) (s : State) : Out := runCmd 0x0202 anyCmd doAxisRetire sq s

/-- AXIS_ENABLE, stage 1 ARM or 2 ENABLE: it completes once the state is reached. -/
def doAxisEnable (_ : Nat) (c : Cmd) (x : MD) : CmdRes :=
  let g := c.byte 12
  chk (axisChecks c (c.bad [(12, 1, 0xFF), (14, 2, 0xFF)] || !(g == 1 || g == 2)) x.2) fun _ =>
    match axisEnable c.tgt g x.2 with
    | (_, some st) => .no st 0
    | (d, none) => .wait c.tgt [g] (x.1, d)

/-- AXIS_ENABLE_ARM: stage 1. -/
def execAxisEnableArm (sq : Fin 4096) (s : State) : Out := runCmd 0x0203 (fun c => c.byte 12 == 1) doAxisEnable sq s
/-- AXIS_ENABLE: stage 2, and a stage that is none. -/
def execAxisEnable (sq : Fin 4096) (s : State) : Out := runCmd 0x0203 (fun c => c.byte 12 != 1) doAxisEnable sq s

/-- AXIS_DISABLE, stop 1 RAMP or 2 STO, target state 1 ADMITTED or 2 ARMED: it completes at once but for a ramp; a cause
of the same sample may still change that (R96). -/
def doAxisDisable (r : Nat) (c : Cmd) (x : MD) : CmdRes :=
  let p := c.byte 12
  let t := c.byte 13
  chk (axisChecks c (c.bad [(12, 2, 0xFF)] || !(p == 1 || p == 2) || !(t == 1 || t == 2)) x.2) fun _ =>
    match axisDisable c.tgt p t x.2 with
    | (_, some st, _, _) => .no st 0
    | (d, none, _, true) => .wait c.tgt [] (x.1, d)
    | (d, none, sto, false) => .done (if sto then stOkWarning else stOk) (b2n sto + d.axSt c.tgt * 256)
        (x.1, d.modAxis c.tgt fun y => { y with trans := y.trans ++ [(r, dTag c.d0, 256)] })

/-- AXIS_DISABLE_RAMP: stop 1. -/
def execAxisDisableRamp (sq : Fin 4096) (s : State) : Out := runCmd 0x0204 (fun c => c.byte 12 == 1) doAxisDisable sq s
/-- AXIS_DISABLE_STO: stop 2, and a stop that is none. -/
def execAxisDisableSto (sq : Fin 4096) (s : State) : Out := runCmd 0x0204 (fun c => c.byte 12 != 1) doAxisDisable sq s

/-! ## LAW_LOAD (R46, R47, R365, R424) -/

/-- The law words that bytes make up. -/
def lawWordsOf (b : List Byte) : List (BitVec 64) := (List.range (b.length / 8)).map fun i => BitVec.ofNat 64 (dget b (8 * i) 8)

/-- Law words put into the law store of a lane, with valid ECC (R48). -/
def putLaw (n base : Nat) (l : List (BitVec 64)) (d : Dev) : Dev :=
  d.modLane n fun y => l.zipIdx.foldl (fun z e =>
    { z with law := mset 0 z.law (base + e.2) e.1, lawErr := mset 0 z.lawErr (base + e.2) 0 }) y

/-- The lanes whose law stores a load writes: both of a pair. -/
def Dev.lawLanes (d : Dev) (n : Nat) : List Nat := if (d.lane n).paired then [n, n + 1] else [n]

/-- A law of len ccyc at base bound to slot g for a kind, as a re-admission of the slot's axis a.
Assumption 48 (DESIGN CHOICE). -/
def bindLaw (n g kind base len a : Nat) (d : Dev) : Dev :=
  let cfg := d.rd (PLN_SLOT_CFG n g)
  let vel := d.rd (PLN_SLOT_VEL n g)
  let pos := d.rd (PLN_SLOT_POS n g)
  let put := fun (w : Word) => fput PLN_SLOT_VEL_en (fput PLN_SLOT_VEL_len (fput PLN_SLOT_VEL_base w base) len) 1
  let cfg1 := if kind = 0 then fput PLN_SLOT_CFG_cur_len (fput PLN_SLOT_CFG_cur_base cfg base) (min len 255) else cfg
  let d1 := d.modAxis a fun y => { y with adm := some (d.admNow a) }
  (d.lawLanes n).foldl (fun y m => stageSlot m g cfg1 (if kind = 1 then put vel else vel) (if kind = 2 then put pos else pos)
    (d.rd (PLN_SLOT_SCHED n g)) y) d1

/-- A law image of so many words checked (R424): its words and what stands plain, or the reason it is rejected with. -/
def Dev.lawImage (d : Dev) (b : List Byte) (words : Nat) : Nat × List (BitVec 64) :=
  if imgLen b ≠ 8 * words ∨ imgWords b ≠ words ∨ imgLawKind b = 3 then (1, [])
  else
    let r := d.imgCheck b 3 (8 * words) true
    (r.1, lawWordsOf r.2)

/-- LAW_LOAD: the image is checked and its words written; with bind they are bound through admission.
Assumption 48 (DESIGN CHOICE). -/
def doLawLoad (_ : Nat) (c : Cmd) (x : MD) : CmdRes :=
  let d := x.2
  let n := c.tgt
  let len := c.get 20 4
  let base := c.get 24 2
  let words := (len - 256) / 8
  let bindIt := bit (c.byte 26) 1
  let g := c.byte 27
  let kind := c.byte 28
  let a := d.slotOwner n g
  let noRow := match a with
    | some i => !(d.axSt i == stAdmitted || d.axSt i == stArmed || d.axSt i == stEnabled)
    | none => true
  chk ([(decide (16 ≤ n) || d.badCluster (n / 4), stBadTarget),
      (c.bad [(12, 14, 0xFF), (26, 1, 3), (27, 1, 3), (28, 1, 3)] || decide (len < 264 ∨ 4352 < len ∨ len % 8 ≠ 0) ||
        decide (2048 < base + words) || kind == 3 || (c.buf 12 26).bad len, stBadParam)] ++ d.clusterBad (n / 4) ++
      [((d.lane n).paired && !(d.lane n).primary, stNotPermitted),
       (d.lawLanes n |>.any fun m => (List.range words).any fun i => d.lawBound m (base + i), stNotPermitted),
       (bindIt && (match a with | some i => d.axBusy i | none => false), stBusy), (bindIt && noRow, stNotPermitted)]) fun _ =>
    withIn (c.buf 12 26) len x fun b y =>
      let r := y.2.lawImage b words
      let cur := if bindIt then kind == 0 else imgLawKind b == 0
      let result := base + words * 2 ^ 11
      if r.1 ≠ 0 then .done stImageRejected r.1 (y.1, rejectImage (imgKind b) r.1 1 y.2)
      else if !lawOk cur r.2 then .done stAdmissionRefused (refusalResult (1, 0xFF, n)) y
      else
        let put := fun (e : Dev) => (e.lawLanes n).foldl (fun z m => putLaw m base r.2 z) e
        if !bindIt then .done stOk result (y.1, put y.2)
        else admitWait n result n (fun e => e.lawLanes n) (fun e => bindLaw n g kind base (imgLawLen b) (a.getD 0) (put e)) y

/-- LAW_LOAD. -/
def execLawLoad (sq : Fin 4096) (s : State) : Out := runCmd 0x0210 anyCmd doLawLoad sq s

/-! ## GAINSET_WRITE (R50, R80, R82, R366) -/

/-- A record of GAINSET_WRITE: regions, first word, words, and a new top. -/
structure GainRec where
  mask : Nat
  first : Nat
  count : Nat
  top : Option Nat
  words : List Word
deriving DecidableEq, Repr

/-- The record at byte i of a descriptor. Assumption 48 (DESIGN CHOICE). -/
def gainRec (b : List Byte) (i : Nat) : GainRec :=
  let n := dget b (i + 2) 1
  let t := dget b (i + 3) 1
  { mask := dget b i 1, first := dget b (i + 1) 1, count := n, top := if bit t 7 then some (t % 8) else none,
    words := (List.range (min n 8)).map fun k => w32 (dget b (i + 4 + 4 * k) 4) }

/-- The record breaks R366. -/
def badGain (g : GainRec) : Bool := decide (g.mask = 0 ∨ g.count < 1 ∨ 8 < g.count ∨ 32 < g.first + g.count)

/-- The gain words that records write: index within the slot and value, in order. -/
def gainWords (l : List GainRec) : List (Nat × Word) :=
  l.flatMap fun g => ((List.range 8).filter g.mask.testBit).flatMap fun r =>
    g.words.zipIdx.map fun e => (r * 32 + g.first + e.2, e.1)

/-- The gain store of slot s of lane n as it stands once what is staged and these words have applied. -/
def Dev.gainThen (d : Dev) (n s : Nat) (ws : List (Nat × Word)) : SMap Word :=
  ((d.lane n).staged ++ ws.map fun e => (s * 256 + e.1, e.2)).foldl (fun m e => mset 0 m e.1 e.2) (d.lane n).gain

/-- Each integral gain is zero in all regions up to top, or in none (R82): words 1, 3 and 6 of a region. -/
def integralsOk (m : SMap Word) (s top : Nat) : Bool :=
  [1, 3, 6].all fun k =>
    let z := (List.range (top + 1)).map fun r => mget 0 m (s * 256 + r * 32 + k) == 0
    z.all id || z.all (!·)

/-- The top region as it stands once what is staged has applied. -/
def Dev.topThen (d : Dev) (a : Nat) : Nat :=
  match ((d.lane (d.axLane a)).stagedTop.filter fun e => e.1 == d.axSlotNo a).getLast? with
  | some e => e.2
  | none => d.fld (AXS_RGN_CFG a) AXS_RGN_CFG_top

/-- GAINSET_WRITE: all records together are written, or staged on both lanes of a pair. Assumption 48 (DESIGN CHOICE). -/
def doGainsetWrite (_ : Nat) (c : Cmd) (x : MD) : CmdRes :=
  let d := x.2
  let a := c.tgt
  let rest := c.descs.drop 1
  let l := gainRec c.d0 12 :: rest.map fun b => gainRec b 8
  let many := !rest.isEmpty
  let res := reservedSet (dAuth c.d0 && !many) c.d0 12 [(12, 3, 0xFF), (15, 1, 0x87), (16, 32, 0xFF)] ||
    rest.zipIdx.any fun e => reservedSet (dAuth e.1 && e.2 + 1 == rest.length) e.1 8 [(8, 3, 0xFF), (11, 1, 0x87), (12, 32, 0xFF)]
  let top := (l.filterMap GainRec.top).getLast?
  let ws := gainWords l
  let s := d.axSlotNo a
  let held := d.axSt a != stRetired && !integralsOk (d.gainThen (d.axLane a) s ws) s (top.getD (d.topThen a))
  chk (axisChecks c (res || l.any badGain || held) d ++ [(d.axSt a == stRetired, stNotPermitted)]) fun _ =>
    let d1 := (d.axLanes a).foldl (fun y n => ws.foldl (fun z e => putGain n s e.1 e.2 z) y) d
    let d2 := match top with
      | none => d1
      | some t =>
        if d.lawsRun a then (d.axLanes a).foldl (fun y n => y.modLane n fun k => { k with stagedTop := k.stagedTop ++ [(s, t)] }) d1
        else d1.setF (AXS_RGN_CFG a) AXS_RGN_CFG_top t
    .done stOk (l.foldl (fun m g => m ||| g.mask) 0) (x.1, d2)

/-- GAINSET_WRITE. -/
def execGainsetWrite (sq : Fin 4096) (s : State) : Out := runCmd 0x0211 anyCmd doGainsetWrite sq s

end Sys2Proof.Machine
end

