-- ==== Sys2Proof/Machine/CmdCore.lean ====
section
/-!
DEFINITION. The commands of class 0x0C (R379, R380): loading, starting and resetting cluster cores, splitting and merging
pairs, and starting engines together.
-/
namespace Sys2Proof.Machine

/-! ## Cores (R260, R276, R379, R424) -/

/-- The checks of a command on a core: no such core, or one that is no cluster core. -/
def coreChecks (c : Cmd) (bad : Bool) (d : Dev) : List (Bool × Nat) :=
  let k := c.tgt
  [(decide (18 < k) || (decide (k < 16) && d.badCluster (k / 4)), stBadTarget), (bad, stBadParam), (decide (16 ≤ k), stNotPermitted)] ++
    d.clusterBad (k / 4)

/-- Core k is stopped: it runs no program and does not stand in LOCKOUT. Assumption 53 (DEDUCED). -/
def Dev.coreStopped (d : Dev) (k : Nat) : Bool := !(d.core k).running && !d.locked k

/-- The banks of a cluster image lie in the cluster of core k, exclude bank 15, and belong to nobody or to the core. -/
def Dev.imgPlace (d : Dev) (k : Nat) (b : List Byte) : Bool :=
  let l := imgLoad b / 0x10000
  let n := (imgLen b + 0xFFFF) / 0x10000
  imgLoad b % 0x10000 == 0 && decide (l + n ≤ 15) && decide (l < 15) && (banksOf (k / 4 * 16 + l) (imgLen b)).all fun q =>
    let o := d.fld (ING_BANK_OWN q) ING_BANK_OWN_owner
    o == 0 || o == k % 4 + 1

/-- CORE_LOAD: the image is checked and placed; its banks pass to the core. Assumption 53 (DEDUCED). -/
def doCoreLoad (_ : Nat) (c : Cmd) (x : MD) : CmdRes :=
  let k := c.tgt
  let n := c.get 12 4
  chk (coreChecks c (c.bad [(12, 12, 0xFF), (24, 1, 1)] || (c.buf 16 24).bad n) x.2 ++
      [(!x.2.coreStopped k, stNotPermitted)]) fun _ =>
    withIn (c.buf 16 24) n x fun b y =>
      let r := y.2.imgCheck b 2 0x100000 (y.2.imgPlace k b)
      if r.1 ≠ 0 then .done stImageRejected r.1 (y.1, rejectImage (imgKind b) r.1 1 y.2)
      else
        let l := imgLoad b / 0x10000 % 16
        let img : CoreImage := ⟨Fin.ofNat 4 k, imgMode b == 1, Fin.ofNat 16 l, imgEntry b, r.2⟩
        .done stOk ((bankAddr (k / 4 * 16 + l) 0 + imgEntry b) % 2 ^ 32) (placeImage k img y)

/-- CORE_LOAD. -/
def execCoreLoad (sq : Fin 4096) (s : State) : Out := runCmd 0x0C01 anyCmd doCoreLoad sq s

/-- CORE_START: a stopped core starts at the entry of its image. Assumption 53 (DEDUCED). -/
def doCoreStart (_ : Nat) (c : Cmd) (x : MD) : CmdRes :=
  let k := c.tgt
  chk (coreChecks c (c.bad []) x.2 ++ [(!x.2.coreStopped k || (x.2.core k).entry.isNone, stNotPermitted)]) fun _ =>
    .done stOk 0 (x.1, startCore k x.2)

/-- CORE_START. -/
def execCoreStart (sq : Fin 4096) (s : State) : Out := runCmd 0x0C02 anyCmd doCoreStart sq s

/-- Core k is reset: it stops and leaves LOCKOUT, and CORE_LOCKOUT ends on the axes it supervises; a request of its pair
ends with it. -/
def coreReset (k : Nat) (d : Dev) : Dev :=
  let q := k / 2
  let d1 := (clearCores k 1 d).wr (ANV_CTL k) 0
  let sup := (d.rd (ANV_SUPV k)).toNat
  let d2 := upTo 16 (fun l => when (sup.testBit l) (setAct (k / 4 * 16 + l) 0x0C false)) d1
  let d3 := if d2.flag (ASY_PAIR_CTL q) ASY_PAIR_CTL_req_merge then pairRequestEnd q true stAbortedReset 0 d2 else d2
  if d3.flag (ASY_PAIR_CTL q) ASY_PAIR_CTL_req_split then pairRequestEnd q false stAbortedReset 0 d3 else d3

/-- CORE_RESET. Assumption 53 (DEDUCED). -/
def doCoreReset (_ : Nat) (c : Cmd) (x : MD) : CmdRes :=
  let k := c.tgt
  chk (coreChecks c (c.bad []) x.2 ++ [(x.2.pairedQ (k / 2), stNotPermitted)]) fun _ => .done stOk 0 (x.1, coreReset k x.2)

/-- CORE_RESET. -/
def execCoreReset (sq : Fin 4096) (s : State) : Out := runCmd 0x0C03 anyCmd doCoreReset sq s

/-! ## Pairs (R309 to R311, R314, R380) -/

/-- The core pair that a target names, 8 for the bench pair. -/
def corePairOf (t : Nat) : Option Nat := if t < 8 then some t else if t = 0x10 then some 8 else none

/-- SPLIT or MERGE of a core pair is requested; the command completes when it applies. Assumption 43 (DEDUCED). -/
def pairCores (q : Nat) (merge : Bool) (x : MD) : CmdRes :=
  match pairAsk q merge x.2 with
  | (d, 0) => .wait (pairNo q) [if merge then 2 else 1] (x.1, d)
  | (_, st) => .no st 0

/-- The shadow lane n of a pair to be split: its valid slots are staged as cleared. -/
def clearShadow (n : Nat) (d : Dev) : Dev :=
  upTo 4 (fun s x => when (x.flag (PLN_SLOT_CFG n s) PLN_SLOT_CFG_valid)
    (fun y => markCommit n s (y.setB (PLN_SLOT_CFG n s) PLN_SLOT_CFG_valid false)) x) d

/-- Both lanes of the pair at lane n carry this request until their commit. Assumption 53 (DEDUCED). -/
def askLanes (n req : Nat) (d : Dev) : Dev :=
  (d.modLane n fun l => { l with pairReq := req }).modLane (n + 1) fun l => { l with pairReq := req }

/-- SPLIT or MERGE of the lane pair at lane n goes through admission, with the axes that l admits onto the shadow lane.
Assumption 53 (DEDUCED). -/
def pairLanes (t n : Nat) (merge : Bool) (l : List AdmitRec) (x : MD) : CmdRes :=
  let d := x.2
  if merge && d.proposed (n + 1) != [] then .no stAdmissionRefused (refusalResult (3, 0xFF, n + 1))
  else
    let stage := fun (y : Dev) =>
      let z := askLanes n (if merge then 1 else 2) y
      if merge then z else l.foldl (fun w r => stageAxis r w) (clearShadow (n + 1) z)
    match judge (fun y => ([n, n + 1] ++ y.lanesTouched l).eraseDups) stage d with
    | (_, some r) => .no stAdmissionRefused (refusalResult r)
    | (e, none) => .wait t (0 :: n :: (([n, n + 1] ++ e.lanesTouched l).eraseDups.filter fun m =>
        m == n || m == n + 1 || e.marked [m] != [])) (x.1, e)

/-- PAIR, op 1 SPLIT or 2 MERGE, of a core pair or of a lane pair. -/
def doPair (_ : Nat) (c : Cmd) (x : MD) : CmdRes :=
  let d := x.2
  let t := c.tgt
  let op := c.byte 12
  let merge := op == 2
  let rest := c.descs.drop 1
  let badOp := reservedSet (dAuth c.d0 && rest.isEmpty) c.d0 12 [(12, 1, 0xFF), (14, 2, 0xFF)] || !(op == 1 || op == 2)
  match corePairOf t with
  | some q =>
    chk ([(decide (q < 8) && d.badCluster (q / 2), stBadTarget), (badOp || !rest.isEmpty, stBadParam)] ++
      (if q < 8 then d.clusterBad (q / 2) else [])) fun _ => pairCores q merge x
  | none =>
    let p := t - 8
    let n := 2 * p
    let l := rest.map admitRec
    let res := rest.zipIdx.any fun e => reservedSet (dAuth e.1 && e.2 + 1 == rest.length) e.1 12 admitBits
    chk ([(decide (16 ≤ t) || d.badCluster (p / 2), stBadTarget),
        (badOp || (merge && !rest.isEmpty) || res || l.any badAdmit ||
          (l.any fun r => d.badAxis r.axis || axCl r.axis * 4 + r.lane != n + 1) || !(l.map AdmitRec.axis).Nodup, stBadParam)] ++
        d.clusterBad (p / 2) ++
        [((d.lane n).pairReq != 0 || (l.any fun r => d.axBusy r.axis), stBusy),
         ((d.lane n).paired == merge || l.any d.admitDenied, stNotPermitted)]) fun _ => pairLanes t n merge l x

/-- PAIR_SPLIT: op 1. -/
def execPairSplit (sq : Fin 4096) (s : State) : Out := runCmd 0x0C10 (fun c => c.byte 12 == 1) doPair sq s
/-- PAIR_MERGE: op 2, and an op that is none. -/
def execPairMerge (sq : Fin 4096) (s : State) : Out := runCmd 0x0C10 (fun c => c.byte 12 != 1) doPair sq s

/-! ## Engines (R221, R380) -/

/-- ENGINE_GSTART starts the named stopped engines together. -/
def doEngineGstart (_ : Nat) (c : Cmd) (x : MD) : CmdRes :=
  let d := x.2
  let t := c.tgt
  let m := c.byte 12
  let none_ := !(List.range 8).any fun i => m.testBit i && !d.egOn (t * 8 + i)
  chk ([(d.badCluster t, stBadTarget), (c.bad [(12, 1, 0xFF)] || none_, stBadParam)] ++ d.clusterBad t) fun _ =>
    .done stOk (d.copy t % 2 ^ 48) (x.1, chsGstart t m d)

/-- ENGINE_GSTART. -/
def execEngineGstart (sq : Fin 4096) (s : State) : Out := runCmd 0x0C20 anyCmd doEngineGstart sq s

end Sys2Proof.Machine
end

