-- ==== Sys2Proof/Machine/CmdMem.lean ====
section
/-!
DEFINITION. The commands of class 0x0B (R378): memory transfer between the fabric and host memory and within the fabric.
-/
namespace Sys2Proof.Machine

/-- A fabric range of a memory-transfer command is wrong: its address or length, or where it lies (R355, R378).
Assumption 46 (DEDUCED). -/
def badRange (a n : Nat) : Bool := decide (a % 4 ≠ 0 ∨ n % 4 ≠ 0 ∨ n < 4 ∨ 2 ^ 24 < n) || !ladRange a n

/-- How a transfer of fabric words ends: with the bytes moved, or the failure's code. -/
def moved (n : Nat) (fail : Option Nat) (x : MD) : CmdRes :=
  match fail with
  | none => .done stOk n x
  | some code => .done stTransferFailed code x

/-- MEM_READ: fabric words to host memory. -/
def doMemRead (_ : Nat) (c : Cmd) (x : MD) : CmdRes :=
  let n := c.get 16 4
  chk [(c.badNone, stBadTarget), (c.bad [(12, 16, 0xFF)] || badRange (c.get 12 4) n, stBadParam)] fun _ =>
    if !x.2.hostOk then .hold
    else
      let r := ladRead (n + 1) (c.get 12 4) n x
      moved n r.2.2 (r.1.1.setHost (c.get 20 8) r.2.1, r.1.2)

/-- MEM_READ. -/
def execMemRead (sq : Fin 4096) (s : State) : Out := runCmd 0x0B01 anyCmd doMemRead sq s

/-- The first n bytes at the host source of a MEM_WRITE go to its fabric destination. Assumption 54 (DEDUCED). -/
def memWritePart (c : Cmd) (n : Nat) (x : MD) : MD × Nat × Option Nat :=
  ladWrite (n + 1) (c.get 12 4) (x.1.hostSpan (c.get 20 8) n) x

/-- MEM_WRITE: host memory to fabric words. -/
def doMemWrite (_ : Nat) (c : Cmd) (x : MD) : CmdRes :=
  let n := c.get 16 4
  chk [(c.badNone, stBadTarget), (c.bad [(12, 16, 0xFF)] || badRange (c.get 12 4) n, stBadParam)] fun _ =>
    if !x.2.hostOk then .hold
    else
      let r := memWritePart c n x
      moved n r.2.2 r.1

/-- MEM_WRITE. -/
def execMemWrite (sq : Fin 4096) (s : State) : Out := runCmd 0x0B02 anyCmd doMemWrite sq s

/-- n words copied from a to b in ascending order, up to a failure. -/
def copyWords : Nat → Nat → Nat → MD → MD × Option Nat
  | 0, _, _, x => (x, none)
  | n + 1, a, b, x =>
    match ladReadWord a x with
    | (y, .inr why) => (y, some (failCode a why))
    | (y, .inl v) =>
      match ladWriteWord b (leBytes 4 v.toNat) y with
      | (z, some why) => (z, some (failCode b why))
      | (z, none) => copyWords n (a + 4) (b + 4) z

/-- MEM_COPY: fabric words to fabric words. -/
def doMemCopy (_ : Nat) (c : Cmd) (x : MD) : CmdRes :=
  let a := c.get 12 4
  let n := c.get 16 4
  let b := c.get 20 4
  chk [(c.badNone, stBadTarget),
    (c.bad [(12, 12, 0xFF)] || badRange a n || badRange b n || decide (a < b ∧ b < a + n), stBadParam)] fun _ =>
    let r := copyWords (n / 4) a b x
    moved n r.2 r.1

/-- MEM_COPY. -/
def execMemCopy (sq : Fin 4096) (s : State) : Out := runCmd 0x0B03 anyCmd doMemCopy sq s

/-- MEM_FILL: a pattern word over fabric words. -/
def doMemFill (_ : Nat) (c : Cmd) (x : MD) : CmdRes :=
  let a := c.get 12 4
  let n := c.get 16 4
  chk [(c.badNone, stBadTarget), (c.bad [(12, 12, 0xFF)] || badRange a n, stBadParam)] fun _ =>
    let r := ladWrite (n + 1) a ((List.range (n / 4)).flatMap fun _ => leBytes 4 (c.get 20 4)) x
    moved n r.2.2 r.1

/-- MEM_FILL. -/
def execMemFill (sq : Fin 4096) (s : State) : Out := runCmd 0x0B04 anyCmd doMemFill sq s

end Sys2Proof.Machine
end

