-- ==== Sys2Proof/Machine/CmdMotion.lean ====
section
/-!
DEFINITION. The commands of classes 0x03 to 0x06 (R367 to R373): segments and their streams, cam tables, groups,
setpoints and Flux; feeders; captures, snapshots and conversions; the Seam link.
-/
namespace Sys2Proof.Machine

/-! ## Segments (R168, R178 to R180, R367) -/

/-- Eight words as a segment entry (R166). -/
def segOf (b : List Byte) : Seg :=
  let w := fun i => w32 (dget b (4 * i) 4)
  ⟨w 0, w 1, w 2, w 3, w 4, w 5, w 6, w 7⟩

/-- An ST ring is bound to axis a. -/
def Dev.streamed (d : Dev) (a : Nat) : Bool := d.flag (AXS_SEG_STAT a) AXS_SEG_STAT_str

/-- The ring bound to axis a. -/
def Dev.streamRing (d : Dev) (a : Nat) : Nat := d.fld (AXS_SEG_STAT a) AXS_SEG_STAT_str_ring

/-- SEG_APPEND: the entry is checked and enqueued. -/
def doSegAppend (_ : Nat) (c : Cmd) (x : MD) : CmdRes :=
  let d := x.2
  let a := c.tgt
  let g := segOf ((c.d0.drop 12).take 32)
  let no := d.segCheck a g
  chk (axisChecks c (c.bad [(12, 32, 0xFF)] || no == some stBadParam) d ++
    [(no.isSome, stBadTarget), (d.axSt a == stRetired || d.axSt a == stFaulted || d.streamed a, stNotPermitted),
     (decide (64 ≤ (d.interp a).len), stBusy)]) fun _ =>
    let d1 := enqueue a g d
    .done stOk (d1.interp a).len (x.1, d1)

/-- SEG_APPEND. -/
def execSegAppend (sq : Fin 4096) (s : State) : Out := runCmd 0x0301 anyCmd doSegAppend sq s

/-- SEG_FLUSH: what has not started is discarded, and a bound stream ends. -/
def doSegFlush (_ : Nat) (c : Cmd) (x : MD) : CmdRes :=
  let d := x.2
  let a := c.tgt
  chk (axisChecks c (c.bad []) d ++ [(d.axSt a == stRetired, stNotPermitted)]) fun _ =>
    let d1 := flushQueue a d
    .done stOk (d.interp a).len (x.1, if d.streamed a then unbindStream a (d.streamRing a) d1 else d1)

/-- SEG_FLUSH. -/
def execSegFlush (sq : Fin 4096) (s : State) : Out := runCmd 0x0302 anyCmd doSegFlush sq s

/-- SEG_STREAM: op 1 binds an ST ring to an axis, op 0 unbinds it. -/
def doSegStream (_ : Nat) (c : Cmd) (x : MD) : CmdRes :=
  let d := x.2
  let a := c.tgt
  let r := c.get 12 2
  let op := c.byte 14
  let mine := d.streamed a && d.streamRing a == r
  let busy := if op = 1 then d.streamed a || (d.stBound r).isSome else !mine
  chk (axisChecks c (c.bad [(12, 3, 0xFF)] || decide (1 < op) || decide (4096 ≤ r) || !d.isRing r tyST) d ++ [(busy, stBusy)]) fun _ =>
    .done stOk 0 (x.1,
      if op = 1 then
        ((d.setB (AXS_SEG_STAT a) AXS_SEG_STAT_str true).setF (AXS_SEG_STAT a) AXS_SEG_STAT_str_ring r).setF (LDL_RING_CFG r)
          LDL_RING_CFG_link a
      else unbindStream a r d)

/-- SEG_STREAM_BIND: op 1, and an op that is none. -/
def execSegStreamBind (sq : Fin 4096) (s : State) : Out := runCmd 0x0303 (fun c => c.byte 14 != 0) doSegStream sq s
/-- SEG_STREAM_UNBIND: op 0. -/
def execSegStreamUnbind (sq : Fin 4096) (s : State) : Out := runCmd 0x0303 (fun c => c.byte 14 == 0) doSegStream sq s

/-- Up to n records of ring r are taken into the queue of axis a; one that fails its check stops the stream (R168, R351).
Assumption 49 (DESIGN CHOICE). -/
def refill (a r : Nat) : Nat → MD → MD
  | 0, x => x
  | n + 1, x =>
    let d := x.2
    let h := d.ringHead r
    if d.ringTail r = h ∨ !d.streamed a then x
    else
      let g := segOf (x.1.hostSpan (d.ringBase r + 32 * h) 32)
      let next := fun (e : Dev) => e.setF (LDL_RING_PTR r) LDL_RING_PTR_head ((h + 1) % d.ringN r)
      if (d.segCheck a g).isSome then
        let d1 := unbindStream a r (next d)
        let d2 := d1.setB (AXS_SEG_STAT a) AXS_SEG_STAT_seg_err true
        (x.1, when (!d.flag (AXS_SEG_STAT a) AXS_SEG_STAT_seg_err) (postEvent 0x0304 (0x10 + axCl a) a [g.tag + 65536]) d2)
      else refill a r n (x.1, next (enqueue a g d))

/-- ST_REFILL: the queue of an axis with a bound ring takes up to 16 records once 16 entries are free (R179, R351).
Assumption 49 (DESIGN CHOICE). -/
def execStRefill (a : Fin 64) (s : State) : Out :=
  s.updB fun m d =>
    let a := a.val
    let r := d.streamRing a
    if !d.streamed a || !d.isRing r tyST || d.ringBad r || d.ringDel r || !d.hostOk || !d.clusterRuns (axCl a) ||
        decide (48 < (d.interp a).len) || d.ringUsed r == 0 then (m, d)
    else headMirror r (refill a r 16 (m, d))

/-! ## Cam tables, groups, setpoints, Flux (R177, R181, R368, R369) -/

/-- A running CAM segment of cluster c reads table k. -/
def Dev.camRuns (d : Dev) (c k : Nat) : Bool :=
  (List.range 16).any fun l =>
    match (d.interp (c * 16 + l)).run with
    | some r => r.seg.kind == 5 && !r.asHold && bits r.seg.w2.toNat 18 16 == k
    | none => false

/-- Words put into a cluster's bank 15 from an address on. -/
def bank15Put : Nat → List Word → Dev → Dev
  | _, [], d => d
  | a, v :: l, d => bank15Put (a + 4) l { d with bank15 := mset 0 d.bank15 a v }

/-- CAM_LOAD writes table k of the cluster. -/
def doCamLoad (_ : Nat) (c : Cmd) (x : MD) : CmdRes :=
  let d := x.2
  let k := c.byte 12
  chk ([(d.badCluster c.tgt, stBadTarget), (c.bad [(12, 1, 7), (16, 8, 0xFF), (24, 1, 1)] || (c.buf 16 24).bad 4096, stBadParam)] ++
      d.clusterBad c.tgt ++ [(d.camRuns c.tgt k, stBusy)]) fun _ =>
    withIn (c.buf 16 24) 4096 x fun b y =>
      .done stOk 0 (y.1, bank15Put (0x010F8000 + c.tgt * 0x100000 + k * 0x1000) (bytesWords b) y.2)

/-- CAM_LOAD. -/
def execCamLoad (sq : Fin 4096) (s : State) : Out := runCmd 0x0304 anyCmd doCamLoad sq s

/-- GROUP_SET writes the registers of a group; what R181 refuses is refused. Assumption 49 (DESIGN CHOICE). -/
def doGroupSet (_ : Nat) (c : Cmd) (x : MD) : CmdRes :=
  let d := x.2
  let g := c.tgt
  let en := c.byte 12
  let cfg := fput FLX_GRP_CFG_mem_en (fput FLX_GRP_CFG_en 0 (c.byte 13 % 2)) en
  let lo := w32 (c.get 16 4)
  let hi := w32 (c.get 20 4)
  let far := (List.range 8).any fun i => en.testBit i && d.badAxis (c.byte (16 + i))
  let v := d.grpCheck g cfg lo hi
  chk ([(decide (32 ≤ g) || d.badCluster (g / 8), stBadTarget),
      (c.bad [(12, 1, 0xFF), (13, 1, 1), (16, 8, 0x3F)] || far || v == 1, stBadParam)] ++ d.clusterBad (g / 8) ++
      [(v == 2, stNotPermitted)]) fun _ =>
    let d1 := grpSpan g (((d.wr (FLX_GRP_CFG g) cfg).wr (FLX_GRP_MEM_LO g) lo).wr (FLX_GRP_MEM_HI g) hi)
    .done stOk (d1.fld (FLX_GRP_CFG g) FLX_GRP_CFG_span) (x.1, d1)

/-- GROUP_SET. -/
def execGroupSet (sq : Fin 4096) (s : State) : Out := runCmd 0x0305 anyCmd doGroupSet sq s

/-- SETPOINT_PUT writes parameter words of the axis's slot, on both lanes of a pair. -/
def doSetpointPut (_ : Nat) (c : Cmd) (x : MD) : CmdRes :=
  let d := x.2
  let a := c.tgt
  let f := c.byte 12
  let n := c.byte 13
  chk (axisChecks c (c.bad [(12, 2, 0xFF), (16, 32, 0xFF)] ||
      decide (f < 0xC0 ∨ n < 1 ∨ 8 < n ∨ 0x100 < f + n ∨ (f ≤ 0xCF ∧ 0xCF < f + n))) d ++
      [(d.axSt a == stRetired || d.axSt a == stFaulted, stNotPermitted)]) fun _ =>
    let put := fun (l : Nat) (e : Dev) =>
      (List.range n).foldl (fun y i => varWrite l (d.axSlotNo a) (f + i) (w32 (c.get (16 + 4 * i) 4)) y) e
    .done stOk 0 (x.1, (d.axLanes a).foldl (fun y l => put l y) d)

/-- SETPOINT_PUT. -/
def execSetpointPut (sq : Fin 4096) (s : State) : Out := runCmd 0x0310 anyCmd doSetpointPut sq s

/-- FLUX_FIRE pulses the masked SW sources. Assumption 49 (DESIGN CHOICE). -/
def doFluxFire (_ : Nat) (c : Cmd) (x : MD) : CmdRes :=
  let d := x.2
  chk ([(d.badCluster c.tgt, stBadTarget), (c.bad [(12, 1, 15)] || c.byte 12 == 0, stBadParam)] ++ d.clusterBad c.tgt) fun _ =>
    .done stOk (d.copy c.tgt % 2 ^ 48) (x.1, swFire c.tgt (w32 (c.byte 12)) d)

/-- FLUX_FIRE. -/
def execFluxFire (sq : Fin 4096) (s : State) : Out := runCmd 0x0320 anyCmd doFluxFire sq s

/-! ## Feeders (R370, R385, R389) -/

/-- No port. -/
def Cmd.badPort (c : Cmd) : Bool := decide (8 ≤ c.tgt)

/-- FEEDER_POLL_SET stages a list; it completes when a round takes it. -/
def doFeederPollSet (_ : Nat) (c : Cmd) (x : MD) : CmdRes :=
  let d := x.2
  let p := c.tgt
  chk [(c.badPort, stBadTarget), (c.bad [(12, 1, 0xFE), (13, 15, 0xFF)], stBadParam),
    (d.waits.any fun w => w.op == 0x0401 && w.target == p, stBusy)] fun _ =>
    let d1 := upTo 4 (fun i y => y.wr (SLD_LIST_NEXT p i) (w32 (c.get (12 + 4 * i) 4))) d
    let d2 := d1.setB (SLD_STAT p) SLD_STAT_list_req true
    let d3 := sldIdle p d2
    if d3.flag (SLD_STAT p) SLD_STAT_list_req then .wait p [] (x.1, d3) else .done stOk (d2.nextRound p) (x.1, d3)

/-- FEEDER_POLL_SET. -/
def execFeederPollSet (sq : Fin 4096) (s : State) : Out := runCmd 0x0401 anyCmd doFeederPollSet sq s

/-- FEEDER_READ copies both mailboxes of consecutive nodes. Assumption 50 (DESIGN CHOICE). -/
def doFeederRead (_ : Nat) (c : Cmd) (x : MD) : CmdRes :=
  let f := c.byte 12
  let n := c.byte 13
  chk [(c.badPort, stBadTarget),
    (c.bad [(12, 2, 0xFF), (16, 8, 0xFF), (24, 1, 1)] || decide (n < 1 ∨ 128 < f + n) || (c.buf 16 24).bad (32 * n), stBadParam)] fun _ =>
    withOut (c.buf 16 24) (x.1.h7 (statusBox c.tgt f) (32 * n)) x fun y => .done stOk 0 y

/-- FEEDER_READ. -/
def execFeederRead (sq : Fin 4096) (s : State) : Out := runCmd 0x0402 anyCmd doFeederRead sq s

/-- FEEDER_CMD writes a node's command mailbox and marks it pending. Assumption 50 (DESIGN CHOICE). -/
def doFeederCmd (_ : Nat) (c : Cmd) (x : MD) : CmdRes :=
  let d := x.2
  let p := c.tgt
  let n := c.byte 12
  chk [(c.badPort, stBadTarget), (c.bad [(12, 1, 0x7F), (16, 16, 0xFF)], stBadParam), (!d.sldListed p n, stNotPermitted),
    (d.sldPend p n, stBusy)] fun _ =>
    let y := h7Put (commandBox p n) (bytesWords ((c.d0.drop 16).take 16)) x
    .done stOk 0 (y.1, setNode (SLD_CMD_PEND p) n true y.2)

/-- FEEDER_CMD. -/
def execFeederCmd (sq : Fin 4096) (s : State) : Out := runCmd 0x0403 anyCmd doFeederCmd sq s

/-! ## Measurement and capture (R371, R372, R485, R486) -/

/-- Capture k runs. -/
def Dev.capRuns (d : Dev) (k : Nat) : Bool := d.fldIf (DBG_CAP_STAT k) DBG_CAP_STAT_running == 1

/-- The variables of all running captures. -/
def Dev.capVars (d : Dev) : Nat :=
  (List.range 8).foldl (fun n k => if d.capRuns k then n + (d.cap k).specs.length else n) 0

/-- A specification of CAPTURE_START that names no valid slot of the part. -/
def Dev.badSpec (d : Dev) (v : Nat) : Bool :=
  let e := specOf v
  decide (2 ^ 14 ≤ v) || !d.hasCluster e.1 || (d.slotOwner e.2.1 e.2.2.1).isNone

/-- CAPTURE_START: the variables are read from a list, and the capture runs from its buffer's start.
Assumption 50 (DESIGN CHOICE). -/
def doCaptureStart (_ : Nat) (c : Cmd) (x : MD) : CmdRes :=
  let k := c.tgt
  let base := c.get 12 4
  let size := c.get 16 4
  let n := c.get 20 2
  let inB : Buf := c.buf 24 32
  chk [(decide (8 ≤ k), stBadTarget),
    (c.bad [(12, 10, 0xFF), (22, 1, 1), (24, 8, 0xFF), (32, 1, 1)] ||
      decide (base % 64 ≠ 0 ∨ size % 64 ≠ 0 ∨ size < 4096 ∨ base < 0x80000000 ∨ 0xF0000000 < base + size ∨ n < 1 ∨ 1024 < n) ||
      inB.bad (4 * n), stBadParam)] fun _ =>
    withIn inB (4 * n) x fun b y =>
      let d := y.2
      let l := (List.range n).map fun i => dget b (4 * i) 4
      if l.any d.badSpec then .done stBadParam 0 y
      else if d.capRuns k || decide (1024 < d.capVars + n) then .done stBusy 0 y
      else
        let e := specOf (l.headD 0)
        let rs := 16 + (n + 3) / 4 * 16
        let d1 := ((d.wr (DBG_CAP_STAT k) 0x80000000).wr (DBG_CAP_WPTR k) 0).wr (DBG_CAP_SEQ k) 0
        .done stOk rs (y.1, d1.modCap k fun _ =>
          { Cap.reset with specs := l, base := base, size := size, wrap := bit (c.byte 22) 0, recSize := rs,
                           axis := (d.slotOwner e.2.1 e.2.2.1).getD 0,
                           recd := (d.axis ((d.slotOwner e.2.1 e.2.2.1).getD 0)).smpRef })

/-- CAPTURE_START. -/
def execCaptureStart (sq : Fin 4096) (s : State) : Out := runCmd 0x0501 anyCmd doCaptureStart sq s

/-- CAPTURE_STOP stops a capture, with reason 2. Assumption 50 (DESIGN CHOICE). -/
def doCaptureStop (_ : Nat) (c : Cmd) (x : MD) : CmdRes :=
  chk [(decide (8 ≤ c.tgt), stBadTarget), (c.bad [], stBadParam)] fun _ =>
    .done stOk ((x.2.cap c.tgt).bytes % 2 ^ 32) (x.1, captureStop c.tgt 2 x.2)

/-- CAPTURE_STOP. -/
def execCaptureStop (sq : Fin 4096) (s : State) : Out := runCmd 0x0502 anyCmd doCaptureStop sq s

/-- TMR_SNAPSHOT acts as a write of snap, and completes when the copy stands (R207, R372). -/
def doTmrSnapshot (_ : Nat) (c : Cmd) (x : MD) : CmdRes :=
  let t := c.tgt
  chk ([(x.2.badCluster t, stBadTarget), (c.bad [], stBadParam)] ++ x.2.clusterBad t ++
      [(!x.2.flag (TMR_SNAP_CTL t) TMR_SNAP_CTL_done, stBusy)]) fun _ =>
    .wait t [] (x.1, tmrSnapshot t x.2)

/-- TMR_SNAPSHOT. -/
def execTmrSnapshot (sq : Fin 4096) (s : State) : Out := runCmd 0x0510 anyCmd doTmrSnapshot sq s

/-- CRU_CONVERT starts a conversion; it completes when that ends. -/
def doCruConvert (_ : Nat) (c : Cmd) (x : MD) : CmdRes :=
  let d := x.2
  let j := c.tgt
  chk [(decide (16 ≤ j), stBadTarget), (c.bad [], stBadParam),
    (!d.flag (CRU_CFG j) CRU_CFG_en || !d.flag CRU_REF_CTL CRU_REF_CTL_ref_en, stNotPermitted),
    ((d.cruRun j).isSome, stBusy)] fun _ => .wait j [] (x.1, cruStart j 0 d)

/-- CRU_CONVERT. -/
def execCruConvert (sq : Fin 4096) (s : State) : Out := runCmd 0x0520 anyCmd doCruConvert sq s

/-! ## Seam link (R373, R402 to R405) -/

/-- The node is a member of the network that this device is a member of. -/
def Dev.reachable (d : Dev) (n : Nat) : Bool := d.semEn && d.member && d.inLayout n

/-- SEAM_MBOX_SEND: the message is queued; its acknowledgement completes the command. -/
def doSeamMboxSend (r : Nat) (c : Cmd) (x : MD) : CmdRes :=
  let n := c.get 12 2
  chk [(decide (1000 ≤ c.tgt), stBadTarget),
    (c.bad [(12, 2, 0xFF), (16, 8, 0xFF), (24, 1, 1), (26, 2, 0xFF)] || decide (n < 1 ∨ 1024 < n) || (c.buf 16 24).bad n, stBadParam),
    (!x.2.reachable c.tgt, stUnreachable)] fun _ =>
    withIn (c.buf 16 24) n x fun b y =>
      let d := y.2.modSem fun s => { s with
        msgs := s.msgs ++ [⟨c.tgt, s.nextId, b, 0, false, false, r⟩], nextId := (s.nextId + 1) % 2 ^ 16 }
      .wait c.tgt [] (y.1, mboxNext c.tgt d)

/-- SEAM_MBOX_SEND. -/
def execSeamMboxSend (sq : Fin 4096) (s : State) : Out := runCmd 0x0601 anyCmd doSeamMboxSend sq s

/-- SEAM_EVENT: the event leaves on the link, and is scheduled here where this device is one of its nodes; what the path to
the farthest destination takes is open. Assumption 50 (DESIGN CHOICE). -/
def doSeamEvent (_ : Nat) (c : Cmd) (x : MD) : CmdRes :=
  let d := x.2
  let n := c.tgt
  let k := c.byte 12
  let t := c.get 16 8
  let me := d.semNode
  chk [(decide (1000 ≤ n ∧ n ≠ 0x3FF), stBadTarget), (c.bad [(12, 1, 7), (16, 8, 0xFF)], stBadParam),
    (if n = 0x3FF then !(d.semEn && d.member) else !d.reachable n, stUnreachable)] fun _ =>
    let path := if n = me then 0 else d.open_
    let late := decide (t < d.liTime + 64 + path)
    let d1 := if n = me then d.bump
      else semOwn fEVENT n (leBytes 4 k ++ leBytes 8 t) (d.bump.modSem fun s => { s with events := s.events ++ [(n, k, t)] })
    .done stOk (b2n late) (x.1, if n = me ∨ n = 0x3FF then schedule k me t d1 else d1)

/-- SEAM_EVENT. -/
def execSeamEvent (sq : Fin 4096) (s : State) : Out := runCmd 0x0602 anyCmd doSeamEvent sq s

/-- SEAM_MEMBER: op 1 asks to join, op 2 to leave; both apply at an epoch boundary. Assumption 50 (DESIGN CHOICE). -/
def doSeamMember (_ : Nat) (c : Cmd) (x : MD) : CmdRes :=
  let d := x.2
  let op := c.byte 12
  let join := op == 1
  chk [(c.badNone, stBadTarget), (c.bad [(12, 1, 0xFF)] || !(op == 1 || op == 2), stBadParam),
    (!d.semEn || (join && (d.member || d.time.mode != 2)) || (!join && !d.member), stNotPermitted),
    (d.waits.any fun w => w.op == 0x0603, stBusy)] fun _ =>
    if join then .wait 0 [1] (x.1, joinStep (d.modSem fun s => { s with joining := true, joinSent := false, joinAge := 0 }))
    else
      let me := d.semNode
      let d1 := d.modSem fun s => { s with leaving := true, leaves := (s.leaves.filter fun e => e.1 != me) ++ [(me, false)] }
      .wait 0 [2] (x.1, if d.keeper then d1 else semOwn fLEAVE (d.fld SEM_STAT SEM_STAT_keeper_node) [] d1)

/-- SEAM_MEMBER_JOIN: op 1, and an op that is none. -/
def execSeamMemberJoin (sq : Fin 4096) (s : State) : Out := runCmd 0x0603 (fun c => c.byte 12 != 2) doSeamMember sq s
/-- SEAM_MEMBER_LEAVE: op 2. -/
def execSeamMemberLeave (sq : Fin 4096) (s : State) : Out := runCmd 0x0603 (fun c => c.byte 12 == 2) doSeamMember sq s

end Sys2Proof.Machine
end

