-- ==== Sys2Proof/Machine/CmdFlash.lean ====
section
/-!
DEFINITION. The commands of class 0x07 (R374, R411 to R427): reads, erases and programs of the flash array, its regions,
and the firmware slots.
-/
namespace Sys2Proof.Machine

/-! ## Reads (R413, R414, R417, R418) -/

/-- How the routine serves a read of sectors: at once, with the running erase suspended for it, not while the bank is
busy, or not before the supplies have recovered or a resumed erase may be suspended again. -/
inductive FlashWay where
  | now
  | suspend
  | busy
  | frozen
deriving DecidableEq, Repr

/-- The way of a read of these sectors. Assumption 51 (DESIGN CHOICE). -/
def Dev.flashWay (d : Dev) (ss : List Nat) : FlashWay :=
  match d.fls.erasing with
  | none => .now
  | some s =>
    if !ss.any fun q => q / 128 == s / 128 then .now
    else if ss.contains s then .busy
    else if d.fls.susp then .now
    else if d.fls.frozen then .frozen
    else if d.fls.forced then .busy
    else if d.eraseFresh then .frozen
    else .suspend

/-- A read of sectors and what follows it: with no_wait a busy bank answers, without it the command waits for the bank.
Assumption 51 (DESIGN CHOICE). -/
def flashGet (ss : List Nat) (noWait : Bool) (x : MD) (k : MD → CmdRes) : CmdRes :=
  if noWait && ss.any (fun q => x.2.progBank == some (q / 128)) then .no stBankBusy 0
  else match x.2.flashWay ss with
  | .now => k x
  | .frozen => if noWait then .no stBankBusy 0 else .hold
  | .busy => if noWait then .no stBankBusy 0 else .hold
  | .suspend => if noWait then .no stBankBusy 0 else k (x.1, x.2.modFls fun f => { f with susp := true })

/-- The sectors of n bytes from offset x on. -/
def sectorsOf (x n : Nat) : List Nat := (List.range ((x + n - 1) / 0x10000 + 1 - x / 0x10000)).map (x / 0x10000 + ·)

/-- FLASH_READ. Assumption 51 (DESIGN CHOICE). -/
def doFlashRead (_ : Nat) (c : Cmd) (x : MD) : CmdRes :=
  let o := c.get 12 4
  let n := c.get 16 4
  chk [(c.badNone, stBadTarget),
    (c.bad [(12, 16, 0xFF), (28, 1, 3)] || decide (n < 1 ∨ 2 ^ 20 < n ∨ n % 4 ≠ 0 ∨ 0x04000000 < o + n) || (c.buf 20 28).bad n,
      stBadParam)] fun _ =>
    flashGet (sectorsOf o n) (bit (c.byte 28) 1) x fun y =>
      withOut (c.buf 20 28) (y.1.flash o n) y fun z => .done stOk 0 z

/-- FLASH_READ. -/
def execFlashRead (sq : Fin 4096) (s : State) : Out := runCmd 0x0701 anyCmd doFlashRead sq s

/-! ## Erases and programs (R374, R415 to R417) -/

/-- A range from o to o + n touches a bank or slot that only other commands change. -/
def Dev.flashKept (d : Dev) (o n : Nat) : Bool :=
  let b := d.fld TCH_BOOT TCH_BOOT_slot
  decide (0x02000000 < o + n) || (decide (b < 2) && decide (o < slotAt (b + 1)) && decide (slotAt b < o + n))

/-- FLASH_ERASE: the sectors join the routine's work. -/
def doFlashErase (r : Nat) (c : Cmd) (x : MD) : CmdRes :=
  let o := c.get 12 4
  let n := c.byte 16
  chk [(c.badNone, stBadTarget),
    (c.bad [(12, 5, 0xFF), (20, 4, 0xFF)] || decide (o % 0x10000 ≠ 0 ∨ n < 1 ∨ 16 < n ∨ 0x04000000 < o + n * 0x10000), stBadParam),
    (x.2.flashKept o (n * 0x10000), stNotPermitted)] fun _ =>
    .wait 0 [] (flsAdd ⟨r, 0x0702, (List.range n).map fun i => .erase (o / 0x10000 + i), 0, c.get 20 4, []⟩ x)

/-- FLASH_ERASE. -/
def execFlashErase (sq : Fin 4096) (s : State) : Out := runCmd 0x0702 anyCmd doFlashErase sq s

/-- FLASH_PROGRAM: the pages join the routine's work. -/
def doFlashProgram (r : Nat) (c : Cmd) (x : MD) : CmdRes :=
  let o := c.get 12 4
  let n := c.get 16 4
  let clear := bit (c.byte 28) 1
  chk [(c.badNone, stBadTarget),
    (c.bad [(12, 16, 0xFF), (28, 1, 3)] ||
      decide (o % 4 ≠ 0 ∨ n < 4 ∨ (if clear then 64 else 4096) < n ∨ n % 4 ≠ 0 ∨ 0x04000000 < o + n) || (c.buf 20 28).bad n,
      stBadParam),
    (x.2.flashKept o n, stNotPermitted)] fun _ =>
    withIn (c.buf 20 28) n x fun b y => .wait 0 [] (flsAdd ⟨r, 0x0703, pages o b clear, 0, 0, []⟩ y)

/-- FLASH_PROGRAM. -/
def execFlashProgram (sq : Fin 4096) (s : State) : Out := runCmd 0x0703 anyCmd doFlashProgram sq s

/-! ## Regions (R420 to R422) -/

/-- The payload limit of a region. -/
def regionLimit (r : Nat) : Nat := (regionShape r).2.2 * pieceLen

/-- REGION_WRITE: a generation of the region is written; writes of one region run one after the other.
Assumption 51 (DESIGN CHOICE). -/
def doRegionWrite (r : Nat) (c : Cmd) (x : MD) : CmdRes :=
  let g := c.tgt
  let n := c.get 12 4
  chk [(decide (4 ≤ g), stBadTarget),
    (c.bad [(12, 12, 0xFF), (24, 1, 1)] || decide (n < 1 ∨ regionLimit g < n) || (c.buf 16 24).bad n, stBadParam)] fun _ =>
    if x.2.waits.any fun w => w.op == 0x0710 && w.target == g then .hold
    else withIn (c.buf 16 24) n x fun b y =>
      match y.2.regionActs y.1 g b with
      | none => .done stBadParam 0 y
      | some (acts, gen) => .wait g [] (flsAdd ⟨r, 0x0710, acts, 0, 0, [gen]⟩ y)

/-- REGION_WRITE. -/
def execRegionWrite (sq : Fin 4096) (s : State) : Out := runCmd 0x0710 anyCmd doRegionWrite sq s

/-- REGION_READ: the current generation, as far as the buffer takes it. Assumption 51 (DESIGN CHOICE). -/
def doRegionRead (_ : Nat) (c : Cmd) (x : MD) : CmdRes :=
  let g := c.tgt
  let n := c.get 12 4
  chk [(decide (4 ≤ g), stBadTarget),
    (c.bad [(12, 12, 0xFF), (24, 1, 1)] || decide (regionLimit g < n) || (c.buf 16 24).bad n, stBadParam)] fun _ =>
    match x.2.region x.1 g with
    | none => .done stOk 0 x
    | some (p, _, k, body) =>
      let ring := x.2.ringSectors g
      flashGet ((List.range k).map fun i => ring.getD ((p + i) % ring.length) 0) false x fun y =>
        withOut (c.buf 16 24) (body.take n) y fun z => .done stOk (min n body.length) z

/-- REGION_READ. -/
def execRegionRead (sq : Fin 4096) (s : State) : Out := runCmd 0x0711 anyCmd doRegionRead sq s

/-! ## Firmware slots (R425) -/

/-- FW_UPDATE: the slot is erased and takes the image, which is then checked in flash. Assumption 51 (DESIGN CHOICE). -/
def doFwUpdate (r : Nat) (c : Cmd) (x : MD) : CmdRes :=
  let s := c.tgt
  let n := c.get 12 4
  chk [(decide (2 ≤ s), stBadTarget),
    (c.bad [(12, 12, 0xFF), (24, 1, 1)] || decide (n < 1 ∨ 16711680 < n) || (c.buf 16 24).bad n, stBadParam),
    (x.2.fld TCH_BOOT TCH_BOOT_slot == s, stNotPermitted),
    (x.2.waits.any fun w => w.op == 0x0720 && w.target == s, stBusy)] fun _ =>
    withIn (c.buf 16 24) n x fun b y =>
      let acts := (List.range 256).map (fun i => FlsAct.erase (s * 256 + i)) ++ pages (slotAt s + 0x10000) b false
      .wait s [] (flsAdd ⟨r, 0x0720, acts, 0, 0, [s, 0, 0]⟩ y)

/-- FW_UPDATE. -/
def execFwUpdate (sq : Fin 4096) (s : State) : Out := runCmd 0x0720 anyCmd doFwUpdate sq s

/-- FW_SELECT: the slot takes the next select sequence; for a slot that is not verified the reason of the rejection is
open. Assumption 51 (DESIGN CHOICE). -/
def doFwSelect (r : Nat) (c : Cmd) (x : MD) : CmdRes :=
  let s := c.tgt
  chk [(decide (2 ≤ s), stBadTarget), (c.bad [], stBadParam)] fun _ =>
    if !x.1.slotVerified s then .done stImageRejected (1 + x.2.open_ % 6) (x.1, x.2.bump)
    else .wait s [] (flsAdd ⟨r, 0x0721, x.1.selectActs s, 0, 0, []⟩ x)

/-- FW_SELECT. -/
def execFwSelect (sq : Fin 4096) (s : State) : Out := runCmd 0x0721 anyCmd doFwSelect sq s

end Sys2Proof.Machine
end

