-- ==== Sys2Proof/Machine/CmdSec.lean ====
section
/-!
DEFINITION. The commands of classes 0x08, 0x09 and 0x0A (R375 to R377): security, diagnostics and counters, and debug.
-/
namespace Sys2Proof.Machine

/-! ## Security (R375, R438 to R452) -/

/-- SESSION_CLOSE ends a session; the command itself, which may belong to it, has begun. Assumption 47 (DEDUCED). -/
def doSessionClose (r : Nat) (c : Cmd) (x : MD) : CmdRes :=
  let k := c.tgt
  chk [(decide (k < 1 ∨ 15 < k), stBadTarget), (c.bad [], stBadParam), ((mget none x.2.hlm.sess k).isNone, stNotPermitted)] fun _ =>
    .done stOk 0 (x.1, sessEnd k 1 (beginCmd r x.2))

/-- SESSION_CLOSE. -/
def execSessionClose (sq : Fin 4096) (s : State) : Out := runCmd 0x0801 anyCmd doSessionClose sq s

/-- The classes an owner may mark: 2 to 6, 9, 0xB and 0xC. -/
def authBits : Nat := 0x1A7C

/-- AUTH_MARK: the mask is kept in configuration flash and in force. Assumption 51 (DESIGN CHOICE). -/
def doAuthMark (_ : Nat) (c : Cmd) (x : MD) : CmdRes :=
  let m := c.get 12 2
  chk [(c.badNone, stBadTarget), (c.bad [(12, 2, 0xFF)] || m ||| authBits != authBits, stBadParam)] fun _ =>
    let d := (x.2.modHlm fun h => { h with maskKept := m }).setF HLM_AUTH_MASK HLM_AUTH_MASK_mask m
    .done stOk m (x.1, certEval (postSecurity 0x080C 0 [m] true d))

/-- AUTH_MARK. -/
def execAuthMark (sq : Fin 4096) (s : State) : Out := runCmd 0x0802 anyCmd doAuthMark sq s

/-- A transition of the lifecycle that R441 allows. -/
def Dev.lifeMay (d : Dev) (k : Nat) : Bool :=
  match d.lifecycle, k with
  | 0, 1 => d.ownerKey
  | 1, 2 => true
  | 1, 3 => true
  | 2, 3 => true
  | n, 4 => n != 4
  | _, _ => false

/-- LIFECYCLE_SET programs the state's byte; DECOMMISSIONED erases the Touchmark log. What ends with the old state ends
when the completion has been written. -/
def doLifecycleSet (_ : Nat) (c : Cmd) (x : MD) : CmdRes :=
  let k := c.byte 12
  chk [(c.badNone, stBadTarget), (c.bad [(12, 1, 0xFF)] || decide (k < 1 ∨ 4 < k), stBadParam), (!x.2.lifeMay k, stNotPermitted)] fun _ =>
    let y : MD := (x.1, otpProg (k - 1) [0xFF] x.2)
    let z := if k = 4 then tchEraseLog y else y
    .done stOk k (z.1, certEval (postSecurity 0x0805 0 [x.2.lifecycle + k * 256] true z.2))

/-- LIFECYCLE_SET. -/
def execLifecycleSet (sq : Fin 4096) (s : State) : Out := runCmd 0x0803 anyCmd doLifecycleSet sq s

/-- SECURITY_STATUS. -/
def doSecurityStatus (_ : Nat) (c : Cmd) (x : MD) : CmdRes :=
  chk [(c.badNone, stBadTarget), (c.bad [], stBadParam)] fun _ =>
    let d := x.2
    .done stOk (d.lifecycle + b2n (d.flag HLM_STAT HLM_STAT_certified) * 8 + d.dbgLevel * 16 +
      d.fld HLM_AUTH_MASK HLM_AUTH_MASK_mask * 65536) x

/-- SECURITY_STATUS. -/
def execSecurityStatus (sq : Fin 4096) (s : State) : Out := runCmd 0x0804 anyCmd doSecurityStatus sq s

/-- PROVISION programs keys, subsystem IDs and serial number, once, in BLANK. Assumption 51 (DESIGN CHOICE). -/
def doProvision (_ : Nat) (c : Cmd) (x : MD) : CmdRes :=
  chk [(c.badNone, stBadTarget),
    (c.bad [(12, 12, 0xFF), (24, 1, 1)] || c.get 20 4 != 140 || (c.buf 12 24).bad 140, stBadParam),
    (x.2.lifecycle != 0 || x.2.ownerKey, stNotPermitted)] fun _ =>
    withIn (c.buf 12 24) 140 x fun b y =>
      if !Config.onCurve (b.take 96) then .done stBadParam 0 y
      else
        let d1 := otpProg 0x070 ((b.drop 96).take 32) (otpProg 0x010 (b.take 96) y.2)
        .done stOk 0 (y.1, otpProg 0x0E8 ((b.drop 132).take 8) (otpProg 0x0E0 ((b.drop 128).take 4) d1))

/-- PROVISION. -/
def execProvision (sq : Fin 4096) (s : State) : Out := runCmd 0x0810 anyCmd doProvision sq s

/-! ## Diagnostics and counters (R293, R376) -/

/-- The 96 counts of a dump as 8-byte values. -/
def dumpBytes (aux : List Nat) : List Byte := (List.range 96).flatMap fun e => leBytes 8 (aux.getD (4 + e) 0)

/-- EVC_DUMP begins: its boundary is fixed, and no island has copied yet (R483). Assumption 77 (DEDUCED). -/
def doEvcDump (_ : Nat) (c : Cmd) (x : MD) : CmdRes :=
  chk [(c.badNone, stBadTarget), (c.bad [(12, 8, 0xFF), (20, 1, 1)] || (c.buf 12 20).bad 768, stBadParam)] fun _ =>
    .wait 0 ([b2n (c.buf 12 20).fab, (c.buf 12 20).addr, dumpBoundary x.2.time.master, 0] ++ List.replicate 96 0) x

/-- The dump w, whose islands have all copied, is written and completes with the device time of its snapshot (R376). -/
def dumpEnd (w : Wait) (x : MD) : MD :=
  match withOut ⟨w.aux.headD 0 == 1, w.aux.getD 1 0⟩ (dumpBytes w.aux) x (.done stOk (w.aux.getD 2 0 % 2 ^ 48)) with
  | .done st n y => (y.1, endWaits (fun v => v == w) st n y.2)
  | _ => x

/-- EVC_DUMP: the dump of the SQ that is complete is written; else the command at the front begins. -/
def execEvcDump (sq : Fin 4096) (s : State) : Out :=
  match s.dev.dumpDone sq.val with
  | some w => s.updB fun m d => dumpEnd w (m, d)
  | none => runCmd 0x0901 anyCmd doEvcDump sq s

/-- The bank that a target names (R356). -/
def bankOfTarget (t : Nat) : Option Nat := if t < 64 then some t else if 0x100 ≤ t ∧ t < 0x108 then some (t - 0x100 + 64) else none

/-- A TSR or TSBP of a core of the bank's island names bank b. -/
def Dev.saveNamed (d : Dev) (b : Nat) : Bool :=
  let cores := if b < 64 then (List.range 4).map (b / 16 * 4 + ·) else [16, 17]
  let named := fun (a : Nat) => match kindOf a with
    | .ingot b' _ _ => b' == b
    | _ => false
  cores.any fun k => named (d.core k).tsr || (List.range 4).any fun i => named (mget 0 (d.core k).tsbp i)

/-- Bank b is at rest: nobody owns or shares it, no save register names it, no test runs on it. Assumption 54 (DEDUCED). -/
def Dev.bankFree (d : Dev) (b : Nat) : Bool :=
  d.fld (ING_BANK_OWN b) ING_BANK_OWN_owner == 0 && d.rd (ING_BANK_SHARE b) == 0 && !d.saveNamed b &&
    !d.flag (ING_BANK_STAT b) ING_BANK_STAT_march_busy

/-- BANK_MARCH starts the test of one bank. Assumption 54 (DEDUCED). -/
def doBankMarch (_ : Nat) (c : Cmd) (x : MD) : CmdRes :=
  let d := x.2
  match bankOfTarget c.tgt with
  | none => .no stBadTarget 0
  | some b =>
    let cl := b / 16
    chk ([(b == 71 || (decide (b < 64) && (b % 16 == 15 || d.badCluster cl)), stBadTarget), (c.bad [], stBadParam)] ++
      (if b < 64 then d.clusterBad cl else []) ++ [(!d.bankFree b, stBusy)]) fun _ =>
      .wait c.tgt [] (x.1, d.setB (ING_BANK_STAT b) ING_BANK_STAT_march_busy true)

/-- BANK_MARCH. -/
def execBankMarch (sq : Fin 4096) (s : State) : Out := runCmd 0x0902 anyCmd doBankMarch sq s

/-- TOUCHMARK_READ: records of the log by index modulo 2,048. Assumption 54 (DEDUCED). -/
def doTouchmarkRead (_ : Nat) (c : Cmd) (x : MD) : CmdRes :=
  let f := c.get 12 2
  let n := c.get 14 2
  chk [(c.badNone, stBadTarget),
    (c.bad [(12, 12, 0xFF), (24, 1, 1)] || decide (2047 < f ∨ n < 1 ∨ 2048 < n) || (c.buf 16 24).bad (512 * n), stBadParam)] fun _ =>
    let slots := (List.range n).map fun i => (f + i) % 2048
    flashGet (slots.map fun i => 896 + i / 128) false x fun y =>
      withOut (c.buf 16 24) (slots.flatMap fun i => y.1.span (flsAddr (tchSlot i)) 512) y fun z =>
        .done stOk (x.2.fld TCH_NEWEST TCH_NEWEST_slot) z

/-- TOUCHMARK_READ. -/
def execTouchmarkRead (sq : Fin 4096) (s : State) : Out := runCmd 0x0903 anyCmd doTouchmarkRead sq s

/-! ## Debug (R377, R440, R448, R474) -/

/-- DEBUG_CHALLENGE: a fresh challenge, which replaces an open one. -/
def doDebugChallenge (_ : Nat) (c : Cmd) (x : MD) : CmdRes :=
  chk [(c.badNone, stBadTarget), (c.bad [(12, 8, 0xFF), (20, 1, 1)] || (c.buf 12 20).bad 32, stBadParam),
    (x.2.noEntropy, stBusy)] fun _ =>
    let n := drbgDraw 32 x.2
    withOut (c.buf 12 20) n.2 (x.1, n.1) fun y => .done stOk 0 (y.1, y.2.modHlm fun h => { h with chal := some n.2, chalAt := y.2.now })

/-- DEBUG_CHALLENGE. -/
def execDebugChallenge (sq : Fin 4096) (s : State) : Out := runCmd 0x0A01 anyCmd doDebugChallenge sq s

/-- The owner signed the open challenge and the level. Assumption 47 (DEDUCED). -/
def Dev.unlockGood (d : Dev) (level : Nat) (sig : List Byte) : Bool :=
  match d.hlm.chal with
  | some ch => !d.stale d.hlm.chalAt && d.ownerKey && Config.ecdsaOk keyOwner (ch ++ [BitVec.ofNat 8 level]) sig
  | none => false

/-- DEBUG_UNLOCK grants OBSERVE; in BLANK and DECOMMISSIONED no signature is needed. Assumption 54 (DEDUCED). -/
def doDebugUnlock (_ : Nat) (c : Cmd) (x : MD) : CmdRes :=
  let l := c.byte 12
  chk [(c.badNone, stBadTarget),
    (c.bad [(12, 1, 0xFF), (16, 8, 0xFF), (24, 1, 1)] || !(l == 1 || l == 2) || (c.buf 16 24).bad 96, stBadParam),
    (l == 2, stNotPermitted)] fun _ =>
    withIn (c.buf 16 24) 96 x fun sig y =>
      let d := y.2
      let free := d.lifecycle == 0 || d.lifecycle == 4
      if free || d.unlockGood l sig then
        .done stOk 1 (y.1, debugGrant 1 1 (!free) (d.modHlm fun h => { h with chal := none }))
      else .done stAuthFailed 0 (y.1, postSecurity 0x0807 0 [l + 256] true d)

/-- DEBUG_UNLOCK. -/
def execDebugUnlock (sq : Fin 4096) (s : State) : Out := runCmd 0x0A02 anyCmd doDebugUnlock sq s

/-- DEBUG_LOCK: the grant through PCI Express lapses. -/
def doDebugLock (_ : Nat) (c : Cmd) (x : MD) : CmdRes :=
  chk [(c.badNone, stBadTarget), (c.bad [], stBadParam)] fun _ => .done stOk 0 (x.1, debugLapse 1 x.2)

/-- DEBUG_LOCK. -/
def execDebugLock (sq : Fin 4096) (s : State) : Out := runCmd 0x0A03 anyCmd doDebugLock sq s

/-- n words peeked from fabric address a on: the bytes of those before a failure, and its code. Assumption 54 (DEDUCED). -/
def peekWords (tags : Bool) : Nat → Nat → MD → MD × List Byte × Option Nat
  | 0, _, x => (x, [], none)
  | n + 1, a, x =>
    let y := dapRead true a x
    if y.2.stat = 0 then
      let r := peekWords tags n (a + 4) y.1
      (r.1, leBytes 4 y.2.data.toNat ++ (if tags then leBytes 4 y.2.tag else []) ++ r.2.1, r.2.2)
    else (y.1, [], some (failCode a (if y.2.stat = 4 then whyUncorr else whyDenied)))

/-- PEEK: words through the peek path, which have no side effect. Assumption 54 (DEDUCED). -/
def doPeek (_ : Nat) (c : Cmd) (x : MD) : CmdRes :=
  let a := c.get 12 4
  let n := c.get 16 4
  let tags := bit (c.byte 28) 1
  chk [(c.badNone, stBadTarget),
    (c.bad [(12, 16, 0xFF), (28, 1, 3)] || decide (a % 4 ≠ 0 ∨ n < 4 ∨ 4096 < n ∨ n % 4 ≠ 0 ∨ 2 ^ 32 < a + n) ||
      (c.buf 20 28).bad (if tags then 2 * n else n), stBadParam),
    (decide (x.2.dbgLevel < 1), stNotPermitted)] fun _ =>
    let r := peekWords tags (n / 4) a x
    withOut (c.buf 20 28) r.2.1 r.1 fun y => match r.2.2 with
      | none => .done stOk 0 y
      | some code => .done stTransferFailed code y

/-- PEEK. -/
def execPeek (sq : Fin 4096) (s : State) : Out := runCmd 0x0A10 anyCmd doPeek sq s

end Sys2Proof.Machine
end

