-- ==== Sys2Proof/Machine/CmdEnd.lean ====
section
/-!
DEFINITION. What ends a command early (R324, R346, R347, R358): its timeout, an error completion of the host, and a
completion timeout.
-/
namespace Sys2Proof.Machine

/-- The timeout of a wait w ends it. -/
def timeoutWait (w : Wait) (d : Dev) : Dev :=
  let mine := fun (v : Wait) => v == w
  match w.op with
  | 0x0203 => endWaits mine stTimeout (d.axSt w.target) (d.modAxis w.target fun a => { a with enReq := 0 })
  | 0x0601 =>
    let d1 := d.modSem fun s => { s with msgs := s.msgs.filter fun q => q.sq != w.sq }
    mboxNext w.target (endWaits mine stTimeout 0 d1)
  | 0x0C10 =>
    match corePairOf w.target with
    | some q => if w.aux.headD 0 = 2 ∧ d.mergeReady q then d else pairRequestEnd q (w.aux.headD 0 == 2) stTimeout 0 d
    | none => endWaits mine stTimeout 0 d
  | _ => d

/-- COMMAND_TIMEOUT: the timeout parameter of the command under way on SQ r expires: AXIS_ENABLE leaves the axis where it
stands, a mailbox send is abandoned, a SPLIT is withdrawn, and so is a MERGE for which not both cores wait (R358, R364,
R373, R380). Assumption 53 (DEDUCED). -/
def execCommandTimeout (sq : Fin 4096) (s : State) : Out :=
  s.upd fun d =>
    match d.waits.find? fun w => w.sq == sq.val && w.limit != 0 && decide (w.start + w.limit * 800000 ≤ d.now) with
    | some w => timeoutWait w d
    | none => d

/-- The commands that read an input buffer: opcode, the byte of their fab bit, the byte of the buffer, and the command.
Assumption 54 (DEDUCED). -/
def inputCmds : List (Nat × Nat × Nat × (Nat → Cmd → MD → CmdRes)) :=
  [(0x0131, 28, 12, doSessionOpen), (0x0210, 26, 12, doLawLoad), (0x0304, 24, 16, doCamLoad), (0x0501, 32, 24, doCaptureStart),
   (0x0601, 24, 16, doSeamMboxSend), (0x0703, 28, 20, doFlashProgram), (0x0710, 24, 16, doRegionWrite), (0x0720, 24, 16, doFwUpdate),
   (0x0810, 24, 12, doProvision), (0x0A02, 24, 16, doDebugUnlock), (0x0C01, 24, 16, doCoreLoad)]

/-- The failing address and the reason of a command's transfer from host memory that fails after so many bytes. -/
def hostFail (a n why : Nat) : Nat := failCode ((a + n) % 2 ^ 32) why

/-- The transfer of the command at the front of SQ r, where it makes one from host memory, fails: bytes that a memory
transfer moved before stay moved. None where it makes no such transfer. Assumption 54 (DEDUCED). -/
def failTransfer (r n why : Nat) (x : MD) : Option MD :=
  match inputCmds.findSome? fun e => (x.2.front r e.1).map fun c => (e, c) with
  | some (e, c) =>
    if bit (c.byte e.2.1) 0 then none
    else match e.2.2.2 r c x with
      | .no _ _ | .hold => none
      | _ => some (x.1, finish r c stTransferFailed (hostFail (c.get e.2.2.1 8) n why) x.2)
  | none =>
    match x.2.front r 0x0B02 with
    | some c =>
      match doMemWrite r c x with
      | .no _ _ | .hold => none
      | _ =>
        let y := memWritePart c (min n (c.get 16 4 - 1) / 4 * 4) x
        some (y.1.1, finish r c stTransferFailed (hostFail (c.get 20 8) n why) y.1.2)
    | none => none

/-- A request of the Ladle to host memory for ring r fails: a fetch, which puts the ring into error, or the transfer of
its command. None where it makes no such request. -/
def requestFails (r : Nat) (fetch : Bool) (n why : Nat) (x : MD) : Option MD :=
  if !fetch then failTransfer r n why x
  else if (x.2.isRing r tySQ || x.2.isRing r tyST) && x.2.ringUsed r != 0 && !x.2.ringBad r then some (x.1, ringError r 1 x.2)
  else none

/-- A failed request counts in a field of GLB_PCIE_ERR. Assumption 44 (DEDUCED). -/
def countFailed (f : Fld) (count : Bool) (y : Option MD) (x : MD) : MD :=
  match y with
  | some z => (z.1, when count (fun d => d.setF GLB_PCIE_ERR f (satInc 8 (d.fld GLB_PCIE_ERR f))) z.2)
  | none => x

/-- HOST_COMPLETION_ERROR: a completion comes back as Unsupported Request, Completer Abort or poisoned. -/
def execHostCompletionError (sq : Fin 4096) (fetch poison : Bool) (n : Nat) (s : State) : Out :=
  s.updB fun m d => countFailed GLB_PCIE_ERR_poison_rx poison (requestFails sq.val fetch n 1 (m, d)) (m, d)

/-- COMPLETION_TIMEOUT: no completion comes back. -/
def execCompletionTimeout (sq : Fin 4096) (fetch : Bool) (n : Nat) (s : State) : Out :=
  s.updB fun m d => countFailed GLB_PCIE_ERR_cpl_tmo true (requestFails sq.val fetch n 2 (m, d)) (m, d)

end Sys2Proof.Machine
end

