-- ==== Sys2Proof/Machine/Dispatch.lean ====
section
/-!
DEFINITION. One arm for each command: a direct call of its meaning.
-/
namespace Sys2Proof.Machine

/-- What command i does to the state s, apart from taking it off the queue. -/
def exec (i : Instr) (s : State) : Host.Outcome State Fault Refusal :=
  match i with
  | .registerWrite w addr v => Sys2Proof.Machine.execRegisterWrite w addr v s
  | .unlockWrite w addr => Sys2Proof.Machine.execUnlockWrite w addr s
  | .unlockWindowExpiry w addr => Sys2Proof.Machine.execUnlockWindowExpiry w addr s
  | .crossingDelivery src dst => Sys2Proof.Machine.execCrossingDelivery src dst s
  | .clockFail ppm => Sys2Proof.Machine.execClockFail ppm s
  | .deviceTimeBoundary => Sys2Proof.Machine.execDeviceTimeBoundary s
  | .glbTimeStepWrite w v => Sys2Proof.Machine.execGlbTimeStepWrite w v s
  | .glbClkTrimWrite w v => Sys2Proof.Machine.execGlbClkTrimWrite w v s
  | .glbTimeLoRead lat => Sys2Proof.Machine.execGlbTimeLoRead lat s
  | .syncInEdge => Sys2Proof.Machine.execSyncInEdge s
  | .syncLost => Sys2Proof.Machine.execSyncLost s
  | .syncOutRise => Sys2Proof.Machine.execSyncOutRise s
  | .syncOutFall => Sys2Proof.Machine.execSyncOutFall s
  | .windowOpen a => Sys2Proof.Machine.execWindowOpen a s
  | .windowClose a b0 b1 b2 => Sys2Proof.Machine.execWindowClose a b0 b1 b2 s
  | .sampleResultsValid a => Sys2Proof.Machine.execSampleResultsValid a s
  | .currentLawDispatch a => Sys2Proof.Machine.execCurrentLawDispatch a s
  | .backgroundJobStart n => Sys2Proof.Machine.execBackgroundJobStart n s
  | .backgroundDeadline n => Sys2Proof.Machine.execBackgroundDeadline n s
  | .dutyRelease a => Sys2Proof.Machine.execDutyRelease a s
  | .admissionCommit n => Sys2Proof.Machine.execAdmissionCommit n s
  | .plnCommitWrite w c v => Sys2Proof.Machine.execPlnCommitWrite w c v s
  | .lawStoreWrite w c v => Sys2Proof.Machine.execLawStoreWrite w c v s
  | .lawStoreRead c => Sys2Proof.Machine.execLawStoreRead c s
  | .gainStoreWrite w n ls ix v => Sys2Proof.Machine.execGainStoreWrite w n ls ix v s
  | .variableFileWrite w n ls ix v => Sys2Proof.Machine.execVariableFileWrite w n ls ix v s
  | .laneNop n => Sys2Proof.Machine.execLaneNop n s
  | .laneEnd n => Sys2Proof.Machine.execLaneEnd n s
  | .laneLdi n => Sys2Proof.Machine.execLaneLdi n s
  | .laneLdv n => Sys2Proof.Machine.execLaneLdv n s
  | .laneStv n => Sys2Proof.Machine.execLaneStv n s
  | .laneIn n => Sys2Proof.Machine.execLaneIn n s
  | .laneOut n => Sys2Proof.Machine.execLaneOut n s
  | .laneLdg n => Sys2Proof.Machine.execLaneLdg n s
  | .laneLdm n => Sys2Proof.Machine.execLaneLdm n s
  | .laneStm n => Sys2Proof.Machine.execLaneStm n s
  | .laneAdd n => Sys2Proof.Machine.execLaneAdd n s
  | .laneSub n => Sys2Proof.Machine.execLaneSub n s
  | .laneAddi n => Sys2Proof.Machine.execLaneAddi n s
  | .laneNeg n => Sys2Proof.Machine.execLaneNeg n s
  | .laneAbs n => Sys2Proof.Machine.execLaneAbs n s
  | .laneMin n => Sys2Proof.Machine.execLaneMin n s
  | .laneMax n => Sys2Proof.Machine.execLaneMax n s
  | .laneLim n => Sys2Proof.Machine.execLaneLim n s
  | .laneAnd n => Sys2Proof.Machine.execLaneAnd n s
  | .laneOr n => Sys2Proof.Machine.execLaneOr n s
  | .laneXor n => Sys2Proof.Machine.execLaneXor n s
  | .laneShl n => Sys2Proof.Machine.execLaneShl n s
  | .laneShr n => Sys2Proof.Machine.execLaneShr n s
  | .laneCmp n => Sys2Proof.Machine.execLaneCmp n s
  | .laneMov n => Sys2Proof.Machine.execLaneMov n s
  | .laneMul n => Sys2Proof.Machine.execLaneMul n s
  | .laneMuli n => Sys2Proof.Machine.execLaneMuli n s
  | .laneCla n => Sys2Proof.Machine.execLaneCla n s
  | .laneLda n => Sys2Proof.Machine.execLaneLda n s
  | .laneMac n => Sys2Proof.Machine.execLaneMac n s
  | .laneMsu n => Sys2Proof.Machine.execLaneMsu n s
  | .laneMaci n => Sys2Proof.Machine.execLaneMaci n s
  | .laneAcx n => Sys2Proof.Machine.execLaneAcx n s
  | .laneDiv n => Sys2Proof.Machine.execLaneDiv n s
  | .laneSincos n => Sys2Proof.Machine.execLaneSincos n s
  | .laneRot n => Sys2Proof.Machine.execLaneRot n s
  | .laneAtan2 n => Sys2Proof.Machine.execLaneAtan2 n s
  | .laneSkip n => Sys2Proof.Machine.execLaneSkip n s
  | .laneFault n => Sys2Proof.Machine.execLaneFault n s
  | .laneEvt n => Sys2Proof.Machine.execLaneEvt n s
  | .axsCtlArm w a => Sys2Proof.Machine.execAxsCtlArm w a s
  | .axsCtlEnable w a => Sys2Proof.Machine.execAxsCtlEnable w a s
  | .axsCtlStopRamp w a => Sys2Proof.Machine.execAxsCtlStopRamp w a s
  | .axsCtlStopSto w a => Sys2Proof.Machine.execAxsCtlStopSto w a s
  | .axsCtlDisarm w a => Sys2Proof.Machine.execAxsCtlDisarm w a s
  | .axsCtlAck w a => Sys2Proof.Machine.execAxsCtlAck w a s
  | .axsFaultReq w a v => Sys2Proof.Machine.execAxsFaultReq w a v s
  | .rampHoldEnd a => Sys2Proof.Machine.execRampHoldEnd a s
  | .rampTimeout a => Sys2Proof.Machine.execRampTimeout a s
  | .drwClkWrite w n v => Sys2Proof.Machine.execDrwClkWrite w n v s
  | .clockDrainEnd n => Sys2Proof.Machine.execClockDrainEnd n s
  | .sdcReadbackFail n => Sys2Proof.Machine.execSdcReadbackFail n s
  | .sdcReadbackRecover n => Sys2Proof.Machine.execSdcReadbackRecover n s
  | .continuousResult h b => Sys2Proof.Machine.execContinuousResult h b s
  | .stuckRun h => Sys2Proof.Machine.execStuckRun h s
  | .overcurrentQualify h b => Sys2Proof.Machine.execOvercurrentQualify h b s
  | .overcurrentRelease h b => Sys2Proof.Machine.execOvercurrentRelease h b s
  | .drwOcCfgWrite w h v => Sys2Proof.Machine.execDrwOcCfgWrite w h v s
  | .drwOcThWrite w h v => Sys2Proof.Machine.execDrwOcThWrite w h v s
  | .drwChCfgWrite w h v => Sys2Proof.Machine.execDrwChCfgWrite w h v s
  | .pwmPeak a => Sys2Proof.Machine.execPwmPeak a s
  | .pwmValley a => Sys2Proof.Machine.execPwmValley a s
  | .fltAssert a => Sys2Proof.Machine.execFltAssert a s
  | .fltRelease a => Sys2Proof.Machine.execFltRelease a s
  | .stoAssert c g => Sys2Proof.Machine.execStoAssert c g s
  | .stoRelease c g => Sys2Proof.Machine.execStoRelease c g s
  | .pwmStoMapWrite w c g v => Sys2Proof.Machine.execPwmStoMapWrite w c g v s
  | .encoderCount a lvA lvB => Sys2Proof.Machine.execEncoderCount a lvA lvB s
  | .indexEvent e => Sys2Proof.Machine.execIndexEvent e s
  | .fbkPosPreset w a v => Sys2Proof.Machine.execFbkPosPreset w a v s
  | .fbkIdxStatRead a => Sys2Proof.Machine.execFbkIdxStatRead a s
  | .disagreementQualified a pair => Sys2Proof.Machine.execDisagreementQualified a pair s
  | .disPersistExpiry a => Sys2Proof.Machine.execDisPersistExpiry a s
  | .rscHit a => Sys2Proof.Machine.execRscHit a s
  | .rscPulseEnd a => Sys2Proof.Machine.execRscPulseEnd a s
  | .fbkRscCmpWrite w a v => Sys2Proof.Machine.execFbkRscCmpWrite w a v s
  | .fbkRscCfgWrite w a v => Sys2Proof.Machine.execFbkRscCfgWrite w a v s
  | .fbkRscStepWrite w a v => Sys2Proof.Machine.execFbkRscStepWrite w a v s
  | .fbkEoRatioWrite w k v => Sys2Proof.Machine.execFbkEoRatioWrite w k v s
  | .fbkEoCfgWrite w k v => Sys2Proof.Machine.execFbkEoCfgWrite w k v s
  | .segmentEnd a => Sys2Proof.Machine.execSegmentEnd a s
  | .timeStart a => Sys2Proof.Machine.execTimeStart a s
  | .stRefill a => Sys2Proof.Machine.execStRefill a s
  | .segStart a => Sys2Proof.Machine.execSegStart a s
  | .grpStart g => Sys2Proof.Machine.execGrpStart g s
  | .pwmHold a => Sys2Proof.Machine.execPwmHold a s
  | .tmrIn t => Sys2Proof.Machine.execTmrIn t s
  | .cap k => Sys2Proof.Machine.execCap k s
  | .chsSync e => Sys2Proof.Machine.execChsSync e s
  | .evcIn n => Sys2Proof.Machine.execEvcIn n s
  | .cruStart c k => Sys2Proof.Machine.execCruStart c k s
  | .combArm k => Sys2Proof.Machine.execCombArm k s
  | .combinerFire k => Sys2Proof.Machine.execCombinerFire k s
  | .combRearm w k v => Sys2Proof.Machine.execCombRearm w k v s
  | .importPulse tgt src k => Sys2Proof.Machine.execImportPulse tgt src k s
  | .flxSwfire w c v => Sys2Proof.Machine.execFlxSwfire w c v s
  | .flxWinWrite w a r v => Sys2Proof.Machine.execFlxWinWrite w a r v s
  | .flxCapTHiSnapRead k => Sys2Proof.Machine.execFlxCapTHiSnapRead k s
  | .flxImportWrite w c k v => Sys2Proof.Machine.execFlxImportWrite w c k v s
  | .flxGrpWrite w g r v => Sys2Proof.Machine.execFlxGrpWrite w g r v s
  | .timerOverflow t => Sys2Proof.Machine.execTimerOverflow t s
  | .timerMatch t isB => Sys2Proof.Machine.execTimerMatch t isB s
  | .timerInputEdge c b rising => Sys2Proof.Machine.execTimerInputEdge c b rising s
  | .tmrCntWrite w t v => Sys2Proof.Machine.execTmrCntWrite w t v s
  | .tmrCmpWrite w t isB v => Sys2Proof.Machine.execTmrCmpWrite w t isB v s
  | .tmrOutWrite w t v => Sys2Proof.Machine.execTmrOutWrite w t v s
  | .tmrCfgWrite w t v => Sys2Proof.Machine.execTmrCfgWrite w t v s
  | .tmrCntRead t => Sys2Proof.Machine.execTmrCntRead t s
  | .tmrCapRead t => Sys2Proof.Machine.execTmrCapRead t s
  | .tmrSnap w c => Sys2Proof.Machine.execTmrSnap w c s
  | .tmrGpioCfgWrite w c n v => Sys2Proof.Machine.execTmrGpioCfgWrite w c n v s
  | .chsNop e => Sys2Proof.Machine.execChsNop e s
  | .shift e rx => Sys2Proof.Machine.execShift e rx s
  | .expect e rx => Sys2Proof.Machine.execExpect e rx s
  | .waitedge e => Sys2Proof.Machine.execWaitedge e s
  | .waitedgeEdge e => Sys2Proof.Machine.execWaitedgeEdge e s
  | .waitedgeTimeout e => Sys2Proof.Machine.execWaitedgeTimeout e s
  | .countLoad e => Sys2Proof.Machine.execCountLoad e s
  | .countDecrement e => Sys2Proof.Machine.execCountDecrement e s
  | .countWait e => Sys2Proof.Machine.execCountWait e s
  | .emit e => Sys2Proof.Machine.execEmit e s
  | .latch e => Sys2Proof.Machine.execLatch e s
  | .crcstepInit e => Sys2Proof.Machine.execCrcstepInit e s
  | .crcstepFeed e => Sys2Proof.Machine.execCrcstepFeed e s
  | .crcstepHalt e => Sys2Proof.Machine.execCrcstepHalt e s
  | .crcstepCheck e => Sys2Proof.Machine.execCrcstepCheck e s
  | .branch e => Sys2Proof.Machine.execBranch e s
  | .sync e => Sys2Proof.Machine.execSync e s
  | .put e => Sys2Proof.Machine.execPut e s
  | .get e => Sys2Proof.Machine.execGet e s
  | .ldf e => Sys2Proof.Machine.execLdf e s
  | .clr e => Sys2Proof.Machine.execClr e s
  | .chsEnable w e v => Sys2Proof.Machine.execChsEnable w e v s
  | .chsDisable w e v => Sys2Proof.Machine.execChsDisable w e v s
  | .chsGstart w c v => Sys2Proof.Machine.execChsGstart w c v s
  | .chsHold w e v => Sys2Proof.Machine.execChsHold w e v s
  | .chsResume w e v => Sys2Proof.Machine.execChsResume w e v s
  | .chsInqWrite w e v => Sys2Proof.Machine.execChsInqWrite w e v s
  | .chsOutqRead e => Sys2Proof.Machine.execChsOutqRead e s
  | .chsProgWrite w e ix v => Sys2Proof.Machine.execChsProgWrite w e ix v s
  | .triggerArrival k l => Sys2Proof.Machine.execTriggerArrival k l s
  | .triggerDelayMatch k => Sys2Proof.Machine.execTriggerDelayMatch k s
  | .cruTrgDlyWrite w k v => Sys2Proof.Machine.execCruTrgDlyWrite w k v s
  | .cruGo w j v => Sys2Proof.Machine.execCruGo w j v s
  | .integrationEnd j => Sys2Proof.Machine.execIntegrationEnd j s
  | .conversionEnd j ain exc => Sys2Proof.Machine.execConversionEnd j ain exc s
  | .cruCfgWrite w j v => Sys2Proof.Machine.execCruCfgWrite w j v s
  | .cruRefCtlWrite w v => Sys2Proof.Machine.execCruRefCtlWrite w v s
  | .refOk => Sys2Proof.Machine.execRefOk s
  | .excOk k => Sys2Proof.Machine.execExcOk k s
  | .excCurrentLimit k => Sys2Proof.Machine.execExcCurrentLimit k s
  | .nop k => Sys2Proof.Machine.execNop k s
  | .add k => Sys2Proof.Machine.execAdd k s
  | .sub k => Sys2Proof.Machine.execSub k s
  | .and k => Sys2Proof.Machine.execAnd k s
  | .or k => Sys2Proof.Machine.execOr k s
  | .xor k => Sys2Proof.Machine.execXor k s
  | .shl k => Sys2Proof.Machine.execShl k s
  | .shr k => Sys2Proof.Machine.execShr k s
  | .shru k => Sys2Proof.Machine.execShru k s
  | .min k => Sys2Proof.Machine.execMin k s
  | .max k => Sys2Proof.Machine.execMax k s
  | .mov k => Sys2Proof.Machine.execMov k s
  | .neg k => Sys2Proof.Machine.execNeg k s
  | .abs k => Sys2Proof.Machine.execAbs k s
  | .mfs k => Sys2Proof.Machine.execMfs k s
  | .mts k => Sys2Proof.Machine.execMts k s
  | .addi k => Sys2Proof.Machine.execAddi k s
  | .andi k => Sys2Proof.Machine.execAndi k s
  | .ori k => Sys2Proof.Machine.execOri k s
  | .xori k => Sys2Proof.Machine.execXori k s
  | .shli k => Sys2Proof.Machine.execShli k s
  | .shri k => Sys2Proof.Machine.execShri k s
  | .shrui k => Sys2Proof.Machine.execShrui k s
  | .rep k => Sys2Proof.Machine.execRep k s
  | .ldi k => Sys2Proof.Machine.execLdi k s
  | .ldih k => Sys2Proof.Machine.execLdih k s
  | .tag k => Sys2Proof.Machine.execTag k s
  | .gtag k => Sys2Proof.Machine.execGtag k s
  | .cmp k => Sys2Proof.Machine.execCmp k s
  | .cmpi k => Sys2Proof.Machine.execCmpi k s
  | .plog k => Sys2Proof.Machine.execPlog k s
  | .repn k => Sys2Proof.Machine.execRepn k s
  | .mul k => Sys2Proof.Machine.execMul k s
  | .mulh k => Sys2Proof.Machine.execMulh k s
  | .mac k => Sys2Proof.Machine.execMac k s
  | .fadd k => Sys2Proof.Machine.execFadd k s
  | .fsub k => Sys2Proof.Machine.execFsub k s
  | .fmul k => Sys2Proof.Machine.execFmul k s
  | .fcmp k => Sys2Proof.Machine.execFcmp k s
  | .fcvt k => Sys2Proof.Machine.execFcvt k s
  | .sqrt k => Sys2Proof.Machine.execSqrt k s
  | .div k => Sys2Proof.Machine.execDiv k s
  | .rem k => Sys2Proof.Machine.execRem k s
  | .sincos k => Sys2Proof.Machine.execSincos k s
  | .atan2 k => Sys2Proof.Machine.execAtan2 k s
  | .ina k => Sys2Proof.Machine.execIna k s
  | .chkpt k => Sys2Proof.Machine.execChkpt k s
  | .syncS k => Sys2Proof.Machine.execSyncS k s
  | .ld k => Sys2Proof.Machine.execLd k s
  | .ldr k => Sys2Proof.Machine.execLdr k s
  | .st k => Sys2Proof.Machine.execSt k s
  | .str k => Sys2Proof.Machine.execStr k s
  | .ldb k => Sys2Proof.Machine.execLdb k s
  | .stb k => Sys2Proof.Machine.execStb k s
  | .ldx k => Sys2Proof.Machine.execLdx k s
  | .stx k => Sys2Proof.Machine.execStx k s
  | .movbk k => Sys2Proof.Machine.execMovbk k s
  | .callg k => Sys2Proof.Machine.execCallg k s
  | .br k => Sys2Proof.Machine.execBr k s
  | .call k => Sys2Proof.Machine.execCall k s
  | .jr k => Sys2Proof.Machine.execJr k s
  | .retg k => Sys2Proof.Machine.execRetg k s
  | .reti k => Sys2Proof.Machine.execReti k s
  | .wait k => Sys2Proof.Machine.execWait k s
  | .waitEnd k => Sys2Proof.Machine.execWaitEnd k s
  | .brk k => Sys2Proof.Machine.execBrk k s
  | .trap k => Sys2Proof.Machine.execTrap k s
  | .undefEncoding k => Sys2Proof.Machine.execUndefEncoding k s
  | .sideUnitResult k n => Sys2Proof.Machine.execSideUnitResult k n s
  | .loadComplete k => Sys2Proof.Machine.execLoadComplete k s
  | .storeComplete k n => Sys2Proof.Machine.execStoreComplete k n s
  | .lateStoreError k => Sys2Proof.Machine.execLateStoreError k s
  | .interruptRecognition k => Sys2Proof.Machine.execInterruptRecognition k s
  | .coreWdtExpiry k => Sys2Proof.Machine.execCoreWdtExpiry k s
  | .anvWdtKick w k v => Sys2Proof.Machine.execAnvWdtKick w k v s
  | .clusterWdtExpiry c => Sys2Proof.Machine.execClusterWdtExpiry c s
  | .clusterWdtWarning c => Sys2Proof.Machine.execClusterWdtWarning c s
  | .anvCwdtKick w c v => Sys2Proof.Machine.execAnvCwdtKick w c v s
  | .ingBankOwnWrite w b v => Sys2Proof.Machine.execIngBankOwnWrite w b v s
  | .ownerHandover b => Sys2Proof.Machine.execOwnerHandover b s
  | .marchTestEnd b first => Sys2Proof.Machine.execMarchTestEnd b first s
  | .patrolScrub => Sys2Proof.Machine.execPatrolScrub s
  | .bar2Access wr poisoned x ps => Sys2Proof.Machine.execBar2Access wr poisoned x ps s
  | .outputCompare q => Sys2Proof.Machine.execOutputCompare q s
  | .checkpointCompare q => Sys2Proof.Machine.execCheckpointCompare q s
  | .lagExpiry q => Sys2Proof.Machine.execLagExpiry q s
  | .reqSplit w q => Sys2Proof.Machine.execReqSplit w q s
  | .reqMerge w q => Sys2Proof.Machine.execReqMerge w q s
  | .splitApply q => Sys2Proof.Machine.execSplitApply q s
  | .mergeCopy q => Sys2Proof.Machine.execMergeCopy q s
  | .mergeComplete q => Sys2Proof.Machine.execMergeComplete q s
  | .asyInaMapWrite w c n v => Sys2Proof.Machine.execAsyInaMapWrite w c n v s
  | .configRequest q => Sys2Proof.Machine.execConfigRequest q s
  | .bar0Request wr poisoned off len lo hi => Sys2Proof.Machine.execBar0Request wr poisoned off len lo hi s
  | .hostCompletionError sq fetch poison n => Sys2Proof.Machine.execHostCompletionError sq fetch poison n s
  | .completionTimeout sq fetch n => Sys2Proof.Machine.execCompletionTimeout sq fetch n s
  | .perstAssert => Sys2Proof.Machine.execPerstAssert s
  | .perstRelease refclk => Sys2Proof.Machine.execPerstRelease refclk s
  | .dlDown => Sys2Proof.Machine.execDlDown s
  | .linkRetrain w v gen width => Sys2Proof.Machine.execLinkRetrain w v gen width s
  | .d3hotEntry => Sys2Proof.Machine.execD3hotEntry s
  | .d0Return => Sys2Proof.Machine.execD0Return s
  | .msixTimeout v => Sys2Proof.Machine.execMsixTimeout v s
  | .msixUnmask v => Sys2Proof.Machine.execMsixUnmask v s
  | .doorbell w r v => Sys2Proof.Machine.execDoorbell w r v s
  | .descriptorFetch r => Sys2Proof.Machine.execDescriptorFetch r s
  | .completionWrite r => Sys2Proof.Machine.execCompletionWrite r s
  | .eventRecordWrite q => Sys2Proof.Machine.execEventRecordWrite q s
  | .ldlAdminCtlWrite w v => Sys2Proof.Machine.execLdlAdminCtlWrite w v s
  | .cmdNop sq => Sys2Proof.Machine.execCmdNop sq s
  | .identify sq => Sys2Proof.Machine.execIdentify sq s
  | .ringCreate sq => Sys2Proof.Machine.execRingCreate sq s
  | .ringDelete sq => Sys2Proof.Machine.execRingDelete sq s
  | .evtRoute sq => Sys2Proof.Machine.execEvtRoute sq s
  | .resetCluster sq => Sys2Proof.Machine.execResetCluster sq s
  | .resetHostIsland sq => Sys2Proof.Machine.execResetHostIsland sq s
  | .resetDevice sq => Sys2Proof.Machine.execResetDevice sq s
  | .resetCommandEffect => Sys2Proof.Machine.execResetCommandEffect s
  | .sessionNonce sq => Sys2Proof.Machine.execSessionNonce sq s
  | .sessionOpen sq => Sys2Proof.Machine.execSessionOpen sq s
  | .axisAdmit sq => Sys2Proof.Machine.execAxisAdmit sq s
  | .axisRetire sq => Sys2Proof.Machine.execAxisRetire sq s
  | .axisEnableArm sq => Sys2Proof.Machine.execAxisEnableArm sq s
  | .axisEnable sq => Sys2Proof.Machine.execAxisEnable sq s
  | .axisDisableRamp sq => Sys2Proof.Machine.execAxisDisableRamp sq s
  | .axisDisableSto sq => Sys2Proof.Machine.execAxisDisableSto sq s
  | .lawLoad sq => Sys2Proof.Machine.execLawLoad sq s
  | .gainsetWrite sq => Sys2Proof.Machine.execGainsetWrite sq s
  | .segAppend sq => Sys2Proof.Machine.execSegAppend sq s
  | .segFlush sq => Sys2Proof.Machine.execSegFlush sq s
  | .segStreamBind sq => Sys2Proof.Machine.execSegStreamBind sq s
  | .segStreamUnbind sq => Sys2Proof.Machine.execSegStreamUnbind sq s
  | .camLoad sq => Sys2Proof.Machine.execCamLoad sq s
  | .groupSet sq => Sys2Proof.Machine.execGroupSet sq s
  | .setpointPut sq => Sys2Proof.Machine.execSetpointPut sq s
  | .fluxFire sq => Sys2Proof.Machine.execFluxFire sq s
  | .feederPollSet sq => Sys2Proof.Machine.execFeederPollSet sq s
  | .feederRead sq => Sys2Proof.Machine.execFeederRead sq s
  | .feederCmd sq => Sys2Proof.Machine.execFeederCmd sq s
  | .captureStart sq => Sys2Proof.Machine.execCaptureStart sq s
  | .captureStop sq => Sys2Proof.Machine.execCaptureStop sq s
  | .tmrSnapshot sq => Sys2Proof.Machine.execTmrSnapshot sq s
  | .cruConvert sq => Sys2Proof.Machine.execCruConvert sq s
  | .seamMboxSend sq => Sys2Proof.Machine.execSeamMboxSend sq s
  | .seamEvent sq => Sys2Proof.Machine.execSeamEvent sq s
  | .seamMemberJoin sq => Sys2Proof.Machine.execSeamMemberJoin sq s
  | .seamMemberLeave sq => Sys2Proof.Machine.execSeamMemberLeave sq s
  | .flashRead sq => Sys2Proof.Machine.execFlashRead sq s
  | .flashErase sq => Sys2Proof.Machine.execFlashErase sq s
  | .flashProgram sq => Sys2Proof.Machine.execFlashProgram sq s
  | .regionWrite sq => Sys2Proof.Machine.execRegionWrite sq s
  | .regionRead sq => Sys2Proof.Machine.execRegionRead sq s
  | .fwUpdate sq => Sys2Proof.Machine.execFwUpdate sq s
  | .fwSelect sq => Sys2Proof.Machine.execFwSelect sq s
  | .sessionClose sq => Sys2Proof.Machine.execSessionClose sq s
  | .authMark sq => Sys2Proof.Machine.execAuthMark sq s
  | .lifecycleSet sq => Sys2Proof.Machine.execLifecycleSet sq s
  | .securityStatus sq => Sys2Proof.Machine.execSecurityStatus sq s
  | .provision sq => Sys2Proof.Machine.execProvision sq s
  | .evcDump sq => Sys2Proof.Machine.execEvcDump sq s
  | .bankMarch sq => Sys2Proof.Machine.execBankMarch sq s
  | .touchmarkRead sq => Sys2Proof.Machine.execTouchmarkRead sq s
  | .debugChallenge sq => Sys2Proof.Machine.execDebugChallenge sq s
  | .debugUnlock sq => Sys2Proof.Machine.execDebugUnlock sq s
  | .debugLock sq => Sys2Proof.Machine.execDebugLock sq s
  | .peek sq => Sys2Proof.Machine.execPeek sq s
  | .memRead sq => Sys2Proof.Machine.execMemRead sq s
  | .memWrite sq => Sys2Proof.Machine.execMemWrite sq s
  | .memCopy sq => Sys2Proof.Machine.execMemCopy sq s
  | .memFill sq => Sys2Proof.Machine.execMemFill sq s
  | .coreLoad sq => Sys2Proof.Machine.execCoreLoad sq s
  | .coreStart sq => Sys2Proof.Machine.execCoreStart sq s
  | .coreReset sq => Sys2Proof.Machine.execCoreReset sq s
  | .pairSplit sq => Sys2Proof.Machine.execPairSplit sq s
  | .pairMerge sq => Sys2Proof.Machine.execPairMerge sq s
  | .engineGstart sq => Sys2Proof.Machine.execEngineGstart sq s
  | .solderRoundStart p => Sys2Proof.Machine.execSolderRoundStart p s
  | .slotPoll p r => Sys2Proof.Machine.execSlotPoll p r s
  | .slotRead p r => Sys2Proof.Machine.execSlotRead p r s
  | .slotCmd p r => Sys2Proof.Machine.execSlotCmd p r s
  | .slotBroadcast p => Sys2Proof.Machine.execSlotBroadcast p s
  | .sldListReq w p v => Sys2Proof.Machine.execSldListReq w p v s
  | .sldCmdPendWrite w p ix v => Sys2Proof.Machine.execSldCmdPendWrite w p ix v s
  | .sldCtlWrite w p v => Sys2Proof.Machine.execSldCtlWrite w p v s
  | .seamCycleStart => Sys2Proof.Machine.execSeamCycleStart s
  | .timeFrame a f => Sys2Proof.Machine.execTimeFrame a f s
  | .cyclicFrame a f => Sys2Proof.Machine.execCyclicFrame a f s
  | .eventFrame a f => Sys2Proof.Machine.execEventFrame a f s
  | .seamEventFire c k => Sys2Proof.Machine.execSeamEventFire c k s
  | .mboxFrame a f => Sys2Proof.Machine.execMboxFrame a f s
  | .mboxAckFrame a f => Sys2Proof.Machine.execMboxAckFrame a f s
  | .mboxResend n => Sys2Proof.Machine.execMboxResend n s
  | .epochFrame a f => Sys2Proof.Machine.execEpochFrame a f s
  | .epochBoundary => Sys2Proof.Machine.execEpochBoundary s
  | .probeFrame a f => Sys2Proof.Machine.execProbeFrame a f s
  | .probeReplyFrame a f => Sys2Proof.Machine.execProbeReplyFrame a f s
  | .joinFrame a f => Sys2Proof.Machine.execJoinFrame a f s
  | .leaveFrame a f => Sys2Proof.Machine.execLeaveFrame a f s
  | .claimFrame a f => Sys2Proof.Machine.execClaimFrame a f s
  | .timeFrameLoss => Sys2Proof.Machine.execTimeFrameLoss s
  | .keeperElected => Sys2Proof.Machine.execKeeperElected s
  | .portDown n crc => Sys2Proof.Machine.execPortDown n crc s
  | .portUp n => Sys2Proof.Machine.execPortUp n s
  | .semCtlWrite w v => Sys2Proof.Machine.execSemCtlWrite w v s
  | .semMbxRel w v => Sys2Proof.Machine.execSemMbxRel w v s
  | .pageProgramDone bad => Sys2Proof.Machine.execPageProgramDone bad s
  | .eraseDone bad => Sys2Proof.Machine.execEraseDone bad s
  | .eraseResume => Sys2Proof.Machine.execEraseResume s
  | .eraseForced => Sys2Proof.Machine.execEraseForced s
  | .touchmarkCommit => Sys2Proof.Machine.execTouchmarkCommit s
  | .suppliesValid vcore vaux => Sys2Proof.Machine.execSuppliesValid vcore vaux s
  | .supplyWarning aux mv => Sys2Proof.Machine.execSupplyWarning aux mv s
  | .supplyRecovered aux mv low => Sys2Proof.Machine.execSupplyRecovered aux mv low s
  | .supplyResetLevel aux mv other => Sys2Proof.Machine.execSupplyResetLevel aux mv other s
  | .holdupCharged mv => Sys2Proof.Machine.execHoldupCharged mv s
  | .entropyFail test => Sys2Proof.Machine.execEntropyFail test s
  | .entropyRetest => Sys2Proof.Machine.execEntropyRetest s
  | .nonceExpiry => Sys2Proof.Machine.execNonceExpiry s
  | .challengeExpiry tap => Sys2Proof.Machine.execChallengeExpiry tap s
  | .sysRstN => Sys2Proof.Machine.execSysRstN s
  | .hallmarkReset => Sys2Proof.Machine.execHallmarkReset s
  | .deviceWdtExpiry => Sys2Proof.Machine.execDeviceWdtExpiry s
  | .tchWdtKick w v => Sys2Proof.Machine.execTchWdtKick w v s
  | .startup bm => Sys2Proof.Machine.execStartup bm s
  | .pllLock => Sys2Proof.Machine.execPllLock s
  | .ddr4InitDone => Sys2Proof.Machine.execDdr4InitDone s
  | .fwReady => Sys2Proof.Machine.execFwReady s
  | .clusterRelease w c imgs => Sys2Proof.Machine.execClusterRelease w c imgs s
  | .clRelClear w c => Sys2Proof.Machine.execClRelClear w c s
  | .extest si => Sys2Proof.Machine.execExtest si s
  | .samplePreload si => Sys2Proof.Machine.execSamplePreload si s
  | .idcode => Sys2Proof.Machine.execIdcode s
  | .bypass ir => Sys2Proof.Machine.execBypass ir s
  | .dapChal => Sys2Proof.Machine.execDapChal s
  | .dapResp sig level => Sys2Proof.Machine.execDapResp sig level s
  | .tapGrant => Sys2Proof.Machine.execTapGrant s
  | .dapCtl v => Sys2Proof.Machine.execDapCtl v s
  | .dapAcc => Sys2Proof.Machine.execDapAcc s
  | .dapRead addr => Sys2Proof.Machine.execDapRead addr s
  | .dapConsume addr => Sys2Proof.Machine.execDapConsume addr s
  | .dapWrite addr v tag => Sys2Proof.Machine.execDapWrite addr v tag s
  | .dapAccessDone => Sys2Proof.Machine.execDapAccessDone s
  | .trstN => Sys2Proof.Machine.execTrstN s
  | .dbgHalt c => Sys2Proof.Machine.execDbgHalt c s
  | .dbgRelease cs => Sys2Proof.Machine.execDbgRelease cs s
  | .benchHalt j => Sys2Proof.Machine.execBenchHalt j s
  | .benchRelease js => Sys2Proof.Machine.execBenchRelease js s
  | .dbgStep => Sys2Proof.Machine.execDbgStep s
  | .dbgWdtFreeze w v => Sys2Proof.Machine.execDbgWdtFreeze w v s
  | .evcThreshold e => Sys2Proof.Machine.execEvcThreshold e s
  | .evcOverflow e => Sys2Proof.Machine.execEvcOverflow e s
  | .evcThrHiWrite w e v => Sys2Proof.Machine.execEvcThrHiWrite w e v s
  | .evcClr w e v => Sys2Proof.Machine.execEvcClr w e v s
  | .evcGsnap w v => Sys2Proof.Machine.execEvcGsnap w v s
  | .evcCntLoRead e => Sys2Proof.Machine.execEvcCntLoRead e s
  | .captureRecord k full => Sys2Proof.Machine.execCaptureRecord k full s
  | .disagreementEnd e => Sys2Proof.Machine.execDisagreementEnd e s
  | .commandTimeout sq => Sys2Proof.Machine.execCommandTimeout sq s
  | .encoderOutputEdge k => Sys2Proof.Machine.execEncoderOutputEdge k s
  | .switchEdge a ph low turnOn => Sys2Proof.Machine.execSwitchEdge a ph low turnOn s
  | .pcieLinkUp gen width rev => Sys2Proof.Machine.execPcieLinkUp gen width rev s
  | .l1Entry => Sys2Proof.Machine.execL1Entry s
  | .l1Exit => Sys2Proof.Machine.execL1Exit s
  | .probeSend a => Sys2Proof.Machine.execProbeSend a s
  | .claimSend => Sys2Proof.Machine.execClaimSend s

end Sys2Proof.Machine
end

