-- ==== Sys2Proof/Machine/Tick.lean ====
section
/-!
DEFINITION. What one ccyc of 1.25 ns does when no command waits: device time and its copies, carrier references, timers,
delay counters, watchdogs and level-mode event counters. Whatever has a row of its own happens in that row.
-/
namespace Sys2Proof.Machine

/-- One ccyc of event counter e in mode duration or edge (R481, R482): a clear that a hit ordered comes first.
Assumption 12 (DEDUCED). -/
def evcTickLevel (e : Nat) (d : Dev) : Dev :=
  let mode := d.fldIf (EVC_CFG e) EVC_CFG_mode
  let on := d.fldIf (EVC_CFG e) EVC_CFG_en == 1
  if mode = 0 ∨ mode = 3 ∨ !d.evcRuns e then d
  else
    let up := d.evcLevel e
    if mode = 1 then when (on && up) (evcTick e) d
    else when (on && up && !d.evcHigh.contains e) (evcTick e) (evcSeen e d)

/-- The clear of event counter e that a hit ordered in the ccyc before (R482). -/
def evcClearTick (e : Nat) (d : Dev) : Dev :=
  if d.evcClr.contains e && d.evcRuns e then evcZero e { d with evcClr := d.evcClr.filter (· != e) } else d

/-- One ccyc of core k's watchdog, which counts acyc (R281). Assumptions 12, 39 (DEDUCED). -/
def wdtTick (k : Nat) (d : Dev) : Dev :=
  let a := ANV_WDT_LEFT k
  let left := (d.rd a).toNat
  if d.fldIf (ANV_WDT_CFG k) ANV_WDT_CFG_en = 0 ∨ !d.coreClock k ∨ d.coreHalted k ∨ d.locked k ∨ left = 0 ∨ d.now % 2 = 1 then d
  else d.wr a (w32 (left - 1))

/-- One ccyc of cluster c. Assumption 12 (DEDUCED). -/
def clusterTick (c : Nat) (d : Dev) : Dev :=
  if !d.clusterRuns c then d
  else
    let d1 := d.modCluster c fun x => { x with ref := x.ref + 1, cwdtLeft := x.cwdtLeft - 1 }
    let d2 := d1.modTime fun t => { t with copies := mset 0 t.copies c ((mget 0 t.copies c + 1) % 2 ^ 64) }
    let d3 := ocTick c (timersTick c d2)
    upTo 16 (fun l x =>
      match (x.interp (c * 16 + l)).waitT with
      | some t => if t = x.copy c then
          (x.modInterp (c * 16 + l) fun q => { q with waitT := none }).addDue (.timeStart (c * 16 + l) false) else x
      | none => x) d3

/-- The junction sensor's next value, which comes from outside and is free; max_t keeps the highest (R506).
Assumption 64 (DESIGN CHOICE). -/
def tempTick (d : Dev) : Dev :=
  let v := d.open_ % 2 ^ 16
  let d1 := d.bump.setF GLB_TEMP GLB_TEMP_temp v
  when (sx 16 (d.fld GLB_TEMP GLB_TEMP_max_t) < sx 16 v) (·.setF GLB_TEMP GLB_TEMP_max_t v) d1

/-- One ccyc of the device; nothing counts while it stands in reset. Assumptions 12, 64 (DEDUCED, DESIGN CHOICE). -/
def tick (d : Dev) : Dev :=
  if d.inReset then d
  else
    let d0 := d.evcClr.foldl (fun x e => evcClearTick e x) (windowsTick { d with now := d.now + 1 })
    let d1 := d0.modTime fun t =>
      { t with master := (t.master + 1) % 2 ^ 64, copies := mset 0 t.copies liKey ((mget 0 t.copies liKey + 1) % 2 ^ 64) }
    let d2 := seamTick d.semCycle (groupNews (plannedStarts (upTo 4 clusterTick d1)))
    let d3 := when (d2.now % 20 == 0) cruTick d2
    let d4 := dipTick (upTo 9 pairTick (upTo 18 wdtTick d3))
    let d5 := when (d4.now % 800000 == 0 && d4.flag TCH_WDT_CFG TCH_WDT_CFG_en && !d4.flag TCH_WDT_CFG TCH_WDT_CFG_frozen)
      (fun x => x.setF TCH_WDT_LEFT TCH_WDT_LEFT_left (x.fld TCH_WDT_LEFT TCH_WDT_LEFT_left - 1)) d4
    when (d.now % 800000 == 799999) tempTick (dumpTick (upTo 96 evcTickLevel d5))

end Sys2Proof.Machine
end

