-- ==== Sys2Proof/Safety.lean ====
section
/-!
DEFINITION. The terms that statements about the machine use: what a row yields, the canonical form of the memories, and
what a row leaves as it was.
-/
namespace Sys2Proof.Machine

/-- The outcome is a next state, and P holds of it. -/
def Yields (o : Out) (P : State → Prop) : Prop := ∃ t, o = .next t ∧ P t

/-- The canonical form of the memories: in each map the addresses rise strictly and nothing is listed that an unlisted
address reads as. -/
def Memory.wf (m : Memory) : Bool :=
  mwf byteDflt m.bytes && mwf (fun _ => 0) m.tags && mwf (fun _ => 0) m.err && mwf (fun _ => 0) m.host

/-- The registers that posting and counting may write: event counters, the level and loss counts of events, and the
state of the Touchmark queue. -/
def noiseReg (a : Nat) : Bool :=
  (decide (0x02708000 ≤ a) && decide (a < 0x02708400)) ||
    (decide (0x02800000 ≤ a) && decide (0xB0000 ≤ (a - 0x02800000) % 0x200000) && decide ((a - 0x02800000) % 0x200000 < 0xC0000)) ||
    a == LDL_GSTAT || a == LDL_EVT_DROP || a == TCH_STAT || (decide (0x02110000 ≤ a) && decide (a < 0x02130000) && a % 0x20 == 0x10)

/-- The device without its registers and without what posting and counting may change. -/
def Dev.still (d : Dev) : Dev :=
  { d with regs := .empty, wide := .empty, crossing := [], due := [], events := [], lostFor := .empty, tchQueue := [],
           tchDropped := 0, evcAt := .empty, free := 0,
           time := { d.time with stamps := .empty } }

/-- The device e differs from d at most in what posting records and counting pulses change. -/
structure Quiet (d e : Dev) : Prop where
  still : e.still = d.still
  regs : ∀ a, noiseReg a = false → alookup a e.regs.entries = alookup a d.regs.entries
  wide : ∀ a, noiseReg a = false → e.wide64 a = d.wide64 a

/-! ## The device without some part of it: what a frame lets change -/

/-- The device without the count of ccyc. -/
def Dev.noNow (d : Dev) : Dev := { d with now := 0 }
/-- The device without unlock windows. -/
def Dev.noWindows (d : Dev) : Dev := { d with windows := [] }
/-- The device without device time. -/
def Dev.noTime (d : Dev) : Dev := { d with time := .reset }
/-- The device without the clock monitor's hold. -/
def Dev.noClkHeld (d : Dev) : Dev := { d with clkHeld := false }
/-- The device without what clusters hold beside their registers. -/
def Dev.noClusters (d : Dev) : Dev := { d with clusters := .empty }
/-- The device without lanes. -/
def Dev.noLanes (d : Dev) : Dev := { d with lanes := .empty }
/-- The device without what axes hold beside their registers. -/
def Dev.noAxes (d : Dev) : Dev := { d with axes := .empty }
/-- The device without interpolators. -/
def Dev.noInterps (d : Dev) : Dev := { d with interps := .empty }
/-- The device without Drawplate tiles. -/
def Dev.noTiles (d : Dev) : Dev := { d with tiles := .empty }
/-- The device without Drawplate channels. -/
def Dev.noChans (d : Dev) : Dev := { d with chans := .empty }
/-- The device without draining clocks and the starts of clocks. -/
def Dev.noDraining (d : Dev) : Dev := { d with draining := [], sdcAt := .empty }
/-- The device without PWM units. -/
def Dev.noPwms (d : Dev) : Dev := { d with pwms := .empty }
/-- The device without feedback channels. -/
def Dev.noFbks (d : Dev) : Dev := { d with fbks := .empty }
/-- The device without encoder outputs. -/
def Dev.noEncs (d : Dev) : Dev := { d with encs := .empty }
/-- The device without coordination groups. -/
def Dev.noGrps (d : Dev) : Dev := { d with grps := .empty }
/-- The device without combiners. -/
def Dev.noCombs (d : Dev) : Dev := { d with combs := .empty }
/-- The device without timers. -/
def Dev.noTimers (d : Dev) : Dev := { d with timers := .empty }
/-- The device without chasing engines. -/
def Dev.noEngs (d : Dev) : Dev := { d with engs := .empty }
/-- The device without the words of banks 15. -/
def Dev.noBank15 (d : Dev) : Dev := { d with bank15 := .empty }
/-- The device without cores. -/
def Dev.noCores (d : Dev) : Dev := { d with cores := .empty }
/-- The device without owners to come. -/
def Dev.noOwnNext (d : Dev) : Dev := { d with ownNext := .empty }
/-- The device without the scrub address and the ccyc of its latest read. -/
def Dev.noScrub (d : Dev) : Dev := { d with scrubAt := 0, scrubCcyc := 0 }
/-- The device without the Crucible. -/
def Dev.noCru (d : Dev) : Dev := { d with cru := .reset }
/-- The device without core pairs. -/
def Dev.noPairs (d : Dev) : Dev := { d with corePairs := .empty }
/-- The device without fetched commands. -/
def Dev.noSqs (d : Dev) : Dev := { d with sqs := .empty }
/-- The device without the order of doorbells. -/
def Dev.noBells (d : Dev) : Dev := { d with bells := [], nextOrder := 0 }
/-- The device without the endpoint. -/
def Dev.noPcie (d : Dev) : Dev := { d with pcie := .reset }
/-- The device without the Seam link. -/
def Dev.noSem (d : Dev) : Dev := { d with sem := .reset }
/-- The device without Solder bus ports. -/
def Dev.noSlds (d : Dev) : Dev := { d with slds := .empty }
/-- The device without the flash routine. -/
def Dev.noFls (d : Dev) : Dev := { d with fls := .reset }
/-- The device without the Touchmark writer. -/
def Dev.noTch (d : Dev) : Dev := { d with tch := .reset }
/-- The device without the Hallmark. -/
def Dev.noHlm (d : Dev) : Dev := { d with hlm := .reset }
/-- The device without the TAP. -/
def Dev.noTap (d : Dev) : Dev := { d with tap := .reset }
/-- The device without captures. -/
def Dev.noCaps (d : Dev) : Dev := { d with caps := .empty }
/-- The device without levels of edge counters and clears of event counters to come. -/
def Dev.noEvcHigh (d : Dev) : Dev := { d with evcHigh := [], evcClr := [] }
/-- The device without commands under way. -/
def Dev.noWaits (d : Dev) : Dev := { d with waits := [] }
/-- The device without completions that await their record. -/
def Dev.noCpls (d : Dev) : Dev := { d with cpls := [] }
/-- The device without the value last read. -/
def Dev.noRdata (d : Dev) : Dev := { d with rdata := 0 }

/-- From d to e, only the registers of the list change, beside what posting and counting change, and of the rest of
the device only what g erases. -/
structure ChangesOnly (l : List Nat) (g : Dev → Dev) (d e : Dev) : Prop where
  rest : g e.still = g d.still
  regs : ∀ a, a ∉ l → noiseReg a = false → alookup a e.regs.entries = alookup a d.regs.entries
  wide : ∀ a, a ∉ l → noiseReg a = false → e.wide64 a = d.wide64 a

/-- A record of this code and payload finds room in the internal buffer, and its ring takes records (R327, R350). -/
def Dev.takesEvent (d : Dev) (code : Nat) (pay : List Nat) : Bool :=
  d.flag LDL_ADMIN_CTL LDL_ADMIN_CTL_en && !d.flag (LDL_RING_STAT (d.eqOf (code / 256))) LDL_RING_STAT_err &&
    decide (evLevel d.events + max 1 ((pay.length + 3) / 4) ≤ 256)

/-- The device holds a record of this code, island, index and payload. -/
def Dev.hasEvent (d : Dev) (code isl index : Nat) (pay : List Nat) : Prop :=
  ∃ r ∈ d.events, r.code = code ∧ r.island = isl ∧ r.index = index ∧ r.pay = pay

/-- What the access code of a field makes of a write (R10, R12, R507). cur: the field before; n: the value written;
new: the field after. may: the register takes effect from this writer; won: it holds the window. -/
def fieldAfter (acc : Acc) (may won : Bool) (cur n new wid : Nat) : Prop :=
  match acc with
  | .ro | .rc => new = cur
  | .w1c => new = cur &&& ((2 ^ wid - 1) ^^^ n)
  | .rw => new = if may then n else cur
  | .wo => new = cur
  | .w1s => new = if may then cur ||| n else cur
  | .rwp => new = if may && won then n else cur
  | .rwpWo => new = cur
  | .rwpW1s => new = if may && won then cur ||| n else cur

/-- The value is a reserved encoding of the register now (R11). -/
def Dev.reserves (d : Dev) (k : RegClass) (ix : List Nat) (v : Word) : Bool := reservedIn k.name v || d.reservedBy k.name ix v

/-- From d to e every field of the register at addr has followed its access code for w's write of v, where v is no
reserved encoding (R10 to R12, R507). -/
def Wrote (w : Writer) (addr : Nat) (v : Word) (d e : Dev) : Prop :=
  ∀ k ix, regAt addr = some (k, ix) → d.reserves k ix v = false → ∀ f ∈ k.fields,
    fieldAfter f.acc (writerOk k.writer ix k w) (d.windowOpen k addr w) (d.fld addr f.fld) (fget f.fld v) (e.fld addr f.fld)
      f.fld.wid

/-- The value is no reserved encoding of the register at addr (R11). -/
def Dev.sound (d : Dev) (addr : Nat) (v : Word) : Prop := ∀ k ix, regAt addr = some (k, ix) → d.reserves k ix v = false

/-- Source src of cluster c has pulsed: a pulse is due at every destination whose route selects it (R185). -/
def Pulsed (c src : Nat) (d e : Dev) : Prop := ∀ dest ∈ d.routes c, d.routed c dest src = true → .pulse c dest ∈ e.due

/-- Cause c of axis a is recorded and takes the axis to FAULTED with FR_STO where it runs its laws: outputs SAFE until
acknowledgement (R88, R93, R128). -/
structure ForcedSafe (a c : Nat) (d e : Dev) : Prop where
  out : e.outMode a = 0
  forced : e.flag (PWM_STAT a) PWM_STAT_forced = true
  latched : (e.pwm a).latched = true
  off : (e.pwm a).on = 0
  seen : (e.rd (AXS_CAUSE_SEEN a)).toNat.testBit c = true
  faulted : d.axSt a = stArmed ∨ d.axSt a = stEnabled → e.axSt a = stFaulted ∧ e.fld (AXS_FAULT a) AXS_FAULT_response = 4 ∧
    e.flag (AXS_STATE a) AXS_STATE_resp_done = true

/-! ## Microinstructions of a lane (R44 to R55) -/

/-- Lane n executes the word of run r next, for the current law (fg) or a background job: its cluster runs and no halt
sequence does, no comparator asks for a halt at this word, and its fetch shows no uncorrectable error (R48, R69). -/
structure LaneReady (d : Dev) (n : Nat) (r : LawRun) (fg : Bool) : Prop where
  runs : d.clusterRuns (n / 4) = true
  law : d.running n = some (r, fg)
  words : r.kind ≠ .emulation
  goes : (d.cluster (n / 4)).halting = false
  noHalt : ∀ k < 4, d.lacHit n k r.pc r.slot = true → d.fld (PLN_LAC_CFG n k) PLN_LAC_CFG_action ≠ 2
  ecc : mget 0 (d.lane n).lawErr (r.pc % 2048) ≤ 1

/-- The word that run r of lane n executes next. -/
def laneWord (d : Dev) (n : Nat) (r : LawRun) : LW := lwOf (d.lawWord n r.pc)

/-- What a microinstruction leaves alone of its lane: the stores, the slots, the jobs that wait and the output stages. -/
def Lane.stores (l : Lane) : Lane := { l with fg := .reset, bg := .reset, cur := none, job := none }

/-- From d to e a word of lane n has executed for the law fg that now stands as r: the other lanes, the other bank, the
stores of this lane and everything outside the lanes are as before, but for status and counts of the lane itself. -/
structure LaneMoved (n : Nat) (fg : Bool) (r : LawRun) (d e : Dev) : Prop where
  now : e.running n = some (r, fg)
  lanes : ∀ m, m ≠ n → e.lane m = d.lane m
  bank : e.bank n (!fg) = d.bank n (!fg)
  stores : (e.lane n).stores = (d.lane n).stores
  rest : ChangesOnly [PLN_LANE_STAT n, PLN_LS_STAT (n / 4), PLN_LAC_CNT n 0, PLN_LAC_CNT n 1, PLN_LAC_CNT n 2,
    PLN_LAC_CNT n 3] Dev.noLanes d e

/-- The law after a word of cyc ccyc: it stands at the next word. -/
def LawRun.after (r : LawRun) (cyc : Nat) : LawRun := { r with pc := r.pc + 1, len := r.len + cyc }

/-- The bank of law fg after a result v in register i with S as given: Z and N say what v is, every other register and
the accumulator stand (R52). -/
structure LanePut (n : Nat) (fg : Bool) (i : Nat) (v : Word) (sflag : Bool) (d e : Dev) : Prop where
  value : e.lreg n fg i = v
  others : ∀ j, j ≠ i → e.lreg n fg j = d.lreg n fg j
  zero : (e.bank n fg).z = decide (v = 0)
  neg : (e.bank n fg).n = decide (v.toInt < 0)
  clamped : (e.bank n fg).s = sflag
  acc : (e.bank n fg).acc = (d.bank n fg).acc

/-- v and the flag are the exact number i narrowed to 32 bits: with sat clamped, which the flag says, else wrapped (R51). -/
def narrowed (sat : Bool) (i : Int) (v : Word) (sflag : Bool) : Prop :=
  if sat then v.toInt = max (-0x80000000) (min 0x7FFFFFFF i) ∧ (sflag = true ↔ v.toInt ≠ i)
  else v = BitVec.ofInt 32 i ∧ sflag = false

/-- Command c executes words of opcode op on lane n in cyc ccyc, and puts into T(d) the exact result of val, narrowed. -/
def laneComputes (c : Instr) (n op cyc : Nat) (val : LW → (Nat → Word) → LaneBank → Int) : Prop :=
  ∀ (s : State) (r : LawRun) (fg : Bool), LaneReady s.dev n r fg → (laneWord s.dev n r).op = op →
    Yields (exec c s) fun t => t.mem = s.mem ∧ LaneMoved n fg (r.after cyc) s.dev t.dev ∧ ∃ v sflag,
      narrowed (laneWord s.dev n r).sat (val (laneWord s.dev n r) (s.dev.lreg n fg) (s.dev.bank n fg)) v sflag ∧
      LanePut n fg (laneWord s.dev n r).d v sflag s.dev t.dev

/-- Command c executes words of opcode op on lane n in one ccyc, and puts into T(d) the word of val with S clear. -/
def laneGives (c : Instr) (n op : Nat) (val : Dev → LawRun → Bool → LW → Word) : Prop :=
  ∀ (s : State) (r : LawRun) (fg : Bool), LaneReady s.dev n r fg → (laneWord s.dev n r).op = op →
    Yields (exec c s) fun t => t.mem = s.mem ∧ LaneMoved n fg (r.after 1) s.dev t.dev ∧
      LanePut n fg (laneWord s.dev n r).d (val s.dev r fg (laneWord s.dev n r)) false s.dev t.dev

/-- Command c executes words of opcode op on lane n in one ccyc, and the accumulator takes the exact number of val,
narrowed to 48 bits: clamped with sat, else wrapped; S says whether it was clamped, Z and N and the registers stand. -/
def laneAccumulates (c : Instr) (n op : Nat) (val : LW → (Nat → Word) → Int → Int) : Prop :=
  ∀ (s : State) (r : LawRun) (fg : Bool), LaneReady s.dev n r fg → (laneWord s.dev n r).op = op →
    Yields (exec c s) fun t => t.mem = s.mem ∧ LaneMoved n fg (r.after 1) s.dev t.dev ∧
      let i := val (laneWord s.dev n r) (s.dev.lreg n fg) (s.dev.bank n fg).acc
      (if (laneWord s.dev n r).sat then (t.dev.bank n fg).acc = max (-2 ^ 47) (min (2 ^ 47 - 1) i) ∧
          ((t.dev.bank n fg).s = true ↔ (t.dev.bank n fg).acc ≠ i)
        else ((t.dev.bank n fg).acc - i) % 2 ^ 48 = 0 ∧ (t.dev.bank n fg).s = false ∧
          -2 ^ 47 ≤ (t.dev.bank n fg).acc ∧ (t.dev.bank n fg).acc < 2 ^ 47) ∧
      (∀ j, t.dev.lreg n fg j = s.dev.lreg n fg j) ∧ (t.dev.bank n fg).z = (s.dev.bank n fg).z ∧
      (t.dev.bank n fg).n = (s.dev.bank n fg).n

/-- The exact number i shifted right by the word's sh: half of the last place is added first where rnd is set (R51). -/
def shifted (w : LW) (i : Int) : Int := (if w.rnd ∧ w.sh ≠ 0 then i + 2 ^ (w.sh - 1) else i) / 2 ^ w.sh

/-! ## Axes (R84 to R98) -/

/-- The device without what a request to axis a, its stop or its acknowledgement may change beside registers. -/
def Dev.noAxisParts (d : Dev) : Dev := d.noWindows.noAxes.noInterps.noPwms.noCombs.noLanes.noCpls.noWaits

/-- The registers that a request to axis a, its stop or its acknowledgement may write. -/
def axisRegs (a : Nat) : List Nat :=
  [AXS_CTL a, AXS_STATE a, AXS_FAULT a, AXS_CAUSE_SEEN a, AXS_RAMP_STAT a, AXS_SEG_STAT a, AXS_SEG_DROP a, PWM_STAT a,
   PWM_GSTAT (axCl a)]

/-- From d to e only axis a has changed: its registers, its parts and its laws' FIRST, beside what counting changes. -/
structure AxisOnly (a : Nat) (d e : Dev) : Prop where
  rest : ChangesOnly (axisRegs a) Dev.noAxisParts d e
  axes : ∀ b, b ≠ a → e.axis b = d.axis b
  interps : ∀ b, b ≠ a → e.interp b = d.interp b
  pwms : ∀ b, b ≠ a → e.pwm b = d.pwm b

/-- The queue and the running segment of axis a are gone (R178). -/
def Dev.queueEmpty (d : Dev) (a : Nat) : Prop := (d.interp a).run = none ∧ (d.interp a).len = 0 ∧ (d.interp a).waitT = none

/-! ## Segments (R166 to R176) -/

/-- From d to e the segment g at the head of axis a's queue has started at T0 from position p0: it has left the queue and
its tag and T0 show; a TIME segment behind an open-ended one is compared at once (R172 to R176). -/
structure SegStarted (a t0 : Nat) (g : Seg) (p0 : Int) (d e : Dev) : Prop where
  run : (e.interp a).run = some { seg := g, t0 := t0, p0 := p0, mPrev := none, mAcc := 0, asHold := false }
  len : (e.interp a).len = (d.interp a).len - 1
  head : (e.interp a).head = ((d.interp a).head + 1) % 64
  wait : g.dur ≠ 0 → (e.interp a).waitT = none
  next : (e.interp a).next = none
  tag : e.fld (AXS_SEG_TAG a) AXS_SEG_TAG_tag = g.tag
  time : e.wide64 (AXS_SEG_T0_LO a) = t0
  state : e.istOf a = 1

/-! ## Timers (R196 to R211) -/

/-- TMR_STAT of every timer of cluster c: gate_open follows what an input or an output level becomes. -/
def gateRegs (c : Nat) : List Nat := (List.range 32).map fun i => TMR_STAT (c * 32 + i)

/-- Compare A or B of timer t stands evaluated: a match is due exactly where the count of a timer that is enabled, or the
high half of a pair, equals the compare value, late where that lies in the past (R28, R198, R204, R206). -/
def TmrEvaluated (t : Nat) (isB : Bool) (d : Dev) : Prop :=
  ∀ late, .tmrMatch t isB late ∈ d.due ↔ (d.tmCfg t TMR_CFG_en ≠ 0 ∨ d.tmIsHigh t = true) ∧
    (if isB then cmpEval 32 (d.rd (TMR_CMPB t)).toNat (d.tmCnt t)
      else if d.tmWide t then cmpEval 64 (d.tmCmp64 t) (d.tmCnt64 t)
      else cmpEval 32 (d.rd (TMR_CMPA t)).toNat (d.tmCnt t)) = some late

/-! ## Chasing engines (R212 to R228) -/

/-- Engine e begins the word w at its pc: it runs unheld in a cluster that runs, nothing is in progress, w is no reserved
word, no comparator names the word and no loop window is set. -/
structure EngReady (d : Dev) (e w : Nat) : Prop where
  runs : d.clusterRuns (egCl e) = true
  on : d.egOn e = true
  hold : d.egHold e = false
  goes : (d.cluster (egCl e)).halting = false
  free : (d.eng e).ir = none
  word : d.fld (CHS_PROG e (d.egPc e)) CHS_PROG_word = w
  legal : egReserved w = false
  noPac : ∀ k < 2, d.pacHit e k (d.egPc e) = false
  noLoop : d.flag (CHS_LOOP e) CHS_LOOP_loop_en = false

/-- The pins of engine e once the side field of w drives those in side_en and dir (R213, R214). -/
def Dev.sidePins (d : Dev) (e w : Nat) : Nat :=
  let m := d.fld (CHS_PIN_CFG e) CHS_PIN_CFG_side_en &&& d.fld (CHS_PIN_CFG e) CHS_PIN_CFG_dir
  ((d.eng e).pins &&& (15 ^^^ m)) ||| (bits w 19 16 &&& m)

/-- The registers that show where an engine stands. -/
def engRegs (e : Nat) : List Nat := [CHS_CTL e, CHS_Q_STAT e, CHS_GSTAT (egCl e)]

/-- From d to f the word w of engine e has executed: it stands at the next word, and no other engine has moved. -/
structure EngStep (e w : Nat) (d f : Dev) : Prop where
  pc : f.egPc e = (d.egPc e + 1) % 64
  free : (f.eng e).ir = none
  pins : (f.eng e).pins = d.sidePins e w
  others : ∀ i, i ≠ e → f.eng i = d.eng i

/-- From d to f engine e has begun the word w and waits in it. -/
structure EngWaits (e w : Nat) (d f : Dev) : Prop where
  pc : f.egPc e = d.egPc e
  ir : (f.eng e).ir = some w
  pins : (f.eng e).pins = d.sidePins e w
  others : ∀ i, i ≠ e → f.eng i = d.eng i

/-- Command c executes the words of opcode op that sub picks on engine e: they change the listed registers and those that
show where the engine stands, beside what g erases, and P says what they do. -/
def engDoes (c : Instr) (e op : Nat) (sub : Nat → Bool) (regs : List Nat) (g : Dev → Dev) (P : Nat → State → State → Prop) : Prop :=
  ∀ (s : State) (w : Nat), EngReady s.dev e w → w / 2 ^ 20 = op → sub w = true →
    Yields (exec c s) fun t => t.mem = s.mem ∧ EngStep e w s.dev t.dev ∧ ChangesOnly (regs ++ engRegs e) g s.dev t.dev ∧ P w s t

/-! ## Anvil cores (R239 to R279) -/

/-- Core k stands at an instruction boundary before the word w, which it executes now: nothing of higher order is due, the
word is fetched without an error, it is no reserved encoding, its guard holds, no result that it reads or writes is
pending, no repeat is active, and no break or watch unit is on. -/
structure AnvReady (m : Memory) (d : Dev) (k : Nat) (w : Word) : Prop where
  ready : d.anvReady k = true
  word : anvFetch k (m, d) = ((m, d), .inr w)
  legal : iwUndef (d.core k).byteMode w = false
  guard : (d.core k).pred (iwPg w) ≠ iwPn w
  free : ∀ st ∈ (d.core k).stns, (∀ r ∈ st.dests, r ∉ iwRegs w) ∧ (st.op = 0x26 → st.d ≠ iwPg w ∧ st.d ∉ iwPreds w)
  noRep : (d.core k).rep = none
  noStep : (d.core k).stepping = false
  units : k = 18 ∨ ∀ u < 4, d.fldIf (DBG_BW_CFG k u) DBG_BW_CFG_en = 0

/-- From d to e core k has gone on to pc and its other state has become f's, whatever the prefetch queue has taken; no
other core and nothing else has changed. -/
structure AnvTo (k pc : Nat) (f : Core → Core) (d e : Dev) : Prop where
  core : ∃ q, e.core k = { f (d.core k) with pc := pc, pfq := q }
  others : ∀ j, j ≠ k → e.core j = d.core j
  rest : ChangesOnly [] Dev.noCores d e

/-- Command c executes words of op on core k where cond holds: they go on to pc, and the core becomes f's. -/
def anvGoes (c : Instr) (k op : Nat) (cond : State → Word → Prop) (pc : State → Word → Nat) (f : State → Word → Core → Core) : Prop :=
  ∀ (s : State) (w : Word), AnvReady s.mem s.dev k w → iwOp w = op → cond s w →
    Yields (exec c s) fun t => t.mem = s.mem ∧ AnvTo k (pc s w) (f s w) s.dev t.dev

/-- The same, going on to the next word. -/
def anvDoes (c : Instr) (k op : Nat) (cond : State → Word → Prop) (f : State → Word → Core → Core) : Prop :=
  anvGoes c k op cond (fun s _ => ((s.dev.core k).pc + 4) % 2 ^ 32) f

/-- Command c on words of op on core k where cond holds raises exception n with this address: nothing else happens before
the entry. -/
def anvRaises (c : Instr) (k op n : Nat) (cond : State → Word → Prop) (faddr : State → Word → Nat) : Prop :=
  ∀ (s : State) (w : Word), AnvReady s.mem s.dev k w → iwOp w = op → cond s w →
    Yields (exec c s) fun t => (t.mem, t.dev) = anvExc k n 0 (faddr s w) 0 (s.mem, s.dev)

/-- i limited to 32 signed bits, as a word. -/
def clampW (i : Int) : Word := BitVec.ofInt 32 (max (-0x80000000) (min 0x7FFFFFFF i))

/-- The condition of a comparison by its code (R249). -/
def condHolds (cc : Nat) (a b : Word) : Bool :=
  match cc with
  | 0 => decide (a = b)
  | 1 => decide (a ≠ b)
  | 2 => decide (a.toInt < b.toInt)
  | 3 => decide (b.toInt ≤ a.toInt)
  | 4 => decide (a.toNat < b.toNat)
  | 5 => decide (b.toNat ≤ a.toNat)
  | _ => decide (a &&& b ≠ 0)

/-! ## Commands of the rings (R329 to R380) -/

/-- A queue of commands whose front has begun. -/
def begunFront : List Cmd → List Cmd
  | c :: l => { c with begun := true } :: l
  | [] => []

/-- From d to e the front command c of SQ r has completed: its record is due with this status and result. -/
structure CmdEnds (r : Nat) (c : Cmd) (status result : Nat) (d e : Dev) : Prop where
  cpl : e.cpls = d.cpls ++ [⟨r, dTag c.d0, status, result⟩]
  front : e.sqOf r = { d.sqOf r with cmds := begunFront (d.sqOf r).cmds }
  others : ∀ q, q ≠ r → e.sqOf q = d.sqOf q

/-- Command c of SQ r is under way on a target with this data. -/
def Dev.holds (e : Dev) (r : Nat) (c : Cmd) (target : Nat) (aux : List Nat) : Prop :=
  ∃ n, (⟨r, dTag c.d0, dOp c.d0, target, aux, n, e.now, c.limit⟩ : Wait) ∈ e.waits

/-- The record of command c of SQ r is due with this status and result. -/
def Dev.answers (e : Dev) (r : Nat) (c : Cmd) (status result : Nat) : Prop := (⟨r, dTag c.d0, status, result⟩ : Cpl) ∈ e.cpls

/-- The command names no target and has no parameter. -/
def plain (c : Cmd) : Prop := c.badNone = false ∧ c.bad [] = false

/-- The cluster takes commands: it runs, and the debugger neither halts it nor has halted it (R345, R357). -/
def Dev.clusterFree (d : Dev) (k : Nat) : Prop :=
  (d.cluster k).halted = false ∧ (d.cluster k).halting = false ∧ d.clusterRuns k = true

/-- The row ends the commands of opcode op that ok takes with a status and a result: they change the listed registers and
what g erases, beside the queue of commands and their records; memory stands; P says what else they do. -/
def cmdDoes (row : Fin 4096 → Instr) (op : Nat) (ok : Nat → State → Cmd → Prop) (status : Nat) (result : State → Cmd → Nat)
    (regs : State → Cmd → List Nat) (g : Dev → Dev) (P : State → Cmd → State → Prop) : Prop :=
  ∀ (r : Fin 4096) (s : State) (c : Cmd), s.dev.front r op = some c → ok r s c → Yields (exec (row r) s) fun t =>
    t.mem = s.mem ∧ CmdEnds r c status (result s c) s.dev t.dev ∧
      ChangesOnly (regs s c) (fun d => g d.noSqs.noCpls) s.dev t.dev ∧ P s c t

/-- The row refuses the commands of opcode op that bad takes, with this status, and nothing else changes (R357). -/
def cmdRefuses (row : Fin 4096 → Instr) (op : Nat) (bad : Nat → State → Cmd → Prop) (status : Nat) : Prop :=
  cmdDoes row op bad status (fun _ _ => 0) (fun _ _ => []) id fun _ _ _ => True

/-- The row begins the commands of opcode op that ok takes: they stay under way on their target with what aux says. -/
def cmdBegins (row : Fin 4096 → Instr) (op : Nat) (ok : Nat → State → Cmd → Prop) (target : Cmd → Nat) (aux : State → Cmd → List Nat)
    (regs : State → Cmd → List Nat) (g : Dev → Dev) (P : State → Cmd → State → Prop) : Prop :=
  ∀ (r : Fin 4096) (s : State) (c : Cmd), s.dev.front r op = some c → ok r s c → Yields (exec (row r) s) fun t =>
    t.mem = s.mem ∧ t.dev.holds r c (target c) (aux s c) ∧ t.dev.sqOf r = { s.dev.sqOf r with cmds := begunFront (s.dev.sqOf r).cmds } ∧
      ChangesOnly (regs s c) (fun d => g d.noSqs.noCpls.noWaits) s.dev t.dev ∧ P s c t

/-- The row answers the commands of opcode op that ok takes with bytes in an output buffer, which src names with the device
that has made them ready. A buffer in host memory takes them once the device may use host memory; one in the fabric takes
them word by word, and a word that it refuses ends the command (R346, R355). -/
def cmdPuts (row : Fin 4096 → Instr) (op : Nat) (ok : State → Cmd → Prop) (buf : Cmd → Buf) (src : State → Cmd → Dev × List Byte)
    (result : State → Cmd → Nat) (g : Dev → Dev) (P : State → Cmd → List Byte → State → Prop) : Prop :=
  ∀ (r : Fin 4096) (s : State) (c : Cmd), s.dev.front r op = some c → ok s c →
    ((buf c).fab = false → s.dev.hostOk = false → Yields (exec (row r) s) fun t => t = s) ∧
    ((buf c).fab = false → s.dev.hostOk = true → Yields (exec (row r) s) fun t =>
      t.mem = s.mem.setHost (buf c).addr (src s c).2 ∧ CmdEnds r c stOk (result s c) s.dev t.dev ∧
      ChangesOnly [] (fun d => g d.noSqs.noCpls) s.dev t.dev ∧ P s c (src s c).2 t) ∧
    ((buf c).fab = true → ∀ y, ladWrite ((src s c).2.length + 1) (buf c).addr (src s c).2 (s.mem, (src s c).1) = y →
      Yields (exec (row r) s) fun t => t.mem = y.1.1 ∧
        t.dev.answers r c (if y.2.2 = none then stOk else stTransferFailed) (y.2.2.getD (result s c)))

/-- The row reads the n bytes of an input buffer for the commands of opcode op that ok takes, and then Q says what it does
with them, from memories and device as the reads leave them (R346, R355). -/
def cmdTakes (row : Fin 4096 → Instr) (op : Nat) (ok : State → Cmd → Prop) (buf : Cmd → Buf) (n : Cmd → Nat)
    (Q : Fin 4096 → State → Cmd → List Byte → MD → Prop) : Prop :=
  ∀ (r : Fin 4096) (s : State) (c : Cmd), s.dev.front r op = some c → ok s c →
    ((buf c).fab = false → s.dev.hostOk = false → Yields (exec (row r) s) fun t => t = s) ∧
    ((buf c).fab = false → s.dev.hostOk = true → Q r s c (s.mem.hostSpan (buf c).addr (n c)) (s.mem, s.dev)) ∧
    ((buf c).fab = true → ∀ y, ladRead (n c + 1) (buf c).addr (n c) (s.mem, s.dev) = y →
      (y.2.2 = none → Q r s c y.2.1 y.1) ∧
      (∀ code, y.2.2 = some code → Yields (exec (row r) s) fun t => t.mem = y.1.1 ∧
        CmdEnds r c stTransferFailed code y.1.2 t.dev ∧ ChangesOnly [] (fun d => d.noSqs.noCpls) y.1.2 t.dev))

/-! ## Resets (R327, R361, R460, R461) -/

/-- From s to t the device has taken a reset from a source: the registers outside AO but for the owners of banks, and what
the blocks hold beside them, stand as after reset; what the OTP holds stays; the source is noted and its event is due. -/
structure DeviceBegins (code : Nat) (s t : State) : Prop where
  src : t.dev.fld TCH_RST_CAUSE TCH_RST_CAUSE_src = code
  seen : (t.dev.fld TCH_RST_CAUSE TCH_RST_CAUSE_seen).testBit (code - 1) = true
  posted : .post 0x0112 0 [code, 0] ∈ t.dev.due
  regs : ∀ a, a < 0x02600000 ∨ 0x02700000 ≤ a → a ≠ GLB_PCIE_STAT → (∀ b < 72, a ≠ ING_BANK_OWN b) → t.dev.rd a = regReset s.dev.part a
  link : t.dev.linkUp = false
  stage : t.dev.fld TCH_BOOT TCH_BOOT_stage = fget TCH_BOOT_stage (regReset s.dev.part TCH_BOOT)
  axes : t.dev.axes = .empty ∧ t.dev.interps = .empty ∧ t.dev.pwms = .empty ∧ t.dev.fbks = .empty ∧ t.dev.tiles = .empty ∧ t.dev.chans = .empty
  lanes : t.dev.lanes = .empty ∧ t.dev.clusters = .empty ∧ t.dev.timers = .empty ∧ t.dev.grps = .empty ∧ t.dev.combs = .empty ∧ t.dev.encs = .empty
  cores : t.dev.cores = .empty ∧ t.dev.corePairs = .empty ∧ t.dev.engs = .empty
  rings : t.dev.sqs = .empty ∧ t.dev.waits = [] ∧ t.dev.cpls = [] ∧ t.dev.events = [] ∧ t.dev.bells = [] ∧ t.dev.caps = .empty
  sessions : ∀ k, mget none t.dev.hlm.sess k = none
  link_sync : t.dev.sem = .reset ∧ t.dev.time = .reset ∧ t.dev.slds = .empty ∧ t.dev.cru = .reset
  otp : t.dev.hlm.otp = s.dev.hlm.otp

/-- The same where the supplies stay valid: memories, owners of banks and the registers of AO stay, but for those of the
device watchdog, the start and the queue's state; the Touchmark queue takes the record of the reset if it has room. -/
structure WarmBegins (code : Nat) (s t : State) : Prop extends DeviceBegins code s t where
  mem : t.mem = s.mem
  owners : ∀ b < 72, t.dev.rd (ING_BANK_OWN b) = s.dev.rd (ING_BANK_OWN b)
  ao : ∀ a, 0x02600000 ≤ a → a < 0x02700000 → a ∉ [TCH_WDT_CFG, TCH_WDT_LEFT, TCH_BOOT, TCH_STAT, TCH_RST_CAUSE] → t.dev.rd a = s.dev.rd a
  record : s.dev.tchQueue.length < 8 → ∃ r, t.dev.tchQueue = s.dev.tchQueue ++ [r] ∧ r.cause = 3 ∧ r.pay = [code, if code = 4 then 1 else 0]
  full : 8 ≤ s.dev.tchQueue.length → t.dev.tchQueue = s.dev.tchQueue ∧ t.dev.tchDropped = min 65535 (s.dev.tchDropped + 1)

/-- From s to t the host island has been reset from a source: rings, sessions and events are gone, its registers stand as
after reset but for those that R327 keeps, the link is down; clusters go on, but for stream bindings. -/
structure IslandBegins (code : Nat) (s t : State) : Prop where
  src : t.dev.fld TCH_RST_CAUSE TCH_RST_CAUSE_src = code
  seen : (t.dev.fld TCH_RST_CAUSE TCH_RST_CAUSE_seen).testBit (code - 1) = true
  regs : ∀ a, (0x02000000 ≤ a ∧ a < 0x02200000) ∨ (0x02700000 ≤ a ∧ a < 0x02800000) → noiseReg a = false → (∀ b < 8, a ≠ ING_BANK_OWN (64 + b)) →
    a ∉ [GLB_PCIE_CTL, GLB_RST_CTL, GLB_TEMP, GLB_CLK_STAT, GLB_PCIE_STAT, DBG_STAT] → t.dev.rd a = regReset s.dev.part a
  keeps : t.dev.rd GLB_PCIE_CTL = s.dev.rd GLB_PCIE_CTL ∧ t.dev.rd GLB_RST_CTL = s.dev.rd GLB_RST_CTL ∧ t.dev.rd GLB_TEMP = s.dev.rd GLB_TEMP
  debug : t.dev.fld DBG_STAT DBG_STAT_pcie_level = 0 ∧ t.dev.fld DBG_STAT DBG_STAT_tap_level = s.dev.fld DBG_STAT DBG_STAT_tap_level
  link : t.dev.linkUp = false
  rings : t.dev.sqs = .empty ∧ t.dev.waits = [] ∧ t.dev.cpls = [] ∧ t.dev.events = [] ∧ t.dev.bells = [] ∧ t.dev.caps = .empty
  sessions : ∀ k, 1 ≤ k → k ≤ 15 → mget none t.dev.hlm.sess k = none
  cores : (t.dev.core 16).running = false ∧ (t.dev.core 17).running = false
  running : s.dev.flag GLB_PCIE_CTL GLB_PCIE_CTL_perst_stop = false → t.dev.axes = s.dev.axes ∧ t.dev.pwms = s.dev.pwms ∧
    t.dev.lanes = s.dev.lanes ∧ t.dev.chans = s.dev.chans ∧ t.dev.timers = s.dev.timers ∧ t.dev.engs = s.dev.engs ∧
    (∀ k, k ≠ 16 → k ≠ 17 → t.dev.core k = s.dev.core k) ∧
    ∀ a, 0x02800000 ≤ a → (∀ x < 64, a ≠ AXS_SEG_STAT x) → alookup a t.dev.regs.entries = alookup a s.dev.regs.entries
  stopped : s.dev.flag GLB_PCIE_CTL GLB_PCIE_CTL_perst_stop = true → ∀ a < 64, s.dev.clusterRuns (axCl a) = true → s.dev.axSt a = stEnabled →
    (t.dev.rd (AXS_CAUSE_SEEN a)).toNat.testBit 0x0E = true
  otp : t.dev.hlm.otp = s.dev.hlm.otp

end Sys2Proof.Machine
end

