-- ==== Sys2Proof/Certificates/Slice0/Obligations.lean ====
section
/-!
DEFINITION. The statements of this model for the provers: each names what the rows of the table do to the state, by the
rules of the spec that its docstring names.
-/
open Sys2Proof Sys2Proof.Machine


/-- Unlock windows, and a write of a register of the memory island by any master: every field follows its access code,
the writer's window closes, and lock_violation sets exactly where a discarded part would have changed something (R10 to
R12, R507). It rests on the model's choices in assumptions 13, 14, 15 and 18. -/
def Obligations.RegisterWritesAndWindows : Prop :=
  (
  -- R12: the key opens the writer's window on the block, and nothing but windows and lock_violation may change
  (∀ (w : Writer) (addr : Word) (k : RegClass) (ix : List Nat) (s : State), regAt addr.toNat = some (k, ix) →
    unlockOf k addr.toNat = some addr.toNat → w ≠ .dap → s.dev.regDead w addr.toNat = false →
    Yields (exec (.unlockWrite w addr) s) fun t => t.dev.windowOpen k addr.toNat w = true ∧ t.mem = s.mem ∧
      (∀ x, x ∈ t.dev.windows ↔ x ∈ s.dev.windows ∧ x.1 ≠ (addr.toNat, winKey w) ∨ x = ((addr.toNat, winKey w), 0)) ∧
      ChangesOnly [] Dev.noWindows s.dev t.dev) ∧
  -- R4, R35: nothing answers in a cluster that is absent, in reset or halted
  (∀ (w : Writer) (addr : Word) (s : State), s.dev.regDead w addr.toNat = true → Yields (exec (.unlockWrite w addr) s) fun t => t = s) ∧
  -- a debugger write never opens a window
  (∀ (addr : Word) (s : State), Yields (exec (.unlockWrite .dap addr) s) fun t =>
    (∀ x ∈ t.dev.windows, x ∈ s.dev.windows) ∧ t.mem = s.mem ∧
      ChangesOnly [] Dev.noWindows s.dev t.dev) ∧
  -- R12: at the end of cycle 32 of its writer the window is closed, and every other window stands
  (∀ (w : Writer) (addr : Word) (s : State), Yields (exec (.unlockWindowExpiry w addr) s) fun t =>
    (∀ x, x ∈ t.dev.windows ↔ x ∈ s.dev.windows ∧ (x.1 = (addr.toNat, winKey w) → x.2 < winSpan w)) ∧ t.mem = s.mem ∧
      ChangesOnly [] Dev.noWindows s.dev t.dev)) ∧
  (
  ∀ (w : Writer) (addr v : Word) (k : RegClass) (ix : List Nat) (s : State), regAt addr.toNat = some (k, ix) →
    0x02200000 ≤ addr.toNat → addr.toNat < 0x02300000 → addr.toNat ≠ MEM_UNLOCK →
    (w = .dap → s.dev.tapFull = true) →
    Yields (exec (.registerWrite w addr v) s) fun t =>
      (s.dev.reserves k ix v = false → ∀ f ∈ k.fields, fieldAfter f.acc (writerOk k.writer ix k w) (s.dev.windowOpen k addr.toNat w)
        (s.dev.fld addr.toNat f.fld) (fget f.fld v) (t.dev.fld addr.toNat f.fld) f.fld.wid) ∧
      (w ≠ .dap → ∀ x ∈ t.dev.windows, x.1 ≠ (MEM_UNLOCK, winKey w)) ∧
      (∀ x ∈ s.dev.windows, x.1 ≠ (MEM_UNLOCK, winKey w) → x ∈ t.dev.windows) ∧
      (t.dev.flag MEM_UNLOCK MEM_UNLOCK_lock_violation = true ↔ s.dev.flag MEM_UNLOCK MEM_UNLOCK_lock_violation = true ∨
        ∃ f ∈ k.fields, (fieldWrite f.acc (writerOk k.writer ix k w) (s.dev.windowOpen k addr.toNat w)
          (s.dev.fld addr.toNat f.fld) (fget f.fld v) f.fld.wid).2.2 = true) ∧
      t.mem = s.mem ∧ ChangesOnly [addr.toNat, MEM_UNLOCK] Dev.noWindows s.dev t.dev)

/-- The rows of device time (R31, R37, R40 to R43). It rests on the model's choices in assumptions 17, 18, 66 and 75. -/
def Obligations.DeviceTimeRows : Prop :=
  -- R41: an accepted write leaves the step pending for the next boundary
  (∀ (w : Writer) (v : Word) (s : State), s.dev.accepts w GLB_TIME_STEP = true → s.dev.time.mode ≠ 2 →
    Yields (exec (.glbTimeStepWrite w v) s) fun t => t.dev.rd GLB_TIME_STEP = v ∧ t.dev.time.stepDue = true ∧
      t.dev.time.master = s.dev.time.master ∧ t.mem = s.mem ∧
      ChangesOnly [GLB_TIME_STEP] (fun x => x.noWindows.noTime) s.dev t.dev) ∧
  -- R40: in SEAM mode the write is discarded and step_refused sets
  (∀ (w : Writer) (v : Word) (s : State), s.dev.time.mode = 2 →
    Yields (exec (.glbTimeStepWrite w v) s) fun t => t.dev.rd GLB_TIME_STEP = s.dev.rd GLB_TIME_STEP ∧
      t.dev.time = s.dev.time ∧ t.dev.flag GLB_CLK_STAT GLB_CLK_STAT_step_refused = true ∧ t.mem = s.mem) ∧
  -- R31, R43: a written trim saturates at 100,000 ppb either way
  (∀ (w : Writer) (v : Word) (s : State), s.dev.accepts w GLB_CLK_TRIM = true → s.dev.time.mode ≠ 2 →
    Yields (exec (.glbClkTrimWrite w v) s) fun t =>
      sgn (t.dev.rd GLB_CLK_TRIM) = max (-100000) (min 100000 (sgn v)) ∧ t.mem = s.mem ∧
      ChangesOnly [GLB_CLK_TRIM] Dev.noWindows s.dev t.dev) ∧
  (∀ (w : Writer) (v : Word) (s : State), s.dev.time.mode = 2 →
    Yields (exec (.glbClkTrimWrite w v) s) fun t => t.dev.rd GLB_CLK_TRIM = s.dev.rd GLB_CLK_TRIM ∧
      t.dev.flag GLB_CLK_STAT GLB_CLK_STAT_step_refused = true ∧ t.mem = s.mem) ∧
  -- R43: a read of the low half captures the high half
  (∀ s : State, Yields (exec (.glbTimeLoRead false) s) fun t => t.dev.rdata.toNat = s.dev.time.master % 2 ^ 32 ∧
    (t.dev.rd GLB_TIME_HI_SNAP).toNat = s.dev.time.master / 2 ^ 32 % 2 ^ 32 ∧ t.mem = s.mem ∧
    ChangesOnly [GLB_TIME_HI_SNAP] Dev.noRdata s.dev t.dev) ∧
  (∀ s : State, Yields (exec (.glbTimeLoRead true) s) fun t => t.dev.rdata = s.dev.rd GLB_SYNC_IN_LAT_LO ∧
    (t.dev.rd GLB_SYNC_IN_LAT_HI_SNAP).toNat = s.dev.wide64 GLB_SYNC_IN_LAT_LO / 2 ^ 32 % 2 ^ 32 ∧ t.mem = s.mem ∧
    ChangesOnly [GLB_SYNC_IN_LAT_HI_SNAP] Dev.noRdata s.dev t.dev) ∧
  -- R40: an edge beyond a quarter period is counted and ignored
  (∀ (s : State) (p : Nat), s.dev.time.mode = 1 → p = s.dev.fld GLB_SYNC_IN_PERIOD GLB_SYNC_IN_PERIOD_sync_period → p ≠ 0 →
    p < 4 * (s.dev.phaseError s.dev.time.master).natAbs →
    Yields (exec .syncInEdge s) fun t => t.dev.wide64 GLB_SYNC_IN_LAT_LO = s.dev.time.master ∧
      t.dev.fld GLB_CLK_STAT GLB_CLK_STAT_spurious_edges =
        min (s.dev.fld GLB_CLK_STAT GLB_CLK_STAT_spurious_edges + 1) (2 ^ GLB_CLK_STAT_spurious_edges.wid - 1) ∧
      t.dev.time = s.dev.time ∧ t.mem = s.mem ∧
      ChangesOnly [GLB_SYNC_IN_LAT_LO, GLB_CLK_STAT] id s.dev t.dev) ∧
  -- R40: an accepted edge steers the trim by (f + e/4) × 10^9 / sync_period, at most 20,000 ppb
  (∀ (s : State) (p : Nat) (e f : Int), s.dev.time.mode = 1 →
    p = s.dev.fld GLB_SYNC_IN_PERIOD GLB_SYNC_IN_PERIOD_sync_period → p ≠ 0 → e = s.dev.phaseError s.dev.time.master →
    4 * e.natAbs ≤ p → f = e - s.dev.time.ePrev.getD e →
    Yields (exec .syncInEdge s) fun t => t.dev.wide64 GLB_SYNC_IN_LAT_LO = s.dev.time.master ∧
      sgn (t.dev.rd GLB_CLK_TRIM) = max (-100000) (min 100000 (sgn (s.dev.rd GLB_CLK_TRIM) -
        max (-20000) (min 20000 (Int.tdiv ((4 * f + e) * 1000000000) (4 * p))))) ∧
      t.dev.time.ePrev = some e ∧ t.dev.time.missed = 0 ∧
      (e.natAbs ≤ s.dev.fld GLB_TIME_CTL GLB_TIME_CTL_lock_tol → 7 ≤ s.dev.time.lockRun →
        t.dev.flag GLB_CLK_STAT GLB_CLK_STAT_locked = true) ∧
      t.dev.time.master = s.dev.time.master ∧ t.mem = s.mem ∧
      ChangesOnly [GLB_SYNC_IN_LAT_LO, GLB_CLK_STAT, GLB_CLK_TRIM] Dev.noTime s.dev t.dev) ∧
  -- R40: with four expected edges missing lock is lost, the trim stays, a record is posted
  (∀ s : State, s.dev.syncGone = false → Yields (exec .syncLost s) fun t => t = s) ∧
  (∀ s : State, s.dev.syncGone = true → Yields (exec .syncLost s) fun t =>
    t.dev.flag GLB_CLK_STAT GLB_CLK_STAT_locked = false ∧ t.dev.rd GLB_CLK_TRIM = s.dev.rd GLB_CLK_TRIM ∧
    (s.dev.takesEvent (evOpen 1 1) [] = true → t.dev.hasEvent (evOpen 1 1) 0 0 []) ∧ t.mem = s.mem ∧
    t.dev.time.missed = 4 ∧ t.dev.time.master = s.dev.time.master ∧ ChangesOnly [GLB_CLK_STAT] Dev.noTime s.dev t.dev) ∧
  -- R38, R42: the output rises at a multiple of out_period plus out_offset, once for each, and falls out_width ticks later
  (∀ (s : State) (p o n : Nat), p = s.dev.fld GLB_SYNC_OUT_PERIOD GLB_SYNC_OUT_PERIOD_out_period → p ≠ 0 →
    o = s.dev.fld GLB_SYNC_OUT_OFFSET GLB_SYNC_OUT_OFFSET_out_offset → s.dev.time.master = o + n * p →
    (s.dev.time.syncFired = none → Yields (exec .syncOutRise s) fun t => t.mem = s.mem ∧
      t.dev = { s.dev with time := { s.dev.time with
        syncOut := true, syncRose := s.dev.now, syncFired := some s.dev.time.master } }) ∧
    (∀ u, s.dev.time.syncFired = some u → s.dev.time.master ≤ u → Yields (exec .syncOutRise s) fun t => t = s)) ∧
  (∀ s : State, s.dev.syncOutNow = false → Yields (exec .syncOutRise s) fun t => t = s) ∧
  (∀ (s : State) (n : Nat), n = s.dev.fld GLB_SYNC_OUT_CTL GLB_SYNC_OUT_CTL_out_width →
    (s.dev.time.syncRose + n ≤ s.dev.now → Yields (exec .syncOutFall s) fun t => t.mem = s.mem ∧
      t.dev = { s.dev with time := { s.dev.time with syncOut := false } }) ∧
    (s.dev.now < s.dev.time.syncRose + n → Yields (exec .syncOutFall s) fun t => t = s))

/-- At a tick that is a multiple of 1,024: due copies are loaded, a pending step is applied to the master, and the
written mode takes effect (R37, R40, R41). The oldest item of a crossing is delivered and leaves it (R33, R35, R481). It
rests on the model's choices in assumptions 17 and 66. -/
def Obligations.TimeCrossingsAndBoundary : Prop :=
  (
    (∀ s : State, s.dev.atBoundary = false → Yields (exec .deviceTimeBoundary s) fun t => t = s) ∧
    ∀ s : State, s.dev.time.master % 1024 = 0 → s.dev.time.bound ≠ some s.dev.now → Yields (exec .deviceTimeBoundary s) fun t =>
      t.mem = s.mem ∧ t.dev.time.stepDue = false ∧ t.dev.time.bound = some s.dev.now ∧
      (s.dev.time.stepDue = true → t.dev.rd GLB_TIME_STEP = 0 ∧
        (t.dev.time.master : Int) = ((s.dev.time.master : Int) + sgn (s.dev.rd GLB_TIME_STEP)) % 2 ^ 64) ∧
      (s.dev.time.stepDue = false → t.dev.time.master = s.dev.time.master ∧ t.dev.rd GLB_TIME_STEP = s.dev.rd GLB_TIME_STEP ∧
        ∀ c < 4, s.dev.clusterRuns c = true → s.dev.time.reload.contains c = true → t.dev.copy c = s.dev.time.master) ∧
      (∀ c < 4, s.dev.clusterRuns c = true → s.dev.time.reload.contains c = false → s.dev.copy c ≠ s.dev.time.master →
        t.dev.flag GLB_CLK_STAT GLB_CLK_STAT_copy_err = true) ∧
      (s.dev.time.stepDue = false → t.dev.fld GLB_CLK_STAT GLB_CLK_STAT_flux_drop =
        min (s.dev.fld GLB_CLK_STAT GLB_CLK_STAT_flux_drop + ((List.range 4).filter fun c => s.dev.released c &&
          !s.dev.clusterRuns c && s.dev.time.reload.contains c).length) (2 ^ GLB_CLK_STAT_flux_drop.wid - 1)) ∧
      t.dev.time.mode = s.dev.fld GLB_TIME_CTL GLB_TIME_CTL_time_mode ∧
      (s.dev.fld GLB_TIME_CTL GLB_TIME_CTL_time_mode ≠ s.dev.time.mode → t.dev.flag GLB_CLK_STAT GLB_CLK_STAT_locked = false)) ∧
  (
    -- a kick reloads the device watchdog
    (∀ (src dst : Island) (s : State),
      (s.dev.crossing.find? fun x => x.src == src && x.dst == dst && x.plain) = some ⟨src, dst, .wdtKick⟩ →
      s.dev.flag TCH_WDT_CFG TCH_WDT_CFG_en = true →
      Yields (exec (.crossingDelivery src dst) s) fun t =>
        t.dev.fld TCH_WDT_LEFT TCH_WDT_LEFT_left = s.dev.fld TCH_WDT_CFG TCH_WDT_CFG_period ∧
        t.dev.crossing = s.dev.crossing.erase ⟨src, dst, .wdtKick⟩ ∧ t.mem = s.mem ∧
        ChangesOnly [TCH_WDT_LEFT] id s.dev t.dev) ∧
    -- a count reaches its global event counter
    (∀ (src dst : Island) (e : Nat) (s : State), e < 96 →
      (s.dev.crossing.find? fun x => x.src == src && x.dst == dst && x.plain) = some ⟨src, dst, .evc e⟩ →
      Yields (exec (.crossingDelivery src dst) s) fun t =>
        t.dev.wide64 (EVC_CNT_LO e) = (s.dev.wide64 (EVC_CNT_LO e) + 1) % 2 ^ 48 ∧
        t.dev.crossing = s.dev.crossing.erase ⟨src, dst, .evc e⟩ ∧ t.mem = s.mem ∧ ChangesOnly [] id s.dev t.dev) ∧
    -- a Flux pulse for a cluster whose clock stands is discarded
    (∀ (src dst : Island) (c n : Nat) (s : State), s.dev.clusterRuns c = false →
      (s.dev.crossing.find? fun x => x.src == src && x.dst == dst && x.plain) = some ⟨src, dst, .flux c n⟩ →
      Yields (exec (.crossingDelivery src dst) s) fun t => t = { s with dev := { s.dev with
        crossing := s.dev.crossing.erase ⟨src, dst, .flux c n⟩ } }) ∧
    -- a Flux pulse for a running cluster leaves every destination routed to it due
    (∀ (src dst : Island) (c n dest : Nat) (s : State), s.dev.clusterRuns c = true → dest ∈ s.dev.routes c →
      s.dev.routed c dest n = true →
      (s.dev.crossing.find? fun x => x.src == src && x.dst == dst && x.plain) = some ⟨src, dst, .flux c n⟩ →
      Yields (exec (.crossingDelivery src dst) s) fun t => .pulse c dest ∈ t.dev.due ∧ t.mem = s.mem ∧
        ChangesOnly [] Dev.noCombs s.dev t.dev))

/-- The arithmetic microinstructions put the exact result, narrowed to 32 bits, into T(d) with the flags of R52, and
change nothing else of the lane but its place in the law. -/
def Obligations.LaneArithmeticResults : Prop :=
  ∀ n : Fin 16,
    laneComputes (.laneAdd n) n 0x10 1 (fun w T _ => (T w.a).toInt + (T w.b).toInt) ∧
    laneComputes (.laneSub n) n 0x11 1 (fun w T _ => (T w.a).toInt - (T w.b).toInt) ∧
    laneComputes (.laneAddi n) n 0x12 1 (fun w T _ => (T w.a).toInt + w.imm.toInt) ∧
    laneComputes (.laneNeg n) n 0x13 1 (fun w T _ => -(T w.a).toInt) ∧
    laneComputes (.laneAbs n) n 0x14 1 (fun w T _ => ((T w.a).toInt.natAbs : Int)) ∧
    laneComputes (.laneMin n) n 0x15 1 (fun w T _ => min (T w.a).toInt (T w.b).toInt) ∧
    laneComputes (.laneMax n) n 0x16 1 (fun w T _ => max (T w.a).toInt (T w.b).toInt) ∧
    laneComputes (.laneShl n) n 0x1B 1 (fun w T _ => (T w.a).toInt * 2 ^ w.sh) ∧
    laneComputes (.laneMul n) n 0x20 2 (fun w T _ => shifted w ((T w.a).toInt * (T w.b).toInt)) ∧
    laneComputes (.laneMuli n) n 0x21 2 (fun w T _ => shifted w ((T w.a).toInt * w.imm.toInt)) ∧
    laneComputes (.laneAcx n) n 0x27 1 (fun w _ b => shifted w b.acc)

/-- The microinstructions that move words and combine them bit by bit: T(d) takes the word, Z and N follow it, S clears
(R52, R56, R62). It rests on the model's choices in assumption 23. -/
def Obligations.LaneMovesAndBits : Prop :=
  ∀ n : Fin 16,
    laneGives (.laneLdi n) n 0x02 (fun _ _ _ w => w.imm) ∧
    -- a current law reads the variable file; a background law sees what it has written since its start
    laneGives (.laneLdv n) n 0x03 (fun d r fg w =>
      let file := mget 0 (d.lane n).var (r.slot * 256 + w.imm.toNat % 256)
      if fg then file else (alookup (r.slot * 256 + w.imm.toNat % 256) (d.lane n).publish).getD file) ∧
    -- a gain word of the region of the law's sample
    laneGives (.laneLdg n) n 0x07 (fun d r _ w =>
      mget 0 (d.lane n).gain (r.slot * 256 + r.inp.region % 8 * 32 + w.imm.toNat % 32)) ∧
    laneGives (.laneMov n) n 0x1E (fun d _ fg w => d.lreg n fg w.a) ∧
    laneGives (.laneAnd n) n 0x18 (fun d _ fg w => d.lreg n fg w.a &&& d.lreg n fg w.b) ∧
    laneGives (.laneOr n) n 0x19 (fun d _ fg w => d.lreg n fg w.a ||| d.lreg n fg w.b) ∧
    laneGives (.laneXor n) n 0x1A (fun d _ fg w => d.lreg n fg w.a ^^^ d.lreg n fg w.b) ∧
    laneGives (.laneShr n) n 0x1C (fun d _ fg w => BitVec.ofInt 32 (shifted w (d.lreg n fg w.a).toInt)) ∧
    -- the input ports of R56: the values of the law's sample
    (∀ (s : State) (r : LawRun) (fg : Bool), LaneReady s.dev n r fg → (laneWord s.dev n r).op = 0x05 →
      Yields (exec (.laneIn n) s) fun t => t.mem = s.mem ∧ LaneMoved n fg (r.after 1) s.dev t.dev ∧ ∃ v,
        LanePut n fg (laneWord s.dev n r).d v false s.dev t.dev ∧
        ∀ p ∈ [(0x00, r.inp.ia), (0x01, r.inp.ib), (0x02, r.inp.ic), (0x04, r.inp.pos), (0x05, r.inp.spd),
          (0x06, r.inp.spos), (0x08, r.inp.setp), (0x09, r.inp.setpf), (0x0A, r.inp.setv), (0x0B, r.inp.seta),
          (0x10, w32 r.inp.region), (0x11, w32 r.inp.ts)], (laneWord s.dev n r).x = p.1 → v = p.2) ∧
    -- LIM clamps A to the magnitude of B, and S says that it did
    (∀ (s : State) (r : LawRun) (fg : Bool), LaneReady s.dev n r fg → (laneWord s.dev n r).op = 0x17 →
      Yields (exec (.laneLim n) s) fun t => t.mem = s.mem ∧ LaneMoved n fg (r.after 1) s.dev t.dev ∧ ∃ v sflag,
        LanePut n fg (laneWord s.dev n r).d v sflag s.dev t.dev ∧
        let a := (s.dev.lreg n fg (laneWord s.dev n r).a).toInt
        let b : Int := (s.dev.lreg n fg (laneWord s.dev n r).b).toInt.natAbs
        (-b ≤ a ∧ a ≤ b → v.toInt = a ∧ sflag = false) ∧ (b < a → v = BitVec.ofInt 32 b ∧ sflag = true) ∧
        (a < -b → v = BitVec.ofInt 32 (-b) ∧ sflag = true)) ∧
    -- CMP: the flags of A - B computed without limit; no register is written
    (∀ (s : State) (r : LawRun) (fg : Bool), LaneReady s.dev n r fg → (laneWord s.dev n r).op = 0x1D →
      Yields (exec (.laneCmp n) s) fun t => t.mem = s.mem ∧ LaneMoved n fg (r.after 1) s.dev t.dev ∧
        let a := (s.dev.lreg n fg (laneWord s.dev n r).a).toInt
        let b := (s.dev.lreg n fg (laneWord s.dev n r).b).toInt
        (t.dev.bank n fg).z = decide (a = b) ∧ (t.dev.bank n fg).n = decide (a < b) ∧ (t.dev.bank n fg).s = false ∧
        (∀ j, t.dev.lreg n fg j = s.dev.lreg n fg j) ∧ (t.dev.bank n fg).acc = (s.dev.bank n fg).acc) ∧
    -- NOP: only the place in the law moves
    (∀ (s : State) (r : LawRun) (fg : Bool), LaneReady s.dev n r fg → (laneWord s.dev n r).op = 0x00 →
      Yields (exec (.laneNop n) s) fun t => t.mem = s.mem ∧ LaneMoved n fg (r.after 1) s.dev t.dev ∧
        t.dev.bank n fg = s.dev.bank n fg)

/-- The accumulator (R53): loads and multiply-accumulates narrow to 48 bits with S only; CLA clears it; DIV rounds
toward 0, and a divisor of 0 gives the greatest or smallest number, or 0 for 0/0, with S set. The CORDIC
microinstructions write T(d) and T(d+1) with an error of at most 4 units, flags from T(d) (R53). Sine, cosine, angle and
magnitude are the model's exact values in units of 2^-80. It rests on the model's choices in assumptions 21 and 22. -/
def Obligations.LaneAccumulatorDivisionCordic : Prop :=
  (
    ∀ n : Fin 16,
      laneAccumulates (.laneLda n) n 0x23 (fun w T _ => (T w.a).toInt * 2 ^ w.sh) ∧
      laneAccumulates (.laneMac n) n 0x24 (fun w T acc => acc + shifted w ((T w.a).toInt * (T w.b).toInt)) ∧
      laneAccumulates (.laneMsu n) n 0x25 (fun w T acc => acc - shifted w ((T w.a).toInt * (T w.b).toInt)) ∧
      laneAccumulates (.laneMaci n) n 0x26 (fun w T acc => acc + shifted w ((T w.a).toInt * w.imm.toInt)) ∧
      (∀ (s : State) (r : LawRun) (fg : Bool), LaneReady s.dev n r fg → (laneWord s.dev n r).op = 0x22 →
        Yields (exec (.laneCla n) s) fun t => t.mem = s.mem ∧ LaneMoved n fg (r.after 1) s.dev t.dev ∧
          t.dev.bank n fg = { s.dev.bank n fg with acc := 0 }) ∧
      (∀ (s : State) (r : LawRun) (fg : Bool), LaneReady s.dev n r fg → (laneWord s.dev n r).op = 0x28 →
        Yields (exec (.laneDiv n) s) fun t => t.mem = s.mem ∧ LaneMoved n fg (r.after 20) s.dev t.dev ∧ ∃ v sflag,
          LanePut n fg (laneWord s.dev n r).d v sflag s.dev t.dev ∧
          let a := (s.dev.lreg n fg (laneWord s.dev n r).a).toInt
          let b := (s.dev.lreg n fg (laneWord s.dev n r).b).toInt
          (b ≠ 0 → narrowed (laneWord s.dev n r).sat (Int.tdiv (a * 2 ^ (laneWord s.dev n r).sh) b) v sflag) ∧
          (b = 0 → 0 < a → v = 0x7FFFFFFF ∧ sflag = true) ∧ (b = 0 → a < 0 → v = 0x80000000 ∧ sflag = true) ∧
          (b = 0 → a = 0 → v = 0 ∧ sflag = true))) ∧
  (
    ∀ (n : Fin 16) (s : State) (r : LawRun) (fg : Bool), LaneReady s.dev n r fg → (laneWord s.dev n r).d < 15 →
      let w := laneWord s.dev n r
      let a := s.dev.lreg n fg w.a
      let b := s.dev.lreg n fg w.b
      let two := fun (t : State) (cyc : Nat) => t.mem = s.mem ∧ LaneMoved n fg (r.after cyc) s.dev t.dev ∧
        (∀ j, j ≠ w.d → j ≠ w.d + 1 → t.dev.lreg n fg j = s.dev.lreg n fg j) ∧
        (t.dev.bank n fg).acc = (s.dev.bank n fg).acc ∧ (t.dev.bank n fg).z = decide (t.dev.lreg n fg w.d = 0) ∧
        (t.dev.bank n fg).n = decide ((t.dev.lreg n fg w.d).toInt < 0)
      -- i lies within err units of q / 2^80
      let near := fun (i q : Int) (err : Int) => ((i * 2 ^ 80 - q).natAbs : Int) ≤ err * 2 ^ 80
      (w.op = 0x30 → Yields (exec (.laneSincos n) s) fun t => two t 16 ∧ (t.dev.bank n fg).s = false ∧ ∃ x y : Int,
        near x ((trigAng a.toNat).1 * 2 ^ 31) 4 ∧ near y ((trigAng a.toNat).2 * 2 ^ 31) 4 ∧
        (t.dev.lreg n fg w.d).toInt = max (-0x80000000) (min 0x7FFFFFFF x) ∧
        (t.dev.lreg n fg (w.d + 1)).toInt = max (-0x80000000) (min 0x7FFFFFFF y)) ∧
      (w.op = 0x31 → Yields (exec (.laneRot n) s) fun t => two t 16 ∧ ∃ (x y : Int) (f g : Bool),
        let th := trigAng (s.dev.lreg n fg (w.x % 16)).toNat
        near x (a.toInt * th.2 - b.toInt * th.1) 4 ∧ near y (a.toInt * th.1 + b.toInt * th.2) 4 ∧
        narrowed w.sat x (t.dev.lreg n fg w.d) f ∧ narrowed w.sat y (t.dev.lreg n fg (w.d + 1)) g ∧
        (t.dev.bank n fg).s = (f || g)) ∧
      (w.op = 0x32 → Yields (exec (.laneAtan2 n) s) fun t => two t 18 ∧
        (a = 0 → b = 0 → t.dev.lreg n fg w.d = 0 ∧ t.dev.lreg n fg (w.d + 1) = 0 ∧ (t.dev.bank n fg).s = false) ∧
        (a ≠ 0 ∨ b ≠ 0 → ∃ (x y : Int) (f : Bool), near x (angleQ a.toInt b.toInt) 8 ∧ near y (magQ a.toInt b.toInt) 4 ∧
          t.dev.lreg n fg w.d = BitVec.ofInt 32 x ∧ narrowed w.sat y (t.dev.lreg n fg (w.d + 1)) f ∧
          (t.dev.bank n fg).s = f)))

/-- The microinstructions of output and control: OUT, STV, SKIP, FAULT, EVT (R52, R54, R56, R59, R62, R312). END of a
current law: its outputs and requests enter the output stage of its slot and the lane is free; END of a background job:
its publish buffer commits to the variable file at once (R60, R62). It rests on the model's choices in assumptions 23
and 82. -/
def Obligations.LaneOutputsAndControl : Prop :=
  (
    ∀ n : Fin 16,
      -- a duty stands in the execution until its release
      (∀ (s : State) (r : LawRun) (fg : Bool), LaneReady s.dev n r fg → (laneWord s.dev n r).op = 0x06 →
        (laneWord s.dev n r).x ≠ 0x44 →
        Yields (exec (.laneOut n) s) fun t => t.mem = s.mem ∧ t.dev.bank n fg = s.dev.bank n fg ∧
          let v := s.dev.lreg n fg (laneWord s.dev n r).a
          let q := r.after 1
          LaneMoved n fg (match (laneWord s.dev n r).x with
            | 0x40 => { q with du := some v }
            | 0x41 => { q with dv := some v }
            | 0x42 => { q with dw := some v }
            | _ => q) s.dev t.dev) ∧
      -- port 0x44 is the emulated position of the slot: PDL-64 has none
      (∀ (s : State) (r : LawRun) (fg : Bool), LaneReady s.dev n r fg → (laneWord s.dev n r).op = 0x06 →
        (laneWord s.dev n r).x = 0x44 →
        Yields (exec (.laneOut n) s) fun t => t.mem = s.mem ∧ t.dev.bank n fg = s.dev.bank n fg ∧
          t.dev.running n = some (r.after 1, fg) ∧ (s.dev.part = .pdl64 → LaneMoved n fg (r.after 1) s.dev t.dev) ∧
          (s.dev.part ≠ .pdl64 → (t.dev.slot n r.slot).emuOut = some (s.dev.lreg n fg (laneWord s.dev n r).a))) ∧
      -- a current law writes the variable file at once, a background law its publish buffer
      (∀ (s : State) (r : LawRun) (fg : Bool), LaneReady s.dev n r fg → (laneWord s.dev n r).op = 0x04 →
        Yields (exec (.laneStv n) s) fun t => t.mem = s.mem ∧ t.dev.running n = some (r.after 1, fg) ∧
          t.dev.bank n fg = s.dev.bank n fg ∧ (∀ m, m ≠ n.val → t.dev.lane m = s.dev.lane m) ∧
          let k := r.slot * 256 + (laneWord s.dev n r).imm.toNat % 256
          let v := s.dev.lreg n fg (laneWord s.dev n r).a
          (fg = true → mget 0 (t.dev.lane n).var k = v ∧ (t.dev.lane n).publish = (s.dev.lane n).publish ∧
            ∀ j, j ≠ k → mget 0 (t.dev.lane n).var j = mget 0 (s.dev.lane n).var j) ∧
          (fg = false → alookup k (t.dev.lane n).publish = some v ∧ (t.dev.lane n).var = (s.dev.lane n).var ∧
            ∀ j, j ≠ k → alookup j (t.dev.lane n).publish = alookup j (s.dev.lane n).publish)) ∧
      -- a skip passes imm words where its condition holds, and never changes a register or a flag
      (∀ (s : State) (r : LawRun) (fg : Bool), LaneReady s.dev n r fg → (laneWord s.dev n r).op = 0x38 →
        Yields (exec (.laneSkip n) s) fun t => t.mem = s.mem ∧ t.dev.bank n fg = s.dev.bank n fg ∧
          let b := s.dev.bank n fg
          let q := r.after 1
          let on := { q with pc := q.pc + (laneWord s.dev n r).imm.toNat % 512 }
          ∀ p ∈ [(0x0, true), (0x1, b.z), (0x2, !b.z), (0x3, b.n), (0x4, !b.n), (0x5, !b.z && !b.n), (0x6, b.z || b.n),
            (0x7, b.s), (0x8, !b.s), (0x9, s.dev.isFirst n fg), (0xA, r.inp.regchg)], (laneWord s.dev n r).x % 16 = p.1 →
            LaneMoved n fg (if p.2 then on else q) s.dev t.dev) ∧
      -- a requested cause waits for the law's END
      (∀ (s : State) (r : LawRun) (fg : Bool), LaneReady s.dev n r fg → (laneWord s.dev n r).op = 0x39 →
        Yields (exec (.laneFault n) s) fun t => t.mem = s.mem ∧ t.dev.bank n fg = s.dev.bank n fg ∧
          LaneMoved n fg { r.after 1 with req := r.req ++ [(laneWord s.dev n r).imm.toNat % 256] } s.dev t.dev) ∧
      -- the shadow of a pair pulses nothing; any other lane pulses its law-event source
      (∀ (s : State) (r : LawRun) (fg : Bool), LaneReady s.dev n r fg → (laneWord s.dev n r).op = 0x3A →
        Yields (exec (.laneEvt n) s) fun t => t.mem = s.mem ∧ t.dev.running n = some (r.after 1, fg) ∧
          t.dev.bank n fg = s.dev.bank n fg ∧ (t.dev.lane n).stores = (s.dev.lane n).stores ∧
          (s.dev.isShadow n = true → LaneMoved n fg (r.after 1) s.dev t.dev) ∧
          (s.dev.isShadow n = false → ∀ dest ∈ s.dev.routes (n.val / 4),
            s.dev.routed (n.val / 4) dest (0xD0 + n.val % 4 * 4 + (laneWord s.dev n r).x % 4) = true → .pulse (n.val / 4) dest ∈ t.dev.due))) ∧
  (
    ∀ (n : Fin 16) (s : State) (r : LawRun),
      (LaneReady s.dev n r true → (laneWord s.dev n r).op = 0x01 →
        Yields (exec (.laneEnd n) s) fun t => t.mem = s.mem ∧ (t.dev.lane n).cur = none ∧
          (s.dev.isShadow n = false → (s.dev.lane n).paired = true ∨ r.req = [] →
            (t.dev.lane n).out = (s.dev.lane n).out ++
              [{ slot := r.slot, s := r.s, sRef := r.sRef, du := r.du, dv := r.dv, dw := r.dw, req := r.req, how := 0 }] ∧
            (t.dev.slot n r.slot).endCur = true ∧
            t.dev.fld (PLN_SLOT_RUN n r.slot) PLN_SLOT_RUN_last_len = min 255 (r.len + 1))) ∧
      (LaneReady s.dev n r false → (laneWord s.dev n r).op = 0x01 → r.req = [] →
        Yields (exec (.laneEnd n) s) fun t => t.mem = s.mem ∧ (t.dev.lane n).job = none ∧ (t.dev.lane n).publish = [] ∧
          (t.dev.lane n).var = (s.dev.lane n).publish.foldl (fun m e => mset 0 m e.1 e.2) (s.dev.lane n).var ∧
          (r.kind = .velocity → (t.dev.slot n r.slot).endVel = true) ∧
          (r.kind = .position → (t.dev.slot n r.slot).endPos = true)) ∧
      -- the emulation job takes the position of its sample
      (s.dev.clusterRuns (n.val / 4) = true → s.dev.running n = some (r, false) → r.kind = .emulation →
        (s.dev.cluster (n.val / 4)).halting = false → r.req = [] →
        Yields (exec (.laneEnd n) s) fun t => t.mem = s.mem ∧ (t.dev.lane n).job = none ∧ (t.dev.lane n).publish = [] ∧
          (t.dev.slot n r.slot).emuPos = r.inp.pos ∧ (t.dev.slot n r.slot).emuOut = none))

/-- LDM and STM of a lane that is no shadow: an aligned ingot word of its cluster that the access reaches is read
without its tag, or stored with tag RAW (R52, R55, R286). On the shadow of a lane pair LDM takes what the primary read,
and STM is discarded (R312). It rests on the model's choices in assumptions 23 and 24. -/
def Obligations.LaneBackgroundAccesses : Prop :=
  (
    ∀ (n : Fin 16) (s : State) (r : LawRun) (fg : Bool), LaneReady s.dev n r fg → s.dev.isShadow n = false →
      let w := laneWord s.dev n r
      let off := w.imm.toNat % 0x100000 / 4 * 4
      let a := bankAddr (offBank n off) (off % 0x10000)
      s.dev.bankUp (offBank n off) = true → isBank15 (offBank n off) = false → s.mem.errAt a = 0 →
      (w.op = 0x08 → s.dev.ingotOk .lane (offBank n off) false = true → Yields (exec (.laneLdm n) s) fun t => t.mem = s.mem ∧ t.dev.lreg n fg w.d = s.mem.word a ∧
        (∀ j, j ≠ w.d → t.dev.lreg n fg j = s.dev.lreg n fg j) ∧ (t.dev.bank n fg).s = false ∧
        (t.dev.bank n fg).z = decide (s.mem.word a = 0) ∧ (t.dev.bank n fg).n = decide ((s.mem.word a).toInt < 0) ∧
        ∃ k, 3 ≤ k ∧ k ≤ 6 ∧ t.dev.running n = some (r.after k, fg)) ∧
      (w.op = 0x09 → s.dev.ingotOk .lane (offBank n off) true = true →
        Yields (exec (.laneStm n) s) fun t => t.mem.word a = s.dev.lreg n fg w.a ∧ t.mem.tag a = 0 ∧
        (∀ x, x < a ∨ a + 4 ≤ x → t.mem.byte x = s.mem.byte x) ∧ t.dev.bank n fg = s.dev.bank n fg ∧
        ∃ k, 3 ≤ k ∧ k ≤ 6 ∧ t.dev.running n = some (r.after k, fg)) ∧
      -- a denied read gives 0 and sets share_denied
      (w.op = 0x08 → s.dev.ingotOk .lane (offBank n off) false = false →
        Yields (exec (.laneLdm n) s) fun t => t.mem = s.mem ∧ t.dev.lreg n fg w.d = 0 ∧
        t.dev.flag (ING_BANK_STAT (offBank n off)) ING_BANK_STAT_share_denied = true) ∧
      (w.op = 0x09 → s.dev.ingotOk .lane (offBank n off) true = false →
        Yields (exec (.laneStm n) s) fun t => t.mem = s.mem ∧
        t.dev.flag (ING_BANK_STAT (offBank n off)) ING_BANK_STAT_share_denied = true)) ∧
  (
    ∀ (n : Fin 16) (s : State) (r : LawRun) (fg : Bool), LaneReady s.dev n r fg → s.dev.isShadow n = true →
      let w := laneWord s.dev n r
      (∀ v rest, w.op = 0x08 → (s.dev.lane n).ldm = v :: rest → Yields (exec (.laneLdm n) s) fun t => t.mem = s.mem ∧
        t.dev.lreg n fg w.d = v ∧ (∀ j, j ≠ w.d → t.dev.lreg n fg j = s.dev.lreg n fg j) ∧ (t.dev.lane n).ldm = rest) ∧
      (w.op = 0x09 → Yields (exec (.laneStm n) s) fun t => t.mem = s.mem ∧ t.dev.bank n fg = s.dev.bank n fg ∧
        ∃ k, 3 ≤ k ∧ k ≤ 6 ∧ LaneMoved n fg (r.after k) s.dev t.dev))

/-- The stages of a sample: at S the window closes and DRW_TS takes the device time; at S + 4 the inputs stand; at S + 8
the current law starts with them; at the release the duties it wrote stand in the PWM shadow registers (R60, R62, R106,
R108). Background jobs start in the order of their deadlines, and one that has not executed END at its deadline is
abandoned: its publish buffer is lost and counts (R62). It rests on the model's choices in assumptions 28, 31 and 79. -/
def Obligations.SamplesAndBackgroundJobs : Prop :=
  (
    ∀ (a : Fin 64) (s : State), s.dev.clusterRuns (axCl a) = true →
      -- the delay is over: the window opens with the corrections written so far (R106, R114)
      ((s.dev.tile a).delaying = true → (s.dev.cluster (axCl a)).ref = s.dev.windowFrom a (s.dev.tile a).evt →
        Yields (exec (.windowOpen a) s) fun t => t.mem = s.mem ∧
        (t.dev.tile a).opened = true ∧ (t.dev.tile a).delaying = false ∧ (t.dev.tile a).cut = 0 ∧
        (∀ k < 3, mget 0x00008000 (t.dev.tile a).corr k = s.dev.rd (DRW_CH_CORR (3 * a.val + k))) ∧
        (∀ b, b ≠ a.val → t.dev.tile b = s.dev.tile b) ∧ ChangesOnly [] Dev.noTiles s.dev t.dev) ∧
      ((s.dev.tile a).delaying = false ∨ (s.dev.cluster (axCl a)).ref ≠ s.dev.windowFrom a (s.dev.tile a).evt →
        Yields (exec (.windowOpen a) s) fun t => t = s) ∧
      -- S
      (∀ b0 b1 b2, (s.dev.tile a).opened = true → (s.dev.cluster (axCl a)).ref = s.dev.windowTill a (s.dev.tile a).evt →
        (s.dev.cluster (axCl a)).ref ∉ (s.dev.tile a).lost → Yields (exec (.windowClose a b0 b1 b2) s) fun t => t.mem = s.mem ∧
        (t.dev.tile a).opened = false ∧ t.dev.wide64 (DRW_TS_LO a) = s.dev.copy (axCl a) ∧
        (t.dev.axis a).smp = some (s.dev.copy (axCl a), PortIn.none) ∧
        (t.dev.axis a).smpRef = (s.dev.cluster (axCl a)).ref) ∧
      -- where the window of an ignored event would have closed, an axis whose law reads the Drawplate records a miss
      (∀ b0 b1 b2, (s.dev.cluster (axCl a)).ref ∈ (s.dev.tile a).lost → s.dev.axSt a = stArmed →
        (inMask (s.dev.curWords (s.dev.axLane a) (s.dev.axSlotNo a))).drw = true → s.dev.windowDone a = false →
        s.dev.fld (AXS_MISS_CFG a) AXS_MISS_CFG_miss_limit ≤ s.dev.fld (AXS_MISS_STAT a) AXS_MISS_STAT_cons_miss →
        Yields (exec (.windowClose a b0 b1 b2) s) fun t => t.mem = s.mem ∧ t.dev.flag (AXS_MISS_STAT a) AXS_MISS_STAT_miss = true ∧
          t.dev.fld (AXS_MISS_STAT a) AXS_MISS_STAT_last_kind = 1 ∧ (s.dev.cluster (axCl a)).ref ∉ (t.dev.tile a).lost ∧
          t.dev.fld (AXS_MISS_CUR_CNT a) AXS_MISS_CUR_CNT_cur_miss = min (s.dev.fld (AXS_MISS_CUR_CNT a)
            AXS_MISS_CUR_CNT_cur_miss + 1) (2 ^ AXS_MISS_CUR_CNT_cur_miss.wid - 1)) ∧
      -- no window closes now: nothing is sampled
      (∀ b0 b1 b2, s.dev.windowDone a = false → (s.dev.tile a).lost = [] →
        Yields (exec (.windowClose a b0 b1 b2) s) fun t => t = s) ∧
      -- S + 4
      (∀ smp p0, (s.dev.axis a).smp = some (smp, p0) → (s.dev.cluster (axCl a)).ref = (s.dev.axis a).smpRef + 4 → Yields (exec (.sampleResultsValid a) s) fun t => t.mem = s.mem ∧
        ∃ p, (t.dev.axis a).smp = some (smp, p) ∧ p.pos = t.dev.rd (FBK_LAT_POS a) ∧ p.spd = t.dev.rd (FBK_SPD a) ∧
          p.setp = t.dev.rd (AXS_SEG_SETP a) ∧ p.setpf = t.dev.rd (AXS_SEG_SETPF a) ∧ p.setv = t.dev.rd (AXS_SEG_SETV a) ∧
          p.seta = t.dev.rd (AXS_SEG_SETA a) ∧ p.region = t.dev.fld (AXS_RGN_STAT a) AXS_RGN_STAT_region) ∧
      -- S + 8, on a lane of its own: the sample counts, and the status word of R73 stands in the variable file
      (∀ smp p, (s.dev.axis a).smp = some (smp, p) → (s.dev.cluster (axCl a)).ref = (s.dev.axis a).smpRef + 8 → s.dev.axSt a ≠ stRetired → (s.dev.lane (s.dev.axLane a)).paired = false →
        fget PLN_SLOT_CFG_valid (s.dev.axSlot a).cfg = 1 → (s.dev.lane (s.dev.axLane a)).cur = none →
        s.dev.lawsRun a = true → (inMask (s.dev.curWords (s.dev.axLane a) (s.dev.axSlotNo a))).met p = true →
        Yields (exec (.currentLawDispatch a) s) fun t => t.mem = s.mem ∧ (t.dev.axis a).smp = none ∧
          (∃ r, (t.dev.lane (s.dev.axLane a)).cur = some r ∧ r.slot = s.dev.axSlotNo a ∧ r.kind = .current ∧ r.inp = p ∧
            r.s = smp ∧ r.sRef = (s.dev.axis a).smpRef ∧ r.pc = fget PLN_SLOT_CFG_cur_base (s.dev.axSlot a).cfg ∧ r.req = [] ∧ r.du = none) ∧
          mget 0 (t.dev.lane (s.dev.axLane a)).var (s.dev.axSlotNo a * 256 + 0xBF) = s.dev.statusWord a ∧
          (t.dev.slot (s.dev.axLane a) (s.dev.axSlotNo a)).k = some (((s.dev.axSlot a).k.map (· + 1)).getD 0)) ∧
      -- the release of an unpaired lane, from S + 280 to S + 288, of an axis that runs its laws: the duties written stand, one
      -- the law did not write is left as it was
      (∀ o, (s.dev.lane (s.dev.axLane a)).paired = false → s.dev.releasing a (s.dev.axLane a) (s.dev.axSlotNo a) = some o →
        s.dev.lawsRun a = true →
        Yields (exec (.dutyRelease a) s) fun t => t.mem = s.mem ∧
          t.dev.rd (PWM_SHD_U a) = o.du.getD (s.dev.rd (PWM_SHD_U a)) ∧
          t.dev.rd (PWM_SHD_V a) = o.dv.getD (s.dev.rd (PWM_SHD_V a)) ∧
          t.dev.rd (PWM_SHD_W a) = o.dw.getD (s.dev.rd (PWM_SHD_W a)) ∧
          (t.dev.lane (s.dev.axLane a)).out = (s.dev.lane (s.dev.axLane a)).out.erase o ∧
          ChangesOnly [PWM_SHD_U a, PWM_SHD_V a, PWM_SHD_W a, AXS_MISS_STAT a] (fun x => x.noLanes.noAxes) s.dev t.dev) ∧
      -- an axis that runs no law keeps its duties
      (∀ o, (s.dev.lane (s.dev.axLane a)).paired = false → s.dev.releasing a (s.dev.axLane a) (s.dev.axSlotNo a) = some o →
        s.dev.lawsRun a = false →
        Yields (exec (.dutyRelease a) s) fun t => t.mem = s.mem ∧
          (t.dev.lane (s.dev.axLane a)).out = (s.dev.lane (s.dev.axLane a)).out.erase o ∧ ChangesOnly [] Dev.noLanes s.dev t.dev)) ∧
  (
    (∀ (n : Fin 16) (s : State), s.dev.clusterRuns (n.val / 4) = true → (s.dev.lane n).cur = none → (s.dev.lane n).job = none →
      (s.dev.lane n).released ≠ [] →
      Yields (exec (.backgroundJobStart n) s) fun t => t.mem = s.mem ∧ ∃ r ∈ (s.dev.lane n).released,
        (∀ x ∈ (s.dev.lane n).released, r.deadline ≤ x.deadline) ∧ (t.dev.lane n).job = some r ∧
        (t.dev.lane n).released = (s.dev.lane n).released.erase r ∧ (t.dev.lane n).publish = [] ∧
        (∀ m, m ≠ n.val → t.dev.lane m = s.dev.lane m) ∧ ChangesOnly [PLN_LANE_STAT n] Dev.noLanes s.dev t.dev) ∧
    (∀ (n : Fin 16) (s : State) (j : LawRun), s.dev.clusterRuns (n.val / 4) = true → (s.dev.lane n).job = some j →
      (∀ x ∈ (s.dev.lane n).released, j.deadline ≤ x.deadline) → j.deadline ≤ (s.dev.cluster (n.val / 4)).ref →
      Yields (exec (.backgroundDeadline n) s) fun t => t.mem = s.mem ∧ (t.dev.lane n).job = none ∧
        (t.dev.lane n).publish = [] ∧ (t.dev.lane n).var = (s.dev.lane n).var ∧
        t.dev.fld (PLN_BG_STAT n) PLN_BG_STAT_abandoned =
          min (s.dev.fld (PLN_BG_STAT n) PLN_BG_STAT_abandoned + 1) (2 ^ PLN_BG_STAT_abandoned.wid - 1)))

/-- Slots are marked with PLN_COMMIT and commit at the first clear ccyc of their lane: no current law stands between
dispatch and release, and no sample instant falls in this ccyc or in the 288 after it (R67, R70). It rests on the
model's choices in assumptions 27, 78 and 80. -/
def Obligations.AdmissionCommits : Prop :=
  -- bits written 1 mark slots, bits written 0 do nothing
  (∀ (w : Writer) (c : Fin 4) (v : Word) (s : State), s.dev.clusterRuns c = true → s.dev.accepts w (PLN_COMMIT c) = true →
    Yields (exec (.plnCommitWrite w c v) s) fun t => t.mem = s.mem ∧
      (∀ i < 16, (t.dev.fld (PLN_COMMIT c) PLN_COMMIT_slots).testBit i =
        ((s.dev.fld (PLN_COMMIT c) PLN_COMMIT_slots).testBit i || v.toNat.testBit i)) ∧
      ChangesOnly [PLN_COMMIT c] Dev.noWindows s.dev t.dev) ∧
  (∀ (n : Fin 16) (s : State), s.dev.clusterRuns (n.val / 4) = true → (s.dev.lane n).paired = false →
    (s.dev.lane (n.val / 2 * 2)).pairReq = 0 →
    let mark := fun (d : Dev) (i : Nat) => (d.fld (PLN_COMMIT (n.val / 4)) PLN_COMMIT_slots).testBit i
    let own := fun (k : Nat) => n.val % 4 * 4 + k
    -- no clear ccyc, or nothing marked: nothing happens
    (s.dev.laneClear n = false ∨ (∀ k < 4, mark s.dev (own k) = false) → Yields (exec (.admissionCommit n) s) fun t => t = s) ∧
    -- a clear ccyc: what is staged for the marked slots stands, a RETIRED axis that one serves is ADMITTED, an axis that none
    -- serves any more is RETIRED, and the marks of the lane are gone
    (∀ k < 4, s.dev.laneClear n = true → mark s.dev (own k) = true →
      Yields (exec (.admissionCommit n) s) fun t => t.mem = s.mem ∧ (∀ j < 4, mark t.dev (own j) = false) ∧
        (∀ i < 16, i / 4 ≠ n.val % 4 → mark t.dev i = mark s.dev i) ∧
        (s.dev.flag (PLN_SLOT_CFG n k) PLN_SLOT_CFG_valid = false → t.dev.slot n k = Slot.reset) ∧
        (s.dev.flag (PLN_SLOT_CFG n k) PLN_SLOT_CFG_valid = true →
          let a := n.val / 4 * 16 + s.dev.fld (PLN_SLOT_CFG n k) PLN_SLOT_CFG_laxis
          t.dev.slotOwner n k = some a ∧
          fget PLN_SLOT_CFG_cur_base (t.dev.slot n k).cfg = s.dev.fld (PLN_SLOT_CFG n k) PLN_SLOT_CFG_cur_base ∧
          (t.dev.slot n k).vel = s.dev.rd (PLN_SLOT_VEL n k) ∧ (t.dev.slot n k).pos = s.dev.rd (PLN_SLOT_POS n k) ∧
          (s.dev.axSt a = stRetired → t.dev.axSt a = stAdmitted)) ∧
        (∀ a, s.dev.slotOwner n k = some a → t.dev.served a = false → t.dev.moving a = false → t.dev.axSt a = stRetired)))

/-- The stores of a lane: law words through the window of PLN_LS registers, gain words staged while the laws of the axis
run, variable words below 0xC0 only while the axis is ADMITTED (R47, R49, R50, R70, R71). It rests on the model's
choices in assumptions 25 and 27. -/
def Obligations.LaneStoresFollowTheirGuards : Prop :=
  -- a law word is stored and the word number advances; one that a running law is bound to is refused
  (∀ (w : Writer) (c : Fin 4) (v : Word) (s : State), s.dev.clusterRuns c = true →
    s.dev.accepts w (PLN_LS_DATA_HI c) = true →
    let n := c.val * 4 + s.dev.fld (PLN_LS_ADDR c) PLN_LS_ADDR_lane
    let i := s.dev.fld (PLN_LS_ADDR c) PLN_LS_ADDR_word
    Yields (exec (.lawStoreWrite w c v) s) fun t => t.mem = s.mem ∧
      t.dev.fld (PLN_LS_ADDR c) PLN_LS_ADDR_word = (i + 1) % 2048 ∧
      (s.dev.lawBound n i = false → (mget 0 (t.dev.lane n).law i).toNat = v.toNat * 2 ^ 32 + (s.dev.rd (PLN_LS_DATA_LO c)).toNat ∧
        mget 0 (t.dev.lane n).lawErr i = 0 ∧ ∀ j, j ≠ i → mget 0 (t.dev.lane n).law j = mget 0 (s.dev.lane n).law j) ∧
      (s.dev.lawBound n i = true → t.dev.lanes = s.dev.lanes ∧
        t.dev.flag (PLN_LS_STAT c) PLN_LS_STAT_ls_protect = true)) ∧
  -- a read gives the low half, captures the high half, and the word number advances
  (∀ (c : Fin 4) (s : State), s.dev.clusterRuns c = true →
    let n := c.val * 4 + s.dev.fld (PLN_LS_ADDR c) PLN_LS_ADDR_lane
    let i := s.dev.fld (PLN_LS_ADDR c) PLN_LS_ADDR_word
    Yields (exec (.lawStoreRead c) s) fun t => t.mem = s.mem ∧
      t.dev.rdata.toNat + (t.dev.rd (PLN_LS_DATA_HI c)).toNat * 2 ^ 32 = (s.dev.lawWord n i).toNat ∧
      t.dev.fld (PLN_LS_ADDR c) PLN_LS_ADDR_word = (i + 1) % 2048 ∧
      t.dev.fld (PLN_LS_STAT c) PLN_LS_STAT_ecc_corr = min (s.dev.fld (PLN_LS_STAT c) PLN_LS_STAT_ecc_corr +
        (if mget 0 (s.dev.lane n).lawErr i = 1 then 1 else 0)) (2 ^ PLN_LS_STAT_ecc_corr.wid - 1) ∧
      ChangesOnly [PLN_LS_DATA_HI c, PLN_LS_ADDR c, PLN_LS_STAT c] Dev.noRdata s.dev t.dev) ∧
  -- gains: at once for a slot whose axis runs no law, staged otherwise; only from a bench core
  (∀ (w : Writer) (n : Fin 16) (k : Fin 4) (i : Fin 256) (v : Word) (s : State), s.dev.clusterRuns (n.val / 4) = true →
    (benchLike w = true → (∀ a, s.dev.slotOwner n k = some a → s.dev.lawsRun a = false) →
      Yields (exec (.gainStoreWrite w n k i v) s) fun t => t.mem = s.mem ∧
        mget 0 (t.dev.lane n).gain (k.val * 256 + i.val) = v ∧ ChangesOnly [] (fun x => x.noLanes.noWindows) s.dev t.dev ∧
        ∀ j, j ≠ k.val * 256 + i.val → mget 0 (t.dev.lane n).gain j = mget 0 (s.dev.lane n).gain j) ∧
    (benchLike w = true → (∃ a, s.dev.slotOwner n k = some a ∧ s.dev.lawsRun a = true) →
      Yields (exec (.gainStoreWrite w n k i v) s) fun t => t.mem = s.mem ∧
        (t.dev.lane n).gain = (s.dev.lane n).gain ∧ (t.dev.lane n).staged = (s.dev.lane n).staged ++ [(k.val * 256 + i.val, v)] ∧
        ChangesOnly [] (fun x => x.noLanes.noWindows) s.dev t.dev) ∧
    (benchLike w = false → Yields (exec (.gainStoreWrite w n k i v) s) fun t => t.mem = s.mem ∧
        t.dev.lanes = s.dev.lanes ∧ t.dev.flag (PLN_UNLOCK (n.val / 4)) PLN_UNLOCK_lock_violation = true)) ∧
  -- variables
  (∀ (w : Writer) (n : Fin 16) (k : Fin 4) (i : Fin 256) (v : Word) (s : State), s.dev.clusterRuns (n.val / 4) = true →
    (0xC0 ≤ i.val ∨ (∃ a, s.dev.slotOwner n k = some a ∧ s.dev.axSt a = stAdmitted) →
      Yields (exec (.variableFileWrite w n k i v) s) fun t => t.mem = s.mem ∧
        mget 0 (t.dev.lane n).var (k.val * 256 + i.val) = v ∧ ChangesOnly [] (fun x => x.noLanes.noWindows) s.dev t.dev ∧
        ∀ j, j ≠ k.val * 256 + i.val → mget 0 (t.dev.lane n).var j = mget 0 (s.dev.lane n).var j) ∧
    (i.val < 0xC0 → (∀ a, s.dev.slotOwner n k = some a → s.dev.axSt a ≠ stAdmitted) →
      Yields (exec (.variableFileWrite w n k i v) s) fun t => t.mem = s.mem ∧ t.dev.lanes = s.dev.lanes ∧
        t.dev.flag (PLN_LANE_STAT n) PLN_LANE_STAT_var_protect = true))

/-- The requests of AXS_CTL act where R93 lets them, and change nothing outside their axis. An AXS_CTL request that R93
does not allow sets refused and leaves the axis as it was; without the writer's window nothing of the axis changes. It
rests on the model's choices in assumptions 20, 67 and 80. -/
def Obligations.AxisRequests : Prop :=
  (
    ∀ (w : Writer) (a : Fin 64) (s : State), s.dev.clusterRuns (axCl a) = true → s.dev.accepts w (AXS_CTL a) = true →
      -- ARM and ENABLE leave a request that the next sample acts on
      (s.dev.axSt a = stAdmitted → s.dev.axBusy a = false → s.dev.rd (AXS_CAUSE_ACT a) = 0 →
        Yields (exec (.axsCtlArm w a) s) fun t => t.mem = s.mem ∧ (t.dev.axis a).enReq = 1 ∧ t.dev.axSt a = stAdmitted ∧
          AxisOnly a s.dev t.dev) ∧
      (s.dev.axSt a = stAdmitted ∨ s.dev.axSt a = stArmed → s.dev.axBusy a = false → s.dev.rd (AXS_CAUSE_ACT a) = 0 →
        Yields (exec (.axsCtlEnable w a) s) fun t => t.mem = s.mem ∧ (t.dev.axis a).enReq = 2 ∧ t.dev.axSt a = s.dev.axSt a ∧
          AxisOnly a s.dev t.dev) ∧
      -- a stop without ramp: ARMED at once, outputs SAFE, queue discarded
      (s.dev.axSt a = stEnabled → s.dev.axBusy a = false →
        Yields (exec (.axsCtlStopSto w a) s) fun t => t.mem = s.mem ∧ t.dev.axSt a = stArmed ∧ t.dev.outMode a = 0 ∧
          (t.dev.pwm a).on = 0 ∧ t.dev.queueEmpty a ∧ AxisOnly a s.dev t.dev) ∧
      -- a stop along a ramp stays ENABLED while the ramp runs, and without position law or deceleration it is a STO
      (s.dev.axSt a = stEnabled → s.dev.axBusy a = false → s.dev.posEnabled a = true → s.dev.rd (AXS_RAMP_DECEL a) ≠ 0 →
        Yields (exec (.axsCtlStopRamp w a) s) fun t => t.mem = s.mem ∧ t.dev.axSt a = stEnabled ∧ t.dev.ramping a = true ∧
          t.dev.flag (AXS_STATE a) AXS_STATE_stopping = true ∧ (t.dev.axis a).target = stArmed ∧
          (t.dev.axis a).rampV = (s.dev.rd (AXS_SEG_SETV a)).toInt.natAbs ∧ t.dev.queueEmpty a ∧ AxisOnly a s.dev t.dev) ∧
      (s.dev.axSt a = stEnabled → s.dev.axBusy a = false → (s.dev.posEnabled a = false ∨ s.dev.rd (AXS_RAMP_DECEL a) = 0) →
        Yields (exec (.axsCtlStopRamp w a) s) fun t => t.mem = s.mem ∧ t.dev.axSt a = stArmed ∧ t.dev.outMode a = 0 ∧
          AxisOnly a s.dev t.dev) ∧
      (s.dev.axSt a = stArmed → s.dev.axBusy a = false →
        Yields (exec (.axsCtlDisarm w a) s) fun t => t.mem = s.mem ∧ t.dev.axSt a = stAdmitted ∧ (t.dev.axis a).enReq = 0 ∧
          AxisOnly a s.dev t.dev) ∧
      -- an acknowledgement of a complete response without active causes
      (s.dev.axSt a = stFaulted → (s.dev.axis a).retiring = false → s.dev.flag (AXS_STATE a) AXS_STATE_resp_done = true →
        s.dev.rd (AXS_CAUSE_ACT a) = 0 → (s.dev.axis a).actEnd ≠ some s.dev.now →
        Yields (exec (.axsCtlAck w a) s) fun t => t.mem = s.mem ∧ t.dev.axSt a = stAdmitted ∧ t.dev.rd (AXS_CAUSE_SEEN a) = 0 ∧
          t.dev.fld (AXS_FAULT a) AXS_FAULT_cause = 0 ∧ t.dev.fld (AXS_FAULT a) AXS_FAULT_response = 0 ∧
          t.dev.flag (PWM_STAT a) PWM_STAT_forced = false ∧ t.dev.outMode a = 0 ∧ AxisOnly a s.dev t.dev)) ∧
  (
    ∀ (w : Writer) (a : Fin 64) (s : State), s.dev.clusterRuns (axCl a) = true →
      (s.dev.accepts w (AXS_CTL a) = true → ∀ c ∈ [(Instr.axsCtlArm w a, s.dev.axSt a ≠ stAdmitted),
          (.axsCtlEnable w a, s.dev.axSt a ≠ stAdmitted ∧ s.dev.axSt a ≠ stArmed), (.axsCtlStopRamp w a, s.dev.axSt a ≠ stEnabled),
          (.axsCtlStopSto w a, s.dev.axSt a ≠ stEnabled), (.axsCtlDisarm w a, s.dev.axSt a ≠ stArmed),
          (.axsCtlAck w a, s.dev.axSt a ≠ stFaulted)], c.2 →
        Yields (exec c.1 s) fun t => t.mem = s.mem ∧ t.dev.flag (AXS_CTL a) AXS_CTL_refused = true ∧
          t.dev.axes = s.dev.axes ∧ ChangesOnly [AXS_CTL a] Dev.noWindows s.dev t.dev) ∧
      (s.dev.accepts w (AXS_CTL a) = false → ∀ c ∈ [Instr.axsCtlArm w a, .axsCtlEnable w a, .axsCtlStopRamp w a,
          .axsCtlStopSto w a, .axsCtlDisarm w a, .axsCtlAck w a],
        Yields (exec c s) fun t => t.mem = s.mem ∧ t.dev.axes = s.dev.axes ∧ t.dev.rd (AXS_STATE a) = s.dev.rd (AXS_STATE a) ∧
          t.dev.rd (AXS_CTL a) = s.dev.rd (AXS_CTL a)))

/-- A SOFTWARE cause is recorded on every axis that is not RETIRED, and takes an axis that runs its laws to FAULTED
where its response is of rank 2 or more (R86 to R90, R93, R98). A ramp ends, after its hold or at its limit: a fault
response is complete with FR_STO, a disable reaches its target and its command completes (R92, R93, R96). It rests on
the model's choices in assumptions 4, 20, 30, 67, 68 and 81. -/
def Obligations.AxisFaultsAndRamps : Prop :=
  (
    ∀ (w : Writer) (a : Fin 64) (v : Word) (s : State), s.dev.clusterRuns (axCl a) = true →
      (fget AXS_FAULT_REQ_cause v ≠ 0x0E → Yields (exec (.axsFaultReq w a v) s) fun t =>
        t.mem = s.mem ∧ ChangesOnly [] Dev.noWindows s.dev t.dev) ∧
      (fget AXS_FAULT_REQ_cause v = 0x0E → s.dev.axSt a = stRetired → Yields (exec (.axsFaultReq w a v) s) fun t =>
        t.mem = s.mem ∧ ChangesOnly [] Dev.noWindows s.dev t.dev) ∧
      (fget AXS_FAULT_REQ_cause v = 0x0E → s.dev.axSt a ≠ stRetired → Yields (exec (.axsFaultReq w a v) s) fun t =>
        t.mem = s.mem ∧ (t.dev.rd (AXS_CAUSE_SEEN a)).toNat.testBit 0x0E = true ∧
        ((s.dev.axSt a = stArmed ∨ s.dev.axSt a = stEnabled) →
          2 ≤ s.dev.effective a 0x0E (s.dev.mapped a 0x0E) → t.dev.axSt a = stFaulted) ∧
        (s.dev.axSt a = stAdmitted → t.dev.axSt a = stAdmitted))) ∧
  (
    ∀ (a : Fin 64) (s : State), s.dev.clusterRuns (axCl a) = true → s.dev.ramping a = true →
      ∀ c ∈ [(Instr.rampHoldEnd a, 1, (s.dev.axis a).rampHold = true ∧
          s.dev.fld (AXS_RAMP_HOLD a) AXS_RAMP_HOLD_ramp_hold * 800 ≤ (s.dev.cluster (axCl a)).ref - (s.dev.axis a).rampHoldT),
        (.rampTimeout a, 2, s.dev.fld (AXS_RAMP_TMAX a) AXS_RAMP_TMAX_ramp_tmax * 800 ≤
          (s.dev.cluster (axCl a)).ref - (s.dev.axis a).rampT)], c.2.2 →
        Yields (exec c.1 s) fun t => t.mem = s.mem ∧ t.dev.ramping a = false ∧ t.dev.outMode a = 0 ∧
          t.dev.fld (AXS_RAMP_STAT a) AXS_RAMP_STAT_outcome = c.2.1 ∧
          (s.dev.axSt a = stFaulted → t.dev.axSt a = stFaulted ∧ t.dev.flag (AXS_STATE a) AXS_STATE_resp_done = true ∧
            t.dev.fld (AXS_FAULT a) AXS_FAULT_response = 4) ∧
          (s.dev.axSt a ≠ stFaulted → (s.dev.axis a).target < 8 → t.dev.axSt a = (s.dev.axis a).target ∧
            t.dev.flag (AXS_STATE a) AXS_STATE_stopping = false ∧ AxisOnly a s.dev t.dev ∧
            ∀ w ∈ s.dev.waits, w.op = 0x0204 → w.target = a.val →
              ⟨w.sq, w.cid, stOk, (s.dev.axis a).target * 256⟩ ∈ t.dev.cpls ∧ w ∉ t.dev.waits))

/-- The modulator clocks of the Drawplate: an enable starts the clock and unsettles its channels, a clear lets the
period drain, clk_div stands while the clock runs, and a failed read-back reaches every channel of the clock (R99, R101,
R109, R113, R115). The settings of a Drawplate channel: what the admission lock protects is discarded as a whole with
adm_lock, thresholds out of order with th_err; clearing ch_en interrupts the window and releases an overcurrent (R113 to
R115). It rests on the model's choices in assumption 31. -/
def Obligations.DrawplateClocksAndSettings : Prop :=
  (
    ∀ (w : Writer) (n : Fin 16) (v : Word) (s : State), s.dev.clusterRuns (n.val / 4) = true →
      -- clk_div does not change while running is 1
      (s.dev.flag (DRW_CLK n) DRW_CLK_running = true → fget DRW_CLK_clk_div v ≠ s.dev.fld (DRW_CLK n) DRW_CLK_clk_div →
        Yields (exec (.drwClkWrite w n v) s) fun t => t.mem = s.mem ∧
          t.dev.flag (DRW_STAT (n.val / 4)) DRW_STAT_cfg_refused = true ∧
          ChangesOnly [DRW_STAT (n.val / 4)] Dev.noWindows s.dev t.dev) ∧
      -- en set
      (s.dev.flag (DRW_CLK n) DRW_CLK_running = false → s.dev.flag (DRW_CLK n) DRW_CLK_en = false → n.val ∉ s.dev.draining →
        fget DRW_CLK_en v = 1 → s.dev.sound (DRW_CLK n) v →
        Yields (exec (.drwClkWrite w n v) s) fun t => t.mem = s.mem ∧ t.dev.flag (DRW_CLK n) DRW_CLK_running = true ∧
          t.dev.flag (DRW_CLK n) DRW_CLK_en = true ∧ t.dev.fld (DRW_CLK n) DRW_CLK_clk_div = fget DRW_CLK_clk_div v ∧
          mget 0 t.dev.sdcAt n = (s.dev.cluster (n.val / 4)).ref + 1 ∧
          (∀ h ∈ s.dev.clockUsers n, t.dev.flag (DRW_CH_STAT h) DRW_CH_STAT_unsettled = true ∧
            (t.dev.chan h).since = s.dev.chanRef h) ∧
          ChangesOnly (DRW_CLK n :: (s.dev.clockUsers n).map DRW_CH_STAT) (fun x => x.noWindows.noDraining.noChans) s.dev t.dev) ∧
      -- en cleared: the period under way ends with CLOCK_DRAIN_END
      (s.dev.flag (DRW_CLK n) DRW_CLK_running = true → s.dev.flag (DRW_CLK n) DRW_CLK_en = true → fget DRW_CLK_en v = 0 →
        fget DRW_CLK_clk_div v = s.dev.fld (DRW_CLK n) DRW_CLK_clk_div → s.dev.sound (DRW_CLK n) v →
        Yields (exec (.drwClkWrite w n v) s) fun t => t.mem = s.mem ∧ t.dev.flag (DRW_CLK n) DRW_CLK_running = true ∧
          t.dev.flag (DRW_CLK n) DRW_CLK_en = false ∧ n.val ∈ t.dev.draining ∧
          ChangesOnly [DRW_CLK n] (fun x => x.noWindows.noDraining) s.dev t.dev) ∧
      (n.val ∈ s.dev.draining → s.dev.sdcWrap n = true →
        Yields (exec (.clockDrainEnd n) s) fun t => t.mem = s.mem ∧ n.val ∉ t.dev.draining ∧
          t.dev.flag (DRW_CLK n) DRW_CLK_running = false ∧
          (∀ h ∈ s.dev.clockUsers n, (t.dev.tile (h / 3)).cut.testBit (h % 3) = true ∧
            t.dev.flag (DRW_CH_STAT h) DRW_CH_STAT_unsettled = true) ∧
          ChangesOnly (DRW_CLK n :: (s.dev.clockUsers n).map DRW_CH_STAT) (fun x => x.noTiles.noDraining.noChans) s.dev t.dev) ∧
      (n.val ∉ s.dev.draining ∨ s.dev.sdcWrap n = false → Yields (exec (.clockDrainEnd n) s) fun t => t = s) ∧
      -- the read-back
      (s.dev.flag (DRW_CLK n) DRW_CLK_running = true → Yields (exec (.sdcReadbackFail n) s) fun t => t.mem = s.mem ∧
          t.dev.flag (DRW_CLK n) DRW_CLK_clk_fault = true ∧ t.dev.flag (DRW_CLK n) DRW_CLK_clk_lost = true ∧
          (∀ h ∈ s.dev.clockUsers n, t.dev.flag (DRW_CH_STAT h) DRW_CH_STAT_clk_lost = true ∧
            (t.dev.tile (h / 3)).cut.testBit (h % 3) = true) ∧
          (s.dev.takesEvent (evOpen 5 0) [] = true → t.dev.hasEvent (evOpen 5 0) (0x10 + n.val / 4) n []) ∧
          ChangesOnly (DRW_CLK n :: (s.dev.clockUsers n).map DRW_CH_STAT) Dev.noTiles s.dev t.dev) ∧
      (s.dev.flag (DRW_CLK n) DRW_CLK_clk_lost = true → Yields (exec (.sdcReadbackRecover n) s) fun t => t.mem = s.mem ∧
          t.dev.flag (DRW_CLK n) DRW_CLK_clk_lost = false ∧
          t.dev.flag (DRW_CLK n) DRW_CLK_clk_fault = s.dev.flag (DRW_CLK n) DRW_CLK_clk_fault ∧
          (∀ h ∈ s.dev.clockUsers n, t.dev.flag (DRW_CH_STAT h) DRW_CH_STAT_clk_lost = false ∧
            t.dev.flag (DRW_CH_STAT h) DRW_CH_STAT_unsettled = true ∧ (t.dev.chan h).since = s.dev.chanRef h) ∧
          ChangesOnly (DRW_CLK n :: (s.dev.clockUsers n).map DRW_CH_STAT) Dev.noChans s.dev t.dev)) ∧
  (
    ∀ (w : Writer) (h : Fin 192) (v : Word) (s : State), s.dev.clusterRuns (h.val / 48) = true →
      let a := h.val / 3
      let c := h.val / 48
      let locked := fun (t : State) => t.mem = s.mem ∧ t.dev.flag (DRW_STAT c) DRW_STAT_adm_lock = true ∧
        ChangesOnly [DRW_STAT c] Dev.noWindows s.dev t.dev
      -- R101: clk_lost follows the clock that the channel selects now
      let lost := fun (t : State) =>
        t.dev.flag (DRW_CH_STAT h) DRW_CH_STAT_clk_lost = s.dev.flag (DRW_CLK (c * 4 + fget DRW_CH_CFG_sdc_sel v)) DRW_CLK_clk_lost
      -- DRW_OC_CFG
      (s.dev.accepts w (DRW_OC_CFG h) = true → s.dev.axSt a ≠ stRetired →
        fget DRW_OC_CFG_oc_osr v ≠ s.dev.fld (DRW_OC_CFG h) DRW_OC_CFG_oc_osr →
        Yields (exec (.drwOcCfgWrite w h v) s) locked) ∧
      ((s.dev.accepts w (DRW_OC_CFG h) = false ∨ s.dev.axSt a = stRetired ∨
          fget DRW_OC_CFG_oc_osr v = s.dev.fld (DRW_OC_CFG h) DRW_OC_CFG_oc_osr) →
        Yields (exec (.drwOcCfgWrite w h v) s) fun t => t.mem = s.mem ∧ Wrote w (DRW_OC_CFG h) v s.dev t.dev ∧
          (s.dev.accepts w (DRW_OC_CFG h) = true → (t.dev.chan h).ocSince = s.dev.chanRef h) ∧
          (t.dev.chan h).oc = (s.dev.chan h).oc ∧ (∀ k, k ≠ h.val → t.dev.chan k = s.dev.chan k) ∧
          ChangesOnly [DRW_OC_CFG h, DRW_UNLOCK c] (fun x => x.noWindows.noChans) s.dev t.dev) ∧
      -- DRW_OC_TH
      (s.dev.accepts w (DRW_OC_TH h) = true → sx 16 (fget DRW_OC_TH_hi_th v) ≤ sx 16 (fget DRW_OC_TH_lo_th v) →
        Yields (exec (.drwOcThWrite w h v) s) fun t => t.mem = s.mem ∧
          t.dev.flag (DRW_CH_STAT h) DRW_CH_STAT_th_err = true ∧ ChangesOnly [DRW_CH_STAT h] Dev.noWindows s.dev t.dev) ∧
      (s.dev.accepts w (DRW_OC_TH h) = false ∨ sx 16 (fget DRW_OC_TH_lo_th v) < sx 16 (fget DRW_OC_TH_hi_th v) →
        Yields (exec (.drwOcThWrite w h v) s) fun t => t.mem = s.mem ∧ Wrote w (DRW_OC_TH h) v s.dev t.dev ∧
          (s.dev.accepts w (DRW_OC_TH h) = true → (t.dev.chan h).ocSince = s.dev.chanRef h) ∧
          (t.dev.chan h).oc = (s.dev.chan h).oc ∧ (∀ k, k ≠ h.val → t.dev.chan k = s.dev.chan k) ∧
          ChangesOnly [DRW_OC_TH h, DRW_UNLOCK c] (fun x => x.noWindows.noChans) s.dev t.dev) ∧
      -- DRW_CH_CFG
      (s.dev.axSt a ≠ stRetired → v ≠ s.dev.rd (DRW_CH_CFG h) → Yields (exec (.drwChCfgWrite w h v) s) locked) ∧
      (s.dev.axSt a = stRetired → s.dev.sound (DRW_CH_CFG h) v → s.dev.flag (DRW_CH_CFG h) DRW_CH_CFG_ch_en = false →
        fget DRW_CH_CFG_ch_en v = 1 →
        Yields (exec (.drwChCfgWrite w h v) s) fun t => t.mem = s.mem ∧ Wrote w (DRW_CH_CFG h) v s.dev t.dev ∧
          t.dev.flag (DRW_CH_STAT h) DRW_CH_STAT_unsettled = true ∧ (t.dev.chan h).since = s.dev.chanRef h ∧
          (t.dev.chan h).prior = 0 ∧ lost t ∧
          ChangesOnly [DRW_CH_CFG h, DRW_CH_STAT h] (fun x => x.noWindows.noChans) s.dev t.dev) ∧
      (s.dev.axSt a = stRetired → s.dev.sound (DRW_CH_CFG h) v →
        fget DRW_CH_CFG_ch_en v = s.dev.fld (DRW_CH_CFG h) DRW_CH_CFG_ch_en →
        Yields (exec (.drwChCfgWrite w h v) s) fun t => t.mem = s.mem ∧ Wrote w (DRW_CH_CFG h) v s.dev t.dev ∧ lost t ∧
          ChangesOnly [DRW_CH_CFG h, DRW_CH_STAT h] Dev.noWindows s.dev t.dev) ∧
      (s.dev.axSt a = stRetired → s.dev.sound (DRW_CH_CFG h) v → s.dev.flag (DRW_CH_CFG h) DRW_CH_CFG_ch_en = true →
        fget DRW_CH_CFG_ch_en v = 0 →
        Yields (exec (.drwChCfgWrite w h v) s) fun t => t.mem = s.mem ∧ Wrote w (DRW_CH_CFG h) v s.dev t.dev ∧
          (t.dev.tile a).cut.testBit (h.val % 3) = true ∧ (t.dev.chan h).oc = 0 ∧ lost t ∧
          t.dev.flag (DRW_CH_STAT h) DRW_CH_STAT_oc_now = false ∧
          (t.dev.rd (AXS_CAUSE_ACT a)).toNat.testBit 3 = t.dev.ocPresent a ∧
          ChangesOnly [DRW_CH_CFG h, DRW_CH_STAT h, DRW_STAT c, AXS_CAUSE_ACT a, AXS_STATE a]
            (fun x => x.noWindows.noTiles.noChans) s.dev t.dev))

/-- The results and the overcurrent path of a Drawplate channel: a result counts in seq whether valid or not, an invalid
one leaves res and counts in inval_cnt; a qualified overcurrent acts by oc_act and ends with the first output within
both thresholds, and nothing compares while the channel is off or its clock is lost (R105, R107, R109 to R112). How many
bits a stretch holds is the clock's; a level that the row does not bring is open (assumption 31, DEDUCED). It rests on
the model's choices in assumptions 31 and 70. -/
def Obligations.DrawplateChannels : Prop :=
  ∀ (h : Fin 192) (b : ChanBits) (s : State), s.dev.clusterRuns (h.val / 48) = true →
    let a := h.val / 3
    let st := DRW_CH_STAT h
    let osr := s.dev.chanOsr h
    let total := s.dev.captures h ((s.dev.chan h).since + 1) (s.dev.chanRef h + 1)
    let nth := s.dev.captureNow h = true ∧ ((s.dev.chan h).prior + total) % osr = 0
    -- the OSR-th bit of a continuous result
    (s.dev.fld (DRW_CH_CFG h) DRW_CH_CFG_win_mode ≠ 1 → s.dev.flag (DRW_CH_CFG h) DRW_CH_CFG_ch_en = true → nth →
      let x := s.dev.bitsFor h (s.dev.captureBack h osr) (s.dev.chanRef h + 1) b
      let good := s.dev.clockGood h && decide (s.dev.chanOrder h * osr ≤ total) &&
        !stuckTouches (s.dev.fld (DRW_CFG (h.val / 48)) DRW_CFG_stuck_len) (x.before.length + osr - s.dev.chanOrder h * osr) (bitsAll x)
      Yields (exec (.continuousResult h b) s) fun t => t.mem = s.mem ∧
        t.dev.fld (DRW_RES h) DRW_RES_seq = (s.dev.fld (DRW_RES h) DRW_RES_seq + 1) % 2 ^ DRW_RES_seq.wid ∧
        t.dev.flag (DRW_RES h) DRW_RES_valid = good ∧
        t.dev.flag st DRW_CH_STAT_unsettled = decide (total < s.dev.chanOrder h * osr) ∧
        (good = true → (∃ free, t.dev.fld (DRW_RES h) DRW_RES_res = (drwConvert ((bitOutputs x (s.dev.chanOrder h) osr).getLastD 0)
            1 (osr ^ s.dev.chanOrder h) (s.dev.rd (DRW_CH_CORR h)) (s.dev.fld (DRW_CH_CFG h) DRW_CH_CFG_width) free).1) ∧
          t.dev.fld st DRW_CH_STAT_inval_cnt = s.dev.fld st DRW_CH_STAT_inval_cnt) ∧
        (good = false → t.dev.fld (DRW_RES h) DRW_RES_res = s.dev.fld (DRW_RES h) DRW_RES_res ∧
          t.dev.fld st DRW_CH_STAT_inval_cnt = min (s.dev.fld st DRW_CH_STAT_inval_cnt + 1) (2 ^ DRW_CH_STAT_inval_cnt.wid - 1)) ∧
        (∀ y, (s.dev.ocOutputs h x).getLast? = some y → t.dev.fld (DRW_OC_VAL h) DRW_OC_VAL_oc_val = wrapN 16 y.2) ∧
        ChangesOnly [DRW_RES h, st, DRW_OC_VAL h] id s.dev t.dev) ∧
    (s.dev.fld (DRW_CH_CFG h) DRW_CH_CFG_win_mode = 1 ∨ s.dev.flag (DRW_CH_CFG h) DRW_CH_CFG_ch_en = false ∨ ¬ nth →
      Yields (exec (.continuousResult h b) s) fun t => t = s) ∧
    (s.dev.flag (DRW_CH_CFG h) DRW_CH_CFG_ch_en = true → Yields (exec (.stuckRun h) s) fun t => t.mem = s.mem ∧
      t.dev.flag st DRW_CH_STAT_stuck = true ∧
      (s.dev.takesEvent (evOpen 5 1) [] = true → t.dev.hasEvent (evOpen 5 1) (0x10 + h.val / 48) h []) ∧
      ChangesOnly [st] id s.dev t.dev) ∧
    -- R110: nothing compares while the channel is off, its clock is lost, or no bit is captured
    (s.dev.ocTakes h = false → Yields (exec (.overcurrentQualify h b) s) (fun t => t = s) ∧
      Yields (exec (.overcurrentRelease h b) s) fun t => t = s) ∧
    -- oc_qual consecutive settled outputs beyond a threshold, all captured since the thresholds were written
    (s.dev.ocTakes h = true →
      let q := s.dev.fld (DRW_OC_CFG h) DRW_OC_CFG_oc_qual_m1 + 1
      let x := s.dev.bitsFor h (s.dev.captureBack h q) (s.dev.chanRef h + 1) b
      ∀ y, (s.dev.ocOutputs h x).getLast? = some y →
      ((s.dev.chan h).oc ≠ 0 ∨ x.inside.length ≠ q ∨ s.dev.captures h ((s.dev.chan h).ocSince + 1) (s.dev.chanRef h + 1) < q ∨
          (∃ z ∈ s.dev.ocOutputs h x, z.1 < 2 * s.dev.fld (DRW_OC_CFG h) DRW_OC_CFG_oc_osr ∨ s.dev.ocBeyond h z.2 = 0) →
        Yields (exec (.overcurrentQualify h b) s) fun t => t.mem = s.mem ∧
          t.dev.fld (DRW_OC_VAL h) DRW_OC_VAL_oc_val = wrapN 16 y.2 ∧ ChangesOnly [DRW_OC_VAL h] id s.dev t.dev) ∧
      ((s.dev.chan h).oc = 0 → x.inside.length = q → q ≤ s.dev.captures h ((s.dev.chan h).ocSince + 1) (s.dev.chanRef h + 1) →
      (∀ z ∈ s.dev.ocOutputs h x, 2 * s.dev.fld (DRW_OC_CFG h) DRW_OC_CFG_oc_osr ≤ z.1 ∧ s.dev.ocBeyond h z.2 ≠ 0) →
      let act := s.dev.fld (DRW_OC_CFG h) DRW_OC_CFG_oc_act
      Yields (exec (.overcurrentQualify h b) s) fun t => t.mem = s.mem ∧ (t.dev.chan h).oc = s.dev.ocBeyond h y.2 ∧
        t.dev.flag st DRW_CH_STAT_oc_now = true ∧
        t.dev.flag st (if s.dev.ocBeyond h y.2 = 1 then DRW_CH_STAT_oc_hi else DRW_CH_STAT_oc_lo) = true ∧
        t.dev.fld (DRW_OC_VAL h) DRW_OC_VAL_oc_val = wrapN 16 y.2 ∧
        (s.dev.takesEvent (evOpen 5 2) [] = true → act = 1 → t.dev.hasEvent (evOpen 5 2) (0x10 + h.val / 48) h []) ∧
        (act ≤ 1 → ChangesOnly [st, DRW_OC_VAL h, DRW_STAT (h.val / 48), AXS_CAUSE_ACT a, AXS_STATE a]
          (fun x => x.noChans.noCombs) s.dev t.dev ∧ t.dev.axSt a = s.dev.axSt a) ∧
        (2 ≤ act → s.dev.axSt a ≠ stRetired → (t.dev.rd (AXS_CAUSE_ACT a)).toNat.testBit 3 = true ∧
          (t.dev.rd (AXS_CAUSE_SEEN a)).toNat.testBit 3 = true) ∧
        (act = 3 → s.dev.axSt a ≠ stRetired → ForcedSafe a 3 s.dev t.dev))) ∧
    -- the first output within both thresholds
    (s.dev.ocTakes h = true →
      let x := s.dev.bitsFor h (s.dev.chanRef h) (s.dev.chanRef h + 1) b
      ∀ y, (s.dev.ocOutputs h x).getLast? = some y →
      ((s.dev.chan h).oc = 0 ∨ y.1 < 2 * s.dev.fld (DRW_OC_CFG h) DRW_OC_CFG_oc_osr ∨ s.dev.ocBeyond h y.2 ≠ 0 →
        Yields (exec (.overcurrentRelease h b) s) fun t => t.mem = s.mem ∧
          t.dev.fld (DRW_OC_VAL h) DRW_OC_VAL_oc_val = wrapN 16 y.2 ∧ ChangesOnly [DRW_OC_VAL h] id s.dev t.dev) ∧
      ((s.dev.chan h).oc ≠ 0 → 2 * s.dev.fld (DRW_OC_CFG h) DRW_OC_CFG_oc_osr ≤ y.1 → s.dev.ocBeyond h y.2 = 0 →
        Yields (exec (.overcurrentRelease h b) s) fun t => t.mem = s.mem ∧ (t.dev.chan h).oc = 0 ∧
          t.dev.flag st DRW_CH_STAT_oc_now = false ∧ t.dev.fld (DRW_OC_VAL h) DRW_OC_VAL_oc_val = wrapN 16 y.2 ∧
          (t.dev.rd (AXS_CAUSE_ACT a)).toNat.testBit 3 = t.dev.ocPresent a ∧
          ChangesOnly [st, DRW_OC_VAL h, DRW_STAT (h.val / 48), AXS_CAUSE_ACT a, AXS_STATE a] Dev.noChans s.dev t.dev))


/-- Peak and valley of a carrier: each pulses its source and offers itself to the Drawplate tile in an active period; an
update point loads the duties or is held, and the unit may enter DRIVE (R106, R108, R117, R119, R121, R124, R126, R132).
A switch of a unit in DRIVE turns on and off with its command interval and dead time; a pulse that is too short is
dropped, and the two switches of a phase are never on together (R122, R123, R127; which edge drops a pulse is assumption
69, DEDUCED); a hold starts with PWM_HOLD (R132). It rests on the model's choices in assumptions 4 and 69. -/
def Obligations.CarrierEventsAndSwitchEdges : Prop :=
  (
  ∀ (a : Fin 64) (s : State), s.dev.clusterRuns (axCl a) = true →
    ∀ p ∈ [(Instr.pwmPeak a, true, 0x20, s.dev.periodActive a),
        (.pwmValley a, false, 0x30, s.dev.periodActive a)],
      let now := (if p.2.1 then s.dev.atPeak a else s.dev.atValley a) && !s.dev.carrierDone a
      let dbl := s.dev.flag (PWM_CFG a) PWM_CFG_dbl
      let sees := p.2.2.2 && (dbl || decide (s.dev.fld (DRW_WIN_CFG a) DRW_WIN_CFG_win_evt = b2n (!p.2.1)))
      let upd := dbl || (p.2.2.2 && (s.dev.flag (PWM_CFG a) PWM_CFG_upd_pt == !p.2.1))
      let busy := (s.dev.tile a).delaying || (s.dev.tile a).opened
      let left := s.dev.fld (PWM_HOLD a) PWM_HOLD_hold_left
      (now = false → Yields (exec p.1 s) fun t => t = s) ∧
      (now = true → Yields (exec p.1 s) fun t => t.mem = s.mem ∧
        Pulsed (axCl a) (p.2.2.1 + axLo a) s.dev t.dev ∧
        t.dev.carrierDone a = true ∧
        (sees = true → busy = false → (t.dev.tile a).delaying = true ∧ (t.dev.tile a).opened = false ∧
          (t.dev.tile a).evt = s.dev.chanRef (3 * a.val)) ∧
        (sees = true → busy = true →
          (t.dev.tile a).lost = (s.dev.tile a).lost ++ [s.dev.windowTill a (s.dev.chanRef (3 * a.val))] ∧
          ∀ k < 3, s.dev.fld (DRW_CH_CFG (3 * a.val + k)) DRW_CH_CFG_win_mode = 1 →
            t.dev.flag (DRW_CH_STAT (3 * a.val + k)) DRW_CH_STAT_overrun = true) ∧
        (sees = false → t.dev.tile a = s.dev.tile a) ∧
        (upd = true → left = 0 → t.dev.rd (PWM_ACT_U a) = s.dev.rd (PWM_SHD_U a) ∧
          t.dev.rd (PWM_ACT_V a) = s.dev.rd (PWM_SHD_V a) ∧ t.dev.rd (PWM_ACT_W a) = s.dev.rd (PWM_SHD_W a) ∧
          (t.dev.pwm a).dt = s.dev.rd (PWM_DT a)) ∧
        (upd = false ∨ left ≠ 0 → t.dev.rd (PWM_ACT_U a) = s.dev.rd (PWM_ACT_U a) ∧
          t.dev.rd (PWM_ACT_V a) = s.dev.rd (PWM_ACT_V a) ∧ t.dev.rd (PWM_ACT_W a) = s.dev.rd (PWM_ACT_W a) ∧
          (t.dev.pwm a).dt = (s.dev.pwm a).dt) ∧
        (upd = true → left ≠ 0 → t.dev.fld (PWM_HOLD a) PWM_HOLD_hold_left = left - 1 ∧
          t.dev.flag (PWM_STAT a) PWM_STAT_held = true) ∧
        (upd = true → s.dev.mayDrive a = true → t.dev.outMode a = 1) ∧
        (upd = false ∨ s.dev.mayDrive a = false → t.dev.outMode a = s.dev.outMode a) ∧
        ChangesOnly [PWM_ACT_U a, PWM_ACT_V a, PWM_ACT_W a, PWM_HOLD a, PWM_STAT a, PWM_GSTAT (axCl a),
          DRW_CH_STAT (3 * a.val), DRW_CH_STAT (3 * a.val + 1), DRW_CH_STAT (3 * a.val + 2)]
          (fun x => x.noPwms.noTiles.noCombs) s.dev t.dev)) ∧
  (
  (∀ (a : Fin 64) (ph : Fin 3) (low : Bool) (s : State), s.dev.clusterRuns (axCl a) = true →
    let me := switchBit ph low
    let other := switchBit ph (!low)
    let on := (s.dev.pwm a).on
    let others := fun (t : State) => t.mem = s.mem ∧ (∀ i, i ≠ me → (t.dev.pwm a).on.testBit i = on.testBit i) ∧
      (∀ b, b ≠ a.val → t.dev.pwm b = s.dev.pwm b)
    let mine := s.dev.command a ph != low
    let rise := (s.dev.pwm a).riseOf me
    let drop := (s.dev.pwm a).dropped.testBit other
    -- dead time is over, and the command wants this switch on; or SHORT wants the low one on
    (∀ x, (s.dev.outMode a = 1 ∧ mine = true ∨ s.dev.outMode a = 2 ∧ low = true) → rise = some x → x < s.dev.tapNow a + 32 →
      on.testBit me = false → on.testBit other = false →
      Yields (exec (.switchEdge a ph low true) s) fun t => others t ∧ (t.dev.pwm a).on.testBit me = true ∧
        (s.dev.outMode a = 1 → (me, x + (s.dev.pwm a).minTaps) ∈ (t.dev.pwm a).keep ∧ ChangesOnly [] Dev.noPwms s.dev t.dev)) ∧
    (s.dev.outMode a = 0 ∨ on.testBit other = true ∨ rise = none ∨ (∃ x, rise = some x ∧ s.dev.tapNow a + 32 ≤ x) ∨
        (s.dev.outMode a = 1 ∧ mine = false) → Yields (exec (.switchEdge a ph low true) s) fun t => t = s) ∧
    -- the edge of the command that turns this switch off, unless the pulse of the other one is dropped there
    (s.dev.outMode a = 1 → mine = false → drop = false → s.dev.pulseShort a ph (!low) = true →
      Yields (exec (.switchEdge a ph low false) s) fun t => others t ∧ (t.dev.pwm a).on.testBit me = on.testBit me ∧
        (t.dev.pwm a).dropped.testBit other = true ∧
        t.dev.flag (PWM_STAT a) PWM_STAT_pulse_drop = true ∧ ChangesOnly [PWM_STAT a] Dev.noPwms s.dev t.dev) ∧
    (s.dev.outMode a = 1 → mine = false → drop = false → s.dev.pulseShort a ph (!low) = false → on.testBit me = true →
      (∀ x ∈ (s.dev.pwm a).keep, x.1 ≠ me) →
      Yields (exec (.switchEdge a ph low false) s) fun t => others t ∧ (t.dev.pwm a).on.testBit me = false ∧
        (t.dev.pwm a).riseOf other = some (s.dev.edgeTap a ph + (s.dev.pwm a).deadTaps) ∧
        ChangesOnly [] Dev.noPwms s.dev t.dev) ∧
    -- a pulse that has begun lasts its minimum; a dropped one leaves the other switch on
    (s.dev.outMode a = 1 → mine = true ∨ drop = true ∨ ((∃ x ∈ (s.dev.pwm a).keep, x.1 = me ∧ s.dev.tapNow a + 32 ≤ x.2) ∧
        s.dev.pulseShort a ph (!low) = false) →
      Yields (exec (.switchEdge a ph low false) s) fun t => t = s) ∧
    (∀ turnOn, (on.testBit me && on.testBit other) = false → Yields (exec (.switchEdge a ph low turnOn) s) fun t =>
      ((t.dev.pwm a).on.testBit me && (t.dev.pwm a).on.testBit other) = false)) ∧
  (∀ (a : Fin 64) (s : State), s.dev.clusterRuns (axCl a) = true → Yields (exec (.pwmHold a) s) fun t => t.mem = s.mem ∧
    t.dev.fld (PWM_HOLD a) PWM_HOLD_hold_left = (if s.dev.flag (PWM_HOLD a) PWM_HOLD_hold_en
      then s.dev.fld (PWM_HOLD a) PWM_HOLD_hold_cnt else s.dev.fld (PWM_HOLD a) PWM_HOLD_hold_left) ∧
    ChangesOnly [PWM_HOLD a, FLX_ROUTE (axCl a) (0x10 + axLo a)] id s.dev t.dev))

/-- The fault input and the STO inputs: an assertion forces the outputs SAFE and records its cause on an axis that is
not RETIRED; a release only takes the live level away (R128 to R130). -/
def Obligations.FaultInputsForceSafe : Prop :=
  (∀ (a : Fin 64) (s : State), s.dev.clusterRuns (axCl a) = true →
    (s.dev.flag (PWM_FLT a) PWM_FLT_flt_en = false ∨ s.dev.flag (PWM_STAT a) PWM_STAT_flt_live = true →
      Yields (exec (.fltAssert a) s) fun t => t = s) ∧
    (s.dev.flag (PWM_FLT a) PWM_FLT_flt_en = true → s.dev.flag (PWM_STAT a) PWM_STAT_flt_live = false →
      Yields (exec (.fltAssert a) s) fun t => t.mem = s.mem ∧ t.dev.flag (PWM_STAT a) PWM_STAT_flt_live = true ∧
        t.dev.flag (PWM_STAT a) PWM_STAT_flt_seen = true ∧
        (s.dev.axSt a = stRetired → ChangesOnly [PWM_STAT a] id s.dev t.dev) ∧
        (s.dev.axSt a ≠ stRetired → ForcedSafe a 1 s.dev t.dev ∧ (t.dev.rd (AXS_CAUSE_ACT a)).toNat.testBit 1 = true)) ∧
    (s.dev.flag (PWM_STAT a) PWM_STAT_flt_live = true → Yields (exec (.fltRelease a) s) fun t => t.mem = s.mem ∧
      t.dev.flag (PWM_STAT a) PWM_STAT_flt_live = false ∧ (t.dev.rd (AXS_CAUSE_ACT a)).toNat.testBit 1 = false ∧
      t.dev.flag (AXS_STATE a) AXS_STATE_cause_act = decide (t.dev.rd (AXS_CAUSE_ACT a) ≠ 0) ∧
      t.dev.outMode a = s.dev.outMode a ∧ t.dev.flag (PWM_STAT a) PWM_STAT_forced = s.dev.flag (PWM_STAT a) PWM_STAT_forced ∧
      ChangesOnly [PWM_STAT a, AXS_CAUSE_ACT a, AXS_STATE a] Dev.noAxes s.dev t.dev)) ∧
  (∀ (c : Fin 4) (g : Fin 8) (s : State), s.dev.clusterRuns c = true →
    ((s.dev.fld (PWM_STO_STAT c) PWM_STO_STAT_live).testBit g = false →
      Yields (exec (.stoAssert c g) s) fun t => t.mem = s.mem ∧
        (t.dev.fld (PWM_STO_STAT c) PWM_STO_STAT_live).testBit g = true ∧
        (t.dev.fld (PWM_STO_STAT c) PWM_STO_STAT_seen).testBit g = true ∧
        ∀ l < 16, (s.dev.fld (PWM_STO_MAP (c.val * 8 + g.val)) PWM_STO_MAP_axes).testBit l = true →
          t.dev.flag (PWM_STAT (c.val * 16 + l)) PWM_STAT_sto_live = true ∧
          (s.dev.axSt (c.val * 16 + l) ≠ stRetired → (t.dev.rd (AXS_CAUSE_ACT (c.val * 16 + l))).toNat.testBit 2 = true ∧
            t.dev.outMode (c.val * 16 + l) = 0 ∧ t.dev.flag (PWM_STAT (c.val * 16 + l)) PWM_STAT_forced = true ∧
            (t.dev.rd (AXS_CAUSE_SEEN (c.val * 16 + l))).toNat.testBit 2 = true ∧
            (s.dev.axSt (c.val * 16 + l) = stArmed ∨ s.dev.axSt (c.val * 16 + l) = stEnabled →
              t.dev.axSt (c.val * 16 + l) = stFaulted))) ∧
    Yields (exec (.stoRelease c g) s) fun t => t.mem = s.mem ∧
      (t.dev.fld (PWM_STO_STAT c) PWM_STO_STAT_live).testBit g = false ∧
      (∀ i, i ≠ g.val → (t.dev.fld (PWM_STO_STAT c) PWM_STO_STAT_live).testBit i =
        (s.dev.fld (PWM_STO_STAT c) PWM_STO_STAT_live).testBit i) ∧
      (∀ l < 16, t.dev.stoMapped c l = false → t.dev.flag (PWM_STAT (c.val * 16 + l)) PWM_STAT_sto_live = false) ∧
      (∀ l < 16, t.dev.stoMapped c l = true → t.dev.rd (PWM_STAT (c.val * 16 + l)) = s.dev.rd (PWM_STAT (c.val * 16 + l)) ∧
        t.dev.rd (AXS_CAUSE_ACT (c.val * 16 + l)) = s.dev.rd (AXS_CAUSE_ACT (c.val * 16 + l)) ∧
        t.dev.axis (c.val * 16 + l) = s.dev.axis (c.val * 16 + l)) ∧
      t.dev.pwms = s.dev.pwms) ∧
  -- PWM_STO_MAP: a clear that would free an active axis is discarded as a whole
  (∀ (w : Writer) (c : Fin 4) (g : Fin 8) (v : Word) (s : State), s.dev.clusterRuns c = true →
    s.dev.accepts w (PWM_STO_MAP (c.val * 8 + g.val)) = true →
    let old := s.dev.fld (PWM_STO_MAP (c.val * 8 + g.val)) PWM_STO_MAP_axes
    let new := fget PWM_STO_MAP_axes v
    ((∃ l < 16, old.testBit l = true ∧ new.testBit l = false ∧ stArmed ≤ s.dev.axSt (c.val * 16 + l)) →
      Yields (exec (.pwmStoMapWrite w c g v) s) fun t => t.mem = s.mem ∧
        t.dev.flag (PWM_GSTAT c) PWM_GSTAT_sto_refused = true ∧ ChangesOnly [PWM_GSTAT c] Dev.noWindows s.dev t.dev) ∧
    ((∀ l < 16, old.testBit l = true → new.testBit l = false → s.dev.axSt (c.val * 16 + l) < stArmed) →
      Yields (exec (.pwmStoMapWrite w c g v) s) fun t => t.mem = s.mem ∧
        t.dev.fld (PWM_STO_MAP (c.val * 8 + g.val)) PWM_STO_MAP_axes = new ∧
        (∀ l < 16, new.testBit l = true → old.testBit l = false →
          (s.dev.fld (PWM_STO_STAT c) PWM_STO_STAT_live).testBit g = true → s.dev.axSt (c.val * 16 + l) ≠ stRetired →
          t.dev.outMode (c.val * 16 + l) = 0 ∧ t.dev.flag (PWM_STAT (c.val * 16 + l)) PWM_STAT_sto_live = true ∧
          (t.dev.rd (AXS_CAUSE_SEEN (c.val * 16 + l))).toNat.testBit 2 = true)))

/-- Counting of an encoder: legal transitions move the counter by one count, an illegal one leaves it and makes the next
latch invalid; index events enter the history of four, which a read of FBK_IDX_STAT copies; FBK_POS presets the counter
while the axis is RETIRED or ADMITTED (R141 to R147). The encoder outputs: an edge moves the emulated count by one
towards its target in quadrature order; a channel stops where it stands and starts without a burst; the ratio needs 0 <
n ≤ m (R156 to R160). It rests on the model's choices in assumptions 32, 63 and 71. -/
def Obligations.EncoderCountingAndOutputs : Prop :=
  (
    -- R137, R138, R149, R162: the level of a pair at the balls, also while the cluster stands in a debug halt
    (∀ (a : Fin 64) (p0 n0 p1 n1 : Bool) (s : State), s.dev.hasCluster (axCl a) = true →
      let keep := fun (i : Nat) (p n : Bool) =>
        (s.dev.fbk a).dis.testBit i || (if s.dev.flag (FBK_CFG a) FBK_CFG_in_mode then n else p == n)
      Yields (exec (.encoderCount a (p0, n0) (p1, n1)) s) (fun t =>
        (t.dev.fbk a).pinA = (if keep 0 p0 n0 then (s.dev.fbk a).pinA else p0) ∧
        (t.dev.fbk a).pinB = (if keep 1 p1 n1 then (s.dev.fbk a).pinB else p1) ∧ (t.dev.fbk a).pinZ = (s.dev.fbk a).pinZ ∧
        (s.dev.clusterRuns (axCl a) = false → t.mem = s.mem ∧ t.dev.rd (FBK_POS a) = s.dev.rd (FBK_POS a) ∧
          (t.dev.fbk a).lvA = (s.dev.fbk a).lvA ∧ (t.dev.fbk a).lvB = (s.dev.fbk a).lvB ∧ ChangesOnly [] Dev.noFbks s.dev t.dev)) ∧
      Yields (exec (.indexEvent ⟨a, p0, n0⟩) s) (fun t =>
        (t.dev.fbk a).pinZ = (if keep 2 p0 n0 then (s.dev.fbk a).pinZ else p0) ∧ (t.dev.fbk a).pinA = (s.dev.fbk a).pinA ∧
        (t.dev.fbk a).pinB = (s.dev.fbk a).pinB ∧
        (s.dev.clusterRuns (axCl a) = false → t.mem = s.mem ∧ (t.dev.fbk a).hist = (s.dev.fbk a).hist ∧
          ChangesOnly [] Dev.noFbks s.dev t.dev))) ∧
    (∀ (a : Fin 64) (p0 n0 p1 n1 : Bool) (s : State), s.dev.clusterRuns (axCl a) = true →
      let f := s.dev.fbk a
      let lvA := s.dev.pairLevel a 0 p0 n0 f.pinA
      let lvB := s.dev.pairLevel a 1 p1 n1 f.pinB
      (s.dev.flag (FBK_CFG a) FBK_CFG_enc_en = false → Yields (exec (.encoderCount a (p0, n0) (p1, n1)) s) fun t => t.mem = s.mem ∧
        (t.dev.fbk a).lvA = lvA ∧ (t.dev.fbk a).lvB = lvB ∧ ChangesOnly [] Dev.noFbks s.dev t.dev) ∧
      (s.dev.flag (FBK_CFG a) FBK_CFG_enc_en = true →
        let sw := s.dev.flag (FBK_CFG a) FBK_CFG_swap_ab
        let q := quadDecode (s.dev.fld (FBK_CFG a) FBK_CFG_cnt_mode) (if sw then f.lvB else f.lvA) (if sw then f.lvA else f.lvB)
          (if sw then lvB else lvA) (if sw then lvA else lvB)
        -- R143: a count in the ccyc of a preset is lost
        let lost := f.presetAt = some s.dev.now
        Yields (exec (.encoderCount a (p0, n0) (p1, n1)) s) fun t => t.mem = s.mem ∧ (t.dev.fbk a).lvA = lvA ∧ (t.dev.fbk a).lvB = lvB ∧
          (lost → q ≠ .illegal → t.dev.rd (FBK_POS a) = s.dev.rd (FBK_POS a) ∧ ChangesOnly [] Dev.noFbks s.dev t.dev) ∧
          (q = .none → t.dev.rd (FBK_POS a) = s.dev.rd (FBK_POS a) ∧ ChangesOnly [] Dev.noFbks s.dev t.dev) ∧
          (q = .illegal → t.dev.rd (FBK_POS a) = s.dev.rd (FBK_POS a) ∧ (t.dev.fbk a).illegal = true ∧
            t.dev.flag (FBK_STAT a) FBK_STAT_qerr = true ∧ t.dev.fld (FBK_STAT a) FBK_STAT_qerr_cnt =
              min (s.dev.fld (FBK_STAT a) FBK_STAT_qerr_cnt + 1) (2 ^ FBK_STAT_qerr_cnt.wid - 1) ∧
            ChangesOnly [FBK_STAT a] Dev.noFbks s.dev t.dev) ∧
          (¬ lost → q = .up ∨ q = .down → t.dev.rd (FBK_POS a) = (if q = .up then s.dev.rd (FBK_POS a) + 1 else s.dev.rd (FBK_POS a) - 1) ∧
            t.dev.flag (FBK_STAT a) FBK_STAT_dir = decide (q = .down) ∧
            (t.dev.fbk a).cnt = some (t.dev.rd (FBK_POS a), s.dev.edgeStamp a) ∧
            (f.moved = true → s.dev.flag (FBK_STAT a) FBK_STAT_dir ≠ decide (q = .down) →
              t.dev.flag (FBK_STAT a) FBK_STAT_dir_chg = true ∧ Pulsed (axCl a) (0x80 + axLo a) s.dev t.dev) ∧
            (s.dev.flag (FBK_RSC_CFG a) FBK_RSC_CFG_rsc_en = true → s.dev.flag (FBK_RSC_CFG a) FBK_RSC_CFG_dir_rsc = decide (q = .down) →
              t.dev.rd (FBK_POS a) = s.dev.rd (FBK_RSC_CMP a) → .rscHit a.val false ∈ t.dev.due) ∧
            ChangesOnly ([FBK_POS a, FBK_STAT a, FLX_WIN_CFG a, FLX_WIN_CNT a] ++
              (List.range 4).map fun k => FBK_EO_STAT (axCl a * 4 + k)) (fun x => x.noFbks.noEncs.noCombs) s.dev t.dev))) ∧
    (∀ (a : Fin 64) (p0 n0 : Bool) (s : State), s.dev.clusterRuns (axCl a) = true →
      let z := s.dev.pairLevel a 2 p0 n0 (s.dev.fbk a).pinZ
      let taken := (s.dev.fbk a).lvZ != z && (z != s.dev.flag (FBK_CFG a) FBK_CFG_inv_z) && s.dev.flag (FBK_CFG a) FBK_CFG_enc_en &&
        s.dev.fld (FBK_CFG a) FBK_CFG_cnt_mode != 3 && s.dev.gateOpen a
      Yields (exec (.indexEvent ⟨a, p0, n0⟩) s) (fun t => (t.dev.fbk a).lvZ = z ∧
        (taken = false → t.mem = s.mem ∧ (t.dev.fbk a).hist = (s.dev.fbk a).hist ∧ ChangesOnly [] (fun x => x.noFbks.noEncs) s.dev t.dev)) ∧
      (taken = true → Yields (exec (.indexEvent ⟨a, p0, n0⟩) s) fun t => t.mem = s.mem ∧
        (t.dev.fbk a).hist = ((s.dev.rd (FBK_POS a), s.dev.edgeStamp a) :: (s.dev.fbk a).hist).take 4 ∧
        t.dev.fld (FBK_IDX_STAT a) FBK_IDX_STAT_idx_seq =
          (s.dev.fld (FBK_IDX_STAT a) FBK_IDX_STAT_idx_seq + 1) % 2 ^ FBK_IDX_STAT_idx_seq.wid ∧
        t.dev.fld (FBK_IDX_STAT a) FBK_IDX_STAT_n_valid = min 4 ((s.dev.fbk a).hist.length + 1) ∧
        Pulsed (axCl a) (0x70 + axLo a) s.dev t.dev ∧ (t.dev.fbk a).lcOld = some (s.dev.rd (FBK_POS a)) ∧
        (∀ old, (s.dev.fbk a).lcOld = some old → s.dev.flag (FBK_SUP_CFG a) FBK_SUP_CFG_lc_en = true →
          (s.dev.fbk a).lcSkip = false →
          let dev : Int := (s.dev.rd (FBK_POS a) - old).toInt.natAbs - (s.dev.rd (FBK_LC_NOM a)).toNat
          t.dev.rd (FBK_LC_LAST a) = BitVec.ofInt 32 dev ∧
          (s.dev.fld (FBK_LC_TOL a) FBK_LC_TOL_tol < dev.natAbs → t.dev.flag (FBK_STAT a) FBK_STAT_lc_err = true)) ∧
        ((s.dev.fbk a).lcOld = none ∨ s.dev.flag (FBK_SUP_CFG a) FBK_SUP_CFG_lc_en = false →
          ChangesOnly [FBK_IDX_STAT a] (fun x => x.noFbks.noEncs.noCombs) s.dev t.dev))) ∧
    (∀ (a : Fin 64) (s : State), s.dev.clusterRuns (axCl a) = true → Yields (exec (.fbkIdxStatRead a) s) fun t =>
      t.mem = s.mem ∧ t.dev.rdata = s.dev.rd (FBK_IDX_STAT a) ∧
      (∀ i < 4, ∀ p ts, (s.dev.fbk a).hist[i]? = some (p, ts) → t.dev.rd (FBK_IDX_POS a i) = p ∧
        (t.dev.rd (FBK_IDX_T_LO a i)).toNat = ts % 2 ^ 32 ∧ (t.dev.rd (FBK_IDX_T_HI a i)).toNat = ts / 2 ^ 32 % 2 ^ 32) ∧
      ChangesOnly ((List.range 4).flatMap fun i => [FBK_IDX_POS a i, FBK_IDX_T_LO a i, FBK_IDX_T_HI a i]) Dev.noRdata
        s.dev t.dev) ∧
    (∀ (w : Writer) (a : Fin 64) (v : Word) (s : State), s.dev.clusterRuns (axCl a) = true →
      s.dev.accepts w (FBK_POS a) = true →
      (s.dev.axSt a = stRetired ∨ s.dev.axSt a = stAdmitted → Yields (exec (.fbkPosPreset w a v) s) fun t => t.mem = s.mem ∧
        t.dev.rd (FBK_POS a) = v ∧ t.dev.flag (FBK_STAT a) FBK_STAT_restart = true ∧ (t.dev.fbk a).cnt = none ∧
        (t.dev.fbk a).first = true ∧ (t.dev.fbk a).moved = false ∧ (t.dev.fbk a).presetAt = some s.dev.now ∧
        (t.dev.fbk a).hist = (s.dev.fbk a).hist ∧
        ChangesOnly [FBK_POS a, FBK_STAT a, FLX_WIN_CFG a, FLX_WIN_CNT a] (fun x => x.noWindows.noFbks.noCombs) s.dev t.dev) ∧
      (s.dev.axSt a ≠ stRetired → s.dev.axSt a ≠ stAdmitted → Yields (exec (.fbkPosPreset w a v) s) fun t => t.mem = s.mem ∧
        t.dev.flag (FBK_GSTAT (axCl a)) FBK_GSTAT_adm_lock = true ∧
        ChangesOnly [FBK_GSTAT (axCl a)] Dev.noWindows s.dev t.dev))) ∧
  (
    ∀ (w : Writer) (k : Fin 16) (v : Word) (s : State), s.dev.clusterRuns (k.val / 4) = true →
      let wait := ∃ x, (s.dev.enc k).edgeAt = some x ∧ (s.dev.cluster (k.val / 4)).ref < x + (s.dev.enc k).spacing
      (s.dev.part = .pdl64 ∨ s.dev.flag (FBK_EO_CFG k) FBK_EO_CFG_en = false ∨ (s.dev.enc k).todo = 0 ∨ wait →
        Yields (exec (.encoderOutputEdge k) s) fun t => t = s) ∧
      (s.dev.part ≠ .pdl64 → s.dev.flag (FBK_EO_CFG k) FBK_EO_CFG_en = true → (s.dev.enc k).todo ≠ 0 → ¬ wait →
        let up := decide (0 < (s.dev.enc k).todo)
        Yields (exec (.encoderOutputEdge k) s) fun t => t.mem = s.mem ∧
          (t.dev.enc k).edgeAt = some (s.dev.cluster (k.val / 4)).ref ∧ (t.dev.enc k).count = (BitVec.ofInt 32 ((s.dev.enc k).count + (if up then 1 else -1))).toInt ∧
          (t.dev.enc k).todo = (s.dev.enc k).todo - (if up then 1 else -1) ∧
          t.dev.fld (FBK_EO_STAT k) FBK_EO_STAT_out_cnt = wrapN 16 (t.dev.enc k).count ∧
          t.dev.flag (FBK_EO_STAT k) FBK_EO_STAT_run = decide ((t.dev.enc k).todo ≠ 0) ∧
          -- one of the two outputs changes, and which one says the direction
          ((t.dev.enc k).ballA ≠ (s.dev.enc k).ballA ↔ (t.dev.enc k).ballB = (s.dev.enc k).ballB) ∧
          ((t.dev.enc k).ballA ≠ (s.dev.enc k).ballA → ((t.dev.enc k).ballA ≠ (t.dev.enc k).ballB ↔ up = true)) ∧
          ((t.dev.enc k).ballB ≠ (s.dev.enc k).ballB → ((t.dev.enc k).ballA = (t.dev.enc k).ballB ↔ up = true)) ∧
          ChangesOnly [FBK_EO_STAT k] Dev.noEncs s.dev t.dev) ∧
      (s.dev.part = .pdl64 → (fget FBK_EO_RATIO_n v = 0 ∨ fget FBK_EO_RATIO_m v < fget FBK_EO_RATIO_n v) →
        Yields (exec (.fbkEoRatioWrite w k v) s) fun t => t.mem = s.mem ∧
          t.dev.flag (FBK_GSTAT (k.val / 4)) FBK_GSTAT_cfg_err = true ∧
          ChangesOnly [FBK_GSTAT (k.val / 4)] Dev.noWindows s.dev t.dev) ∧
      (s.dev.part = .pdl64 → fget FBK_EO_RATIO_n v ≠ 0 → fget FBK_EO_RATIO_n v ≤ fget FBK_EO_RATIO_m v →
        Yields (exec (.fbkEoRatioWrite w k v) s) fun t => t.mem = s.mem ∧ Wrote w (FBK_EO_RATIO k) v s.dev t.dev ∧
          ChangesOnly [FBK_EO_RATIO k, FBK_UNLOCK (k.val / 4)] Dev.noWindows s.dev t.dev) ∧
      (s.dev.sound (FBK_EO_CFG k) v → s.dev.flag (FBK_EO_CFG k) FBK_EO_CFG_en = true → fget FBK_EO_CFG_en v = 0 →
        Yields (exec (.fbkEoCfgWrite w k v) s) fun t => t.mem = s.mem ∧ Wrote w (FBK_EO_CFG k) v s.dev t.dev ∧
          (t.dev.enc k).count = (s.dev.enc k).count ∧ (t.dev.enc k).ballA = (s.dev.enc k).ballA ∧
          (t.dev.enc k).ballB = (s.dev.enc k).ballB ∧ (t.dev.enc k).ballZ = false ∧ (t.dev.enc k).todo = 0 ∧
          t.dev.flag (FBK_EO_STAT k) FBK_EO_STAT_run = false ∧
          ChangesOnly [FBK_EO_CFG k, FBK_EO_STAT k] (fun x => x.noWindows.noEncs) s.dev t.dev) ∧
      (s.dev.sound (FBK_EO_CFG k) v → s.dev.part = .pdl64 → s.dev.flag (FBK_EO_CFG k) FBK_EO_CFG_en = false →
        fget FBK_EO_CFG_en v = 1 →
        Yields (exec (.fbkEoCfgWrite w k v) s) fun t => t.mem = s.mem ∧ Wrote w (FBK_EO_CFG k) v s.dev t.dev ∧
          (t.dev.enc k).acc = 0 ∧ (t.dev.enc k).count = (s.dev.enc k).count ∧
          ChangesOnly [FBK_EO_CFG k] (fun x => x.noWindows.noEncs) s.dev t.dev) ∧
      (s.dev.sound (FBK_EO_CFG k) v → s.dev.part ≠ .pdl64 → s.dev.flag (FBK_EO_CFG k) FBK_EO_CFG_en = false →
        fget FBK_EO_CFG_en v = 1 →
        Yields (exec (.fbkEoCfgWrite w k v) s) fun t => t.mem = s.mem ∧ Wrote w (FBK_EO_CFG k) v s.dev t.dev ∧
          (t.dev.enc k).todo = 0 ∧ t.dev.flag (FBK_EO_STAT k) FBK_EO_STAT_run = false ∧
          t.dev.fld (FBK_EO_STAT k) FBK_EO_STAT_out_cnt = wrapN 16 (t.dev.enc k).count ∧
          (t.dev.enc k).ballA = (s.dev.enc k).ballA ∧ (t.dev.enc k).ballB = (s.dev.enc k).ballB ∧
          ChangesOnly [FBK_EO_CFG k, FBK_EO_STAT k] (fun x => x.noWindows.noEncs) s.dev t.dev))

/-- Supervision of the feedback wires: a qualified disagreement of a supervised pair is live until it ends, and one that
persists is classified as a cable fault, which acts by sup_act (R149, R151). The regular-spacing compare: a hit counts,
advances cmp by step and starts a pulse, unless the output has been low for too short; its registers are evaluated as
they are written (R152 to R154). It rests on the model's choices in assumption 4. -/
def Obligations.FeedbackSupervisionAndCompare : Prop :=
  (
    ∀ (a : Fin 64) (s : State), s.dev.clusterRuns (axCl a) = true →
      let mask := s.dev.fld (FBK_SUP_CFG a) FBK_SUP_CFG_dis_mask
      (∀ pair : Fin 3, mask.testBit pair = false ∨ (s.dev.fbk a).dis.testBit pair = true →
        Yields (exec (.disagreementQualified a pair) s) fun t => t = s) ∧
      (∀ pair : Fin 3, mask.testBit pair = true → (s.dev.fbk a).dis.testBit pair = false →
        Yields (exec (.disagreementQualified a pair) s) fun t => t.mem = s.mem ∧
          t.dev.flag (FBK_STAT a) FBK_STAT_dis_seen = true ∧ t.dev.flag (FBK_STAT a) FBK_STAT_dis_live = true ∧
          (t.dev.fbk a).disagreed = true ∧ (t.dev.fbk a).dis.testBit pair = true ∧ (t.dev.rd (AXS_CAUSE_ACT a)).toNat.testBit 0x0A = true ∧
          ChangesOnly [FBK_STAT a, AXS_CAUSE_ACT a, AXS_STATE a] Dev.noFbks s.dev t.dev) ∧
      (∀ pairs : Fin 8, Yields (exec (.disagreementEnd ⟨a, pairs⟩) s) fun t => t.mem = s.mem ∧
        (∀ i < 3, (t.dev.fbk a).dis.testBit i = ((s.dev.fbk a).dis.testBit i && mask.testBit i && !pairs.val.testBit i)) ∧
        (t.dev.flag (FBK_STAT a) FBK_STAT_dis_live = true ↔ (t.dev.fbk a).dis ≠ 0) ∧
        ((t.dev.rd (AXS_CAUSE_ACT a)).toNat.testBit 0x0A = true ↔ (t.dev.fbk a).dis ≠ 0) ∧
        ChangesOnly [FBK_STAT a, AXS_CAUSE_ACT a, AXS_STATE a] Dev.noFbks s.dev t.dev) ∧
      let persist := s.dev.fld (FBK_SUP_CFG a) FBK_SUP_CFG_dis_persist
      let stood := s.dev.flag (FBK_STAT a) FBK_STAT_dis_live = true ∧ persist ≠ 0 ∧
        (s.dev.cluster (axCl a)).ref = (s.dev.fbk a).disAt + persist * 1024
      (¬ stood → Yields (exec (.disPersistExpiry a) s) fun t => t = s) ∧
      (stood →
        let act := s.dev.fld (FBK_SUP_CFG a) FBK_SUP_CFG_sup_act
        let pay := [0, (s.dev.rd (FBK_LC_LAST a)).toNat]
        Yields (exec (.disPersistExpiry a) s) fun t => t.mem = s.mem ∧ t.dev.flag (FBK_STAT a) FBK_STAT_cable = true ∧
          (act = 0 → ChangesOnly [FBK_STAT a] id s.dev t.dev ∧ t.dev.events = s.dev.events) ∧
          (act = 1 → ChangesOnly [FBK_STAT a] id s.dev t.dev ∧
            (s.dev.takesEvent (evOpen 5 3) pay = true → t.dev.hasEvent (evOpen 5 3) (0x10 + axCl a) a pay)) ∧
          (act = 2 → s.dev.axSt a ≠ stRetired → (t.dev.rd (AXS_CAUSE_SEEN a)).toNat.testBit 0x0A = true))) ∧
  (
    ∀ (w : Writer) (a : Fin 64) (v : Word) (s : State), s.dev.clusterRuns (axCl a) = true →
      let cfg := FBK_RSC_CFG a
      let ends := (s.dev.fbk a).rscHigh = true ∧ (s.dev.fbk a).rscRise + s.dev.fld cfg FBK_RSC_CFG_pw ≤ (s.dev.cluster (axCl a)).ref
      let dueOf := fun (t : State) =>
        let x := t.dev.rd (FBK_RSC_CMP a) - t.dev.rd (FBK_POS a)
        let diff := if t.dev.flag cfg FBK_RSC_CFG_dir_rsc then -x else x
        (.rscHit a.val false ∈ t.dev.due ↔ t.dev.flag cfg FBK_RSC_CFG_rsc_en = true ∧ diff = 0) ∧
        (.rscHit a.val true ∈ t.dev.due ↔ t.dev.flag cfg FBK_RSC_CFG_rsc_en = true ∧ 2 ^ 31 ≤ diff.toNat)
      (∀ late, .rscHit a.val late ∈ s.dev.due → (late = false → .rscHit a.val true ∉ s.dev.due) →
        let f := s.dev.fbk a
        let free := !f.rscPulsed || (!f.rscHigh && decide (s.dev.fld cfg FBK_RSC_CFG_pw ≤ (s.dev.cluster (axCl a)).ref - f.rscLow))
        Yields (exec (.rscHit a) s) fun t => t.mem = s.mem ∧
          t.dev.fld (FBK_RSC_HITS a) FBK_RSC_HITS_rsc_hits =
            min (s.dev.fld (FBK_RSC_HITS a) FBK_RSC_HITS_rsc_hits + 1) (2 ^ FBK_RSC_HITS_rsc_hits.wid - 1) ∧
          t.dev.rd (FBK_RSC_CMP a) = s.dev.rd (FBK_RSC_CMP a) + s.dev.rd (FBK_RSC_STEP a) ∧
          (late = true → t.dev.flag cfg FBK_RSC_CFG_late = true) ∧
          (s.dev.flag cfg FBK_RSC_CFG_rem_en = true → t.dev.rd (FBK_RSC_REM a) = s.dev.rd (FBK_RSC_REM a) - 1 ∧
            (s.dev.rd (FBK_RSC_REM a) = 1 → t.dev.flag cfg FBK_RSC_CFG_rsc_en = false)) ∧
          (free = true → (t.dev.fbk a).rscHigh = true ∧ (t.dev.fbk a).rscRise = (s.dev.cluster (axCl a)).ref ∧ Pulsed (axCl a) (0x10 + axLo a) s.dev t.dev) ∧
          (free = false → t.dev.flag cfg FBK_RSC_CFG_overrun = true ∧ t.dev.fbk a = f) ∧ dueOf t ∧
          ChangesOnly [cfg, FBK_RSC_HITS a, FBK_RSC_REM a, FBK_RSC_CMP a] (fun x => x.noFbks.noCombs) s.dev t.dev) ∧
      (ends → Yields (exec (.rscPulseEnd a) s) fun t => t.mem = s.mem ∧ (t.dev.fbk a).rscHigh = false ∧
          (t.dev.fbk a).rscLow = (s.dev.cluster (axCl a)).ref ∧ ChangesOnly [] Dev.noFbks s.dev t.dev) ∧
      (¬ ends → Yields (exec (.rscPulseEnd a) s) fun t => t = s) ∧
      Yields (exec (.fbkRscCmpWrite w a v) s) (fun t => t.mem = s.mem ∧ t.dev.rd (FBK_RSC_CMP a) = v ∧ dueOf t ∧
        ChangesOnly [FBK_RSC_CMP a] Dev.noWindows s.dev t.dev) ∧
      (s.dev.sound cfg v → Yields (exec (.fbkRscCfgWrite w a v) s) fun t => t.mem = s.mem ∧ Wrote w cfg v s.dev t.dev ∧
        (s.dev.flag cfg FBK_RSC_CFG_rsc_en = false → fget FBK_RSC_CFG_rsc_en v = 1 →
          (t.dev.fbk a).rscPulsed = false ∧ dueOf t) ∧
        (fget FBK_RSC_CFG_rsc_en v = 0 → .rscHit a.val false ∉ t.dev.due ∧ .rscHit a.val true ∉ t.dev.due) ∧
        ChangesOnly [cfg] (fun x => x.noWindows.noFbks) s.dev t.dev) ∧
      ((v = 0 ∨ v.msb ≠ s.dev.flag cfg FBK_RSC_CFG_dir_rsc) → Yields (exec (.fbkRscStepWrite w a v) s) fun t => t.mem = s.mem ∧
        t.dev.flag (FBK_GSTAT (axCl a)) FBK_GSTAT_cfg_err = true ∧
        ChangesOnly [FBK_GSTAT (axCl a)] Dev.noWindows s.dev t.dev) ∧
      (v ≠ 0 → v.msb = s.dev.flag cfg FBK_RSC_CFG_dir_rsc → Yields (exec (.fbkRscStepWrite w a v) s) fun t => t.mem = s.mem ∧
        t.dev.rd (FBK_RSC_STEP a) = v ∧ ChangesOnly [FBK_RSC_STEP a] Dev.noWindows s.dev t.dev))

/-- Segments of an axis that is in no group: an ordinary end pulses, counts and reports; a waiting CHAIN segment starts
at that end, with none the axis underruns if it moved; TIME and EVENT segments start by their compare and their pulse
(R172 to R176). A GRP_START pulse starts the waiting step of a coordination group: every member starts its head segment
at one T0 (R182, R183); an axis with a bound ST ring takes records from it once 16 entries are free (R179, R351). It
rests on the model's choices in assumptions 4, 30, 49 and 72. -/
def Obligations.SegmentsGroupsAndStreams : Prop :=
  (
  ∀ (a : Fin 64) (s : State), s.dev.clusterRuns (axCl a) = true → s.dev.groupOf a = none →
    -- the running segment reaches T0 + dur
    (∀ r, (s.dev.interp a).run = some r → r.open_ = true ∨ s.dev.copy (axCl a) < r.t0 + r.seg.dur →
      Yields (exec (.segmentEnd a) s) fun t => t = s) ∧
    (∀ r, (s.dev.interp a).run = some r → r.open_ = false → r.t0 + r.seg.dur ≤ s.dev.copy (axCl a) → let pay := [r.seg.tag, r.t0 % 2 ^ 32, r.t0 / 2 ^ 32,
        (r.t0 + r.seg.dur) % 2 ^ 32, (r.t0 + r.seg.dur) / 2 ^ 32]
      Yields (exec (.segmentEnd a) s) fun t => t.mem = s.mem ∧ Pulsed (axCl a) (0x90 + axLo a) s.dev t.dev ∧
        t.dev.fld (AXS_SEG_DONE a) AXS_SEG_DONE_done =
          min (s.dev.fld (AXS_SEG_DONE a) AXS_SEG_DONE_done + 1) (2 ^ AXS_SEG_DONE_done.wid - 1) ∧
        (r.seg.notify = true → s.dev.takesEvent 0x0301 pay = true → t.dev.hasEvent 0x0301 (0x10 + axCl a) a pay) ∧
        (∀ g, s.dev.axSt a = stEnabled → s.dev.flag (AXS_STATE a) AXS_STATE_stopping = false →
          (s.dev.interp a).next = none → s.dev.headSeg a = some g →
          g.start = 0 → g.kind < 4 → SegStarted a (r.t0 + r.seg.dur) g (s.dev.endPos a r) s.dev t.dev) ∧
        ((s.dev.interp a).len = 0 → (t.dev.interp a).run = none ∧ (t.dev.interp a).outP = s.dev.endPos a r ∧
          (s.dev.endsMoving a r = true → t.dev.flag (AXS_SEG_STAT a) AXS_SEG_STAT_vel_step = true ∧
            t.dev.flag (AXS_SEG_STAT a) AXS_SEG_STAT_underrun = true)) ∧
        (∀ b, b ≠ a.val → t.dev.interp b = s.dev.interp b) ∧
        ChangesOnly [AXS_SEG_DONE a, AXS_SEG_STAT a, AXS_SEG_TAG a, AXS_SEG_T0_LO a] (fun x => x.noInterps.noCombs)
          s.dev t.dev) ∧
    -- a TIME start: matched, or in the past and late; with no match due nothing starts
    (∀ g, s.dev.headSeg a = some g → g.start = 2 → g.kind < 4 → s.dev.eligible a = true → (s.dev.interp a).run = none →
      (∀ late, .timeStart a.val late ∈ s.dev.due → (late = false → .timeStart a.val true ∉ s.dev.due) →
        Yields (exec (.timeStart a) s) fun t => t.mem = s.mem ∧
          SegStarted a (s.dev.copy (axCl a)) g (s.dev.interp a).outP s.dev t.dev ∧
          (late = true → t.dev.flag (AXS_SEG_STAT a) AXS_SEG_STAT_late = true) ∧
          ChangesOnly [AXS_SEG_STAT a, AXS_SEG_TAG a, AXS_SEG_T0_LO a] Dev.noInterps s.dev t.dev) ∧
      (.timeStart a.val true ∉ s.dev.due → .timeStart a.val false ∉ s.dev.due →
        Yields (exec (.timeStart a) s) fun t => t = s)) ∧
    -- a pulse on SEG_START starts a waiting EVENT segment, is latched for an early one, or else only shows in seen
    (∀ g, s.dev.headSeg a = some g → g.start = 1 → g.kind < 4 → s.dev.eligible a = true → (s.dev.interp a).run = none →
      Yields (exec (.segStart a) s) fun t => t.mem = s.mem ∧
        SegStarted a (s.dev.copy (axCl a)) g (s.dev.interp a).outP s.dev t.dev ∧
        ChangesOnly [AXS_SEG_STAT a, AXS_SEG_TAG a, AXS_SEG_T0_LO a, FLX_ROUTE (axCl a) (axLo a)] Dev.noInterps s.dev t.dev) ∧
    (s.dev.eligible a = false → Yields (exec (.segStart a) s) fun t => t.mem = s.mem ∧ t.dev.interps = s.dev.interps ∧
        (s.dev.earlyQueued a = true → t.dev.flag (AXS_SEG_STAT a) AXS_SEG_STAT_early = true) ∧
        ChangesOnly ([FLX_ROUTE (axCl a) (axLo a)] ++ if s.dev.earlyQueued a then [AXS_SEG_STAT a] else []) id s.dev t.dev)) ∧
  (
  (∀ (g : Fin 32) (l : Nat) (sg : Seg) (s : State), s.dev.clusterRuns (g.val / 8) = true → (s.dev.members g).Nodup →
    (∀ m ∈ s.dev.members g, (s.dev.interp m).run = none ∧ ∃ x, s.dev.headSeg m = some x ∧ x.kind < 4) →
    s.dev.leaderSeg g = some (l, sg) → sg.start = 1 →
    Yields (exec (.grpStart g) s) fun t => t.mem = s.mem ∧
      -- a T0 that lies ahead of a member is kept until then
      (∀ m ∈ s.dev.members g, s.dev.copy (axCl m) < s.dev.padded g (s.dev.homeTime g) →
        (t.dev.interp m).next = some (s.dev.padded g (s.dev.homeTime g)) ∧ (t.dev.interp m).run = none ∧
        (t.dev.interp m).len = (s.dev.interp m).len) ∧
      (∀ m ∈ s.dev.members g, s.dev.padded g (s.dev.homeTime g) ≤ s.dev.copy (axCl m) → ∃ x, s.dev.headSeg m = some x ∧
        SegStarted m (s.dev.padded g (s.dev.homeTime g)) x (s.dev.interp m).outP s.dev t.dev) ∧
      (∀ m, m ∉ s.dev.members g → t.dev.interp m = s.dev.interp m) ∧
      t.dev.gstOf g = 1 ∧
      t.dev.fld (FLX_GRP_STAT g) FLX_GRP_STAT_steps =
        min (s.dev.fld (FLX_GRP_STAT g) FLX_GRP_STAT_steps + 1) (2 ^ FLX_GRP_STAT_steps.wid - 1) ∧
      ((∃ m ∈ s.dev.members g, (s.dev.headSeg m).map Seg.dur ≠ some sg.dur) →
        t.dev.flag (FLX_GRP_STAT g) FLX_GRP_STAT_dur_mismatch = true)) ∧
  (∀ (a : Fin 64) (s : State), s.dev.clusterRuns (axCl a) = true → s.dev.groupOf a = none → s.dev.axSt a ≠ stEnabled →
    let r := s.dev.streamRing a
    let g := segOf (s.mem.hostSpan (s.dev.ringBase r + 32 * s.dev.ringHead r) 32)
    s.dev.streamed a = true → s.dev.isRing r tyST = true → s.dev.ringBad r = false → s.dev.ringDel r = false →
    s.dev.hostOk = true → (s.dev.interp a).len ≤ 48 → s.dev.ringUsed r ≠ 0 → s.dev.ringTail r ≠ s.dev.ringHead r →
    (s.dev.segCheck a g = none → Yields (exec (.stRefill a) s) fun t => t.mem.bytes = s.mem.bytes ∧ t.mem.tags = s.mem.tags ∧
      t.dev.segAt a ((s.dev.interp a).head + (s.dev.interp a).len) = g ∧ (t.dev.interp a).head = (s.dev.interp a).head ∧
      (s.dev.interp a).len < (t.dev.interp a).len ∧ (t.dev.interp a).len ≤ (s.dev.interp a).len + 16 ∧
      ∀ b, b ≠ a.val → t.dev.interp b = s.dev.interp b) ∧
    (s.dev.segCheck a g ≠ none → Yields (exec (.stRefill a) s) fun t => t.mem.bytes = s.mem.bytes ∧ t.mem.tags = s.mem.tags ∧
      t.dev.flag (AXS_SEG_STAT a) AXS_SEG_STAT_seg_err = true ∧ t.dev.streamed a = false ∧ t.dev.interps = s.dev.interps ∧
      t.dev.bank15 = s.dev.bank15)))

/-- Captures and combiners of the Flux matrix: a capture stores the live counter and device time; a combiner fires once
its condition has become true while armed, clears its latches, and disarms if one_shot (R190, R192). Imports, software
fire, position windows and group tables of the Flux matrix (R181, R189, R191, R192, R194). It rests on the model's
choices in assumptions 4 and 13. -/
def Obligations.FluxCapturesCombinersSettings : Prop :=
  (
    (∀ (k : Fin 64) (s : State), s.dev.clusterRuns (k.val / 16) = true →
      let c := k.val / 16
      let i := k.val % 16
      let cfg := FLX_CAP_CFG c i
      (s.dev.fldIf cfg FLX_CAP_CFG_en ≠ 0 → Yields (exec (.cap k) s) fun t => t.mem = s.mem ∧
        t.dev.rd (FLX_CAP_POS c i) = s.dev.rd (FBK_POS (c * 16 + s.dev.fld cfg FLX_CAP_CFG_cap_axis)) ∧
        t.dev.wide64 (FLX_CAP_T_LO c i) = s.dev.copy c ∧ t.dev.flag cfg FLX_CAP_CFG_full = true ∧
        (s.dev.flag cfg FLX_CAP_CFG_full = true → t.dev.flag cfg FLX_CAP_CFG_ovr = true) ∧
        ChangesOnly [cfg, FLX_CAP_POS c i, FLX_CAP_T_LO c i, FLX_ROUTE c (0x40 + i)] id s.dev t.dev) ∧
      (s.dev.fldIf cfg FLX_CAP_CFG_en = 0 → Yields (exec (.cap k) s) fun t => t.mem = s.mem ∧
        ChangesOnly [FLX_ROUTE c (0x40 + i)] id s.dev t.dev) ∧
      Yields (exec (.flxCapTHiSnapRead k) s) fun t => t.mem = s.mem ∧ t.dev.rdata = s.dev.rd (FLX_CAP_T_HI_SNAP c i) ∧
        t.dev.flag cfg FLX_CAP_CFG_full = false ∧ ChangesOnly [cfg] Dev.noRdata s.dev t.dev) ∧
    (∀ (k : Fin 32) (s : State), s.dev.clusterRuns (k.val / 8) = true →
      let c := k.val / 8
      let i := k.val % 8
      let cfg := FLX_COMB_CFG c i
      let rearmed := fun (t : State) => t.mem = s.mem ∧ t.dev.flag cfg FLX_COMB_CFG_armed = true ∧ (t.dev.comb k).latch = 0 ∧
        ((s.dev.comb k).firedAt ≠ some s.dev.now → t.dev.flag cfg FLX_COMB_CFG_en = true → t.dev.combCond k = true →
          (s.dev.comb k).held = false → .combiner c i ∈ t.dev.due ∧ (t.dev.comb k).trueAt = s.dev.now) ∧
        ((s.dev.comb k).firedAt = some s.dev.now → (.combiner c i ∈ t.dev.due ↔ .combiner c i ∈ s.dev.due))
      -- R190: COMB pulses one ccyc after the condition became true
      let fires := .combiner c i ∈ s.dev.due ∧ (s.dev.comb k).trueAt < s.dev.now
      Yields (exec (.combArm k) s) (fun t => rearmed t ∧ ChangesOnly [cfg, FLX_ROUTE c (0x74 + i)] Dev.noCombs s.dev t.dev) ∧
      (∀ (w : Writer) (v : Word), fget FLX_COMB_CFG_rearm v = 1 → s.dev.sound cfg v →
        Yields (exec (.combRearm w k v) s) fun t => rearmed t ∧ t.dev.fld cfg FLX_COMB_CFG_en = fget FLX_COMB_CFG_en v ∧
          ChangesOnly [cfg] (fun x => x.noWindows.noCombs) s.dev t.dev) ∧
      (fires → Yields (exec (.combinerFire k) s) fun t => t.mem = s.mem ∧
        t.dev.flag cfg FLX_COMB_CFG_fired = true ∧ (t.dev.comb k).firedAt = some s.dev.now ∧
        t.dev.flag cfg FLX_COMB_CFG_armed = (s.dev.flag cfg FLX_COMB_CFG_armed &&
          (!s.dev.flag cfg FLX_COMB_CFG_one_shot || (s.dev.comb k).armAt == some s.dev.now)) ∧
        Pulsed c (0xF0 + i) s.dev t.dev ∧ ChangesOnly [cfg] Dev.noCombs s.dev t.dev) ∧
      (¬ fires → Yields (exec (.combinerFire k) s) fun t => t = s))) ∧
  (
    -- an exported pulse pulses every import that selects it; a halted cluster discards and counts it
    (∀ (tgt src : Fin 4) (k : Fin 8) (s : State), .exported src.val k.val tgt.val ∉ s.dev.due →
      Yields (exec (.importPulse tgt src k) s) fun t => t = s) ∧
    (∀ (tgt src : Fin 4) (k : Fin 8) (s : State), .exported src.val k.val tgt.val ∈ s.dev.due →
      (s.dev.clusterRuns tgt = true → Yields (exec (.importPulse tgt src k) s) fun t => t.mem = s.mem ∧
        (∀ j < 8, s.dev.fldIf (FLX_IMPORT tgt j) FLX_IMPORT_en = 1 → s.dev.fldIf (FLX_IMPORT tgt j) FLX_IMPORT_cl = src.val →
          s.dev.fldIf (FLX_IMPORT tgt j) FLX_IMPORT_exp = k.val → Pulsed tgt (0xF8 + j) s.dev t.dev) ∧
        ChangesOnly [] Dev.noCombs s.dev t.dev) ∧
      ((s.dev.cluster tgt).halted = true → Yields (exec (.importPulse tgt src k) s) fun t => t.mem = s.mem ∧
        t.dev.due = s.dev.due.erase (.exported src.val k.val tgt.val) ∧
        t.dev.fld GLB_CLK_STAT GLB_CLK_STAT_flux_drop =
          min (s.dev.fld GLB_CLK_STAT GLB_CLK_STAT_flux_drop + 1) (2 ^ GLB_CLK_STAT_flux_drop.wid - 1) ∧
        ChangesOnly [GLB_CLK_STAT] id s.dev t.dev)) ∧
    (∀ (w : Writer) (c : Fin 4) (v : Word) (s : State), s.dev.clusterRuns c = true →
      Yields (exec (.flxSwfire w c v) s) fun t => t.mem = s.mem ∧
        (∀ n < 4, v.toNat.testBit n = true → Pulsed c (0xC8 + n) s.dev t.dev) ∧
        ChangesOnly [FLX_SWFIRE c, FLX_UNLOCK c] (fun x => x.noWindows.noCombs) s.dev t.dev) ∧
    (∀ (w : Writer) (c : Fin 4) (k : Fin 8) (v : Word) (s : State), s.dev.clusterRuns c = true →
      let bad := decide (fget FLX_IMPORT_en v = 1) && (decide (fget FLX_IMPORT_cl v = c.val) || !s.dev.hasCluster (fget FLX_IMPORT_cl v))
      (bad = true → Yields (exec (.flxImportWrite w c k v) s) fun t => t.mem = s.mem ∧
        t.dev.flag (FLX_STAT c) FLX_STAT_cfg_err = true ∧ ChangesOnly [FLX_STAT c] Dev.noWindows s.dev t.dev) ∧
      (bad = false → Yields (exec (.flxImportWrite w c k v) s) fun t => t.mem = s.mem ∧
        Wrote w (FLX_IMPORT c k) v s.dev t.dev ∧ ChangesOnly [FLX_IMPORT c k, FLX_UNLOCK c] Dev.noWindows s.dev t.dev)) ∧
    -- windows: setting en evaluates the window as a change from outside, clearing it offers the level outside
    (∀ (w : Writer) (a : Fin 64) (v : Word) (s : State), s.dev.clusterRuns (axCl a) = true →
      let cfg := FLX_WIN_CFG a
      s.dev.sound cfg v → Yields (exec (.flxWinWrite w a 0 v) s) fun t => t.mem = s.mem ∧
        t.dev.fld cfg FLX_WIN_CFG_en = fget FLX_WIN_CFG_en v ∧ t.dev.fld cfg FLX_WIN_CFG_mode = fget FLX_WIN_CFG_mode v ∧
        (s.dev.flag cfg FLX_WIN_CFG_en = false → fget FLX_WIN_CFG_en v = 1 → s.dev.flag cfg FLX_WIN_CFG_inside = false →
          t.dev.flag cfg FLX_WIN_CFG_inside = s.dev.winInside a ∧
          (s.dev.winInside a = true → (fget FLX_WIN_CFG_mode v).testBit 0 = true →
            t.dev.flag cfg FLX_WIN_CFG_late = true ∧ Pulsed (axCl a) (axLo a) s.dev t.dev)) ∧
        (s.dev.flag cfg FLX_WIN_CFG_en = true → fget FLX_WIN_CFG_en v = 0 → t.dev.flag cfg FLX_WIN_CFG_inside = false) ∧
        ChangesOnly [cfg, FLX_WIN_CNT a] (fun x => x.noWindows.noCombs) s.dev t.dev) ∧
    -- windows: a write of a limit evaluates an enabled window, and a change that its mode includes pulses late
    (∀ (w : Writer) (a : Fin 64) (r : Fin 3) (v : Word) (s : State), s.dev.clusterRuns (axCl a) = true → r ≠ 0 →
      let addr := if r = 1 then FLX_WIN_LO a else FLX_WIN_HI a
      let cfg := FLX_WIN_CFG a
      Yields (exec (.flxWinWrite w a r v) s) fun t => t.mem = s.mem ∧ Wrote w addr v s.dev t.dev ∧
        (s.dev.fldIf cfg FLX_WIN_CFG_en ≠ 0 → t.dev.flag cfg FLX_WIN_CFG_inside = t.dev.winInside a ∧
          (s.dev.flag cfg FLX_WIN_CFG_inside ≠ t.dev.winInside a →
            (s.dev.fld cfg FLX_WIN_CFG_mode).testBit (if t.dev.winInside a then 0 else 1) = true →
            t.dev.flag cfg FLX_WIN_CFG_late = true ∧ Pulsed (axCl a) (axLo a) s.dev t.dev)) ∧
        (s.dev.fldIf cfg FLX_WIN_CFG_en = 0 → t.dev.rd cfg = s.dev.rd cfg) ∧
        ChangesOnly [addr, cfg, FLX_WIN_CNT a, FLX_UNLOCK (axCl a)] (fun x => x.noWindows.noCombs) s.dev t.dev) ∧
    -- a group table that is no table is refused, and one whose members are active is locked
    (∀ (w : Writer) (g : Fin 32) (r : Fin 3) (v : Word) (s : State), s.dev.clusterRuns (g.val / 8) = true →
      let addr := if r = 0 then FLX_GRP_CFG g else if r = 1 then FLX_GRP_MEM_LO g else FLX_GRP_MEM_HI g
      let res := s.dev.grpCheck g (if r = 0 then v else s.dev.rd (FLX_GRP_CFG g)) (if r = 1 then v else s.dev.rd (FLX_GRP_MEM_LO g))
        (if r = 2 then v else s.dev.rd (FLX_GRP_MEM_HI g))
      s.dev.accepts w addr = true →
      (res = 1 → Yields (exec (.flxGrpWrite w g r v) s) fun t => t.mem = s.mem ∧
        t.dev.flag (FLX_STAT (g.val / 8)) FLX_STAT_cfg_err = true ∧
        ChangesOnly [FLX_STAT (g.val / 8)] Dev.noWindows s.dev t.dev) ∧
      (res = 2 → Yields (exec (.flxGrpWrite w g r v) s) fun t => t.mem = s.mem ∧
        t.dev.flag (FLX_STAT (g.val / 8)) FLX_STAT_adm_lock = true ∧
        ChangesOnly [FLX_STAT (g.val / 8)] Dev.noWindows s.dev t.dev) ∧
      (res = 0 → Yields (exec (.flxGrpWrite w g r v) s) fun t => t.mem = s.mem ∧
        (r ≠ 0 → t.dev.rd addr = v &&& 0x3F3F3F3F) ∧
        (r = 0 → t.dev.fld addr FLX_GRP_CFG_mem_en = fget FLX_GRP_CFG_mem_en v ∧ t.dev.fld addr FLX_GRP_CFG_en = fget FLX_GRP_CFG_en v) ∧
        t.dev.flag (FLX_GRP_CFG g) FLX_GRP_CFG_span = (t.dev.members g).any (fun a => axCl a != axCl ((t.dev.members g).headD 0)) ∧
        ChangesOnly [addr, FLX_GRP_CFG g] Dev.noWindows s.dev t.dev)))

/-- Counts, matches and inputs of the timers: an overflow and a match set their flags and pulse the timer's source by
fsrc; an input acts by the role of the timer (R196 to R201, R204). GPIO edges, register writes, reads and snapshots of
the timers (R198, R200, R202, R203, R205, R207 to R209, R211). It rests on the model's choices in assumptions 33 and 73. -/
def Obligations.TimerEventsAndRegisters : Prop :=
  (
    ∀ (t : Fin 128) (s : State), s.dev.clusterRuns (tmCl t) = true →
      let st := TMR_STAT t
      let src := 0xA0 + t.val % 32
      let top := (s.dev.rd (TMR_TOP t)).toNat
      let high := if top ≤ s.dev.tmCnt t then s.dev.tmNext (t.val + 1) else s.dev.tmCnt (t.val + 1)
      -- no other timer takes its events
      let lone := ∀ x ∈ s.dev.tmListed (tmCl t), s.dev.tmCfg x TMR_CFG_isel = 1 → s.dev.tmCfg x TMR_CFG_imst ≠ t.val % 32
      let hitO := (s.dev.tmr t).hit.any TmHit.o
      let hitX := fun (isB : Bool) => (s.dev.tmr t).hit.any fun h => if isB then h.b else h.a
      -- the events of an increment in this ccyc, and the matches that evaluations have left due, act together
      (hitO = true → Yields (exec (.timerOverflow t) s) fun u => u.mem = s.mem ∧ u.dev.flag st TMR_STAT_ovf = true ∧
        (u.dev.tmr t).hit = none ∧ (∀ isB x, .tmrMatch t isB x ∉ u.dev.due) ∧
        (∀ isB, hitX isB = true ∨ (∃ x, .tmrMatch t isB x ∈ s.dev.due) →
          u.dev.flag st (if isB then TMR_STAT_match_b else TMR_STAT_match_a) = true) ∧
        (2 ≤ s.dev.fld (TMR_OUT t) TMR_OUT_fsrc → Pulsed (tmCl t) src s.dev u.dev) ∧
        (lone → (s.dev.tmCfg t TMR_CFG_opm = 1 → (s.dev.tmr t).startAt = none → u.dev.flag (TMR_CFG t) TMR_CFG_run = false) ∧
          ChangesOnly (TMR_CFG t :: gateRegs (tmCl t)) (fun x => x.noTimers.noCombs) s.dev u.dev)) ∧
      -- the increment from top that comes next
      (hitO = false → s.dev.tmReady t = true → top ≤ s.dev.tmCnt t → Yields (exec (.timerOverflow t) s) fun u => u.mem = s.mem ∧
        u.dev.flag st TMR_STAT_ovf = true ∧ (u.dev.tmr t).ahead = true ∧
        (s.dev.rd (TMR_CMPB t) = 0 → u.dev.flag st TMR_STAT_match_b = true) ∧
        (s.dev.tmWide t = false → s.dev.rd (TMR_CMPA t) = 0 → u.dev.flag st TMR_STAT_match_a = true) ∧
        (2 ≤ s.dev.fld (TMR_OUT t) TMR_OUT_fsrc → Pulsed (tmCl t) src s.dev u.dev) ∧
        (lone → u.dev.rd (TMR_CNT t) = 0 ∧ (u.dev.tmr t).carry = s.dev.tmIsLow t ∧
          (s.dev.tmCfg t TMR_CFG_opm = 1 → (s.dev.tmr t).startAt = none → u.dev.flag (TMR_CFG t) TMR_CFG_run = false) ∧
          ChangesOnly (gateRegs (tmCl t) ++ [TMR_CNT t, TMR_CFG t]) (fun x => x.noTimers.noCombs) s.dev u.dev)) ∧
      (hitO = false → s.dev.tmReady t = false ∨ s.dev.tmCnt t < top → Yields (exec (.timerOverflow t) s) fun u => u = s) ∧
      -- a match by counting, or one that an evaluation left due
      (∀ isB, hitX isB = true ∨ (∃ x, .tmrMatch t isB x ∈ s.dev.due) →
        Yields (exec (.timerMatch t isB) s) fun u => u.mem = s.mem ∧
          u.dev.flag st (if isB then TMR_STAT_match_b else TMR_STAT_match_a) = true ∧
          (.tmrMatch t isB true ∈ s.dev.due → u.dev.flag st (if isB then TMR_STAT_late_b else TMR_STAT_late_a) = true) ∧
          (u.dev.tmr t).hit = none ∧ (∀ x y, .tmrMatch t x y ∉ u.dev.due) ∧
          (s.dev.fld (TMR_OUT t) TMR_OUT_fsrc = b2n isB ∨ s.dev.fld (TMR_OUT t) TMR_OUT_fsrc = 3 →
            Pulsed (tmCl t) src s.dev u.dev) ∧
          (lone → u.dev.rd (TMR_CNT t) = s.dev.rd (TMR_CNT t) ∧
            ChangesOnly (TMR_CFG t :: gateRegs (tmCl t)) (fun x => x.noTimers.noCombs) s.dev u.dev)) ∧
      -- the match of the increment that comes next
      (∀ isB, hitX isB = false → (∀ x, .tmrMatch t isB x ∉ s.dev.due) → s.dev.tmReady t = true →
        (if isB = false ∧ s.dev.tmWide t = true then s.dev.tmNext t + high * 2 ^ 32 = s.dev.tmCmp64 t
          else s.dev.tmNext t = (s.dev.rd (if isB then TMR_CMPB t else TMR_CMPA t)).toNat) →
        Yields (exec (.timerMatch t isB) s) fun u => u.mem = s.mem ∧
          u.dev.flag st (if isB then TMR_STAT_match_b else TMR_STAT_match_a) = true ∧ (u.dev.tmr t).ahead = true ∧
          (lone → u.dev.tmCnt t = s.dev.tmNext t ∧
            ChangesOnly (gateRegs (tmCl t) ++ [TMR_CNT t, TMR_CFG t]) (fun x => x.noTimers.noCombs) s.dev u.dev)) ∧
      (∀ isB, hitX isB = false → (∀ x, .tmrMatch t isB x ∉ s.dev.due) → s.dev.tmReady t = false →
        Yields (exec (.timerMatch t isB) s) fun u => u = s) ∧
      -- the input: START, STOP, RESET, TRIGGER and CAPTURE
      (s.dev.tmCfg t TMR_CFG_isel ≠ 0 ∨ s.dev.tmCfg t TMR_CFG_en = 0 ∨ s.dev.tmIsHigh t = true ∨ (s.dev.tmr t).cntAt = some s.dev.now →
        Yields (exec (.tmrIn t) s) fun u => u.mem = s.mem ∧
        ChangesOnly [FLX_ROUTE (tmCl t) (0x20 + t.val % 32)] id s.dev u.dev) ∧
      (s.dev.tmCfg t TMR_CFG_isel = 0 → s.dev.tmCfg t TMR_CFG_en ≠ 0 → s.dev.tmIsHigh t = false →
        (s.dev.tmr t).cntAt ≠ some s.dev.now →
        Yields (exec (.tmrIn t) s) fun u => u.mem = s.mem ∧
          -- R208: a write of run in this ccyc wins
          let free := (s.dev.tmr t).cfgAt ≠ some s.dev.now
          let role := s.dev.tmCfg t TMR_CFG_irole
          (free → role = 2 ∨ role = 5 → u.dev.tmCfg t TMR_CFG_run = 1) ∧
          (free → role = 3 → u.dev.flag (TMR_CFG t) TMR_CFG_run = false) ∧
          (¬ free → role ≠ 6 → u.dev.tmCfg t TMR_CFG_run = s.dev.tmCfg t TMR_CFG_run) ∧
          (role = 4 ∨ role = 5 → u.dev.rd (TMR_CNT t) = 0 ∧ (u.dev.tmr t).phase = 0) ∧
          (role = 2 ∨ role = 3 → u.dev.rd (TMR_CNT t) = s.dev.rd (TMR_CNT t)) ∧
          (role = 7 → u.dev.rd (TMR_CAP t) = s.dev.rd (TMR_CNT t) ∧ u.dev.flag st TMR_STAT_cap_full = true ∧
            (s.dev.flag st TMR_STAT_cap_full = true → u.dev.flag st TMR_STAT_cap_ovr = true)) ∧
          (role = 6 → s.dev.tmCounts t = true → (s.dev.rd (TMR_CNT t)).toNat < (s.dev.rd (TMR_TOP t)).toNat →
            (s.dev.tmListed (tmCl t)).all (fun x => s.dev.tmCfg x TMR_CFG_isel != 1) = true →
            u.dev.rd (TMR_CNT t) = s.dev.rd (TMR_CNT t) + 1))) ∧
  (
    (∀ (c : Fin 4) (b : Fin 16) (rising : Bool) (s : State), s.dev.clusterRuns c = true →
      -- a ball that the device drives, and a level that it has already
      ((s.dev.ballDrives c b).isSome = true ∨ s.dev.ballIn c b = rising → Yields (exec (.timerInputEdge c b rising) s) fun u => u = s) ∧
      (s.dev.ballDrives c b = none → s.dev.ballIn c b ≠ rising → Yields (exec (.timerInputEdge c b rising) s) fun u => u.mem = s.mem ∧
        (u.dev.fld (TMR_GPIO_IN c) TMR_GPIO_IN_in).testBit b = rising ∧
        (∀ i, i ≠ b.val → (u.dev.fld (TMR_GPIO_IN c) TMR_GPIO_IN_in).testBit i = (s.dev.fld (TMR_GPIO_IN c) TMR_GPIO_IN_in).testBit i) ∧
        ∀ x ∈ s.dev.tmListed c, s.dev.tmCfg x TMR_CFG_isel = (if rising then 2 else 3) → s.dev.tmCfg x TMR_CFG_imst = b.val →
          s.dev.tmCfg x TMR_CFG_irole = 7 → s.dev.tmIsHigh x = false → (s.dev.tmr x).cntAt ≠ some s.dev.now →
          u.dev.rd (TMR_CAP x) = s.dev.rd (TMR_CNT x) ∧ u.dev.flag (TMR_STAT x) TMR_STAT_cap_full = true)) ∧
    (∀ (w : Writer) (t : Fin 128) (v : Word) (s : State), s.dev.clusterRuns (tmCl t) = true →
      Yields (exec (.tmrCntWrite w t v) s) (fun u => u.mem = s.mem ∧ u.dev.rd (TMR_CNT t) = v ∧ TmrEvaluated t false u.dev ∧
        TmrEvaluated t true u.dev ∧ (u.dev.tmr t).cntAt = some s.dev.now ∧
        (∀ h, (u.dev.tmr t).hit = some h → h.ccyc ≠ s.dev.now) ∧ ChangesOnly [TMR_CNT t] Dev.noTimers s.dev u.dev) ∧
      (∀ isB, let addr := if isB then TMR_CMPB t else TMR_CMPA t
        Yields (exec (.tmrCmpWrite w t isB v) s) fun u => u.mem = s.mem ∧ u.dev.rd addr = v ∧
          ((isB = false → s.dev.tmIsHigh t = true → s.dev.tmWide (t.val - 1) = true → u.dev.due = s.dev.due) ∧
           (isB = true ∨ s.dev.tmIsHigh t = false ∨ s.dev.tmWide (t.val - 1) = false → TmrEvaluated t isB u.dev)) ∧
          ChangesOnly [addr] Dev.noTimers s.dev u.dev) ∧
      Yields (exec (.tmrOutWrite w t v) s) (fun u => u.mem = s.mem ∧ Wrote w (TMR_OUT t) v s.dev u.dev ∧
        u.dev.flag (TMR_STAT t) TMR_STAT_out = (match fget TMR_OUT_out_set v, fget TMR_OUT_out_clr v with
          | 0, 0 => s.dev.flag (TMR_STAT t) TMR_STAT_out
          | 0, _ => false
          | _, 0 => true
          | _, _ => !s.dev.flag (TMR_STAT t) TMR_STAT_out) ∧
        ChangesOnly (TMR_OUT t :: gateRegs (tmCl t)) id s.dev u.dev) ∧
      (tmrReserved t v = true → Yields (exec (.tmrCfgWrite w t v) s) fun u => u.mem = s.mem ∧
        u.dev.flag (TMR_GSTAT (tmCl t)) TMR_GSTAT_cfg_err = true ∧ ChangesOnly [TMR_GSTAT (tmCl t)] id s.dev u.dev) ∧
      (tmrReserved t v = false → Yields (exec (.tmrCfgWrite w t v) s) fun u => u.mem = s.mem ∧ Wrote w (TMR_CFG t) v s.dev u.dev ∧
        (fget TMR_CFG_en v = 0 → s.dev.tmIsHigh t = false → ∀ isB x, .tmrMatch t isB x ∉ u.dev.due) ∧
        (fget TMR_CFG_run v = 1 → s.dev.flag (TMR_CFG t) TMR_CFG_run = false → (u.dev.tmr t).phase = 0) ∧
        u.dev.rd (TMR_CNT t) = s.dev.rd (TMR_CNT t) ∧
        ChangesOnly (gateRegs (tmCl t) ++ [TMR_CFG t, TMR_HI_SNAP t]) Dev.noTimers s.dev u.dev)) ∧
    (∀ (t : Fin 128) (s : State), s.dev.clusterRuns (tmCl t) = true →
      Yields (exec (.tmrCntRead t) s) (fun u => u.mem = s.mem ∧ u.dev.rdata = s.dev.rd (TMR_CNT t) ∧
        (s.dev.tmIsLow t = true → u.dev.rd (TMR_HI_SNAP t) = w32 (s.dev.tmHigh t)) ∧
        (s.dev.tmIsLow t = false → ChangesOnly [] Dev.noRdata s.dev u.dev) ∧
        ChangesOnly [TMR_HI_SNAP t] Dev.noRdata s.dev u.dev) ∧
      Yields (exec (.tmrCapRead t) s) (fun u => u.mem = s.mem ∧ u.dev.rdata = s.dev.rd (TMR_CAP t) ∧
        (s.dev.tmIsLow t = false → u.dev.flag (TMR_STAT t) TMR_STAT_cap_full = false) ∧
        (s.dev.tmIsHigh t = true → u.dev.flag (TMR_STAT (t.val - 1)) TMR_STAT_cap_full = false) ∧
        (s.dev.tmIsLow t = true → ChangesOnly [] Dev.noRdata s.dev u.dev) ∧
        ChangesOnly [TMR_STAT t, TMR_STAT (t.val - 1)] Dev.noRdata s.dev u.dev)) ∧
    (∀ (w : Writer) (c : Fin 4) (s : State), s.dev.clusterRuns c = true →
      -- the request clears done, and the copy of the next ccyc sets it (R207)
      Yields (exec (.tmrSnap w c) s) (fun u => u.mem = s.mem ∧ u.dev.flag (TMR_SNAP_CTL c) TMR_SNAP_CTL_done = false ∧
        ChangesOnly [TMR_SNAP_CTL c] id s.dev u.dev) ∧
      (let u := tmrSnapTick c s.dev
        let still := s.dev.flag (TMR_SNAP_CTL c) TMR_SNAP_CTL_done = true ∨ ∃ e ∈ s.dev.timers.entries, tmCl e.1 = c.val ∧ e.2.carry = true
        (still → u = s.dev) ∧
        (¬ still → (∀ i < 32, u.rd (TMR_SNAP (c.val * 32 + i)) = s.dev.rd (TMR_CNT (c.val * 32 + i))) ∧
          u.wide64 (TMR_SNAP_T_LO c) = s.dev.copy c ∧ u.flag (TMR_SNAP_CTL c) TMR_SNAP_CTL_done = true ∧
          ChangesOnly ((List.range 32).map (fun i => TMR_SNAP (c.val * 32 + i)) ++ [TMR_SNAP_T_LO c, TMR_SNAP_CTL c])
            (fun x => x.noWaits.noCpls) s.dev u)) ∧
      ∀ (n : Fin 16) (v : Word),
        (gpioOk n v = true → Yields (exec (.tmrGpioCfgWrite w c n v) s) fun u => u.mem = s.mem ∧
          Wrote w (TMR_GPIO_CFG c n) v s.dev u.dev ∧ ChangesOnly [TMR_GPIO_CFG c n] id s.dev u.dev) ∧
        (gpioOk n v = false → Yields (exec (.tmrGpioCfgWrite w c n v) s) fun u => u.mem = s.mem ∧
          u.dev.flag (TMR_GSTAT c) TMR_GSTAT_cfg_err = true ∧ ChangesOnly [TMR_GSTAT c] id s.dev u.dev)))

/-- Chasing-engine instructions that complete in their row: NOP, COUNT, EMIT, LATCH, CRCSTEP, LDF and CLR, with BRANCH
(R216, R218, R219). It rests on the model's choices in assumption 34. -/
def Obligations.EngineInstructions : Prop :=
  ∀ e : Fin 32,
    let lc := fun (d : Dev) => d.fld (CHS_LC e) CHS_LC_lc
    engDoes (.chsNop e) e 0x0 anySub [] Dev.noEngs (fun _ _ _ => True) ∧
    engDoes (.countLoad e) e 0x4 (fun w => bits w 15 14 == 0) [CHS_LC e, CHS_STAT e] Dev.noEngs (fun w _ t =>
      lc t.dev = bits w 11 0 ∧ t.dev.flag (CHS_STAT e) CHS_STAT_z = decide (lc t.dev = 0)) ∧
    engDoes (.countDecrement e) e 0x4 (fun w => bits w 15 14 == 1) [CHS_LC e, CHS_STAT e] Dev.noEngs (fun _ s t =>
      lc t.dev = lc s.dev - 1 ∧ t.dev.flag (CHS_STAT e) CHS_STAT_z = decide (lc t.dev = 0)) ∧
    engDoes (.countWait e) e 0x4 (fun w => bits w 15 14 == 2) [CHS_LC e, CHS_STAT e] Dev.noEngs (fun _ s t =>
      lc t.dev = lc s.dev ∧ t.dev.flag (CHS_STAT e) CHS_STAT_z = decide (lc t.dev = 0)) ∧
    engDoes (.emit e) e 0x5 anySub [CHS_STAT e] (fun x => x.noEngs.noCombs) (fun w s t =>
      (w.testBit 1 = true → t.dev.flag (CHS_STAT e) CHS_STAT_irq = true) ∧
      (w.testBit 0 = true → Pulsed (egCl e) (0xC0 + e.val % 8) s.dev t.dev)) ∧
    engDoes (.latch e) e 0x6 (fun w => !bit w 1) [] Dev.noEngs (fun w s t =>
      w.testBit 0 = true → (t.dev.eng e).stamp = s.dev.copy (egCl e)) ∧
    (∀ (s : State) (w : Nat), EngReady s.dev e w → w / 2 ^ 20 = 6 → w.testBit 1 = true →
      Yields (exec (.latch e) s) fun t => t.mem = s.mem ∧ EngStep e w s.dev t.dev ∧
        t.dev.rd (CHS_POS_WORD e) = w32 (s.dev.frm e / 2 ^ bits w 12 8) ∧
        t.dev.wide64 (CHS_POS_T_LO e) = (if w.testBit 0 then s.dev.copy (egCl e) else (s.dev.eng e).stamp) ∧
        t.dev.flag (CHS_POS_STAT e) CHS_POS_STAT_valid = (!s.dev.flag (CHS_STAT e) CHS_STAT_m &&
          (!w.testBit 2 || s.dev.flag (CHS_STAT e) CHS_STAT_c))) ∧
    engDoes (.crcstepInit e) e 0x7 (fun w => bits w 1 0 == 0) [CHS_STAT e] Dev.noEngs (fun _ s t =>
      t.dev.flag (CHS_STAT e) CHS_STAT_c = false ∧ (t.dev.eng e).feed = false ∧ (t.dev.eng e).crc =
        s.dev.fld (CHS_CRC_VAL e) CHS_CRC_VAL_crc_init % 2 ^ s.dev.fld (CHS_CRC_CFG e) CHS_CRC_CFG_width) ∧
    engDoes (.crcstepFeed e) e 0x7 (fun w => bits w 1 0 == 1) [] Dev.noEngs (fun _ s t =>
      (t.dev.eng e).feed = true ∧ (t.dev.eng e).crc = (s.dev.eng e).crc) ∧
    engDoes (.crcstepHalt e) e 0x7 (fun w => bits w 1 0 == 2) [] Dev.noEngs (fun _ s t =>
      (t.dev.eng e).feed = false ∧ (t.dev.eng e).crc = (s.dev.eng e).crc) ∧
    engDoes (.crcstepCheck e) e 0x7 (fun w => bits w 1 0 == 3) [CHS_STAT e] Dev.noEngs (fun _ s t =>
      t.dev.flag (CHS_STAT e) CHS_STAT_c = decide ((s.dev.eng e).crc = s.dev.fld (CHS_CRC_VAL e) CHS_CRC_VAL_crc_res)) ∧
    engDoes (.ldf e) e 0xC anySub [CHS_FRM_HI e] Dev.noEngs (fun w s t =>
      t.dev.frm e = s.dev.frm e % 2 ^ 48 + bits w 15 0 * 2 ^ 48) ∧
    engDoes (.clr e) e 0xD anySub [CHS_FRM_LO e, CHS_FRM_HI e, CHS_STAT e, CHS_LC e] Dev.noEngs (fun w s t =>
      (if w.testBit 0 then t.dev.frm e = 0 ∧ t.dev.fld (CHS_STAT e) CHS_STAT_bitcnt = 0
        else t.dev.frm e = s.dev.frm e ∧ t.dev.fld (CHS_STAT e) CHS_STAT_bitcnt = s.dev.fld (CHS_STAT e) CHS_STAT_bitcnt) ∧
      (∀ p ∈ [(1, CHS_STAT_m), (2, CHS_STAT_t), (3, CHS_STAT_c)],
        t.dev.flag (CHS_STAT e) p.2 = (!w.testBit p.1 && s.dev.flag (CHS_STAT e) p.2)) ∧
      lc t.dev = (if w.testBit 4 then 0 else lc s.dev)) ∧
    -- a taken BRANCH goes to its target
    (∀ (s : State) (w : Nat), EngReady s.dev e w → w / 2 ^ 20 = 8 → Yields (exec (.branch e) s) fun t => t.mem = s.mem ∧
      t.dev.egPc e = (if s.dev.branchCond e w then bits w 5 0 else (s.dev.egPc e + 1) % 64) ∧
      (t.dev.eng e).ir = none ∧ (t.dev.eng e).pins = s.dev.sidePins e w ∧ (∀ i, i ≠ e.val → t.dev.eng i = s.dev.eng i) ∧
      (t.dev.eng e).inq = (s.dev.eng e).inq ∧ (t.dev.eng e).outq = (s.dev.eng e).outq)

/-- Instructions that move bits, wait, or use the queues, and what ends their waits (R216, R217, R220, R222). What ends
the wait of an engine: the edge or the time limit of a WAITEDGE, and a CHS_SYNC pulse (R216, R222). It rests on the
model's choices in assumption 34. -/
def Obligations.EngineTransfersAndWaits : Prop :=
  (
    ∀ (e : Fin 32) (s : State) (w : Nat), EngReady s.dev e w →
      let stat := CHS_STAT e
      -- SHIFT: every bit received enters FRM from the right; sent bits leave it at the left
      (∀ rx : List Bool, w / 2 ^ 20 = 1 → rx.length = (if bits w 5 0 = 0 then 64 else bits w 5 0) →
        Yields (exec (.shift e rx) s) fun t => t.mem = s.mem ∧ t.dev.egPc e = (s.dev.egPc e + 1) % 64 ∧ (t.dev.eng e).ir = none ∧
          t.dev.frm e = rx.foldl (fun f b => (f * 2 + b2n (bits w 15 14 != 2 && s.dev.rxBit e b)) % 2 ^ 64) (s.dev.frm e) ∧
          t.dev.fld stat CHS_STAT_bitcnt = (if bits w 15 14 = 2 then s.dev.fld stat CHS_STAT_bitcnt
            else min 64 (s.dev.fld stat CHS_STAT_bitcnt + rx.length)) ∧
          (∀ i, i ≠ e.val → t.dev.eng i = s.dev.eng i) ∧
          ChangesOnly ([CHS_FRM_LO e, CHS_FRM_HI e, stat] ++ engRegs e) (fun x => x.noEngs.noClusters) s.dev t.dev) ∧
      (∀ rx : List Bool, w / 2 ^ 20 = 1 → rx.length < (if bits w 5 0 = 0 then 64 else bits w 5 0) →
        Yields (exec (.shift e rx) s) fun t => (t.dev.eng e).ir = some w ∧ t.dev.egPc e = s.dev.egPc e ∧
          (t.dev.eng e).left = (if bits w 5 0 = 0 then 64 else bits w 5 0) - rx.length) ∧
      -- EXPECT: any bit that differs from the pattern sets M, which is sticky
      (∀ rx : List Bool, w / 2 ^ 20 = 2 → rx.length = bits w 14 12 + 1 →
        Yields (exec (.expect e rx) s) fun t => t.mem = s.mem ∧ EngStep e w s.dev t.dev ∧
          (t.dev.flag stat CHS_STAT_m = true ↔ s.dev.flag stat CHS_STAT_m = true ∨
            ∃ i < rx.length, s.dev.rxBit e (rx.getD i false) ≠ w.testBit (rx.length - 1 - i)) ∧
          ChangesOnly (stat :: engRegs e) (fun x => x.noEngs.noClusters) s.dev t.dev) ∧
      (w / 2 ^ 20 = 3 → Yields (exec (.waitedge e) s) fun t => t.mem = s.mem ∧ EngWaits e w s.dev t.dev ∧
        (t.dev.eng e).edge = false ∧ (t.dev.eng e).waitAt = s.dev.now ∧
        ChangesOnly (engRegs e) Dev.noEngs s.dev t.dev) ∧
      -- PUT and GET on the queues; a full or empty one stalls
      (w / 2 ^ 20 = 0xA → w.testBit 1 = false →
        ((s.dev.eng e).outq.length < 8 → Yields (exec (.put e) s) fun t => t.mem = s.mem ∧ EngStep e w s.dev t.dev ∧
          (t.dev.eng e).outq = (s.dev.eng e).outq ++ [w32 (s.dev.frm e / 2 ^ bits w 12 8)] ∧
          ChangesOnly (engRegs e) Dev.noEngs s.dev t.dev) ∧
        (8 ≤ (s.dev.eng e).outq.length → w.testBit 0 = true → Yields (exec (.put e) s) fun t => t.mem = s.mem ∧
          EngStep e w s.dev t.dev ∧ (t.dev.eng e).outq = (s.dev.eng e).outq ∧ t.dev.flag stat CHS_STAT_outq_ovr = true) ∧
        (8 ≤ (s.dev.eng e).outq.length → w.testBit 0 = false → Yields (exec (.put e) s) fun t => t.mem = s.mem ∧
          EngWaits e w s.dev t.dev ∧ (t.dev.eng e).outq = (s.dev.eng e).outq)) ∧
      -- PUT to ingot: the word goes to mem_base + 4 ptr with tag RAW, and ptr goes round at len
      (w / 2 ^ 20 = 0xA → w.testBit 1 = true →
        let p := s.dev.fld (CHS_MEM_LEN e) CHS_MEM_LEN_ptr
        let off := (s.dev.fld (CHS_MEM_BASE e) CHS_MEM_BASE_mem_base * 4 + 4 * p) % 0x100000
        let b := egCl e * 16 + off / 0x10000
        let a := bankAddr b (off % 0x10000)
        s.dev.bankUp b = true → isBank15 b = false → s.dev.ingotOk .engine b true = true → s.mem.errAt a = 0 →
        Yields (exec (.put e) s) fun t => EngStep e w s.dev t.dev ∧ t.mem.word a = w32 (s.dev.frm e / 2 ^ bits w 12 8) ∧
          t.mem.tag a = 0 ∧ (∀ x, x < a ∨ a + 4 ≤ x → t.mem.byte x = s.mem.byte x) ∧
          t.dev.fld (CHS_MEM_LEN e) CHS_MEM_LEN_ptr = (if p + 1 < s.dev.fld (CHS_MEM_LEN e) CHS_MEM_LEN_len then p + 1 else 0)) ∧
      (∀ v r, w / 2 ^ 20 = 0xB → (s.dev.eng e).inq = v :: r → Yields (exec (.get e) s) fun t => t.mem = s.mem ∧
        EngStep e w s.dev t.dev ∧ t.dev.rd (CHS_FRM_HI e) = v ∧ t.dev.rd (CHS_FRM_LO e) = s.dev.rd (CHS_FRM_LO e) ∧
        (t.dev.eng e).inq = r ∧ ChangesOnly (CHS_FRM_HI e :: engRegs e) Dev.noEngs s.dev t.dev) ∧
      (w / 2 ^ 20 = 0xB → (s.dev.eng e).inq = [] → Yields (exec (.get e) s) fun t => t.mem = s.mem ∧ EngWaits e w s.dev t.dev) ∧
      -- SYNC: an engine waits for the others of its barrier, or for CHS_SYNC
      (w / 2 ^ 20 = 9 → w % 2 = 1 ∨ (∃ m ∈ s.dev.barrier (egCl e) (s.dev.fld (CHS_CFG e) CHS_CFG_grp), m ≠ e.val ∧
          s.dev.atSync m 0 = false) →
        Yields (exec (.sync e) s) fun t => t.mem = s.mem ∧ EngWaits e w s.dev t.dev ∧
          ChangesOnly (engRegs e) Dev.noEngs s.dev t.dev)) ∧
  (
    ∀ (e : Fin 32) (s : State) (w : Nat), s.dev.clusterRuns (egCl e) = true → s.dev.egOn e = true → s.dev.egHold e = false →
      (s.dev.eng e).ir = some w → s.dev.flag (CHS_LOOP e) CHS_LOOP_loop_en = false →
      let ends := fun (t : State) => t.mem = s.mem ∧ t.dev.egPc e = (s.dev.egPc e + 1) % 64 ∧ (t.dev.eng e).ir = none ∧
        (t.dev.eng e).pins = (s.dev.eng e).pins ∧ (∀ i, i ≠ e.val → t.dev.eng i = s.dev.eng i)
      let seen := (s.dev.eng e).edge
      let last := (s.dev.eng e).waitAt + bits w 11 0 * s.dev.fld (CHS_CFG e) CHS_CFG_step_len
      (w / 2 ^ 20 = 3 → seen = false → Yields (exec (.waitedgeEdge e) s) fun t => t = s) ∧
      (w / 2 ^ 20 = 3 → seen = true → Yields (exec (.waitedgeEdge e) s) fun t => ends t ∧
        t.dev.flag (CHS_STAT e) CHS_STAT_t = s.dev.flag (CHS_STAT e) CHS_STAT_t ∧
        ChangesOnly (engRegs e) Dev.noEngs s.dev t.dev) ∧
      (w / 2 ^ 20 = 3 → bits w 11 0 ≠ 0 → seen = false → last ≤ s.dev.now → Yields (exec (.waitedgeTimeout e) s) fun t => ends t ∧
        t.dev.flag (CHS_STAT e) CHS_STAT_t = true ∧ ChangesOnly (CHS_STAT e :: engRegs e) Dev.noEngs s.dev t.dev) ∧
      (w / 2 ^ 20 = 3 → bits w 11 0 = 0 ∨ seen = true ∨ s.dev.now < last → Yields (exec (.waitedgeTimeout e) s) fun t => t = s) ∧
      (w / 2 ^ 20 = 9 → w % 2 = 1 → Yields (exec (.chsSync e) s) fun t => ends t ∧
        ChangesOnly (FLX_ROUTE (egCl e) (0x50 + e.val % 8) :: engRegs e) Dev.noEngs s.dev t.dev))

/-- The queues and the control of the chasing engines: a start clears the engine's state and goes to start_pc, a stop
clears its frame and its pins, hold stops it where it stands (R213, R220 to R225). It rests on the model's choices in
assumption 34. -/
def Obligations.EngineControl : Prop :=
  ∀ (w : Writer) (e : Fin 32) (v : Word) (s : State), s.dev.clusterRuns (egCl e) = true →
    let stat := CHS_STAT e
    let others := fun (t : State) => t.mem = s.mem ∧ ∀ i, i ≠ e.val → t.dev.eng i = s.dev.eng i
    let started := fun (t : State) => t.dev.egOn e = true ∧ t.dev.egPc e = s.dev.fld (CHS_CFG e) CHS_CFG_start_pc ∧
        t.dev.frm e = 0 ∧ t.dev.fld (CHS_LC e) CHS_LC_lc = 0 ∧ t.dev.fld stat CHS_STAT_bitcnt = 0 ∧
        (∀ f ∈ [CHS_STAT_m, CHS_STAT_c, CHS_STAT_t, CHS_STAT_z], t.dev.flag stat f = false) ∧ (t.dev.eng e).ir = none ∧
        (t.dev.eng e).pins = s.dev.fld (CHS_PIN_CFG e) CHS_PIN_CFG_idle ∧ (t.dev.eng e).inq = (s.dev.eng e).inq
    -- the queues
    ((s.dev.eng e).inq.length < 8 → (s.dev.eng e).ir = none → Yields (exec (.chsInqWrite w e v) s) fun t => others t ∧
      (t.dev.eng e).inq = (s.dev.eng e).inq ++ [v] ∧
      ChangesOnly (engRegs e) (fun x => x.noEngs.noWindows) s.dev t.dev) ∧
    (8 ≤ (s.dev.eng e).inq.length → Yields (exec (.chsInqWrite w e v) s) fun t => others t ∧ t.dev.eng e = s.dev.eng e ∧
      t.dev.flag stat CHS_STAT_inq_ovr = true ∧ ChangesOnly [stat] Dev.noWindows s.dev t.dev) ∧
    (∀ x r, (s.dev.eng e).outq = x :: r → (s.dev.eng e).ir = none → Yields (exec (.chsOutqRead e) s) fun t => others t ∧
      t.dev.rdata = x ∧ (t.dev.eng e).outq = r ∧ ChangesOnly (engRegs e) (fun x => x.noEngs.noRdata) s.dev t.dev) ∧
    ((s.dev.eng e).outq = [] → Yields (exec (.chsOutqRead e) s) fun t => others t ∧ t.dev.rdata = 0 ∧
      t.dev.flag stat CHS_STAT_outq_udr = true ∧ ChangesOnly [stat] Dev.noRdata s.dev t.dev) ∧
    -- start
    ((s.dev.egOn e = false → Yields (exec (.chsEnable w e v) s) fun t => others t ∧ started t ∧
        ChangesOnly ([stat, CHS_FRM_LO e, CHS_FRM_HI e, CHS_LC e, CHS_LOOP_CNT e, CHS_LOOP e] ++ engRegs e)
          (fun x => x.noEngs.noWindows) s.dev t.dev) ∧
      (s.dev.egOn e = false → v.toNat.testBit (e.val % 8) = true → Yields (exec (.chsGstart w (Fin.ofNat 4 (egCl e)) v) s) started)) ∧
    -- stop
    (s.dev.egOn e = true → s.dev.fld (CHS_CFG e) CHS_CFG_grp_en ≠ 1 → Yields (exec (.chsDisable w e v) s) fun t => others t ∧
      t.dev.egOn e = false ∧ t.dev.frm e = 0 ∧ t.dev.fld stat CHS_STAT_bitcnt = 0 ∧ (t.dev.eng e).ir = none ∧
      (t.dev.eng e).pins = s.dev.fld (CHS_PIN_CFG e) CHS_PIN_CFG_idle ∧
      ((s.dev.eng e).ir ≠ none → t.dev.flag stat CHS_STAT_aborted = true) ∧
      t.dev.flag (CHS_POS_STAT e) CHS_POS_STAT_valid = false ∧ (t.dev.eng e).inq = (s.dev.eng e).inq ∧
      ChangesOnly ([stat, CHS_FRM_LO e, CHS_FRM_HI e, CHS_POS_STAT e] ++ engRegs e) (fun x => x.noEngs.noWindows.noFbks)
        s.dev t.dev) ∧
    -- hold and its end
    (s.dev.egOn e = true → s.dev.egHold e = false → v.toNat.testBit 31 = true → Yields (exec (.chsHold w e v) s) fun t => others t ∧
      t.dev.egHold e = true ∧ t.dev.eng e = { s.dev.eng e with heldAt := s.dev.now } ∧ t.dev.egPc e = s.dev.egPc e ∧
      ChangesOnly (engRegs e) (fun x => x.noEngs.noWindows) s.dev t.dev) ∧
    (s.dev.egOn e = true → s.dev.egHold e = true → v.toNat.testBit 31 = true → (s.dev.eng e).ir = none → (s.dev.eng e).rel = false →
      Yields (exec (.chsResume w e v) s) fun t => others t ∧ t.dev.egHold e = false ∧
        t.dev.eng e = { s.dev.eng e with waitAt := (s.dev.eng e).waitAt + (s.dev.now - (s.dev.eng e).heldAt) } ∧
        t.dev.egPc e = s.dev.egPc e ∧ ChangesOnly (engRegs e) (fun x => x.noEngs.noWindows) s.dev t.dev) ∧
    -- program and loop window
    (s.dev.patchRefused e = true → ∀ i, Yields (exec (.chsProgWrite w e i v) s) fun t => others t ∧
      t.dev.flag stat CHS_STAT_patch_refused = true ∧ ChangesOnly [stat] Dev.noWindows s.dev t.dev) ∧
    (s.dev.patchRefused e = false → ∀ i : Fin 64, Yields (exec (.chsProgWrite w e (some i) v) s) fun t => others t ∧
      t.dev.fld (CHS_PROG e i) CHS_PROG_word = v.toNat % 2 ^ 24 ∧ ChangesOnly [CHS_PROG e i] Dev.noWindows s.dev t.dev) ∧
    (s.dev.patchRefused e = false → fget CHS_LOOP_last v < fget CHS_LOOP_first v →
      Yields (exec (.chsProgWrite w e none v) s) fun t => others t ∧ t.dev.flag stat CHS_STAT_cfg_refused = true ∧
        ChangesOnly [stat] Dev.noWindows s.dev t.dev)

/-- Triggers of the Crucible: a pulse in the cluster a trigger listens to sends that ccyc's time to the analogue island,
where a delay counter starts; its match starts the converters of conv (R233 to R235). It rests on the model's choices in
assumption 35. -/
def Obligations.CrucibleTriggers : Prop :=
  (∀ (c : Fin 4) (k : Fin 4) (s : State), s.dev.clusterRuns c = true →
    let hears := s.dev.flag (CRU_TRG_CFG k) CRU_TRG_CFG_en && s.dev.fld (CRU_TRG_CFG k) CRU_TRG_CFG_cl == c.val
    Yields (exec (.cruStart c k) s) fun t => t.mem = s.mem ∧
      t.dev.crossing = s.dev.crossing ++ (if hears then [⟨.cl c, .ai, .trig k (s.dev.copy c)⟩] else []) ∧
      ChangesOnly [FLX_ROUTE c (0x70 + k)] id s.dev t.dev) ∧
  -- the arrival of a start that stands first in its crossing
  (∀ (k : Fin 4) (l : Fin 3) (s : State), s.dev.nextStart k = none → Yields (exec (.triggerArrival k l) s) fun t => t = s) ∧
  (∀ (k : Fin 4) (l : Fin 3) (s : State) (it : CrossItem) (tt : Nat), it.pay = .trig k tt → s.dev.nextStart k = some it →
    (s.dev.flag (CRU_TRG_CFG k) CRU_TRG_CFG_counting = true → Yields (exec (.triggerArrival k l) s) fun t => t.mem = s.mem ∧
      t.dev.crossing = s.dev.crossing.erase it ∧ t.dev.flag (CRU_TRG_CFG k) CRU_TRG_CFG_trg_ovr = true ∧
      t.dev.flag (CRU_TRG_CFG k) CRU_TRG_CFG_counting = true ∧ t.dev.due = s.dev.due ∧
      ChangesOnly [CRU_TRG_CFG k] id s.dev t.dev) ∧
    (s.dev.flag (CRU_TRG_CFG k) CRU_TRG_CFG_counting = false → (∀ b, .cruMatch k b ∉ s.dev.due) →
      Yields (exec (.triggerArrival k l) s) fun t => t.mem = s.mem ∧
        t.dev.crossing = s.dev.crossing.erase it ∧ t.dev.flag (CRU_TRG_CFG k) CRU_TRG_CFG_counting = true ∧
        t.dev.cruTrig k = { count := 0, tTrig := tt } ∧
        (∀ i, i ≠ k.val → t.dev.cruTrig i = s.dev.cruTrig i) ∧
        (∀ late, .cruMatch k late ∈ t.dev.due ↔ cmpEval 32 (s.dev.rd (CRU_TRG_DLY k)).toNat 0 = some late) ∧
        -- the converters of conv record the delay of the path
        (∀ j < 16, t.dev.rd (CRU_STAT j) = if (s.dev.fld (CRU_TRG_CFG k) CRU_TRG_CFG_conv).testBit j then
          fput CRU_STAT_lat (s.dev.rd (CRU_STAT j)) (4 + l.val) else s.dev.rd (CRU_STAT j)) ∧
        ChangesOnly (CRU_TRG_CFG k :: (List.range 16).map CRU_STAT) Dev.noCru s.dev t.dev)) ∧
  (∀ (w : Writer) (k : Fin 4) (v : Word) (s : State), Yields (exec (.cruTrgDlyWrite w k v) s) fun t => t.mem = s.mem ∧
    t.dev.rd (CRU_TRG_DLY k) = v ∧
    (s.dev.flag (CRU_TRG_CFG k) CRU_TRG_CFG_counting = true → (s.dev.cruTrig k).count < 2 ^ 32 →
      ∀ late, .cruMatch k late ∈ t.dev.due ↔ cmpEval 32 v.toNat (s.dev.cruTrig k).count = some late) ∧
    ChangesOnly [CRU_TRG_DLY k] id s.dev t.dev) ∧
  -- a match acts where one is due
  (∀ (k : Fin 4) (s : State),
    (s.dev.flag (CRU_TRG_CFG k) CRU_TRG_CFG_counting = false ∨ (∀ b, (.cruMatch k b) ∉ s.dev.due) →
      Yields (exec (.triggerDelayMatch k) s) fun t => t = s) ∧
    (s.dev.flag (CRU_TRG_CFG k) CRU_TRG_CFG_counting = true → (∃ b, .cruMatch k b ∈ s.dev.due) → Yields (exec (.triggerDelayMatch k) s) fun t => t.mem = s.mem ∧
      t.dev.flag (CRU_TRG_CFG k) CRU_TRG_CFG_counting = false ∧ (∀ b, (.cruMatch k b) ∉ t.dev.due) ∧
      (.cruMatch k true ∈ s.dev.due → t.dev.flag (CRU_TRG_CFG k) CRU_TRG_CFG_late = true) ∧
      -- a converter that no other start reaches in this icyc: an even one, or one whose pair makes no cross-checks
      ∀ j < 16, (s.dev.fld (CRU_TRG_CFG k) CRU_TRG_CFG_conv).testBit j = true →
        j % 2 = 0 ∨ s.dev.flag (CRU_PAIR_CFG (j / 2)) CRU_PAIR_CFG_xen = false →
        (s.dev.flag CRU_REF_CTL CRU_REF_CTL_ref_en = false → t.dev.flag (CRU_STAT j) CRU_STAT_no_ref = true ∧
          t.dev.cruRun j = s.dev.cruRun j) ∧
        (s.dev.flag CRU_REF_CTL CRU_REF_CTL_ref_en = true → s.dev.flag (CRU_CFG j) CRU_CFG_en = false →
          t.dev.rd (CRU_STAT j) = s.dev.rd (CRU_STAT j) ∧ t.dev.cruRun j = s.dev.cruRun j) ∧
        -- a busy converter ignores the start, with overrun but where it shares the conversion of its icyc
        (s.dev.flag CRU_REF_CTL CRU_REF_CTL_ref_en = true → s.dev.flag (CRU_CFG j) CRU_CFG_en = true →
          ∀ r, s.dev.cruRun j = some r → t.dev.cruRun j = some r ∧
            let shares := !r.check && r.began == s.dev.now / 20
            (shares = false → t.dev.flag (CRU_STAT j) CRU_STAT_overrun = true) ∧
            (shares = true → t.dev.rd (CRU_STAT j) = s.dev.rd (CRU_STAT j))) ∧
        (s.dev.flag CRU_REF_CTL CRU_REF_CTL_ref_en = true → s.dev.flag (CRU_CFG j) CRU_CFG_en = true → s.dev.cruRun j = none →
          t.dev.cruRun j = some {
            cfg := s.dev.rd (CRU_CFG j)
            unsettled := s.dev.cruUnsettled (s.dev.rd (CRU_CFG j))
            tInt := cruTInt (s.dev.flag CRU_REF_CTL CRU_REF_CTL_mains) (s.dev.fld (CRU_CFG j) CRU_CFG_frac)
            rundown := false
            check := false
            began := s.dev.now / 20
            tWas := s.dev.wide64 (CRU_T_LO j)
            pairWas := s.dev.cruPair (j / 2) } ∧
          t.dev.flag (CRU_STAT j) CRU_STAT_busy = true ∧ t.dev.wide64 (CRU_T_LO j) = (s.dev.cruTrig k).tTrig % 2 ^ 64)))

/-- Converters, reference and excitation outputs of the Crucible: what a configuration takes, what a conversion
delivers, the cross-check of a pair, and what clearing ref_en aborts (R229 to R232, R235, R236). It rests on the model's
choices in assumption 35. -/
def Obligations.CrucibleConversions : Prop :=
  (∀ (w : Writer) (j : Fin 16) (v : Word) (s : State),
    let clear := fget CRU_CFG_en v == 0 && s.dev.flag (CRU_CFG j) CRU_CFG_en
    let refused := fun (c : Instr) => Yields (exec c s) fun t => t.mem = s.mem ∧
      t.dev.flag (CRU_STAT j) CRU_STAT_cfg_err = true ∧ ChangesOnly [CRU_STAT j] id s.dev t.dev
    (cruCfgBad v = true → refused (.cruCfgWrite w j v) ∧ refused (.cruGo w j v)) ∧
    (clear = false → s.dev.cruRun j ≠ none → refused (.cruCfgWrite w j v) ∧ refused (.cruGo w j v)) ∧
    -- the clear of en discards the conversion that runs: res keeps its value
    (∀ r, cruCfgBad v = false → clear = true → s.dev.cruRun j = some r → r.check = false → r.began ≠ s.dev.now / 20 →
      Yields (exec (.cruCfgWrite w j v) s) fun t => t.mem = s.mem ∧ t.dev.cruRun j = none ∧
        t.dev.flag (CRU_STAT j) CRU_STAT_busy = false ∧ t.dev.flag (CRU_RES j) CRU_RES_aborted = true ∧
        t.dev.flag (CRU_RES j) CRU_RES_valid = false ∧ t.dev.fld (CRU_RES j) CRU_RES_res = s.dev.fld (CRU_RES j) CRU_RES_res ∧
        t.dev.flag (CRU_CFG j) CRU_CFG_en = false ∧ (∀ i, i ≠ j.val → t.dev.cruRun i = s.dev.cruRun i)) ∧
    -- a start of the same icyc is as if the clear had come first
    (∀ r, cruCfgBad v = false → clear = true → s.dev.cruRun j = some r → r.check = false → r.began = s.dev.now / 20 →
      Yields (exec (.cruCfgWrite w j v) s) fun t => t.mem = s.mem ∧ t.dev.cruRun j = none ∧
        t.dev.flag (CRU_STAT j) CRU_STAT_busy = false ∧ t.dev.rd (CRU_RES j) = s.dev.rd (CRU_RES j) ∧
        t.dev.wide64 (CRU_T_LO j) = r.tWas % 2 ^ 64 ∧ (j.val % 2 = 0 → t.dev.cruPair (j.val / 2) = r.pairWas) ∧
        t.dev.flag (CRU_CFG j) CRU_CFG_en = false) ∧
    -- a check cycle that is cut off is dropped
    (∀ r, cruCfgBad v = false → clear = true → s.dev.cruRun j = some r → r.check = true →
      Yields (exec (.cruCfgWrite w j v) s) fun t => t.mem = s.mem ∧ t.dev.cruRun j = none ∧
        (t.dev.cruPair (j.val / 2)).active = false ∧ t.dev.flag (CRU_XRES (j.val / 2)) CRU_XRES_valid = false ∧
        t.dev.rd (CRU_RES j) = s.dev.rd (CRU_RES j)) ∧
    (cruCfgBad v = false → s.dev.cruRun j = none → fget CRU_CFG_go v = 0 → Yields (exec (.cruCfgWrite w j v) s) fun t =>
      t.mem = s.mem ∧ Wrote w (CRU_CFG j) v s.dev t.dev ∧ ChangesOnly [CRU_CFG j] id s.dev t.dev) ∧
    -- go starts a conversion with t_trig 0
    (cruCfgBad v = false → s.dev.cruRun j = none → fget CRU_CFG_en v = 1 → s.dev.flag CRU_REF_CTL CRU_REF_CTL_ref_en = true →
      Yields (exec (.cruGo w j v) s) fun t => t.mem = s.mem ∧ t.dev.flag (CRU_STAT j) CRU_STAT_busy = true ∧
        t.dev.wide64 (CRU_T_LO j) = 0 ∧ ∃ r, t.dev.cruRun j = some r ∧ r.check = false ∧ r.rundown = false ∧
          r.tInt = cruTInt (s.dev.flag CRU_REF_CTL CRU_REF_CTL_mains) (fget CRU_CFG_frac v)) ∧
    (cruCfgBad v = false → s.dev.cruRun j = none → fget CRU_CFG_en v = 1 → s.dev.flag CRU_REF_CTL CRU_REF_CTL_ref_en = false →
      Yields (exec (.cruGo w j v) s) fun t => t.mem = s.mem ∧ t.dev.flag (CRU_STAT j) CRU_STAT_no_ref = true ∧
        t.dev.cruRun j = none)) ∧
  (∀ (j : Fin 16) (s : State) (r : ConvRun), s.dev.cruRun j = some r →
    Yields (exec (.integrationEnd j) s) (fun t => t.mem = s.mem ∧ t.dev.cruRun j = some { r with rundown := true } ∧
      (∀ i, i ≠ j.val → t.dev.cruRun i = s.dev.cruRun i) ∧ ChangesOnly [CRU_STAT j] Dev.noCru s.dev t.dev) ∧
    -- the result: gain times V_in over V_ref in 24 bits, to nearest, clamped, its lowest frac bits 0
    (∀ ain exc, r.rundown = false → Yields (exec (.conversionEnd j ain exc) s) fun t => t = s) ∧
    (∀ ain exc, r.rundown = true → 0 < s.dev.cruVref r.cfg exc ∨ fget CRU_CFG_ratio r.cfg = 0 →
      Yields (exec (.conversionEnd j ain exc) s) fun t => t.mem = s.mem ∧
      let vref := s.dev.cruVref r.cfg exc
      let vin := cruVin r.cfg ain
      let ref : Nat := if fget CRU_CFG_ratio r.cfg = 0 then 1250000000 else vref
      let exact : Int := (2 * ((cruGain r.cfg : Int) * vin * 2 ^ 23) + ref) / (2 * ref)
      let full : Int := max (-2 ^ 23) (min (2 ^ 23 - 1) exact)
      let res : Int := full - full % 2 ^ fget CRU_CFG_frac r.cfg
      t.dev.cruRun j = none ∧ t.dev.flag (CRU_STAT j) CRU_STAT_busy = false ∧
      t.dev.fld (CRU_STAT j) CRU_STAT_conv_cnt = min 65535 (s.dev.fld (CRU_STAT j) CRU_STAT_conv_cnt + 1) ∧
      (r.check = false → t.dev.flag (CRU_RES j) CRU_RES_valid = true ∧ t.dev.flag (CRU_RES j) CRU_RES_aborted = false ∧
        t.dev.flag (CRU_RES j) CRU_RES_ref_unsettled = r.unsettled ∧ t.dev.flag (CRU_RES j) CRU_RES_clip = decide (full ≠ exact) ∧
        t.dev.fld (CRU_RES j) CRU_RES_seq = (s.dev.fld (CRU_RES j) CRU_RES_seq + 1) % 16 ∧
        sx 24 (t.dev.fld (CRU_RES j) CRU_RES_res) = res) ∧
      -- a check that was dropped delivers nothing
      (r.check = true → (s.dev.cruPair (j.val / 2)).active = false →
        t.dev.rd (CRU_RES j) = s.dev.rd (CRU_RES j) ∧ t.dev.rd (CRU_XRES (j.val / 2)) = s.dev.rd (CRU_XRES (j.val / 2)) ∧
        t.dev.rd (CRU_PAIR_STAT (j.val / 2)) = s.dev.rd (CRU_PAIR_STAT (j.val / 2))) ∧
      (r.check = true → (s.dev.cruPair (j.val / 2)).active = true →
        t.dev.rd (CRU_RES j) = s.dev.rd (CRU_RES j) ∧ t.dev.flag (CRU_XRES (j.val / 2)) CRU_XRES_valid = true ∧
        sx 24 (t.dev.fld (CRU_XRES (j.val / 2)) CRU_XRES_res) = res ∧
        -- the comparison of the pair
        ∀ a, (s.dev.cruPair (j.val / 2)).resA = some a →
          (t.dev.cruPair (j.val / 2)).active = false ∧
          ((a - res).natAbs ≤ s.dev.fld (CRU_XTH (j.val / 2)) CRU_XTH_xth →
            t.dev.rd (CRU_PAIR_STAT (j.val / 2)) = s.dev.rd (CRU_PAIR_STAT (j.val / 2))) ∧
          (s.dev.fld (CRU_XTH (j.val / 2)) CRU_XTH_xth < (a - res).natAbs →
            t.dev.flag (CRU_PAIR_STAT (j.val / 2)) CRU_PAIR_STAT_plausibility = true ∧
            t.dev.fld (CRU_PAIR_STAT (j.val / 2)) CRU_PAIR_STAT_xfail =
              min 255 (s.dev.fld (CRU_PAIR_STAT (j.val / 2)) CRU_PAIR_STAT_xfail + 1)))))  ∧
  (∀ (w : Writer) (v : Word) (s : State), Yields (exec (.cruRefCtlWrite w v) s) fun t => t.mem = s.mem ∧
    (∀ f ∈ [CRU_REF_CTL_ref_en, CRU_REF_CTL_mains, CRU_REF_CTL_exc_hv, CRU_REF_CTL_exc_en],
      t.dev.fld CRU_REF_CTL f = fget f v) ∧
    t.dev.fld CRU_REF_CTL CRU_REF_CTL_exc_ilim =
      s.dev.fld CRU_REF_CTL CRU_REF_CTL_exc_ilim &&& (15 ^^^ fget CRU_REF_CTL_exc_ilim v) ∧
    t.dev.fld CRU_REF_CTL CRU_REF_CTL_exc_ok = s.dev.fld CRU_REF_CTL CRU_REF_CTL_exc_ok &&& fget CRU_REF_CTL_exc_en v ∧
    (fget CRU_REF_CTL_ref_en v = 1 → ChangesOnly [CRU_REF_CTL] id s.dev t.dev ∧
      t.dev.flag CRU_REF_CTL CRU_REF_CTL_ref_ok = s.dev.flag CRU_REF_CTL CRU_REF_CTL_ref_ok) ∧
    -- without the reference every conversion is discarded and every excitation ball stands at 0 V
    (fget CRU_REF_CTL_ref_en v = 0 → t.dev.flag CRU_REF_CTL CRU_REF_CTL_ref_ok = false ∧
      (∀ k, t.dev.excLevel k = 0) ∧
      (s.dev.flag CRU_REF_CTL CRU_REF_CTL_ref_en = true → ∀ j < 16, t.dev.cruRun j = none))) ∧
  (∀ (k : Fin 4) (s : State),
    (s.dev.flag CRU_REF_CTL CRU_REF_CTL_ref_en = true → Yields (exec .refOk s) fun t => t.mem = s.mem ∧
      t.dev.flag CRU_REF_CTL CRU_REF_CTL_ref_ok = true ∧ ChangesOnly [CRU_REF_CTL] id s.dev t.dev) ∧
    (s.dev.flag CRU_REF_CTL CRU_REF_CTL_ref_en = false → Yields (exec .refOk s) fun t => t = s) ∧
    (∀ p ∈ [(Instr.excOk k, CRU_REF_CTL_exc_ok, true), (.excCurrentLimit k, CRU_REF_CTL_exc_ilim, s.dev.flag CRU_REF_CTL CRU_REF_CTL_ref_en)],
      ((s.dev.fld CRU_REF_CTL CRU_REF_CTL_exc_en).testBit k = true → p.2.2 = true → Yields (exec p.1 s) fun t => t.mem = s.mem ∧
        (t.dev.fld CRU_REF_CTL p.2.1).testBit k = true ∧
        (∀ i, i ≠ k.val → (t.dev.fld CRU_REF_CTL p.2.1).testBit i = (s.dev.fld CRU_REF_CTL p.2.1).testBit i) ∧
        ChangesOnly [CRU_REF_CTL] id s.dev t.dev) ∧
      ((s.dev.fld CRU_REF_CTL CRU_REF_CTL_exc_en).testBit k = false → Yields (exec p.1 s) fun t => t = s)))

/-- ALU instructions, immediates, predicates, tags and special registers of the Anvil cores: what they write, that Q
formats saturate, and which tags they refuse (R239 to R241, R245 to R250, R261). It rests on the model's choices in
assumption 36. -/
def Obligations.AnvilRegisterInstructions : Prop :=
  ∀ k : Fin 19,
    let core := fun (s : State) => s.dev.core k
    let a := fun (s : State) (w : Word) => (core s).wv (iwA w)
    let b := fun (s : State) (w : Word) => (core s).wv (iwB w)
    let ta := fun (s : State) (w : Word) => (core s).tag (iwA w)
    let tb := fun (s : State) (w : Word) => (core s).tag (iwB w)
    let raw := fun (s : State) (w : Word) => (core s).byteMode = false ∧ iwR w = true
    let typed := fun (s : State) (w : Word) => (core s).byteMode = false ∧ iwR w = false
    anvDoes (.nop k) k 0x00 (fun _ _ => True) (fun _ _ c => c) ∧
    -- two operands
    (∀ p ∈ [(Instr.add k, 0x01, fun (x y : Word) => x + y), (.sub k, 0x02, fun x y => x - y), (.and k, 0x03, fun x y => x &&& y),
        (.or k, 0x04, fun x y => x ||| y), (.xor k, 0x05, fun x y => x ^^^ y), (.shl k, 0x06, fun x y => x <<< (y.toNat % 32)),
        (.shr k, 0x07, fun x y => x.sshiftRight (y.toNat % 32)), (.shru k, 0x08, fun x y => x >>> (y.toNat % 32)),
        (.min k, 0x09, fun x y => if x.toInt ≤ y.toInt then x else y), (.max k, 0x0A, fun x y => if x.toInt ≤ y.toInt then y else x)],
      anvDoes p.1 k p.2.1 raw (fun s w c => c.setW (iwD w) (p.2.2 (a s w) (b s w)) 0) ∧
      anvDoes p.1 k p.2.1 (fun s w => typed s w ∧ ta s w = 1 ∧ tb s w = 1) (fun s w c => c.setW (iwD w) (p.2.2 (a s w) (b s w)) 1) ∧
      anvRaises p.1 k p.2.1 8 (fun s w => typed s w ∧ (ta s w = 15 ∨ tb s w = 15)) (fun _ _ => 0) ∧
      anvRaises p.1 k p.2.1 9 (fun s w => typed s w ∧ (ta s w = 4 ∨ tb s w = 4) ∧ ta s w ≠ 15 ∧ tb s w ≠ 15) (fun _ _ => 0)) ∧
    (∀ p ∈ [(Instr.add k, 0x01, fun (x y : Word) => x + y), (.sub k, 0x02, fun x y => x - y), (.and k, 0x03, fun x y => x &&& y),
        (.or k, 0x04, fun x y => x ||| y), (.xor k, 0x05, fun x y => x ^^^ y)],
      anvDoes p.1 k p.2.1 (fun s _ => (core s).byteMode = true)
        (fun s w c => c.setW (iwD w) (w32 ((p.2.2 (a s w) (b s w)).toNat % 256)) 0)) ∧
    (∀ p ∈ [(Instr.add k, 0x01, fun (x y : Word) => x.toInt + y.toInt), (.sub k, 0x02, fun x y => x.toInt - y.toInt)],
      ∀ q ∈ [2, 3], anvDoes p.1 k p.2.1 (fun s w => typed s w ∧ ta s w = q ∧ tb s w = q)
        (fun s w c => c.setW (iwD w) (clampW (p.2.2 (a s w) (b s w))) q)) ∧
    anvDoes (.add k) k 0x01 (fun s w => typed s w ∧ (ta s w = 6 ∧ tb s w = 1 ∨ ta s w = 1 ∧ tb s w = 6))
      (fun s w c => c.setW (iwD w) (a s w + b s w) 6) ∧
    anvDoes (.sub k) k 0x02 (fun s w => typed s w ∧ ta s w = 6 ∧ (tb s w = 1 ∨ tb s w = 6))
      (fun s w c => c.setW (iwD w) (a s w - b s w) (if tb s w = 1 then 6 else 1)) ∧
    (∀ q ∈ [2, 3], anvDoes (.shl k) k 0x06 (fun s w => typed s w ∧ ta s w = q ∧ (tb s w = 0 ∨ tb s w = 1))
      (fun s w c => c.setW (iwD w) (clampW ((a s w).toInt * 2 ^ ((b s w).toNat % 32))) q)) ∧
    -- one operand
    anvDoes (.mov k) k 0x0B typed (fun s w c => c.setW (iwD w) (a s w) (ta s w)) ∧
    (∀ p ∈ [(Instr.neg k, 0x0C, fun (x : Word) => -x.toInt), (.abs k, 0x0D, fun x => if x.toInt < 0 then -x.toInt else x.toInt)],
      anvDoes p.1 k p.2.1 raw (fun s w c => c.setW (iwD w) (BitVec.ofInt 32 (p.2.2 (a s w))) 0) ∧
      (∀ q ∈ [0, 1], anvDoes p.1 k p.2.1 (fun s w => typed s w ∧ ta s w = q)
        (fun s w c => c.setW (iwD w) (BitVec.ofInt 32 (p.2.2 (a s w))) q)) ∧
      (∀ q ∈ [2, 3], anvDoes p.1 k p.2.1 (fun s w => typed s w ∧ ta s w = q) (fun s w c => c.setW (iwD w) (clampW (p.2.2 (a s w))) q)) ∧
      anvRaises p.1 k p.2.1 8 (fun s w => typed s w ∧ ta s w = 15) (fun _ _ => 0)) ∧
    -- immediates
    (∀ p ∈ [(Instr.addi k, 0x10, fun (x y : Word) => x + y), (.andi k, 0x11, fun x y => x &&& y), (.ori k, 0x12, fun x y => x ||| y),
        (.xori k, 0x13, fun x y => x ^^^ y)],
      ∀ q ∈ [0, 1], anvDoes p.1 k p.2.1 (fun s w => (core s).byteMode = false ∧ ta s w = q)
        (fun s w c => c.setW (iwD w) (p.2.2 (a s w) (BitVec.ofInt 32 (iwImm14 w))) q)) ∧
    anvDoes (.addi k) k 0x10 (fun s w => (core s).byteMode = false ∧ ta s w = 6)
      (fun s w c => c.setW (iwD w) (a s w + BitVec.ofInt 32 (iwImm14 w)) 6) ∧
    (∀ p ∈ [(Instr.shli k, 0x14, fun (x : Word) (n : Nat) => x <<< n), (.shri k, 0x15, fun x n => x.sshiftRight n),
        (.shrui k, 0x16, fun x n => x >>> n)],
      ∀ q ∈ [0, 1], anvDoes p.1 k p.2.1 (fun s w => (core s).byteMode = false ∧ ta s w = q)
        (fun s w c => c.setW (iwD w) (p.2.2 (a s w) (w.toNat % 32)) q)) ∧
    anvDoes (.ldi k) k 0x18 (fun _ _ => True) (fun _ w c => c.setW (iwD w) (BitVec.ofInt 32 (sx 16 (iwImm16 w))) 0) ∧
    anvDoes (.ldih k) k 0x19 (fun _ _ => True)
      (fun _ w c => c.setW (iwD w) (BitVec.ofNat 32 (iwImm16 w * 65536 + (c.wv (iwD w)).toNat % 65536)) (c.tag (iwD w))) ∧
    -- tags and predicates
    anvDoes (.tag k) k 0x1A (fun _ _ => True) (fun s w c => c.setW (iwD w) (a s w) (w.toNat % 16)) ∧
    anvDoes (.gtag k) k 0x1B (fun _ _ => True) (fun s w c => c.setW (iwD w) (BitVec.ofNat 32 (ta s w)) 1) ∧
    anvDoes (.cmp k) k 0x1C (fun s w => (core s).byteMode = false ∧ (iwCr w = true ∨ ta s w = tb s w ∧ ta s w ≠ 4 ∧ ta s w ≠ 15))
      (fun s w c => c.setP (iwPd w) (condHolds (iwCc w) (a s w) (b s w))) ∧
    anvRaises (.cmp k) k 0x1C 8 (fun s w => (core s).byteMode = false ∧ iwCr w = false ∧ (ta s w = 15 ∨ tb s w = 15)) (fun _ _ => 0) ∧
    anvDoes (.cmpi k) k 0x1D (fun s w => (core s).byteMode = false ∧ (core s).tag (iwCiA w) ∈ [0, 1, 2, 3, 5, 7, 8])
      (fun s w c => c.setP (iwPd w) (condHolds (iwCiCc w) ((core s).wv (iwCiA w)) (BitVec.ofInt 32 (iwImm12 w)))) ∧
    anvDoes (.plog k) k 0x1E (fun _ _ => True) (fun s w c =>
      let x := (core s).pred (iwCiCc w)
      let y := (core s).pred (bits w.toNat 15 13)
      c.setP (iwPd w) (match bits w.toNat 12 11 with
        | 0 => x && y
        | 1 => x || y
        | 2 => xor x y
        | _ => x && !y)) ∧
    -- special registers
    anvDoes (.movbk k) k 0x38 (fun _ _ => True) (fun _ w c => { c with bk := iwImm16 w }) ∧
    (∀ p ∈ [(0x00, fun (c : Core) => c.bk % 65536), (0x01, fun c => c.tsr), (0x06, fun c => c.ctxid % 65536), (0x07, fun _ => 0x00010002),
        (0x08, fun c => b2n c.byteMode), (0x09, fun c => c.p / 2 * 2 % 256 + 1), (0x0A, fun c => c.coreStat), (0x0B, fun c => c.suerr),
        (0x0D, fun c => c.cycHi)],
      anvDoes (.mfs k) k 0x0E (fun _ w => w.toNat % 64 = p.1) (fun s w c => c.setW (iwD w) (BitVec.ofNat 32 (p.2 (core s))) 0)) ∧
    anvRaises (.mfs k) k 0x0E 6 (fun _ w => 0x0D < w.toNat % 64) (fun _ _ => 0) ∧
    (∀ p ∈ [(0x00, 3, fun (v : Word) (c : Core) => { c with bk := v.toNat % 65536 }), (0x01, 0, fun v c => { c with tsr := v.toNat }),
        (0x06, 1, fun v c => { c with ctxid := v.toNat % 65536 }), (0x09, 3, fun v c => { c with p := v.toNat % 256 / 2 * 2 }),
        (0x0A, 0, fun v c => { c with ie := v.toNat.testBit 2, ipl := v.toNat / 16 % 16 }),
        (0x0B, 3, fun v c => { c with suerr := c.suerr &&& (0xFFFFFFFF ^^^ v.toNat) })],
      anvDoes (.mts k) k 0x0F (fun s w => w.toNat % 64 = p.1 ∧ (core s).ring ≤ p.2.1) (fun s w c => p.2.2 ((core s).wv (iwD w)) c) ∧
      anvRaises (.mts k) k 0x0F 7 (fun s w => w.toNat % 64 = p.1 ∧ p.2.1 < (core s).ring) (fun _ _ => 0)) ∧
    anvRaises (.mts k) k 0x0F 6 (fun _ w => w.toNat % 64 ∈ [0x07, 0x08, 0x0C, 0x0D] ∨ 0x0D < w.toNat % 64) (fun _ _ => 0)

/-- Branches, repeats, WAIT and the exceptions that instructions raise for themselves; a false guard skips an
instruction, and a reserved encoding raises UNDEF whatever its guard (R241, R243, R250, R256, R257, R260, R267, R277).
It rests on the model's choices in assumptions 36, 37 and 39. -/
def Obligations.AnvilControlFlow : Prop :=
  ∀ k : Fin 19,
    let core := fun (s : State) => s.dev.core k
    let target := fun (s : State) (w : Word) => (((core s).pc : Int) + 4 * iwOff22 w) % 2 ^ 32
    anvGoes (.br k) k 0x3A (fun _ _ => True) (fun s w => (target s w).toNat) (fun _ _ c => c) ∧
    anvGoes (.call k) k 0x3B (fun _ _ => True) (fun s w => (target s w).toNat)
      (fun s _ c => c.setW 14 (BitVec.ofNat 32 ((core s).pc + 4)) (if c.byteMode then 0 else 6)) ∧
    (let to_ := fun (s : State) (w : Word) => ((core s).wv (iwA w)).toNat
     let base := fun (s : State) (w : Word) => iwR w = true ∨ (core s).byteMode = true ∨ (core s).tag (iwA w) ∈ [0, 1, 6]
     anvGoes (.jr k) k 0x3C (fun s w => base s w ∧ to_ s w % 4 = 0) to_ (fun _ _ c => c) ∧
     anvRaises (.jr k) k 0x3C 10 (fun s w => base s w ∧ to_ s w % 4 ≠ 0) to_ ∧
     anvRaises (.jr k) k 0x3C 8 (fun s w => iwR w = false ∧ (core s).byteMode = false ∧ (core s).tag (iwA w) = 15) (fun _ _ => 0) ∧
     anvRaises (.jr k) k 0x3C 9 (fun s w => iwR w = false ∧ (core s).byteMode = false ∧ (core s).tag (iwA w) ∉ [0, 1, 6, 15])
       (fun _ _ => 0)) ∧
    -- repeat prefixes
    (∀ p ∈ [(Instr.rep k, 0x17, false, repAccepts, repCount), (.repn k, 0x1F, true, repnAccepts, fun _ w => w.toNat % 4 + 1)],
      let next := fun (s : State) => anvPeekNext k (s.mem, s.dev)
      let n := fun (s : State) (w : Word) => p.2.2.2.2 (core s) w
      anvGoes p.1 k p.2.1 (fun s w => (∀ v, next s = some v → p.2.2.2.1 (iwOp v) = true) ∧ n s w ≤ 4096)
        (fun s w => if n s w = 0 then (((core s).pc + 4) % 2 ^ 32 + 4) % 2 ^ 32 else ((core s).pc + 4) % 2 ^ 32)
        (fun s w c => { c with rep := if n s w = 0 then none else some ⟨p.2.2.1, n s w⟩ }) ∧
      anvRaises p.1 k p.2.1 6 (fun s w => (∃ v, next s = some v ∧ p.2.2.2.1 (iwOp v) = false) ∨ 4096 < n s w) (fun _ _ => 0)) ∧
    -- an iteration of a repeat
    (∀ (s : State) (w : Word) (r : Rep), AnvReady s.mem { s.dev with cores := mset .reset s.dev.cores k { core s with rep := none } } k w →
      s.dev.anvReady k = true → (core s).rep = some r → iwOp w = 0x18 → anvFetch k (s.mem, s.dev) = ((s.mem, s.dev), .inr w) →
      Yields (exec (.ldi k) s) fun t => t.mem = s.mem ∧ ((t.dev.core k).wv (iwD w)) = BitVec.ofInt 32 (sx 16 (iwImm16 w)) ∧
        (2 ≤ r.left → (t.dev.core k).pc = (core s).pc ∧ (t.dev.core k).rep = some { r with left := r.left - 1 }) ∧
        (r.left < 2 → (t.dev.core k).pc = ((core s).pc + 4) % 2 ^ 32 ∧ (t.dev.core k).rep = none)) ∧
    -- WAIT
    anvDoes (.wait k) k 0x3D (fun _ w => w.toNat % 4 = 2) (fun _ _ c => { c with waiting := true }) ∧
    -- TRAP, BRK and reserved encodings
    (∀ (s : State) (w : Word), AnvReady s.mem s.dev k w → iwOp w = 0x3F →
      Yields (exec (.trap k) s) fun t => (t.mem, t.dev) = anvExc k 14 (w.toNat % 256) 0 0 (s.mem, s.dev)) ∧
    anvRaises (.brk k) k 0x3D 15 (fun s w => w.toNat % 4 = 3 ∧ (16 ≤ k.val ∨ s.dev.flag DBG_CTL DBG_CTL_brk_halt = false)) (fun _ _ => 0) ∧
    (∀ (s : State) (w : Word), AnvReady s.mem s.dev k w → iwOp w = 0x3D → w.toNat % 4 = 3 → k.val < 16 →
      s.dev.flag DBG_CTL DBG_CTL_brk_halt = true → (s.dev.cluster (k.val / 4)).halting = false →
      Yields (exec (.brk k) s) fun t => t.mem = s.mem ∧ (t.dev.cluster (k.val / 4)).halting = true ∧
        (t.dev.core k).pc = ((core s).pc + 4) % 2 ^ 32) ∧
    (∀ (s : State) (w : Word), s.dev.anvReady k = true → anvFetch k (s.mem, s.dev) = ((s.mem, s.dev), .inr w) →
      iwUndef (core s).byteMode w = true → (core s).stepping = false →
      Yields (exec (.undefEncoding k) s) fun t => (t.mem, t.dev) = anvExc k 6 0 0 0 (s.mem, s.dev)) ∧
    -- a false guard
    (∀ (s : State) (w : Word), s.dev.anvReady k = true → anvFetch k (s.mem, s.dev) = ((s.mem, s.dev), .inr w) →
      iwUndef (core s).byteMode w = false → (core s).pred (iwPg w) = iwPn w → (core s).stepping = false → (core s).stns = [] →
      ∀ p ∈ [(Instr.add k, 0x01), (.br k, 0x3A), (.ld k, 0x30), (.trap k, 0x3F)], iwOp w = p.2 →
        Yields (exec p.1 s) fun t => t.mem = s.mem ∧
          AnvTo k (((core s).pc + 4) % 2 ^ 32) (fun c => { c with rep := none }) s.dev t.dev)

/-- Loads, stores, exclusive accesses and the store buffer of the Anvil cores: where a load reads, what a store leaves
in the buffer, what leaves it, and which exceptions an access raises before anything happens (R242, R243, R245, R246,
R251, R252, R266, R270, R279). It rests on the model's choices in assumptions 36 and 38. -/
def Obligations.AnvilLoadsAndStores : Prop :=
  ∀ (k : Fin 19) (s : State) (w : Word), AnvReady s.mem s.dev k w →
    let c := s.dev.core k
    let next := (c.pc + 4) % 2 ^ 32
    let based := c.byteMode = true ∨ iwAm w = 0 ∨ c.tag (iwBase w) ∈ [0, 1, 6]
    let stepped := fun (size : Nat) (c : Core) => if iwAm w = 2 then
      c.setW (iwBase w) (BitVec.ofInt 32 ((c.wv (iwBase w)).toInt + sx 12 (bits w.toNat 11 0) * size)) (c.tag (iwBase w)) else c
    -- a load from an ingot bank of the core's own island
    (∀ p ∈ [(Instr.ld k, 0x30), (.ldr k, 0x31), (.ldb k, 0x34), (.ldx k, 0x36)], iwOp w = p.2 → ∀ b o,
      let a := loadAddr c w
      let at_ := bankAddr (s.dev.mirror k b) (o / 4 * 4)
      kindOf a = .ingot b o 0 → tgtIsl a = coreIsl k → (p.2 ≠ 0x34 → a % 4 = 0) → (s.dev.rights k c.ring a).testBit 0 = true →
      based ∨ p.2 = 0x36 → c.stores = [] → s.dev.loadHeld k a = false → s.dev.bankUp (s.dev.mirror k b) = true →
      isBank15 (s.dev.mirror k b) = false → s.dev.ingotOk (.core k) (s.dev.mirror k b) false = true → s.mem.errAt at_ = 0 →
      (p.2 = 0x36 ∨ iwAm w ≠ 2 ∨ iwBase w ≠ iwD w) →
      (p.2 = 0x30 → s.mem.tag at_ < 9) →
      Yields (exec p.1 s) fun t => t.mem = s.mem ∧ AnvTo k next (fun c =>
        (if p.2 = 0x36 then { c with monitor := some (bankAddr (s.dev.mirror k b) o) }
          else stepped (if p.2 = 0x34 then 1 else 4) c).setW (iwD w)
          (if p.2 = 0x34 then (s.mem.byte (at_ + a % 4)).setWidth 32 else s.mem.word at_)
          (if p.2 = 0x30 then s.mem.tag at_ else 0)) s.dev t.dev) ∧
    -- LD of a POISON word
    (iwOp w = 0x30 → ∀ b o, let a := loadAddr c w
      let at_ := bankAddr (s.dev.mirror k b) (o / 4 * 4)
      kindOf a = .ingot b o 0 → tgtIsl a = coreIsl k → a % 4 = 0 → (s.dev.rights k c.ring a).testBit 0 = true →
      based → c.stores = [] → s.dev.loadHeld k a = false → s.dev.bankUp (s.dev.mirror k b) = true →
      isBank15 (s.dev.mirror k b) = false → s.dev.ingotOk (.core k) (s.dev.mirror k b) false = true → s.mem.errAt at_ = 0 →
      9 ≤ s.mem.tag at_ → Yields (exec (.ld k) s) fun t => (t.mem, t.dev) = anvExc k 8 0 a 0 (s.mem, s.dev)) ∧
    -- ALIGN and PROT
    (∀ p ∈ [(Instr.ld k, 0x30, 0), (.ldr k, 0x31, 0), (.ldx k, 0x36, 0), (.st k, 0x32, 1), (.str k, 0x33, 1), (.stx k, 0x37, 1)],
      iwOp w = p.2.1 → based ∨ 0x36 ≤ p.2.1 →
      let a := if p.2.1 < 0x36 then memAddr c w 4 else baseAddr c (c.wv (iwA w)) 0
      (a % 4 ≠ 0 → Yields (exec p.1 s) fun t => (t.mem, t.dev) = anvExc k 10 0 a 0 (s.mem, s.dev)) ∧
      (a % 4 = 0 → (s.dev.rights k c.ring a).testBit p.2.2 = false →
        Yields (exec p.1 s) fun t => (t.mem, t.dev) = anvExc k 11 0 a 0 (s.mem, s.dev))) ∧
    -- a load from DDR4 waits for its data
    (∀ p ∈ [(Instr.ld k, 0x30), (.ldr k, 0x31)], iwOp w = p.2 → let a := loadAddr c w
      kindOf a = .ddr → a % 4 = 0 → (s.dev.rights k c.ring a).testBit 0 = true → based → c.stores = [] →
      s.dev.loadHeld k a = false → s.dev.ddrUp = true → s.mem.errAt (a / 8 * 8) = 0 →
      Yields (exec p.1 s) fun t => t.mem = s.mem ∧ t.dev.core k = { c with load := some ⟨w, true, s.mem.word a, 0⟩ } ∧
        (∀ j, j ≠ k.val → t.dev.core j = s.dev.core j) ∧ ChangesOnly [] Dev.noCores s.dev t.dev) ∧
    -- a store enters the buffer
    (∀ p ∈ [(Instr.st k, 0x32), (.str k, 0x33), (.stb k, 0x35)], iwOp w = p.2 → let size := if p.2 = 0x35 then 1 else 4
      let a := memAddr c w size
      let v : Word := if p.2 = 0x35 then BitVec.ofNat 32 ((c.wv (iwD w)).toNat % 256) else c.wv (iwD w)
      let tg := if p.2 = 0x32 then c.tag (iwD w) else 0
      based → (size = 4 → a % 4 = 0) → (s.dev.rights k c.ring a).testBit 1 = true →
      (tg ≠ 0 → keepsTags a = false → Yields (exec p.1 s) fun t => (t.mem, t.dev) = anvExc k 12 0 a 0 (s.mem, s.dev)) ∧
      (tg = 0 ∨ keepsTags a = true → c.stores.length < 4 → Yields (exec p.1 s) fun t => t.mem = s.mem ∧
        AnvTo k next (fun c => stepped size { c with stores := c.stores ++ [⟨a, size, v, tg, c.ring⟩], sig := c.sig ++ [a, size, v.toNat] })
          s.dev t.dev)) ∧
    -- STX with and without the monitor
    (iwOp w = 0x37 → c.stores = [] → ∀ b o, let a := baseAddr c (c.wv (iwA w)) 0
      let bk := s.dev.mirror k b
      let at_ := bankAddr bk o
      kindOf a = .ingot b o 0 → a % 4 = 0 → (s.dev.rights k c.ring a).testBit 1 = true →
      (c.monitor ≠ some at_ → Yields (exec (.stx k) s) fun t => t.mem = s.mem ∧
        AnvTo k next (fun c => { c with monitor := none }.setW (iwD w) 1 1) s.dev t.dev) ∧
      (c.monitor = some at_ → s.dev.bankUp bk = true → isBank15 bk = false → bk ≠ 71 → s.dev.ingotOk (.core k) bk true = true →
        Yields (exec (.stx k) s) fun t => t.mem.word at_ = c.wv (iwB w) ∧ t.mem.tag at_ = 0 ∧
          (∀ x, x < at_ ∨ at_ + 4 ≤ x → t.mem.byte x = s.mem.byte x) ∧ (∀ x, x ≠ at_ → t.mem.tag x = s.mem.tag x) ∧
          ∃ q, t.dev.core k = { ({ c with monitor := none, sig := c.sig ++ [a, 4, (c.wv (iwB w)).toNat] }.setW (iwD w) 0 1) with
            pc := next, pfq := q })) ∧
    -- SYNC.S with nothing to drain
    (iwOp w = 0x2F → c.stores = [] → Yields (exec (.syncS k) s) fun t => t.mem = s.mem ∧ AnvTo k next id s.dev t.dev)

/-- What becomes of buffered stores and of loads under way: a buffered store reaches its word with its tag, a failure is
held for LATE_STORE_ERROR, and a load's data reach its register (R246, R251, R252, R270, R290). It rests on the model's
choices in assumption 38. -/
def Obligations.AnvilBackgroundAccesses : Prop :=
  ∀ (k : Fin 19) (s : State),
    let c := s.dev.core k
    (∀ (e : StoreEnt) (r : List StoreEnt), c.stores = e :: r → s.dev.coreClock k = true → s.dev.windowOf k e.addr = none →
      -- to an ingot bank
      (∀ b o, kindOf e.addr = .ingot b o 0 → let bk := s.dev.mirror k b
        let at_ := bankAddr bk (o / 4 * 4)
        s.dev.bankUp bk = true → isBank15 bk = false → bk ≠ 71 → s.dev.ingotOk (.core k) bk true = true → s.mem.errAt at_ = 0 →
        Yields (exec (.storeComplete k 0) s) fun t => (t.dev.core k).stores = r ∧
          (e.size = 4 → t.mem.word at_ = e.data ∧ t.mem.tag at_ = e.tag ∧
            (∀ x, x < at_ ∨ at_ + 4 ≤ x → t.mem.byte x = s.mem.byte x)) ∧
          (e.size = 1 → t.mem.byte (at_ + e.addr % 4) = e.data.setWidth 8 ∧ t.mem.tag at_ = 0 ∧
            (∀ x, x ≠ at_ + e.addr % 4 → t.mem.byte x = s.mem.byte x)) ∧
          (∀ x, x ≠ at_ → t.mem.tag x = s.mem.tag x) ∧ (t.dev.core k).monitor ≠ some at_) ∧
      -- where nothing takes it
      (kindOf e.addr = .rom ∨ kindOf e.addr = .flash ∨ kindOf e.addr = .reserved →
        Yields (exec (.storeComplete k 0) s) fun t => t.mem = s.mem ∧ ChangesOnly [] Dev.noCores s.dev t.dev ∧
          (c.late = none → t.dev.core k = { c with stores := r, late := some (e.addr, e.data, e.size) }) ∧
          (c.late ≠ none → t.dev.core k = { c with stores := r, lateOvf := true }))) ∧
    -- the entry to LATE_STORE_ERROR
    (∀ a v n, c.late = some (a, v, n) → s.dev.coreLive k = true → c.load = none → s.dev.merging k = false →
      Yields (exec (.lateStoreError k) s) fun t => (t.mem, t.dev) = anvEnter k 2 none c.pc (b2n c.lateOvf * 65536 + n * 256 + 2) a v
        (s.mem, s.dev.modCore k fun c => { c with late := none, lateOvf := false })) ∧
    (c.late = none ∨ s.dev.merging k = true → Yields (exec (.lateStoreError k) s) fun t => t = s) ∧
    -- the data of a load arrive
    (∀ p, c.load = some p → s.dev.coreLive k = true → c.stepping = false → c.rep = none →
      (k.val = 18 ∨ ∀ u < 4, s.dev.fldIf (DBG_BW_CFG k u) DBG_BW_CFG_en = 0) → iwOp p.iw ∈ [0x30, 0x31, 0x34, 0x36] →
      (p.ok = true → (iwOp p.iw = 0x30 → p.tag < 9) → iwOp p.iw = 0x36 ∨ iwAm p.iw ≠ 2 →
        Yields (exec (.loadComplete k) s) fun t => t.mem = s.mem ∧ AnvTo k ((c.pc + 4) % 2 ^ 32)
          (fun c => { c with load := none }.setW (iwD p.iw) p.val (if iwOp p.iw = 0x30 then p.tag else 0)) s.dev t.dev) ∧
      (p.ok = false → Yields (exec (.loadComplete k) s) fun t => (t.mem, t.dev) = anvExc k 13 0 (loadAddr c p.iw) 0
        (s.mem, s.dev.modCore k fun c => { c with load := none }))) ∧
    (c.load = none → Yields (exec (.loadComplete k) s) fun t => t = s)

/-- Side units of the Anvil cores: a dispatch enters a station with what its operands hold or await, and a result
reaches its destination and the stations that await it, with the values, tags and error bits of its operation (R247,
R250, R253, R255). The values of sine, cosine, angle and magnitude are the model's exact ones in units of 2^-80. It
rests on the model's choices in assumptions 21 and 36. -/
def Obligations.AnvilSideUnits : Prop :=
  ∀ k : Fin 19,
    (∀ p ∈ [(Instr.mul k, 0x20), (.mulh k, 0x21), (.mac k, 0x22), (.fadd k, 0x23), (.fsub k, 0x24), (.fmul k, 0x25), (.fcmp k, 0x26),
        (.fcvt k, 0x27), (.sqrt k, 0x28), (.div k, 0x29), (.rem k, 0x2A), (.sincos k, 0x2B), (.atan2 k, 0x2C)],
      ∀ (s : State) (w : Word), AnvReady s.mem s.dev k w → iwOp w = p.2 →
        let c := s.dev.core k
        let x := c.operand (iwA w)
        let y := if p.2 ∈ [0x27, 0x28, 0x2B] then ⟨0, 0, none⟩ else c.operand (iwB w)
        let d := if p.2 = 0x26 then iwPd w else iwD w
        let r := if p.2 = 0x26 then iwCr w else if p.2 = 0x27 then false else iwR w
        let sub := if p.2 = 0x26 then iwCc w else if p.2 = 0x27 then w.toNat % 8 else 0
        (c.stns.filter fun st => unitOf st.op == unitOf p.2).length < 2 →
        ((∃ l, sideTags p.2 c.byteMode r sub x.tag y.tag (c.tag d) (c.tag (d + 1)) = .inr l) →
          Yields (exec p.1 s) fun t => t.mem = s.mem ∧ AnvTo k ((c.pc + 4) % 2 ^ 32)
            (fun c => { c with stns := c.stns ++ [⟨p.2, d, r, sub, x, y⟩] }) s.dev t.dev) ∧
        (c.byteMode = false → r = false → x.tag = 15 →
          Yields (exec p.1 s) fun t => (t.mem, t.dev) = anvExc k 8 0 0 0 (s.mem, s.dev))) ∧
    (∀ (n : Fin 12) (s : State) (st : Stn), s.dev.coreClock k = true → (s.dev.core k).running = true → s.dev.locked k = false →
      sideTurn (s.dev.core k).stns n = true → (s.dev.core k).stns[n.val]? = some st →
      let c := s.dev.core k
      let a := st.a.val
      let b := st.b.val
      let typed := c.byteMode = false ∧ st.r = false
      let raw := c.byteMode = false ∧ st.r = true
      let tags := fun (x y : Nat) => st.a.tag = x ∧ st.b.tag = y
      -- one register takes v with tag tg, and SUERR the bits err
      let gives := fun (v : Word) (tg err : Nat) => Yields (exec (.sideUnitResult k n) s) fun t => t.mem = s.mem ∧
        t.dev.core k = { (c.setW st.d v tg) with
          stns := (c.stns.eraseIdx n).map fun z => { z with a := z.a.feed st.d v, b := z.b.feed st.d v }
          suerr := c.suerr ||| err } ∧
        (∀ j, j ≠ k.val → t.dev.core j = s.dev.core j) ∧ ChangesOnly [] Dev.noCores s.dev t.dev
      let near := fun (i q : Int) (err : Int) => ((i * 2 ^ 80 - q).natAbs : Int) ≤ err * 2 ^ 80
      (st.op = 0x20 → (raw → gives (a * b) 0 0) ∧ (typed → tags 1 1 → gives (a * b) 1 0) ∧
        (typed → tags 5 1 → gives (a * b) 5 0) ∧
        (typed → ∀ p ∈ [(2, 16), (3, 31)], tags p.1 p.1 → let e := (a.toInt * b.toInt + 2 ^ (p.2 - 1)) / 2 ^ p.2
          gives (clampW e) p.1 (if (clampW e).toInt = e then 0 else 4)) ∧
        (c.byteMode = true → gives (BitVec.ofNat 32 (a.toNat % 256 * (b.toNat % 256))) 0 0)) ∧
      (st.op = 0x21 → gives (BitVec.ofInt 32 (a.toInt * b.toInt / 2 ^ 32)) 0 0) ∧
      (st.op = 0x22 → Yields (exec (.sideUnitResult k n) s) fun t => t.mem = s.mem ∧
        (((t.dev.core k).wv (st.d + 1)).toNat * 2 ^ 32 + ((t.dev.core k).wv st.d).toNat : Int) =
          (((c.wv (st.d + 1)).toNat * 2 ^ 32 + (c.wv st.d).toNat : Int) + a.toInt * b.toInt) % 2 ^ 64 ∧
        (t.dev.core k).tag st.d = 0 ∧ (t.dev.core k).tag (st.d + 1) = 0 ∧ (t.dev.core k).suerr = c.suerr ∧
        ∀ i, i ≠ st.d → i ≠ st.d + 1 → (t.dev.core k).wv i = c.wv i ∧ (t.dev.core k).tag i = c.tag i) ∧
      -- division
      (st.op = 0x29 → b = 0 → (typed → tags 1 1 → gives (if 0 ≤ a.toInt then 0x7FFFFFFF else 0x80000000) 15 1) ∧
        (raw → gives (if 0 ≤ a.toInt then 0x7FFFFFFF else 0x80000000) 0 1)) ∧
      (st.op = 0x29 → b ≠ 0 → typed → tags 1 1 → gives (clampW (a.toInt.tdiv b.toInt)) 1
        (if (clampW (a.toInt.tdiv b.toInt)).toInt = a.toInt.tdiv b.toInt then 0 else 4)) ∧
      (st.op = 0x29 → b ≠ 0 → typed → tags 2 2 → gives (clampW ((a.toInt * 2 ^ 16).tdiv b.toInt)) 2
        (if (clampW ((a.toInt * 2 ^ 16).tdiv b.toInt)).toInt = (a.toInt * 2 ^ 16).tdiv b.toInt then 0 else 4)) ∧
      (st.op = 0x2A → (b = 0 → typed → gives 0 15 1) ∧ (b = 0 → raw → gives 0 0 1) ∧
        (b ≠ 0 → typed → gives (BitVec.ofInt 32 (a.toInt.tmod b.toInt)) 1 0)) ∧
      -- square roots of integers, rounded down; of negative Q16 numbers
      (st.op = 0x28 → typed → st.a.tag = 1 → ∃ v : Nat, v * v ≤ a.toNat ∧ a.toNat < (v + 1) * (v + 1) ∧ gives (BitVec.ofNat 32 v) 1 0) ∧
      (st.op = 0x28 → typed → st.a.tag = 2 → a.toInt < 0 → gives 0 15 2) ∧
      -- binary32: the operations of the model's arithmetic, their rule for NaN, and conversions
      (∀ p ∈ [(0x23, fpAdd false), (0x24, fpAdd true), (0x25, fpMul)], st.op = p.1 → typed → ∀ v tg e,
        p.2 a b 4 = ⟨[(v, tg)], e, none⟩ → gives v tg e) ∧
      (st.op ∈ [0x23, 0x24, 0x25] → typed → (bits a.toNat 30 23 = 255 ∧ bits a.toNat 22 0 ≠ 0) ∨
          (bits b.toNat 30 23 = 255 ∧ bits b.toNat 22 0 ≠ 0) → ∃ e, gives 0x7FC00000 4 e) ∧
      (st.op = 0x27 → st.sub = 0 → a.toInt.natAbs < 2 ^ 24 → ∃ v, gives v 4 0 ∧
        (a.toInt = 0 → v = 0) ∧ (a.toInt ≠ 0 → v.toNat.testBit 31 = decide (a.toInt < 0) ∧ ∃ j : Nat, j < 24 ∧
          bits v.toNat 30 23 = 127 + j ∧ a.toInt.natAbs * 2 ^ (23 - j) = 2 ^ 23 + bits v.toNat 22 0)) ∧
      (st.op = 0x26 → typed → Yields (exec (.sideUnitResult k n) s) fun t => t.mem = s.mem ∧
        (t.dev.core k).p = (c.setP st.d ((fpCompare st.sub a b).pred.getD false)).p ∧ (t.dev.core k).w = c.w ∧ (t.dev.core k).tg = c.tg) ∧
      -- CORDIC
      (st.op = 0x2B → typed → Yields (exec (.sideUnitResult k n) s) fun t => t.mem = s.mem ∧ ∃ x y : Int,
        near x ((trigAng a.toNat).1 * 2 ^ 31) 4 ∧ near y ((trigAng a.toNat).2 * 2 ^ 31) 4 ∧
        (t.dev.core k).wv st.d = clampW x ∧ (t.dev.core k).wv (st.d + 1) = clampW y ∧
        (t.dev.core k).tag st.d = 3 ∧ (t.dev.core k).tag (st.d + 1) = 3 ∧ (t.dev.core k).suerr = c.suerr) ∧
      (st.op = 0x2C → typed → a ≠ 0 ∨ b ≠ 0 → Yields (exec (.sideUnitResult k n) s) fun t => t.mem = s.mem ∧ ∃ x y : Int,
        near x (angleQ a.toInt b.toInt) 8 ∧ near y (magQ a.toInt b.toInt) 4 ∧
        (t.dev.core k).wv st.d = BitVec.ofInt 32 x ∧ (t.dev.core k).tag st.d = 5 ∧
        (t.dev.core k).wv (st.d + 1) = clampW (max 0 y) ∧ (t.dev.core k).tag (st.d + 1) = st.a.tag))

/-- Entries of the Anvil cores: an exception or interrupt saves the state in the block of TSR, links the handler's block
to it and goes to the vector's handler in the lower-numbered ring with ie clear; a block that fails makes it
DOUBLE_FAULT, and an entry while df is set is LOCKOUT. Which input is recognised, and what ends WAIT (R268 to R277). It
rests on the model's choices in assumptions 36, 39 and 40. -/
def Obligations.AnvilEntries : Prop :=
  ∀ (k : Fin 19) (s : State),
    let c := s.dev.core k
    -- what is recognised: a pending input of the highest level above ipl, the lowest number on a tie
    (∀ i l, s.dev.intBest k = some (i, l) → i < 64 ∧ s.dev.inputPend k i = true ∧
      l = s.dev.fld (ANV_INT_CFG k i) ANV_INT_CFG_level ∧ c.ipl < l ∧
      ∀ j < 64, s.dev.inputPend k j = true → s.dev.fld (ANV_INT_CFG k j) ANV_INT_CFG_level ≤ l ∧
        (s.dev.fld (ANV_INT_CFG k j) ANV_INT_CFG_level = l → i ≤ j)) ∧
    (∀ i l, s.dev.intBest k = some (i, l) → s.dev.coreLive k = true → c.late = none →
      (s.dev.intReady k = true → Yields (exec (.interruptRecognition k) s) fun t =>
        (t.mem, t.dev) = anvEnter k (32 + i) (some l) c.pc (32 + i) 0 0 (s.mem, s.dev)) ∧
      (c.waiting = true → c.ie = false → Yields (exec (.waitEnd k) s) fun t => t.mem = s.mem ∧
        t.dev = s.dev.modCore k fun c => { c with waiting := false }) ∧
      (c.waiting = true → s.dev.intReady k = true → Yields (exec (.waitEnd k) s) fun t =>
        (t.mem, t.dev) = anvEnter k (32 + i) (some l) c.pc (32 + i) 0 0 (s.mem, s.dev.modCore k fun c => { c with waiting := false }))) ∧
    (s.dev.intReady k = false → Yields (exec (.interruptRecognition k) s) fun t => t = s) ∧
    (s.dev.intBest k = none → Yields (exec (.waitEnd k) s) fun t => t = s) ∧
    -- the read of a vector changes no core and no word
    (∀ v, let x := vectorTouch k v (s.mem, s.dev)
      x.2.cores = s.dev.cores ∧ x.1.bytes = s.mem.bytes ∧ x.1.tags = s.mem.tags) ∧
    -- an entry
    (∀ v lvl pcS cause fa fd h vr b o b2 o2, let ring := min vr c.ring
      let t := mget 0 c.tsbp ring
      let x := (vectorTouch k v (s.mem, s.dev)).2
      let at_ := bankAddr (x.mirror k b) o
      let y := anvEnter k v lvl pcS cause fa fd (s.mem, s.dev)
      c.df = false → Dev.vector s.mem s.dev k v = some (h, vr) → x.blockOk k c.tsr ring = true → x.blockOk k t ring = true →
      c.tsr ≠ t → kindOf c.tsr = .ingot b o 0 → kindOf t = .ingot b2 o2 0 →
      (∀ e ∈ [x.mirror k b, x.mirror k b2], isBank15 e = false ∧ x.flag (ING_BANK_STAT e) ING_BANK_STAT_march_busy = false) →
      y.2.core k = { c with
        pc := h
        ring := ring
        ie := false
        ipl := lvl.getD c.ipl
        tsr := t
        stns := []
        rep := none
        monitor := none
        waiting := false
        mergeWait := false
        inaWait := false
        load := none
        pfq := [] } ∧
      (∀ i < 16, y.1.word (at_ + 4 * i) = c.wv i ∧ y.1.tag (at_ + 4 * i) = 0) ∧
      ((∀ i < 16, c.tag i < 16) → ∀ i < 8, ∀ hi ∈ [0, 1], bits (y.1.word (at_ + 0x40 + 4 * hi)).toNat (4 * i + 3) (4 * i) = c.tag (8 * hi + i)) ∧
      y.1.word (at_ + 0x48) = BitVec.ofNat 32 pcS ∧
      y.1.word (at_ + 0x4C) = BitVec.ofNat 32 ((c.p / 2 * 2 + 1) % 256 * 256 + c.ipl % 16 * 16 + b2n c.ie * 4 + c.ring) ∧
      y.1.word (at_ + 0x50) = BitVec.ofNat 32 (c.ctxid % 65536 * 65536 + c.bk % 65536) ∧
      y.1.word (at_ + 0x54) = BitVec.ofNat 32 cause ∧ y.1.word (at_ + 0x58) = BitVec.ofNat 32 fa ∧ y.1.word (at_ + 0x5C) = fd ∧
      y.1.word (at_ + 0x64) = BitVec.ofNat 32 c.stns.length ∧
      y.1.word (bankAddr (x.mirror k b2) o2 + 0x68) = BitVec.ofNat 32 c.tsr ∧
      y.2.fld (anvA ANV_CTL k) ANV_CTL_last_exc = v % 256) ∧
    -- DOUBLE_FAULT
    (∀ v lvl pcS cause fa fd h vr h1 r1, let ring := min vr c.ring
      let y := anvEnter k v lvl pcS cause fa fd (s.mem, s.dev)
      let emb := fun (i : Nat) => y.2.rd (anvA (fun n => ANV_EMB n i) k)
      let x := vectorTouch k v (s.mem, s.dev)
      c.df = false → Dev.vector s.mem s.dev k v = some (h, vr) → Dev.vector x.1 x.2 k 1 = some (h1, r1) →
      x.2.blockOk k c.tsr ring = false ∨ x.2.blockOk k (mget 0 c.tsbp ring) ring = false ∨ c.tsr = mget 0 c.tsbp ring →
      y.1 = (vectorTouch k 1 x).1 ∧ (y.2.core k).pc = h1 ∧ (y.2.core k).ring = 0 ∧ (y.2.core k).df = true ∧ (y.2.core k).ie = false ∧
      (y.2.core k).tsr = mget 0 c.tsbp 0 ∧ (y.2.core k).stns = [] ∧ y.2.flag (anvA ANV_CTL k) ANV_CTL_df = true ∧
      (∀ i < 16, emb i = c.wv i) ∧ emb 18 = BitVec.ofNat 32 pcS ∧ emb 21 = BitVec.ofNat 32 cause ∧ emb 25 = 0 ∧
      emb 28 = BitVec.ofNat 32 c.tsr ∧ emb 29 = BitVec.ofNat 32 v) ∧
    -- LOCKOUT
    (∀ v lvl pcS cause fa fd, c.df = true → let y := anvEnter k v lvl pcS cause fa fd (s.mem, s.dev)
      y.1 = s.mem ∧ y.2.locked k = true ∧ y.2.fld (anvA ANV_CTL k) ANV_CTL_lock_reason = 1 ∧ (y.2.core k).stns = [] ∧
      (y.2.core k).pc = c.pc ∧
      ∀ l < 16, k.val < 16 → (s.dev.fld (ANV_SUPV k) ANV_SUPV_axes).testBit l = true →
        (y.2.rd (AXS_CAUSE_ACT (k.val / 4 * 16 + l))).toNat.testBit 0x0C = true)

/-- Gates, the return from an exception, checkpoints and agreed inputs of the Anvil cores (R258, R259, R262 to R264,
R274, R303). It rests on the model's choices in assumptions 37, 39 and 62. -/
def Obligations.AnvilGatesAndReturns : Prop :=
  ∀ (k : Fin 19) (s : State) (w : Word), AnvReady s.mem s.dev k w →
    let c := s.dev.core k
    -- the save port reaches a block in this bank
    let plain := fun (b : Nat) => isBank15 b = false ∧ s.dev.flag (ING_BANK_STAT b) ING_BANK_STAT_march_busy = false
    let sameRegs := fun (t : State) => (t.dev.core k).w = c.w ∧ (t.dev.core k).tg = c.tg ∧ (t.dev.core k).p = c.p ∧
      (t.dev.core k).bk = c.bk ∧ (t.dev.core k).tsr = c.tsr
    -- CALLG
    (iwOp w = 0x39 → let g := bits w.toNat 11 0
      let a := (s.dev.fldIf (anvA ANV_GATE_BASE k) ANV_GATE_BASE_gate_base * 8 + 8 * g) % 2 ^ 32
      (s.dev.fldIf (anvA ANV_GATE_CNT k) ANV_GATE_CNT_gate_cnt ≤ g →
        Yields (exec (.callg k) s) fun t => (t.mem, t.dev) = anvExc k 7 0 0 0 (s.mem, s.dev)) ∧
      (g < s.dev.fldIf (anvA ANV_GATE_CNT k) ANV_GATE_CNT_gate_cnt → (s.dev.rights k c.ring a).testBit 0 = true →
        (s.dev.rights k c.ring (a + 4)).testBit 0 = true → c.stores = [] → ∀ w0 w1 t0 t1,
        coreRead k c.ring a 4 (s.mem, s.dev) = ((s.mem, s.dev), some (w0, t0)) →
        coreRead k c.ring (a + 4) 4 (s.mem, s.dev) = ((s.mem, s.dev), some (w1, t1)) →
        let valid := bits w0.toNat 1 0 = 0 ∧ w1.toNat.testBit 31 = true ∧ bits w1.toNat 30 8 = 0 ∧ bits w1.toNat 3 2 = 0 ∧
          (bits w1.toNat 7 4).testBit c.ring = true ∧ w1.toNat % 4 < c.ring
        (¬ valid → Yields (exec (.callg k) s) fun t => (t.mem, t.dev) = anvExc k 7 0 0 0 (s.mem, s.dev)) ∧
        (valid → slotOk k c.tsr = true → ∀ b o, kindOf (gateSlot c.tsr (w1.toNat % 4)) = .ingot b o 0 → let bk := s.dev.mirror k b
          plain bk → s.mem.errAt (bankAddr bk o + 4) = 0 → (s.mem.word (bankAddr bk o + 4)).toNat.testBit 31 = false →
          Yields (exec (.callg k) s) fun t => sameRegs t ∧ (t.dev.core k).pc = w0.toNat ∧ (t.dev.core k).ring = w1.toNat % 4 ∧
            t.mem.word (bankAddr bk o) = BitVec.ofNat 32 (c.pc + 4) ∧
            t.mem.word (bankAddr bk o + 4) = BitVec.ofNat 32 (2 ^ 31 + c.ring) ∧
            ∀ x, x < bankAddr bk o ∨ bankAddr bk o + 8 ≤ x → t.mem.byte x = s.mem.byte x))) ∧
    -- RETG
    (iwOp w = 0x3D → w.toNat % 4 = 0 →
      (c.ring = 3 → Yields (exec (.retg k) s) fun t => (t.mem, t.dev) = anvExc k 7 0 0 0 (s.mem, s.dev)) ∧
      (c.ring ≠ 3 → slotOk k c.tsr = true → ∀ b o, kindOf (gateSlot c.tsr c.ring) = .ingot b o 0 → let bk := s.dev.mirror k b
        let v := s.mem.word (bankAddr bk o + 4)
        plain bk → s.mem.errAt (bankAddr bk o) = 0 → s.mem.errAt (bankAddr bk o + 4) = 0 →
        (v.toNat.testBit 31 = true → c.ring < v.toNat % 4 → Yields (exec (.retg k) s) fun t => sameRegs t ∧
          (t.dev.core k).pc = (s.mem.word (bankAddr bk o)).toNat ∧ (t.dev.core k).ring = v.toNat % 4 ∧
          (t.dev.core k).monitor = none ∧ (t.mem.word (bankAddr bk o + 4)).toNat.testBit 31 = false ∧
          ∀ x, x < bankAddr bk o + 4 ∨ bankAddr bk o + 8 ≤ x → t.mem.byte x = s.mem.byte x) ∧
        (v.toNat.testBit 31 = false ∨ v.toNat % 4 ≤ c.ring →
          Yields (exec (.retg k) s) fun t => (t.mem, t.dev) = anvExc k 7 0 0 0 (s.mem, s.dev)))) ∧
    -- RETI
    (iwOp w = 0x3D → w.toNat % 4 = 1 →
      (c.ring = 3 → Yields (exec (.reti k) s) fun t => (t.mem, t.dev) = anvExc k 7 0 0 0 (s.mem, s.dev)) ∧
      (c.ring ≠ 3 → c.df = false → s.dev.blockOk k c.tsr c.ring = true → ∀ b o b2 o2, kindOf c.tsr = .ingot b o 0 →
        let link := (s.mem.word (bankAddr (s.dev.mirror k b) o + 0x68)).toNat
        let at_ := bankAddr (s.dev.mirror k b2) o2
        let get := fun (x : Nat) => (s.mem.word (at_ + x)).toNat
        s.dev.blockOk k link c.ring = true → kindOf link = .ingot b2 o2 0 → plain (s.dev.mirror k b) → plain (s.dev.mirror k b2) →
        s.mem.errAt (bankAddr (s.dev.mirror k b) o + 0x68) = 0 → (∀ x < 512, s.mem.errAt (at_ + x) = 0) → get 0x64 % 16 = 0 →
        (s.dev.core k).stns = [] →
        Yields (exec (.reti k) s) fun t => t.mem = s.mem ∧ (∀ j, j ≠ k.val → t.dev.core j = s.dev.core j) ∧
          (∀ i < 16, (t.dev.core k).wv i = s.mem.word (at_ + 4 * i) ∧
            (t.dev.core k).tag i = bits (get (0x40 + i / 8 * 4)) (i % 8 * 4 + 3) (i % 8 * 4)) ∧
          (t.dev.core k).pc = get 0x48 ∧ (t.dev.core k).ring = get 0x4C % 4 ∧ (t.dev.core k).ie = (get 0x4C).testBit 2 ∧
          (t.dev.core k).ipl = bits (get 0x4C) 7 4 ∧ (t.dev.core k).ctxid = get 0x50 / 65536 ∧ (t.dev.core k).bk = get 0x50 % 65536 ∧
          (∀ i, 1 ≤ i → i < 8 → (t.dev.core k).pred i = (get 0x4C).testBit (8 + i)) ∧ (t.dev.core k).tsr = link ∧
          (t.dev.core k).stns = [] ∧ (t.dev.core k).monitor = none ∧
          ((get 0x60).testBit 31 = false → (t.dev.core k).rep = none) ∧
          ((get 0x60).testBit 31 = true → (t.dev.core k).rep = some ⟨(get 0x60).testBit 13, get 0x60 % 8192⟩)) ∧
      (c.ring ≠ 3 → c.df = true → let emb := fun (i : Nat) => s.dev.rd (anvA (fun n => ANV_EMB n i) k)
        Yields (exec (.reti k) s) fun t => t.mem = s.mem ∧ (∀ i < 16, (t.dev.core k).wv i = emb i) ∧
          (t.dev.core k).pc = (emb 18).toNat ∧ (t.dev.core k).df = false ∧ (t.dev.core k).tsr = (emb 26).toNat ∧
          (t.dev.core k).ring = (emb 19).toNat % 4)) ∧
    -- CHKPT and INA
    (iwOp w = 0x2E → c.stns = [] →
      (k.val = 18 → Yields (exec (.chkpt k) s) fun t => t.mem = s.mem ∧
        AnvTo k ((c.pc + 4) % 2 ^ 32) (fun c => { c with sig := [] }) s.dev t.dev) ∧
      (∀ q, pairOf k = some q → s.dev.flag (ASY_PAIR_CTL q) ASY_PAIR_CTL_req_merge = false →
        let mine := fun (d : Dev) => if isShadowCore k then (d.pair q).chkS else (d.pair q).chkP
        let kept := fun (d : Dev) => if isShadowCore k then (d.pair q).lastS else (d.pair q).lastP
        (s.dev.pairedQ q = false → Yields (exec (.chkpt k) s) fun t => t.mem = s.mem ∧ (t.dev.core k).pc = (c.pc + 4) % 2 ^ 32 ∧
          (t.dev.core k).sig = [] ∧ ∃ v, kept t.dev = some ⟨w.toNat % 256, v⟩) ∧
        (s.dev.pairedQ q = true → s.dev.blockedQ q = false → (mine s.dev).length < 4 →
          Yields (exec (.chkpt k) s) fun t => t.mem = s.mem ∧ (t.dev.core k).pc = (c.pc + 4) % 2 ^ 32 ∧ (t.dev.core k).sig = [] ∧
            ∃ v, mine t.dev = mine s.dev ++ [⟨w.toNat % 256, v⟩]))) ∧
    (iwOp w = 0x2D →
      (s.dev.isPaired k = false → s.dev.inaAddr k (w.toNat % 8) = none → Yields (exec (.ina k) s) fun t => t.mem = s.mem ∧
        AnvTo k ((c.pc + 4) % 2 ^ 32) (fun c => c.setW (iwD w) 0 0) s.dev t.dev) ∧
      (∀ q v r, pairOf k = some q → isShadowCore k = true → s.dev.pairedQ q = true → s.dev.blockedQ q = false →
        ((s.dev.pair q).ina = v :: r → Yields (exec (.ina k) s) fun t => t.mem = s.mem ∧ (t.dev.pair q).ina = r ∧
          (t.dev.core k).wv (iwD w) = v ∧ (t.dev.core k).tag (iwD w) = 0 ∧ (t.dev.core k).pc = (c.pc + 4) % 2 ^ 32) ∧
        ((s.dev.pair q).ina = [] → Yields (exec (.ina k) s) fun t => t.mem = s.mem ∧ (t.dev.core k).inaWait = true ∧
          (t.dev.core k).pc = c.pc)) ∧
      (∀ q, pairOf k = some q → isShadowCore k = false → s.dev.pairedQ q = true → s.dev.blockedQ q = false →
        s.dev.inaAddr k (w.toNat % 8) = none → Yields (exec (.ina k) s) fun t => t.mem = s.mem ∧
          (t.dev.pair q).ina = (s.dev.pair q).ina ++ [0] ∧ (t.dev.core k).wv (iwD w) = 0))

/-- The watchdogs of cores and clusters: only the core's own key reloads, the first expiry of a core is WDT_WARN, the
second LOCKOUT; a cluster's expiry records CLUSTER_WDT on every axis (R281, R282). It rests on the model's choices in
assumption 39. -/
def Obligations.AnvilWatchdogs : Prop :=
  (∀ (k : Fin 18) (s : State), let c := s.dev.core k
    let full := BitVec.ofNat 32 (s.dev.fld (ANV_WDT_CFG k) ANV_WDT_CFG_period * 1024)
    (∀ (j : Fin 19) (r : Fin 4) (v : Word), j.val = k.val → v.toNat % 65536 = 0x3C96 →
      Yields (exec (.anvWdtKick (.core j r) k v) s) fun t => t.mem = s.mem ∧ t.dev.rd (ANV_WDT_LEFT k) = full ∧
        t.dev.core k = { c with wdtOnce := false } ∧ (∀ i, i ≠ k.val → t.dev.core i = s.dev.core i) ∧
        ChangesOnly [ANV_WDT_LEFT k] Dev.noCores s.dev t.dev) ∧
    (∀ (j : Fin 19) (r : Fin 4) (v : Word), j.val = k.val → v.toNat % 65536 ≠ 0x3C96 →
      Yields (exec (.anvWdtKick (.core j r) k v) s) fun t => t = s) ∧
    -- another writer changes nothing, and a word that is not 0 sets lock_violation
    (∀ (w : Writer) (v : Word), (∀ j r, w = .core j r → j.val ≠ k.val) →
      (v.toNat % 65536 = 0 → Yields (exec (.anvWdtKick w k v) s) fun t => t = s) ∧
      (v.toNat % 65536 ≠ 0 → Yields (exec (.anvWdtKick w k v) s) fun t => t.mem = s.mem ∧
        let u := if k.val < 16 then ANV_UNLOCK (k.val / 4) else GLB_UNLOCK
        t.dev.rd u = s.dev.rd u ||| 0x80000000 ∧ ChangesOnly [u] id s.dev t.dev)) ∧
    (s.dev.coreClock k = true → s.dev.flag (ANV_WDT_CFG k) ANV_WDT_CFG_en = true → s.dev.coreHalted k = false → s.dev.locked k = false →
      s.dev.rd (ANV_WDT_LEFT k) = 0 →
      (c.wdtOnce = true → Yields (exec (.coreWdtExpiry k) s) fun t => t.mem = s.mem ∧ t.dev.locked k = true ∧
        t.dev.fld (ANV_CTL k) ANV_CTL_lock_reason = 3) ∧
      (c.wdtOnce = false → s.dev.merging k = true → Yields (exec (.coreWdtExpiry k) s) fun t => t = s) ∧
      (c.wdtOnce = false → s.dev.merging k = false → Yields (exec (.coreWdtExpiry k) s) fun t => t.dev.flag (ANV_WDT_CFG k) ANV_WDT_CFG_warned = true ∧
        t.dev.rd (ANV_WDT_LEFT k) = full ∧ (t.dev.core k).wdtOnce = true ∧
        (s.dev.coreLive k = true → c.late = none → (t.mem, t.dev) = anvEnter k 3 none c.pc 3 0 0 (s.mem,
          (wdtReload k (s.dev.setB (ANV_WDT_CFG k) ANV_WDT_CFG_warned true)).modCore k fun c => { c with wdtOnce := true })))) ∧
    (s.dev.flag (ANV_WDT_CFG k) ANV_WDT_CFG_en = false ∨ s.dev.rd (ANV_WDT_LEFT k) ≠ 0 → Yields (exec (.coreWdtExpiry k) s) fun t => t = s)) ∧
  (∀ (c : Fin 4) (s : State), s.dev.clusterRuns c = true → s.dev.flag (ANV_CWDT_CFG c) ANV_CWDT_CFG_en = true →
    let period := s.dev.fld (ANV_CWDT_CFG c) ANV_CWDT_CFG_period
    let mask := s.dev.fld (ANV_CWDT_CFG c) ANV_CWDT_CFG_kick_mask
    let marks := fun (d : Dev) => d.fld (ANV_CWDT_STAT c) ANV_CWDT_STAT_kicked
    ((s.dev.cluster c).cwdtLeft = 0 → Yields (exec (.clusterWdtExpiry c) s) fun t => t.mem = s.mem ∧ t.dev.flag (ANV_CWDT_CFG c) ANV_CWDT_CFG_expired = true ∧
      marks t.dev = 0 ∧ (t.dev.cluster c).cwdtLeft = period * 1024 ∧ (t.dev.cluster c).cwdtWarn = false ∧
      ∀ l < 16, s.dev.axSt (c.val * 16 + l) ≠ stRetired → (t.dev.rd (AXS_CAUSE_SEEN (c.val * 16 + l))).toNat.testBit 0x0D = true) ∧
    ((s.dev.cluster c).cwdtLeft ≠ 0 → Yields (exec (.clusterWdtExpiry c) s) fun t => t = s) ∧
    (period * 512 < (s.dev.cluster c).cwdtLeft → Yields (exec (.clusterWdtWarning c) s) fun t => t = s) ∧
    ((s.dev.cluster c).cwdtLeft ≤ period * 512 → Yields (exec (.clusterWdtWarning c) s) fun t => t.mem = s.mem ∧ (t.dev.cluster c).cwdtWarn = true ∧
      (t.dev.cluster c).cwdtLeft = (s.dev.cluster c).cwdtLeft ∧ (∀ i, i ≠ c.val → t.dev.cluster i = s.dev.cluster i) ∧
      ChangesOnly [] Dev.noClusters s.dev t.dev) ∧
    (∀ (j : Fin 19) (r : Fin 4) (v : Word), j.val / 4 = c → v.toNat % 65536 = 0x3C96 → mask.testBit (j.val % 4) = true →
      let n := setBit (marks s.dev) (j.val % 4) true
      Yields (exec (.anvCwdtKick (.core j r) c v) s) fun t => t.mem = s.mem ∧
        (n &&& mask = mask → marks t.dev = 0 ∧ (t.dev.cluster c).cwdtLeft = period * 1024 ∧ (t.dev.cluster c).cwdtWarn = false) ∧
        (n &&& mask ≠ mask → marks t.dev = n ∧ t.dev.clusters = s.dev.clusters) ∧
        ChangesOnly [ANV_CWDT_STAT c] Dev.noClusters s.dev t.dev) ∧
    (∀ (w : Writer) (v : Word), (∀ j r, w = .core j r → j.val / 4 ≠ c.val ∨ mask.testBit (j.val % 4) = false) ∨ v.toNat % 65536 ≠ 0x3C96 →
      Yields (exec (.anvCwdtKick w c v) s) fun t => t = s))

/-- Ownership of ingot banks, the end of a march test, patrol scrub and requests of the host through BAR2 (R285, R293 to
R296, R323). It rests on the model's choices in assumptions 41 and 42. -/
def Obligations.MemoriesAndTheirMasters : Prop :=
  (∀ (w : Writer) (b : Fin 72) (v : Word) (s : State), s.dev.bankUp b = true →
    let c := fget ING_BANK_OWN_owner v
    let may := !isBank15 b && b.val != 71 && ownCode b c && s.dev.ownWriter w b
    Yields (exec (.ingBankOwnWrite w b v) s) fun t => t.mem = s.mem ∧ t.dev.rd (ING_BANK_OWN b) = s.dev.rd (ING_BANK_OWN b) ∧
      (may = true → t.dev.flag (ING_BANK_STAT b) ING_BANK_STAT_own_pend = true ∧ mget 0 t.dev.ownNext b = c + 1) ∧
      (may = false → t.dev.flag (ING_BANK_STAT b) ING_BANK_STAT_own_refused = true ∧ t.dev.ownNext = s.dev.ownNext) ∧
      -- a writer that R285 does not name, and a change of the field: lock_violation
      let u := if b.val < 64 then ING_UNLOCK (b.val / 16) else GLB_UNLOCK
      (s.dev.ownWriter w b = false ∧ c ≠ s.dev.fld (ING_BANK_OWN b) ING_BANK_OWN_owner → t.dev.rd u = s.dev.rd u ||| 0x80000000) ∧
      (s.dev.ownWriter w b = true ∨ c = s.dev.fld (ING_BANK_OWN b) ING_BANK_OWN_owner → t.dev.rd u = s.dev.rd u) ∧
      ChangesOnly [ING_BANK_STAT b, u] (fun x => x.noWindows.noOwnNext) s.dev t.dev) ∧
  (∀ (b : Fin 72) (s : State) (n : Nat), mget 0 s.dev.ownNext b = n + 1 → n < 16 →
    (s.dev.bankUp b = true → s.dev.drained b = true → Yields (exec (.ownerHandover b) s) fun t => t.mem = s.mem ∧
      t.dev.fld (ING_BANK_OWN b) ING_BANK_OWN_owner = n ∧ t.dev.flag (ING_BANK_STAT b) ING_BANK_STAT_own_pend = false ∧
      mget 0 t.dev.ownNext b = 0 ∧ ChangesOnly [ING_BANK_OWN b, ING_BANK_STAT b] Dev.noOwnNext s.dev t.dev) ∧
    (s.dev.drained b = false → Yields (exec (.ownerHandover b) s) fun t => t = s)) ∧
  (∀ (b : Fin 72) (first : Option (Fin 16384)) (s : State), s.dev.bankUp b = true →
    s.dev.flag (ING_BANK_STAT b) ING_BANK_STAT_march_busy = true →
    let a := bankAddr b 0
    Yields (exec (.marchTestEnd b first) s) fun t =>
      (∀ x, a ≤ x → x < a + 0x10000 → t.mem.byte x = 0 ∧ t.mem.tag x = 0 ∧ t.mem.errAt x = 0) ∧
      (∀ x, x < a ∨ a + 0x10000 ≤ x → t.mem.byte x = s.mem.byte x ∧ t.mem.tag x = s.mem.tag x ∧ t.mem.errAt x = s.mem.errAt x) ∧
      t.mem.host = s.mem.host ∧ t.dev.flag (ING_BANK_STAT b) ING_BANK_STAT_march_busy = false ∧
      t.dev.rd (ING_MARCH b) = BitVec.ofNat 32 (match first with
        | some i => 2 ^ 31 + 2 ^ 30 + 4 * i.val
        | none => 2 ^ 31) ∧
      (∀ x ∈ s.dev.waits, x.op = 0x0902 → x.target = bankNo b → x ∉ t.dev.waits ∧
        ∃ y ∈ t.dev.cpls, y.sq = x.sq ∧ y.cid = x.cid ∧ y.status = stOk) ∧
      (∀ k < 19, ∀ m, (s.dev.core k).monitor = some m → t.dev.core k =
        { s.dev.core k with monitor := if a ≤ m ∧ m < a + 0x10000 then none else some m }) ∧
      (∀ k, 19 ≤ k ∨ (s.dev.core k).monitor = none → t.dev.core k = s.dev.core k) ∧
      ChangesOnly [ING_BANK_STAT b, ING_MARCH b] (fun x => x.noWaits.noCpls.noCores) s.dev t.dev) ∧
  (∀ s : State, s.dev.now < s.dev.scrubCcyc + s.dev.fld MEM_SCRUB MEM_SCRUB_scrub_iv * 800 →
    Yields (exec .patrolScrub s) fun t => t = s) ∧
  (∀ s : State, s.dev.ddrUp = true → s.dev.fld MEM_SCRUB MEM_SCRUB_scrub_iv ≠ 0 →
    s.dev.scrubCcyc + s.dev.fld MEM_SCRUB MEM_SCRUB_scrub_iv * 800 ≤ s.dev.now →
    let base := 0x80000000 + s.dev.scrubAt * 64
    Yields (exec .patrolScrub s) fun t => t.mem.bytes = s.mem.bytes ∧ t.mem.tags = s.mem.tags ∧ t.mem.host = s.mem.host ∧
      t.dev.scrubAt = (s.dev.scrubAt + 1) % 29360128 ∧ t.dev.scrubCcyc = s.dev.now ∧
      (∀ i < 8, s.mem.errAt (base + 8 * i) = 1 → t.mem.errAt (base + 8 * i) = 0) ∧
      (∀ x, s.mem.errAt x ≠ 1 ∨ x < base ∨ base + 64 ≤ x → t.mem.errAt x = s.mem.errAt x) ∧
      t.dev.fld MEM_SCRUB_PASS MEM_SCRUB_PASS_passes = (if (s.dev.scrubAt + 1) % 29360128 = 0
        then (s.dev.fld MEM_SCRUB_PASS MEM_SCRUB_PASS_passes + 1) % 2 ^ 32 else s.dev.fld MEM_SCRUB_PASS MEM_SCRUB_PASS_passes) ∧
      ChangesOnly [MEM_SCRUB_PASS, MEM_STAT, MEM_ERR_ADDR] Dev.noScrub s.dev t.dev) ∧
  (∀ (x : Fin 0x10000000) (s : State), s.dev.linkUp = true →
    let a := s.dev.bar2 (x.val / 4 * 4)
    let err := fun (d : Dev) (f : Fld) => d.fld GLB_PCIE_ERR f
    (s.dev.memOff = true → ∀ wr poisoned ps, Yields (exec (.bar2Access wr poisoned x ps) s) fun t => t.mem = s.mem ∧
      err t.dev GLB_PCIE_ERR_ur_sent = min 255 (err s.dev GLB_PCIE_ERR_ur_sent + 1) ∧
      t.dev.pcie.sent = s.dev.pcie.sent ++ (if wr then [] else [.cpl 1 [] false]) ∧
      ChangesOnly [GLB_PCIE_ERR] Dev.noPcie s.dev t.dev) ∧
    (s.dev.memOff = false → ∀ ps, Yields (exec (.bar2Access true true x ps) s) fun t => t.mem = s.mem ∧
      err t.dev GLB_PCIE_ERR_poison_rx = min 255 (err s.dev GLB_PCIE_ERR_poison_rx + 1) ∧ t.dev.pcie.poisonLog = true ∧
      ChangesOnly [GLB_PCIE_ERR] Dev.noPcie s.dev t.dev) ∧
    -- one piece read and one piece written
    (s.dev.memOff = false → s.dev.ddrUp = true → s.mem.errAt (a / 8 * 8) = 0 →
      (∀ p v, s.dev.hostWin false a = true → Yields (exec (.bar2Access false p x [some v]) s) fun t => t.mem = s.mem ∧
        t.dev.pcie.sent = s.dev.pcie.sent ++ [.cpl 0 [s.mem.word a] false] ∧ ChangesOnly [] Dev.noPcie s.dev t.dev) ∧
      (∀ v, s.dev.hostWin true a = true → Yields (exec (.bar2Access true false x [some v]) s) fun t => t.mem.word a = v ∧
        (∀ y, y < a ∨ a + 4 ≤ y → t.mem.byte y = s.mem.byte y) ∧ t.mem.tags = s.mem.tags ∧ t.mem.host = s.mem.host ∧
        ChangesOnly [] Dev.noCores s.dev t.dev)) ∧
    (s.dev.memOff = false → (∀ p v, s.dev.hostWin false a = false → Yields (exec (.bar2Access false p x [some v]) s) fun t =>
        t.mem = s.mem ∧ t.dev.pcie.sent = s.dev.pcie.sent ++ [.cpl 0 [0xFFFFFFFF] false] ∧
        t.dev.fld MEM_HOST_DENY MEM_HOST_DENY_deny_cnt = min (2 ^ 32 - 1) (s.dev.fld MEM_HOST_DENY MEM_HOST_DENY_deny_cnt + 1) ∧
        ChangesOnly [MEM_HOST_DENY] Dev.noPcie s.dev t.dev) ∧
      (∀ v, s.dev.hostWin true a = false ∨ v = none → Yields (exec (.bar2Access true false x [v]) s) fun t => t.mem = s.mem ∧
        t.dev.fld MEM_HOST_DENY MEM_HOST_DENY_deny_cnt = min (2 ^ 32 - 1) (s.dev.fld MEM_HOST_DENY MEM_HOST_DENY_deny_cnt + 1) ∧
        ChangesOnly [MEM_HOST_DENY] id s.dev t.dev)))

/-- Core pairs: what agrees goes on as one, what differs or lags blocks the pair with its operands recorded; SPLIT lets
the shadow restore from its own block, and MERGE copies the primary's state and the marked mirror banks (R303 to R311).
A write of ASY_INA_MAP takes an address of a register outside the Assay units; any other is discarded with cfg_err
(R303). It rests on the model's choices in assumptions 43 and 62. -/
def Obligations.CorePairsAndAgreedInputs : Prop :=
  (
    ∀ (q : Fin 9) (s : State), s.dev.pairRuns q = true →
      let p := s.dev.pair q
      let stat := ASY_PAIR_STAT q
      let blocked := fun (t : State) (kind a0 a1 b0 b1 : Nat) => t.mem = s.mem ∧ t.dev.blockedQ q = true ∧
        t.dev.fld stat ASY_PAIR_STAT_mis_kind = kind ∧ t.dev.rd (ASY_MIS_A q 0) = BitVec.ofNat 32 a0 ∧
        t.dev.rd (ASY_MIS_A q 1) = BitVec.ofNat 32 a1 ∧ t.dev.rd (ASY_MIS_B q 0) = BitVec.ofNat 32 b0 ∧
        t.dev.rd (ASY_MIS_B q 1) = BitVec.ofNat 32 b1 ∧ (t.dev.pair q).outP = [] ∧ (t.dev.pair q).outS = [] ∧
        (∀ i, i ≠ q.val → t.dev.pair i = s.dev.pair i) ∧ t.dev.cores = s.dev.cores
      let compares := s.dev.pairedQ q = true ∧ s.dev.blockedQ q = false
      (∀ a ra b rb, compares → p.outP = a :: ra → p.outS = b :: rb →
        (a.addr ≠ b.addr ∨ a.size ≠ b.size → Yields (exec (.outputCompare q) s) fun t =>
          blocked t 3 a.addr a.data.toNat b.addr b.data.toNat ∧ t.dev.flag stat ASY_PAIR_STAT_out_mis = true) ∧
        (a.addr = b.addr → a.size = b.size → a.data ≠ b.data → Yields (exec (.outputCompare q) s) fun t =>
          blocked t 4 a.addr a.data.toNat b.addr b.data.toNat ∧ t.dev.flag stat ASY_PAIR_STAT_out_mis = true) ∧
        (a.addr = b.addr → a.size = b.size → a.data = b.data → ∀ bk o, kindOf a.addr = .ingot bk o 0 → a.size = 4 → a.addr % 4 = 0 →
          s.dev.bankUp bk = true → isBank15 bk = false → bk ≠ 71 → s.dev.ingotOk (.core (2 * q.val)) bk true = true →
          Yields (exec (.outputCompare q) s) fun t => t.mem.word (bankAddr bk o) = a.data ∧ t.mem.tag (bankAddr bk o) = a.tag ∧
            (∀ x, x < bankAddr bk o ∨ bankAddr bk o + 4 ≤ x → t.mem.byte x = s.mem.byte x) ∧
            (t.dev.pair q).outP = ra ∧ (t.dev.pair q).outS = rb ∧
            t.dev.fld (ASY_OUT_CNT q) ASY_OUT_CNT_out_cnt = (s.dev.fld (ASY_OUT_CNT q) ASY_OUT_CNT_out_cnt + 1) % 2 ^ 32)) ∧
      (∀ a ra b rb, compares → p.chkP = a :: ra → p.chkS = b :: rb →
        let kind := if a.id ≠ b.id then 1 else 2
        (a.id ≠ b.id ∨ a.val ≠ b.val → Yields (exec (.checkpointCompare q) s) fun t =>
          blocked t kind (a.val % 2 ^ 32) (a.val / 2 ^ 32 % 2 ^ 32) (b.val % 2 ^ 32) (b.val / 2 ^ 32 % 2 ^ 32) ∧
          t.dev.flag stat ASY_PAIR_STAT_chk_mis = true) ∧
        (a = b → Yields (exec (.checkpointCompare q) s) fun t => t.mem = s.mem ∧
          t.dev.pair q = { p with chkP := ra, chkS := rb, lastP := some a, lastS := some b, agreed := true } ∧
          t.dev.fld (ASY_CHK_CNT q) ASY_CHK_CNT_chk_cnt = (s.dev.fld (ASY_CHK_CNT q) ASY_CHK_CNT_chk_cnt + 1) % 2 ^ 32 ∧
          ChangesOnly [ASY_CHK_CNT q] Dev.noPairs s.dev t.dev)) ∧
      (compares → s.dev.coreHalted (2 * q.val) = false → s.dev.coreHalted (2 * q.val + 1) = false →
        (p.chkP ≠ [] ∨ p.chkS ≠ [] ∨ p.outP ≠ [] ∨ p.outS ≠ []) →
        s.dev.fld (ASY_PAIR_CTL q) ASY_PAIR_CTL_lag_max * 128 ≤ p.lagT →
        Yields (exec (.lagExpiry q) s) fun t => (∃ a0 a1 b0 b1, blocked t 5 a0 a1 b0 b1) ∧
          t.dev.flag stat ASY_PAIR_STAT_lag = true) ∧
      ((p.chkP = [] ∧ p.chkS = [] ∧ p.outP = [] ∧ p.outS = []) ∨ p.lagT < s.dev.fld (ASY_PAIR_CTL q) ASY_PAIR_CTL_lag_max * 128 →
        Yields (exec (.lagExpiry q) s) fun t => t = s) ∧
      -- requests
      (∀ w, s.dev.accepts w (ASY_PAIR_CTL q) = true → s.dev.fld (ASY_PAIR_CTL q) ASY_PAIR_CTL_lag_max ≠ 0 →
        let ask := fun (x : Dev) => (x.flag (ASY_PAIR_CTL q) ASY_PAIR_CTL_req_split, x.flag (ASY_PAIR_CTL q) ASY_PAIR_CTL_req_merge)
        let rest := fun (t : State) => t.mem = s.mem ∧ ChangesOnly [ASY_PAIR_CTL q] (fun x => x.noPairs.noWindows) s.dev t.dev
        (ask s.dev = (false, false) → s.dev.pairedQ q = true → Yields (exec (.reqSplit w q) s) fun t => rest t ∧
          ask t.dev = (true, false) ∧ (t.dev.pair q).agreed = false) ∧
        (ask s.dev = (false, false) → s.dev.pairedQ q = false → (s.dev.core (2 * q.val)).byteMode = (s.dev.core (2 * q.val + 1)).byteMode →
          s.dev.mirrorUnowned q = false → Yields (exec (.reqMerge w q) s) fun t => rest t ∧ ask t.dev = (false, true)) ∧
        (ask s.dev ≠ (false, false) ∨ s.dev.pairedQ q = false → Yields (exec (.reqSplit w q) s) fun t => rest t ∧ ask t.dev = ask s.dev) ∧
        (ask s.dev ≠ (false, false) ∨ s.dev.pairedQ q = true ∨ s.dev.mirrorUnowned q = true →
          Yields (exec (.reqMerge w q) s) fun t => rest t ∧ ask t.dev = ask s.dev)) ∧
      -- SPLIT
      (s.dev.splitReady q = false → Yields (exec (.splitApply q) s) fun t => t = s) ∧
      (s.dev.splitReady q = true → Yields (exec (.splitApply q) s) fun t => t.dev.pairedQ q = false ∧ t.dev.blockedQ q = false ∧
        t.dev.flag stat ASY_PAIR_STAT_switched = true ∧ t.dev.flag (ASY_PAIR_CTL q) ASY_PAIR_CTL_req_split = false ∧
        t.dev.pair q = .reset ∧ t.dev.core (2 * q.val) = s.dev.core (2 * q.val) ∧
        let c := s.dev.core (2 * q.val + 1)
        ∀ b o, s.dev.blockOk (2 * q.val + 1) c.tsr c.ring = true → kindOf c.tsr = .ingot b o 0 → isBank15 b = false →
          s.dev.flag (ING_BANK_STAT b) ING_BANK_STAT_march_busy = false → (∀ x < 512, s.mem.errAt (bankAddr b o + x) = 0) →
          t.mem = s.mem ∧ (∀ i < 16, (t.dev.core (2 * q.val + 1)).wv i = s.mem.word (bankAddr b o + 4 * i)) ∧
          (t.dev.core (2 * q.val + 1)).pc = (s.mem.word (bankAddr b o + 0x48)).toNat) ∧
      -- MERGE
      (s.dev.mergeReady q = false ∨ p.copying = true → Yields (exec (.mergeCopy q) s) fun t => t = s) ∧
      (s.dev.mergeReady q = true → p.copying = false → Yields (exec (.mergeCopy q) s) fun t =>
        let a := s.dev.core (2 * q.val)
        let b := t.dev.core (2 * q.val + 1)
        let copies := fun (m : Nat) => s.dev.flag (ASY_MIR q m) ASY_MIR_en && s.dev.flag (ASY_MIR q m) ASY_MIR_copy
        (t.dev.pair q).copying = true ∧ t.dev.core (2 * q.val) = a ∧ b.w = a.w ∧ b.tg = a.tg ∧ b.p = a.p ∧ b.bk = a.bk ∧ b.pc = a.pc ∧
        b.tsr = a.tsr ∧ b.tsbp = a.tsbp ∧ b.ctxid = a.ctxid ∧ b.ring = a.ring ∧ b.ipl = a.ipl ∧ b.ie = a.ie ∧
        ((∀ m < 4, copies m = false) → t.mem = s.mem) ∧
        (∀ m < 4, s.mem.wf = true → copies m = true → (∀ i < 4, i ≠ m → copies i = false) →
          let x := bankAddr (mirBank q (s.dev.fld (ASY_MIR q m) ASY_MIR_pbank)) 0
          let y := bankAddr (mirBank q (s.dev.fld (ASY_MIR q m) ASY_MIR_sbank)) 0
          (∀ i < 0x10000, t.mem.byte (y + i) = s.mem.byte (x + i) ∧ t.mem.tag (y + i) = s.mem.tag (x + i)) ∧
          ∀ i, i < y ∨ y + 0x10000 ≤ i → t.mem.byte i = s.mem.byte i ∧ t.mem.tag i = s.mem.tag i)) ∧
      -- the copy takes 960 ccyc, and 16,384 for each bank copied
      (s.dev.copySpan q = 960 + 16384 * ((List.range 4).countP fun m =>
        s.dev.flag (ASY_MIR q m) ASY_MIR_en && s.dev.flag (ASY_MIR q m) ASY_MIR_copy)) ∧
      (s.dev.mergeReady q = true → p.copying = true → s.dev.copySpan q ≤ p.copyT → Yields (exec (.mergeComplete q) s) fun t => t.mem = s.mem ∧
        t.dev.pairedQ q = true ∧ t.dev.flag stat ASY_PAIR_STAT_switched = true ∧ t.dev.pair q = .reset ∧
        t.dev.flag (ASY_PAIR_CTL q) ASY_PAIR_CTL_req_merge = false ∧
        ∀ k ∈ [2 * q.val, 2 * q.val + 1], (t.dev.core k).pc = ((s.dev.core k).pc + 4) % 2 ^ 32 ∧ (t.dev.core k).mergeWait = false ∧
          (t.dev.core k).sig = []) ∧
      (s.dev.mergeReady q = false ∨ p.copying = false ∨ p.copyT < s.dev.copySpan q → Yields (exec (.mergeComplete q) s) fun t => t = s)) ∧
  (
    ∀ (w : Writer) (c : Fin 5) (n : Fin 8) (v : Word) (s : State), (if c.val < 4 then s.dev.clusterRuns c else !s.dev.clkHeld) = true →
      let a := fget ASY_INA_MAP_addr v * 4
      let bad := a < 0x02000000 ∨ 0x03000000 ≤ a ∨ (findClass a regsASY).isSome = true
      s.dev.accepts w (ASY_INA_MAP c n) = true →
      (bad → Yields (exec (.asyInaMapWrite w c n v) s) fun t => t.mem = s.mem ∧ t.dev.flag (ASY_GSTAT c) ASY_GSTAT_cfg_err = true ∧
        ChangesOnly [ASY_GSTAT c] Dev.noWindows s.dev t.dev) ∧
      (¬ bad → Yields (exec (.asyInaMapWrite w c n v) s) fun t => t.mem = s.mem ∧ Wrote w (ASY_INA_MAP c n) v s.dev t.dev ∧
        ChangesOnly [ASY_INA_MAP c n] Dev.noWindows s.dev t.dev))

/-- Rings of the Ladle: what a doorbell does, how a descriptor is fetched and checked, and where completion and event
records are written in host memory; the admin rings; and requests to host memory that fail (R330, R331, R333, R334, R336
to R340, R347 to R350). It rests on the model's choices in assumption 45. -/
def Obligations.LadleRings : Prop :=
  (∀ (w : Writer) (r : Fin 4096) (v : Word) (s : State),
    let i := v.toNat
    let n := s.dev.ringN r
    let bad := fun (reason : Nat) => Yields (exec (.doorbell w r v) s) fun t => t.mem = s.mem ∧
      t.dev.rd LDL_DB_ERR = BitVec.ofNat 32 (reason * 4096 + r.val) ∧ t.dev.flag LDL_GSTAT LDL_GSTAT_db_err = true ∧
      ChangesOnly [LDL_GSTAT, LDL_DB_ERR] id s.dev t.dev
    (w ≠ .host → bad 5) ∧
    (w = .host → s.dev.ringOn r = false ∨ s.dev.ringDel r = true → bad 1) ∧
    (w = .host → s.dev.ringOn r = true → s.dev.ringDel r = false →
      (s.dev.ringBad r = true → bad 4) ∧
      (s.dev.ringBad r = false → 2 ^ 15 ≤ i → bad 3) ∧
      (s.dev.ringBad r = false → i < 2 ^ 15 → n ≤ i → bad 2) ∧
      (s.dev.ringBad r = false → i < 2 ^ 15 → i < n →
        (s.dev.ringType r = 1 ∨ s.dev.ringType r = 4 →
          (s.dev.ringRoom r < (i + n - s.dev.ringTail r) % n → bad 6) ∧
          ((i + n - s.dev.ringTail r) % n ≤ s.dev.ringRoom r → Yields (exec (.doorbell w r v) s) fun t => t.mem = s.mem ∧
            t.dev.ringTail r = i ∧ t.dev.ringHead r = s.dev.ringHead r ∧ ChangesOnly [LDL_RING_PTR r] Dev.noBells s.dev t.dev)) ∧
        (s.dev.ringType r ≠ 1 → s.dev.ringType r ≠ 4 →
          (s.dev.ringUsed r < (i + n - s.dev.ringHead r) % n → bad 6) ∧
          ((i + n - s.dev.ringHead r) % n ≤ s.dev.ringUsed r → s.dev.fldIf (LDL_RING_CFG r) LDL_RING_CFG_mir = 0 →
            Yields (exec (.doorbell w r v) s) fun t => t.mem = s.mem ∧
            t.dev.ringHead r = i ∧ t.dev.ringTail r = s.dev.ringTail r ∧ ChangesOnly [LDL_RING_PTR r] id s.dev t.dev))))) ∧
  -- one descriptor that waits in an SQ
  (∀ (r : Fin 4096) (s : State), s.dev.isRing r 1 = true → s.dev.ringBad r = false → s.dev.ringDel r = false → s.dev.hostOk = true →
    s.dev.fld GLB_PCIE_STAT GLB_PCIE_STAT_dstate ≠ 3 → s.dev.ringUsed r = 1 → s.dev.fldIf (LDL_RING_CFG r) LDL_RING_CFG_mir = 0 →
    let h := s.dev.ringHead r
    let b := s.mem.hostSpan (s.dev.ringBase r + 64 * h) 64
    let nh := (h + 1) % s.dev.ringN r
    let rest := fun (t : State) => t.mem = s.mem ∧ t.dev.ringHead r = nh ∧ (∀ q, q ≠ r.val → t.dev.sqOf q = s.dev.sqOf q)
    (dChain b = true → Yields (exec (.descriptorFetch r) s) fun t => rest t ∧ (t.dev.sqOf r).part = (s.dev.sqOf r).part ++ [b] ∧
      (t.dev.sqOf r).cmds = (s.dev.sqOf r).cmds) ∧
    (dChain b = false → (s.dev.sqOf r).part = [] →
      (formRefusal [b] = none → s.dev.authCheck [b] = .inr none → Yields (exec (.descriptorFetch r) s) fun t => rest t ∧
        (t.dev.sqOf r).part = [] ∧ (∃ o, (t.dev.sqOf r).cmds = (s.dev.sqOf r).cmds ++ [⟨[b], nh, o, none, false⟩]) ∧
        ChangesOnly [LDL_RING_PTR r] (fun x => x.noSqs.noBells) s.dev t.dev) ∧
      (∀ st, formRefusal [b] = some st → Yields (exec (.descriptorFetch r) s) fun t => rest t ∧
        ∃ o, (t.dev.sqOf r).cmds = (s.dev.sqOf r).cmds ++ [⟨[b], nh, o, some st, false⟩]))) ∧
  -- the record of a completed command
  (∀ (r : Fin 4096) (s : State) (c : Cmd) (l : List Cmd) (k : Cpl), (s.dev.sqOf r).cmds = c :: l → s.dev.cplOf r = some k →
    s.dev.hostOk = true → s.dev.cqRoom r = true → dQuiet c.d0 = false ∨ k.status ≠ stOk →
    dOp c.d0 ∉ [0x0110, 0x0111, 0x0120, 0x0803] → c.refuse = none → c.descs.length = 1 → s.dev.ringDel 0 = false → s.dev.ringDel r = false →
    let q := s.dev.ringLink r
    let a := s.dev.ringBase q + 16 * s.dev.ringTail q
    let ph := s.dev.fld (LDL_RING_PTR q) LDL_RING_PTR_phase
    Yields (exec (.completionWrite r) s) fun t => t.mem.bytes = s.mem.bytes ∧ t.mem.tags = s.mem.tags ∧
      t.mem.hostSpan a 16 = leBytes 4 (dTag c.d0) ++ leBytes 2 k.status ++ leBytes 2 (dOp c.d0) ++ leBytes 6 k.result ++
        leBytes 2 (c.head + ph * 2 ^ 15) ∧
      (∀ x, x < a ∨ a + 16 ≤ x → t.mem.hostByte x = s.mem.hostByte x) ∧ (t.dev.sqOf r).cmds = l ∧
      t.dev.ringTail q = (s.dev.ringTail q + 1) % s.dev.ringN q ∧
      t.dev.fld (LDL_RING_PTR q) LDL_RING_PTR_phase = (if (s.dev.ringTail q + 1) % s.dev.ringN q = 0 then 1 - ph else ph)) ∧
  (∀ (r : Fin 4096) (s : State) (c : Cmd) (l : List Cmd), (s.dev.sqOf r).cmds = c :: l →
    s.dev.hostOk = false ∨ (s.dev.cqRoom r = false ∧ dQuiet c.d0 = false) → Yields (exec (.completionWrite r) s) fun t => t = s) ∧
  -- an event record of one entry
  (∀ (q : Fin 4096) (s : State) (e : EvRec) (l : List EvRec), s.dev.isRing q 3 = true → s.dev.ringBad q = false → s.dev.ringDel q = false →
    s.dev.hostOk = true → mget 0 s.dev.lostFor q = 0 → s.dev.events = e :: l → e.eq = q.val → e.pay.length ≤ 4 → 1 ≤ s.dev.ringRoom q →
    s.dev.pcie.pmeEn = false →
    let a := s.dev.ringBase q + 32 * s.dev.ringTail q
    let ph := s.dev.fld (LDL_RING_PTR q) LDL_RING_PTR_phase
    Yields (exec (.eventRecordWrite q) s) fun t => t.mem.bytes = s.mem.bytes ∧ t.mem.tags = s.mem.tags ∧ t.dev.events = l ∧
      t.mem.hostSpan a 32 = leBytes 2 e.code ++ leBytes 1 (ph + b2n e.loss * 2) ++ leBytes 1 e.island ++ leBytes 4 e.index ++
        leBytes 8 e.time ++ (List.range 4).flatMap (fun i => leBytes 4 (e.pay.getD i 0)) ∧
      (∀ x, x < a ∨ a + 32 ≤ x → t.mem.hostByte x = s.mem.hostByte x) ∧
      t.dev.ringTail q = (s.dev.ringTail q + 1) % s.dev.ringN q) ∧
  -- the admin rings
  (∀ (w : Writer) (v : Word) (s : State), w = .host ∨ isBench w = true →
    let cfg := fun (d : Dev) => d.flag LDL_ADMIN_CTL LDL_ADMIN_CTL_en
    let refused := Yields (exec (.ldlAdminCtlWrite w v) s) fun t => t.mem = s.mem ∧
      t.dev.flag LDL_ADMIN_CTL LDL_ADMIN_CTL_cfg_refused = true ∧ cfg t.dev = true ∧ ChangesOnly [LDL_ADMIN_CTL] Dev.noWindows s.dev t.dev
    (cfg s.dev = false → fget LDL_ADMIN_CTL_en v = 1 → 4 ≤ fget LDL_ADMIN_CTL_asq_lg v → 4 ≤ fget LDL_ADMIN_CTL_acq_lg v →
      4 ≤ fget LDL_ADMIN_CTL_aeq_lg v → Yields (exec (.ldlAdminCtlWrite w v) s) fun t => t.mem = s.mem ∧ cfg t.dev = true ∧
        t.dev.isRing 0 1 = true ∧ t.dev.isRing 1 2 = true ∧ t.dev.isRing 2 3 = true ∧ t.dev.ringLink 0 = 1 ∧
        t.dev.ringN 0 = 2 ^ fget LDL_ADMIN_CTL_asq_lg v ∧ t.dev.ringN 1 = 2 ^ fget LDL_ADMIN_CTL_acq_lg v ∧
        t.dev.ringN 2 = 2 ^ fget LDL_ADMIN_CTL_aeq_lg v ∧
        (∀ r < 3, t.dev.ringHead r = 0 ∧ t.dev.ringTail r = 0) ∧
        t.dev.flag LDL_ADMIN_CTL LDL_ADMIN_CTL_ready = s.dev.flag GLB_PCIE_STAT GLB_PCIE_STAT_fw_ready) ∧
    (cfg s.dev = true → fget LDL_ADMIN_CTL_en v = 1 → s.dev.fld LDL_ADMIN_CTL ⟨0, 12⟩ ≠ fget ⟨0, 12⟩ v → refused) ∧
    (cfg s.dev = true → fget LDL_ADMIN_CTL_en v = 0 → s.dev.otherRings = true → refused) ∧
    (cfg s.dev = true → fget LDL_ADMIN_CTL_en v = 0 → s.dev.otherRings = false → (s.dev.sqOf 0).cmds = [] →
      Yields (exec (.ldlAdminCtlWrite w v) s) fun t => t.mem = s.mem ∧ cfg t.dev = false ∧ ∀ r < 3, t.dev.ringOn r = false)) ∧
  -- a fetch that fails
  (∀ (r : Fin 4096) (n : Nat) (s : State),
    let err := fun (d : Dev) (f : Fld) => d.fld GLB_PCIE_ERR f
    (s.dev.isRing r 1 = true → s.dev.ringUsed r ≠ 0 → s.dev.ringBad r = false →
      let failed := fun (t : State) => t.mem = s.mem ∧ t.dev.ringBad r = true ∧ t.dev.fld (LDL_RING_STAT r) LDL_RING_STAT_err_code = 1 ∧
        ChangesOnly [LDL_RING_STAT r, GLB_PCIE_ERR] id s.dev t.dev
      (∀ poison, Yields (exec (.hostCompletionError r true poison n) s) fun t => failed t ∧
        err t.dev GLB_PCIE_ERR_poison_rx = (if poison then min 255 (err s.dev GLB_PCIE_ERR_poison_rx + 1) else err s.dev GLB_PCIE_ERR_poison_rx)) ∧
      Yields (exec (.completionTimeout r true n) s) (fun t => failed t ∧
        err t.dev GLB_PCIE_ERR_cpl_tmo = min 255 (err s.dev GLB_PCIE_ERR_cpl_tmo + 1))) ∧
    (s.dev.ringUsed r = 0 → (∀ poison, Yields (exec (.hostCompletionError r true poison n) s) fun t => t = s) ∧
      Yields (exec (.completionTimeout r true n) s) (fun t => t = s)))

/-- The link, configuration requests, power states and messages of the endpoint; and what ends a command that waits
(R318 to R327, R358). It rests on the model's choices in assumption 44. -/
def Obligations.PcieEndpoint : Prop :=
  -- configuration requests
  (∀ (q : CfgReq) (s : State), s.dev.linkUp = true →
    let sent := fun (t : State) (x : Sent) => t.dev.pcie.sent = s.dev.pcie.sent ++ [x]
    let rest := fun (t : State) => t.mem = s.mem ∧ ChangesOnly [] Dev.noPcie s.dev t.dev
    (s.dev.flag GLB_PCIE_STAT GLB_PCIE_STAT_fw_ready = false →
      Yields (exec (.configRequest q) s) fun t => rest t ∧ sent t (.cpl 2 [] false)) ∧
    (s.dev.flag GLB_PCIE_STAT GLB_PCIE_STAT_fw_ready = true →
      (∀ dw, q = .read dw → Yields (exec (.configRequest q) s) fun t => rest t ∧ ∃ v : Word, sent t (.cpl 0 [v] false) ∧
        (dw.val = 0 → v.toNat = deviceId s.dev.part * 65536 + 0x1D6F) ∧
        (dw.val = 1 → v.toNat.testBit 1 = s.dev.pcie.memSpace ∧ v.toNat.testBit 2 = s.dev.pcie.busMaster)) ∧
      (∀ mem bus, q = .command mem bus → Yields (exec (.configRequest q) s) fun t => rest t ∧ sent t (.cpl 0 [] false) ∧
        t.dev.pcie.memSpace = mem ∧ t.dev.pcie.busMaster = bus))) ∧
  -- requests through BAR0
  (∀ (off : Fin 0x1000000) (lo hi : Word) (s : State), s.dev.linkUp = true →
    let err := fun (d : Dev) (f : Fld) => d.fld GLB_PCIE_ERR f
    (s.dev.memOff = true → ∀ wr len, Yields (exec (.bar0Request wr false off len lo hi) s) fun t => t.mem = s.mem ∧
      err t.dev GLB_PCIE_ERR_ur_sent = min 255 (err s.dev GLB_PCIE_ERR_ur_sent + 1) ∧
      t.dev.pcie.sent = s.dev.pcie.sent ++ (if wr then [] else [.cpl 1 [] false]) ∧ ChangesOnly [GLB_PCIE_ERR] Dev.noPcie s.dev t.dev) ∧
    (s.dev.memOff = false → ∀ wr (len : Fin 4096), 8 < len.val ∨ (4 ≤ len.val ∧ (off.val % 4 ≠ 0 ∨ len.val % 4 ≠ 0)) →
      Yields (exec (.bar0Request wr false off len lo hi) s) fun t => t.mem = s.mem ∧
      err t.dev GLB_PCIE_ERR_ca_sent = min 255 (err s.dev GLB_PCIE_ERR_ca_sent + 1) ∧
      t.dev.pcie.sent = s.dev.pcie.sent ++ (if wr then [] else [.cpl 4 [] false]) ∧ ChangesOnly [GLB_PCIE_ERR] Dev.noPcie s.dev t.dev) ∧
    (s.dev.memOff = false → ∀ len : Fin 4096, len.val < 4 →
      Yields (exec (.bar0Request true false off len lo hi) s) (fun t => t.mem = s.mem ∧ ChangesOnly [] id s.dev t.dev) ∧
      Yields (exec (.bar0Request false false off len lo hi) s) (fun t => t.mem = s.mem ∧ ChangesOnly [] Dev.noPcie s.dev t.dev ∧
        t.dev.pcie.sent = s.dev.pcie.sent ++ [.cpl 0 [0xFFFFFFFF] false])) ∧
    (s.dev.memOff = false → off.val % 4 = 0 →
      Yields (exec (.bar0Request false false off 4 lo hi) s) fun t => t.mem = s.mem ∧ ∃ v, t.dev.pcie.sent = s.dev.pcie.sent ++ [.cpl 0 [v] false] ∧
        (regAt (0x02000000 + off.val) = none → regCluster (0x02000000 + off.val) = none → bellAt (0x02000000 + off.val) = none →
          msixAt (0x02000000 + off.val) = none → plnWindow (0x02000000 + off.val) = none → hlmHidden (0x02000000 + off.val) = false →
          v = 0xFFFFFFFF))) ∧
  -- messages of a vector that nothing holds back, or that is masked
  (∀ (v : Fin 64) (s : State), s.dev.fld GLB_PCIE_STAT GLB_PCIE_STAT_dstate ≠ 3 → s.dev.flag GLB_PCIE_STAT GLB_PCIE_STAT_l1 = false →
    s.dev.pcie.busMaster = true → s.dev.pcie.msixEn = true → s.dev.pcie.funcMask = false →
    let x := s.dev.vec v
    let rest := fun (t : State) => t.mem = s.mem ∧ ChangesOnly [] Dev.noPcie s.dev t.dev ∧ ∀ u, u ≠ v.val → t.dev.vec u = s.dev.vec u
    -- the first µs boundary tmo µs after the first unsignalled record
    let fires := (x.first + s.dev.fld (GLB_MSIX_MOD v) GLB_MSIX_MOD_tmo * 800 + 799) / 800 * 800
    (s.dev.time.master < fires → Yields (exec (.msixTimeout v) s) fun t => t = s) ∧
    (0 < x.count → 0 < s.dev.fld (GLB_MSIX_MOD v) GLB_MSIX_MOD_tmo → x.due = false → x.pend = false → fires ≤ s.dev.time.master →
      (x.masked = false → Yields (exec (.msixTimeout v) s) fun t => rest t ∧ t.dev.pcie.sent = s.dev.pcie.sent ++ [.msix v] ∧
        t.dev.vec v = { x with pend := false, count := 0, due := false }) ∧
      (x.masked = true → Yields (exec (.msixTimeout v) s) fun t => rest t ∧ t.dev.pcie.sent = s.dev.pcie.sent ∧
        t.dev.vec v = { x with pend := true })) ∧
    (x.pend = true → Yields (exec (.msixUnmask v) s) fun t => rest t ∧ t.dev.pcie.sent = s.dev.pcie.sent ++ [.msix v] ∧
      t.dev.vec v = { x with masked := false, pend := false, count := 0, due := false }) ∧
    (x.pend = false → Yields (exec (.msixUnmask v) s) fun t => rest t ∧ t.dev.pcie.sent = s.dev.pcie.sent ∧
      t.dev.vec v = { x with masked := false })) ∧
  -- the link and power states
  (∀ (gen : Fin 8) (width : Fin 4) (rev : Bool) (s : State), let st := fun (d : Dev) (f : Fld) => d.fld GLB_PCIE_STAT f
    (s.dev.inReset = false → s.dev.pcie.perst = false → s.dev.pcie.dlDown = false → 2 ≤ s.dev.fld TCH_BOOT TCH_BOOT_stage →
      s.dev.linkUp = false → s.dev.linkCan gen width = true →
      Yields (exec (.pcieLinkUp gen width rev) s) fun t => t.mem = s.mem ∧ t.dev.linkUp = true ∧ st t.dev GLB_PCIE_STAT_gen = gen.val ∧
        st t.dev GLB_PCIE_STAT_width = width.val ∧ t.dev.flag GLB_PCIE_STAT GLB_PCIE_STAT_lane_rev = rev ∧
        ChangesOnly [GLB_PCIE_STAT] Dev.noPcie s.dev t.dev) ∧
    (s.dev.linkCan gen width = false → Yields (exec (.pcieLinkUp gen width rev) s) fun t => t = s) ∧
    (∀ w v, s.dev.accepts w GLB_PCIE_CTL = true → s.dev.sound GLB_PCIE_CTL (v ||| 1) → s.dev.linkUp = true →
      gen.val ≤ min 5 (fget GLB_PCIE_CTL_max_gen v) → 1 ≤ gen.val → width.val ≤ min 2 (fget GLB_PCIE_CTL_max_width v) →
      Yields (exec (.linkRetrain w v gen width) s) fun t => t.mem = s.mem ∧ Wrote w GLB_PCIE_CTL (v ||| 1) s.dev t.dev ∧
        st t.dev GLB_PCIE_STAT_gen = gen.val ∧ st t.dev GLB_PCIE_STAT_width = width.val ∧
        ChangesOnly [GLB_PCIE_CTL, GLB_PCIE_STAT] (fun x => x.noPcie.noWindows) s.dev t.dev) ∧
    (s.dev.linkUp = true → Yields (exec .l1Entry s) fun t => t.mem = s.mem ∧ t.dev.flag GLB_PCIE_STAT GLB_PCIE_STAT_l1 = true ∧
      ChangesOnly [GLB_PCIE_STAT] id s.dev t.dev) ∧
    ((∀ v < 64, (s.dev.vec v).due = false) → Yields (exec .l1Exit s) fun t => t.mem = s.mem ∧
      t.dev.flag GLB_PCIE_STAT GLB_PCIE_STAT_l1 = false ∧ ChangesOnly [GLB_PCIE_STAT] id s.dev t.dev) ∧
    (s.dev.flag GLB_PCIE_STAT GLB_PCIE_STAT_fw_ready = true → Yields (exec .d3hotEntry s) fun t => t.mem = s.mem ∧
      st t.dev GLB_PCIE_STAT_dstate = 3 ∧ ChangesOnly [GLB_PCIE_STAT] id s.dev t.dev) ∧
    Yields (exec .d0Return s) (fun t => t.mem = s.mem ∧ st t.dev GLB_PCIE_STAT_dstate = 0 ∧
      ChangesOnly [GLB_PCIE_STAT] id s.dev t.dev)) ∧
  -- timeouts of commands
  (∀ (sq : Fin 4096) (s : State) (x : Wait),
    s.dev.waits.find? (fun y => y.sq == sq.val && y.limit != 0 && decide (y.start + y.limit * 800000 ≤ s.dev.now)) = some x →
    (x.op = 0x0203 → Yields (exec (.commandTimeout sq) s) fun t => t.mem = s.mem ∧ x ∉ t.dev.waits ∧
      (⟨x.sq, x.cid, stTimeout, s.dev.axSt x.target⟩ : Cpl) ∈ t.dev.cpls ∧ (t.dev.axis x.target).enReq = 0 ∧
      t.dev.axSt x.target = s.dev.axSt x.target ∧ ChangesOnly [] (fun d => d.noAxes.noWaits.noCpls) s.dev t.dev) ∧
    (x.op = 0x0C10 → ∀ q, corePairOf x.target = some q → x.aux.headD 0 = 2 → s.dev.mergeReady q = true →
      Yields (exec (.commandTimeout sq) s) fun t => t = s) ∧
    (x.op = 0x0C10 → ∀ q, corePairOf x.target = some q → x.aux.headD 0 ≠ 2 ∨ s.dev.mergeReady q = false → Yields (exec (.commandTimeout sq) s) fun t => t.mem = s.mem ∧
      t.dev.flag (ASY_PAIR_CTL q) (if x.aux.headD 0 = 2 then ASY_PAIR_CTL_req_merge else ASY_PAIR_CTL_req_split) = false)) ∧
  (∀ (sq : Fin 4096) (s : State), (∀ x ∈ s.dev.waits, x.sq = sq.val → x.limit = 0 ∨ s.dev.now < x.start + x.limit * 800000) → Yields (exec (.commandTimeout sq) s) fun t => t = s)

/-- NOP, IDENTIFY, rings, routes of events, and sessions of the command class 0x01 (R5, R332, R348, R349, R359 to R362,
R440, R442). It rests on the model's choices in assumptions 46, 47 and 74. -/
def Obligations.SystemCommands : Prop :=
  cmdDoes .cmdNop 0x0101 (fun _ _ c => plain c) stOk (fun _ _ => 0) (fun _ _ => []) id (fun _ _ _ => True) ∧
  cmdDoes .identify 0x0102 (fun _ _ c => plain c) stOk
    (fun s _ => (s.dev.rd GLB_ID).toNat + s.dev.hlm.fwVersion / 2 ^ 16 % 256 * 2 ^ 32 + s.dev.hlm.fwVersion / 2 ^ 24 % 256 * 2 ^ 40)
    (fun _ _ => []) id (fun _ _ _ => True) ∧
  -- a ring is made by the record of the command, not before it
  (let made := fun (s : State) (c : Cmd) => c.tgt < 4096 ∧ c.bad [(12, 3, 0xFF), (16, 18, 0xFF)] = false ∧ badRing s.dev c = false
  cmdDoes .ringCreate 0x0110 (fun r s c => made s c ∧ r = 0 ∧ s.dev.ringOn c.tgt = false) stOk (fun _ _ => 0) (fun _ _ => []) id
    (fun _ _ _ => True) ∧
  cmdRefuses .ringCreate 0x0110 (fun r s c => made s c ∧ r ≠ 0) stNotPermitted ∧
  cmdRefuses .ringCreate 0x0110 (fun r s c => made s c ∧ r = 0 ∧ s.dev.ringOn c.tgt = true) stBusy ∧
  cmdRefuses .ringCreate 0x0110 (fun _ s c => badRing s.dev c = true) stBadParam) ∧
  (∀ (r : Fin 4096) (s : State) (c : Cmd) (l : List Cmd) (k : Cpl), (s.dev.sqOf r).cmds = c :: l → s.dev.cplOf r = some k →
    s.dev.hostOk = true → s.dev.cqRoom r = true → c.refuse = none → c.descs.length = 1 → dOp c.d0 = 0x0110 → k.status = stOk →
    s.dev.ringDel 0 = false → 1 ≤ c.byte 12 → c.byte 12 ≤ 4 → c.byte 13 ≤ 15 → c.get 16 8 % 64 = 0 →
    Yields (exec (.completionWrite r) s) fun t => t.dev.isRing c.tgt (c.byte 12) = true ∧ t.dev.ringN c.tgt = 2 ^ c.byte 13 ∧
      t.dev.ringBase c.tgt = c.get 16 8 ∧ t.dev.ringHead c.tgt = 0 ∧ t.dev.ringTail c.tgt = 0 ∧
      (c.byte 12 = 1 → t.dev.ringLink c.tgt = c.get 32 2 % 4096)) ∧
  -- the deletion of a ring
  (let ok := fun (ty : Nat) (r : Nat) (s : State) (c : Cmd) => r = 0 ∧ 2 < c.tgt ∧ c.tgt < 4096 ∧ s.dev.ringOn c.tgt = true ∧
      c.bad [] = false ∧ s.dev.ringType c.tgt = ty
  cmdDoes .ringDelete 0x0111 (fun r s c => ok 2 r s c ∧ s.dev.cqBound c.tgt = false) stOk (fun _ _ => 0) (fun _ _ => []) id
    (fun _ c t => t.dev.ringDel c.tgt = true) ∧
  cmdRefuses .ringDelete 0x0111 (fun r s c => ok 2 r s c ∧ s.dev.cqBound c.tgt = true) stBusy ∧
  cmdDoes .ringDelete 0x0111 (fun r s c => ok 1 r s c ∧ (s.dev.sqOf c.tgt).cmds = [] ∧ (s.dev.sqOf c.tgt).part = []) stOk
    (fun s c => s.dev.ringHead c.tgt) (fun _ _ => []) id (fun _ c t => t.dev.ringDel c.tgt = true) ∧
  cmdBegins .ringDelete 0x0111 (fun r s c => ok 1 r s c ∧ (s.dev.sqOf c.tgt).cmds ≠ []) (fun c => c.tgt) (fun _ _ => []) (fun _ _ => []) id
    (fun s c t => t.dev.ringDel c.tgt = true ∧ (t.dev.sqOf c.tgt).part = [] ∧ (t.dev.sqOf c.tgt).cmds = (s.dev.sqOf c.tgt).cmds) ∧
  cmdDoes .ringDelete 0x0111 (ok 3) stOk (fun _ _ => 0) (fun _ _ => (List.range 12).map fun i => LDL_EVT_ROUTE (i + 1)) id
    (fun s c t => t.dev.ringDel c.tgt = true ∧ (∀ e ∈ t.dev.events, e.eq ≠ c.tgt) ∧ t.dev.events.length = s.dev.events.length ∧
      ∀ i < 12, t.dev.fld (LDL_EVT_ROUTE (i + 1)) LDL_EVT_ROUTE_eq = (if s.dev.fld (LDL_EVT_ROUTE (i + 1)) LDL_EVT_ROUTE_eq = c.tgt then 2
        else s.dev.fld (LDL_EVT_ROUTE (i + 1)) LDL_EVT_ROUTE_eq)) ∧
  cmdDoes .ringDelete 0x0111 (fun r s c => ok 4 r s c ∧ s.dev.ringLink c.tgt ≠ 0xFFF) stOk (fun _ _ => 0)
    (fun s c => [LDL_RING_CFG c.tgt, AXS_SEG_STAT (s.dev.ringLink c.tgt % 64)]) id
    (fun s c t => t.dev.ringDel c.tgt = true ∧ t.dev.streamed (s.dev.ringLink c.tgt % 64) = false ∧ t.dev.ringLink c.tgt = 0xFFF) ∧
  cmdDoes .ringDelete 0x0111 (fun r s c => ok 4 r s c ∧ s.dev.ringLink c.tgt = 0xFFF) stOk (fun _ _ => 0) (fun _ _ => []) id
    (fun _ c t => t.dev.ringDel c.tgt = true) ∧
  cmdRefuses .ringDelete 0x0111 (fun r s c => r = 0 ∧ c.tgt ≤ 2 ∧ s.dev.ringOn c.tgt = true ∧ c.bad [] = false) stNotPermitted ∧
  cmdRefuses .ringDelete 0x0111 (fun _ s c => s.dev.ringOn c.tgt = false) stBadTarget) ∧
  -- the EQ of a class
  (let ok := fun (s : State) (c : Cmd) => c.tgt < 4096 ∧ c.bad [(12, 1, 0xFF)] = false ∧ 1 ≤ c.byte 12 ∧ c.byte 12 ≤ 12 ∧
      s.dev.isRing c.tgt 3 = true
  cmdDoes .evtRoute 0x0113 (fun r s c => ok s c ∧ r = 0) stOk (fun _ _ => 0) (fun _ c => [LDL_EVT_ROUTE (c.byte 12)]) id
    (fun _ c t => t.dev.fld (LDL_EVT_ROUTE (c.byte 12)) LDL_EVT_ROUTE_eq = c.tgt) ∧
  cmdRefuses .evtRoute 0x0113 (fun r s c => ok s c ∧ r ≠ 0) stNotPermitted ∧
  cmdRefuses .evtRoute 0x0113 (fun _ s c => c.tgt < 4096 ∧ s.dev.isRing c.tgt 3 = false) stBadParam) ∧
  -- a nonce of 32 random bytes, which replaces an unused one
  (let ok := fun (c : Cmd) => c.badNone = false ∧ c.bad [(12, 8, 0xFF), (20, 1, 1)] = false ∧ (c.buf 12 20).bad 32 = false
  cmdPuts .sessionNonce 0x0130 (fun s c => ok c ∧ s.dev.noEntropy = false) (fun c => c.buf 12 20) (fun s _ => drbgDraw 32 s.dev)
    (fun _ _ => 0) Dev.noHlm (fun s _ b t => t.dev.hlm.nonce = some b ∧ b.length = 32 ∧ t.dev.hlm.nonceAt = s.dev.now) ∧
  -- ten seconds later it opens no session
  (∀ (s : State) (b : List Byte), s.dev.hlm.nonceAt + 8000000000 ≤ s.dev.now → s.dev.sessionGood b = false) ∧
  cmdRefuses .sessionNonce 0x0130 (fun _ s c => ok c ∧ s.dev.noEntropy = true) stBusy) ∧
  -- a session
  (let out := fun (c : Cmd) => (⟨bit (c.byte 28) 0, c.get 20 8⟩ : Buf)
  let ok := fun (c : Cmd) => c.badNone = false ∧ c.bad [(12, 16, 0xFF), (28, 1, 1)] = false ∧ (c.buf 12 28).bad 224 = false ∧
      (out c).bad 192 = false
  cmdTakes .sessionOpen 0x0131 (fun s c => ok c ∧ s.dev.noEntropy = false ∧ s.dev.freeSessions ≠ []) (fun c => c.buf 12 28) (fun _ => 224)
    (fun r s c b x =>
      (x.2.sessionGood b = false → Yields (exec (.sessionOpen r) s) fun t => t.mem = x.1 ∧ CmdEnds r c stAuthFailed 0 x.2 t.dev ∧
        ChangesOnly [] (fun d => d.noSqs.noCpls) x.2 t.dev) ∧
      (x.2.sessionGood b = true → (out c).fab = false → x.2.hostOk = true → Yields (exec (.sessionOpen r) s) fun t =>
        ∃ k ∈ s.dev.freeSessions, CmdEnds r c stOk k x.2 t.dev ∧
          mget none t.dev.hlm.sess k = some ⟨Config.sessionKey x.2.hlm.draws (b.take 128), []⟩ ∧ t.dev.hlm.nonce = none ∧
          (∀ j, j ≠ k → mget none t.dev.hlm.sess j = mget none x.2.hlm.sess j) ∧
          (∃ o, o.length = 192 ∧ t.mem = x.1.setHost (out c).addr o) ∧
          ChangesOnly [HLM_SESSIONS] (fun d => d.noHlm.noSqs.noCpls) x.2 t.dev) ∧
      (x.2.sessionGood b = true → (out c).fab = true → ∃ o, o.length = 192 ∧ ∀ y, ladWrite 193 (out c).addr o (x.1, x.2.bump) = y →
        Yields (exec (.sessionOpen r) s) fun t => t.mem = y.1.1 ∧ (y.2.2 = none → ∃ k ∈ s.dev.freeSessions, t.dev.answers r c stOk k) ∧
          (∀ code, y.2.2 = some code → t.dev.answers r c stTransferFailed code))) ∧
  cmdRefuses .sessionOpen 0x0131 (fun _ s c => ok c ∧ (s.dev.noEntropy = true ∨ s.dev.freeSessions = [])) stBusy) ∧
  -- resets
  (cmdDoes .resetHostIsland 0x0120 (fun r _ c => r = 0 ∧ c.badNone = false ∧ c.bad [(12, 1, 0xFF)] = false ∧ c.byte 12 = 2) stOk
    (fun _ _ => 0) (fun _ _ => []) id (fun _ _ _ => True) ∧
  cmdDoes .resetDevice 0x0120 (fun r _ c => r = 0 ∧ c.badNone = false ∧ c.bad [(12, 1, 0xFF)] = false ∧ c.byte 12 = 3) stOk
    (fun _ _ => 0) (fun _ _ => []) id (fun _ _ _ => True) ∧
  (∀ (r : Fin 4096) (s : State) (c : Cmd), s.dev.front r 0x0120 = some c → c.byte 12 = 1 → c.bad [(12, 1, 0xFF)] = false →
    s.dev.badCluster c.tgt = false → r.val = 0 → s.dev.clusterFree c.tgt →
    (s.dev.atRest c.tgt = true → Yields (exec (.resetCluster r) s) fun t => t.mem = s.mem ∧ t.dev.answers r c stOk 0 ∧
      (∀ a, clWindow c.tgt ≤ a → a < clWindow c.tgt + 0x100000 → (∀ b < 16, a ≠ ING_BANK_OWN (c.tgt * 16 + b)) →
        t.dev.rd a = regReset s.dev.part a) ∧
      (∀ w ∈ s.dev.waits, w.cluster = some c.tgt → (⟨w.sq, w.cid, stAbortedReset, 0⟩ : Cpl) ∈ t.dev.cpls) ∧
      (∀ w ∈ t.dev.waits, w.cluster ≠ some c.tgt) ∧ t.dev.fld TCH_RST_CAUSE TCH_RST_CAUSE_src = 6) ∧
    (s.dev.atRest c.tgt = false → Yields (exec (.resetCluster r) s) fun t => t.mem = s.mem ∧ CmdEnds r c stNotPermitted 0 s.dev t.dev ∧
      ChangesOnly [] (fun d => d.noSqs.noCpls) s.dev t.dev)))

/-- The commands of class 0x02: admission of axes, their transitions, law images and gain sets (R63 to R67, R93 to R96,
R363 to R366, R424). It rests on the model's choices in assumptions 48, 67 and 80. -/
def Obligations.AxisCommands : Prop :=
  (let pars := fun (s : State) (c : Cmd) => s.dev.badAxis c.tgt = false ∧ s.dev.clusterFree (axCl c.tgt)
  let stage := fun (n : Nat) (s : State) (c : Cmd) => pars s c ∧ c.bad [(12, 1, 0xFF), (14, 2, 0xFF)] = false ∧ c.byte 12 = n
  let stop := fun (p : Nat) (s : State) (c : Cmd) => pars s c ∧ c.bad [(12, 2, 0xFF)] = false ∧ c.byte 12 = p ∧ (c.byte 13 = 1 ∨ c.byte 13 = 2)
  let quiet := fun (s : State) (c : Cmd) => s.dev.axBusy c.tgt = false
  let st := fun (s : State) (c : Cmd) => s.dev.axSt c.tgt
  let calm := fun (s : State) (c : Cmd) => quiet s c ∧ s.dev.rd (AXS_CAUSE_ACT c.tgt) = 0
  -- AXIS_ENABLE: the axis carries the request, and the command waits for the state
  cmdBegins .axisEnableArm 0x0203 (fun _ s c => stage 1 s c ∧ calm s c ∧ st s c = stAdmitted) (fun c => c.tgt) (fun _ _ => [1])
    (fun _ _ => []) Dev.noAxes (fun s c t => (t.dev.axis c.tgt).enReq = 1 ∧ ∀ b, b ≠ c.tgt → t.dev.axis b = s.dev.axis b) ∧
  cmdBegins .axisEnable 0x0203 (fun _ s c => stage 2 s c ∧ calm s c ∧ (st s c = stAdmitted ∨ st s c = stArmed)) (fun c => c.tgt)
    (fun _ _ => [2]) (fun _ _ => []) Dev.noAxes
    (fun s c t => (t.dev.axis c.tgt).enReq = 2 ∧ ∀ b, b ≠ c.tgt → t.dev.axis b = s.dev.axis b) ∧
  cmdRefuses .axisEnableArm 0x0203 (fun _ s c => stage 1 s c ∧ s.dev.axBusy c.tgt = true) stBusy ∧
  cmdRefuses .axisEnableArm 0x0203 (fun _ s c => stage 1 s c ∧ quiet s c ∧ (s.dev.rd (AXS_CAUSE_ACT c.tgt) ≠ 0 ∨ st s c ≠ stAdmitted)) stNotPermitted ∧
  cmdRefuses .axisEnable 0x0203 (fun _ s c => stage 2 s c ∧ quiet s c ∧ (s.dev.rd (AXS_CAUSE_ACT c.tgt) ≠ 0 ∨ (st s c ≠ stAdmitted ∧ st s c ≠ stArmed)))
    stNotPermitted ∧
  -- AXIS_DISABLE of an ARMED axis, an acknowledgement, a stop without ramp, and a ramp
  (∀ p, ∀ row ∈ [((.axisDisableRamp : Fin 4096 → Instr), 1), (.axisDisableSto, 2)], p = row.2 →
    cmdDoes row.1 0x0204 (fun _ s c => stop p s c ∧ quiet s c ∧ st s c = stArmed) stOk (fun _ _ => stAdmitted * 256)
      (fun _ c => [AXS_STATE c.tgt]) Dev.noAxes (fun _ c t => t.dev.axSt c.tgt = stAdmitted ∧ (t.dev.axis c.tgt).enReq = 0) ∧
    cmdDoes row.1 0x0204 (fun _ s c => stop p s c ∧ st s c = stFaulted ∧ (s.dev.axis c.tgt).retiring = false ∧
        s.dev.flag (AXS_STATE c.tgt) AXS_STATE_resp_done = true ∧ s.dev.rd (AXS_CAUSE_ACT c.tgt) = 0) stOk (fun _ _ => stAdmitted * 256)
      (fun _ c => axisRegs c.tgt) Dev.noAxisParts (fun _ c t => t.dev.axSt c.tgt = stAdmitted ∧ t.dev.rd (AXS_CAUSE_SEEN c.tgt) = 0 ∧
        t.dev.fld (AXS_FAULT c.tgt) AXS_FAULT_cause = 0) ∧
    cmdRefuses row.1 0x0204 (fun _ s c => stop p s c ∧ st s c = stFaulted ∧ (s.dev.axis c.tgt).retiring = false ∧
        s.dev.flag (AXS_STATE c.tgt) AXS_STATE_resp_done = false) stBusy ∧
    cmdRefuses row.1 0x0204 (fun _ s c => stop p s c ∧ quiet s c ∧ st s c ≠ stArmed ∧ st s c ≠ stEnabled ∧ st s c ≠ stFaulted) stNotPermitted) ∧
  cmdDoes .axisDisableSto 0x0204 (fun _ s c => stop 2 s c ∧ quiet s c ∧ st s c = stEnabled) stOk (fun _ c => c.byte 13 * 256)
    (fun _ c => axisRegs c.tgt) Dev.noAxisParts (fun _ c t => t.dev.axSt c.tgt = c.byte 13 ∧ t.dev.outMode c.tgt = 0 ∧ t.dev.queueEmpty c.tgt) ∧
  cmdBegins .axisDisableRamp 0x0204 (fun _ s c => stop 1 s c ∧ quiet s c ∧ st s c = stEnabled ∧ s.dev.posEnabled c.tgt = true ∧
      s.dev.rd (AXS_RAMP_DECEL c.tgt) ≠ 0) (fun c => c.tgt) (fun _ _ => []) (fun _ c => axisRegs c.tgt) Dev.noAxisParts
    (fun _ c t => t.dev.axSt c.tgt = stEnabled ∧ t.dev.ramping c.tgt = true ∧ (t.dev.axis c.tgt).target = c.byte 13 ∧ t.dev.queueEmpty c.tgt) ∧
  cmdDoes .axisDisableRamp 0x0204 (fun _ s c => stop 1 s c ∧ quiet s c ∧ st s c = stEnabled ∧ (s.dev.posEnabled c.tgt = false ∨
      s.dev.rd (AXS_RAMP_DECEL c.tgt) = 0)) stOkWarning (fun _ c => 1 + c.byte 13 * 256) (fun _ c => axisRegs c.tgt) Dev.noAxisParts
    (fun _ c t => t.dev.axSt c.tgt = c.byte 13 ∧ t.dev.outMode c.tgt = 0) ∧
  -- AXIS_RETIRE: the slot is staged as cleared once the axis stands
  (let how := fun (s : State) (c : Cmd) => pars s c ∧ c.bad [(12, 1, 0xFF)] = false ∧ (c.byte 12 = 2 ∨ c.byte 12 = 4)
  let cleared := fun (s : State) (c : Cmd) (t : State) => ∀ n ∈ s.dev.axLanes c.tgt,
      t.dev.flag (PLN_SLOT_CFG n (s.dev.axSlotNo c.tgt)) PLN_SLOT_CFG_valid = false ∧
      (t.dev.fld (PLN_COMMIT (axCl c.tgt)) PLN_COMMIT_slots).testBit (n % 4 * 4 + s.dev.axSlotNo c.tgt) = true
  cmdBegins .axisRetire 0x0202 (fun _ s c => how s c ∧ (s.dev.axis c.tgt).retiring = false ∧ (st s c = stAdmitted ∨ st s c = stArmed))
    (fun c => c.tgt) (fun _ _ => []) (fun s c => PLN_COMMIT (axCl c.tgt) :: (axisRegs c.tgt ++
      (s.dev.axLanes c.tgt).map fun n => PLN_SLOT_CFG n (s.dev.axSlotNo c.tgt))) Dev.noAxisParts
    (fun s c t => (t.dev.axis c.tgt).retiring = true ∧ t.dev.queueEmpty c.tgt ∧ cleared s c t) ∧
  (∀ (r : Fin 4096) (s : State) (c : Cmd), s.dev.front r 0x0202 = some c → how s c → (s.dev.axis c.tgt).retiring = false →
    st s c = stEnabled → c.byte 12 = 4 → Yields (exec (.axisRetire r) s) fun t => t.mem = s.mem ∧ t.dev.holds r c c.tgt [] ∧
      t.dev.axSt c.tgt = stFaulted ∧ (t.dev.rd (AXS_CAUSE_SEEN c.tgt)).toNat.testBit 0x0F = true ∧ t.dev.outMode c.tgt = 0 ∧ cleared s c t) ∧
  cmdRefuses .axisRetire 0x0202 (fun _ s c => how s c ∧ (s.dev.axis c.tgt).retiring = true) stBusy ∧
  cmdRefuses .axisRetire 0x0202 (fun _ s c => how s c ∧ (s.dev.axis c.tgt).retiring = false ∧ (st s c = stRetired ∨ st s c = stHalted)) stNotPermitted)) ∧
  -- AXIS_ADMIT: every axis of the chain is staged and waits for its commit, or none
  (∀ (r : Fin 4096) (s : State) (c : Cmd), s.dev.front r 0x0201 = some c → let l := c.descs.map admitRec
    (∀ x ∈ l, s.dev.badAxis x.axis = false ∧ badAdmit x = false ∧ axCl x.axis = axCl c.tgt ∧ s.dev.axBusy x.axis = false ∧ s.dev.admitDenied x = false) →
    (c.descs.zipIdx.any fun e => reservedSet (dAuth e.1 && e.2 == c.descs.length - 1) e.1 12 admitBits) = false → (l.map AdmitRec.axis).Nodup →
    s.dev.clusterFree (axCl c.tgt) → ∀ e, l.foldl (fun z x => stageAxis x z) s.dev = e →
    (∀ no, e.admission (e.lanesTouched l) = some no → Yields (exec (.axisAdmit r) s) fun t => t.mem = s.mem ∧
      CmdEnds r c stAdmissionRefused (refusalResult no) s.dev t.dev ∧ ChangesOnly [] (fun d => d.noSqs.noCpls) s.dev t.dev) ∧
    (e.admission (e.lanesTouched l) = none → Yields (exec (.axisAdmit r) s) fun t => t.mem = s.mem ∧
      t.dev.holds r c c.tgt (0 :: (axCl c.tgt * 4 + (admitRec c.d0).lane) :: (e.lanesTouched l).filter fun m => e.marked [m] != []) ∧
      (∀ x, l = [x] → e.pairedNext (axCl c.tgt * 4 + x.lane) = false → let k := axCl c.tgt * 4 + x.lane
        t.dev.flag (PLN_SLOT_CFG k x.slot) PLN_SLOT_CFG_valid = true ∧ t.dev.fld (PLN_SLOT_CFG k x.slot) PLN_SLOT_CFG_laxis = axLo x.axis ∧
        t.dev.fld (PLN_SLOT_CFG k x.slot) PLN_SLOT_CFG_cur_base = x.curBase ∧ t.dev.fld (PLN_SLOT_CFG k x.slot) PLN_SLOT_CFG_cur_len = x.curLen ∧
        (t.dev.axis x.axis).adm = some x.adm ∧
        (t.dev.fld (PLN_COMMIT (axCl c.tgt)) PLN_COMMIT_slots).testBit (x.lane * 4 + x.slot) = true))) ∧
  -- LAW_LOAD: the image's words stand in the law store, or its rejection is reported
  (let len := fun (c : Cmd) => c.get 20 4
  let words := fun (c : Cmd) => (len c - 256) / 8
  let base := fun (c : Cmd) => c.get 24 2
  let pars := fun (s : State) (c : Cmd) => c.tgt < 16 ∧ s.dev.badCluster (c.tgt / 4) = false ∧ s.dev.clusterFree (c.tgt / 4) ∧
      c.bad [(12, 14, 0xFF), (26, 1, 3), (27, 1, 3), (28, 1, 3)] = false ∧ 264 ≤ len c ∧ len c ≤ 4352 ∧ len c % 8 = 0 ∧ base c + words c ≤ 2048 ∧
      c.byte 28 ≠ 3 ∧ (c.buf 12 26).bad (len c) = false ∧ ((s.dev.lane c.tgt).paired = true → (s.dev.lane c.tgt).primary = true) ∧
      (∀ n ∈ s.dev.lawLanes c.tgt, ∀ i < words c, s.dev.lawBound n (base c + i) = false)
  cmdTakes .lawLoad 0x0210 (fun s c => pars s c ∧ bit (c.byte 26) 1 = false)
    (fun c => c.buf 12 26) len (fun r s c b x => let y := x.2.lawImage b (words c)
      let same := fun (t : State) => t.mem = x.1 ∧ t.dev.lanes = x.2.lanes
      (y.1 ≠ 0 → Yields (exec (.lawLoad r) s) fun t => same t ∧ CmdEnds r c stImageRejected y.1 x.2 t.dev ∧
        t.dev.fld HLM_IMG_REJ HLM_IMG_REJ_rejected = min 65535 (x.2.fld HLM_IMG_REJ HLM_IMG_REJ_rejected + 1) ∧
        ChangesOnly [HLM_IMG_REJ] (fun d => d.noSqs.noCpls) x.2 t.dev) ∧
      (y.1 = 0 → lawOk (imgLawKind b == 0) y.2 = false → Yields (exec (.lawLoad r) s) fun t => same t ∧
        CmdEnds r c stAdmissionRefused (refusalResult (1, 0xFF, c.tgt)) x.2 t.dev ∧ ChangesOnly [] (fun d => d.noSqs.noCpls) x.2 t.dev) ∧
      (y.1 = 0 → lawOk (imgLawKind b == 0) y.2 = true → Yields (exec (.lawLoad r) s) fun t => t.mem = x.1 ∧
        CmdEnds r c stOk (base c + words c * 2 ^ 11) x.2 t.dev ∧ (∀ n ∈ x.2.lawLanes c.tgt, ∀ i (h : i < y.2.length),
          mget 0 (t.dev.lane n).law (base c + i) = y.2[i] ∧ mget 0 (t.dev.lane n).lawErr (base c + i) = 0) ∧
        (∀ n, n ∉ x.2.lawLanes c.tgt → t.dev.lane n = x.2.lane n) ∧ ChangesOnly [] (fun d => d.noSqs.noCpls.noLanes) x.2 t.dev)) ∧
  -- with bind, the slot's admission decides
  (∀ (r : Fin 4096) (s : State) (c : Cmd) (a : Nat), s.dev.front r 0x0210 = some c → pars s c → bit (c.byte 26) 1 = true →
    (c.buf 12 26).fab = false → s.dev.hostOk = true → s.dev.slotOwner c.tgt (c.byte 27) = some a → s.dev.axBusy a = false →
    (s.dev.axSt a = stAdmitted ∨ s.dev.axSt a = stArmed ∨ s.dev.axSt a = stEnabled) →
    let b := s.mem.hostSpan (c.get 12 8) (len c)
    let y := s.dev.lawImage b (words c)
    y.1 = 0 → lawOk (c.byte 28 == 0) y.2 = true → ∀ e, bindLaw c.tgt (c.byte 27) (c.byte 28) (base c) (imgLawLen b) a
      ((s.dev.lawLanes c.tgt).foldl (fun z n => putLaw n (base c) y.2 z) s.dev) = e →
    (∀ no, e.admission (e.lawLanes c.tgt) = some no → Yields (exec (.lawLoad r) s) fun t => t.mem = s.mem ∧
      CmdEnds r c stAdmissionRefused (refusalResult no) s.dev t.dev ∧ ChangesOnly [] (fun d => d.noSqs.noCpls) s.dev t.dev) ∧
    (e.admission (e.lawLanes c.tgt) = none → Yields (exec (.lawLoad r) s) fun t => t.mem = s.mem ∧
      t.dev.holds r c c.tgt ((base c + words c * 2 ^ 11) :: c.tgt :: (e.lawLanes c.tgt).filter fun m => e.marked [m] != [])))) ∧
  -- GAINSET_WRITE: in place where no law of the axis runs, else staged
  (let recs := fun (c : Cmd) => gainRec c.d0 12 :: (c.descs.drop 1).map fun b => gainRec b 8
  let top := fun (c : Cmd) => ((recs c).filterMap GainRec.top).getLast?
  let masks := fun (c : Cmd) => (recs c).foldl (fun m g => m ||| g.mask) 0
  let ok := fun (s : State) (c : Cmd) => s.dev.badAxis c.tgt = false ∧ s.dev.clusterFree (axCl c.tgt) ∧ s.dev.axSt c.tgt ≠ stRetired ∧
      reservedSet (dAuth c.d0 && (c.descs.drop 1).isEmpty) c.d0 12 [(12, 3, 0xFF), (15, 1, 0x87), (16, 32, 0xFF)] = false ∧
      ((c.descs.drop 1).zipIdx.any fun e => reservedSet (dAuth e.1 && e.2 + 1 == (c.descs.drop 1).length) e.1 8
        [(8, 3, 0xFF), (11, 1, 0x87), (12, 32, 0xFF)]) = false ∧ (∀ g ∈ recs c, badGain g = false) ∧
      integralsOk (s.dev.gainThen (s.dev.axLane c.tgt) (s.dev.axSlotNo c.tgt) (gainWords (recs c))) (s.dev.axSlotNo c.tgt)
        ((top c).getD (s.dev.topThen c.tgt)) = true
  let runs := fun (b : Bool) (s : State) (c : Cmd) => ∀ n ∈ s.dev.axLanes c.tgt, s.dev.slotOwner n (s.dev.axSlotNo c.tgt) = some c.tgt ∧ s.dev.lawsRun c.tgt = b
  let words := fun (s : State) (c : Cmd) => (gainWords (recs c)).map fun e => (s.dev.axSlotNo c.tgt * 256 + e.1, e.2)
  cmdDoes .gainsetWrite 0x0211 (fun _ s c => ok s c ∧ runs false s c) stOk (fun _ c => masks c)
    (fun _ c => [AXS_RGN_CFG c.tgt]) Dev.noLanes (fun s c t => (∀ n ∈ s.dev.axLanes c.tgt,
      (t.dev.lane n).gain = (words s c).foldl (fun m e => mset 0 m e.1 e.2) (s.dev.lane n).gain ∧ (t.dev.lane n).staged = (s.dev.lane n).staged) ∧
      t.dev.fld (AXS_RGN_CFG c.tgt) AXS_RGN_CFG_top = (top c).getD (s.dev.fld (AXS_RGN_CFG c.tgt) AXS_RGN_CFG_top)) ∧
  cmdDoes .gainsetWrite 0x0211 (fun _ s c => ok s c ∧ runs true s c) stOk (fun _ c => masks c) (fun _ _ => []) Dev.noLanes
    (fun s c t => ∀ n ∈ s.dev.axLanes c.tgt, (t.dev.lane n).staged = (s.dev.lane n).staged ++ words s c ∧ (t.dev.lane n).gain = (s.dev.lane n).gain) ∧
  cmdRefuses .gainsetWrite 0x0211 (fun _ s c => s.dev.badAxis c.tgt = false ∧ (∃ g ∈ recs c, badGain g = true)) stBadParam)

/-- The commands of class 0x03: segments and their streams, cam tables, groups, setpoints and Flux (R166 to R168, R177
to R181, R185, R351, R367 to R369). It rests on the model's choices in assumption 49. -/
def Obligations.MotionCommands : Prop :=
  (let pars := fun (s : State) (c : Cmd) => s.dev.badAxis c.tgt = false ∧ s.dev.clusterFree (axCl c.tgt)
  let seg := fun (c : Cmd) => segOf ((c.d0.drop 12).take 32)
  let stands := fun (s : State) (c : Cmd) => s.dev.axSt c.tgt ≠ stRetired ∧ s.dev.axSt c.tgt ≠ stFaulted
  -- SEG_APPEND: the entry stands in the queue, behind what was in it; a later segment runs or waits
  (∀ (r : Fin 4096) (s : State) (c : Cmd), s.dev.front r 0x0301 = some c → pars s c → c.bad [(12, 32, 0xFF)] = false →
    s.dev.segCheck c.tgt (seg c) = none → stands s c → s.dev.streamed c.tgt = false → (s.dev.interp c.tgt).len < 64 →
    let q := s.dev.interp c.tgt
    let w := fun (t : State) (i : Nat) => mget 0 t.dev.bank15 (segAddr c.tgt (q.head + q.len) i)
    Yields (exec (.segAppend r) s) fun t => t.mem = s.mem ∧ t.dev.answers r c stOk (t.dev.interp c.tgt).len ∧
      w t 0 = (seg c).w0 ∧ w t 1 = (seg c).w1 ∧ w t 2 = (seg c).w2 ∧ w t 3 = (seg c).w3 ∧ w t 4 = (seg c).w4 ∧ w t 5 = (seg c).w5 ∧
      w t 6 = (seg c).w6 ∧ w t 7 = (seg c).w7 ∧
      (s.dev.groupOf c.tgt = none → (s.dev.axSt c.tgt ≠ stEnabled ∨ ∃ g, q.run = some g ∧ g.open_ = false) →
        (t.dev.interp c.tgt).len = q.len + 1 ∧ (t.dev.interp c.tgt).run = q.run ∧
        (∀ b, b ≠ c.tgt → t.dev.interp b = s.dev.interp b) ∧
        ChangesOnly [AXS_SEG_STAT c.tgt] (fun d => d.noInterps.noBank15.noSqs.noCpls) s.dev t.dev)) ∧
  cmdRefuses .segAppend 0x0301 (fun _ s c => pars s c ∧ c.bad [(12, 32, 0xFF)] = false ∧ s.dev.segCheck c.tgt (seg c) = none ∧
      (s.dev.axSt c.tgt = stRetired ∨ s.dev.axSt c.tgt = stFaulted ∨ s.dev.streamed c.tgt = true)) stNotPermitted ∧
  cmdRefuses .segAppend 0x0301 (fun _ s c => pars s c ∧ c.bad [(12, 32, 0xFF)] = false ∧ s.dev.segCheck c.tgt (seg c) = none ∧
      stands s c ∧ s.dev.streamed c.tgt = false ∧ 64 ≤ (s.dev.interp c.tgt).len) stBusy ∧
  cmdRefuses .segAppend 0x0301 (fun _ s c => s.dev.badAxis c.tgt = false ∧ s.dev.segCheck c.tgt (seg c) = some stBadParam) stBadParam ∧
  -- SEG_FLUSH: what has not started goes, and what runs goes on
  cmdDoes .segFlush 0x0302 (fun _ s c => pars s c ∧ c.bad [] = false ∧ s.dev.axSt c.tgt ≠ stRetired ∧ s.dev.streamed c.tgt = false) stOk
    (fun s c => (s.dev.interp c.tgt).len) (fun _ c => [AXS_SEG_STAT c.tgt, AXS_SEG_DROP c.tgt]) Dev.noInterps
    (fun s c t => (t.dev.interp c.tgt).len = 0 ∧ (t.dev.interp c.tgt).waitT = none ∧ (t.dev.interp c.tgt).run = (s.dev.interp c.tgt).run ∧
      ∀ b, b ≠ c.tgt → t.dev.interp b = s.dev.interp b) ∧
  cmdDoes .segFlush 0x0302 (fun _ s c => pars s c ∧ c.bad [] = false ∧ s.dev.axSt c.tgt ≠ stRetired ∧ s.dev.streamed c.tgt = true) stOk
    (fun s c => (s.dev.interp c.tgt).len) (fun s c => [AXS_SEG_STAT c.tgt, AXS_SEG_DROP c.tgt, LDL_RING_CFG (s.dev.streamRing c.tgt)]) Dev.noInterps
    (fun s c t => (t.dev.interp c.tgt).len = 0 ∧ t.dev.streamed c.tgt = false ∧ t.dev.ringLink (s.dev.streamRing c.tgt) = 0xFFF) ∧
  cmdRefuses .segFlush 0x0302 (fun _ s c => pars s c ∧ c.bad [] = false ∧ s.dev.axSt c.tgt = stRetired) stNotPermitted ∧
  -- SEG_STREAM
  (let ok := fun (op : Nat) (s : State) (c : Cmd) => pars s c ∧ c.bad [(12, 3, 0xFF)] = false ∧ c.get 12 2 < 4096 ∧ c.byte 14 = op ∧
      s.dev.isRing (c.get 12 2) 4 = true
  cmdDoes .segStreamBind 0x0303 (fun _ s c => ok 1 s c ∧ s.dev.streamed c.tgt = false ∧ s.dev.stBound (c.get 12 2) = none) stOk (fun _ _ => 0)
    (fun _ c => [AXS_SEG_STAT c.tgt, LDL_RING_CFG (c.get 12 2)]) id (fun _ c t => t.dev.streamed c.tgt = true ∧
      t.dev.streamRing c.tgt = c.get 12 2 ∧ t.dev.stBound (c.get 12 2) = some c.tgt) ∧
  cmdRefuses .segStreamBind 0x0303 (fun _ s c => ok 1 s c ∧ (s.dev.streamed c.tgt = true ∨ s.dev.stBound (c.get 12 2) ≠ none)) stBusy ∧
  cmdDoes .segStreamUnbind 0x0303 (fun _ s c => ok 0 s c ∧ s.dev.streamed c.tgt = true ∧ s.dev.streamRing c.tgt = c.get 12 2) stOk (fun _ _ => 0)
    (fun _ c => [AXS_SEG_STAT c.tgt, LDL_RING_CFG (c.get 12 2)]) id (fun s c t => t.dev.streamed c.tgt = false ∧
      t.dev.stBound (c.get 12 2) = none ∧ t.dev.interp c.tgt = s.dev.interp c.tgt) ∧
  cmdRefuses .segStreamUnbind 0x0303 (fun _ s c => ok 0 s c ∧ (s.dev.streamed c.tgt = false ∨ s.dev.streamRing c.tgt ≠ c.get 12 2)) stBusy) ∧
  -- SETPOINT_PUT: words 0xC0 to 0xFF of the slot's variable file
  (let f := fun (c : Cmd) => c.byte 12
  let n := fun (c : Cmd) => c.byte 13
  let good := fun (c : Cmd) => c.bad [(12, 2, 0xFF), (16, 32, 0xFF)] = false ∧ 0xC0 ≤ f c ∧ 1 ≤ n c ∧ n c ≤ 8 ∧ f c + n c ≤ 0x100 ∧
      (f c ≤ 0xCF → f c + n c ≤ 0xCF)
  cmdDoes .setpointPut 0x0310 (fun _ s c => pars s c ∧ good c ∧ stands s c) stOk (fun _ _ => 0) (fun _ _ => []) Dev.noLanes
    (fun s c t => ∀ k ∈ s.dev.axLanes c.tgt,
      (∀ i < n c, mget 0 (t.dev.lane k).var (varKey (s.dev.axSlotNo c.tgt) (f c + i)) = w32 (c.get (16 + 4 * i) 4)) ∧
      ∀ j, (∀ i < n c, j ≠ varKey (s.dev.axSlotNo c.tgt) (f c + i)) → mget 0 (t.dev.lane k).var j = mget 0 (s.dev.lane k).var j) ∧
  cmdRefuses .setpointPut 0x0310 (fun _ s c => pars s c ∧ good c ∧ ¬ stands s c) stNotPermitted ∧
  cmdRefuses .setpointPut 0x0310 (fun _ s c => s.dev.badAxis c.tgt = false ∧ f c < 0xC0) stBadParam)) ∧
  -- CAM_LOAD: 1,024 words of a table that no running segment reads
  (let ok := fun (s : State) (c : Cmd) => s.dev.badCluster c.tgt = false ∧ c.bad [(12, 1, 7), (16, 8, 0xFF), (24, 1, 1)] = false ∧
      (c.buf 16 24).bad 4096 = false ∧ s.dev.clusterFree c.tgt
  cmdTakes .camLoad 0x0304 (fun s c => ok s c ∧ s.dev.camRuns c.tgt (c.byte 12) = false) (fun c => c.buf 16 24) (fun _ => 4096)
    (fun r s c b x => Yields (exec (.camLoad r) s) fun t => t.mem = x.1 ∧ CmdEnds r c stOk 0 x.2 t.dev ∧
      let a := fun (i : Nat) => 0x010F8000 + c.tgt * 0x100000 + c.byte 12 * 0x1000 + 4 * i
      (∀ i < 1024, b.length = 4096 → mget 0 t.dev.bank15 (a i) = w32 (dget b (4 * i) 4)) ∧
      (∀ j, (∀ i < 1024, j ≠ a i) → b.length = 4096 → mget 0 t.dev.bank15 j = mget 0 x.2.bank15 j) ∧
      ChangesOnly [] (fun d => d.noBank15.noSqs.noCpls) x.2 t.dev) ∧
  cmdRefuses .camLoad 0x0304 (fun _ s c => ok s c ∧ s.dev.camRuns c.tgt (c.byte 12) = true) stBusy) ∧
  -- GROUP_SET
  (let cfg := fun (c : Cmd) => fput FLX_GRP_CFG_mem_en (fput FLX_GRP_CFG_en 0 (c.byte 13 % 2)) (c.byte 12)
  let lo := fun (c : Cmd) => w32 (c.get 16 4)
  let hi := fun (c : Cmd) => w32 (c.get 20 4)
  let ok := fun (s : State) (c : Cmd) => c.tgt < 32 ∧ s.dev.badCluster (c.tgt / 8) = false ∧
      c.bad [(12, 1, 0xFF), (13, 1, 1), (16, 8, 0x3F)] = false ∧ (∀ i < 8, (c.byte 12).testBit i = true → s.dev.badAxis (c.byte (16 + i)) = false) ∧
      s.dev.clusterFree (c.tgt / 8)
  cmdDoes .groupSet 0x0305 (fun _ s c => ok s c ∧ s.dev.grpCheck c.tgt (cfg c) (lo c) (hi c) = 0) stOk
    (fun s c => (grpSpan c.tgt (((s.dev.wr (FLX_GRP_CFG c.tgt) (cfg c)).wr (FLX_GRP_MEM_LO c.tgt) (lo c)).wr (FLX_GRP_MEM_HI c.tgt) (hi c))).fld
      (FLX_GRP_CFG c.tgt) FLX_GRP_CFG_span) (fun _ c => [FLX_GRP_CFG c.tgt, FLX_GRP_MEM_LO c.tgt, FLX_GRP_MEM_HI c.tgt]) id
    (fun _ c t => t.dev.flag (FLX_GRP_CFG c.tgt) FLX_GRP_CFG_en = bit (c.byte 13) 0 ∧
      t.dev.fld (FLX_GRP_CFG c.tgt) FLX_GRP_CFG_mem_en = c.byte 12 ∧ t.dev.rd (FLX_GRP_MEM_LO c.tgt) = lo c ∧ t.dev.rd (FLX_GRP_MEM_HI c.tgt) = hi c) ∧
  cmdRefuses .groupSet 0x0305 (fun _ s c => ok s c ∧ s.dev.grpCheck c.tgt (cfg c) (lo c) (hi c) = 1) stBadParam ∧
  cmdRefuses .groupSet 0x0305 (fun _ s c => ok s c ∧ s.dev.grpCheck c.tgt (cfg c) (lo c) (hi c) = 2) stNotPermitted) ∧
  -- FLUX_FIRE
  (let ok := fun (s : State) (c : Cmd) => s.dev.badCluster c.tgt = false ∧ c.bad [(12, 1, 15)] = false
  cmdDoes .fluxFire 0x0320 (fun _ s c => ok s c ∧ c.byte 12 ≠ 0 ∧ s.dev.clusterFree c.tgt) stOk (fun s c => s.dev.copy c.tgt % 2 ^ 48) (fun _ _ => []) Dev.noCombs
    (fun s c t => ∀ n < 4, (c.byte 12).testBit n = true → Pulsed c.tgt (0xC8 + n) s.dev t.dev) ∧
  cmdRefuses .fluxFire 0x0320 (fun _ s c => ok s c ∧ c.byte 12 = 0) stBadParam)

/-- The commands of the classes 0x04 to 0x06: feeders, captures, snapshots and conversions, and the Seam link (R207,
R231, R370 to R373, R385, R389, R402 to R405, R485, R486). It rests on the model's choices in assumptions 50 and 77. -/
def Obligations.ServiceCommands : Prop :=
  -- FEEDER_POLL_SET: a polling port takes the list with its next round, another one at once
  (let ok := fun (_ : State) (c : Cmd) => c.tgt < 8 ∧ c.bad [(12, 1, 0xFE), (13, 15, 0xFF)] = false
  let free := fun (s : State) (c : Cmd) => ∀ w ∈ s.dev.waits, ¬ (w.op = 0x0401 ∧ w.target = c.tgt)
  let polls := fun (s : State) (c : Cmd) => s.dev.flag (SLD_CTL c.tgt) SLD_CTL_en = true ∨ (s.dev.sld c.tgt).inRound = true
  let next := fun (c : Cmd) => (List.range 4).map fun i => SLD_LIST_NEXT c.tgt i
  cmdBegins .feederPollSet 0x0401 (fun _ s c => ok s c ∧ free s c ∧ polls s c) (fun c => c.tgt) (fun _ _ => [])
    (fun _ c => SLD_STAT c.tgt :: next c) id (fun _ c t => t.dev.flag (SLD_STAT c.tgt) SLD_STAT_list_req = true ∧
      ∀ i < 4, t.dev.rd (SLD_LIST_NEXT c.tgt i) = w32 (c.get (12 + 4 * i) 4)) ∧
  cmdDoes .feederPollSet 0x0401 (fun _ s c => ok s c ∧ free s c ∧ ¬ polls s c) stOk (fun s c => s.dev.nextRound c.tgt)
    (fun _ c => SLD_STAT c.tgt :: (next c ++ (List.range 4).map fun i => SLD_LIST c.tgt i)) Dev.noSlds
    (fun _ c t => t.dev.flag (SLD_STAT c.tgt) SLD_STAT_list_req = false ∧ t.dev.rd (SLD_LIST c.tgt 0) = w32 (c.get 12 4) &&& 0xFFFFFFFE ∧
      ∀ i < 4, 0 < i → t.dev.rd (SLD_LIST c.tgt i) = w32 (c.get (12 + 4 * i) 4)) ∧
  cmdRefuses .feederPollSet 0x0401 (fun _ s c => ok s c ∧ ¬ free s c) stBusy) ∧
  -- FEEDER_READ and FEEDER_CMD: mailboxes in H7
  cmdPuts .feederRead 0x0402 (fun _ c => c.tgt < 8 ∧ c.bad [(12, 2, 0xFF), (16, 8, 0xFF), (24, 1, 1)] = false ∧ 1 ≤ c.byte 13 ∧
      c.byte 12 + c.byte 13 ≤ 128 ∧ (c.buf 16 24).bad (32 * c.byte 13) = false) (fun c => c.buf 16 24)
    (fun s c => (s.dev, s.mem.h7 (statusBox c.tgt (c.byte 12)) (32 * c.byte 13))) (fun _ _ => 0) id (fun _ _ _ _ => True) ∧
  (let ok := fun (c : Cmd) => c.tgt < 8 ∧ c.bad [(12, 1, 0x7F), (16, 16, 0xFF)] = false ∧ c.d0.length = 64
  let a := fun (c : Cmd) (i : Nat) => bankAddr 71 (commandBox c.tgt (c.byte 12) + 4 * i)
  (∀ (r : Fin 4096) (s : State) (c : Cmd), s.dev.front r 0x0403 = some c → ok c → s.dev.sldListed c.tgt (c.byte 12) = true →
    s.dev.sldPend c.tgt (c.byte 12) = false → Yields (exec (.feederCmd r) s) fun t =>
      (∀ i < 4, t.mem.word (a c i) = w32 (c.get (16 + 4 * i) 4)) ∧ (∀ x, x < a c 0 ∨ a c 4 ≤ x → t.mem.byte x = s.mem.byte x) ∧
      t.mem.host = s.mem.host ∧ CmdEnds r c stOk 0 s.dev t.dev ∧ t.dev.sldPend c.tgt (c.byte 12) = true ∧
      ChangesOnly [SLD_CMD_PEND c.tgt (c.byte 12 / 32)] (fun d => d.noCores.noSqs.noCpls) s.dev t.dev) ∧
  cmdRefuses .feederCmd 0x0403 (fun _ s c => ok c ∧ s.dev.sldListed c.tgt (c.byte 12) = false) stNotPermitted ∧
  cmdRefuses .feederCmd 0x0403 (fun _ s c => ok c ∧ s.dev.sldListed c.tgt (c.byte 12) = true ∧ s.dev.sldPend c.tgt (c.byte 12) = true) stBusy) ∧
  -- captures
  (let base := fun (c : Cmd) => c.get 12 4
  let size := fun (c : Cmd) => c.get 16 4
  let n := fun (c : Cmd) => c.get 20 2
  cmdTakes .captureStart 0x0501 (fun _ c => c.tgt < 8 ∧ c.bad [(12, 10, 0xFF), (22, 1, 1), (24, 8, 0xFF), (32, 1, 1)] = false ∧ base c % 64 = 0 ∧
      size c % 64 = 0 ∧ 4096 ≤ size c ∧ 0x80000000 ≤ base c ∧ base c + size c ≤ 0xF0000000 ∧ 1 ≤ n c ∧ n c ≤ 1024 ∧ (c.buf 24 32).bad (4 * n c) = false)
    (fun c => c.buf 24 32) (fun c => 4 * n c) (fun r s c b x =>
      let l := (List.range (n c)).map fun i => dget b (4 * i) 4
      let refused := fun (st : Nat) => Yields (exec (.captureStart r) s) fun t => t.mem = x.1 ∧ CmdEnds r c st 0 x.2 t.dev ∧
        ChangesOnly [] (fun d => d.noSqs.noCpls) x.2 t.dev
      let rec_ := 16 + (n c + 3) / 4 * 16
      ((∃ v ∈ l, x.2.badSpec v = true) → refused stBadParam) ∧
      ((∀ v ∈ l, x.2.badSpec v = false) → x.2.capRuns c.tgt = true ∨ 1024 < x.2.capVars + n c → refused stBusy) ∧
      ((∀ v ∈ l, x.2.badSpec v = false) → x.2.capRuns c.tgt = false → x.2.capVars + n c ≤ 1024 → Yields (exec (.captureStart r) s) fun t =>
        t.mem = x.1 ∧ CmdEnds r c stOk rec_ x.2 t.dev ∧ t.dev.capRuns c.tgt = true ∧ t.dev.rd (DBG_CAP_WPTR c.tgt) = 0 ∧
        t.dev.rd (DBG_CAP_SEQ c.tgt) = 0 ∧ (t.dev.cap c.tgt).specs = l ∧ (t.dev.cap c.tgt).base = base c ∧ (t.dev.cap c.tgt).size = size c ∧
        (t.dev.cap c.tgt).wrap = bit (c.byte 22) 0 ∧ (t.dev.cap c.tgt).recSize = rec_ ∧ (∀ k, k ≠ c.tgt → t.dev.cap k = x.2.cap k) ∧
        ChangesOnly [DBG_CAP_STAT c.tgt, DBG_CAP_WPTR c.tgt, DBG_CAP_SEQ c.tgt] (fun d => d.noCaps.noSqs.noCpls) x.2 t.dev)) ∧
  cmdDoes .captureStop 0x0502 (fun _ _ c => c.tgt < 8 ∧ c.bad [] = false) stOk (fun s c => (s.dev.cap c.tgt).bytes % 2 ^ 32)
    (fun _ c => [DBG_CAP_STAT c.tgt]) id (fun s c t => t.dev.capRuns c.tgt = false ∧
      (s.dev.capRuns c.tgt = true → s.dev.takesEvent 0x0911 [2] = true → t.dev.hasEvent 0x0911 0 c.tgt [2])) ∧
  cmdRefuses .captureStop 0x0502 (fun _ _ c => 8 ≤ c.tgt) stBadTarget) ∧
  -- a snapshot of the 32 timers of a cluster
  (let ok := fun (s : State) (c : Cmd) => s.dev.badCluster c.tgt = false ∧ c.bad [] = false ∧ s.dev.clusterFree c.tgt
  cmdBegins .tmrSnapshot 0x0510 (fun _ s c => ok s c ∧ s.dev.flag (TMR_SNAP_CTL c.tgt) TMR_SNAP_CTL_done = true) (fun c => c.tgt)
    (fun _ _ => []) (fun _ c => [TMR_SNAP_CTL c.tgt]) id
    (fun _ c t => t.dev.flag (TMR_SNAP_CTL c.tgt) TMR_SNAP_CTL_done = false) ∧
  cmdRefuses .tmrSnapshot 0x0510 (fun _ s c => ok s c ∧ s.dev.flag (TMR_SNAP_CTL c.tgt) TMR_SNAP_CTL_done = false) stBusy) ∧
  -- a conversion of the Crucible
  (let ok := fun (c : Cmd) => c.tgt < 16 ∧ c.bad [] = false
  let on := fun (s : State) (c : Cmd) => s.dev.flag (CRU_CFG c.tgt) CRU_CFG_en = true ∧ s.dev.flag CRU_REF_CTL CRU_REF_CTL_ref_en = true
  cmdBegins .cruConvert 0x0520 (fun _ s c => ok c ∧ on s c ∧ s.dev.cruRun c.tgt = none) (fun c => c.tgt) (fun _ _ => [])
    (fun _ c => [CRU_STAT c.tgt, CRU_STAT (c.tgt + 1), CRU_T_LO c.tgt, CRU_PAIR_STAT (c.tgt / 2)]) Dev.noCru
    (fun s c t => t.dev.flag (CRU_STAT c.tgt) CRU_STAT_busy = true ∧
      ∃ x, t.dev.cruRun c.tgt = some x ∧ x.cfg = s.dev.rd (CRU_CFG c.tgt) ∧ x.check = false) ∧
  cmdRefuses .cruConvert 0x0520 (fun _ s c => ok c ∧ ¬ on s c) stNotPermitted ∧
  cmdRefuses .cruConvert 0x0520 (fun _ s c => ok c ∧ on s c ∧ s.dev.cruRun c.tgt ≠ none) stBusy) ∧
  -- messages of the Seam link
  (let n := fun (c : Cmd) => c.get 12 2
  let ok := fun (c : Cmd) => c.tgt < 1000 ∧ c.bad [(12, 2, 0xFF), (16, 8, 0xFF), (24, 1, 1), (26, 2, 0xFF)] = false ∧ 1 ≤ n c ∧ n c ≤ 1024 ∧
      (c.buf 16 24).bad (n c) = false
  cmdTakes .seamMboxSend 0x0601 (fun s c => ok c ∧ s.dev.reachable c.tgt = true) (fun c => c.buf 16 24) n
    (fun r s c b x => Yields (exec (.seamMboxSend r) s) fun t => t.mem = x.1 ∧ t.dev.holds r c c.tgt [] ∧
      (∃ q ∈ t.dev.sem.msgs, q.dest = c.tgt ∧ q.id = x.2.sem.nextId ∧ q.data = b ∧ q.sq = r.val) ∧
      t.dev.sem.nextId = (x.2.sem.nextId + 1) % 2 ^ 16 ∧ ChangesOnly [] (fun d => d.noSem.noSqs.noCpls.noWaits) x.2 t.dev) ∧
  cmdRefuses .seamMboxSend 0x0601 (fun _ s c => ok c ∧ s.dev.reachable c.tgt = false) stUnreachable) ∧
  (let k := fun (c : Cmd) => c.byte 12
  let at_ := fun (c : Cmd) => c.get 16 8
  let ok := fun (c : Cmd) => c.bad [(12, 1, 7), (16, 8, 0xFF)] = false
  (∀ (r : Fin 4096) (s : State) (c : Cmd), s.dev.front r 0x0602 = some c → ok c → c.tgt < 1000 → s.dev.reachable c.tgt = true →
    (c.tgt ≠ s.dev.semNode → Yields (exec (.seamEvent r) s) fun t => t.mem = s.mem ∧ (∃ late < 2, CmdEnds r c stOk late s.dev t.dev) ∧
      t.dev.sem.events = s.dev.sem.events ++ [(c.tgt, k c, at_ c)] ∧
      (∀ p < 2, s.dev.portWorks p = true → (p, s.dev.ownFrame fEVENT c.tgt (leBytes 4 (k c) ++ leBytes 8 (at_ c))) ∈ t.dev.sem.out) ∧
      ChangesOnly [] (fun d => d.noSem.noSqs.noCpls) s.dev t.dev) ∧
    (c.tgt = s.dev.semNode → let late := decide (at_ c < s.dev.liTime + 64)
      Yields (exec (.seamEvent r) s) fun t => t.mem = s.mem ∧ CmdEnds r c stOk (b2n late) s.dev t.dev ∧
        (∀ q < 4, s.dev.released q = true → .seamEvent q (k c) (at_ c) (if late then some (s.dev.now + 12) else none) ∈ t.dev.due) ∧
        (late = true → t.dev.flag SEM_GSTAT SEM_GSTAT_evt_late = true) ∧ ChangesOnly [SEM_GSTAT] (fun d => d.noSqs.noCpls) s.dev t.dev)) ∧
  cmdRefuses .seamEvent 0x0602 (fun _ s c => ok c ∧ c.tgt < 1000 ∧ s.dev.reachable c.tgt = false) stUnreachable ∧
  cmdRefuses .seamEvent 0x0602 (fun _ s c => ok c ∧ c.tgt = 0x3FF ∧ (s.dev.semEn = false ∨ s.dev.member = false)) stUnreachable) ∧
  -- membership
  (let ok := fun (op : Nat) (c : Cmd) => c.badNone = false ∧ c.bad [(12, 1, 0xFF)] = false ∧ c.byte 12 = op
  let free := fun (s : State) => ∀ w ∈ s.dev.waits, w.op ≠ 0x0603
  cmdBegins .seamMemberJoin 0x0603 (fun _ s c => ok 1 c ∧ s.dev.semEn = true ∧ s.dev.member = false ∧ s.dev.time.mode = 2 ∧ free s) (fun _ => 0)
    (fun _ _ => [1]) (fun _ _ => []) Dev.noSem (fun s _ t => s.dev.epochLen ≠ 0 → t.dev.sem.joining = true) ∧
  cmdBegins .seamMemberLeave 0x0603 (fun _ s c => ok 2 c ∧ s.dev.semEn = true ∧ s.dev.member = true ∧ free s) (fun _ => 0) (fun _ _ => [2])
    (fun _ _ => []) Dev.noSem (fun s _ t => t.dev.sem.leaving = true ∧ (s.dev.semNode, false) ∈ t.dev.sem.leaves) ∧
  cmdRefuses .seamMemberJoin 0x0603 (fun _ s c => ok 1 c ∧ (s.dev.semEn = false ∨ s.dev.member = true ∨ s.dev.time.mode ≠ 2)) stNotPermitted ∧
  cmdRefuses .seamMemberLeave 0x0603 (fun _ s c => ok 2 c ∧ (s.dev.semEn = false ∨ s.dev.member = false)) stNotPermitted ∧
  cmdRefuses .seamMemberJoin 0x0603 (fun _ s c => ok 1 c ∧ s.dev.semEn = true ∧ s.dev.member = false ∧ s.dev.time.mode = 2 ∧ ¬ free s) stBusy ∧
  cmdRefuses .seamMemberLeave 0x0603 (fun _ s c => ok 2 c ∧ s.dev.semEn = true ∧ s.dev.member = true ∧ ¬ free s) stBusy)

/-- The commands of class 0x07: reads, erases and programs of the flash array, its regions and the firmware slots (R374,
R411 to R427). A command that changes the array joins the work of the routine; and what its programs and erases do. It
rests on the model's choices in assumptions 51 and 52. -/
def Obligations.FlashCommands : Prop :=
  (let work := fun (t : State) (r : Fin 4096) (op : Nat) (acts : List FlsAct) => ∃ j ∈ t.dev.fls.jobs, j.sq = r.val ∧ j.op = op ∧ j.acts = acts
  let kept := fun (s t : State) => t.mem.host = s.mem.host ∧ ∀ x, x < 0x04000000 ∨ 0x08000000 ≤ x → t.mem.byte x = s.mem.byte x
  let frame := fun (d : Dev) (t : State) => ChangesOnly [] (fun e => e.noFls.noSqs.noCpls.noWaits) d t.dev
  -- reads
  (let o := fun (c : Cmd) => c.get 12 4
  let n := fun (c : Cmd) => c.get 16 4
  let ok := fun (c : Cmd) => c.badNone = false ∧ c.bad [(12, 16, 0xFF), (28, 1, 3)] = false ∧ 1 ≤ n c ∧ n c ≤ 2 ^ 20 ∧ n c % 4 = 0 ∧
      o c + n c ≤ 0x04000000 ∧ (c.buf 20 28).bad (n c) = false
  let way := fun (s : State) (c : Cmd) => s.dev.flashWay (sectorsOf (o c) (n c))
  cmdPuts .flashRead 0x0701 (fun s c => ok c ∧ way s c = .now) (fun c => c.buf 20 28) (fun s c => (s.dev, s.mem.flash (o c) (n c))) (fun _ _ => 0) id
    (fun _ _ _ _ => True) ∧
  cmdRefuses .flashRead 0x0701 (fun _ s c => ok c ∧ (way s c = .busy ∨ way s c = .suspend) ∧ bit (c.byte 28) 1 = true) stBankBusy ∧
  (∀ (r : Fin 4096) (s : State) (c : Cmd), s.dev.front r 0x0701 = some c → ok c → bit (c.byte 28) 1 = false →
    (way s c = .busy → Yields (exec (.flashRead r) s) fun t => t = s) ∧
    (way s c = .suspend → (c.buf 20 28).fab = false → s.dev.hostOk = true → Yields (exec (.flashRead r) s) fun t =>
      t.mem = s.mem.setHost (c.buf 20 28).addr (s.mem.flash (o c) (n c)) ∧ CmdEnds r c stOk 0 s.dev t.dev ∧ t.dev.fls.susp = true ∧
        ChangesOnly [] (fun d => d.noFls.noSqs.noCpls) s.dev t.dev)) ∧
  cmdRefuses .flashRead 0x0701 (fun _ _ c => c.badNone = false ∧ 0x04000000 < o c + n c) stBadParam) ∧
  -- erases
  (let o := fun (c : Cmd) => c.get 12 4
  let n := fun (c : Cmd) => c.byte 16
  let ok := fun (c : Cmd) => c.badNone = false ∧ c.bad [(12, 5, 0xFF), (20, 4, 0xFF)] = false ∧ o c % 0x10000 = 0 ∧ 1 ≤ n c ∧ n c ≤ 16 ∧
      o c + n c * 0x10000 ≤ 0x04000000
  (∀ (r : Fin 4096) (s : State) (c : Cmd), s.dev.front r 0x0702 = some c → ok c → s.dev.flashKept (o c) (n c * 0x10000) = false →
    Yields (exec (.flashErase r) s) fun t => kept s t ∧ t.dev.holds r c 0 [] ∧ frame s.dev t ∧
      work t r 0x0702 ((List.range (n c)).map fun i => .erase (o c / 0x10000 + i))) ∧
  cmdRefuses .flashErase 0x0702 (fun _ s c => ok c ∧ s.dev.flashKept (o c) (n c * 0x10000) = true) stNotPermitted ∧
  cmdRefuses .flashErase 0x0702 (fun _ _ c => c.badNone = false ∧ o c % 0x10000 ≠ 0) stBadParam) ∧
  -- programs
  (let o := fun (c : Cmd) => c.get 12 4
  let n := fun (c : Cmd) => c.get 16 4
  let clear := fun (c : Cmd) => bit (c.byte 28) 1
  let ok := fun (c : Cmd) => c.badNone = false ∧ c.bad [(12, 16, 0xFF), (28, 1, 3)] = false ∧ o c % 4 = 0 ∧ 4 ≤ n c ∧
      n c ≤ (if clear c then 64 else 4096) ∧ n c % 4 = 0 ∧ o c + n c ≤ 0x04000000 ∧ (c.buf 20 28).bad (n c) = false
  cmdTakes .flashProgram 0x0703 (fun s c => ok c ∧ s.dev.flashKept (o c) (n c) = false) (fun c => c.buf 20 28) n
    (fun r s c b x => Yields (exec (.flashProgram r) s) fun t => kept ⟨x.1, x.2, []⟩ t ∧ t.dev.holds r c 0 [] ∧ frame x.2 t ∧
      work t r 0x0703 (pages (o c) b (clear c))) ∧
  cmdRefuses .flashProgram 0x0703 (fun _ s c => ok c ∧ s.dev.flashKept (o c) (n c) = true) stNotPermitted) ∧
  -- regions
  (let n := fun (c : Cmd) => c.get 12 4
  let ok := fun (c : Cmd) => c.tgt < 4 ∧ c.bad [(12, 12, 0xFF), (24, 1, 1)] = false ∧ n c ≤ regionLimit c.tgt ∧ (c.buf 16 24).bad (n c) = false
  let free := fun (s : State) (c : Cmd) => ∀ w ∈ s.dev.waits, ¬ (w.op = 0x0710 ∧ w.target = c.tgt)
  cmdTakes .regionWrite 0x0710 (fun s c => ok c ∧ 1 ≤ n c ∧ free s c) (fun c => c.buf 16 24) n (fun r s c b x =>
    (x.2.regionActs x.1 c.tgt b = none → Yields (exec (.regionWrite r) s) fun t => t.mem = x.1 ∧ CmdEnds r c stBadParam 0 x.2 t.dev ∧
      ChangesOnly [] (fun d => d.noSqs.noCpls) x.2 t.dev) ∧
    (∀ acts gen, x.2.regionActs x.1 c.tgt b = some (acts, gen) → Yields (exec (.regionWrite r) s) fun t => kept ⟨x.1, x.2, []⟩ t ∧
      t.dev.holds r c c.tgt [] ∧ frame x.2 t ∧ work t r 0x0710 acts)) ∧
  (∀ (r : Fin 4096) (s : State) (c : Cmd), s.dev.front r 0x0710 = some c → ok c → 1 ≤ n c → ¬ free s c →
    Yields (exec (.regionWrite r) s) fun t => t = s) ∧
  cmdDoes .regionRead 0x0711 (fun _ s c => ok c ∧ s.dev.region s.mem c.tgt = none) stOk (fun _ _ => 0) (fun _ _ => []) id (fun _ _ _ => True) ∧
  -- the sectors and the payload of the current generation
  (let g := fun (s : State) (c : Cmd) => (s.dev.region s.mem c.tgt).getD (0, 0, 0, [])
  let where_ := fun (s : State) (c : Cmd) => (List.range (g s c).2.2.1).map fun i =>
      (s.dev.ringSectors c.tgt).getD (((g s c).1 + i) % (s.dev.ringSectors c.tgt).length) 0
  cmdPuts .regionRead 0x0711 (fun s c => ok c ∧ s.dev.region s.mem c.tgt ≠ none ∧ s.dev.flashWay (where_ s c) = .now)
      (fun c => c.buf 16 24) (fun s c => (s.dev, (g s c).2.2.2.take (n c))) (fun s c => min (n c) (g s c).2.2.2.length) id (fun _ _ _ _ => True))) ∧
  -- firmware slots
  (let n := fun (c : Cmd) => c.get 12 4
  let ok := fun (c : Cmd) => c.tgt < 2 ∧ c.bad [(12, 12, 0xFF), (24, 1, 1)] = false ∧ 1 ≤ n c ∧ n c ≤ 16711680 ∧ (c.buf 16 24).bad (n c) = false
  let free := fun (s : State) (c : Cmd) => ∀ w ∈ s.dev.waits, ¬ (w.op = 0x0720 ∧ w.target = c.tgt)
  cmdTakes .fwUpdate 0x0720 (fun s c => ok c ∧ s.dev.fld TCH_BOOT TCH_BOOT_slot ≠ c.tgt ∧ free s c) (fun c => c.buf 16 24) n
    (fun r s c b x => Yields (exec (.fwUpdate r) s) fun t => kept ⟨x.1, x.2, []⟩ t ∧ t.dev.holds r c c.tgt [] ∧ frame x.2 t ∧
      work t r 0x0720 ((List.range 256).map (fun i => .erase (c.tgt * 256 + i)) ++ pages (slotAt c.tgt + 0x10000) b false)) ∧
  cmdRefuses .fwUpdate 0x0720 (fun _ s c => ok c ∧ s.dev.fld TCH_BOOT TCH_BOOT_slot = c.tgt) stNotPermitted ∧
  (∀ (r : Fin 4096) (s : State) (c : Cmd), s.dev.front r 0x0721 = some c → c.tgt < 2 → c.bad [] = false →
    (s.mem.slotVerified c.tgt = true → Yields (exec (.fwSelect r) s) fun t => kept s t ∧ t.dev.holds r c c.tgt [] ∧ frame s.dev t ∧
      work t r 0x0721 (s.mem.selectActs c.tgt)) ∧
    (s.mem.slotVerified c.tgt = false → Yields (exec (.fwSelect r) s) fun t => t.mem = s.mem ∧
      (∃ why, 1 ≤ why ∧ why ≤ 6 ∧ CmdEnds r c stImageRejected why s.dev t.dev) ∧ ChangesOnly [] (fun d => d.noSqs.noCpls) s.dev t.dev))) ∧
  -- the routine's own work: a program's end, an erase's end, its resumption and its forcing
  (∀ s : State, let f := s.dev.fls
    let ended := fun (t : State) (j : FlsJob) (status : Nat) => ∀ w ∈ s.dev.waits, w.sq = j.sq → w.op = j.op →
      (⟨w.sq, w.cid, status, 0⟩ : Cpl) ∈ t.dev.cpls ∧ w ∉ t.dev.waits
    -- what stands but for the bytes from flash offset x on and the erase journal
    let stands := fun (t : State) (x n : Nat) => t.mem.host = s.mem.host ∧ t.mem.tags = s.mem.tags ∧ t.mem.err = s.mem.err ∧
      ∀ y, y < flsAddr x ∨ flsAddr (x + n) ≤ y → y < flsAddr 0x03900000 ∨ flsAddr 0x03920000 ≤ y → t.mem.byte y = s.mem.byte y
    let moved := fun (t : State) => ChangesOnly [HLM_IMG_REJ] (fun d => d.noFls.noCpls.noWaits) s.dev t.dev
    -- for a millisecond after its resumption an erase yields to no program
    let fresh := f.erasing ≠ none ∧ f.susp = false ∧ ∃ at0, f.resumeAt = some at0 ∧ s.dev.now < at0 + 800000
    (∀ bad, s.dev.progJob = none ∨ (f.erasing.isSome && f.forced) = true ∨ (f.frozen && !f.progLeft) = true ∨ fresh →
      Yields (exec (.pageProgramDone bad) s) fun t => t = s) ∧
    (∀ j x b clear rest, s.dev.progJob = some j → j.acts = .prog x b clear :: rest → (f.erasing.isSome && f.forced) = false →
      (f.frozen && !f.progLeft) = false → ¬ fresh → x + b.length ≤ 0x03900000 →
      let goes := clear = true ∨ jobErases j = true ∨ jobBlank s.mem j = true
      (¬ goes → ∀ bad, Yields (exec (.pageProgramDone bad) s) fun t => stands t x 0 ∧ ended t j stNotErased ∧ moved t) ∧
      (goes → Yields (exec (.pageProgramDone true) s) fun t => stands t x b.length ∧ ended t j stVerifyFailed ∧ moved t) ∧
      -- a program only clears bits
      (goes → Yields (exec (.pageProgramDone false) s) fun t => stands t x b.length ∧ moved t ∧
        ∀ i (h : i < b.length), t.mem.byte (flsAddr (x + i)) = s.mem.byte (flsAddr (x + i)) &&& b[i])) ∧
    (∀ bad, f.erasing = none ∨ f.susp = true ∨ f.frozen = true → Yields (exec (.eraseDone bad) s) fun t => t = s) ∧
    (∀ sec, f.erasing = some sec → f.susp = false → f.frozen = false → sec < 912 → ∀ bad,
      Yields (exec (.eraseDone bad) s) fun t => stands t (sec * 0x10000) 0x10000 ∧ mget 0 t.dev.fls.counts sec = mget 0 f.counts sec + 1 ∧
        (bad = false → ∀ i, i < 0x10000 → t.mem.byte (flsAddr (sec * 0x10000 + i)) = 0xFF) ∧
        ChangesOnly [HLM_IMG_REJ] (fun d => d.noFls.noCpls.noWaits.noTch) s.dev t.dev) ∧
    -- a suspended erase goes on once no program waits that it yields to
    (f.frozen = true ∨ f.susp = false ∨ (s.dev.progJob ≠ none ∧ f.forced = false) → Yields (exec .eraseResume s) fun t => t = s) ∧
    (f.frozen = false → f.susp = true → s.dev.progJob = none ∨ f.forced = true → Yields (exec .eraseResume s) fun t => t.mem = s.mem ∧
      t.dev = { s.dev with fls := { f with susp := false, resumeAt := some s.dev.now } }) ∧
    (∀ sec j, f.erasing = some sec → s.dev.eraseJob sec = some j → j.limit ≠ 0 → f.forced = false →
      let age := (s.dev.now - f.eraseAt) / 800000
      (age < j.limit → Yields (exec .eraseForced s) fun t => t = s) ∧
      (j.limit ≤ age → Yields (exec .eraseForced s) fun t =>
      t.mem = s.mem ∧ t.dev.fls = { f with forced := true } ∧ ChangesOnly [] Dev.noFls s.dev t.dev ∧
      (s.dev.takesEvent 0x0701 [age, j.limit] = true → t.dev.hasEvent 0x0701 4 sec [age, j.limit]))) ∧
    (f.erasing = none ∨ f.forced = true → Yields (exec .eraseForced s) fun t => t = s)))

/-- The commands of the classes 0x08 to 0x0A: security, diagnostics and counters, and debug (R293, R375 to R377, R436,
R438 to R452, R474). It rests on the model's choices in assumptions 47, 51 and 54. -/
def Obligations.SecurityAndDebugCommands : Prop :=
  -- SESSION_CLOSE: the session ends, with its commands that have not begun
  (let ok := fun (c : Cmd) => 1 ≤ c.tgt ∧ c.tgt ≤ 15 ∧ c.bad [] = false
  (∀ (r : Fin 4096) (s : State) (c : Cmd), s.dev.front r 0x0801 = some c → ok c → mget none s.dev.hlm.sess c.tgt ≠ none →
    Yields (exec (.sessionClose r) s) fun t => t.mem = s.mem ∧ t.dev.cpls = s.dev.cpls ++ [⟨r, dTag c.d0, stOk, 0⟩] ∧
      mget none t.dev.hlm.sess c.tgt = none ∧ (∀ j, j ≠ c.tgt → mget none t.dev.hlm.sess j = mget none s.dev.hlm.sess j) ∧
      ChangesOnly [HLM_SESSIONS] (fun d => d.noHlm.noSqs.noCpls) s.dev t.dev) ∧
  cmdRefuses .sessionClose 0x0801 (fun _ s c => ok c ∧ mget none s.dev.hlm.sess c.tgt = none) stNotPermitted) ∧
  -- AUTH_MARK
  (let m := fun (c : Cmd) => c.get 12 2
  cmdDoes .authMark 0x0802 (fun _ _ c => c.badNone = false ∧ c.bad [(12, 2, 0xFF)] = false ∧ m c ||| authBits = authBits) stOk (fun _ c => m c)
    (fun _ _ => [HLM_AUTH_MASK, HLM_STAT]) Dev.noHlm
    (fun _ c t => t.dev.fld HLM_AUTH_MASK HLM_AUTH_MASK_mask = m c ∧ t.dev.hlm.maskKept = m c) ∧
  cmdRefuses .authMark 0x0802 (fun _ _ c => c.badNone = false ∧ m c ||| authBits ≠ authBits) stBadParam) ∧
  -- LIFECYCLE_SET: R441's transitions, and no other; DECOMMISSIONED begins with a fresh Touchmark log
  (let k := fun (c : Cmd) => c.byte 12
  let ok := fun (c : Cmd) => c.badNone = false ∧ c.bad [(12, 1, 0xFF)] = false ∧ 1 ≤ k c ∧ k c ≤ 4
  cmdDoes .lifecycleSet 0x0803 (fun _ s c => ok c ∧ s.dev.lifeMay (k c) = true ∧ k c ≠ 4) stOk (fun _ c => k c) (fun _ _ => [HLM_STAT]) Dev.noHlm
    (fun _ c t => t.dev.lifecycle = k c ∧ t.dev.fld HLM_STAT HLM_STAT_lifecycle = k c) ∧
  (∀ (r : Fin 4096) (s : State) (c : Cmd), s.dev.front r 0x0803 = some c → ok c → k c = 4 → s.dev.lifecycle ≠ 4 →
    Yields (exec (.lifecycleSet r) s) fun t => CmdEnds r c stOk 4 s.dev t.dev ∧ t.dev.lifecycle = 4 ∧ t.dev.fld TCH_SEQ TCH_SEQ_seq = 1 ∧
      t.dev.fld TCH_NEWEST TCH_NEWEST_slot = 0 ∧ dget (t.mem.flash (tchSlot 0) 512) 16 2 = 0x000A ∧
      (∀ i, 1 ≤ i → i < 2048 → t.mem.flash (tchSlot i) 512 = List.replicate 512 0xFF)) ∧
  cmdRefuses .lifecycleSet 0x0803 (fun _ s c => ok c ∧ s.dev.lifeMay (k c) = false) stNotPermitted) ∧
  cmdDoes .securityStatus 0x0804 (fun _ _ c => plain c) stOk (fun s _ => s.dev.lifecycle + b2n (s.dev.flag HLM_STAT HLM_STAT_certified) * 8 +
    s.dev.dbgLevel * 16 + s.dev.fld HLM_AUTH_MASK HLM_AUTH_MASK_mask * 65536) (fun _ _ => []) id (fun _ _ _ => True) ∧
  -- PROVISION: once, in BLANK
  (let ok := fun (c : Cmd) => c.badNone = false ∧ c.bad [(12, 12, 0xFF), (24, 1, 1)] = false ∧ c.get 20 4 = 140 ∧ (c.buf 12 24).bad 140 = false
  cmdTakes .provision 0x0810 (fun s c => ok c ∧ s.dev.lifecycle = 0 ∧ s.dev.ownerKey = false) (fun c => c.buf 12 24) (fun _ => 140)
    (fun r s c b x =>
      (Config.onCurve (b.take 96) = false → Yields (exec (.provision r) s) fun t => t.mem = x.1 ∧ CmdEnds r c stBadParam 0 x.2 t.dev ∧
        ChangesOnly [] (fun d => d.noSqs.noCpls) x.2 t.dev) ∧
      (Config.onCurve (b.take 96) = true → b.length = 140 → Yields (exec (.provision r) s) fun t => t.mem = x.1 ∧ CmdEnds r c stOk 0 x.2 t.dev ∧
        t.dev.otpSpan 0x010 96 = b.take 96 ∧ (∀ i, t.dev.otpByte i &&& x.2.otpByte i = x.2.otpByte i) ∧
        ChangesOnly [] (fun d => d.noHlm.noSqs.noCpls) x.2 t.dev)) ∧
  cmdRefuses .provision 0x0810 (fun _ s c => ok c ∧ (s.dev.lifecycle ≠ 0 ∨ s.dev.ownerKey = true)) stNotPermitted) ∧
  -- counters, march test, log
  -- a dump begins with the first boundary of 1,024 ticks at least 2 µs away, and ends when all five islands have copied
  cmdBegins .evcDump 0x0901 (fun r s c => c.badNone = false ∧ c.bad [(12, 8, 0xFF), (20, 1, 1)] = false ∧ (c.buf 12 20).bad 768 = false ∧
      s.dev.dumpDone r = none) (fun _ => 0)
    (fun s c => [b2n (c.buf 12 20).fab, (c.buf 12 20).addr, (s.dev.time.master + 1600 + 1023) / 1024 * 1024, 0] ++ List.replicate 96 0)
    (fun _ _ => []) id (fun _ _ _ => True) ∧
  (∀ (r : Fin 4096) (s : State) (w : Wait), s.dev.waits.find? (fun w => w.sq == r.val && w.op == 0x0901 && w.aux.getD 3 0 == 31) = some w →
    let bytes := (List.range 96).flatMap fun e => leBytes 8 (w.aux.getD (4 + e) 0)
    let ended := fun (t : State) (status result : Nat) => w ∉ t.dev.waits ∧ (⟨w.sq, w.cid, status, result⟩ : Cpl) ∈ t.dev.cpls
    (w.aux.getD 0 0 ≠ 1 → s.dev.hostOk = false → Yields (exec (.evcDump r) s) fun t => t = s) ∧
    (w.aux.getD 0 0 ≠ 1 → s.dev.hostOk = true → Yields (exec (.evcDump r) s) fun t => t.mem = s.mem.setHost (w.aux.getD 1 0) bytes ∧
      ended t stOk (w.aux.getD 2 0 % 2 ^ 48) ∧ ChangesOnly [] (fun d => d.noWaits.noCpls) s.dev t.dev) ∧
    (w.aux.getD 0 0 = 1 → ∀ y, ladWrite 769 (w.aux.getD 1 0) bytes (s.mem, s.dev) = y → Yields (exec (.evcDump r) s) fun t => t.mem = y.1.1 ∧
      ended t (if y.2.2 = none then stOk else stTransferFailed) (y.2.2.getD (w.aux.getD 2 0 % 2 ^ 48)))) ∧
  (∀ b, let ok := fun (s : State) (c : Cmd) => bankOfTarget c.tgt = some b ∧ b ≠ 71 ∧ (b < 64 → b % 16 ≠ 15 ∧ s.dev.badCluster (b / 16) = false ∧
      s.dev.clusterFree (b / 16)) ∧ c.bad [] = false
    cmdBegins .bankMarch 0x0902 (fun _ s c => ok s c ∧ s.dev.bankFree b = true) (fun c => c.tgt) (fun _ _ => []) (fun _ _ => [ING_BANK_STAT b]) id
      (fun _ _ t => t.dev.flag (ING_BANK_STAT b) ING_BANK_STAT_march_busy = true) ∧
    cmdRefuses .bankMarch 0x0902 (fun _ s c => ok s c ∧ s.dev.bankFree b = false) stBusy) ∧
  (let n := fun (c : Cmd) => c.get 14 2
  let slots := fun (c : Cmd) => (List.range (n c)).map fun i => (c.get 12 2 + i) % 2048
  cmdPuts .touchmarkRead 0x0903 (fun s c => c.badNone = false ∧ c.bad [(12, 12, 0xFF), (24, 1, 1)] = false ∧ c.get 12 2 ≤ 2047 ∧ 1 ≤ n c ∧ n c ≤ 2048 ∧
      (c.buf 16 24).bad (512 * n c) = false ∧ s.dev.flashWay ((slots c).map fun i => 896 + i / 128) = .now) (fun c => c.buf 16 24)
    (fun s c => (s.dev, (slots c).flatMap fun i => s.mem.flash (tchSlot i) 512)) (fun s _ => s.dev.fld TCH_NEWEST TCH_NEWEST_slot) id
    (fun _ _ _ _ => True)) ∧
  -- debug over PCI Express
  (let ok := fun (c : Cmd) => c.badNone = false ∧ c.bad [(12, 8, 0xFF), (20, 1, 1)] = false ∧ (c.buf 12 20).bad 32 = false
  cmdPuts .debugChallenge 0x0A01 (fun s c => ok c ∧ s.dev.noEntropy = false) (fun c => c.buf 12 20) (fun s _ => drbgDraw 32 s.dev)
    (fun _ _ => 0) Dev.noHlm (fun s _ b t => t.dev.hlm.chal = some b ∧ b.length = 32 ∧ t.dev.hlm.chalAt = s.dev.now) ∧
  cmdRefuses .debugChallenge 0x0A01 (fun _ s c => ok c ∧ s.dev.noEntropy = true) stBusy) ∧
  (let ok := fun (l : Nat) (c : Cmd) => c.badNone = false ∧ c.bad [(12, 1, 0xFF), (16, 8, 0xFF), (24, 1, 1)] = false ∧ c.byte 12 = l ∧ (c.buf 16 24).bad 96 = false
  let open_ := fun (d : Dev) => d.lifecycle = 0 ∨ d.lifecycle = 4
  cmdTakes .debugUnlock 0x0A02 (fun _ c => ok 1 c) (fun c => c.buf 16 24) (fun _ => 96) (fun r s c sig x =>
    (open_ x.2 ∨ x.2.unlockGood 1 sig = true → Yields (exec (.debugUnlock r) s) fun t => t.mem = x.1 ∧ CmdEnds r c stOk 1 x.2 t.dev ∧
      t.dev.fld DBG_STAT DBG_STAT_pcie_level = 1 ∧ t.dev.hlm.chal = none ∧ ChangesOnly [DBG_STAT, HLM_STAT] (fun d => d.noHlm.noSqs.noCpls) x.2 t.dev) ∧
    (¬ open_ x.2 → x.2.unlockGood 1 sig = false → Yields (exec (.debugUnlock r) s) fun t => t.mem = x.1 ∧ CmdEnds r c stAuthFailed 0 x.2 t.dev ∧
      ChangesOnly [] (fun d => d.noSqs.noCpls) x.2 t.dev)) ∧
  cmdRefuses .debugUnlock 0x0A02 (fun _ _ c => ok 2 c) stNotPermitted) ∧
  cmdDoes .debugLock 0x0A03 (fun _ _ c => plain c) stOk (fun _ _ => 0) (fun _ _ => [DBG_STAT, HLM_STAT]) Dev.noHlm
    (fun _ _ t => t.dev.fld DBG_STAT DBG_STAT_pcie_level = 0) ∧
  -- PEEK reads without side effects, at OBSERVE or FULL
  (let n := fun (c : Cmd) => c.get 16 4
  let tags := fun (c : Cmd) => bit (c.byte 28) 1
  let ok := fun (c : Cmd) => c.badNone = false ∧ c.bad [(12, 16, 0xFF), (28, 1, 3)] = false ∧ c.get 12 4 % 4 = 0 ∧ 4 ≤ n c ∧ n c ≤ 4096 ∧ n c % 4 = 0 ∧
      c.get 12 4 + n c ≤ 2 ^ 32 ∧ (c.buf 20 28).bad (if tags c then 2 * n c else n c) = false
  (∀ (r : Fin 4096) (s : State) (c : Cmd), s.dev.front r 0x0A10 = some c → ok c → 1 ≤ s.dev.dbgLevel → (c.buf 20 28).fab = false →
    ∀ y, peekWords (tags c) (n c / 4) (c.get 12 4) (s.mem, s.dev) = y → y.1.2.hostOk = true → Yields (exec (.peek r) s) fun t =>
      t.mem = y.1.1.setHost (c.buf 20 28).addr y.2.1 ∧ CmdEnds r c (if y.2.2 = none then stOk else stTransferFailed) (y.2.2.getD 0) y.1.2 t.dev ∧
      ChangesOnly [] (fun d => d.noSqs.noCpls) y.1.2 t.dev) ∧
  cmdRefuses .peek 0x0A10 (fun _ s c => ok c ∧ s.dev.dbgLevel < 1) stNotPermitted)

/-- The commands of class 0x0B: transfers between the fabric and host memory and within the fabric (R355, R358, R378).
Word by word up to a failure anywhere; in DDR4 without errors the words are those of the source or of the pattern. It
rests on the model's choices in assumptions 46 and 54. -/
def Obligations.MemoryCommands : Prop :=
  let a := fun (c : Cmd) => c.get 12 4
  let n := fun (c : Cmd) => c.get 16 4
  let b := fun (c : Cmd) => c.get 20 4
  let h := fun (c : Cmd) => c.get 20 8
  let range := fun (x k : Nat) => x % 4 = 0 ∧ k % 4 = 0 ∧ 4 ≤ k ∧ k ≤ 2 ^ 24 ∧ ladRange x k = true
  let whole := fun (s : State) (x k : Nat) => s.dev.ddrUp = true ∧ 0x80000000 ≤ x ∧ x + k ≤ 0xF0000000 ∧ ∀ y, x / 8 * 8 ≤ y → y < x + k → s.mem.errAt y = 0
  let keeps := fun (s t : State) (x k : Nat) => t.mem.host = s.mem.host ∧ ∀ y, y < x ∨ x + k ≤ y → t.mem.byte y = s.mem.byte y
  let ends := fun (r : Fin 4096) (c : Cmd) (f : Option Nat) (d : Dev) (t : State) =>
    CmdEnds r c (if f = none then stOk else stTransferFailed) (f.getD (n c)) d t.dev ∧ ChangesOnly [] (fun e => e.noSqs.noCpls) d t.dev
  let good := fun (r : Fin 4096) (c : Cmd) (s t : State) => CmdEnds r c stOk (n c) s.dev t.dev ∧ ChangesOnly [] (fun e => e.noSqs.noCpls.noCores) s.dev t.dev
  (∀ (r : Fin 4096) (s : State) (c : Cmd), s.dev.front r 0x0B01 = some c → c.badNone = false → range (a c) (n c) → c.bad [(12, 16, 0xFF)] = false →
      (s.dev.hostOk = false → Yields (exec (.memRead r) s) fun t => t = s) ∧
      (s.dev.hostOk = true → (∀ y, ladRead (n c + 1) (a c) (n c) (s.mem, s.dev) = y → Yields (exec (.memRead r) s) fun t =>
          t.mem = y.1.1.setHost (h c) y.2.1 ∧ ends r c y.2.2 y.1.2 t) ∧
        (whole s (a c) (n c) → Yields (exec (.memRead r) s) fun t => t.mem = s.mem.setHost (h c) (s.mem.span (a c) (n c)) ∧ good r c s t))) ∧
  (∀ (r : Fin 4096) (s : State) (c : Cmd), s.dev.front r 0x0B02 = some c → c.badNone = false → range (a c) (n c) → c.bad [(12, 16, 0xFF)] = false →
      (s.dev.hostOk = false → Yields (exec (.memWrite r) s) fun t => t = s) ∧
      (s.dev.hostOk = true → (∀ y, ladWrite (n c + 1) (a c) (s.mem.hostSpan (h c) (n c)) (s.mem, s.dev) = y →
          Yields (exec (.memWrite r) s) fun t => t.mem = y.1.1 ∧ ends r c y.2.2 y.1.2 t) ∧
        (whole s (a c) (n c) → Yields (exec (.memWrite r) s) fun t => t.mem.span (a c) (n c) = s.mem.hostSpan (h c) (n c) ∧
          keeps s t (a c) (n c) ∧ good r c s t))) ∧
  (∀ (r : Fin 4096) (s : State) (c : Cmd), s.dev.front r 0x0B03 = some c → c.badNone = false → range (a c) (n c) → c.bad [(12, 12, 0xFF)] = false → range (b c) (n c) → (b c ≤ a c ∨ a c + n c ≤ b c) →
      (∀ y, copyWords (n c / 4) (a c) (b c) (s.mem, s.dev) = y → Yields (exec (.memCopy r) s) fun t => t.mem = y.1.1 ∧ ends r c y.2 y.1.2 t) ∧
      (whole s (a c) (n c) → whole s (b c) (n c) → Yields (exec (.memCopy r) s) fun t =>
        t.mem.span (b c) (n c) = s.mem.span (a c) (n c) ∧ keeps s t (b c) (n c) ∧ good r c s t)) ∧
  (∀ (r : Fin 4096) (s : State) (c : Cmd), s.dev.front r 0x0B04 = some c → c.badNone = false → range (a c) (n c) → c.bad [(12, 12, 0xFF)] = false →
      (∀ y, ladWrite (n c + 1) (a c) ((List.range (n c / 4)).flatMap fun _ => leBytes 4 (b c)) (s.mem, s.dev) = y →
        Yields (exec (.memFill r) s) fun t => t.mem = y.1.1 ∧ ends r c y.2.2 y.1.2 t) ∧
      (whole s (a c) (n c) → Yields (exec (.memFill r) s) fun t => (∀ i < n c / 4, t.mem.word (a c + 4 * i) = BitVec.ofNat 32 (b c)) ∧
        keeps s t (a c) (n c) ∧ good r c s t)) ∧
  (let bad := fun (_ : Nat) (_ : State) (c : Cmd) => c.badNone = false ∧ (a c % 4 ≠ 0 ∨ n c % 4 ≠ 0 ∨ n c < 4 ∨ 2 ^ 24 < n c ∨ ladRange (a c) (n c) = false)
  cmdRefuses .memRead 0x0B01 bad stBadParam ∧ cmdRefuses .memWrite 0x0B02 bad stBadParam ∧ cmdRefuses .memCopy 0x0B03 bad stBadParam ∧
  cmdRefuses .memFill 0x0B04 bad stBadParam ∧
  cmdRefuses .memCopy 0x0B03 (fun _ _ c => c.badNone = false ∧ a c < b c ∧ b c < a c + n c) stBadParam)

/-- The commands of class 0x0C: loading, starting and resetting cluster cores, SPLIT and MERGE of core pairs and lane
pairs, and engines started together (R260, R309, R310, R314, R379, R380, R424). It rests on the model's choices in
assumptions 43 and 53. -/
def Obligations.CoreCommands : Prop :=
  (let ok := fun (s : State) (c : Cmd) => c.tgt < 16 ∧ s.dev.badCluster (c.tgt / 4) = false ∧ s.dev.clusterFree (c.tgt / 4)
  -- CORE_LOAD
  (let n := fun (c : Cmd) => c.get 12 4
  let form := fun (c : Cmd) => c.bad [(12, 12, 0xFF), (24, 1, 1)] = false ∧ (c.buf 16 24).bad (n c) = false
  cmdTakes .coreLoad 0x0C01 (fun s c => ok s c ∧ form c ∧ s.dev.coreStopped c.tgt = true) (fun c => c.buf 16 24) n (fun r s c b x =>
    ∀ y, x.2.imgCheck b 2 0x100000 (x.2.imgPlace c.tgt b) = y →
      let bank := c.tgt / 4 * 16 + imgLoad b / 0x10000
      let place := bankAddr bank 0
      let owns := (banksOf bank y.2.length).map ING_BANK_OWN
      (y.1 ≠ 0 → Yields (exec (.coreLoad r) s) fun t => t.mem = x.1 ∧ CmdEnds r c stImageRejected y.1 x.2 t.dev ∧
        ChangesOnly [HLM_IMG_REJ] (fun d => d.noSqs.noCpls) x.2 t.dev) ∧
      (y.1 = 0 → Yields (exec (.coreLoad r) s) fun t => CmdEnds r c stOk ((place + imgEntry b) % 2 ^ 32) x.2 t.dev ∧
        (t.dev.core c.tgt).entry = some (place + imgEntry b) ∧ (t.dev.core c.tgt).byteMode = (imgMode b == 1) ∧
        (t.dev.core c.tgt).running = (x.2.core c.tgt).running ∧
        (∀ i (h : i < y.2.length), t.mem.byte (place + i) = y.2[i]) ∧ (∀ q, q < place ∨ place + y.2.length ≤ q → t.mem.byte q = x.1.byte q) ∧
        t.mem.host = x.1.host ∧ (∀ q ∈ banksOf bank y.2.length, t.dev.fld (ING_BANK_OWN q) ING_BANK_OWN_owner = c.tgt % 4 + 1) ∧
        ChangesOnly owns (fun d => d.noCores.noSqs.noCpls) x.2 t.dev)) ∧
  cmdRefuses .coreLoad 0x0C01 (fun _ s c => ok s c ∧ form c ∧ s.dev.coreStopped c.tgt = false) stNotPermitted) ∧
  -- CORE_START
  (∀ e, cmdDoes .coreStart 0x0C02 (fun _ s c => ok s c ∧ c.bad [] = false ∧ s.dev.coreStopped c.tgt = true ∧ (s.dev.core c.tgt).entry = some e)
    stOk (fun _ _ => 0) (fun _ _ => []) Dev.noCores (fun s c t => (t.dev.core c.tgt).running = true ∧ (t.dev.core c.tgt).pc = e % 2 ^ 32 ∧
      (∀ i < 16, (t.dev.core c.tgt).wv i = 0) ∧ (∀ j, j ≠ c.tgt → t.dev.core j = s.dev.core j))) ∧
  cmdRefuses .coreStart 0x0C02 (fun _ s c => ok s c ∧ c.bad [] = false ∧ (s.dev.coreStopped c.tgt = false ∨ (s.dev.core c.tgt).entry = none))
    stNotPermitted ∧
  -- CORE_RESET
  (∀ (r : Fin 4096) (s : State) (c : Cmd), s.dev.front r 0x0C03 = some c → ok s c → c.bad [] = false → s.dev.pairedQ (c.tgt / 2) = false →
    Yields (exec (.coreReset r) s) fun t => t.mem = s.mem ∧ t.dev.answers r c stOk 0 ∧
      t.dev.core c.tgt = { Core.reset with entry := (s.dev.core c.tgt).entry, byteMode := (s.dev.core c.tgt).byteMode } ∧
      (∀ j, j / 2 ≠ c.tgt / 2 → t.dev.core j = s.dev.core j) ∧ t.dev.locked c.tgt = false ∧
      t.dev.flag (ASY_PAIR_CTL (c.tgt / 2)) ASY_PAIR_CTL_req_split = false ∧ t.dev.flag (ASY_PAIR_CTL (c.tgt / 2)) ASY_PAIR_CTL_req_merge = false ∧
      (∀ l < 16, (s.dev.rd (ANV_SUPV c.tgt)).toNat.testBit l = true → (t.dev.rd (AXS_CAUSE_ACT (c.tgt / 4 * 16 + l))).toNat.testBit 0x0C = false) ∧
      ChangesOnly ([ANV_CTL c.tgt, ASY_PAIR_CTL (c.tgt / 2)] ++ (List.range 16).flatMap fun l =>
        [AXS_CAUSE_ACT (c.tgt / 4 * 16 + l), AXS_STATE (c.tgt / 4 * 16 + l)]) (fun d => d.noCores.noSqs.noCpls.noWaits) s.dev t.dev) ∧
  cmdRefuses .coreReset 0x0C03 (fun _ s c => ok s c ∧ c.bad [] = false ∧ s.dev.pairedQ (c.tgt / 2) = true) stNotPermitted) ∧
  -- core pairs
  (∀ q, let ok := fun (op : Nat) (s : State) (c : Cmd) => corePairOf c.tgt = some q ∧ (q < 8 → s.dev.badCluster (q / 2) = false ∧ s.dev.clusterFree (q / 2)) ∧
      c.descs = [c.d0] ∧ c.bad [(12, 1, 0xFF), (14, 2, 0xFF)] = false ∧ c.byte 12 = op
  let asks := fun (s : State) => s.dev.flag (ASY_PAIR_CTL q) ASY_PAIR_CTL_req_split = true ∨ s.dev.flag (ASY_PAIR_CTL q) ASY_PAIR_CTL_req_merge = true
  let differ := fun (s : State) => (s.dev.core (2 * q)).byteMode ≠ (s.dev.core (2 * q + 1)).byteMode ∨ s.dev.mirrorUnowned q = true
  cmdBegins .pairSplit 0x0C10 (fun _ s c => ok 1 s c ∧ ¬ asks s ∧ s.dev.pairedQ q = true) (fun c => c.tgt) (fun _ _ => [1])
    (fun _ _ => [ASY_PAIR_CTL q]) Dev.noPairs (fun _ _ t => t.dev.flag (ASY_PAIR_CTL q) ASY_PAIR_CTL_req_split = true ∧ (t.dev.pair q).agreed = false) ∧
  cmdRefuses .pairSplit 0x0C10 (fun _ s c => ok 1 s c ∧ ¬ asks s ∧ s.dev.pairedQ q = false) stNotPermitted ∧
  cmdRefuses .pairSplit 0x0C10 (fun _ s c => ok 1 s c ∧ asks s) stBusy ∧
  cmdBegins .pairMerge 0x0C10 (fun _ s c => ok 2 s c ∧ ¬ asks s ∧ s.dev.pairedQ q = false ∧ ¬ differ s) (fun c => c.tgt) (fun _ _ => [2])
    (fun _ _ => [ASY_PAIR_CTL q]) id (fun _ _ t => t.dev.flag (ASY_PAIR_CTL q) ASY_PAIR_CTL_req_merge = true) ∧
  cmdRefuses .pairMerge 0x0C10 (fun _ s c => ok 2 s c ∧ ¬ asks s ∧ s.dev.pairedQ q = true) stNotPermitted ∧
  cmdRefuses .pairMerge 0x0C10 (fun _ s c => ok 2 s c ∧ ¬ asks s ∧ s.dev.pairedQ q = false ∧ differ s) stBadParam ∧
  cmdRefuses .pairMerge 0x0C10 (fun _ s c => ok 2 s c ∧ asks s) stBusy) ∧
  -- lane pairs, through admission
  (∀ (p : Fin 8), let n := 2 * p.val
  let ok := fun (op : Nat) (s : State) (c : Cmd) => c.tgt = 8 + p.val ∧ s.dev.badCluster (p.val / 2) = false ∧ s.dev.clusterFree (p.val / 2) ∧
      c.descs = [c.d0] ∧ c.bad [(12, 1, 0xFF), (14, 2, 0xFF)] = false ∧ c.byte 12 = op
  let free := fun (s : State) => (s.dev.lane n).pairReq = 0
  let merged := fun (s : State) => askLanes n 1 s.dev
  let split := fun (s : State) => clearShadow (n + 1) (askLanes n 2 s.dev)
  let both := fun (req : Nat) (t : State) => (t.dev.lane n).pairReq = req ∧ (t.dev.lane (n + 1)).pairReq = req
  let may := fun (op : Nat) (s : State) (c : Cmd) => ok op s c ∧ free s ∧ (s.dev.lane n).paired = (op == 1) ∧ (op = 2 → s.dev.proposed (n + 1) = [])
  let no := fun (d : Dev) => refusalResult ((d.admission [n, n + 1]).getD (0, 0, 0))
  cmdBegins .pairMerge 0x0C10 (fun _ s c => may 2 s c ∧ (merged s).admission [n, n + 1] = none) (fun c => c.tgt) (fun _ _ => [0, n, n, n + 1])
    (fun _ _ => []) Dev.noLanes (fun _ _ => both 1) ∧
  cmdBegins .pairSplit 0x0C10 (fun _ s c => may 1 s c ∧ (split s).admission [n, n + 1] = none) (fun c => c.tgt) (fun _ _ => [0, n, n, n + 1])
    (fun _ _ => PLN_COMMIT (n / 4) :: (List.range 4).map fun k => PLN_SLOT_CFG (n + 1) k) Dev.noLanes (fun s _ t => both 2 t ∧
      ∀ k < 4, s.dev.flag (PLN_SLOT_CFG (n + 1) k) PLN_SLOT_CFG_valid = true → t.dev.flag (PLN_SLOT_CFG (n + 1) k) PLN_SLOT_CFG_valid = false ∧
        (t.dev.fld (PLN_COMMIT (n / 4)) PLN_COMMIT_slots).testBit ((n + 1) % 4 * 4 + k) = true) ∧
  cmdDoes .pairMerge 0x0C10 (fun _ s c => may 2 s c ∧ (merged s).admission [n, n + 1] ≠ none) stAdmissionRefused (fun s _ => no (merged s))
      (fun _ _ => []) id (fun _ _ _ => True) ∧
  cmdDoes .pairSplit 0x0C10 (fun _ s c => may 1 s c ∧ (split s).admission [n, n + 1] ≠ none) stAdmissionRefused (fun s _ => no (split s))
      (fun _ _ => []) id (fun _ _ _ => True) ∧
  cmdDoes .pairMerge 0x0C10 (fun _ s c => ok 2 s c ∧ free s ∧ (s.dev.lane n).paired = false ∧ s.dev.proposed (n + 1) ≠ []) stAdmissionRefused
    (fun _ _ => refusalResult (3, 0xFF, n + 1)) (fun _ _ => []) id (fun _ _ _ => True) ∧
  cmdRefuses .pairSplit 0x0C10 (fun _ s c => ok 1 s c ∧ ¬ free s) stBusy ∧ cmdRefuses .pairMerge 0x0C10 (fun _ s c => ok 2 s c ∧ ¬ free s) stBusy ∧
  cmdRefuses .pairSplit 0x0C10 (fun _ s c => ok 1 s c ∧ free s ∧ (s.dev.lane n).paired = false) stNotPermitted ∧
  cmdRefuses .pairMerge 0x0C10 (fun _ s c => ok 2 s c ∧ free s ∧ (s.dev.lane n).paired = true) stNotPermitted) ∧
  -- engines
  cmdDoes .engineGstart 0x0C20 (fun _ s c => s.dev.badCluster c.tgt = false ∧ s.dev.clusterFree c.tgt ∧ c.bad [(12, 1, 0xFF)] = false ∧
      ∃ i < 8, (c.byte 12).testBit i = true ∧ s.dev.egOn (c.tgt * 8 + i) = false) stOk (fun s c => s.dev.copy c.tgt % 2 ^ 48)
    (fun _ c => (List.range 8).flatMap fun i => [CHS_STAT (c.tgt * 8 + i), CHS_FRM_LO (c.tgt * 8 + i), CHS_FRM_HI (c.tgt * 8 + i),
      CHS_LC (c.tgt * 8 + i), CHS_LOOP_CNT (c.tgt * 8 + i), CHS_LOOP (c.tgt * 8 + i)] ++ engRegs (c.tgt * 8 + i)) Dev.noEngs
    (fun s c t => ∀ i < 8, let e := c.tgt * 8 + i
      ((c.byte 12).testBit i = true → s.dev.egOn e = false → t.dev.egOn e = true ∧ t.dev.egPc e = s.dev.fld (CHS_CFG e) CHS_CFG_start_pc ∧
        t.dev.frm e = 0) ∧
      ((c.byte 12).testBit i = false ∨ s.dev.egOn e = true → t.dev.eng e = s.dev.eng e ∧ t.dev.egOn e = s.dev.egOn e))

/-- The reset sources: what each leaves, and when it has no effect (R32, R318, R319, R327, R361, R434, R459 to R462,
R466, R467). A cluster's reset and the RESET commands are in SystemCommands. It rests on the model's choices in
assumptions 19 and 55. -/
def Obligations.ResetSources : Prop :=
  (∀ s : State, s.dev.inReset = true → Yields (exec .sysRstN s) (fun t => t = s) ∧ Yields (exec .hallmarkReset s) (fun t => t = s) ∧
    Yields (exec .deviceWdtExpiry s) (fun t => t = s) ∧ Yields (exec .dlDown s) (fun t => t = s) ∧
    ∀ ppm, Yields (exec (.clockFail ppm) s) fun t => t = s) ∧
  (∀ s : State, s.dev.inReset = false →
    Yields (exec .sysRstN s) (fun t => WarmBegins 2 s t ∧ t.dev.clkHeld = false) ∧ Yields (exec .hallmarkReset s) (WarmBegins 5 s) ∧
    (s.dev.flag TCH_WDT_CFG TCH_WDT_CFG_en = true → s.dev.flag TCH_WDT_CFG TCH_WDT_CFG_frozen = false →
      s.dev.fld TCH_WDT_LEFT TCH_WDT_LEFT_left = 0 →
      Yields (exec .deviceWdtExpiry s) (WarmBegins 4 s)) ∧
    (s.dev.flag TCH_WDT_CFG TCH_WDT_CFG_en = false ∨ s.dev.flag TCH_WDT_CFG TCH_WDT_CFG_frozen = true ∨ s.dev.fld TCH_WDT_LEFT TCH_WDT_LEFT_left ≠ 0 →
      Yields (exec .deviceWdtExpiry s) fun t => t = s) ∧
    -- the clock monitor: its record is in the log before the device is held
    (∀ ppm : Option Nat, let n := s.dev.tchNext
      Yields (exec (.clockFail ppm) s) fun t => DeviceBegins 9 s t ∧ t.dev.clkHeld = true ∧
        (s.dev.flag TCH_STAT TCH_STAT_ready = true → s.dev.tchRoom = true → s.mem.flash (tchSlot n) 512 = List.replicate 512 0xFF →
          dget (t.mem.flash (tchSlot n) 512) 16 2 = 4 ∧ dget (t.mem.flash (tchSlot n) 512) 64 4 = ppm.getD 0x7FFFFFFF % 2 ^ 32) ∧
        (s.dev.flag TCH_STAT TCH_STAT_ready = false → t.mem = s.mem))) ∧
  -- a RESET command of scope 2 or 3
  (∀ (s : State) (k : Nat), (s.dev.due.findSome? fun x => match x with
      | .reset j => some j
      | _ => none) = some k →
    (k ≠ 2 → Yields (exec .resetCommandEffect s) (WarmBegins 8 s)) ∧
    (k = 2 → (s.dev.fld TCH_BOOT TCH_BOOT_stage < 5 ∨ 8 < s.dev.fld TCH_BOOT TCH_BOOT_stage) →
      Yields (exec .resetCommandEffect s) fun t => t.mem = s.mem ∧ IslandBegins 7 s t) ∧
    (k = 2 → 5 ≤ s.dev.fld TCH_BOOT TCH_BOOT_stage → s.dev.fld TCH_BOOT TCH_BOOT_stage ≤ 8 →
      Yields (exec .resetCommandEffect s) fun t => t.dev.fld TCH_RST_CAUSE TCH_RST_CAUSE_src = 7 ∧ t.dev.linkUp = false ∧ t.dev.sqs = .empty ∧
        (t.dev.fld TCH_BOOT TCH_BOOT_stage = 0xE ∨
          (t.dev.core 16).running = true ∧ (t.dev.core 17).running = true ∧ t.dev.pairedQ 8 = true))) ∧
  (∀ s : State, (∀ k, .reset k ∉ s.dev.due) → Yields (exec .resetCommandEffect s) fun t => t = s) ∧
  -- PERST_N and the link
  (∀ s : State, (s.dev.pcie.perst = true → Yields (exec .perstAssert s) fun t => t = s) ∧
    (s.dev.pcie.perst = false → s.dev.inReset = true → Yields (exec .perstAssert s) fun t =>
      t.mem = s.mem ∧ t.dev = { s.dev with pcie := { s.dev.pcie with perst := true } }) ∧
    (s.dev.pcie.perst = false → s.dev.inReset = false →
      (s.dev.flag GLB_PCIE_CTL GLB_PCIE_CTL_perst_dev = true → Yields (exec .perstAssert s) fun t => WarmBegins 3 s t ∧ t.dev.pcie.perst = true) ∧
      (s.dev.flag GLB_PCIE_CTL GLB_PCIE_CTL_perst_dev = false → Yields (exec .perstAssert s) fun t => t.mem = s.mem ∧ IslandBegins 3 s t ∧
        t.dev.pcie.perst = true ∧ t.dev.fld GLB_PCIE_STAT GLB_PCIE_STAT_link_downs = s.dev.fld GLB_PCIE_STAT GLB_PCIE_STAT_link_downs)) ∧
    (s.dev.inReset = false → s.dev.linkUp = true → let n := min 255 (s.dev.fld GLB_PCIE_STAT GLB_PCIE_STAT_link_downs + 1)
      (s.dev.flag GLB_PCIE_CTL GLB_PCIE_CTL_perst_dev = true → Yields (exec .dlDown s) fun t => WarmBegins 3 s t ∧ t.dev.pcie.dlDown = true ∧
        t.dev.fld GLB_PCIE_STAT GLB_PCIE_STAT_link_downs = n) ∧
      (s.dev.flag GLB_PCIE_CTL GLB_PCIE_CTL_perst_dev = false → Yields (exec .dlDown s) fun t => t.mem = s.mem ∧ IslandBegins 3 s t ∧
        t.dev.pcie.dlDown = true ∧ t.dev.fld GLB_PCIE_STAT GLB_PCIE_STAT_link_downs = n)) ∧
    (s.dev.linkUp = false → Yields (exec .dlDown s) fun t => t = s) ∧
    (∀ runs, (s.dev.pcie.perst = false → Yields (exec (.perstRelease runs) s) fun t => t = s) ∧
      (s.dev.pcie.perst = true → s.dev.inReset = false → s.dev.fld GLB_PCIE_CTL GLB_PCIE_CTL_refclk_sel < 3 →
        let sep := match s.dev.fld GLB_PCIE_CTL GLB_PCIE_CTL_refclk_sel with
          | 0 => !runs
          | 1 => false
          | _ => true
        Yields (exec (.perstRelease runs) s) fun t => t.dev.pcie.perst = false ∧ t.dev.flag GLB_PCIE_STAT GLB_PCIE_STAT_sep_ref = sep ∧
          ((s.dev.fld TCH_BOOT TCH_BOOT_stage < 5 ∨ 8 < s.dev.fld TCH_BOOT TCH_BOOT_stage) → t.mem = s.mem ∧
            ChangesOnly [GLB_PCIE_STAT] Dev.noPcie s.dev t.dev) ∧
          (5 ≤ s.dev.fld TCH_BOOT TCH_BOOT_stage → s.dev.fld TCH_BOOT TCH_BOOT_stage ≤ 8 → t.dev.fld TCH_BOOT TCH_BOOT_stage = 0xE ∨
            (t.dev.core 16).running = true ∧ (t.dev.core 17).running = true ∧ t.dev.pairedQ 8 = true)))) ∧
  -- the supplies fail: the loss stands in the log, ingot memories and tags are cleared, and AO is reset too
  (∀ (aux : Bool) (mv other : Fin 65536) (s : State), let n := s.dev.tchNext
    let level := if aux then 1550 else 810
    -- the ms since the warning
    let ms := if s.dev.tch.prov.isSome then s.dev.tch.provT / 800000 else 0
    (s.dev.tch.valid = false ∨ level < mv.val → Yields (exec (.supplyResetLevel aux mv other) s) fun t => t = s) ∧
    (s.dev.tch.valid = true → mv.val ≤ level → Yields (exec (.supplyResetLevel aux mv other) s) fun t => DeviceBegins 1 s t ∧ t.dev.tch.valid = false ∧
      (∀ b < 72, ∀ i < 0x10000, t.mem.byte (bankAddr b i) = 0 ∧ t.mem.tag (bankAddr b i) = 0 ∧ t.mem.errAt (bankAddr b i) = 0) ∧
      (∀ a, 0x80000000 ≤ a → t.mem.byte a = s.mem.byte a) ∧ t.mem.host = s.mem.host ∧
      (∀ a, a ≠ TCH_RST_CAUSE → a ≠ TCH_STAT → a ≠ GLB_PCIE_STAT → t.dev.rd a = regReset s.dev.part a) ∧
      (s.dev.flag TCH_STAT TCH_STAT_holdup_ok = true → s.dev.tchRoom = true → s.dev.fls.erasing = none →
        s.mem.flash (tchSlot n) 512 = List.replicate 512 0xFF →
        dget (t.mem.flash (tchSlot n) 512) 16 2 = 2 ∧ dget (t.mem.flash (tchSlot n) 512) 64 4 = b2n aux ∧
          dget (t.mem.flash (tchSlot n) 512) 68 4 = ms % 2 ^ 32)))

/-- The stages of a start, the choice of the bench image, fw_ready, and the release and reset of clusters by GLB_RST_CTL
(R30, R37, R300, R321, R331, R361, R419, R425, R426, R430, R438, R439, R445, R453, R463 to R466). It rests on the
model's choices in assumptions 40, 56 and 74. -/
def Obligations.StartUp : Prop :=
  let stage := fun (d : Dev) => d.fld TCH_BOOT TCH_BOOT_stage
  let slot := fun (d : Dev) => d.fld TCH_BOOT TCH_BOOT_slot
  (∀ (bm : Fin 4) (s : State), (s.dev.tch.valid = false ∨ s.dev.clkHeld = true ∨ 4 ≤ stage s.dev → Yields (exec (.startup bm) s) fun t => t = s) ∧
    (s.dev.tch.valid = true → s.dev.clkHeld = false →
      (stage s.dev = 0 → Yields (exec (.startup bm) s) fun t => t.mem = s.mem ∧ stage t.dev = 1 ∧ ChangesOnly [TCH_BOOT] id s.dev t.dev) ∧
      (let locked := s.dev.flag GLB_CLK_STAT GLB_CLK_STAT_main_lock = true ∧ s.dev.flag GLB_CLK_STAT GLB_CLK_STAT_link_lock = true
      (stage s.dev = 1 → locked → Yields (exec (.startup bm) s) fun t => t.mem = s.mem ∧ stage t.dev = 2 ∧ ChangesOnly [TCH_BOOT] id s.dev t.dev) ∧
      (stage s.dev = 1 → ¬ locked → Yields (exec (.startup bm) s) fun t => t = s)) ∧
      (stage s.dev = 2 → Yields (exec (.startup bm) s) fun t => t.mem = s.mem ∧ stage t.dev = 3 ∧
        t.dev.fld TCH_BOOT TCH_BOOT_boot_mode = bm.val ∧ t.dev.flag TCH_BOOT TCH_BOOT_bm_err = (bm.val == 3) ∧
        t.dev.flag HLM_STAT HLM_STAT_ent_ok = true ∧ t.dev.flag TCH_STAT TCH_STAT_ready = true ∧ t.dev.tch.boots = s.dev.tch.boots + 1 ∧
        t.dev.fld HLM_STAT HLM_STAT_lifecycle = s.dev.lifecycle ∧ t.dev.fld HLM_FLOOR HLM_FLOOR_floor = ones 128 (leNat (s.dev.otpSpan 0x0D0 16)) ∧
        t.dev.rd HLM_SERIAL_LO = BitVec.ofNat 32 (leNat (s.dev.otpSpan 0x0E8 4)) ∧
        (s.dev.lifecycle = 0 ∧ s.dev.otpHas 0x090 64 = false → t.dev.otpSpan 0x090 64 = (drbgDraw 64 s.dev).2) ∧
        (s.dev.lifecycle ≠ 0 ∨ s.dev.otpHas 0x090 64 = true → t.dev.hlm.otp = s.dev.hlm.otp) ∧
        (∀ e ∈ latestEntries (s.mem.journal 0 8192), e.2.2 = 0xFFFFFFFF → e.1 < 1024 → e.1 ∈ t.dev.fls.suspect) ∧
        (∀ i < 2048, let b := s.mem.flash (tchSlot i) 512
          dget b 0 4 = 0x4B524D54 → crc32 (b.take 508) = dget b 508 4 → dget b 4 4 ≤ t.dev.fld TCH_SEQ TCH_SEQ_seq)) ∧
      (stage s.dev = 3 → s.dev.fld TCH_BOOT TCH_BOOT_boot_mode = 2 → Yields (exec (.startup bm) s) fun t => t.mem = s.mem ∧ stage t.dev = 0xF ∧
        ChangesOnly [TCH_BOOT] id s.dev t.dev) ∧
      (stage s.dev = 3 → s.dev.fld TCH_BOOT TCH_BOOT_boot_mode ≠ 2 → Yields (exec (.startup bm) s) fun t =>
        let runs := fun (img : List Byte) => (t.dev.core 16).running = true ∧ (t.dev.core 17).running = true ∧ t.dev.pairedQ 8 = true ∧
          (t.dev.core 16).pc = (bankAddr 64 0 + imgEntry img) % 2 ^ 32 ∧ t.dev.flag TCH_WDT_CFG TCH_WDT_CFG_en = true ∧
          t.dev.fld TCH_WDT_LEFT TCH_WDT_LEFT_left = 2000 ∧ stage t.dev = 5
        (stage t.dev = 0xE ∧ (s.dev.imgCheck s.mem.recoveryImage 4 recoveryRoom true).1 ≠ 0) ∨
        (slot t.dev = 2 ∧ runs s.mem.recoveryImage ∧ (s.dev.imgCheck s.mem.recoveryImage 4 recoveryRoom true).1 = 0) ∨
        (slot t.dev < 2 ∧ s.dev.fld TCH_BOOT TCH_BOOT_boot_mode = 0 ∧ s.mem.slotVerified (slot t.dev) = true ∧ s.mem.slotFailed (slot t.dev) = false ∧
          (s.dev.imgCheck (s.mem.slotImage (slot t.dev)) 1 16711424 true).1 = 0 ∧ runs (s.mem.slotImage (slot t.dev)))))) ∧
  (∀ s : State, (stage s.dev = 1 → Yields (exec .pllLock s) fun t => t.mem = s.mem ∧ t.dev.flag GLB_CLK_STAT GLB_CLK_STAT_main_lock = true ∧
      t.dev.flag GLB_CLK_STAT GLB_CLK_STAT_link_lock = true ∧ ChangesOnly [GLB_CLK_STAT] id s.dev t.dev) ∧
    (stage s.dev ≠ 1 → Yields (exec .pllLock s) fun t => t = s) ∧
    (stage s.dev ≠ 0 → s.dev.inReset = false → Yields (exec .ddr4InitDone s) fun t => t.mem = s.mem ∧ t.dev.ddrUp = true ∧
      stage t.dev = (if stage s.dev = 5 then 6 else stage s.dev) ∧ ChangesOnly [TCH_BOOT, MEM_STAT] id s.dev t.dev) ∧
    (stage s.dev = 0 ∨ s.dev.inReset = true → Yields (exec .ddr4InitDone s) fun t => t = s) ∧
    (let can := 6 ≤ stage s.dev ∧ stage s.dev ≤ 8 ∧ s.dev.pcie.perst = false ∧ s.dev.pcie.dlDown = false ∧
      ((s.dev.core 16).running = true ∨ (s.dev.core 17).running = true) ∧ s.dev.flag GLB_PCIE_STAT GLB_PCIE_STAT_fw_ready = false
    (can → Yields (exec .fwReady s) fun t => stage t.dev = 8 ∧ t.dev.flag GLB_PCIE_STAT GLB_PCIE_STAT_fw_ready = true ∧
      (s.dev.flag LDL_ADMIN_CTL LDL_ADMIN_CTL_en = true → s.dev.ringOn 0 = true → t.dev.flag LDL_ADMIN_CTL LDL_ADMIN_CTL_ready = true) ∧
      (2 ≤ slot s.dev → t.mem = s.mem) ∧
      (∀ i, slot s.dev < 2 → (s.mem.slotFree (slot s.dev) 0x8000).getD 4096 = i + 1 → t.mem.slotWord (slot s.dev) 0xC000 i = 0 ∧
        ∀ x, x < flsAddr (slotAt (slot s.dev) + 0xC000 + 4 * i) ∨ flsAddr (slotAt (slot s.dev) + 0xC000 + 4 * i) + 4 ≤ x → t.mem.byte x = s.mem.byte x) ∧
      ChangesOnly [TCH_BOOT, GLB_PCIE_STAT, LDL_ADMIN_CTL] id s.dev t.dev) ∧
    (¬ can → Yields (exec .fwReady s) fun t => t = s))) ∧
  -- clusters
  (∀ (w : Writer) (c : Fin 4) (s : State), s.dev.accepts w GLB_RST_CTL = true →
    let rel := fun (d : Dev) => d.fld GLB_RST_CTL GLB_RST_CTL_cl_rel
    let held := fun (d : Dev) => (d.fld GLB_RST_CTL GLB_RST_CTL_in_rst).testBit c
    rel s.dev &&& partMask s.dev.part = rel s.dev → s.dev.hasCluster c = true →
    (∀ imgs : List CoreImage, (rel s.dev).testBit c = false → (imgs.map CoreImage.core).Nodup → Yields (exec (.clusterRelease w c imgs) s) fun t =>
      rel t.dev = setBit (rel s.dev) c true ∧ held t.dev = false ∧ c.val ∈ t.dev.time.reload ∧ (imgs = [] → t.mem = s.mem) ∧
      stage t.dev = (if stage s.dev = 6 then 7 else stage s.dev) ∧
      (∀ i ∈ imgs, (t.dev.core (4 * c.val + i.core.val)).running = true ∧ (t.dev.core (4 * c.val + i.core.val)).byteMode = i.byteMode ∧
        (t.dev.core (4 * c.val + i.core.val)).pc = (bankAddr (16 * c.val + i.load.val) 0 + i.entry) % 2 ^ 32) ∧
      (∀ i, imgs = [i] → ∀ j (h : j < i.body.length), t.mem.byte (bankAddr (16 * c.val + i.load.val) 0 + j) = i.body[j]) ∧
      (∀ k, k / 4 ≠ c.val → t.dev.core k = s.dev.core k) ∧ t.dev.axes = s.dev.axes ∧ t.dev.lanes = s.dev.lanes) ∧
    ((rel s.dev).testBit c = true → s.dev.atRest c = true → Yields (exec (.clRelClear w c) s) fun t => t.mem = s.mem ∧
      rel t.dev = setBit (rel s.dev) c false ∧ held t.dev = true ∧ t.dev.fld TCH_RST_CAUSE TCH_RST_CAUSE_src = 6 ∧
      (∀ a, clWindow c ≤ a → a < clWindow c + 0x100000 → (∀ b < 16, a ≠ ING_BANK_OWN (c.val * 16 + b)) → t.dev.rd a = regReset s.dev.part a) ∧
      (∀ a, a / 16 = c.val → t.dev.axis a = Axis.reset) ∧ (∀ a, a / 16 ≠ c.val → t.dev.axis a = s.dev.axis a) ∧
      (∀ x ∈ s.dev.waits, x.cluster = some c.val → x ∉ t.dev.waits ∧ (⟨x.sq, x.cid, stAbortedReset, 0⟩ : Cpl) ∈ t.dev.cpls)) ∧
    ((rel s.dev).testBit c = true → s.dev.atRest c = false → Yields (exec (.clRelClear w c) s) fun t => t.mem = s.mem ∧
      t.dev.flag GLB_RST_CTL GLB_RST_CTL_rst_refused = true ∧ rel t.dev = rel s.dev ∧ ChangesOnly [GLB_RST_CTL] Dev.noWindows s.dev t.dev))

/-- Supplies, the hold-up reservoir, the device watchdog's kick, commits of Touchmark records, and the Hallmark's
entropy, nonces and challenges (R362, R377, R418, R429 to R435, R440, R455, R458, R466). It rests on the model's choices
in assumptions 56 and 61. -/
def Obligations.SuppliesLogAndEntropy : Prop :=
  let stat := fun (d : Dev) (f : Fld) => d.flag TCH_SUP_STAT f
  (∀ (vcore vaux : Fin 65536) (s : State), (s.dev.tch.valid = true ∨ vcore.val ≤ 870 ∨ vaux.val ≤ 1680 →
      Yields (exec (.suppliesValid vcore vaux) s) fun t => t = s) ∧
    (s.dev.tch.valid = false → 870 < vcore.val → 1680 < vaux.val → Yields (exec (.suppliesValid vcore vaux) s) fun t => t.mem = s.mem ∧ t.dev.tch.valid = true ∧
      t.dev.fld TCH_SUP_VCORE TCH_SUP_VCORE_mv = vcore.val ∧ t.dev.fld TCH_SUP_VAUX TCH_SUP_VCORE_mv = vaux.val ∧
      ChangesOnly [TCH_SUP_VCORE, TCH_SUP_VAUX] Dev.noTch s.dev t.dev)) ∧
  (∀ (aux : Bool) (mv : Fin 65536) (s : State), let a := if aux then TCH_SUP_VAUX else TCH_SUP_VCORE
    let f := if aux then TCH_SUP_STAT_vaux_warn else TCH_SUP_STAT_vcore_warn
    let g := if aux then TCH_SUP_STAT_vcore_warn else TCH_SUP_STAT_vaux_warn
    -- the warning level, and 20 mV above it; the µs since the dip began
    let level := if aux then 1660 else 850
    let dur := s.dev.tch.provT / 800
    (s.dev.tch.valid = false ∨ level ≤ mv.val → Yields (exec (.supplyWarning aux mv) s) fun t => t = s) ∧
    (s.dev.tch.valid = true → mv.val < level → Yields (exec (.supplyWarning aux mv) s) fun t => t.mem = s.mem ∧ t.dev.fld a TCH_SUP_VCORE_mv = mv.val ∧
      t.dev.fld a TCH_SUP_VCORE_min_mv = min mv.val (s.dev.fld a TCH_SUP_VCORE_min_mv) ∧ stat t.dev f = true ∧ stat t.dev TCH_SUP_STAT_warn_seen = true ∧
      stat t.dev g = stat s.dev g ∧ t.dev.fls.frozen = true ∧ t.dev.flag TCH_STAT TCH_STAT_prov_open = true ∧
      (∃ r, t.dev.tch.prov = some r ∧ (s.dev.tch.prov = none → r.cause = 1 ∧ r.prov = true) ∧ ∀ q, s.dev.tch.prov = some q → r = q) ∧
      (s.dev.takesEvent 0x0110 [b2n aux, mv.val] = true → t.dev.hasEvent 0x0110 5 (b2n aux) [b2n aux, mv.val]) ∧
      ChangesOnly [a, TCH_SUP_STAT] (fun x => x.noTch.noFls) s.dev t.dev) ∧
    (∀ low : Fin 65536, (stat s.dev f = false ∨ mv.val ≤ level + 20 → Yields (exec (.supplyRecovered aux mv low) s) fun t => t = s) ∧
      (stat s.dev f = true → level + 20 < mv.val → stat s.dev g = true → Yields (exec (.supplyRecovered aux mv low) s) fun t => t.mem = s.mem ∧ stat t.dev f = false ∧
        stat t.dev g = true ∧ t.dev.tchQueue = s.dev.tchQueue ∧ t.dev.fls = s.dev.fls ∧ ChangesOnly [a, TCH_SUP_STAT] Dev.noTch s.dev t.dev) ∧
      (stat s.dev f = true → level + 20 < mv.val → stat s.dev g = false → Yields (exec (.supplyRecovered aux mv low) s) fun t => stat t.dev f = false ∧
        stat t.dev TCH_SUP_STAT_dip_seen = true ∧ t.dev.fls.frozen = false ∧ t.dev.tch.prov = none ∧
        (∀ r, s.dev.tch.prov = some r → ∃ q ∈ t.dev.tchQueue, q.cause = r.cause ∧ q.time = r.time ∧
          q.pay = [r.index, if r.index = b2n aux then min s.dev.tch.provMv low.val else s.dev.tch.provMv, dur, s.dev.tch.provN]) ∧
        (s.dev.takesEvent 0x0111 [dur] = true → t.dev.hasEvent 0x0111 5 (b2n aux) [dur])))) ∧
  (∀ (mv : Fin 65536) (s : State), s.dev.tch.valid = true → Yields (exec (.holdupCharged mv) s) fun t => t.mem = s.mem ∧
    t.dev.flag TCH_STAT TCH_STAT_holdup_ok = true ∧ t.dev.fld TCH_HOLDUP TCH_HOLDUP_mv = mv.val ∧ ChangesOnly [TCH_HOLDUP] id s.dev t.dev) ∧
  (∀ (w : Writer) (v : Word) (s : State), Yields (exec (.tchWdtKick w v) s) fun t => t.mem = s.mem ∧ ChangesOnly [] Dev.noWindows s.dev t.dev ∧
    t.dev.crossing = s.dev.crossing ++ (if benchLike w = true ∧ v.toNat % 65536 = 0x3C96 then [⟨.hi, .ao, .wdtKick⟩] else [])) ∧
  -- the log
  (∀ (s : State) (r : TchRec) (l : List TchRec), s.dev.tchQueue = r :: l → let n := s.dev.tchNext
    (s.dev.flag TCH_STAT TCH_STAT_ready = false ∨ s.dev.tchRoom = false → Yields (exec .touchmarkCommit s) fun t => t = s) ∧
    (s.dev.flag TCH_STAT TCH_STAT_ready = true → s.dev.tchRoom = true → Yields (exec .touchmarkCommit s) fun t => t.dev.tchQueue = l ∧
      t.dev.fld TCH_NEWEST TCH_NEWEST_slot = n ∧ t.dev.fld TCH_SEQ TCH_SEQ_seq = (s.dev.fld TCH_SEQ TCH_SEQ_seq + 1) % 2 ^ 32 ∧
      t.dev.tchDropped = 0 ∧ t.dev.flag TCH_STAT TCH_STAT_new_rec = true ∧
      (s.dev.fld TCH_SEQ TCH_SEQ_seq < 16 → n = s.dev.fld TCH_SEQ TCH_SEQ_seq) ∧ (16 ≤ s.dev.fld TCH_SEQ TCH_SEQ_seq → 128 ≤ n ∧ n < 2048) ∧
      (s.mem.flash (tchSlot n) 512 = List.replicate 512 0xFF →
        let b := t.mem.flash (tchSlot n) 512
        dget b 0 4 = 0x4B524D54 ∧ dget b 4 4 = (s.dev.fld TCH_SEQ TCH_SEQ_seq + 1) % 2 ^ 32 ∧ dget b 8 8 = r.time % 2 ^ 64 ∧
        dget b 16 2 = r.cause % 2 ^ 16 ∧ dget b 508 4 = crc32 (b.take 508)) ∧
      (∀ m < 2048, m ≠ n → t.mem.flash (tchSlot m) 512 = s.mem.flash (tchSlot m) 512))) ∧
  (∀ s : State, s.dev.tchQueue = [] → Yields (exec .touchmarkCommit s) fun t => t = s) ∧
  -- entropy, nonces, challenges
  (∀ (test : Fin 2) (s : State), let ok := s.dev.flag HLM_STAT HLM_STAT_ent_ok
    (ok = false → Yields (exec (.entropyFail test) s) fun t => t = s) ∧
    (ok = true → Yields (exec (.entropyFail test) s) fun t => t.mem = s.mem ∧ t.dev.flag HLM_STAT HLM_STAT_ent_ok = false ∧
      t.dev.flag HLM_STAT HLM_STAT_certified = false ∧ ChangesOnly [HLM_STAT] Dev.noHlm s.dev t.dev) ∧
    (ok = false → 3 ≤ s.dev.fld TCH_BOOT TCH_BOOT_stage → Yields (exec .entropyRetest s) fun t => t.mem = s.mem ∧
      t.dev.flag HLM_STAT HLM_STAT_ent_ok = true ∧ ChangesOnly [HLM_STAT] Dev.noHlm s.dev t.dev) ∧
    (ok = true ∨ s.dev.fld TCH_BOOT TCH_BOOT_stage < 3 → Yields (exec .entropyRetest s) fun t => t = s) ∧
    -- what was drawn is spent after 10 s
    let old := fun (since : Nat) => since + 8000000000 ≤ s.dev.now
    let h := s.dev.hlm
    (old h.nonceAt → Yields (exec .nonceExpiry s) fun t => t.mem = s.mem ∧ t.dev = { s.dev with hlm := { h with nonce := none } }) ∧
    (old h.tapChalAt → Yields (exec (.challengeExpiry true) s) fun t => t.mem = s.mem ∧ t.dev = { s.dev with hlm := { h with tapChal := none } }) ∧
    (old h.chalAt → Yields (exec (.challengeExpiry false) s) fun t => t.mem = s.mem ∧ t.dev = { s.dev with hlm := { h with chal := none } }) ∧
    (¬ old h.nonceAt → Yields (exec .nonceExpiry s) fun t => t = s) ∧ (¬ old h.tapChalAt → Yields (exec (.challengeExpiry true) s) fun t => t = s) ∧
    (¬ old h.chalAt → Yields (exec (.challengeExpiry false) s) fun t => t = s))

/-- Solder bus ports: rounds over the active list, the frames that the port sends, what good responses and failed ones
leave, the broadcast, and the writes of its registers (R382 to R391). It rests on the model's choices in assumptions 57
and 76. -/
def Obligations.SolderRoundsAndSlots : Prop :=
  (∀ (p : Fin 8) (s : State), let sld := fun (d : Dev) => d.sld p
    let en := fun (d : Dev) => d.flag (SLD_CTL p) SLD_CTL_en
    let box := fun (n : Nat) => bankAddr 71 (stateWord p n)
    let run := fun (d : Dev) => d.flag (SLD_STAT p) SLD_STAT_running
    let next := (s.dev.fld (SLD_ROUND p) SLD_ROUND_round + 1) % 2 ^ 32
    let now := s.dev.now
    let began := (sld s.dev).slotAt
    -- the start of a round: after the last slot, round_iv µs after the previous start
    let early := now < began ∨ ((sld s.dev).roundAt.any fun t => decide (now < t + s.dev.fld (SLD_CTL p) SLD_CTL_round_iv * 800)) = true
    (en s.dev = false ∨ (sld s.dev).inRound = true ∨ early → Yields (exec (.solderRoundStart p) s) fun t => t = s) ∧
    (en s.dev = true → (sld s.dev).inRound = false → ¬ early →
      (s.dev.flag (SLD_STAT p) SLD_STAT_list_req = false → let todo := (List.range 128).filter (s.dev.sldListed p)
        (todo = [] → s.dev.sldPend p 0 = false → Yields (exec (.solderRoundStart p) s) fun t => t.mem = s.mem ∧
          t.dev.fld (SLD_ROUND p) SLD_ROUND_round = next ∧ t.dev.fld (SLD_ROUND_LEN p) SLD_ROUND_LEN_len = 0 ∧
          (sld t.dev).roundAt = some now ∧ ChangesOnly [SLD_ROUND p, SLD_ROUND_LEN p] Dev.noSlds s.dev t.dev) ∧
        (todo ≠ [] ∨ s.dev.sldPend p 0 = true → Yields (exec (.solderRoundStart p) s) fun t => t.mem = s.mem ∧
          t.dev.fld (SLD_ROUND p) SLD_ROUND_round = next ∧ (sld t.dev).inRound = true ∧ (sld t.dev).todo = todo ∧ run t.dev = true ∧
          (sld t.dev).bcast = s.dev.sldPend p 0 ∧ (sld t.dev).roundAt = some now ∧ (sld t.dev).slotAt = now ∧ (∀ q, q ≠ p.val → t.dev.sld q = s.dev.sld q) ∧
          ChangesOnly [SLD_ROUND p, SLD_STAT p] Dev.noSlds s.dev t.dev)) ∧
      (s.dev.flag (SLD_STAT p) SLD_STAT_list_req = true → Yields (exec (.solderRoundStart p) s) fun t => t.mem = s.mem ∧
        t.dev.flag (SLD_STAT p) SLD_STAT_list_req = false ∧ t.dev.rd (SLD_LIST p 0) = s.dev.rd (SLD_LIST_NEXT p 0) &&& 0xFFFFFFFE ∧
        (∀ i, 1 ≤ i → i < 4 → t.dev.rd (SLD_LIST p i) = s.dev.rd (SLD_LIST_NEXT p i)) ∧
        ∀ x ∈ s.dev.waits, x.op = 0x0401 → x.target = p.val → x ∉ t.dev.waits ∧ (⟨x.sq, x.cid, stOk, next⟩ : Cpl) ∈ t.dev.cpls)) ∧
    -- a slot whose turn it is not
    (∀ r, (sld s.dev).inRound = false ∨ (sld s.dev).bcast = true ∨ (sld s.dev).todo = [] →
      Yields (exec (.slotPoll p r) s) (fun t => t = s) ∧ Yields (exec (.slotRead p r) s) (fun t => t = s) ∧
      Yields (exec (.slotCmd p r) s) fun t => t = s) ∧
    -- the slot of node n
    (∀ (n : Nat) (rest : List Nat), (sld s.dev).inRound = true → (sld s.dev).bcast = false → (sld s.dev).todo = n :: rest → 1 ≤ n → n < 128 →
      en s.dev = true → let old := s.mem.nodeState p n
      let kind := s.dev.slotKind s.mem p n
      let seq := s.dev.sldSeq p n
      let passed := fun (t : State) (len : Nat) => (sld t.dev).slotAt = began + 64 * len ∧ (rest ≠ [] → (sld t.dev).todo = rest ∧ (sld t.dev).tries = 0 ∧ (sld t.dev).inRound = true) ∧
        (rest = [] → (sld t.dev).inRound = false ∧ run t.dev = false ∧
          t.dev.fld (SLD_ROUND_LEN p) SLD_ROUND_LEN_len = ((sld s.dev).bits + len) % 2 ^ 24)
      let row := fun (k : Nat) (r : Option (List Bool)) =>
        if k = 0 then exec (.slotPoll p r) s else if k = 1 then exec (.slotRead p r) s else exec (.slotCmd p r) s
      let fin := fun (k : Nat) => if k = 0 then 30 else if k = 1 then 162 else 174
      let len := fun (k : Nat) => if k = 0 then 38 else if k = 1 then 170 else 182
      let sends := fun (k : Nat) => if k < 2 then headerFrame n k seq else commandFrame n seq (s.mem.h7 (commandBox p n) 16)
      let good := fun (t : State) (st : Nat) => t.mem.word (box n) = BitVec.ofNat 32 (2 ^ 31 + bits old 15 8 * 256 + st) ∧
        t.dev.sldPresent p n = true ∧ (s.dev.sldPresent p n = true → n ∉ (sld s.dev).fresh → st ≠ old % 256 →
          s.dev.flag (SLD_CTL p) SLD_CTL_evt_en = true → s.dev.takesEvent 0x0401 [st + old % 256 * 256] = true →
          t.dev.hasEvent 0x0401 2 (p.val * 128 + n) [st + old % 256 * 256])
      (∀ k < 3, ∀ r, kind ≠ k ∨ now < began + 64 * fin k → Yields (row k r) fun t => t = s) ∧
      -- good short responses
      (∀ l : List Bool, l.length = 13 → crcOver 4 3 0xF (bitsOf 7 n ++ l.take 12) = 0 → l.getD 12 false = true →
        (kind = 0 → began + 64 * fin 0 ≤ now → Yields (exec (.slotPoll p (some l)) s) fun t => passed t 38 ∧ good t (bitsNat (l.take 8)) ∧ (sld t.dev).frame = sends 0 ∧
          ∀ x, x < box n ∨ box n + 4 ≤ x → t.mem.byte x = s.mem.byte x) ∧
        (kind = 2 → began + 64 * fin 2 ≤ now → Yields (exec (.slotCmd p (some l)) s) fun t => passed t 182 ∧ good t (bitsNat (l.take 8)) ∧ (sld t.dev).frame = sends 2 ∧
          t.dev.sldPend p n = false ∧ (∀ j < 128, j ≠ n → t.dev.sldPend p j = s.dev.sldPend p j) ∧
          (s.dev.sldPresent p n = true → n ∉ (sld s.dev).fresh → t.dev.sldSeq p n = !seq))) ∧
      -- a good status block
      (∀ l : List Bool, l.length = 145 → crcOver 16 0x1021 0xFFFF (l.take 144) = 0 → l.getD 144 false = true → kind = 1 → began + 64 * fin 1 ≤ now →
        Yields (exec (.slotRead p (some l)) s) fun t => passed t 170 ∧ good t (bitsNat (l.take 8)) ∧ (sld t.dev).frame = sends 1 ∧
          t.mem.h7 (statusBox p n) 16 = bitsBytes 16 l) ∧
      -- no response, a wrong check or a wrong stop bit: again, up to the retries of a present node, else a failed poll
      (∀ k < 3, kind = k → began + 64 * fin k ≤ now →
        (s.dev.sldPresent p n = true → (sld s.dev).tries < s.dev.fld (SLD_CTL p) SLD_CTL_retries → Yields (row k none) fun t =>
          t.mem = s.mem ∧ (sld t.dev).todo = n :: rest ∧ (sld t.dev).tries = (sld s.dev).tries + 1 ∧ (sld t.dev).kind = k ∧
          (sld t.dev).frame = sends k ∧ t.dev.fld (SLD_ERR p) SLD_ERR_tmo = min 255 (s.dev.fld (SLD_ERR p) SLD_ERR_tmo + 1) ∧
          ChangesOnly [SLD_ERR p] Dev.noSlds s.dev t.dev) ∧
        (s.dev.sldPresent p n = false ∨ s.dev.fld (SLD_CTL p) SLD_CTL_retries ≤ (sld s.dev).tries → Yields (row k none) fun t =>
          let fails := min 255 (bits old 23 16 + 1)
          let lost := s.dev.sldPresent p n = true ∧ s.dev.fld (SLD_CTL p) SLD_CTL_fail_lim ≤ fails
          passed t (len k) ∧ bits (t.mem.nodeState p n) 23 16 = fails ∧ bits (t.mem.nodeState p n) 15 8 = min 255 (bits old 15 8 + 1) ∧
          t.mem.nodeState p n % 256 = old % 256 ∧ (lost → t.dev.sldPresent p n = false ∧ t.dev.sldPend p n = false ∧
            t.dev.flag (SLD_STAT p) SLD_STAT_att = true) ∧ (¬ lost → t.dev.sldPresent p n = s.dev.sldPresent p n)))) ∧
    -- the broadcast
    ((sld s.dev).inRound = false ∨ (sld s.dev).bcast = false ∨ now < began + 64 * 162 → Yields (exec (.slotBroadcast p) s) fun t => t = s) ∧
    ((sld s.dev).inRound = true → (sld s.dev).bcast = true → en s.dev = true → (sld s.dev).todo ≠ [] → began + 64 * 162 ≤ now →
      Yields (exec (.slotBroadcast p) s) fun t => t.mem = s.mem ∧ t.dev.sldPend p 0 = false ∧ (sld t.dev).bcast = false ∧
        (sld t.dev).todo = (sld s.dev).todo ∧ (sld t.dev).bits = (sld s.dev).bits + 162 ∧ (sld t.dev).slotAt = began + 64 * 162 ∧
        (sld t.dev).frame = commandFrame 0 false (s.mem.h7 (commandBox p 0) 16) ∧ ChangesOnly [SLD_CMD_PEND p 0] Dev.noSlds s.dev t.dev)) ∧
  -- registers
  (∀ (w : Writer) (p : Fin 8) (i : Fin 4) (v : Word) (s : State),
    (s.dev.sound (SLD_CMD_PEND p i) v → Yields (exec (.sldCmdPendWrite w p i v) s) fun t => t.mem = s.mem ∧ Wrote w (SLD_CMD_PEND p i) v s.dev t.dev ∧
      ChangesOnly [SLD_CMD_PEND p i] Dev.noWindows s.dev t.dev) ∧
    (s.dev.sound (SLD_CTL p) v → s.dev.flag (SLD_STAT p) SLD_STAT_list_req = false ∨ (s.dev.sld p).inRound = true →
      Yields (exec (.sldCtlWrite w p v) s) fun t => t.mem = s.mem ∧ Wrote w (SLD_CTL p) v s.dev t.dev ∧
        (t.dev.sld p = if s.dev.flag (SLD_CTL p) SLD_CTL_en = false ∧ t.dev.flag (SLD_CTL p) SLD_CTL_en = true
          then { s.dev.sld p with roundAt := none } else s.dev.sld p) ∧
        (∀ q, q ≠ p.val → t.dev.sld q = s.dev.sld q) ∧ ChangesOnly [SLD_CTL p, SLD_UNLOCK] (fun d => d.noWindows.noSlds) s.dev t.dev) ∧
    (s.dev.sound (SLD_STAT p) (v ||| 0x40000000) → s.dev.flag (SLD_CTL p) SLD_CTL_en = true ∨ (s.dev.sld p).inRound = true →
      Yields (exec (.sldListReq w p v) s) fun t => t.mem = s.mem ∧ Wrote w (SLD_STAT p) (v ||| 0x40000000) s.dev t.dev ∧
        ChangesOnly [SLD_STAT p] Dev.noWindows s.dev t.dev) ∧
    (s.dev.sound (SLD_STAT p) (v ||| 0x40000000) → s.dev.accepts w (SLD_STAT p) = true → s.dev.flag (SLD_CTL p) SLD_CTL_en = false → (s.dev.sld p).inRound = false →
      Yields (exec (.sldListReq w p v) s) fun t => t.mem = s.mem ∧ t.dev.flag (SLD_STAT p) SLD_STAT_list_req = false ∧
        t.dev.rd (SLD_LIST p 0) = s.dev.rd (SLD_LIST_NEXT p 0) &&& 0xFFFFFFFE ∧
        ∀ j, 1 ≤ j → j < 4 → t.dev.rd (SLD_LIST p j) = s.dev.rd (SLD_LIST_NEXT p j)))

/-- Frames of the Seam link: which arrive, how they go on round the loop, and what each type does here; the cycle and
the epoch (R39, R395 to R406). It rests on the model's choices in assumption 58. -/
def Obligations.SeamFrames : Prop :=
  let crcs := fun (d : Dev) (a : Fin 2) => d.fld (SEM_PORT_ERR a) SEM_PORT_ERR_crc
  let hop := fun (f : Frame) => { f with hops := (f.hops + 1) % 65536 }
  let onward := fun (d : Dev) (a : Fin 2) (f : Frame) => if d.portWorks (1 - a.val) then [(1 - a.val, hop f)] else [(a.val, { hop f with pass := true })]
  let events := fun (d : Dev) => d.due.filter fun x => match x with
    | .seamEvent _ _ _ _ => true
    | _ => false
  let free := fun (d : Dev) (f : Frame) => ¬ (d.member = true ∧ dget f.pay 8 2 ≠ 0x3FF ∧ dget f.pay 8 2 < d.fld SEM_STAT SEM_STAT_keeper_node)
  let here := fun (d : Dev) => if d.member then d.fld SEM_STAT SEM_STAT_keeper_node else 0x3FF
  let seam := fun (d : Dev) (t : State) (regs : List Nat) => ChangesOnly regs Dev.noSem d t.dev
  -- arrival
  (∀ (a : Fin 2) (f : Frame) (s : State), ∀ x ∈ [(1, exec (.cyclicFrame a f) s), (2, exec (.timeFrame a f) s), (3, exec (.eventFrame a f) s),
      (4, exec (.mboxFrame a f) s), (5, exec (.mboxAckFrame a f) s), (6, exec (.epochFrame a f) s), (7, exec (.probeFrame a f) s),
      (8, exec (.probeReplyFrame a f) s), (9, exec (.joinFrame a f) s), (10, exec (.leaveFrame a f) s), (11, exec (.claimFrame a f) s)],
    (s.dev.portWorks a = false ∨ (f.typ ≠ x.1 ∧ 1 ≤ f.typ ∧ f.typ ≤ 11) → Yields x.2 fun t => t = s) ∧
    (s.dev.portWorks a = true → (f.typ = 0 ∨ 11 < f.typ ∨ (f.typ = x.1 ∧ f.crcOk = false)) → Yields x.2 fun t => t.mem = s.mem ∧
      crcs t.dev a = min (2 ^ SEM_PORT_ERR_crc.wid - 1) (crcs s.dev a + 1) ∧ seam s.dev t [SEM_PORT_ERR a])) ∧
  -- good frames
  (∀ (a : Fin 2) (f : Frame) (s : State), s.dev.portWorks a = true → f.crcOk = true → let d := s.dev
    let me := d.semNode
    (f.typ = 9 → (d.keeper = false → Yields (exec (.joinFrame a f) s) fun t => t.mem = s.mem ∧ t.dev.sem.out = d.sem.out ++ onward d a f ∧
        t.dev.sem.joins = d.sem.joins ∧ seam d t []) ∧
      (d.keeper = true → Yields (exec (.joinFrame a f) s) fun t => t.mem = s.mem ∧ seam d t [] ∧
        t.dev.sem.joins = d.sem.joins.filter (fun e => e.1 != f.src) ++ [(f.src, dget f.pay 0 2)])) ∧
    (f.typ = 10 → Yields (exec (.leaveFrame a f) s) fun t => t.mem = s.mem ∧ seam d t [] ∧
      t.dev.sem.leaves = d.sem.leaves.filter (fun e => e.1 != f.src) ++ [(f.src, false)] ∧
      (d.keeper = false → t.dev.sem.out = d.sem.out ++ onward d a f)) ∧
    (f.typ = 11 → Yields (exec (.claimFrame a f) s) fun t => t.mem = s.mem ∧ seam d t [] ∧
      t.dev.sem.out = d.sem.out ++ (if f.src ≠ me ∧ d.portWorks (1 - a.val) = true then [(1 - a.val, hop f)] else []) ∧
      (d.sem.claiming = true → f.src < me → t.dev.sem.claiming = false ∧ t.dev.sem.claimRun = 0) ∧
      (me ≤ f.src → t.dev.sem.claiming = d.sem.claiming ∧ t.dev.sem.claimRun = d.sem.claimRun)) ∧
    (f.typ = 7 → free d f → Yields (exec (.probeFrame a f) s) fun t => t.mem = s.mem ∧ seam d t [] ∧
      t.dev.sem.out = d.sem.out ++ [(a.val, d.ownFrame fREPLY f.src (leBytes 8 (d.liTime + 192) ++ leBytes 2 (here d)))]) ∧
    (f.typ = 7 → ¬ free d f → Yields (exec (.probeFrame a f) s) fun t => t.mem = s.mem ∧ t.dev.member = false ∧ t.dev.keeper = false) ∧
    (∀ t0, f.typ = 8 → free d f → mget none d.sem.probe a.val = some t0 → Yields (exec (.probeReplyFrame a f) s) fun t => t.mem = s.mem ∧
      (let l := ((mget [] d.sem.trips a.val ++ [d.liTime - t0]).reverse.take 16).reverse
      t.dev.rd (SEM_LINK_DLY a) = BitVec.ofNat 32 ((l.map fun r => (r - 192) * 128).sum / l.length)) ∧
      mget none t.dev.sem.probe a.val = none ∧ seam d t [SEM_LINK_DLY a]) ∧
    -- events for this device
    (f.typ = 3 → d.semEn = true → d.member = true → (f.dst = me ∨ f.dst = 0x3FF) → f.src ≠ me →
      let k := dget f.pay 0 1 % 8
      let at_ := dget f.pay 4 8
      (d.sem.seen.contains (f.src, k, at_) = false → Yields (exec (.eventFrame a f) s) fun t => t.mem = s.mem ∧
        (∀ c < 4, d.released c = true → .seamEvent c k at_ (if at_ < d.liTime + 64 then some (d.now + 12) else none) ∈ t.dev.due) ∧
        (at_ < d.liTime + 64 → t.dev.flag SEM_GSTAT SEM_GSTAT_evt_late = true) ∧ seam d t [SEM_GSTAT]) ∧
      (d.sem.seen.contains (f.src, k, at_) = true → Yields (exec (.eventFrame a f) s) fun t => t.mem = s.mem ∧ seam d t [] ∧
        events t.dev = events d)) ∧
    -- messages
    (f.typ = 4 → d.semEn = true → f.dst = me → mget none d.sem.lastId f.src ≠ some (dget f.pay 0 2) → mget none d.sem.rx f.src = none →
      let total := dget f.pay 4 2
      let off := dget f.pay 2 2
      let acked := fun (t : State) (st : Byte) => ∀ p < 2, d.portWorks p = true →
        (p, d.ownFrame fACK f.src (leBytes 2 (dget f.pay 0 2) ++ [st, 0])) ∈ t.dev.sem.out
      (∀ i, 1 ≤ total → total ≤ 256 → off = 0 → f.pay.length = 8 + total →
        ((List.range 8).find? fun i => !(d.fld SEM_MBX_STAT SEM_MBX_STAT_full).testBit i) = some i →
        let base := (d.rd SEM_MBX_BASE).toNat / 0x2000 * 0x2000
        0x80000000 ≤ base → d.ddrUp = true → (∀ x, base + i * 0x400 ≤ x → x < base + (i + 1) * 0x400 → s.mem.errAt x = 0) →
        Yields (exec (.mboxFrame a f) s) fun t => t.mem.span (base + i * 0x400) total = f.pay.drop 8 ∧
          (∀ x, x < base + i * 0x400 ∨ base + i * 0x400 + total ≤ x → t.mem.byte x = s.mem.byte x) ∧ t.mem.host = s.mem.host ∧
          (t.dev.fld SEM_MBX_STAT SEM_MBX_STAT_full).testBit i = true ∧ acked t 0 ∧ mget none t.dev.sem.lastId f.src = some (dget f.pay 0 2)) ∧
      (1 ≤ total → total ≤ 256 → off = 0 → d.fld SEM_MBX_STAT SEM_MBX_STAT_full = 255 → Yields (exec (.mboxFrame a f) s) fun t => t.mem = s.mem ∧
        acked t 1 ∧ mget none t.dev.sem.lastId f.src = mget none d.sem.lastId f.src) ∧
      (256 < total → Yields (exec (.mboxFrame a f) s) fun t => t.mem = s.mem ∧ seam d t [] ∧
        mget none t.dev.sem.rx f.src = some ⟨dget f.pay 0 2, total, [(off, (f.pay.drop 8).take 256)]⟩)) ∧
    (f.typ = 5 → f.dst = me → ∀ q ∈ d.sem.msgs, q.dest = f.src → q.id = dget f.pay 0 2 → q.sent = true →
      (dget f.pay 2 1 = 0 → Yields (exec (.mboxAckFrame a f) s) fun t => t.mem = s.mem ∧
        ∀ w ∈ d.waits, w.op = 0x0601 → w.sq = q.sq → w ∉ t.dev.waits ∧ (⟨w.sq, w.cid, stOk, 0⟩ : Cpl) ∈ t.dev.cpls) ∧
      (dget f.pay 2 1 ≠ 0 → Yields (exec (.mboxAckFrame a f) s) fun t => t.mem = s.mem ∧ seam d t [] ∧ { q with again := true } ∈ t.dev.sem.msgs)) ∧
    -- the next layout
    (f.typ = 6 → d.keeper = false → let l := (List.range (dget f.pay 8 2)).map fun i => (dget f.pay (12 + 4 * i) 2 % 1024, dget f.pay (14 + 4 * i) 2 % 512)
      (d.member = true ∨ d.sem.joinSent = false → Yields (exec (.epochFrame a f) s) fun t => t.mem = s.mem ∧ seam d t [] ∧
        t.dev.sem.next = some l ∧ t.dev.sem.nextEpoch = dget f.pay 0 4 ∧ t.dev.sem.nextCycle = dget f.pay 4 4 ∧
        t.dev.sem.out = d.sem.out ++ onward d a f) ∧
      (d.member = false → d.sem.joinSent = true → d.inLayout me = true → Yields (exec (.epochFrame a f) s) fun t => t.mem = s.mem ∧
        t.dev.sem.joinSent = false ∧ ∀ w ∈ d.waits, w.op = 0x0603 → w.aux.headD 0 = 1 →
          w ∉ t.dev.waits ∧ (⟨w.sq, w.cid, stNotPermitted, 1⟩ : Cpl) ∈ t.dev.cpls)) ∧
    -- time, where this device does not take its time from the link
    (f.typ = 2 → d.keeper = false → d.time.mode ≠ 2 → Yields (exec (.timeFrame a f) s) fun t => t.mem = s.mem ∧ seam d t [SEM_STAT] ∧
      t.dev.fld SEM_STAT SEM_STAT_keeper_node = f.src % 1024 ∧ t.dev.sem.heardAt = d.now ∧ t.dev.sem.claiming = false ∧
      (f.pass = false → t.dev.fld SEM_STAT SEM_STAT_hops = (f.hops + 1) % 1024) ∧
      let pay := f.pay.take 12 ++ leBytes 4 ((dget f.pay 12 4 + (d.rd (SEM_LINK_DLY a)).toNat + 192 * 256) % 2 ^ 32)
      t.dev.sem.out = d.sem.out ++ onward d a { f with pay := pay }) ∧
    -- sections
    (f.typ = 1 → d.keeper = false → d.member = true →
      (∀ len, d.semEn = true → f.pass = false → d.portWorks (1 - a.val) = true → d.sem.layout.find? (fun e => e.1 == me) = some (me, len) →
        (paySections f.pay).any (fun x => x.1 == me) = true →
        let tx := (d.rd SEM_TX_BASE).toNat / 512 * 512 + d.fld SEM_SECT SEM_SECT_sel * 0x100
        0x80000000 ≤ tx → tx < 0xF0000000 → d.ddrUp = true → (∀ x, tx ≤ x → x < tx + 0x200 → s.mem.errAt x = 0) → len < 512 →
        Yields (exec (.cyclicFrame a f) s) fun t => t.mem = s.mem ∧ seam d t [] ∧ ∃ x ∈ t.dev.sem.out, t.dev.sem.out = d.sem.out ++ [x] ∧
          x.1 = 1 - a.val ∧ x.2 = { hop f with pay := x.2.pay } ∧
          x.2.pay = cyclicPay (dget f.pay 0 4) (dget f.pay 4 4) ((paySections f.pay).map fun x => if x.1 = me then (me, true, s.mem.span tx len) else x)) ∧
      (f.pass = true → let base := (d.rd SEM_RX_BASE).toNat / 0x80000 * 0x80000 + dget f.pay 0 4 % 2 * 0x40000
        0x80000000 ≤ base → d.ddrUp = true → Yields (exec (.cyclicFrame a f) s) fun t => t.mem.host = s.mem.host ∧
          (t.mem.word (base + 0x3F800)).toNat = dget f.pay 0 4 ∧ (t.mem.word (base + 0x3F804)).toNat = dget f.pay 4 4 ∧
          t.dev.fld SEM_CYC_STAT SEM_CYC_STAT_cycle = dget f.pay 0 4))) ∧
  -- the keeper's cycle, its last one of an epoch, and the boundary
  (∀ s : State, let d := s.dev
    (d.keeper = false ∨ d.sem.cycDue = false → Yields (exec .seamCycleStart s) fun t => t = s) ∧
    (d.keeper = true → d.sem.cycDue = true → d.portWorks 0 = true ∨ d.portWorks 1 = true →
      let p := if d.portWorks 1 then 1 else 0
      let time := (p, d.ownFrame fTIME 0x3FF (leBytes 8 d.liTime ++ [0, 0, 0, 0] ++ leBytes 4 0))
      ((d.semCycle + 1) % d.epochLen ≠ 0 ∨ d.member = false → Yields (exec .seamCycleStart s) fun t => t.dev.sem.cycDue = false ∧
        ∃ f ∈ t.dev.sem.out, t.dev.sem.out = d.sem.out ++ [time, f] ∧ f.1 = p ∧ f.2 = d.ownFrame fCYCLIC 0x3FF f.2.pay ∧
          dget f.2.pay 0 4 = d.semCycle % 2 ^ 32) ∧
      ((d.semCycle + 1) % d.epochLen = 0 → d.member = true → Yields (exec .seamCycleStart s) fun t =>
        t.dev.sem.next = some d.nextLayout ∧ t.dev.sem.nextEpoch = (d.fld SEM_EPOCH SEM_EPOCH_epoch + 1) % 2 ^ 32 ∧ t.dev.sem.joins = [])) ∧
    (d.sem.next = none ∨ d.epochDue = false → Yields (exec .epochBoundary s) fun t => t = s) ∧
    (∀ l, d.sem.next = some l → d.epochDue = true → let e := d.sem.nextEpoch
      let mine := l.any fun x => x.1 == d.semNode
      (mine = true ∨ d.member = false → Yields (exec .epochBoundary s) fun t => t.mem = s.mem ∧ t.dev.sem.layout = l ∧ t.dev.sem.next = none ∧
        t.dev.fld SEM_EPOCH SEM_EPOCH_epoch = e % 2 ^ 32 ∧ t.dev.sem.leaves = [] ∧ t.dev.sem.crcRun = .empty ∧
        (∀ n < 2, t.dev.flag (SEM_PORT_STAT n) SEM_PORT_STAT_loop = !d.flag (SEM_PORT_STAT n) SEM_PORT_STAT_up)) ∧
      (mine = true → d.sem.joinSent = true ∨ d.keeper = true → Yields (exec .epochBoundary s) fun t => t.dev.member = true ∧
        ∀ w ∈ d.waits, w.op = 0x0603 → w.aux.headD 0 = 1 → w ∉ t.dev.waits ∧ (⟨w.sq, w.cid, stOk, e⟩ : Cpl) ∈ t.dev.cpls) ∧
      (mine = false → d.member = true → Yields (exec .epochBoundary s) fun t => t.dev.member = false ∧ t.dev.keeper = false ∧
        ∀ w ∈ d.waits, w.op = 0x0603 → w.aux.headD 0 = 2 → w ∉ t.dev.waits ∧ (⟨w.sq, w.cid, stOk, e⟩ : Cpl) ∈ t.dev.cpls)))

/-- Seam events in the clusters, messages sent again, probes, claims and election, ports, and the writes of SEM_CTL and
SEM_MBX_REL (R35, R39, R402, R403, R406 to R410). It rests on the model's choices in assumption 58. -/
def Obligations.SeamFormation : Prop :=
  let seam := fun (d : Dev) (t : State) (regs : List Nat) => ChangesOnly regs Dev.noSem d t.dev
  (∀ (c : Fin 4) (k : Fin 8) (s : State),
    -- at the instant of the event: the copy (or, in a halted cluster, device time) reads it, or its late ccyc is reached
    ((∀ x ∈ s.dev.due, ∀ u l, x = .seamEvent c k u l → s.dev.seamNow c u l = false) → Yields (exec (.seamEventFire c k) s) fun t => t = s) ∧
    (∀ u l, .seamEvent c k u l ∈ s.dev.due → s.dev.seamNow c u l = true →
      (s.dev.clusterRuns c = true → Yields (exec (.seamEventFire c k) s) fun t => t.mem = s.mem ∧ Pulsed c (0xE8 + k.val) s.dev t.dev) ∧
      (s.dev.clusterRuns c = false → Yields (exec (.seamEventFire c k) s) fun t => t.mem = s.mem ∧ ChangesOnly [GLB_CLK_STAT] id s.dev t.dev ∧
        t.dev.fld GLB_CLK_STAT GLB_CLK_STAT_flux_drop =
          min (2 ^ GLB_CLK_STAT_flux_drop.wid - 1) (s.dev.fld GLB_CLK_STAT GLB_CLK_STAT_flux_drop + 1)))) ∧
  (∀ (n : Fin 1024) (s : State), let waits := fun (q : SemMsg) => q.dest == n.val && q.sent && (q.again && decide (1 ≤ q.age) || decide (4 ≤ q.age))
    (s.dev.sem.msgs.find? waits = none → Yields (exec (.mboxResend n) s) fun t => t = s) ∧
    (∀ q, s.dev.sem.msgs.find? waits = some q → Yields (exec (.mboxResend n) s) fun t => t.mem = s.mem ∧ seam s.dev t [] ∧
      ∀ b ∈ mboxFrames q, ∀ p < 2, s.dev.portWorks p = true → (p, s.dev.ownFrame fMBOX n b) ∈ t.dev.sem.out)) ∧
  (∀ (a : Fin 2) (s : State), let here := if s.dev.member then s.dev.fld SEM_STAT SEM_STAT_keeper_node else 0x3FF
    (s.dev.portWorks a = false ∨ s.dev.probeDue a = false → Yields (exec (.probeSend a) s) fun t => t = s) ∧
    (s.dev.portWorks a = true → s.dev.probeDue a = true → Yields (exec (.probeSend a) s) fun t => t.mem = s.mem ∧ seam s.dev t [] ∧
      mget none t.dev.sem.probe a.val = some s.dev.liTime ∧ mget none t.dev.sem.probeCyc a.val = some s.dev.semCycle ∧
      t.dev.sem.out = s.dev.sem.out ++ [(a.val, s.dev.ownFrame fPROBE 0x3FF (leBytes 8 s.dev.liTime ++ leBytes 2 here))])) ∧
  (∀ s : State, let d := s.dev
    let may := d.keeper = false ∧ d.member = false ∧ d.semEn = true ∧ d.flag SEM_CTL SEM_CTL_keeper_cap = true ∧ d.sem.heardAt + 4 * d.semTc ≤ d.now ∧
      ¬ (d.sem.claiming = true ∧ d.sem.claimCyc = some d.semCycle)
    (¬ may → Yields (exec .claimSend s) fun t => t = s) ∧
    (may → Yields (exec .claimSend s) fun t => t.mem = s.mem ∧ seam d t [] ∧ t.dev.sem.claiming = true ∧ t.dev.sem.claimCyc = some d.semCycle ∧
      t.dev.sem.claimRun = (if d.sem.claiming then d.sem.claimRun + 1 else 1) ∧
      ∀ p < 2, d.portWorks p = true → (p, d.ownFrame fCLAIM 0x3FF []) ∈ t.dev.sem.out) ∧
    (let wins := d.keeper = false ∧ d.sem.claiming = true ∧ 4 ≤ d.sem.claimRun ∧ d.sem.claimCyc ≠ some d.semCycle ∧ d.semEn = true
    (¬ wins → Yields (exec .keeperElected s) fun t => t = s) ∧
    (wins → Yields (exec .keeperElected s) fun t => t.mem = s.mem ∧ seam d t [SEM_STAT] ∧ t.dev.keeper = true ∧
      t.dev.fld SEM_STAT SEM_STAT_keeper_node = d.semNode ∧ t.dev.fld SEM_STAT SEM_STAT_topo = 1 ∧
      t.dev.sem.next = some [(d.semNode, d.sectLen)] ∧ t.dev.sem.nextEpoch = 0 ∧ t.dev.sem.claiming = false ∧
      t.dev.sem.nextCycle = (d.semCycle / d.epochLen + 1) * d.epochLen)) ∧
    (let silent := d.sem.heardAt + 4 * d.semTc ≤ d.now
    (d.keeper = true ∨ d.member = false ∨ ¬ silent → Yields (exec .timeFrameLoss s) fun t => t = s) ∧
    (d.keeper = false → d.member = true → silent → Yields (exec .timeFrameLoss s) fun t => t.mem = s.mem ∧ t.dev.member = false ∧ t.dev.keeper = false ∧
      t.dev.sem.layout = [] ∧ t.dev.sem.msgs = [] ∧ t.dev.fld SEM_STAT SEM_STAT_topo = 0))) ∧
  (∀ (n : Fin 2) (s : State), let a := SEM_PORT_STAT n
    (∀ crc, s.dev.flag a SEM_PORT_STAT_up = false ∨ (crc = true ∧ mget 0 s.dev.sem.crcRun n.val < s.dev.fld SEM_KEEP SEM_KEEP_crc_lim) →
      Yields (exec (.portDown n crc) s) fun t => t = s) ∧
    (∀ crc, s.dev.flag a SEM_PORT_STAT_up = true → (crc = true → s.dev.fld SEM_KEEP SEM_KEEP_crc_lim ≤ mget 0 s.dev.sem.crcRun n.val) →
      Yields (exec (.portDown n crc) s) fun t => t.mem = s.mem ∧ t.dev.flag a SEM_PORT_STAT_up = false ∧ t.dev.flag a SEM_PORT_STAT_loop = true ∧
        t.dev.flag a SEM_PORT_STAT_sync = crc ∧ t.dev.flag a SEM_PORT_STAT_att = true ∧
        t.dev.fld a SEM_PORT_STAT_downs = min 255 (s.dev.fld a SEM_PORT_STAT_downs + 1) ∧
        (s.dev.takesEvent 0x0606 [n.val + b2n crc * 256] = true → t.dev.hasEvent 0x0606 2 n [n.val + b2n crc * 256]) ∧
        (s.dev.keeper = true → s.dev.fld SEM_STAT SEM_STAT_topo = 2 → t.dev.fld SEM_STAT SEM_STAT_topo = 3 ∧ t.dev.sem.healed = true) ∧
        seam s.dev t [a, SEM_STAT]) ∧
    (s.dev.flag a SEM_PORT_STAT_up = true → Yields (exec (.portUp n) s) fun t => t = s) ∧
    (s.dev.flag a SEM_PORT_STAT_up = false → Yields (exec (.portUp n) s) fun t => t.mem = s.mem ∧ t.dev.flag a SEM_PORT_STAT_up = true ∧
      t.dev.flag a SEM_PORT_STAT_sync = true ∧ t.dev.flag a SEM_PORT_STAT_att = true ∧
      t.dev.flag a SEM_PORT_STAT_loop = (s.dev.member && s.dev.flag a SEM_PORT_STAT_loop) ∧ ChangesOnly [a] id s.dev t.dev)) ∧
  (∀ (w : Writer) (v : Word) (s : State),
    (Yields (exec (.semMbxRel w v) s) fun t => t.mem = s.mem ∧ ChangesOnly [SEM_MBX_STAT, SEM_MBX_REL] Dev.noWindows s.dev t.dev ∧
      ∀ i < 8, (t.dev.fld SEM_MBX_STAT SEM_MBX_STAT_full).testBit i = ((s.dev.fld SEM_MBX_STAT SEM_MBX_STAT_full).testBit i && !v.toNat.testBit i)) ∧
    (s.dev.accepts w SEM_CTL = true → s.dev.sound SEM_CTL v → s.dev.semNode < 1000 →
      (s.dev.semEn = false → Yields (exec (.semCtlWrite w v) s) fun t => t.mem = s.mem ∧ Wrote w SEM_CTL v s.dev t.dev ∧
        ChangesOnly [SEM_CTL] Dev.noWindows s.dev t.dev) ∧
      (s.dev.semEn = true → fget SEM_CTL_en v = 1 → Yields (exec (.semCtlWrite w v) s) fun t => t.mem = s.mem ∧ t.dev.semEn = true ∧
        t.dev.semNode = s.dev.semNode ∧ ChangesOnly [SEM_CTL] Dev.noWindows s.dev t.dev) ∧
      (s.dev.semEn = true → fget SEM_CTL_en v = 0 → Yields (exec (.semCtlWrite w v) s) fun t => t.mem = s.mem ∧ t.dev.semEn = false ∧
        t.dev.semNode = s.dev.semNode ∧ t.dev.sem.msgs = [] ∧ (∀ c k u l, .seamEvent c k u l ∉ t.dev.due) ∧
        ∀ x ∈ s.dev.waits, x.op ∈ [0x0601, 0x0602, 0x0603] → x ∉ t.dev.waits ∧ (⟨x.sq, x.cid, stAbortedDisabled, 0⟩ : Cpl) ∈ t.dev.cpls)))

/-- The TAP and the debug access port; halts, releases and steps by the debugger, and its freeze of the device watchdog
(R448, R467, R470, R472 to R478, R487). It rests on the model's choices in assumption 59. -/
def Obligations.TapAndDebugger : Prop :=
  let tap := fun (s t : State) => t.mem = s.mem ∧ ChangesOnly [] Dev.noTap s.dev t.dev
  -- instructions
  (∀ (si : Nat) (s : State), ∀ x ∈ [(0, Instr.extest si), (1, .samplePreload si)],
    (s.dev.scanOk = true → Yields (exec x.2 s) fun t => tap s t ∧ t.dev.tap.ir = x.1 ∧ t.dev.tap.cells = si) ∧
    (s.dev.scanOk = false → Yields (exec x.2 s) fun t => tap s t ∧ t.dev.tap = { s.dev.tap with ir := x.1, dr := 0 })) ∧
  (∀ (ir : Fin 64) (s : State), (ir.val ∈ [0x00, 0x01, 0x02, 0x10, 0x11, 0x12, 0x13] → Yields (exec (.bypass ir) s) fun t => t = s) ∧
    (ir.val ∉ [0x00, 0x01, 0x02, 0x10, 0x11, 0x12, 0x13] → Yields (exec (.bypass ir) s) fun t => tap s t ∧
      t.dev.tap = { s.dev.tap with ir := ir.val, dr := 0 })) ∧
  (∀ s : State, let old := s.dev.hlm.tapChalAt + 8000000000 ≤ s.dev.now
    (∀ c, s.dev.hlm.tapChal = some c → ¬ old → Yields (exec .dapChal s) fun t => tap s t ∧ t.dev.tap = { s.dev.tap with ir := 0x10, dr := leNat c }) ∧
    (s.dev.hlm.tapChal = none ∨ old → Yields (exec .dapChal s) fun t => t.mem = s.mem ∧ t.dev.hlm.tapChalAt = s.dev.now ∧
      ∃ c, t.dev.hlm.tapChal = some c ∧ c.length = 32 ∧
      t.dev.tap = { s.dev.tap with ir := 0x10, dr := leNat c } ∧ ChangesOnly [] (fun d => d.noTap.noHlm) s.dev t.dev)) ∧
  (∀ (sig : List Byte) (level : Fin 256) (s : State), let busy := fun (d : Dev) => d.flag DBG_STAT DBG_STAT_resp_busy
    (busy s.dev = true → Yields (exec (.dapResp sig level) s) fun t => tap s t ∧ t.dev.tap = { s.dev.tap with ir := 0x11 }) ∧
    (busy s.dev = false → sig.length = 96 → Yields (exec (.dapResp sig level) s) fun t => t.mem = s.mem ∧ busy t.dev = true ∧
      t.dev.tap = { s.dev.tap with ir := 0x11, resp := some (sig, level.val) } ∧ ChangesOnly [DBG_STAT] Dev.noTap s.dev t.dev) ∧
    -- its verification
    (s.dev.tap.resp = none → Yields (exec .tapGrant s) fun t => t = s) ∧
    (∀ lvl, s.dev.tap.resp = some (sig, lvl) → let free := s.dev.lifecycle = 0 ∨ s.dev.lifecycle = 4
      let signed := s.dev.ownerKey = true ∧ s.dev.now < s.dev.hlm.tapChalAt + 8000000000 ∧ ∃ c, s.dev.hlm.tapChal = some c ∧ Config.ecdsaOk keyOwner (c ++ [BitVec.ofNat 8 lvl]) sig = true
      let rest := fun (t : State) => t.mem = s.mem ∧ t.dev.tap.resp = none ∧ busy t.dev = false ∧
        ChangesOnly [DBG_STAT, HLM_STAT] (fun d => d.noTap.noHlm) s.dev t.dev
      ((lvl = 1 ∨ lvl = 2) → free ∨ signed → Yields (exec .tapGrant s) fun t => rest t ∧ t.dev.fld DBG_STAT DBG_STAT_tap_level = lvl ∧
        t.dev.hlm.tapChal = none) ∧
      (¬ ((lvl = 1 ∨ lvl = 2) ∧ (free ∨ signed)) → Yields (exec .tapGrant s) fun t => rest t ∧
        t.dev.fld DBG_STAT DBG_STAT_tap_level = s.dev.fld DBG_STAT DBG_STAT_tap_level ∧ t.dev.hlm.tapChal = s.dev.hlm.tapChal))) ∧
  (∀ (v : Word) (s : State), (s.dev.tapFull = false → Yields (exec (.dapCtl v) s) fun t => tap s t ∧ t.dev.tap = { s.dev.tap with ir := 0x13, dr := 0 }) ∧
    (s.dev.tapFull = true → Yields (exec (.dapCtl v) s) fun t => t.dev.tap = { s.dev.tap with ir := 0x13, dr := (s.dev.rd DBG_CTL).toNat } ∧
      ∀ c < 4, (fget DBG_CTL_halt v).testBit c = true → (fget DBG_CTL_release v).testBit c = false → s.dev.clusterRuns c = true →
        (t.dev.cluster c).halting = true)) ∧
  -- accesses
  (∀ (addr v : Word) (tag : Option (Fin 16)) (s : State), let lvl := s.dev.dbgLevel
    let missed := fun (t : State) => t.mem = s.mem ∧ t.dev.flag DBG_STAT DBG_STAT_dap_ovr = true ∧ ChangesOnly [DBG_STAT] id s.dev t.dev
    let low := fun (t : State) => t.mem = s.mem ∧ t.dev = { s.dev with tap := { s.dev.tap with resData := 0, resTag := 0, resStat := 3 } }
    let result := fun (t : State) (x : DapRes) => t.dev.tap.resData = x.data ∧ t.dev.tap.resTag = x.tag ∧ t.dev.tap.resStat = x.stat ∧
      t.dev.tap.acc.isSome = true
    let ddr := 0x80000000 ≤ addr.toNat ∧ addr.toNat < 0xF0000000 ∧ addr.toNat % 4 = 0 ∧ s.dev.ddrUp = true ∧ s.mem.errAt (addr.toNat / 8 * 8) = 0
    (s.dev.tap.acc.isSome = true → Yields (exec (.dapRead addr) s) missed ∧ Yields (exec (.dapConsume addr) s) missed ∧ Yields (exec (.dapWrite addr v tag) s) missed) ∧
    (s.dev.tap.acc = none → lvl = 0 → Yields (exec (.dapRead addr) s) (fun t => t = s) ∧ Yields (exec (.dapConsume addr) s) (fun t => t = s) ∧
      Yields (exec (.dapWrite addr v tag) s) fun t => t = s) ∧
    (s.dev.tap.acc = none → lvl = 1 → Yields (exec (.dapConsume addr) s) low ∧ Yields (exec (.dapWrite addr v tag) s) low) ∧
    -- a read has no side effect
    (s.dev.tap.acc = none → 1 ≤ lvl → Yields (exec (.dapRead addr) s) fun t => tap s t ∧ result t (dapRead true addr.toNat (s.mem, s.dev)).2 ∧
      (ddr → result t ⟨s.mem.word addr.toNat, 0, 0⟩) ∧ (addr.toNat % 4 ≠ 0 → t.dev.tap.resStat = 2)) ∧
    (s.dev.tap.acc = none → 2 ≤ lvl → ∀ y, dapRead false addr.toNat (s.mem, s.dev) = y → Yields (exec (.dapConsume addr) s) fun t =>
      t.mem = y.1.1 ∧ result t y.2 ∧ ChangesOnly [] Dev.noTap y.1.2 t.dev) ∧
    (s.dev.tap.acc = none → 2 ≤ lvl → ∀ y, dapWrite addr.toNat v ((tag.map Fin.val).getD 0) (s.mem, s.dev) = y → Yields (exec (.dapWrite addr v tag) s) fun t =>
      t.mem = y.1.1 ∧ t.dev.tap.resStat = y.2 ∧ t.dev.tap.acc.isSome = true ∧ ChangesOnly [] Dev.noTap y.1.2 t.dev ∧
      (ddr → t.mem.word addr.toNat = v ∧ t.dev.tap.resStat = 0 ∧ ∀ x, x < addr.toNat ∨ addr.toNat + 4 ≤ x → t.mem.byte x = s.mem.byte x)) ∧
    Yields (exec .dapAcc s) (fun t => t.mem = s.mem ∧ t.dev = { s.dev with tap := { s.dev.tap with ir := 0x12, dr := t.dev.tap.dr } } ∧
      (lvl = 0 → t.dev.tap.dr = 0) ∧ (1 ≤ lvl → s.dev.tap.acc.isSome = true → t.dev.tap.dr = 2 ^ 72) ∧
      (1 ≤ lvl → s.dev.tap.acc = none → t.dev.tap.dr = s.dev.tap.resStat * 2 ^ 72 + s.dev.tap.resData.toNat * 2 ^ 40 + s.dev.tap.resTag * 2 ^ 4)) ∧
    Yields (exec .dapAccessDone s) (fun t => t.mem = s.mem ∧ t.dev = { s.dev with tap := { s.dev.tap with acc := none } }) ∧
    Yields (exec .trstN s) (fun t => t.mem = s.mem ∧ t.dev.tap.ir = 0x02 ∧ t.dev.tap.acc = none ∧ t.dev.tap.resp = none ∧
      t.dev.fld DBG_STAT DBG_STAT_tap_level = 0 ∧ t.dev.flag DBG_STAT DBG_STAT_resp_busy = false ∧
      (s.dev.fld DBG_STAT DBG_STAT_tap_level ≠ 0 → t.dev.flag TCH_WDT_CFG TCH_WDT_CFG_frozen = false) ∧
      ChangesOnly [DBG_STAT, HLM_STAT, DBG_WDT_FREEZE, TCH_WDT_CFG, TCH_WDT_LEFT] (fun d => d.noTap.noHlm) s.dev t.dev)) ∧
  -- clusters and bench cores
  (∀ (c : Fin 4) (s : State), let x := s.dev.cluster c
    (s.dev.clusterRuns c = false ∨ x.halting = false → Yields (exec (.dbgHalt c) s) fun t => t = s) ∧
    (s.dev.clusterRuns c = true → x.halting = true → x.relPend = false → Yields (exec (.dbgHalt c) s) fun t => t.mem = s.mem ∧
      (t.dev.cluster c).halted = true ∧ (t.dev.cluster c).halting = false ∧ t.dev.clusterRuns c = false ∧
      (∀ a, a / 16 = c.val → t.dev.outMode a = 0) ∧ (∀ k, k / 4 = c.val → t.dev.coreHalted k = true ∧ (t.dev.core k).monitor = none) ∧
      (t.dev.fld DBG_STAT DBG_STAT_cl_halted).testBit c = true ∧ (∀ j < 4, j ≠ c.val → t.dev.cluster j = s.dev.cluster j))) ∧
  (∀ (cs : Fin 16) (s : State), (s.dev.tapFull = false → Yields (exec (.dbgRelease cs) s) fun t => t = s) ∧
    (s.dev.tapFull = true → Yields (exec (.dbgRelease cs) s) fun t => t.mem = s.mem ∧ ∀ c < 4,
      (cs.val.testBit c = true → (s.dev.cluster c).halted = true → (t.dev.cluster c).halted = false ∧
        (t.dev.fld DBG_STAT DBG_STAT_cl_halted).testBit c = false ∧ (t.dev.fld DBG_CTL DBG_CTL_halt).testBit c = false ∧ c ∈ t.dev.time.reload ∧
        (∀ k, k / 4 = c → t.dev.coreHalted k = false) ∧
        ∀ a, a / 16 = c → s.dev.axSt a ≠ stRetired → (t.dev.rd (AXS_CAUSE_SEEN a)).toNat.testBit 0x09 = true) ∧
      (cs.val.testBit c = true → (s.dev.cluster c).halted = false → (s.dev.cluster c).halting = true → (t.dev.cluster c).relPend = true) ∧
      (cs.val.testBit c = false → t.dev.cluster c = s.dev.cluster c))) ∧
  (∀ (j : Fin 2) (js : Fin 4) (s : State), let set := fun (n : Nat) => s.dev.benchSet n
    (s.dev.tapFull = false → Yields (exec (.benchHalt j) s) (fun t => t = s) ∧ Yields (exec (.benchRelease js) s) (fun t => t = s) ∧
      Yields (exec .dbgStep s) fun t => t = s) ∧
    (s.dev.tapFull = true → Yields (exec (.benchHalt j) s) (fun t => t.mem = s.mem ∧ (∀ k ∈ set (2 ^ j.val), t.dev.coreHalted k = true) ∧
        (s.dev.pairedQ 8 = true → set (2 ^ j.val) = [16, 17]) ∧ (s.dev.pairedQ 8 = false → set (2 ^ j.val) = [16 + j.val]) ∧
        (t.dev.fld DBG_CTL DBG_CTL_bench_halt).testBit j = true ∧
        ChangesOnly [DBG_CTL, DBG_STAT, ANV_CTL 16, ANV_CTL 17] Dev.noCores s.dev t.dev) ∧
      (s.dev.fld TCH_BOOT TCH_BOOT_stage ≠ 0xF → Yields (exec (.benchRelease js) s) fun t => t.mem = s.mem ∧
        (∀ k ∈ set js, t.dev.coreHalted k = false) ∧ (∀ k, k ∉ set js → t.dev.core k = s.dev.core k)) ∧
      Yields (exec .dbgStep s) (fun t => t.mem = s.mem ∧ (∀ k, k = 16 ∨ k = 17 → t.dev.coreHalted k = false ∧
          (s.dev.coreHalted k = true → t.dev.core k = { s.dev.core k with stepping := true }) ∧ (s.dev.coreHalted k = false → t.dev.core k = s.dev.core k)) ∧
        ChangesOnly [DBG_STAT, ANV_CTL 16, ANV_CTL 17] Dev.noCores s.dev t.dev))) ∧
  (∀ (w : Writer) (v : Word) (s : State), let frozen := fun (d : Dev) => d.flag TCH_WDT_CFG TCH_WDT_CFG_frozen
    (w ≠ .dap ∨ s.dev.tapFull = false → Yields (exec (.dbgWdtFreeze w v) s) fun t => t = s) ∧
    (s.dev.tapFull = true → fget DBG_WDT_FREEZE_freeze v = 1 → Yields (exec (.dbgWdtFreeze .dap v) s) fun t => t.mem = s.mem ∧ frozen t.dev = true ∧
      ChangesOnly [DBG_WDT_FREEZE, TCH_WDT_CFG] Dev.noWindows s.dev t.dev) ∧
    (s.dev.tapFull = true → fget DBG_WDT_FREEZE_freeze v = 0 → frozen s.dev = true → Yields (exec (.dbgWdtFreeze .dap v) s) fun t => t.mem = s.mem ∧
      frozen t.dev = false ∧ t.dev.flag TCH_WDT_CFG TCH_WDT_CFG_debug_resumed = true ∧
      t.dev.fld TCH_WDT_LEFT TCH_WDT_LEFT_left = s.dev.fld TCH_WDT_CFG TCH_WDT_CFG_period))

/-- Event counters: thresholds, overflow, snapshots, clears and reads; and the records of a capture (R481 to R486,
R488). It rests on the model's choices in assumptions 60 and 77. -/
def Obligations.EventCountersAndCaptures : Prop :=
  (∀ (e : Fin 96) (s : State), s.dev.evcRuns e = true → let cfg := EVC_CFG e
    let count := fun (d : Dev) => d.wide64 (EVC_CNT_LO e)
    let pay := [e.val, count s.dev % 2 ^ 32, count s.dev / 2 ^ 32]
    (.evcThr e false ∉ s.dev.due → .evcThr e true ∉ s.dev.due → Yields (exec (.evcThreshold e) s) fun t => t = s) ∧
    (.evcThr e false ∈ s.dev.due ∨ .evcThr e true ∈ s.dev.due → Yields (exec (.evcThreshold e) s) fun t => t.mem = s.mem ∧
      t.dev.flag cfg EVC_CFG_thr_hit = true ∧ (.evcThr e true ∈ s.dev.due → t.dev.flag cfg EVC_CFG_late = true) ∧
      (.evcThr e true ∉ s.dev.due → t.dev.flag cfg EVC_CFG_late = s.dev.flag cfg EVC_CFG_late) ∧
      -- thr_clr clears the count in the next ccyc
      (s.dev.flag cfg EVC_CFG_thr_clr = true → e.val ∈ t.dev.evcClr) ∧
      (s.dev.flag cfg EVC_CFG_thr_clr = false → t.dev.evcClr = s.dev.evcClr) ∧
      (e.val < 80 ∨ s.dev.takesEvent 0x0912 pay = true → count t.dev = count s.dev) ∧
      (e.val < 64 ∨ 80 ≤ e.val → s.dev.takesEvent 0x0912 pay = true → t.dev.hasEvent 0x0912 (if e.val < 64 then 0x10 + e.val / 16 else 0) e pay) ∧
      t.dev.evcHigh = s.dev.evcHigh ∧ ChangesOnly [] Dev.noEvcHigh s.dev t.dev) ∧
    -- at most one count per ccyc
    (mget 0 s.dev.evcAt e.val = s.dev.now + 1 → Yields (exec (.evcOverflow e) s) fun t => t = s) ∧
    (s.dev.flag cfg EVC_CFG_en = true → count s.dev = 2 ^ 48 - 1 → mget 0 s.dev.evcAt e.val ≠ s.dev.now + 1 → Yields (exec (.evcOverflow e) s) fun t => t.mem = s.mem ∧ count t.dev = 0 ∧
      t.dev.flag cfg EVC_CFG_ovf = true ∧ ChangesOnly [] id s.dev t.dev) ∧
    (s.dev.flag cfg EVC_CFG_en = false ∨ count s.dev ≠ 2 ^ 48 - 1 → Yields (exec (.evcOverflow e) s) fun t => t = s) ∧
    (∀ w v, fget EVC_CFG_clr v = 1 → evcReserved e v = false → Yields (exec (.evcClr w e v) s) fun t => t.mem = s.mem ∧ count t.dev = 0 ∧
      t.dev.evcClr = s.dev.evcClr ∧ ChangesOnly [] (fun d => d.noWindows.noEvcHigh) s.dev t.dev) ∧
    (∀ w v, s.dev.accepts w (EVC_THR_HI e) = true → Yields (exec (.evcThrHiWrite w e v) s) fun t => t.mem = s.mem ∧
      t.dev.fld (EVC_THR_HI e) EVC_THR_HI_thr_hi = fget EVC_THR_HI_thr_hi v ∧ count t.dev = count s.dev ∧ ChangesOnly [] Dev.noWindows s.dev t.dev) ∧
    Yields (exec (.evcCntLoRead e) s) (fun t => t.mem = s.mem ∧ t.dev.rdata = s.dev.rd (EVC_CNT_LO e) ∧
      (t.dev.rd (EVC_CNT_HI_SNAP e)).toNat = count s.dev / 2 ^ 32 % 2 ^ 32 ∧ ChangesOnly [] Dev.noRdata s.dev t.dev)) ∧
  (∀ (w : Writer) (v : Word) (s : State), v ≠ 0 → Yields (exec (.evcGsnap w v) s) fun t => t.mem = s.mem ∧
    (∀ e, 64 ≤ e → e < 96 → (t.dev.rd (EVC_SNAP_LO e)).toNat = s.dev.wide64 (EVC_CNT_LO e) % 2 ^ 32 ∧
      t.dev.fld (EVC_SNAP_HI e) EVC_SNAP_HI_snap_hi = s.dev.wide64 (EVC_CNT_LO e) / 2 ^ 32 % 2 ^ 16) ∧ t.dev.wide64 EVC_GSNAP_T_LO = s.dev.time.master) ∧
  (∀ (n : Fin 64) (s : State), (s.dev.clusterRuns (n.val / 16) = false → Yields (exec (.evcIn n) s) fun t => t = s) ∧
    (s.dev.clusterRuns (n.val / 16) = true → s.dev.flag (EVC_CFG n) EVC_CFG_snap_en = true → Yields (exec (.evcIn n) s) fun t => t.mem = s.mem ∧
      (t.dev.rd (EVC_SNAP_LO n)).toNat = t.dev.wide64 (EVC_CNT_LO n) % 2 ^ 32 ∧
      t.dev.fld (EVC_SNAP_HI n) EVC_SNAP_HI_snap_hi = t.dev.wide64 (EVC_CNT_LO n) / 2 ^ 32 % 2 ^ 16)) ∧
  -- captures
  (∀ (k : Fin 8) (s : State), let c := s.dev.cap k
    let st := DBG_CAP_STAT k
    let p := (s.dev.rd (DBG_CAP_WPTR k)).toNat
    -- 288 ticks after the latest sample instant of the reference slot, once
    let at_ := (s.dev.axis c.axis).smpRef
    let runs := s.dev.fldIf st DBG_CAP_STAT_running ≠ 0 ∧ s.dev.clusterRuns (axCl c.axis) = true ∧ at_ ≠ 0 ∧ c.recd ≠ at_ ∧
      (s.dev.cluster (axCl c.axis)).ref = at_ + 288
    (¬ runs → ∀ full, Yields (exec (.captureRecord k full) s) fun t => t = s) ∧
    (runs → Yields (exec (.captureRecord k true) s) fun t => t.mem = s.mem ∧
      t.dev.fld st DBG_CAP_STAT_lost = min 65535 (s.dev.fld st DBG_CAP_STAT_lost + 1) ∧ (t.dev.cap k).lost = c.lost + 1 ∧ (t.dev.cap k).recd = at_ ∧
      (∀ j, j ≠ k.val → t.dev.cap j = s.dev.cap j) ∧ ChangesOnly [st] Dev.noCaps s.dev t.dev) ∧
    (∀ rec, rec = s.dev.capBytes k ((s.dev.copy (axCl c.axis) + 2 ^ 64 - 288) % 2 ^ 64) → rec.length = c.recSize → runs →
      p + c.recSize ≤ c.size → 0x80000000 ≤ c.base → s.dev.ddrUp = true →
      (∀ x, (c.base + p) / 8 * 8 ≤ x → x < c.base + p + c.recSize → s.mem.errAt x = 0) → c.base + c.size ≤ 0xF0000000 →
      Yields (exec (.captureRecord k false) s) fun t =>
        (∀ i (h : i < rec.length), t.mem.byte (c.base + p + i) = rec[i]) ∧
        t.mem.host = s.mem.host ∧ (t.dev.rd (DBG_CAP_SEQ k)) = s.dev.rd (DBG_CAP_SEQ k) + 1 ∧ (t.dev.cap k).lost = 0 ∧ (t.dev.cap k).recd = at_ ∧
        (c.wrap = false ∨ p + 2 * c.recSize ≤ c.size → (t.dev.rd (DBG_CAP_WPTR k)).toNat = p + c.recSize) ∧
        (c.wrap = true → c.size < p + 2 * c.recSize → t.dev.rd (DBG_CAP_WPTR k) = 0 ∧ t.dev.flag st DBG_CAP_STAT_wrapped = true)) ∧
    (runs → c.wrap = false → c.size < p + c.recSize → Yields (exec (.captureRecord k false) s) fun t => t.mem = s.mem ∧
      t.dev.flag st DBG_CAP_STAT_running = false ∧ t.dev.flag st DBG_CAP_STAT_full = true ∧
      (s.dev.takesEvent 0x0910 [] = true → t.dev.hasEvent 0x0910 0 k []) ∧ ChangesOnly [st] id s.dev t.dev))

/-- The queue (the model's own): step runs the command at its front with the rest of the queue, and where none waits one
ccyc passes, which is the model's choice (assumption 2). It rests on the model's choices in assumption 2. -/
def Obligations.StepRunsTheFrontCommand : Prop :=
  (∀ (c : Instr) (rest : List Instr) (s : State), s.pending = c :: rest → step s = exec c { s with pending := rest }) ∧
  (∀ s : State, s.pending = [] → Yields (step s) fun t => t.mem = s.mem ∧ t.dev = tick s.dev ∧ t.pending = [])

/-- Every command completes from every state with the rest of the queue as it was, and every step keeps the memories in
their canonical form: addresses rise strictly, and nothing is listed that an unlisted address reads as. It rests on the
model's choices in assumption 10. -/
def Obligations.EveryStepKeepsMemoryCanonical : Prop :=
  (∀ (c : Instr) (s : State), Yields (exec c s) fun t => t.pending = s.pending) ∧
  (∀ s : State, s.mem.wf = true → Yields (step s) fun t => t.mem.wf = true ∧ t.pending = s.pending.tail)

/-- What reset leaves, where the spec states it: registers at the reset values of their tables, every axis RETIRED with
its outputs SAFE, clusters in reset, device time 0, IDCODE in the TAP; memory lists nothing and no command waits. The
part is a PDL-64, which is the model's choice (assumption 3). It rests on the model's choices in assumptions 3, 8 and 9. -/
def Obligations.ResetState : Prop :=
  State.reset.pending = [] ∧ State.reset.mem.wf = true ∧ State.reset.mem = ⟨.empty, .empty, .empty, .empty⟩ ∧
  (∀ x ∈ [(GLB_SYNC_IN_PERIOD, (800000 : Word)), (GLB_CLK_TRIM, 0), (GLB_TIME_STEP, 0), (PWM_PER 0, 4000), (PWM_PER 63, 4000),
      (PWM_DT 5, 0x001003FF), (PWM_SHD_U 7, 0x80000000), (PWM_ACT_W 7, 0x80000000), (AXS_CAUSE_SEEN 0, 0), (TMR_TOP 127, 0xFFFFFFFF),
      (ING_BANK_OWN 15, 0xE), (MEM_BAR2_BASE, 0x80000000), (LDL_EVT_DROP, 0)], State.reset.dev.rd x.1 = x.2) ∧
  (∀ x ∈ [(GLB_TIME_CTL, GLB_TIME_CTL_lock_tol, 4), (AXS_MISS_CFG 9, AXS_MISS_CFG_miss_limit, 3), (AXS_STATE 33, AXS_STATE_state, stRetired),
      (PWM_STAT 33, PWM_STAT_out_mode, 0), (PWM_GSTAT 3, PWM_GSTAT_safe_axes, 0xFFFF), (PWM_FLT 1, PWM_FLT_flt_en, 1),
      (FBK_CFG 2, FBK_CFG_filt, 8), (TMR_STAT 3, TMR_STAT_gate_open, 1), (CHS_LOOP 31, CHS_LOOP_last, 63), (TCH_WDT_CFG, TCH_WDT_CFG_period, 2000),
      (DRW_CLK 4, DRW_CLK_clk_div, 40), (MEM_SCRUB, MEM_SCRUB_scrub_iv, 100), (SEM_CYC, SEM_CYC_epoch_len, 256), (SEM_CYC, SEM_CYC_cyc_q, 500),
      (SLD_CTL 0, SLD_CTL_fail_lim, 3), (ANV_CWDT_CFG 0, ANV_CWDT_CFG_kick_mask, 15), (CRU_XTH 0, CRU_XTH_xth, 256)],
    State.reset.dev.fld x.1 x.2.1 = x.2.2) ∧
  (∀ c < 4, State.reset.dev.released c = false) ∧ State.reset.dev.time.master = 0 ∧ State.reset.dev.tap.ir = 0x02 ∧
  State.reset.dev.events = [] ∧ State.reset.dev.windows = [] ∧ (∀ c < 4, State.reset.dev.copy c = 0)

/-- IDCODE reads version 1, the part code of R5, 0x41D and 1, each in its place (R471). -/
def Obligations.IdcodeNamesThePart : Prop :=
  ∀ s : State, Yields (exec .idcode s) fun t => t.mem = s.mem ∧
    t.dev = { s.dev with tap := { s.dev.tap with ir := 0x02, dr := t.dev.tap.dr } } ∧
    t.dev.tap.dr / 2 ^ 28 = 1 ∧ t.dev.tap.dr / 2 ^ 12 % 2 ^ 16 = 0x9D40 + (match s.dev.part with | .pdl16 => 1 | .pdl32 => 2 | .pdl64 => 4) ∧
    t.dev.tap.dr / 2 % 2 ^ 11 = 0x41D ∧ t.dev.tap.dr % 2 = 1 ∧
    t.dev.tap.dr = (match s.dev.part with | .pdl64 => 0x19D4483B | .pdl32 => 0x19D4283B | .pdl16 => 0x19D4183B)

/-- A write of PWM_CFG that would set dbl without center-aligned counting and upd_div of 1, or an upd_div of 0b11, is
discarded as a whole and sets cfg_err; another write by the window's holder sets its values where no axis is admitted
(R120). -/
def Obligations.PwmCombinationsAreDiscarded : Prop :=
  ∀ (w : Writer) (a : Fin 64) (addr v : Word) (s : State), let bad := fget PWM_CFG_upd_div v = 3 ∨
      (fget PWM_CFG_dbl v = 1 ∧ (fget PWM_CFG_center v = 0 ∨ fget PWM_CFG_upd_div v ≠ 0))
    addr.toNat = PWM_CFG a → s.dev.regDead w (PWM_CFG a) = false → s.dev.accepts w (PWM_CFG a) = true → w ≠ .dap →
    (bad → Yields (exec (.registerWrite w addr v) s) fun t => t.mem = s.mem ∧ t.dev.rd (PWM_CFG a) = s.dev.rd (PWM_CFG a) ∧
      t.dev.flag (PWM_GSTAT (axCl a)) PWM_GSTAT_cfg_err = true ∧ ChangesOnly [PWM_GSTAT (axCl a)] Dev.noWindows s.dev t.dev) ∧
    (¬ bad → s.dev.axSt a = stRetired → Yields (exec (.registerWrite w addr v) s) fun t => t.mem = s.mem ∧
      (∀ f ∈ [PWM_CFG_dbl, PWM_CFG_center, PWM_CFG_upd_div], t.dev.fld (PWM_CFG a) f = fget f v) ∧
      ChangesOnly [PWM_CFG a] Dev.noWindows s.dev t.dev)
end

