-- ==== Sys2Proof/Laws/Exec.lean ====
section
/-!
SUPPORT. What exec does with each command, by its name: the direct call of its meaning.
-/
namespace Sys2Proof.Machine

theorem exec_registerWrite {s : State} : ∀ w addr v, exec (.registerWrite w addr v) s = execRegisterWrite w addr v s := fun _ _ _ => rfl
theorem exec_unlockWrite {s : State} : ∀ w addr, exec (.unlockWrite w addr) s = execUnlockWrite w addr s := fun _ _ => rfl
theorem exec_unlockWindowExpiry {s : State} : ∀ w addr, exec (.unlockWindowExpiry w addr) s = execUnlockWindowExpiry w addr s := fun _ _ => rfl
theorem exec_crossingDelivery {s : State} : ∀ src dst, exec (.crossingDelivery src dst) s = execCrossingDelivery src dst s := fun _ _ => rfl
theorem exec_clockFail {s : State} : ∀ ppm, exec (.clockFail ppm) s = execClockFail ppm s := fun _ => rfl
theorem exec_deviceTimeBoundary {s : State} : exec (.deviceTimeBoundary) s = execDeviceTimeBoundary s := rfl
theorem exec_glbTimeStepWrite {s : State} : ∀ w v, exec (.glbTimeStepWrite w v) s = execGlbTimeStepWrite w v s := fun _ _ => rfl
theorem exec_glbClkTrimWrite {s : State} : ∀ w v, exec (.glbClkTrimWrite w v) s = execGlbClkTrimWrite w v s := fun _ _ => rfl
theorem exec_glbTimeLoRead {s : State} : ∀ lat, exec (.glbTimeLoRead lat) s = execGlbTimeLoRead lat s := fun _ => rfl
theorem exec_syncInEdge {s : State} : exec (.syncInEdge) s = execSyncInEdge s := rfl
theorem exec_syncLost {s : State} : exec (.syncLost) s = execSyncLost s := rfl
theorem exec_syncOutRise {s : State} : exec (.syncOutRise) s = execSyncOutRise s := rfl
theorem exec_syncOutFall {s : State} : exec (.syncOutFall) s = execSyncOutFall s := rfl
theorem exec_windowOpen {s : State} : ∀ a, exec (.windowOpen a) s = execWindowOpen a s := fun _ => rfl
theorem exec_windowClose {s : State} : ∀ a b0 b1 b2, exec (.windowClose a b0 b1 b2) s = execWindowClose a b0 b1 b2 s := fun _ _ _ _ => rfl
theorem exec_sampleResultsValid {s : State} : ∀ a, exec (.sampleResultsValid a) s = execSampleResultsValid a s := fun _ => rfl
theorem exec_currentLawDispatch {s : State} : ∀ a, exec (.currentLawDispatch a) s = execCurrentLawDispatch a s := fun _ => rfl
theorem exec_backgroundJobStart {s : State} : ∀ n, exec (.backgroundJobStart n) s = execBackgroundJobStart n s := fun _ => rfl
theorem exec_backgroundDeadline {s : State} : ∀ n, exec (.backgroundDeadline n) s = execBackgroundDeadline n s := fun _ => rfl
theorem exec_dutyRelease {s : State} : ∀ a, exec (.dutyRelease a) s = execDutyRelease a s := fun _ => rfl
theorem exec_admissionCommit {s : State} : ∀ n, exec (.admissionCommit n) s = execAdmissionCommit n s := fun _ => rfl
theorem exec_plnCommitWrite {s : State} : ∀ w c v, exec (.plnCommitWrite w c v) s = execPlnCommitWrite w c v s := fun _ _ _ => rfl
theorem exec_lawStoreWrite {s : State} : ∀ w c v, exec (.lawStoreWrite w c v) s = execLawStoreWrite w c v s := fun _ _ _ => rfl
theorem exec_lawStoreRead {s : State} : ∀ c, exec (.lawStoreRead c) s = execLawStoreRead c s := fun _ => rfl
theorem exec_gainStoreWrite {s : State} : ∀ w n ls ix v, exec (.gainStoreWrite w n ls ix v) s = execGainStoreWrite w n ls ix v s := fun _ _ _ _ _ => rfl
theorem exec_variableFileWrite {s : State} : ∀ w n ls ix v, exec (.variableFileWrite w n ls ix v) s = execVariableFileWrite w n ls ix v s := fun _ _ _ _ _ => rfl
theorem exec_laneNop {s : State} : ∀ n, exec (.laneNop n) s = execLaneNop n s := fun _ => rfl
theorem exec_laneEnd {s : State} : ∀ n, exec (.laneEnd n) s = execLaneEnd n s := fun _ => rfl
theorem exec_laneLdi {s : State} : ∀ n, exec (.laneLdi n) s = execLaneLdi n s := fun _ => rfl
theorem exec_laneLdv {s : State} : ∀ n, exec (.laneLdv n) s = execLaneLdv n s := fun _ => rfl
theorem exec_laneStv {s : State} : ∀ n, exec (.laneStv n) s = execLaneStv n s := fun _ => rfl
theorem exec_laneIn {s : State} : ∀ n, exec (.laneIn n) s = execLaneIn n s := fun _ => rfl
theorem exec_laneOut {s : State} : ∀ n, exec (.laneOut n) s = execLaneOut n s := fun _ => rfl
theorem exec_laneLdg {s : State} : ∀ n, exec (.laneLdg n) s = execLaneLdg n s := fun _ => rfl
theorem exec_laneLdm {s : State} : ∀ n, exec (.laneLdm n) s = execLaneLdm n s := fun _ => rfl
theorem exec_laneStm {s : State} : ∀ n, exec (.laneStm n) s = execLaneStm n s := fun _ => rfl
theorem exec_laneAdd {s : State} : ∀ n, exec (.laneAdd n) s = execLaneAdd n s := fun _ => rfl
theorem exec_laneSub {s : State} : ∀ n, exec (.laneSub n) s = execLaneSub n s := fun _ => rfl
theorem exec_laneAddi {s : State} : ∀ n, exec (.laneAddi n) s = execLaneAddi n s := fun _ => rfl
theorem exec_laneNeg {s : State} : ∀ n, exec (.laneNeg n) s = execLaneNeg n s := fun _ => rfl
theorem exec_laneAbs {s : State} : ∀ n, exec (.laneAbs n) s = execLaneAbs n s := fun _ => rfl
theorem exec_laneMin {s : State} : ∀ n, exec (.laneMin n) s = execLaneMin n s := fun _ => rfl
theorem exec_laneMax {s : State} : ∀ n, exec (.laneMax n) s = execLaneMax n s := fun _ => rfl
theorem exec_laneLim {s : State} : ∀ n, exec (.laneLim n) s = execLaneLim n s := fun _ => rfl
theorem exec_laneAnd {s : State} : ∀ n, exec (.laneAnd n) s = execLaneAnd n s := fun _ => rfl
theorem exec_laneOr {s : State} : ∀ n, exec (.laneOr n) s = execLaneOr n s := fun _ => rfl
theorem exec_laneXor {s : State} : ∀ n, exec (.laneXor n) s = execLaneXor n s := fun _ => rfl
theorem exec_laneShl {s : State} : ∀ n, exec (.laneShl n) s = execLaneShl n s := fun _ => rfl
theorem exec_laneShr {s : State} : ∀ n, exec (.laneShr n) s = execLaneShr n s := fun _ => rfl
theorem exec_laneCmp {s : State} : ∀ n, exec (.laneCmp n) s = execLaneCmp n s := fun _ => rfl
theorem exec_laneMov {s : State} : ∀ n, exec (.laneMov n) s = execLaneMov n s := fun _ => rfl
theorem exec_laneMul {s : State} : ∀ n, exec (.laneMul n) s = execLaneMul n s := fun _ => rfl
theorem exec_laneMuli {s : State} : ∀ n, exec (.laneMuli n) s = execLaneMuli n s := fun _ => rfl
theorem exec_laneCla {s : State} : ∀ n, exec (.laneCla n) s = execLaneCla n s := fun _ => rfl
theorem exec_laneLda {s : State} : ∀ n, exec (.laneLda n) s = execLaneLda n s := fun _ => rfl
theorem exec_laneMac {s : State} : ∀ n, exec (.laneMac n) s = execLaneMac n s := fun _ => rfl
theorem exec_laneMsu {s : State} : ∀ n, exec (.laneMsu n) s = execLaneMsu n s := fun _ => rfl
theorem exec_laneMaci {s : State} : ∀ n, exec (.laneMaci n) s = execLaneMaci n s := fun _ => rfl
theorem exec_laneAcx {s : State} : ∀ n, exec (.laneAcx n) s = execLaneAcx n s := fun _ => rfl
theorem exec_laneDiv {s : State} : ∀ n, exec (.laneDiv n) s = execLaneDiv n s := fun _ => rfl
theorem exec_laneSincos {s : State} : ∀ n, exec (.laneSincos n) s = execLaneSincos n s := fun _ => rfl
theorem exec_laneRot {s : State} : ∀ n, exec (.laneRot n) s = execLaneRot n s := fun _ => rfl
theorem exec_laneAtan2 {s : State} : ∀ n, exec (.laneAtan2 n) s = execLaneAtan2 n s := fun _ => rfl
theorem exec_laneSkip {s : State} : ∀ n, exec (.laneSkip n) s = execLaneSkip n s := fun _ => rfl
theorem exec_laneFault {s : State} : ∀ n, exec (.laneFault n) s = execLaneFault n s := fun _ => rfl
theorem exec_laneEvt {s : State} : ∀ n, exec (.laneEvt n) s = execLaneEvt n s := fun _ => rfl
theorem exec_axsCtlArm {s : State} : ∀ w a, exec (.axsCtlArm w a) s = execAxsCtlArm w a s := fun _ _ => rfl
theorem exec_axsCtlEnable {s : State} : ∀ w a, exec (.axsCtlEnable w a) s = execAxsCtlEnable w a s := fun _ _ => rfl
theorem exec_axsCtlStopRamp {s : State} : ∀ w a, exec (.axsCtlStopRamp w a) s = execAxsCtlStopRamp w a s := fun _ _ => rfl
theorem exec_axsCtlStopSto {s : State} : ∀ w a, exec (.axsCtlStopSto w a) s = execAxsCtlStopSto w a s := fun _ _ => rfl
theorem exec_axsCtlDisarm {s : State} : ∀ w a, exec (.axsCtlDisarm w a) s = execAxsCtlDisarm w a s := fun _ _ => rfl
theorem exec_axsCtlAck {s : State} : ∀ w a, exec (.axsCtlAck w a) s = execAxsCtlAck w a s := fun _ _ => rfl
theorem exec_axsFaultReq {s : State} : ∀ w a v, exec (.axsFaultReq w a v) s = execAxsFaultReq w a v s := fun _ _ _ => rfl
theorem exec_rampHoldEnd {s : State} : ∀ a, exec (.rampHoldEnd a) s = execRampHoldEnd a s := fun _ => rfl
theorem exec_rampTimeout {s : State} : ∀ a, exec (.rampTimeout a) s = execRampTimeout a s := fun _ => rfl
theorem exec_drwClkWrite {s : State} : ∀ w n v, exec (.drwClkWrite w n v) s = execDrwClkWrite w n v s := fun _ _ _ => rfl
theorem exec_clockDrainEnd {s : State} : ∀ n, exec (.clockDrainEnd n) s = execClockDrainEnd n s := fun _ => rfl
theorem exec_sdcReadbackFail {s : State} : ∀ n, exec (.sdcReadbackFail n) s = execSdcReadbackFail n s := fun _ => rfl
theorem exec_sdcReadbackRecover {s : State} : ∀ n, exec (.sdcReadbackRecover n) s = execSdcReadbackRecover n s := fun _ => rfl
theorem exec_continuousResult {s : State} : ∀ h b, exec (.continuousResult h b) s = execContinuousResult h b s := fun _ _ => rfl
theorem exec_stuckRun {s : State} : ∀ h, exec (.stuckRun h) s = execStuckRun h s := fun _ => rfl
theorem exec_overcurrentQualify {s : State} : ∀ h b, exec (.overcurrentQualify h b) s = execOvercurrentQualify h b s := fun _ _ => rfl
theorem exec_overcurrentRelease {s : State} : ∀ h b, exec (.overcurrentRelease h b) s = execOvercurrentRelease h b s := fun _ _ => rfl
theorem exec_drwOcCfgWrite {s : State} : ∀ w h v, exec (.drwOcCfgWrite w h v) s = execDrwOcCfgWrite w h v s := fun _ _ _ => rfl
theorem exec_drwOcThWrite {s : State} : ∀ w h v, exec (.drwOcThWrite w h v) s = execDrwOcThWrite w h v s := fun _ _ _ => rfl
theorem exec_drwChCfgWrite {s : State} : ∀ w h v, exec (.drwChCfgWrite w h v) s = execDrwChCfgWrite w h v s := fun _ _ _ => rfl
theorem exec_pwmPeak {s : State} : ∀ a, exec (.pwmPeak a) s = execPwmPeak a s := fun _ => rfl
theorem exec_pwmValley {s : State} : ∀ a, exec (.pwmValley a) s = execPwmValley a s := fun _ => rfl
theorem exec_fltAssert {s : State} : ∀ a, exec (.fltAssert a) s = execFltAssert a s := fun _ => rfl
theorem exec_fltRelease {s : State} : ∀ a, exec (.fltRelease a) s = execFltRelease a s := fun _ => rfl
theorem exec_stoAssert {s : State} : ∀ c g, exec (.stoAssert c g) s = execStoAssert c g s := fun _ _ => rfl
theorem exec_stoRelease {s : State} : ∀ c g, exec (.stoRelease c g) s = execStoRelease c g s := fun _ _ => rfl
theorem exec_pwmStoMapWrite {s : State} : ∀ w c g v, exec (.pwmStoMapWrite w c g v) s = execPwmStoMapWrite w c g v s := fun _ _ _ _ => rfl
theorem exec_encoderCount {s : State} : ∀ a lvA lvB, exec (.encoderCount a lvA lvB) s = execEncoderCount a lvA lvB s := fun _ _ _ => rfl
theorem exec_indexEvent {s : State} : ∀ e, exec (.indexEvent e) s = execIndexEvent e s := fun _ => rfl
theorem exec_fbkPosPreset {s : State} : ∀ w a v, exec (.fbkPosPreset w a v) s = execFbkPosPreset w a v s := fun _ _ _ => rfl
theorem exec_fbkIdxStatRead {s : State} : ∀ a, exec (.fbkIdxStatRead a) s = execFbkIdxStatRead a s := fun _ => rfl
theorem exec_disagreementQualified {s : State} : ∀ a pair, exec (.disagreementQualified a pair) s = execDisagreementQualified a pair s := fun _ _ => rfl
theorem exec_disPersistExpiry {s : State} : ∀ a, exec (.disPersistExpiry a) s = execDisPersistExpiry a s := fun _ => rfl
theorem exec_rscHit {s : State} : ∀ a, exec (.rscHit a) s = execRscHit a s := fun _ => rfl
theorem exec_rscPulseEnd {s : State} : ∀ a, exec (.rscPulseEnd a) s = execRscPulseEnd a s := fun _ => rfl
theorem exec_fbkRscCmpWrite {s : State} : ∀ w a v, exec (.fbkRscCmpWrite w a v) s = execFbkRscCmpWrite w a v s := fun _ _ _ => rfl
theorem exec_fbkRscCfgWrite {s : State} : ∀ w a v, exec (.fbkRscCfgWrite w a v) s = execFbkRscCfgWrite w a v s := fun _ _ _ => rfl
theorem exec_fbkRscStepWrite {s : State} : ∀ w a v, exec (.fbkRscStepWrite w a v) s = execFbkRscStepWrite w a v s := fun _ _ _ => rfl
theorem exec_fbkEoRatioWrite {s : State} : ∀ w k v, exec (.fbkEoRatioWrite w k v) s = execFbkEoRatioWrite w k v s := fun _ _ _ => rfl
theorem exec_fbkEoCfgWrite {s : State} : ∀ w k v, exec (.fbkEoCfgWrite w k v) s = execFbkEoCfgWrite w k v s := fun _ _ _ => rfl
theorem exec_segmentEnd {s : State} : ∀ a, exec (.segmentEnd a) s = execSegmentEnd a s := fun _ => rfl
theorem exec_timeStart {s : State} : ∀ a, exec (.timeStart a) s = execTimeStart a s := fun _ => rfl
theorem exec_stRefill {s : State} : ∀ a, exec (.stRefill a) s = execStRefill a s := fun _ => rfl
theorem exec_segStart {s : State} : ∀ a, exec (.segStart a) s = execSegStart a s := fun _ => rfl
theorem exec_grpStart {s : State} : ∀ g, exec (.grpStart g) s = execGrpStart g s := fun _ => rfl
theorem exec_pwmHold {s : State} : ∀ a, exec (.pwmHold a) s = execPwmHold a s := fun _ => rfl
theorem exec_tmrIn {s : State} : ∀ t, exec (.tmrIn t) s = execTmrIn t s := fun _ => rfl
theorem exec_cap {s : State} : ∀ k, exec (.cap k) s = execCap k s := fun _ => rfl
theorem exec_chsSync {s : State} : ∀ e, exec (.chsSync e) s = execChsSync e s := fun _ => rfl
theorem exec_evcIn {s : State} : ∀ n, exec (.evcIn n) s = execEvcIn n s := fun _ => rfl
theorem exec_cruStart {s : State} : ∀ c k, exec (.cruStart c k) s = execCruStart c k s := fun _ _ => rfl
theorem exec_combArm {s : State} : ∀ k, exec (.combArm k) s = execCombArm k s := fun _ => rfl
theorem exec_combinerFire {s : State} : ∀ k, exec (.combinerFire k) s = execCombinerFire k s := fun _ => rfl
theorem exec_combRearm {s : State} : ∀ w k v, exec (.combRearm w k v) s = execCombRearm w k v s := fun _ _ _ => rfl
theorem exec_importPulse {s : State} : ∀ tgt src k, exec (.importPulse tgt src k) s = execImportPulse tgt src k s := fun _ _ _ => rfl
theorem exec_flxSwfire {s : State} : ∀ w c v, exec (.flxSwfire w c v) s = execFlxSwfire w c v s := fun _ _ _ => rfl
theorem exec_flxWinWrite {s : State} : ∀ w a r v, exec (.flxWinWrite w a r v) s = execFlxWinWrite w a r v s := fun _ _ _ _ => rfl
theorem exec_flxCapTHiSnapRead {s : State} : ∀ k, exec (.flxCapTHiSnapRead k) s = execFlxCapTHiSnapRead k s := fun _ => rfl
theorem exec_flxImportWrite {s : State} : ∀ w c k v, exec (.flxImportWrite w c k v) s = execFlxImportWrite w c k v s := fun _ _ _ _ => rfl
theorem exec_flxGrpWrite {s : State} : ∀ w g r v, exec (.flxGrpWrite w g r v) s = execFlxGrpWrite w g r v s := fun _ _ _ _ => rfl
theorem exec_timerOverflow {s : State} : ∀ t, exec (.timerOverflow t) s = execTimerOverflow t s := fun _ => rfl
theorem exec_timerMatch {s : State} : ∀ t isB, exec (.timerMatch t isB) s = execTimerMatch t isB s := fun _ _ => rfl
theorem exec_timerInputEdge {s : State} : ∀ c b rising, exec (.timerInputEdge c b rising) s = execTimerInputEdge c b rising s := fun _ _ _ => rfl
theorem exec_tmrCntWrite {s : State} : ∀ w t v, exec (.tmrCntWrite w t v) s = execTmrCntWrite w t v s := fun _ _ _ => rfl
theorem exec_tmrCmpWrite {s : State} : ∀ w t isB v, exec (.tmrCmpWrite w t isB v) s = execTmrCmpWrite w t isB v s := fun _ _ _ _ => rfl
theorem exec_tmrOutWrite {s : State} : ∀ w t v, exec (.tmrOutWrite w t v) s = execTmrOutWrite w t v s := fun _ _ _ => rfl
theorem exec_tmrCfgWrite {s : State} : ∀ w t v, exec (.tmrCfgWrite w t v) s = execTmrCfgWrite w t v s := fun _ _ _ => rfl
theorem exec_tmrCntRead {s : State} : ∀ t, exec (.tmrCntRead t) s = execTmrCntRead t s := fun _ => rfl
theorem exec_tmrCapRead {s : State} : ∀ t, exec (.tmrCapRead t) s = execTmrCapRead t s := fun _ => rfl
theorem exec_tmrSnap {s : State} : ∀ w c, exec (.tmrSnap w c) s = execTmrSnap w c s := fun _ _ => rfl
theorem exec_tmrGpioCfgWrite {s : State} : ∀ w c n v, exec (.tmrGpioCfgWrite w c n v) s = execTmrGpioCfgWrite w c n v s := fun _ _ _ _ => rfl
theorem exec_chsNop {s : State} : ∀ e, exec (.chsNop e) s = execChsNop e s := fun _ => rfl
theorem exec_shift {s : State} : ∀ e rx, exec (.shift e rx) s = execShift e rx s := fun _ _ => rfl
theorem exec_expect {s : State} : ∀ e rx, exec (.expect e rx) s = execExpect e rx s := fun _ _ => rfl
theorem exec_waitedge {s : State} : ∀ e, exec (.waitedge e) s = execWaitedge e s := fun _ => rfl
theorem exec_waitedgeEdge {s : State} : ∀ e, exec (.waitedgeEdge e) s = execWaitedgeEdge e s := fun _ => rfl
theorem exec_waitedgeTimeout {s : State} : ∀ e, exec (.waitedgeTimeout e) s = execWaitedgeTimeout e s := fun _ => rfl
theorem exec_countLoad {s : State} : ∀ e, exec (.countLoad e) s = execCountLoad e s := fun _ => rfl
theorem exec_countDecrement {s : State} : ∀ e, exec (.countDecrement e) s = execCountDecrement e s := fun _ => rfl
theorem exec_countWait {s : State} : ∀ e, exec (.countWait e) s = execCountWait e s := fun _ => rfl
theorem exec_emit {s : State} : ∀ e, exec (.emit e) s = execEmit e s := fun _ => rfl
theorem exec_latch {s : State} : ∀ e, exec (.latch e) s = execLatch e s := fun _ => rfl
theorem exec_crcstepInit {s : State} : ∀ e, exec (.crcstepInit e) s = execCrcstepInit e s := fun _ => rfl
theorem exec_crcstepFeed {s : State} : ∀ e, exec (.crcstepFeed e) s = execCrcstepFeed e s := fun _ => rfl
theorem exec_crcstepHalt {s : State} : ∀ e, exec (.crcstepHalt e) s = execCrcstepHalt e s := fun _ => rfl
theorem exec_crcstepCheck {s : State} : ∀ e, exec (.crcstepCheck e) s = execCrcstepCheck e s := fun _ => rfl
theorem exec_branch {s : State} : ∀ e, exec (.branch e) s = execBranch e s := fun _ => rfl
theorem exec_sync {s : State} : ∀ e, exec (.sync e) s = execSync e s := fun _ => rfl
theorem exec_put {s : State} : ∀ e, exec (.put e) s = execPut e s := fun _ => rfl
theorem exec_get {s : State} : ∀ e, exec (.get e) s = execGet e s := fun _ => rfl
theorem exec_ldf {s : State} : ∀ e, exec (.ldf e) s = execLdf e s := fun _ => rfl
theorem exec_clr {s : State} : ∀ e, exec (.clr e) s = execClr e s := fun _ => rfl
theorem exec_chsEnable {s : State} : ∀ w e v, exec (.chsEnable w e v) s = execChsEnable w e v s := fun _ _ _ => rfl
theorem exec_chsDisable {s : State} : ∀ w e v, exec (.chsDisable w e v) s = execChsDisable w e v s := fun _ _ _ => rfl
theorem exec_chsGstart {s : State} : ∀ w c v, exec (.chsGstart w c v) s = execChsGstart w c v s := fun _ _ _ => rfl
theorem exec_chsHold {s : State} : ∀ w e v, exec (.chsHold w e v) s = execChsHold w e v s := fun _ _ _ => rfl
theorem exec_chsResume {s : State} : ∀ w e v, exec (.chsResume w e v) s = execChsResume w e v s := fun _ _ _ => rfl
theorem exec_chsInqWrite {s : State} : ∀ w e v, exec (.chsInqWrite w e v) s = execChsInqWrite w e v s := fun _ _ _ => rfl
theorem exec_chsOutqRead {s : State} : ∀ e, exec (.chsOutqRead e) s = execChsOutqRead e s := fun _ => rfl
theorem exec_chsProgWrite {s : State} : ∀ w e ix v, exec (.chsProgWrite w e ix v) s = execChsProgWrite w e ix v s := fun _ _ _ _ => rfl
theorem exec_triggerArrival {s : State} : ∀ k l, exec (.triggerArrival k l) s = execTriggerArrival k l s := fun _ _ => rfl
theorem exec_triggerDelayMatch {s : State} : ∀ k, exec (.triggerDelayMatch k) s = execTriggerDelayMatch k s := fun _ => rfl
theorem exec_cruTrgDlyWrite {s : State} : ∀ w k v, exec (.cruTrgDlyWrite w k v) s = execCruTrgDlyWrite w k v s := fun _ _ _ => rfl
theorem exec_cruGo {s : State} : ∀ w j v, exec (.cruGo w j v) s = execCruGo w j v s := fun _ _ _ => rfl
theorem exec_integrationEnd {s : State} : ∀ j, exec (.integrationEnd j) s = execIntegrationEnd j s := fun _ => rfl
theorem exec_conversionEnd {s : State} : ∀ j ain exc, exec (.conversionEnd j ain exc) s = execConversionEnd j ain exc s := fun _ _ _ => rfl
theorem exec_cruCfgWrite {s : State} : ∀ w j v, exec (.cruCfgWrite w j v) s = execCruCfgWrite w j v s := fun _ _ _ => rfl
theorem exec_cruRefCtlWrite {s : State} : ∀ w v, exec (.cruRefCtlWrite w v) s = execCruRefCtlWrite w v s := fun _ _ => rfl
theorem exec_refOk {s : State} : exec (.refOk) s = execRefOk s := rfl
theorem exec_excOk {s : State} : ∀ k, exec (.excOk k) s = execExcOk k s := fun _ => rfl
theorem exec_excCurrentLimit {s : State} : ∀ k, exec (.excCurrentLimit k) s = execExcCurrentLimit k s := fun _ => rfl
theorem exec_nop {s : State} : ∀ k, exec (.nop k) s = execNop k s := fun _ => rfl
theorem exec_add {s : State} : ∀ k, exec (.add k) s = execAdd k s := fun _ => rfl
theorem exec_sub {s : State} : ∀ k, exec (.sub k) s = execSub k s := fun _ => rfl
theorem exec_and {s : State} : ∀ k, exec (.and k) s = execAnd k s := fun _ => rfl
theorem exec_or {s : State} : ∀ k, exec (.or k) s = execOr k s := fun _ => rfl
theorem exec_xor {s : State} : ∀ k, exec (.xor k) s = execXor k s := fun _ => rfl
theorem exec_shl {s : State} : ∀ k, exec (.shl k) s = execShl k s := fun _ => rfl
theorem exec_shr {s : State} : ∀ k, exec (.shr k) s = execShr k s := fun _ => rfl
theorem exec_shru {s : State} : ∀ k, exec (.shru k) s = execShru k s := fun _ => rfl
theorem exec_min {s : State} : ∀ k, exec (.min k) s = execMin k s := fun _ => rfl
theorem exec_max {s : State} : ∀ k, exec (.max k) s = execMax k s := fun _ => rfl
theorem exec_mov {s : State} : ∀ k, exec (.mov k) s = execMov k s := fun _ => rfl
theorem exec_neg {s : State} : ∀ k, exec (.neg k) s = execNeg k s := fun _ => rfl
theorem exec_abs {s : State} : ∀ k, exec (.abs k) s = execAbs k s := fun _ => rfl
theorem exec_mfs {s : State} : ∀ k, exec (.mfs k) s = execMfs k s := fun _ => rfl
theorem exec_mts {s : State} : ∀ k, exec (.mts k) s = execMts k s := fun _ => rfl
theorem exec_addi {s : State} : ∀ k, exec (.addi k) s = execAddi k s := fun _ => rfl
theorem exec_andi {s : State} : ∀ k, exec (.andi k) s = execAndi k s := fun _ => rfl
theorem exec_ori {s : State} : ∀ k, exec (.ori k) s = execOri k s := fun _ => rfl
theorem exec_xori {s : State} : ∀ k, exec (.xori k) s = execXori k s := fun _ => rfl
theorem exec_shli {s : State} : ∀ k, exec (.shli k) s = execShli k s := fun _ => rfl
theorem exec_shri {s : State} : ∀ k, exec (.shri k) s = execShri k s := fun _ => rfl
theorem exec_shrui {s : State} : ∀ k, exec (.shrui k) s = execShrui k s := fun _ => rfl
theorem exec_rep {s : State} : ∀ k, exec (.rep k) s = execRep k s := fun _ => rfl
theorem exec_ldi {s : State} : ∀ k, exec (.ldi k) s = execLdi k s := fun _ => rfl
theorem exec_ldih {s : State} : ∀ k, exec (.ldih k) s = execLdih k s := fun _ => rfl
theorem exec_tag {s : State} : ∀ k, exec (.tag k) s = execTag k s := fun _ => rfl
theorem exec_gtag {s : State} : ∀ k, exec (.gtag k) s = execGtag k s := fun _ => rfl
theorem exec_cmp {s : State} : ∀ k, exec (.cmp k) s = execCmp k s := fun _ => rfl
theorem exec_cmpi {s : State} : ∀ k, exec (.cmpi k) s = execCmpi k s := fun _ => rfl
theorem exec_plog {s : State} : ∀ k, exec (.plog k) s = execPlog k s := fun _ => rfl
theorem exec_repn {s : State} : ∀ k, exec (.repn k) s = execRepn k s := fun _ => rfl
theorem exec_mul {s : State} : ∀ k, exec (.mul k) s = execMul k s := fun _ => rfl
theorem exec_mulh {s : State} : ∀ k, exec (.mulh k) s = execMulh k s := fun _ => rfl
theorem exec_mac {s : State} : ∀ k, exec (.mac k) s = execMac k s := fun _ => rfl
theorem exec_fadd {s : State} : ∀ k, exec (.fadd k) s = execFadd k s := fun _ => rfl
theorem exec_fsub {s : State} : ∀ k, exec (.fsub k) s = execFsub k s := fun _ => rfl
theorem exec_fmul {s : State} : ∀ k, exec (.fmul k) s = execFmul k s := fun _ => rfl
theorem exec_fcmp {s : State} : ∀ k, exec (.fcmp k) s = execFcmp k s := fun _ => rfl
theorem exec_fcvt {s : State} : ∀ k, exec (.fcvt k) s = execFcvt k s := fun _ => rfl
theorem exec_sqrt {s : State} : ∀ k, exec (.sqrt k) s = execSqrt k s := fun _ => rfl
theorem exec_div {s : State} : ∀ k, exec (.div k) s = execDiv k s := fun _ => rfl
theorem exec_rem {s : State} : ∀ k, exec (.rem k) s = execRem k s := fun _ => rfl
theorem exec_sincos {s : State} : ∀ k, exec (.sincos k) s = execSincos k s := fun _ => rfl
theorem exec_atan2 {s : State} : ∀ k, exec (.atan2 k) s = execAtan2 k s := fun _ => rfl
theorem exec_ina {s : State} : ∀ k, exec (.ina k) s = execIna k s := fun _ => rfl
theorem exec_chkpt {s : State} : ∀ k, exec (.chkpt k) s = execChkpt k s := fun _ => rfl
theorem exec_syncS {s : State} : ∀ k, exec (.syncS k) s = execSyncS k s := fun _ => rfl
theorem exec_ld {s : State} : ∀ k, exec (.ld k) s = execLd k s := fun _ => rfl
theorem exec_ldr {s : State} : ∀ k, exec (.ldr k) s = execLdr k s := fun _ => rfl
theorem exec_st {s : State} : ∀ k, exec (.st k) s = execSt k s := fun _ => rfl
theorem exec_str {s : State} : ∀ k, exec (.str k) s = execStr k s := fun _ => rfl
theorem exec_ldb {s : State} : ∀ k, exec (.ldb k) s = execLdb k s := fun _ => rfl
theorem exec_stb {s : State} : ∀ k, exec (.stb k) s = execStb k s := fun _ => rfl
theorem exec_ldx {s : State} : ∀ k, exec (.ldx k) s = execLdx k s := fun _ => rfl
theorem exec_stx {s : State} : ∀ k, exec (.stx k) s = execStx k s := fun _ => rfl
theorem exec_movbk {s : State} : ∀ k, exec (.movbk k) s = execMovbk k s := fun _ => rfl
theorem exec_callg {s : State} : ∀ k, exec (.callg k) s = execCallg k s := fun _ => rfl
theorem exec_br {s : State} : ∀ k, exec (.br k) s = execBr k s := fun _ => rfl
theorem exec_call {s : State} : ∀ k, exec (.call k) s = execCall k s := fun _ => rfl
theorem exec_jr {s : State} : ∀ k, exec (.jr k) s = execJr k s := fun _ => rfl
theorem exec_retg {s : State} : ∀ k, exec (.retg k) s = execRetg k s := fun _ => rfl
theorem exec_reti {s : State} : ∀ k, exec (.reti k) s = execReti k s := fun _ => rfl
theorem exec_wait {s : State} : ∀ k, exec (.wait k) s = execWait k s := fun _ => rfl
theorem exec_waitEnd {s : State} : ∀ k, exec (.waitEnd k) s = execWaitEnd k s := fun _ => rfl
theorem exec_brk {s : State} : ∀ k, exec (.brk k) s = execBrk k s := fun _ => rfl
theorem exec_trap {s : State} : ∀ k, exec (.trap k) s = execTrap k s := fun _ => rfl
theorem exec_undefEncoding {s : State} : ∀ k, exec (.undefEncoding k) s = execUndefEncoding k s := fun _ => rfl
theorem exec_sideUnitResult {s : State} : ∀ k n, exec (.sideUnitResult k n) s = execSideUnitResult k n s := fun _ _ => rfl
theorem exec_loadComplete {s : State} : ∀ k, exec (.loadComplete k) s = execLoadComplete k s := fun _ => rfl
theorem exec_storeComplete {s : State} : ∀ k n, exec (.storeComplete k n) s = execStoreComplete k n s := fun _ _ => rfl
theorem exec_lateStoreError {s : State} : ∀ k, exec (.lateStoreError k) s = execLateStoreError k s := fun _ => rfl
theorem exec_interruptRecognition {s : State} : ∀ k, exec (.interruptRecognition k) s = execInterruptRecognition k s := fun _ => rfl
theorem exec_coreWdtExpiry {s : State} : ∀ k, exec (.coreWdtExpiry k) s = execCoreWdtExpiry k s := fun _ => rfl
theorem exec_anvWdtKick {s : State} : ∀ w k v, exec (.anvWdtKick w k v) s = execAnvWdtKick w k v s := fun _ _ _ => rfl
theorem exec_clusterWdtExpiry {s : State} : ∀ c, exec (.clusterWdtExpiry c) s = execClusterWdtExpiry c s := fun _ => rfl
theorem exec_clusterWdtWarning {s : State} : ∀ c, exec (.clusterWdtWarning c) s = execClusterWdtWarning c s := fun _ => rfl
theorem exec_anvCwdtKick {s : State} : ∀ w c v, exec (.anvCwdtKick w c v) s = execAnvCwdtKick w c v s := fun _ _ _ => rfl
theorem exec_ingBankOwnWrite {s : State} : ∀ w b v, exec (.ingBankOwnWrite w b v) s = execIngBankOwnWrite w b v s := fun _ _ _ => rfl
theorem exec_ownerHandover {s : State} : ∀ b, exec (.ownerHandover b) s = execOwnerHandover b s := fun _ => rfl
theorem exec_marchTestEnd {s : State} : ∀ b first, exec (.marchTestEnd b first) s = execMarchTestEnd b first s := fun _ _ => rfl
theorem exec_patrolScrub {s : State} : exec (.patrolScrub) s = execPatrolScrub s := rfl
theorem exec_bar2Access {s : State} : ∀ wr poisoned x ps, exec (.bar2Access wr poisoned x ps) s = execBar2Access wr poisoned x ps s := fun _ _ _ _ => rfl
theorem exec_outputCompare {s : State} : ∀ q, exec (.outputCompare q) s = execOutputCompare q s := fun _ => rfl
theorem exec_checkpointCompare {s : State} : ∀ q, exec (.checkpointCompare q) s = execCheckpointCompare q s := fun _ => rfl
theorem exec_lagExpiry {s : State} : ∀ q, exec (.lagExpiry q) s = execLagExpiry q s := fun _ => rfl
theorem exec_reqSplit {s : State} : ∀ w q, exec (.reqSplit w q) s = execReqSplit w q s := fun _ _ => rfl
theorem exec_reqMerge {s : State} : ∀ w q, exec (.reqMerge w q) s = execReqMerge w q s := fun _ _ => rfl
theorem exec_splitApply {s : State} : ∀ q, exec (.splitApply q) s = execSplitApply q s := fun _ => rfl
theorem exec_mergeCopy {s : State} : ∀ q, exec (.mergeCopy q) s = execMergeCopy q s := fun _ => rfl
theorem exec_mergeComplete {s : State} : ∀ q, exec (.mergeComplete q) s = execMergeComplete q s := fun _ => rfl
theorem exec_asyInaMapWrite {s : State} : ∀ w c n v, exec (.asyInaMapWrite w c n v) s = execAsyInaMapWrite w c n v s := fun _ _ _ _ => rfl
theorem exec_configRequest {s : State} : ∀ q, exec (.configRequest q) s = execConfigRequest q s := fun _ => rfl
theorem exec_bar0Request {s : State} : ∀ wr poisoned off len lo hi, exec (.bar0Request wr poisoned off len lo hi) s = execBar0Request wr poisoned off len lo hi s := fun _ _ _ _ _ _ => rfl
theorem exec_hostCompletionError {s : State} : ∀ sq fetch poison n, exec (.hostCompletionError sq fetch poison n) s = execHostCompletionError sq fetch poison n s := fun _ _ _ _ => rfl
theorem exec_completionTimeout {s : State} : ∀ sq fetch n, exec (.completionTimeout sq fetch n) s = execCompletionTimeout sq fetch n s := fun _ _ _ => rfl
theorem exec_perstAssert {s : State} : exec (.perstAssert) s = execPerstAssert s := rfl
theorem exec_perstRelease {s : State} : ∀ refclk, exec (.perstRelease refclk) s = execPerstRelease refclk s := fun _ => rfl
theorem exec_dlDown {s : State} : exec (.dlDown) s = execDlDown s := rfl
theorem exec_linkRetrain {s : State} : ∀ w v gen width, exec (.linkRetrain w v gen width) s = execLinkRetrain w v gen width s := fun _ _ _ _ => rfl
theorem exec_d3hotEntry {s : State} : exec (.d3hotEntry) s = execD3hotEntry s := rfl
theorem exec_d0Return {s : State} : exec (.d0Return) s = execD0Return s := rfl
theorem exec_msixTimeout {s : State} : ∀ v, exec (.msixTimeout v) s = execMsixTimeout v s := fun _ => rfl
theorem exec_msixUnmask {s : State} : ∀ v, exec (.msixUnmask v) s = execMsixUnmask v s := fun _ => rfl
theorem exec_doorbell {s : State} : ∀ w r v, exec (.doorbell w r v) s = execDoorbell w r v s := fun _ _ _ => rfl
theorem exec_descriptorFetch {s : State} : ∀ r, exec (.descriptorFetch r) s = execDescriptorFetch r s := fun _ => rfl
theorem exec_completionWrite {s : State} : ∀ r, exec (.completionWrite r) s = execCompletionWrite r s := fun _ => rfl
theorem exec_eventRecordWrite {s : State} : ∀ q, exec (.eventRecordWrite q) s = execEventRecordWrite q s := fun _ => rfl
theorem exec_ldlAdminCtlWrite {s : State} : ∀ w v, exec (.ldlAdminCtlWrite w v) s = execLdlAdminCtlWrite w v s := fun _ _ => rfl
theorem exec_cmdNop {s : State} : ∀ sq, exec (.cmdNop sq) s = execCmdNop sq s := fun _ => rfl
theorem exec_identify {s : State} : ∀ sq, exec (.identify sq) s = execIdentify sq s := fun _ => rfl
theorem exec_ringCreate {s : State} : ∀ sq, exec (.ringCreate sq) s = execRingCreate sq s := fun _ => rfl
theorem exec_ringDelete {s : State} : ∀ sq, exec (.ringDelete sq) s = execRingDelete sq s := fun _ => rfl
theorem exec_evtRoute {s : State} : ∀ sq, exec (.evtRoute sq) s = execEvtRoute sq s := fun _ => rfl
theorem exec_resetCluster {s : State} : ∀ sq, exec (.resetCluster sq) s = execResetCluster sq s := fun _ => rfl
theorem exec_resetHostIsland {s : State} : ∀ sq, exec (.resetHostIsland sq) s = execResetHostIsland sq s := fun _ => rfl
theorem exec_resetDevice {s : State} : ∀ sq, exec (.resetDevice sq) s = execResetDevice sq s := fun _ => rfl
theorem exec_resetCommandEffect {s : State} : exec (.resetCommandEffect) s = execResetCommandEffect s := rfl
theorem exec_sessionNonce {s : State} : ∀ sq, exec (.sessionNonce sq) s = execSessionNonce sq s := fun _ => rfl
theorem exec_sessionOpen {s : State} : ∀ sq, exec (.sessionOpen sq) s = execSessionOpen sq s := fun _ => rfl
theorem exec_axisAdmit {s : State} : ∀ sq, exec (.axisAdmit sq) s = execAxisAdmit sq s := fun _ => rfl
theorem exec_axisRetire {s : State} : ∀ sq, exec (.axisRetire sq) s = execAxisRetire sq s := fun _ => rfl
theorem exec_axisEnableArm {s : State} : ∀ sq, exec (.axisEnableArm sq) s = execAxisEnableArm sq s := fun _ => rfl
theorem exec_axisEnable {s : State} : ∀ sq, exec (.axisEnable sq) s = execAxisEnable sq s := fun _ => rfl
theorem exec_axisDisableRamp {s : State} : ∀ sq, exec (.axisDisableRamp sq) s = execAxisDisableRamp sq s := fun _ => rfl
theorem exec_axisDisableSto {s : State} : ∀ sq, exec (.axisDisableSto sq) s = execAxisDisableSto sq s := fun _ => rfl
theorem exec_lawLoad {s : State} : ∀ sq, exec (.lawLoad sq) s = execLawLoad sq s := fun _ => rfl
theorem exec_gainsetWrite {s : State} : ∀ sq, exec (.gainsetWrite sq) s = execGainsetWrite sq s := fun _ => rfl
theorem exec_segAppend {s : State} : ∀ sq, exec (.segAppend sq) s = execSegAppend sq s := fun _ => rfl
theorem exec_segFlush {s : State} : ∀ sq, exec (.segFlush sq) s = execSegFlush sq s := fun _ => rfl
theorem exec_segStreamBind {s : State} : ∀ sq, exec (.segStreamBind sq) s = execSegStreamBind sq s := fun _ => rfl
theorem exec_segStreamUnbind {s : State} : ∀ sq, exec (.segStreamUnbind sq) s = execSegStreamUnbind sq s := fun _ => rfl
theorem exec_camLoad {s : State} : ∀ sq, exec (.camLoad sq) s = execCamLoad sq s := fun _ => rfl
theorem exec_groupSet {s : State} : ∀ sq, exec (.groupSet sq) s = execGroupSet sq s := fun _ => rfl
theorem exec_setpointPut {s : State} : ∀ sq, exec (.setpointPut sq) s = execSetpointPut sq s := fun _ => rfl
theorem exec_fluxFire {s : State} : ∀ sq, exec (.fluxFire sq) s = execFluxFire sq s := fun _ => rfl
theorem exec_feederPollSet {s : State} : ∀ sq, exec (.feederPollSet sq) s = execFeederPollSet sq s := fun _ => rfl
theorem exec_feederRead {s : State} : ∀ sq, exec (.feederRead sq) s = execFeederRead sq s := fun _ => rfl
theorem exec_feederCmd {s : State} : ∀ sq, exec (.feederCmd sq) s = execFeederCmd sq s := fun _ => rfl
theorem exec_captureStart {s : State} : ∀ sq, exec (.captureStart sq) s = execCaptureStart sq s := fun _ => rfl
theorem exec_captureStop {s : State} : ∀ sq, exec (.captureStop sq) s = execCaptureStop sq s := fun _ => rfl
theorem exec_tmrSnapshot {s : State} : ∀ sq, exec (.tmrSnapshot sq) s = execTmrSnapshot sq s := fun _ => rfl
theorem exec_cruConvert {s : State} : ∀ sq, exec (.cruConvert sq) s = execCruConvert sq s := fun _ => rfl
theorem exec_seamMboxSend {s : State} : ∀ sq, exec (.seamMboxSend sq) s = execSeamMboxSend sq s := fun _ => rfl
theorem exec_seamEvent {s : State} : ∀ sq, exec (.seamEvent sq) s = execSeamEvent sq s := fun _ => rfl
theorem exec_seamMemberJoin {s : State} : ∀ sq, exec (.seamMemberJoin sq) s = execSeamMemberJoin sq s := fun _ => rfl
theorem exec_seamMemberLeave {s : State} : ∀ sq, exec (.seamMemberLeave sq) s = execSeamMemberLeave sq s := fun _ => rfl
theorem exec_flashRead {s : State} : ∀ sq, exec (.flashRead sq) s = execFlashRead sq s := fun _ => rfl
theorem exec_flashErase {s : State} : ∀ sq, exec (.flashErase sq) s = execFlashErase sq s := fun _ => rfl
theorem exec_flashProgram {s : State} : ∀ sq, exec (.flashProgram sq) s = execFlashProgram sq s := fun _ => rfl
theorem exec_regionWrite {s : State} : ∀ sq, exec (.regionWrite sq) s = execRegionWrite sq s := fun _ => rfl
theorem exec_regionRead {s : State} : ∀ sq, exec (.regionRead sq) s = execRegionRead sq s := fun _ => rfl
theorem exec_fwUpdate {s : State} : ∀ sq, exec (.fwUpdate sq) s = execFwUpdate sq s := fun _ => rfl
theorem exec_fwSelect {s : State} : ∀ sq, exec (.fwSelect sq) s = execFwSelect sq s := fun _ => rfl
theorem exec_sessionClose {s : State} : ∀ sq, exec (.sessionClose sq) s = execSessionClose sq s := fun _ => rfl
theorem exec_authMark {s : State} : ∀ sq, exec (.authMark sq) s = execAuthMark sq s := fun _ => rfl
theorem exec_lifecycleSet {s : State} : ∀ sq, exec (.lifecycleSet sq) s = execLifecycleSet sq s := fun _ => rfl
theorem exec_securityStatus {s : State} : ∀ sq, exec (.securityStatus sq) s = execSecurityStatus sq s := fun _ => rfl
theorem exec_provision {s : State} : ∀ sq, exec (.provision sq) s = execProvision sq s := fun _ => rfl
theorem exec_evcDump {s : State} : ∀ sq, exec (.evcDump sq) s = execEvcDump sq s := fun _ => rfl
theorem exec_bankMarch {s : State} : ∀ sq, exec (.bankMarch sq) s = execBankMarch sq s := fun _ => rfl
theorem exec_touchmarkRead {s : State} : ∀ sq, exec (.touchmarkRead sq) s = execTouchmarkRead sq s := fun _ => rfl
theorem exec_debugChallenge {s : State} : ∀ sq, exec (.debugChallenge sq) s = execDebugChallenge sq s := fun _ => rfl
theorem exec_debugUnlock {s : State} : ∀ sq, exec (.debugUnlock sq) s = execDebugUnlock sq s := fun _ => rfl
theorem exec_debugLock {s : State} : ∀ sq, exec (.debugLock sq) s = execDebugLock sq s := fun _ => rfl
theorem exec_peek {s : State} : ∀ sq, exec (.peek sq) s = execPeek sq s := fun _ => rfl
theorem exec_memRead {s : State} : ∀ sq, exec (.memRead sq) s = execMemRead sq s := fun _ => rfl
theorem exec_memWrite {s : State} : ∀ sq, exec (.memWrite sq) s = execMemWrite sq s := fun _ => rfl
theorem exec_memCopy {s : State} : ∀ sq, exec (.memCopy sq) s = execMemCopy sq s := fun _ => rfl
theorem exec_memFill {s : State} : ∀ sq, exec (.memFill sq) s = execMemFill sq s := fun _ => rfl
theorem exec_coreLoad {s : State} : ∀ sq, exec (.coreLoad sq) s = execCoreLoad sq s := fun _ => rfl
theorem exec_coreStart {s : State} : ∀ sq, exec (.coreStart sq) s = execCoreStart sq s := fun _ => rfl
theorem exec_coreReset {s : State} : ∀ sq, exec (.coreReset sq) s = execCoreReset sq s := fun _ => rfl
theorem exec_pairSplit {s : State} : ∀ sq, exec (.pairSplit sq) s = execPairSplit sq s := fun _ => rfl
theorem exec_pairMerge {s : State} : ∀ sq, exec (.pairMerge sq) s = execPairMerge sq s := fun _ => rfl
theorem exec_engineGstart {s : State} : ∀ sq, exec (.engineGstart sq) s = execEngineGstart sq s := fun _ => rfl
theorem exec_solderRoundStart {s : State} : ∀ p, exec (.solderRoundStart p) s = execSolderRoundStart p s := fun _ => rfl
theorem exec_slotPoll {s : State} : ∀ p r, exec (.slotPoll p r) s = execSlotPoll p r s := fun _ _ => rfl
theorem exec_slotRead {s : State} : ∀ p r, exec (.slotRead p r) s = execSlotRead p r s := fun _ _ => rfl
theorem exec_slotCmd {s : State} : ∀ p r, exec (.slotCmd p r) s = execSlotCmd p r s := fun _ _ => rfl
theorem exec_slotBroadcast {s : State} : ∀ p, exec (.slotBroadcast p) s = execSlotBroadcast p s := fun _ => rfl
theorem exec_sldListReq {s : State} : ∀ w p v, exec (.sldListReq w p v) s = execSldListReq w p v s := fun _ _ _ => rfl
theorem exec_sldCmdPendWrite {s : State} : ∀ w p ix v, exec (.sldCmdPendWrite w p ix v) s = execSldCmdPendWrite w p ix v s := fun _ _ _ _ => rfl
theorem exec_sldCtlWrite {s : State} : ∀ w p v, exec (.sldCtlWrite w p v) s = execSldCtlWrite w p v s := fun _ _ _ => rfl
theorem exec_seamCycleStart {s : State} : exec (.seamCycleStart) s = execSeamCycleStart s := rfl
theorem exec_timeFrame {s : State} : ∀ a f, exec (.timeFrame a f) s = execTimeFrame a f s := fun _ _ => rfl
theorem exec_cyclicFrame {s : State} : ∀ a f, exec (.cyclicFrame a f) s = execCyclicFrame a f s := fun _ _ => rfl
theorem exec_eventFrame {s : State} : ∀ a f, exec (.eventFrame a f) s = execEventFrame a f s := fun _ _ => rfl
theorem exec_seamEventFire {s : State} : ∀ c k, exec (.seamEventFire c k) s = execSeamEventFire c k s := fun _ _ => rfl
theorem exec_mboxFrame {s : State} : ∀ a f, exec (.mboxFrame a f) s = execMboxFrame a f s := fun _ _ => rfl
theorem exec_mboxAckFrame {s : State} : ∀ a f, exec (.mboxAckFrame a f) s = execMboxAckFrame a f s := fun _ _ => rfl
theorem exec_mboxResend {s : State} : ∀ n, exec (.mboxResend n) s = execMboxResend n s := fun _ => rfl
theorem exec_epochFrame {s : State} : ∀ a f, exec (.epochFrame a f) s = execEpochFrame a f s := fun _ _ => rfl
theorem exec_epochBoundary {s : State} : exec (.epochBoundary) s = execEpochBoundary s := rfl
theorem exec_probeFrame {s : State} : ∀ a f, exec (.probeFrame a f) s = execProbeFrame a f s := fun _ _ => rfl
theorem exec_probeReplyFrame {s : State} : ∀ a f, exec (.probeReplyFrame a f) s = execProbeReplyFrame a f s := fun _ _ => rfl
theorem exec_joinFrame {s : State} : ∀ a f, exec (.joinFrame a f) s = execJoinFrame a f s := fun _ _ => rfl
theorem exec_leaveFrame {s : State} : ∀ a f, exec (.leaveFrame a f) s = execLeaveFrame a f s := fun _ _ => rfl
theorem exec_claimFrame {s : State} : ∀ a f, exec (.claimFrame a f) s = execClaimFrame a f s := fun _ _ => rfl
theorem exec_timeFrameLoss {s : State} : exec (.timeFrameLoss) s = execTimeFrameLoss s := rfl
theorem exec_keeperElected {s : State} : exec (.keeperElected) s = execKeeperElected s := rfl
theorem exec_portDown {s : State} : ∀ n crc, exec (.portDown n crc) s = execPortDown n crc s := fun _ _ => rfl
theorem exec_portUp {s : State} : ∀ n, exec (.portUp n) s = execPortUp n s := fun _ => rfl
theorem exec_semCtlWrite {s : State} : ∀ w v, exec (.semCtlWrite w v) s = execSemCtlWrite w v s := fun _ _ => rfl
theorem exec_semMbxRel {s : State} : ∀ w v, exec (.semMbxRel w v) s = execSemMbxRel w v s := fun _ _ => rfl
theorem exec_pageProgramDone {s : State} : ∀ bad, exec (.pageProgramDone bad) s = execPageProgramDone bad s := fun _ => rfl
theorem exec_eraseDone {s : State} : ∀ bad, exec (.eraseDone bad) s = execEraseDone bad s := fun _ => rfl
theorem exec_eraseResume {s : State} : exec (.eraseResume) s = execEraseResume s := rfl
theorem exec_eraseForced {s : State} : exec (.eraseForced) s = execEraseForced s := rfl
theorem exec_touchmarkCommit {s : State} : exec (.touchmarkCommit) s = execTouchmarkCommit s := rfl
theorem exec_suppliesValid {s : State} : ∀ vcore vaux, exec (.suppliesValid vcore vaux) s = execSuppliesValid vcore vaux s := fun _ _ => rfl
theorem exec_supplyWarning {s : State} : ∀ aux mv, exec (.supplyWarning aux mv) s = execSupplyWarning aux mv s := fun _ _ => rfl
theorem exec_supplyRecovered {s : State} : ∀ aux mv low, exec (.supplyRecovered aux mv low) s = execSupplyRecovered aux mv low s := fun _ _ _ => rfl
theorem exec_supplyResetLevel {s : State} : ∀ aux mv other, exec (.supplyResetLevel aux mv other) s = execSupplyResetLevel aux mv other s := fun _ _ _ => rfl
theorem exec_holdupCharged {s : State} : ∀ mv, exec (.holdupCharged mv) s = execHoldupCharged mv s := fun _ => rfl
theorem exec_entropyFail {s : State} : ∀ test, exec (.entropyFail test) s = execEntropyFail test s := fun _ => rfl
theorem exec_entropyRetest {s : State} : exec (.entropyRetest) s = execEntropyRetest s := rfl
theorem exec_nonceExpiry {s : State} : exec (.nonceExpiry) s = execNonceExpiry s := rfl
theorem exec_challengeExpiry {s : State} : ∀ tap, exec (.challengeExpiry tap) s = execChallengeExpiry tap s := fun _ => rfl
theorem exec_sysRstN {s : State} : exec (.sysRstN) s = execSysRstN s := rfl
theorem exec_hallmarkReset {s : State} : exec (.hallmarkReset) s = execHallmarkReset s := rfl
theorem exec_deviceWdtExpiry {s : State} : exec (.deviceWdtExpiry) s = execDeviceWdtExpiry s := rfl
theorem exec_tchWdtKick {s : State} : ∀ w v, exec (.tchWdtKick w v) s = execTchWdtKick w v s := fun _ _ => rfl
theorem exec_startup {s : State} : ∀ bm, exec (.startup bm) s = execStartup bm s := fun _ => rfl
theorem exec_pllLock {s : State} : exec (.pllLock) s = execPllLock s := rfl
theorem exec_ddr4InitDone {s : State} : exec (.ddr4InitDone) s = execDdr4InitDone s := rfl
theorem exec_fwReady {s : State} : exec (.fwReady) s = execFwReady s := rfl
theorem exec_clusterRelease {s : State} : ∀ w c imgs, exec (.clusterRelease w c imgs) s = execClusterRelease w c imgs s := fun _ _ _ => rfl
theorem exec_clRelClear {s : State} : ∀ w c, exec (.clRelClear w c) s = execClRelClear w c s := fun _ _ => rfl
theorem exec_extest {s : State} : ∀ si, exec (.extest si) s = execExtest si s := fun _ => rfl
theorem exec_samplePreload {s : State} : ∀ si, exec (.samplePreload si) s = execSamplePreload si s := fun _ => rfl
theorem exec_idcode {s : State} : exec (.idcode) s = execIdcode s := rfl
theorem exec_bypass {s : State} : ∀ ir, exec (.bypass ir) s = execBypass ir s := fun _ => rfl
theorem exec_dapChal {s : State} : exec (.dapChal) s = execDapChal s := rfl
theorem exec_dapResp {s : State} : ∀ sig level, exec (.dapResp sig level) s = execDapResp sig level s := fun _ _ => rfl
theorem exec_tapGrant {s : State} : exec (.tapGrant) s = execTapGrant s := rfl
theorem exec_dapCtl {s : State} : ∀ v, exec (.dapCtl v) s = execDapCtl v s := fun _ => rfl
theorem exec_dapAcc {s : State} : exec (.dapAcc) s = execDapAcc s := rfl
theorem exec_dapRead {s : State} : ∀ addr, exec (.dapRead addr) s = execDapRead addr s := fun _ => rfl
theorem exec_dapConsume {s : State} : ∀ addr, exec (.dapConsume addr) s = execDapConsume addr s := fun _ => rfl
theorem exec_dapWrite {s : State} : ∀ addr v tag, exec (.dapWrite addr v tag) s = execDapWrite addr v tag s := fun _ _ _ => rfl
theorem exec_dapAccessDone {s : State} : exec (.dapAccessDone) s = execDapAccessDone s := rfl
theorem exec_trstN {s : State} : exec (.trstN) s = execTrstN s := rfl
theorem exec_dbgHalt {s : State} : ∀ c, exec (.dbgHalt c) s = execDbgHalt c s := fun _ => rfl
theorem exec_dbgRelease {s : State} : ∀ cs, exec (.dbgRelease cs) s = execDbgRelease cs s := fun _ => rfl
theorem exec_benchHalt {s : State} : ∀ j, exec (.benchHalt j) s = execBenchHalt j s := fun _ => rfl
theorem exec_benchRelease {s : State} : ∀ js, exec (.benchRelease js) s = execBenchRelease js s := fun _ => rfl
theorem exec_dbgStep {s : State} : exec (.dbgStep) s = execDbgStep s := rfl
theorem exec_dbgWdtFreeze {s : State} : ∀ w v, exec (.dbgWdtFreeze w v) s = execDbgWdtFreeze w v s := fun _ _ => rfl
theorem exec_evcThreshold {s : State} : ∀ e, exec (.evcThreshold e) s = execEvcThreshold e s := fun _ => rfl
theorem exec_evcOverflow {s : State} : ∀ e, exec (.evcOverflow e) s = execEvcOverflow e s := fun _ => rfl
theorem exec_evcThrHiWrite {s : State} : ∀ w e v, exec (.evcThrHiWrite w e v) s = execEvcThrHiWrite w e v s := fun _ _ _ => rfl
theorem exec_evcClr {s : State} : ∀ w e v, exec (.evcClr w e v) s = execEvcClr w e v s := fun _ _ _ => rfl
theorem exec_evcGsnap {s : State} : ∀ w v, exec (.evcGsnap w v) s = execEvcGsnap w v s := fun _ _ => rfl
theorem exec_evcCntLoRead {s : State} : ∀ e, exec (.evcCntLoRead e) s = execEvcCntLoRead e s := fun _ => rfl
theorem exec_captureRecord {s : State} : ∀ k full, exec (.captureRecord k full) s = execCaptureRecord k full s := fun _ _ => rfl
theorem exec_disagreementEnd {s : State} : ∀ e, exec (.disagreementEnd e) s = execDisagreementEnd e s := fun _ => rfl
theorem exec_commandTimeout {s : State} : ∀ sq, exec (.commandTimeout sq) s = execCommandTimeout sq s := fun _ => rfl
theorem exec_encoderOutputEdge {s : State} : ∀ k, exec (.encoderOutputEdge k) s = execEncoderOutputEdge k s := fun _ => rfl
theorem exec_switchEdge {s : State} : ∀ a ph low turnOn, exec (.switchEdge a ph low turnOn) s = execSwitchEdge a ph low turnOn s := fun _ _ _ _ => rfl
theorem exec_pcieLinkUp {s : State} : ∀ gen width rev, exec (.pcieLinkUp gen width rev) s = execPcieLinkUp gen width rev s := fun _ _ _ => rfl
theorem exec_l1Entry {s : State} : exec (.l1Entry) s = execL1Entry s := rfl
theorem exec_l1Exit {s : State} : exec (.l1Exit) s = execL1Exit s := rfl
theorem exec_probeSend {s : State} : ∀ a, exec (.probeSend a) s = execProbeSend a s := fun _ => rfl
theorem exec_claimSend {s : State} : exec (.claimSend) s = execClaimSend s := rfl

end Sys2Proof.Machine
end

