-- ==== Sys2Proof/Laws/Map.lean ====
section
/-!
SUPPORT. The laws of maps: what a key reads after an update, and that every update keeps the canonical form.
-/
namespace Sys2Proof.Machine

/-! ## Reading after an update -/

theorem alookup_aerase_same {α : Type} (k : Nat) (l : List (Nat × α)) : alookup k (aerase k l) = none := by
  induction l with
  | nil => rfl
  | cons e l ih =>
    obtain ⟨j, v⟩ := e
    by_cases h : j = k <;> simp [aerase, alookup, h, ih]

theorem alookup_aerase_ne {α : Type} {j k : Nat} (h : j ≠ k) (l : List (Nat × α)) :
    alookup j (aerase k l) = alookup j l := by
  induction l with
  | nil => rfl
  | cons e l ih =>
    obtain ⟨i, v⟩ := e
    by_cases hk : i = k
    · have : i ≠ j := by omega
      simp [aerase, alookup, hk, ih]; omega
    · simp [aerase, alookup, hk, ih]

theorem alookup_ainsert_same {α : Type} (k : Nat) (v : α) (l : List (Nat × α)) (h : alookup k l = none) :
    alookup k (ainsert k v l) = some v := by
  induction l with
  | nil => simp [ainsert, alookup]
  | cons e l ih =>
    obtain ⟨j, w⟩ := e
    by_cases hj : j = k
    · simp [alookup, hj] at h
    · simp [alookup, hj] at h
      by_cases hk : k < j <;> simp [ainsert, alookup, hk, hj, ih h]

theorem alookup_ainsert_ne {α : Type} {j k : Nat} (h : j ≠ k) (v : α) (l : List (Nat × α)) :
    alookup j (ainsert k v l) = alookup j l := by
  induction l with
  | nil => simp [ainsert, alookup]; omega
  | cons e l ih =>
    obtain ⟨i, w⟩ := e
    by_cases hk : k < i
    · simp [ainsert, alookup, hk]; intro; omega
    · simp [ainsert, alookup, hk, ih]

@[simp] theorem mget_mset_same {α : Type} [DecidableEq α] (dflt : α) (m : SMap α) (k : Nat) (v : α) :
    mget dflt (mset dflt m k v) k = v := by
  unfold mget mset
  split
  · simp [alookup_aerase_same, *]
  · simp [alookup_ainsert_same, alookup_aerase_same]

theorem mget_mset_ne {α : Type} [DecidableEq α] (dflt d2 : α) (m : SMap α) {j k : Nat} (h : j ≠ k) (v : α) :
    mget d2 (mset dflt m k v) j = mget d2 m j := by
  unfold mget mset
  split
  · simp [alookup_aerase_ne h]
  · simp [alookup_ainsert_ne h, alookup_aerase_ne h]

theorem alookup_mset_same {α : Type} [DecidableEq α] (dflt : α) (m : SMap α) (k : Nat) (v : α) :
    alookup k (mset dflt m k v).entries = if v = dflt then none else some v := by
  unfold mset
  split
  · simp [alookup_aerase_same]
  · simp [alookup_ainsert_same, alookup_aerase_same]

theorem alookup_mset_ne {α : Type} [DecidableEq α] (dflt : α) (m : SMap α) {j k : Nat} (h : j ≠ k) (v : α) :
    alookup j (mset dflt m k v).entries = alookup j m.entries := by
  unfold mset
  split
  · simp [alookup_aerase_ne h]
  · simp [alookup_ainsert_ne h, alookup_aerase_ne h]

/-! ## The canonical form -/

theorem keysRise_cons {α : Type} (e : Nat × α) (l : List (Nat × α)) :
    keysRise (e :: l) = true ↔ (∀ x ∈ l, e.1 < x.1) ∧ keysRise l = true := by
  induction l generalizing e with
  | nil => simp [keysRise]
  | cons y l ih =>
    obtain ⟨j, w⟩ := e
    obtain ⟨k, u⟩ := y
    have hy := ih (k, u)
    simp only [keysRise, Bool.and_eq_true, decide_eq_true_eq, List.mem_cons, forall_eq_or_imp]
    constructor
    · rintro ⟨hjk, hr⟩
      have hr2 := hr
      rw [hy] at hr2
      exact ⟨⟨hjk, fun x hx => Nat.lt_trans hjk (hr2.1 x hx)⟩, hr⟩
    · rintro ⟨⟨hjk, _⟩, hr⟩
      exact ⟨hjk, hr⟩

theorem mem_aerase {α : Type} (k : Nat) (l : List (Nat × α)) (x : Nat × α) :
    x ∈ aerase k l ↔ x ∈ l ∧ x.1 ≠ k := by
  induction l with
  | nil => simp [aerase]
  | cons e l ih =>
    obtain ⟨j, v⟩ := e
    by_cases h : j = k
    · simp only [aerase, h, ↓reduceIte, ih, List.mem_cons]
      constructor
      · rintro ⟨a, b⟩; exact ⟨Or.inr a, b⟩
      · rintro ⟨a | a, b⟩
        · subst a; exact absurd rfl b
        · exact ⟨a, b⟩
    · simp only [aerase, h, ↓reduceIte, ih, List.mem_cons]
      constructor
      · rintro (a | ⟨a, b⟩)
        · subst a; exact ⟨Or.inl rfl, h⟩
        · exact ⟨Or.inr a, b⟩
      · rintro ⟨a | a, b⟩
        · exact Or.inl a
        · exact Or.inr ⟨a, b⟩

theorem mem_ainsert {α : Type} (k : Nat) (v : α) (l : List (Nat × α)) (x : Nat × α) :
    x ∈ ainsert k v l ↔ x = (k, v) ∨ x ∈ l := by
  induction l with
  | nil => simp [ainsert]
  | cons e l ih =>
    obtain ⟨j, w⟩ := e
    by_cases h : k < j
    · simp [ainsert, h]
    · simp only [ainsert, h, ↓reduceIte, List.mem_cons, ih]
      constructor
      · rintro (a | a | a)
        · exact Or.inr (Or.inl a)
        · exact Or.inl a
        · exact Or.inr (Or.inr a)
      · rintro (a | a | a)
        · exact Or.inr (Or.inl a)
        · exact Or.inl a
        · exact Or.inr (Or.inr a)

theorem keysRise_aerase {α : Type} (k : Nat) (l : List (Nat × α)) (h : keysRise l = true) :
    keysRise (aerase k l) = true := by
  induction l with
  | nil => rfl
  | cons e l ih =>
    obtain ⟨j, v⟩ := e
    rw [keysRise_cons] at h
    by_cases hj : j = k
    · simp [aerase, hj, ih h.2]
    · simp only [aerase, hj, ↓reduceIte]
      rw [keysRise_cons]
      exact ⟨fun x hx => h.1 x ((mem_aerase k l x).1 hx).1, ih h.2⟩

theorem keysRise_ainsert {α : Type} (k : Nat) (v : α) (l : List (Nat × α)) (h : keysRise l = true)
    (hk : ∀ x ∈ l, x.1 ≠ k) : keysRise (ainsert k v l) = true := by
  induction l with
  | nil => rfl
  | cons e l ih =>
    obtain ⟨j, w⟩ := e
    have h0 := h
    rw [keysRise_cons] at h
    by_cases hj : k < j
    · simp only [ainsert, hj, ↓reduceIte]
      rw [keysRise_cons]
      refine ⟨fun x hx => ?_, h0⟩
      rcases List.mem_cons.1 hx with rfl | hx
      · exact hj
      · exact Nat.lt_trans hj (h.1 x hx)
    · simp only [ainsert, hj, ↓reduceIte]
      rw [keysRise_cons]
      refine ⟨fun x hx => ?_, ih h.2 fun x hx => hk x (List.mem_cons_of_mem _ hx)⟩
      rcases (mem_ainsert k v l x).1 hx with rfl | hx
      · have := hk (j, w) (by simp)
        simp only [ne_eq] at this
        show j < k
        omega
      · exact h.1 x hx

theorem mwf_mset {α : Type} [DecidableEq α] (dflt : Nat → α) (m : SMap α) (k : Nat) (v : α) (h : mwf dflt m = true) :
    mwf dflt (mset (dflt k) m k v) = true := by
  simp only [mwf, Bool.and_eq_true, List.all_eq_true, decide_eq_true_eq] at h ⊢
  unfold mset
  split
  · exact ⟨keysRise_aerase _ _ h.1, fun x hx => h.2 x ((mem_aerase _ _ _).1 hx).1⟩
  · rename_i hv
    refine ⟨keysRise_ainsert _ _ _ (keysRise_aerase _ _ h.1) fun x hx => ((mem_aerase _ _ _).1 hx).2, fun x hx => ?_⟩
    rcases (mem_ainsert _ _ _ _).1 hx with rfl | hx
    · exact hv
    · exact h.2 x ((mem_aerase _ _ _).1 hx).1

theorem keysRise_filter {α : Type} (p : Nat × α → Bool) (l : List (Nat × α)) (h : keysRise l = true) :
    keysRise (l.filter p) = true := by
  induction l with
  | nil => rfl
  | cons e l ih =>
    rw [keysRise_cons] at h
    by_cases hp : p e = true
    · rw [List.filter_cons_of_pos hp, keysRise_cons]
      exact ⟨fun x hx => h.1 x ((List.mem_filter.1 hx).1), ih h.2⟩
    · rw [List.filter_cons_of_neg hp]
      exact ih h.2

theorem mwf_filter {α : Type} [DecidableEq α] (dflt : Nat → α) (m : SMap α) (p : Nat × α → Bool) (h : mwf dflt m = true) :
    mwf dflt ⟨m.entries.filter p⟩ = true := by
  simp only [mwf, Bool.and_eq_true, List.all_eq_true] at h ⊢
  exact ⟨keysRise_filter _ _ h.1, fun x hx => h.2 x ((List.mem_filter.1 hx).1)⟩

theorem mwf_mclear {α : Type} [DecidableEq α] (dflt : Nat → α) (m : SMap α) (lo hi : Nat) (h : mwf dflt m = true) :
    mwf dflt (mclear m lo hi) = true := mwf_filter dflt m _ h

theorem mwf_empty {α : Type} [DecidableEq α] (dflt : Nat → α) : mwf dflt (SMap.empty : SMap α) = true := rfl

/-- What a key reads after keys were cleared. -/
theorem alookup_filter {α : Type} (k : Nat) (p : Nat → Bool) (l : List (Nat × α)) :
    alookup k (l.filter fun e => p e.1) = if p k then alookup k l else none := by
  induction l with
  | nil => simp [alookup]
  | cons e l ih =>
    obtain ⟨j, v⟩ := e
    by_cases hj : j = k
    · subst hj
      by_cases hp : p j = true
      · simp [hp, alookup]
      · simp only [Bool.not_eq_true] at hp
        simp [hp, ih]
    · by_cases hp : p j = true
      · simp [hp, alookup, hj, ih]
      · simp only [Bool.not_eq_true] at hp
        simp [hp, alookup, hj, ih]

theorem mget_mclear {α : Type} (dflt : α) (m : SMap α) (lo hi k : Nat) :
    mget dflt (mclear m lo hi) k = if lo ≤ k ∧ k < hi then dflt else mget dflt m k := by
  unfold mget mclear
  simp only [alookup_filter k (fun a => !(decide (lo ≤ a) && decide (a < hi)))]
  by_cases h : lo ≤ k ∧ k < hi
  · simp [h]
  · rw [if_neg h]
    have : (!(decide (lo ≤ k) && decide (k < hi))) = true := by
      simp only [Bool.not_eq_true', Bool.and_eq_false_iff, decide_eq_false_iff_not]; omega
    simp [this]

end Sys2Proof.Machine
end

