-- ==== Sys2Proof/Laws/State.lean ====
section
/-!
SUPPORT. What each update of the device leaves in each field of it, and what registers, fields of registers and the parts
of the device read after an update.
-/
namespace Sys2Proof.Machine

/-! ## What the updates leave -/

section updates
variable (d : Dev)

@[simp] theorem Dev.wr_part (a : Nat) (v : Word) : (d.wr a v).part = d.part := rfl
@[simp] theorem Dev.wr_now (a : Nat) (v : Word) : (d.wr a v).now = d.now := rfl
@[simp] theorem Dev.wr_free (a : Nat) (v : Word) : (d.wr a v).free = d.free := rfl
@[simp] theorem Dev.wr_windows (a : Nat) (v : Word) : (d.wr a v).windows = d.windows := rfl
@[simp] theorem Dev.wr_time (a : Nat) (v : Word) : (d.wr a v).time = d.time := rfl
@[simp] theorem Dev.wr_clkHeld (a : Nat) (v : Word) : (d.wr a v).clkHeld = d.clkHeld := rfl
@[simp] theorem Dev.wr_clusters (a : Nat) (v : Word) : (d.wr a v).clusters = d.clusters := rfl
@[simp] theorem Dev.wr_crossing (a : Nat) (v : Word) : (d.wr a v).crossing = d.crossing := rfl
@[simp] theorem Dev.wr_due (a : Nat) (v : Word) : (d.wr a v).due = d.due := rfl
@[simp] theorem Dev.wr_events (a : Nat) (v : Word) : (d.wr a v).events = d.events := rfl
@[simp] theorem Dev.wr_lostFor (a : Nat) (v : Word) : (d.wr a v).lostFor = d.lostFor := rfl
@[simp] theorem Dev.wr_tchQueue (a : Nat) (v : Word) : (d.wr a v).tchQueue = d.tchQueue := rfl
@[simp] theorem Dev.wr_tchDropped (a : Nat) (v : Word) : (d.wr a v).tchDropped = d.tchDropped := rfl
@[simp] theorem Dev.wr_wide (a : Nat) (v : Word) : (d.wr a v).wide = d.wide := rfl
@[simp] theorem Dev.wr_lanes (a : Nat) (v : Word) : (d.wr a v).lanes = d.lanes := rfl
@[simp] theorem Dev.wr_axes (a : Nat) (v : Word) : (d.wr a v).axes = d.axes := rfl
@[simp] theorem Dev.wr_interps (a : Nat) (v : Word) : (d.wr a v).interps = d.interps := rfl
@[simp] theorem Dev.wr_tiles (a : Nat) (v : Word) : (d.wr a v).tiles = d.tiles := rfl
@[simp] theorem Dev.wr_chans (a : Nat) (v : Word) : (d.wr a v).chans = d.chans := rfl
@[simp] theorem Dev.wr_draining (a : Nat) (v : Word) : (d.wr a v).draining = d.draining := rfl
@[simp] theorem Dev.wr_sdcAt (a : Nat) (v : Word) : (d.wr a v).sdcAt = d.sdcAt := rfl
@[simp] theorem Dev.wr_pwms (a : Nat) (v : Word) : (d.wr a v).pwms = d.pwms := rfl
@[simp] theorem Dev.wr_fbks (a : Nat) (v : Word) : (d.wr a v).fbks = d.fbks := rfl
@[simp] theorem Dev.wr_encs (a : Nat) (v : Word) : (d.wr a v).encs = d.encs := rfl
@[simp] theorem Dev.wr_grps (a : Nat) (v : Word) : (d.wr a v).grps = d.grps := rfl
@[simp] theorem Dev.wr_combs (a : Nat) (v : Word) : (d.wr a v).combs = d.combs := rfl
@[simp] theorem Dev.wr_timers (a : Nat) (v : Word) : (d.wr a v).timers = d.timers := rfl
@[simp] theorem Dev.wr_engs (a : Nat) (v : Word) : (d.wr a v).engs = d.engs := rfl
@[simp] theorem Dev.wr_bank15 (a : Nat) (v : Word) : (d.wr a v).bank15 = d.bank15 := rfl
@[simp] theorem Dev.wr_cores (a : Nat) (v : Word) : (d.wr a v).cores = d.cores := rfl
@[simp] theorem Dev.wr_ownNext (a : Nat) (v : Word) : (d.wr a v).ownNext = d.ownNext := rfl
@[simp] theorem Dev.wr_scrubAt (a : Nat) (v : Word) : (d.wr a v).scrubAt = d.scrubAt := rfl
@[simp] theorem Dev.wr_scrubCcyc (a : Nat) (v : Word) : (d.wr a v).scrubCcyc = d.scrubCcyc := rfl
@[simp] theorem Dev.wr_cru (a : Nat) (v : Word) : (d.wr a v).cru = d.cru := rfl
@[simp] theorem Dev.wr_corePairs (a : Nat) (v : Word) : (d.wr a v).corePairs = d.corePairs := rfl
@[simp] theorem Dev.wr_sqs (a : Nat) (v : Word) : (d.wr a v).sqs = d.sqs := rfl
@[simp] theorem Dev.wr_bells (a : Nat) (v : Word) : (d.wr a v).bells = d.bells := rfl
@[simp] theorem Dev.wr_nextOrder (a : Nat) (v : Word) : (d.wr a v).nextOrder = d.nextOrder := rfl
@[simp] theorem Dev.wr_pcie (a : Nat) (v : Word) : (d.wr a v).pcie = d.pcie := rfl
@[simp] theorem Dev.wr_sem (a : Nat) (v : Word) : (d.wr a v).sem = d.sem := rfl
@[simp] theorem Dev.wr_slds (a : Nat) (v : Word) : (d.wr a v).slds = d.slds := rfl
@[simp] theorem Dev.wr_fls (a : Nat) (v : Word) : (d.wr a v).fls = d.fls := rfl
@[simp] theorem Dev.wr_tch (a : Nat) (v : Word) : (d.wr a v).tch = d.tch := rfl
@[simp] theorem Dev.wr_hlm (a : Nat) (v : Word) : (d.wr a v).hlm = d.hlm := rfl
@[simp] theorem Dev.wr_tap (a : Nat) (v : Word) : (d.wr a v).tap = d.tap := rfl
@[simp] theorem Dev.wr_caps (a : Nat) (v : Word) : (d.wr a v).caps = d.caps := rfl
@[simp] theorem Dev.wr_evcHigh (a : Nat) (v : Word) : (d.wr a v).evcHigh = d.evcHigh := rfl
@[simp] theorem Dev.wr_evcAt (a : Nat) (v : Word) : (d.wr a v).evcAt = d.evcAt := rfl
@[simp] theorem Dev.wr_evcClr (a : Nat) (v : Word) : (d.wr a v).evcClr = d.evcClr := rfl
@[simp] theorem Dev.wr_waits (a : Nat) (v : Word) : (d.wr a v).waits = d.waits := rfl
@[simp] theorem Dev.wr_cpls (a : Nat) (v : Word) : (d.wr a v).cpls = d.cpls := rfl
@[simp] theorem Dev.wr_rdata (a : Nat) (v : Word) : (d.wr a v).rdata = d.rdata := rfl

@[simp] theorem Dev.setF_part (a : Nat) (f : Fld) (n : Nat) : (d.setF a f n).part = d.part := rfl
@[simp] theorem Dev.setF_now (a : Nat) (f : Fld) (n : Nat) : (d.setF a f n).now = d.now := rfl
@[simp] theorem Dev.setF_free (a : Nat) (f : Fld) (n : Nat) : (d.setF a f n).free = d.free := rfl
@[simp] theorem Dev.setF_windows (a : Nat) (f : Fld) (n : Nat) : (d.setF a f n).windows = d.windows := rfl
@[simp] theorem Dev.setF_time (a : Nat) (f : Fld) (n : Nat) : (d.setF a f n).time = d.time := rfl
@[simp] theorem Dev.setF_clkHeld (a : Nat) (f : Fld) (n : Nat) : (d.setF a f n).clkHeld = d.clkHeld := rfl
@[simp] theorem Dev.setF_clusters (a : Nat) (f : Fld) (n : Nat) : (d.setF a f n).clusters = d.clusters := rfl
@[simp] theorem Dev.setF_crossing (a : Nat) (f : Fld) (n : Nat) : (d.setF a f n).crossing = d.crossing := rfl
@[simp] theorem Dev.setF_due (a : Nat) (f : Fld) (n : Nat) : (d.setF a f n).due = d.due := rfl
@[simp] theorem Dev.setF_events (a : Nat) (f : Fld) (n : Nat) : (d.setF a f n).events = d.events := rfl
@[simp] theorem Dev.setF_lostFor (a : Nat) (f : Fld) (n : Nat) : (d.setF a f n).lostFor = d.lostFor := rfl
@[simp] theorem Dev.setF_tchQueue (a : Nat) (f : Fld) (n : Nat) : (d.setF a f n).tchQueue = d.tchQueue := rfl
@[simp] theorem Dev.setF_tchDropped (a : Nat) (f : Fld) (n : Nat) : (d.setF a f n).tchDropped = d.tchDropped := rfl
@[simp] theorem Dev.setF_wide (a : Nat) (f : Fld) (n : Nat) : (d.setF a f n).wide = d.wide := rfl
@[simp] theorem Dev.setF_lanes (a : Nat) (f : Fld) (n : Nat) : (d.setF a f n).lanes = d.lanes := rfl
@[simp] theorem Dev.setF_axes (a : Nat) (f : Fld) (n : Nat) : (d.setF a f n).axes = d.axes := rfl
@[simp] theorem Dev.setF_interps (a : Nat) (f : Fld) (n : Nat) : (d.setF a f n).interps = d.interps := rfl
@[simp] theorem Dev.setF_tiles (a : Nat) (f : Fld) (n : Nat) : (d.setF a f n).tiles = d.tiles := rfl
@[simp] theorem Dev.setF_chans (a : Nat) (f : Fld) (n : Nat) : (d.setF a f n).chans = d.chans := rfl
@[simp] theorem Dev.setF_draining (a : Nat) (f : Fld) (n : Nat) : (d.setF a f n).draining = d.draining := rfl
@[simp] theorem Dev.setF_sdcAt (a : Nat) (f : Fld) (n : Nat) : (d.setF a f n).sdcAt = d.sdcAt := rfl
@[simp] theorem Dev.setF_pwms (a : Nat) (f : Fld) (n : Nat) : (d.setF a f n).pwms = d.pwms := rfl
@[simp] theorem Dev.setF_fbks (a : Nat) (f : Fld) (n : Nat) : (d.setF a f n).fbks = d.fbks := rfl
@[simp] theorem Dev.setF_encs (a : Nat) (f : Fld) (n : Nat) : (d.setF a f n).encs = d.encs := rfl
@[simp] theorem Dev.setF_grps (a : Nat) (f : Fld) (n : Nat) : (d.setF a f n).grps = d.grps := rfl
@[simp] theorem Dev.setF_combs (a : Nat) (f : Fld) (n : Nat) : (d.setF a f n).combs = d.combs := rfl
@[simp] theorem Dev.setF_timers (a : Nat) (f : Fld) (n : Nat) : (d.setF a f n).timers = d.timers := rfl
@[simp] theorem Dev.setF_engs (a : Nat) (f : Fld) (n : Nat) : (d.setF a f n).engs = d.engs := rfl
@[simp] theorem Dev.setF_bank15 (a : Nat) (f : Fld) (n : Nat) : (d.setF a f n).bank15 = d.bank15 := rfl
@[simp] theorem Dev.setF_cores (a : Nat) (f : Fld) (n : Nat) : (d.setF a f n).cores = d.cores := rfl
@[simp] theorem Dev.setF_ownNext (a : Nat) (f : Fld) (n : Nat) : (d.setF a f n).ownNext = d.ownNext := rfl
@[simp] theorem Dev.setF_scrubAt (a : Nat) (f : Fld) (n : Nat) : (d.setF a f n).scrubAt = d.scrubAt := rfl
@[simp] theorem Dev.setF_scrubCcyc (a : Nat) (f : Fld) (n : Nat) : (d.setF a f n).scrubCcyc = d.scrubCcyc := rfl
@[simp] theorem Dev.setF_cru (a : Nat) (f : Fld) (n : Nat) : (d.setF a f n).cru = d.cru := rfl
@[simp] theorem Dev.setF_corePairs (a : Nat) (f : Fld) (n : Nat) : (d.setF a f n).corePairs = d.corePairs := rfl
@[simp] theorem Dev.setF_sqs (a : Nat) (f : Fld) (n : Nat) : (d.setF a f n).sqs = d.sqs := rfl
@[simp] theorem Dev.setF_bells (a : Nat) (f : Fld) (n : Nat) : (d.setF a f n).bells = d.bells := rfl
@[simp] theorem Dev.setF_nextOrder (a : Nat) (f : Fld) (n : Nat) : (d.setF a f n).nextOrder = d.nextOrder := rfl
@[simp] theorem Dev.setF_pcie (a : Nat) (f : Fld) (n : Nat) : (d.setF a f n).pcie = d.pcie := rfl
@[simp] theorem Dev.setF_sem (a : Nat) (f : Fld) (n : Nat) : (d.setF a f n).sem = d.sem := rfl
@[simp] theorem Dev.setF_slds (a : Nat) (f : Fld) (n : Nat) : (d.setF a f n).slds = d.slds := rfl
@[simp] theorem Dev.setF_fls (a : Nat) (f : Fld) (n : Nat) : (d.setF a f n).fls = d.fls := rfl
@[simp] theorem Dev.setF_tch (a : Nat) (f : Fld) (n : Nat) : (d.setF a f n).tch = d.tch := rfl
@[simp] theorem Dev.setF_hlm (a : Nat) (f : Fld) (n : Nat) : (d.setF a f n).hlm = d.hlm := rfl
@[simp] theorem Dev.setF_tap (a : Nat) (f : Fld) (n : Nat) : (d.setF a f n).tap = d.tap := rfl
@[simp] theorem Dev.setF_caps (a : Nat) (f : Fld) (n : Nat) : (d.setF a f n).caps = d.caps := rfl
@[simp] theorem Dev.setF_evcHigh (a : Nat) (f : Fld) (n : Nat) : (d.setF a f n).evcHigh = d.evcHigh := rfl
@[simp] theorem Dev.setF_evcAt (a : Nat) (f : Fld) (n : Nat) : (d.setF a f n).evcAt = d.evcAt := rfl
@[simp] theorem Dev.setF_evcClr (a : Nat) (f : Fld) (n : Nat) : (d.setF a f n).evcClr = d.evcClr := rfl
@[simp] theorem Dev.setF_waits (a : Nat) (f : Fld) (n : Nat) : (d.setF a f n).waits = d.waits := rfl
@[simp] theorem Dev.setF_cpls (a : Nat) (f : Fld) (n : Nat) : (d.setF a f n).cpls = d.cpls := rfl
@[simp] theorem Dev.setF_rdata (a : Nat) (f : Fld) (n : Nat) : (d.setF a f n).rdata = d.rdata := rfl

@[simp] theorem Dev.setB_part (a : Nat) (f : Fld) (b : Bool) : (d.setB a f b).part = d.part := rfl
@[simp] theorem Dev.setB_now (a : Nat) (f : Fld) (b : Bool) : (d.setB a f b).now = d.now := rfl
@[simp] theorem Dev.setB_free (a : Nat) (f : Fld) (b : Bool) : (d.setB a f b).free = d.free := rfl
@[simp] theorem Dev.setB_windows (a : Nat) (f : Fld) (b : Bool) : (d.setB a f b).windows = d.windows := rfl
@[simp] theorem Dev.setB_time (a : Nat) (f : Fld) (b : Bool) : (d.setB a f b).time = d.time := rfl
@[simp] theorem Dev.setB_clkHeld (a : Nat) (f : Fld) (b : Bool) : (d.setB a f b).clkHeld = d.clkHeld := rfl
@[simp] theorem Dev.setB_clusters (a : Nat) (f : Fld) (b : Bool) : (d.setB a f b).clusters = d.clusters := rfl
@[simp] theorem Dev.setB_crossing (a : Nat) (f : Fld) (b : Bool) : (d.setB a f b).crossing = d.crossing := rfl
@[simp] theorem Dev.setB_due (a : Nat) (f : Fld) (b : Bool) : (d.setB a f b).due = d.due := rfl
@[simp] theorem Dev.setB_events (a : Nat) (f : Fld) (b : Bool) : (d.setB a f b).events = d.events := rfl
@[simp] theorem Dev.setB_lostFor (a : Nat) (f : Fld) (b : Bool) : (d.setB a f b).lostFor = d.lostFor := rfl
@[simp] theorem Dev.setB_tchQueue (a : Nat) (f : Fld) (b : Bool) : (d.setB a f b).tchQueue = d.tchQueue := rfl
@[simp] theorem Dev.setB_tchDropped (a : Nat) (f : Fld) (b : Bool) : (d.setB a f b).tchDropped = d.tchDropped := rfl
@[simp] theorem Dev.setB_wide (a : Nat) (f : Fld) (b : Bool) : (d.setB a f b).wide = d.wide := rfl
@[simp] theorem Dev.setB_lanes (a : Nat) (f : Fld) (b : Bool) : (d.setB a f b).lanes = d.lanes := rfl
@[simp] theorem Dev.setB_axes (a : Nat) (f : Fld) (b : Bool) : (d.setB a f b).axes = d.axes := rfl
@[simp] theorem Dev.setB_interps (a : Nat) (f : Fld) (b : Bool) : (d.setB a f b).interps = d.interps := rfl
@[simp] theorem Dev.setB_tiles (a : Nat) (f : Fld) (b : Bool) : (d.setB a f b).tiles = d.tiles := rfl
@[simp] theorem Dev.setB_chans (a : Nat) (f : Fld) (b : Bool) : (d.setB a f b).chans = d.chans := rfl
@[simp] theorem Dev.setB_draining (a : Nat) (f : Fld) (b : Bool) : (d.setB a f b).draining = d.draining := rfl
@[simp] theorem Dev.setB_sdcAt (a : Nat) (f : Fld) (b : Bool) : (d.setB a f b).sdcAt = d.sdcAt := rfl
@[simp] theorem Dev.setB_pwms (a : Nat) (f : Fld) (b : Bool) : (d.setB a f b).pwms = d.pwms := rfl
@[simp] theorem Dev.setB_fbks (a : Nat) (f : Fld) (b : Bool) : (d.setB a f b).fbks = d.fbks := rfl
@[simp] theorem Dev.setB_encs (a : Nat) (f : Fld) (b : Bool) : (d.setB a f b).encs = d.encs := rfl
@[simp] theorem Dev.setB_grps (a : Nat) (f : Fld) (b : Bool) : (d.setB a f b).grps = d.grps := rfl
@[simp] theorem Dev.setB_combs (a : Nat) (f : Fld) (b : Bool) : (d.setB a f b).combs = d.combs := rfl
@[simp] theorem Dev.setB_timers (a : Nat) (f : Fld) (b : Bool) : (d.setB a f b).timers = d.timers := rfl
@[simp] theorem Dev.setB_engs (a : Nat) (f : Fld) (b : Bool) : (d.setB a f b).engs = d.engs := rfl
@[simp] theorem Dev.setB_bank15 (a : Nat) (f : Fld) (b : Bool) : (d.setB a f b).bank15 = d.bank15 := rfl
@[simp] theorem Dev.setB_cores (a : Nat) (f : Fld) (b : Bool) : (d.setB a f b).cores = d.cores := rfl
@[simp] theorem Dev.setB_ownNext (a : Nat) (f : Fld) (b : Bool) : (d.setB a f b).ownNext = d.ownNext := rfl
@[simp] theorem Dev.setB_scrubAt (a : Nat) (f : Fld) (b : Bool) : (d.setB a f b).scrubAt = d.scrubAt := rfl
@[simp] theorem Dev.setB_scrubCcyc (a : Nat) (f : Fld) (b : Bool) : (d.setB a f b).scrubCcyc = d.scrubCcyc := rfl
@[simp] theorem Dev.setB_cru (a : Nat) (f : Fld) (b : Bool) : (d.setB a f b).cru = d.cru := rfl
@[simp] theorem Dev.setB_corePairs (a : Nat) (f : Fld) (b : Bool) : (d.setB a f b).corePairs = d.corePairs := rfl
@[simp] theorem Dev.setB_sqs (a : Nat) (f : Fld) (b : Bool) : (d.setB a f b).sqs = d.sqs := rfl
@[simp] theorem Dev.setB_bells (a : Nat) (f : Fld) (b : Bool) : (d.setB a f b).bells = d.bells := rfl
@[simp] theorem Dev.setB_nextOrder (a : Nat) (f : Fld) (b : Bool) : (d.setB a f b).nextOrder = d.nextOrder := rfl
@[simp] theorem Dev.setB_pcie (a : Nat) (f : Fld) (b : Bool) : (d.setB a f b).pcie = d.pcie := rfl
@[simp] theorem Dev.setB_sem (a : Nat) (f : Fld) (b : Bool) : (d.setB a f b).sem = d.sem := rfl
@[simp] theorem Dev.setB_slds (a : Nat) (f : Fld) (b : Bool) : (d.setB a f b).slds = d.slds := rfl
@[simp] theorem Dev.setB_fls (a : Nat) (f : Fld) (b : Bool) : (d.setB a f b).fls = d.fls := rfl
@[simp] theorem Dev.setB_tch (a : Nat) (f : Fld) (b : Bool) : (d.setB a f b).tch = d.tch := rfl
@[simp] theorem Dev.setB_hlm (a : Nat) (f : Fld) (b : Bool) : (d.setB a f b).hlm = d.hlm := rfl
@[simp] theorem Dev.setB_tap (a : Nat) (f : Fld) (b : Bool) : (d.setB a f b).tap = d.tap := rfl
@[simp] theorem Dev.setB_caps (a : Nat) (f : Fld) (b : Bool) : (d.setB a f b).caps = d.caps := rfl
@[simp] theorem Dev.setB_evcHigh (a : Nat) (f : Fld) (b : Bool) : (d.setB a f b).evcHigh = d.evcHigh := rfl
@[simp] theorem Dev.setB_evcAt (a : Nat) (f : Fld) (b : Bool) : (d.setB a f b).evcAt = d.evcAt := rfl
@[simp] theorem Dev.setB_evcClr (a : Nat) (f : Fld) (b : Bool) : (d.setB a f b).evcClr = d.evcClr := rfl
@[simp] theorem Dev.setB_waits (a : Nat) (f : Fld) (b : Bool) : (d.setB a f b).waits = d.waits := rfl
@[simp] theorem Dev.setB_cpls (a : Nat) (f : Fld) (b : Bool) : (d.setB a f b).cpls = d.cpls := rfl
@[simp] theorem Dev.setB_rdata (a : Nat) (f : Fld) (b : Bool) : (d.setB a f b).rdata = d.rdata := rfl

@[simp] theorem Dev.setWide_part (a n : Nat) : (d.setWide a n).part = d.part := rfl
@[simp] theorem Dev.setWide_now (a n : Nat) : (d.setWide a n).now = d.now := rfl
@[simp] theorem Dev.setWide_free (a n : Nat) : (d.setWide a n).free = d.free := rfl
@[simp] theorem Dev.setWide_windows (a n : Nat) : (d.setWide a n).windows = d.windows := rfl
@[simp] theorem Dev.setWide_time (a n : Nat) : (d.setWide a n).time = d.time := rfl
@[simp] theorem Dev.setWide_clkHeld (a n : Nat) : (d.setWide a n).clkHeld = d.clkHeld := rfl
@[simp] theorem Dev.setWide_clusters (a n : Nat) : (d.setWide a n).clusters = d.clusters := rfl
@[simp] theorem Dev.setWide_crossing (a n : Nat) : (d.setWide a n).crossing = d.crossing := rfl
@[simp] theorem Dev.setWide_due (a n : Nat) : (d.setWide a n).due = d.due := rfl
@[simp] theorem Dev.setWide_events (a n : Nat) : (d.setWide a n).events = d.events := rfl
@[simp] theorem Dev.setWide_lostFor (a n : Nat) : (d.setWide a n).lostFor = d.lostFor := rfl
@[simp] theorem Dev.setWide_tchQueue (a n : Nat) : (d.setWide a n).tchQueue = d.tchQueue := rfl
@[simp] theorem Dev.setWide_tchDropped (a n : Nat) : (d.setWide a n).tchDropped = d.tchDropped := rfl
@[simp] theorem Dev.setWide_lanes (a n : Nat) : (d.setWide a n).lanes = d.lanes := rfl
@[simp] theorem Dev.setWide_axes (a n : Nat) : (d.setWide a n).axes = d.axes := rfl
@[simp] theorem Dev.setWide_interps (a n : Nat) : (d.setWide a n).interps = d.interps := rfl
@[simp] theorem Dev.setWide_tiles (a n : Nat) : (d.setWide a n).tiles = d.tiles := rfl
@[simp] theorem Dev.setWide_chans (a n : Nat) : (d.setWide a n).chans = d.chans := rfl
@[simp] theorem Dev.setWide_draining (a n : Nat) : (d.setWide a n).draining = d.draining := rfl
@[simp] theorem Dev.setWide_sdcAt (a n : Nat) : (d.setWide a n).sdcAt = d.sdcAt := rfl
@[simp] theorem Dev.setWide_pwms (a n : Nat) : (d.setWide a n).pwms = d.pwms := rfl
@[simp] theorem Dev.setWide_fbks (a n : Nat) : (d.setWide a n).fbks = d.fbks := rfl
@[simp] theorem Dev.setWide_encs (a n : Nat) : (d.setWide a n).encs = d.encs := rfl
@[simp] theorem Dev.setWide_grps (a n : Nat) : (d.setWide a n).grps = d.grps := rfl
@[simp] theorem Dev.setWide_combs (a n : Nat) : (d.setWide a n).combs = d.combs := rfl
@[simp] theorem Dev.setWide_timers (a n : Nat) : (d.setWide a n).timers = d.timers := rfl
@[simp] theorem Dev.setWide_engs (a n : Nat) : (d.setWide a n).engs = d.engs := rfl
@[simp] theorem Dev.setWide_bank15 (a n : Nat) : (d.setWide a n).bank15 = d.bank15 := rfl
@[simp] theorem Dev.setWide_cores (a n : Nat) : (d.setWide a n).cores = d.cores := rfl
@[simp] theorem Dev.setWide_ownNext (a n : Nat) : (d.setWide a n).ownNext = d.ownNext := rfl
@[simp] theorem Dev.setWide_scrubAt (a n : Nat) : (d.setWide a n).scrubAt = d.scrubAt := rfl
@[simp] theorem Dev.setWide_scrubCcyc (a n : Nat) : (d.setWide a n).scrubCcyc = d.scrubCcyc := rfl
@[simp] theorem Dev.setWide_cru (a n : Nat) : (d.setWide a n).cru = d.cru := rfl
@[simp] theorem Dev.setWide_corePairs (a n : Nat) : (d.setWide a n).corePairs = d.corePairs := rfl
@[simp] theorem Dev.setWide_sqs (a n : Nat) : (d.setWide a n).sqs = d.sqs := rfl
@[simp] theorem Dev.setWide_bells (a n : Nat) : (d.setWide a n).bells = d.bells := rfl
@[simp] theorem Dev.setWide_nextOrder (a n : Nat) : (d.setWide a n).nextOrder = d.nextOrder := rfl
@[simp] theorem Dev.setWide_pcie (a n : Nat) : (d.setWide a n).pcie = d.pcie := rfl
@[simp] theorem Dev.setWide_sem (a n : Nat) : (d.setWide a n).sem = d.sem := rfl
@[simp] theorem Dev.setWide_slds (a n : Nat) : (d.setWide a n).slds = d.slds := rfl
@[simp] theorem Dev.setWide_fls (a n : Nat) : (d.setWide a n).fls = d.fls := rfl
@[simp] theorem Dev.setWide_tch (a n : Nat) : (d.setWide a n).tch = d.tch := rfl
@[simp] theorem Dev.setWide_hlm (a n : Nat) : (d.setWide a n).hlm = d.hlm := rfl
@[simp] theorem Dev.setWide_tap (a n : Nat) : (d.setWide a n).tap = d.tap := rfl
@[simp] theorem Dev.setWide_caps (a n : Nat) : (d.setWide a n).caps = d.caps := rfl
@[simp] theorem Dev.setWide_evcHigh (a n : Nat) : (d.setWide a n).evcHigh = d.evcHigh := rfl
@[simp] theorem Dev.setWide_evcAt (a n : Nat) : (d.setWide a n).evcAt = d.evcAt := rfl
@[simp] theorem Dev.setWide_evcClr (a n : Nat) : (d.setWide a n).evcClr = d.evcClr := rfl
@[simp] theorem Dev.setWide_waits (a n : Nat) : (d.setWide a n).waits = d.waits := rfl
@[simp] theorem Dev.setWide_cpls (a n : Nat) : (d.setWide a n).cpls = d.cpls := rfl
@[simp] theorem Dev.setWide_rdata (a n : Nat) : (d.setWide a n).rdata = d.rdata := rfl

@[simp] theorem Dev.bump_part : (d.bump).part = d.part := rfl
@[simp] theorem Dev.bump_now : (d.bump).now = d.now := rfl
@[simp] theorem Dev.bump_regs : (d.bump).regs = d.regs := rfl
@[simp] theorem Dev.bump_windows : (d.bump).windows = d.windows := rfl
@[simp] theorem Dev.bump_time : (d.bump).time = d.time := rfl
@[simp] theorem Dev.bump_clkHeld : (d.bump).clkHeld = d.clkHeld := rfl
@[simp] theorem Dev.bump_clusters : (d.bump).clusters = d.clusters := rfl
@[simp] theorem Dev.bump_crossing : (d.bump).crossing = d.crossing := rfl
@[simp] theorem Dev.bump_due : (d.bump).due = d.due := rfl
@[simp] theorem Dev.bump_events : (d.bump).events = d.events := rfl
@[simp] theorem Dev.bump_lostFor : (d.bump).lostFor = d.lostFor := rfl
@[simp] theorem Dev.bump_tchQueue : (d.bump).tchQueue = d.tchQueue := rfl
@[simp] theorem Dev.bump_tchDropped : (d.bump).tchDropped = d.tchDropped := rfl
@[simp] theorem Dev.bump_wide : (d.bump).wide = d.wide := rfl
@[simp] theorem Dev.bump_lanes : (d.bump).lanes = d.lanes := rfl
@[simp] theorem Dev.bump_axes : (d.bump).axes = d.axes := rfl
@[simp] theorem Dev.bump_interps : (d.bump).interps = d.interps := rfl
@[simp] theorem Dev.bump_tiles : (d.bump).tiles = d.tiles := rfl
@[simp] theorem Dev.bump_chans : (d.bump).chans = d.chans := rfl
@[simp] theorem Dev.bump_draining : (d.bump).draining = d.draining := rfl
@[simp] theorem Dev.bump_sdcAt : (d.bump).sdcAt = d.sdcAt := rfl
@[simp] theorem Dev.bump_pwms : (d.bump).pwms = d.pwms := rfl
@[simp] theorem Dev.bump_fbks : (d.bump).fbks = d.fbks := rfl
@[simp] theorem Dev.bump_encs : (d.bump).encs = d.encs := rfl
@[simp] theorem Dev.bump_grps : (d.bump).grps = d.grps := rfl
@[simp] theorem Dev.bump_combs : (d.bump).combs = d.combs := rfl
@[simp] theorem Dev.bump_timers : (d.bump).timers = d.timers := rfl
@[simp] theorem Dev.bump_engs : (d.bump).engs = d.engs := rfl
@[simp] theorem Dev.bump_bank15 : (d.bump).bank15 = d.bank15 := rfl
@[simp] theorem Dev.bump_cores : (d.bump).cores = d.cores := rfl
@[simp] theorem Dev.bump_ownNext : (d.bump).ownNext = d.ownNext := rfl
@[simp] theorem Dev.bump_scrubAt : (d.bump).scrubAt = d.scrubAt := rfl
@[simp] theorem Dev.bump_scrubCcyc : (d.bump).scrubCcyc = d.scrubCcyc := rfl
@[simp] theorem Dev.bump_cru : (d.bump).cru = d.cru := rfl
@[simp] theorem Dev.bump_corePairs : (d.bump).corePairs = d.corePairs := rfl
@[simp] theorem Dev.bump_sqs : (d.bump).sqs = d.sqs := rfl
@[simp] theorem Dev.bump_bells : (d.bump).bells = d.bells := rfl
@[simp] theorem Dev.bump_nextOrder : (d.bump).nextOrder = d.nextOrder := rfl
@[simp] theorem Dev.bump_pcie : (d.bump).pcie = d.pcie := rfl
@[simp] theorem Dev.bump_sem : (d.bump).sem = d.sem := rfl
@[simp] theorem Dev.bump_slds : (d.bump).slds = d.slds := rfl
@[simp] theorem Dev.bump_fls : (d.bump).fls = d.fls := rfl
@[simp] theorem Dev.bump_tch : (d.bump).tch = d.tch := rfl
@[simp] theorem Dev.bump_hlm : (d.bump).hlm = d.hlm := rfl
@[simp] theorem Dev.bump_tap : (d.bump).tap = d.tap := rfl
@[simp] theorem Dev.bump_caps : (d.bump).caps = d.caps := rfl
@[simp] theorem Dev.bump_evcHigh : (d.bump).evcHigh = d.evcHigh := rfl
@[simp] theorem Dev.bump_evcAt : (d.bump).evcAt = d.evcAt := rfl
@[simp] theorem Dev.bump_evcClr : (d.bump).evcClr = d.evcClr := rfl
@[simp] theorem Dev.bump_waits : (d.bump).waits = d.waits := rfl
@[simp] theorem Dev.bump_cpls : (d.bump).cpls = d.cpls := rfl
@[simp] theorem Dev.bump_rdata : (d.bump).rdata = d.rdata := rfl

@[simp] theorem Dev.modLane_part (n : Nat) (f : Lane → Lane) : (d.modLane n f).part = d.part := rfl
@[simp] theorem Dev.modLane_now (n : Nat) (f : Lane → Lane) : (d.modLane n f).now = d.now := rfl
@[simp] theorem Dev.modLane_free (n : Nat) (f : Lane → Lane) : (d.modLane n f).free = d.free := rfl
@[simp] theorem Dev.modLane_regs (n : Nat) (f : Lane → Lane) : (d.modLane n f).regs = d.regs := rfl
@[simp] theorem Dev.modLane_windows (n : Nat) (f : Lane → Lane) : (d.modLane n f).windows = d.windows := rfl
@[simp] theorem Dev.modLane_time (n : Nat) (f : Lane → Lane) : (d.modLane n f).time = d.time := rfl
@[simp] theorem Dev.modLane_clkHeld (n : Nat) (f : Lane → Lane) : (d.modLane n f).clkHeld = d.clkHeld := rfl
@[simp] theorem Dev.modLane_clusters (n : Nat) (f : Lane → Lane) : (d.modLane n f).clusters = d.clusters := rfl
@[simp] theorem Dev.modLane_crossing (n : Nat) (f : Lane → Lane) : (d.modLane n f).crossing = d.crossing := rfl
@[simp] theorem Dev.modLane_due (n : Nat) (f : Lane → Lane) : (d.modLane n f).due = d.due := rfl
@[simp] theorem Dev.modLane_events (n : Nat) (f : Lane → Lane) : (d.modLane n f).events = d.events := rfl
@[simp] theorem Dev.modLane_lostFor (n : Nat) (f : Lane → Lane) : (d.modLane n f).lostFor = d.lostFor := rfl
@[simp] theorem Dev.modLane_tchQueue (n : Nat) (f : Lane → Lane) : (d.modLane n f).tchQueue = d.tchQueue := rfl
@[simp] theorem Dev.modLane_tchDropped (n : Nat) (f : Lane → Lane) : (d.modLane n f).tchDropped = d.tchDropped := rfl
@[simp] theorem Dev.modLane_wide (n : Nat) (f : Lane → Lane) : (d.modLane n f).wide = d.wide := rfl
@[simp] theorem Dev.modLane_axes (n : Nat) (f : Lane → Lane) : (d.modLane n f).axes = d.axes := rfl
@[simp] theorem Dev.modLane_interps (n : Nat) (f : Lane → Lane) : (d.modLane n f).interps = d.interps := rfl
@[simp] theorem Dev.modLane_tiles (n : Nat) (f : Lane → Lane) : (d.modLane n f).tiles = d.tiles := rfl
@[simp] theorem Dev.modLane_chans (n : Nat) (f : Lane → Lane) : (d.modLane n f).chans = d.chans := rfl
@[simp] theorem Dev.modLane_draining (n : Nat) (f : Lane → Lane) : (d.modLane n f).draining = d.draining := rfl
@[simp] theorem Dev.modLane_sdcAt (n : Nat) (f : Lane → Lane) : (d.modLane n f).sdcAt = d.sdcAt := rfl
@[simp] theorem Dev.modLane_pwms (n : Nat) (f : Lane → Lane) : (d.modLane n f).pwms = d.pwms := rfl
@[simp] theorem Dev.modLane_fbks (n : Nat) (f : Lane → Lane) : (d.modLane n f).fbks = d.fbks := rfl
@[simp] theorem Dev.modLane_encs (n : Nat) (f : Lane → Lane) : (d.modLane n f).encs = d.encs := rfl
@[simp] theorem Dev.modLane_grps (n : Nat) (f : Lane → Lane) : (d.modLane n f).grps = d.grps := rfl
@[simp] theorem Dev.modLane_combs (n : Nat) (f : Lane → Lane) : (d.modLane n f).combs = d.combs := rfl
@[simp] theorem Dev.modLane_timers (n : Nat) (f : Lane → Lane) : (d.modLane n f).timers = d.timers := rfl
@[simp] theorem Dev.modLane_engs (n : Nat) (f : Lane → Lane) : (d.modLane n f).engs = d.engs := rfl
@[simp] theorem Dev.modLane_bank15 (n : Nat) (f : Lane → Lane) : (d.modLane n f).bank15 = d.bank15 := rfl
@[simp] theorem Dev.modLane_cores (n : Nat) (f : Lane → Lane) : (d.modLane n f).cores = d.cores := rfl
@[simp] theorem Dev.modLane_ownNext (n : Nat) (f : Lane → Lane) : (d.modLane n f).ownNext = d.ownNext := rfl
@[simp] theorem Dev.modLane_scrubAt (n : Nat) (f : Lane → Lane) : (d.modLane n f).scrubAt = d.scrubAt := rfl
@[simp] theorem Dev.modLane_scrubCcyc (n : Nat) (f : Lane → Lane) : (d.modLane n f).scrubCcyc = d.scrubCcyc := rfl
@[simp] theorem Dev.modLane_cru (n : Nat) (f : Lane → Lane) : (d.modLane n f).cru = d.cru := rfl
@[simp] theorem Dev.modLane_corePairs (n : Nat) (f : Lane → Lane) : (d.modLane n f).corePairs = d.corePairs := rfl
@[simp] theorem Dev.modLane_sqs (n : Nat) (f : Lane → Lane) : (d.modLane n f).sqs = d.sqs := rfl
@[simp] theorem Dev.modLane_bells (n : Nat) (f : Lane → Lane) : (d.modLane n f).bells = d.bells := rfl
@[simp] theorem Dev.modLane_nextOrder (n : Nat) (f : Lane → Lane) : (d.modLane n f).nextOrder = d.nextOrder := rfl
@[simp] theorem Dev.modLane_pcie (n : Nat) (f : Lane → Lane) : (d.modLane n f).pcie = d.pcie := rfl
@[simp] theorem Dev.modLane_sem (n : Nat) (f : Lane → Lane) : (d.modLane n f).sem = d.sem := rfl
@[simp] theorem Dev.modLane_slds (n : Nat) (f : Lane → Lane) : (d.modLane n f).slds = d.slds := rfl
@[simp] theorem Dev.modLane_fls (n : Nat) (f : Lane → Lane) : (d.modLane n f).fls = d.fls := rfl
@[simp] theorem Dev.modLane_tch (n : Nat) (f : Lane → Lane) : (d.modLane n f).tch = d.tch := rfl
@[simp] theorem Dev.modLane_hlm (n : Nat) (f : Lane → Lane) : (d.modLane n f).hlm = d.hlm := rfl
@[simp] theorem Dev.modLane_tap (n : Nat) (f : Lane → Lane) : (d.modLane n f).tap = d.tap := rfl
@[simp] theorem Dev.modLane_caps (n : Nat) (f : Lane → Lane) : (d.modLane n f).caps = d.caps := rfl
@[simp] theorem Dev.modLane_evcHigh (n : Nat) (f : Lane → Lane) : (d.modLane n f).evcHigh = d.evcHigh := rfl
@[simp] theorem Dev.modLane_evcAt (n : Nat) (f : Lane → Lane) : (d.modLane n f).evcAt = d.evcAt := rfl
@[simp] theorem Dev.modLane_evcClr (n : Nat) (f : Lane → Lane) : (d.modLane n f).evcClr = d.evcClr := rfl
@[simp] theorem Dev.modLane_waits (n : Nat) (f : Lane → Lane) : (d.modLane n f).waits = d.waits := rfl
@[simp] theorem Dev.modLane_cpls (n : Nat) (f : Lane → Lane) : (d.modLane n f).cpls = d.cpls := rfl
@[simp] theorem Dev.modLane_rdata (n : Nat) (f : Lane → Lane) : (d.modLane n f).rdata = d.rdata := rfl

@[simp] theorem Dev.modAxis_part (n : Nat) (f : Axis → Axis) : (d.modAxis n f).part = d.part := rfl
@[simp] theorem Dev.modAxis_now (n : Nat) (f : Axis → Axis) : (d.modAxis n f).now = d.now := rfl
@[simp] theorem Dev.modAxis_free (n : Nat) (f : Axis → Axis) : (d.modAxis n f).free = d.free := rfl
@[simp] theorem Dev.modAxis_regs (n : Nat) (f : Axis → Axis) : (d.modAxis n f).regs = d.regs := rfl
@[simp] theorem Dev.modAxis_windows (n : Nat) (f : Axis → Axis) : (d.modAxis n f).windows = d.windows := rfl
@[simp] theorem Dev.modAxis_time (n : Nat) (f : Axis → Axis) : (d.modAxis n f).time = d.time := rfl
@[simp] theorem Dev.modAxis_clkHeld (n : Nat) (f : Axis → Axis) : (d.modAxis n f).clkHeld = d.clkHeld := rfl
@[simp] theorem Dev.modAxis_clusters (n : Nat) (f : Axis → Axis) : (d.modAxis n f).clusters = d.clusters := rfl
@[simp] theorem Dev.modAxis_crossing (n : Nat) (f : Axis → Axis) : (d.modAxis n f).crossing = d.crossing := rfl
@[simp] theorem Dev.modAxis_due (n : Nat) (f : Axis → Axis) : (d.modAxis n f).due = d.due := rfl
@[simp] theorem Dev.modAxis_events (n : Nat) (f : Axis → Axis) : (d.modAxis n f).events = d.events := rfl
@[simp] theorem Dev.modAxis_lostFor (n : Nat) (f : Axis → Axis) : (d.modAxis n f).lostFor = d.lostFor := rfl
@[simp] theorem Dev.modAxis_tchQueue (n : Nat) (f : Axis → Axis) : (d.modAxis n f).tchQueue = d.tchQueue := rfl
@[simp] theorem Dev.modAxis_tchDropped (n : Nat) (f : Axis → Axis) : (d.modAxis n f).tchDropped = d.tchDropped := rfl
@[simp] theorem Dev.modAxis_wide (n : Nat) (f : Axis → Axis) : (d.modAxis n f).wide = d.wide := rfl
@[simp] theorem Dev.modAxis_lanes (n : Nat) (f : Axis → Axis) : (d.modAxis n f).lanes = d.lanes := rfl
@[simp] theorem Dev.modAxis_interps (n : Nat) (f : Axis → Axis) : (d.modAxis n f).interps = d.interps := rfl
@[simp] theorem Dev.modAxis_tiles (n : Nat) (f : Axis → Axis) : (d.modAxis n f).tiles = d.tiles := rfl
@[simp] theorem Dev.modAxis_chans (n : Nat) (f : Axis → Axis) : (d.modAxis n f).chans = d.chans := rfl
@[simp] theorem Dev.modAxis_draining (n : Nat) (f : Axis → Axis) : (d.modAxis n f).draining = d.draining := rfl
@[simp] theorem Dev.modAxis_sdcAt (n : Nat) (f : Axis → Axis) : (d.modAxis n f).sdcAt = d.sdcAt := rfl
@[simp] theorem Dev.modAxis_pwms (n : Nat) (f : Axis → Axis) : (d.modAxis n f).pwms = d.pwms := rfl
@[simp] theorem Dev.modAxis_fbks (n : Nat) (f : Axis → Axis) : (d.modAxis n f).fbks = d.fbks := rfl
@[simp] theorem Dev.modAxis_encs (n : Nat) (f : Axis → Axis) : (d.modAxis n f).encs = d.encs := rfl
@[simp] theorem Dev.modAxis_grps (n : Nat) (f : Axis → Axis) : (d.modAxis n f).grps = d.grps := rfl
@[simp] theorem Dev.modAxis_combs (n : Nat) (f : Axis → Axis) : (d.modAxis n f).combs = d.combs := rfl
@[simp] theorem Dev.modAxis_timers (n : Nat) (f : Axis → Axis) : (d.modAxis n f).timers = d.timers := rfl
@[simp] theorem Dev.modAxis_engs (n : Nat) (f : Axis → Axis) : (d.modAxis n f).engs = d.engs := rfl
@[simp] theorem Dev.modAxis_bank15 (n : Nat) (f : Axis → Axis) : (d.modAxis n f).bank15 = d.bank15 := rfl
@[simp] theorem Dev.modAxis_cores (n : Nat) (f : Axis → Axis) : (d.modAxis n f).cores = d.cores := rfl
@[simp] theorem Dev.modAxis_ownNext (n : Nat) (f : Axis → Axis) : (d.modAxis n f).ownNext = d.ownNext := rfl
@[simp] theorem Dev.modAxis_scrubAt (n : Nat) (f : Axis → Axis) : (d.modAxis n f).scrubAt = d.scrubAt := rfl
@[simp] theorem Dev.modAxis_scrubCcyc (n : Nat) (f : Axis → Axis) : (d.modAxis n f).scrubCcyc = d.scrubCcyc := rfl
@[simp] theorem Dev.modAxis_cru (n : Nat) (f : Axis → Axis) : (d.modAxis n f).cru = d.cru := rfl
@[simp] theorem Dev.modAxis_corePairs (n : Nat) (f : Axis → Axis) : (d.modAxis n f).corePairs = d.corePairs := rfl
@[simp] theorem Dev.modAxis_sqs (n : Nat) (f : Axis → Axis) : (d.modAxis n f).sqs = d.sqs := rfl
@[simp] theorem Dev.modAxis_bells (n : Nat) (f : Axis → Axis) : (d.modAxis n f).bells = d.bells := rfl
@[simp] theorem Dev.modAxis_nextOrder (n : Nat) (f : Axis → Axis) : (d.modAxis n f).nextOrder = d.nextOrder := rfl
@[simp] theorem Dev.modAxis_pcie (n : Nat) (f : Axis → Axis) : (d.modAxis n f).pcie = d.pcie := rfl
@[simp] theorem Dev.modAxis_sem (n : Nat) (f : Axis → Axis) : (d.modAxis n f).sem = d.sem := rfl
@[simp] theorem Dev.modAxis_slds (n : Nat) (f : Axis → Axis) : (d.modAxis n f).slds = d.slds := rfl
@[simp] theorem Dev.modAxis_fls (n : Nat) (f : Axis → Axis) : (d.modAxis n f).fls = d.fls := rfl
@[simp] theorem Dev.modAxis_tch (n : Nat) (f : Axis → Axis) : (d.modAxis n f).tch = d.tch := rfl
@[simp] theorem Dev.modAxis_hlm (n : Nat) (f : Axis → Axis) : (d.modAxis n f).hlm = d.hlm := rfl
@[simp] theorem Dev.modAxis_tap (n : Nat) (f : Axis → Axis) : (d.modAxis n f).tap = d.tap := rfl
@[simp] theorem Dev.modAxis_caps (n : Nat) (f : Axis → Axis) : (d.modAxis n f).caps = d.caps := rfl
@[simp] theorem Dev.modAxis_evcHigh (n : Nat) (f : Axis → Axis) : (d.modAxis n f).evcHigh = d.evcHigh := rfl
@[simp] theorem Dev.modAxis_evcAt (n : Nat) (f : Axis → Axis) : (d.modAxis n f).evcAt = d.evcAt := rfl
@[simp] theorem Dev.modAxis_evcClr (n : Nat) (f : Axis → Axis) : (d.modAxis n f).evcClr = d.evcClr := rfl
@[simp] theorem Dev.modAxis_waits (n : Nat) (f : Axis → Axis) : (d.modAxis n f).waits = d.waits := rfl
@[simp] theorem Dev.modAxis_cpls (n : Nat) (f : Axis → Axis) : (d.modAxis n f).cpls = d.cpls := rfl
@[simp] theorem Dev.modAxis_rdata (n : Nat) (f : Axis → Axis) : (d.modAxis n f).rdata = d.rdata := rfl

@[simp] theorem Dev.modInterp_part (n : Nat) (f : Interp → Interp) : (d.modInterp n f).part = d.part := rfl
@[simp] theorem Dev.modInterp_now (n : Nat) (f : Interp → Interp) : (d.modInterp n f).now = d.now := rfl
@[simp] theorem Dev.modInterp_free (n : Nat) (f : Interp → Interp) : (d.modInterp n f).free = d.free := rfl
@[simp] theorem Dev.modInterp_regs (n : Nat) (f : Interp → Interp) : (d.modInterp n f).regs = d.regs := rfl
@[simp] theorem Dev.modInterp_windows (n : Nat) (f : Interp → Interp) : (d.modInterp n f).windows = d.windows := rfl
@[simp] theorem Dev.modInterp_time (n : Nat) (f : Interp → Interp) : (d.modInterp n f).time = d.time := rfl
@[simp] theorem Dev.modInterp_clkHeld (n : Nat) (f : Interp → Interp) : (d.modInterp n f).clkHeld = d.clkHeld := rfl
@[simp] theorem Dev.modInterp_clusters (n : Nat) (f : Interp → Interp) : (d.modInterp n f).clusters = d.clusters := rfl
@[simp] theorem Dev.modInterp_crossing (n : Nat) (f : Interp → Interp) : (d.modInterp n f).crossing = d.crossing := rfl
@[simp] theorem Dev.modInterp_due (n : Nat) (f : Interp → Interp) : (d.modInterp n f).due = d.due := rfl
@[simp] theorem Dev.modInterp_events (n : Nat) (f : Interp → Interp) : (d.modInterp n f).events = d.events := rfl
@[simp] theorem Dev.modInterp_lostFor (n : Nat) (f : Interp → Interp) : (d.modInterp n f).lostFor = d.lostFor := rfl
@[simp] theorem Dev.modInterp_tchQueue (n : Nat) (f : Interp → Interp) : (d.modInterp n f).tchQueue = d.tchQueue := rfl
@[simp] theorem Dev.modInterp_tchDropped (n : Nat) (f : Interp → Interp) : (d.modInterp n f).tchDropped = d.tchDropped := rfl
@[simp] theorem Dev.modInterp_wide (n : Nat) (f : Interp → Interp) : (d.modInterp n f).wide = d.wide := rfl
@[simp] theorem Dev.modInterp_lanes (n : Nat) (f : Interp → Interp) : (d.modInterp n f).lanes = d.lanes := rfl
@[simp] theorem Dev.modInterp_axes (n : Nat) (f : Interp → Interp) : (d.modInterp n f).axes = d.axes := rfl
@[simp] theorem Dev.modInterp_tiles (n : Nat) (f : Interp → Interp) : (d.modInterp n f).tiles = d.tiles := rfl
@[simp] theorem Dev.modInterp_chans (n : Nat) (f : Interp → Interp) : (d.modInterp n f).chans = d.chans := rfl
@[simp] theorem Dev.modInterp_draining (n : Nat) (f : Interp → Interp) : (d.modInterp n f).draining = d.draining := rfl
@[simp] theorem Dev.modInterp_sdcAt (n : Nat) (f : Interp → Interp) : (d.modInterp n f).sdcAt = d.sdcAt := rfl
@[simp] theorem Dev.modInterp_pwms (n : Nat) (f : Interp → Interp) : (d.modInterp n f).pwms = d.pwms := rfl
@[simp] theorem Dev.modInterp_fbks (n : Nat) (f : Interp → Interp) : (d.modInterp n f).fbks = d.fbks := rfl
@[simp] theorem Dev.modInterp_encs (n : Nat) (f : Interp → Interp) : (d.modInterp n f).encs = d.encs := rfl
@[simp] theorem Dev.modInterp_grps (n : Nat) (f : Interp → Interp) : (d.modInterp n f).grps = d.grps := rfl
@[simp] theorem Dev.modInterp_combs (n : Nat) (f : Interp → Interp) : (d.modInterp n f).combs = d.combs := rfl
@[simp] theorem Dev.modInterp_timers (n : Nat) (f : Interp → Interp) : (d.modInterp n f).timers = d.timers := rfl
@[simp] theorem Dev.modInterp_engs (n : Nat) (f : Interp → Interp) : (d.modInterp n f).engs = d.engs := rfl
@[simp] theorem Dev.modInterp_bank15 (n : Nat) (f : Interp → Interp) : (d.modInterp n f).bank15 = d.bank15 := rfl
@[simp] theorem Dev.modInterp_cores (n : Nat) (f : Interp → Interp) : (d.modInterp n f).cores = d.cores := rfl
@[simp] theorem Dev.modInterp_ownNext (n : Nat) (f : Interp → Interp) : (d.modInterp n f).ownNext = d.ownNext := rfl
@[simp] theorem Dev.modInterp_scrubAt (n : Nat) (f : Interp → Interp) : (d.modInterp n f).scrubAt = d.scrubAt := rfl
@[simp] theorem Dev.modInterp_scrubCcyc (n : Nat) (f : Interp → Interp) : (d.modInterp n f).scrubCcyc = d.scrubCcyc := rfl
@[simp] theorem Dev.modInterp_cru (n : Nat) (f : Interp → Interp) : (d.modInterp n f).cru = d.cru := rfl
@[simp] theorem Dev.modInterp_corePairs (n : Nat) (f : Interp → Interp) : (d.modInterp n f).corePairs = d.corePairs := rfl
@[simp] theorem Dev.modInterp_sqs (n : Nat) (f : Interp → Interp) : (d.modInterp n f).sqs = d.sqs := rfl
@[simp] theorem Dev.modInterp_bells (n : Nat) (f : Interp → Interp) : (d.modInterp n f).bells = d.bells := rfl
@[simp] theorem Dev.modInterp_nextOrder (n : Nat) (f : Interp → Interp) : (d.modInterp n f).nextOrder = d.nextOrder := rfl
@[simp] theorem Dev.modInterp_pcie (n : Nat) (f : Interp → Interp) : (d.modInterp n f).pcie = d.pcie := rfl
@[simp] theorem Dev.modInterp_sem (n : Nat) (f : Interp → Interp) : (d.modInterp n f).sem = d.sem := rfl
@[simp] theorem Dev.modInterp_slds (n : Nat) (f : Interp → Interp) : (d.modInterp n f).slds = d.slds := rfl
@[simp] theorem Dev.modInterp_fls (n : Nat) (f : Interp → Interp) : (d.modInterp n f).fls = d.fls := rfl
@[simp] theorem Dev.modInterp_tch (n : Nat) (f : Interp → Interp) : (d.modInterp n f).tch = d.tch := rfl
@[simp] theorem Dev.modInterp_hlm (n : Nat) (f : Interp → Interp) : (d.modInterp n f).hlm = d.hlm := rfl
@[simp] theorem Dev.modInterp_tap (n : Nat) (f : Interp → Interp) : (d.modInterp n f).tap = d.tap := rfl
@[simp] theorem Dev.modInterp_caps (n : Nat) (f : Interp → Interp) : (d.modInterp n f).caps = d.caps := rfl
@[simp] theorem Dev.modInterp_evcHigh (n : Nat) (f : Interp → Interp) : (d.modInterp n f).evcHigh = d.evcHigh := rfl
@[simp] theorem Dev.modInterp_evcAt (n : Nat) (f : Interp → Interp) : (d.modInterp n f).evcAt = d.evcAt := rfl
@[simp] theorem Dev.modInterp_evcClr (n : Nat) (f : Interp → Interp) : (d.modInterp n f).evcClr = d.evcClr := rfl
@[simp] theorem Dev.modInterp_waits (n : Nat) (f : Interp → Interp) : (d.modInterp n f).waits = d.waits := rfl
@[simp] theorem Dev.modInterp_cpls (n : Nat) (f : Interp → Interp) : (d.modInterp n f).cpls = d.cpls := rfl
@[simp] theorem Dev.modInterp_rdata (n : Nat) (f : Interp → Interp) : (d.modInterp n f).rdata = d.rdata := rfl

@[simp] theorem Dev.modTile_part (n : Nat) (f : Tile → Tile) : (d.modTile n f).part = d.part := rfl
@[simp] theorem Dev.modTile_now (n : Nat) (f : Tile → Tile) : (d.modTile n f).now = d.now := rfl
@[simp] theorem Dev.modTile_free (n : Nat) (f : Tile → Tile) : (d.modTile n f).free = d.free := rfl
@[simp] theorem Dev.modTile_regs (n : Nat) (f : Tile → Tile) : (d.modTile n f).regs = d.regs := rfl
@[simp] theorem Dev.modTile_windows (n : Nat) (f : Tile → Tile) : (d.modTile n f).windows = d.windows := rfl
@[simp] theorem Dev.modTile_time (n : Nat) (f : Tile → Tile) : (d.modTile n f).time = d.time := rfl
@[simp] theorem Dev.modTile_clkHeld (n : Nat) (f : Tile → Tile) : (d.modTile n f).clkHeld = d.clkHeld := rfl
@[simp] theorem Dev.modTile_clusters (n : Nat) (f : Tile → Tile) : (d.modTile n f).clusters = d.clusters := rfl
@[simp] theorem Dev.modTile_crossing (n : Nat) (f : Tile → Tile) : (d.modTile n f).crossing = d.crossing := rfl
@[simp] theorem Dev.modTile_due (n : Nat) (f : Tile → Tile) : (d.modTile n f).due = d.due := rfl
@[simp] theorem Dev.modTile_events (n : Nat) (f : Tile → Tile) : (d.modTile n f).events = d.events := rfl
@[simp] theorem Dev.modTile_lostFor (n : Nat) (f : Tile → Tile) : (d.modTile n f).lostFor = d.lostFor := rfl
@[simp] theorem Dev.modTile_tchQueue (n : Nat) (f : Tile → Tile) : (d.modTile n f).tchQueue = d.tchQueue := rfl
@[simp] theorem Dev.modTile_tchDropped (n : Nat) (f : Tile → Tile) : (d.modTile n f).tchDropped = d.tchDropped := rfl
@[simp] theorem Dev.modTile_wide (n : Nat) (f : Tile → Tile) : (d.modTile n f).wide = d.wide := rfl
@[simp] theorem Dev.modTile_lanes (n : Nat) (f : Tile → Tile) : (d.modTile n f).lanes = d.lanes := rfl
@[simp] theorem Dev.modTile_axes (n : Nat) (f : Tile → Tile) : (d.modTile n f).axes = d.axes := rfl
@[simp] theorem Dev.modTile_interps (n : Nat) (f : Tile → Tile) : (d.modTile n f).interps = d.interps := rfl
@[simp] theorem Dev.modTile_chans (n : Nat) (f : Tile → Tile) : (d.modTile n f).chans = d.chans := rfl
@[simp] theorem Dev.modTile_draining (n : Nat) (f : Tile → Tile) : (d.modTile n f).draining = d.draining := rfl
@[simp] theorem Dev.modTile_sdcAt (n : Nat) (f : Tile → Tile) : (d.modTile n f).sdcAt = d.sdcAt := rfl
@[simp] theorem Dev.modTile_pwms (n : Nat) (f : Tile → Tile) : (d.modTile n f).pwms = d.pwms := rfl
@[simp] theorem Dev.modTile_fbks (n : Nat) (f : Tile → Tile) : (d.modTile n f).fbks = d.fbks := rfl
@[simp] theorem Dev.modTile_encs (n : Nat) (f : Tile → Tile) : (d.modTile n f).encs = d.encs := rfl
@[simp] theorem Dev.modTile_grps (n : Nat) (f : Tile → Tile) : (d.modTile n f).grps = d.grps := rfl
@[simp] theorem Dev.modTile_combs (n : Nat) (f : Tile → Tile) : (d.modTile n f).combs = d.combs := rfl
@[simp] theorem Dev.modTile_timers (n : Nat) (f : Tile → Tile) : (d.modTile n f).timers = d.timers := rfl
@[simp] theorem Dev.modTile_engs (n : Nat) (f : Tile → Tile) : (d.modTile n f).engs = d.engs := rfl
@[simp] theorem Dev.modTile_bank15 (n : Nat) (f : Tile → Tile) : (d.modTile n f).bank15 = d.bank15 := rfl
@[simp] theorem Dev.modTile_cores (n : Nat) (f : Tile → Tile) : (d.modTile n f).cores = d.cores := rfl
@[simp] theorem Dev.modTile_ownNext (n : Nat) (f : Tile → Tile) : (d.modTile n f).ownNext = d.ownNext := rfl
@[simp] theorem Dev.modTile_scrubAt (n : Nat) (f : Tile → Tile) : (d.modTile n f).scrubAt = d.scrubAt := rfl
@[simp] theorem Dev.modTile_scrubCcyc (n : Nat) (f : Tile → Tile) : (d.modTile n f).scrubCcyc = d.scrubCcyc := rfl
@[simp] theorem Dev.modTile_cru (n : Nat) (f : Tile → Tile) : (d.modTile n f).cru = d.cru := rfl
@[simp] theorem Dev.modTile_corePairs (n : Nat) (f : Tile → Tile) : (d.modTile n f).corePairs = d.corePairs := rfl
@[simp] theorem Dev.modTile_sqs (n : Nat) (f : Tile → Tile) : (d.modTile n f).sqs = d.sqs := rfl
@[simp] theorem Dev.modTile_bells (n : Nat) (f : Tile → Tile) : (d.modTile n f).bells = d.bells := rfl
@[simp] theorem Dev.modTile_nextOrder (n : Nat) (f : Tile → Tile) : (d.modTile n f).nextOrder = d.nextOrder := rfl
@[simp] theorem Dev.modTile_pcie (n : Nat) (f : Tile → Tile) : (d.modTile n f).pcie = d.pcie := rfl
@[simp] theorem Dev.modTile_sem (n : Nat) (f : Tile → Tile) : (d.modTile n f).sem = d.sem := rfl
@[simp] theorem Dev.modTile_slds (n : Nat) (f : Tile → Tile) : (d.modTile n f).slds = d.slds := rfl
@[simp] theorem Dev.modTile_fls (n : Nat) (f : Tile → Tile) : (d.modTile n f).fls = d.fls := rfl
@[simp] theorem Dev.modTile_tch (n : Nat) (f : Tile → Tile) : (d.modTile n f).tch = d.tch := rfl
@[simp] theorem Dev.modTile_hlm (n : Nat) (f : Tile → Tile) : (d.modTile n f).hlm = d.hlm := rfl
@[simp] theorem Dev.modTile_tap (n : Nat) (f : Tile → Tile) : (d.modTile n f).tap = d.tap := rfl
@[simp] theorem Dev.modTile_caps (n : Nat) (f : Tile → Tile) : (d.modTile n f).caps = d.caps := rfl
@[simp] theorem Dev.modTile_evcHigh (n : Nat) (f : Tile → Tile) : (d.modTile n f).evcHigh = d.evcHigh := rfl
@[simp] theorem Dev.modTile_evcAt (n : Nat) (f : Tile → Tile) : (d.modTile n f).evcAt = d.evcAt := rfl
@[simp] theorem Dev.modTile_evcClr (n : Nat) (f : Tile → Tile) : (d.modTile n f).evcClr = d.evcClr := rfl
@[simp] theorem Dev.modTile_waits (n : Nat) (f : Tile → Tile) : (d.modTile n f).waits = d.waits := rfl
@[simp] theorem Dev.modTile_cpls (n : Nat) (f : Tile → Tile) : (d.modTile n f).cpls = d.cpls := rfl
@[simp] theorem Dev.modTile_rdata (n : Nat) (f : Tile → Tile) : (d.modTile n f).rdata = d.rdata := rfl

@[simp] theorem Dev.modChan_part (n : Nat) (f : Chan → Chan) : (d.modChan n f).part = d.part := rfl
@[simp] theorem Dev.modChan_now (n : Nat) (f : Chan → Chan) : (d.modChan n f).now = d.now := rfl
@[simp] theorem Dev.modChan_free (n : Nat) (f : Chan → Chan) : (d.modChan n f).free = d.free := rfl
@[simp] theorem Dev.modChan_regs (n : Nat) (f : Chan → Chan) : (d.modChan n f).regs = d.regs := rfl
@[simp] theorem Dev.modChan_windows (n : Nat) (f : Chan → Chan) : (d.modChan n f).windows = d.windows := rfl
@[simp] theorem Dev.modChan_time (n : Nat) (f : Chan → Chan) : (d.modChan n f).time = d.time := rfl
@[simp] theorem Dev.modChan_clkHeld (n : Nat) (f : Chan → Chan) : (d.modChan n f).clkHeld = d.clkHeld := rfl
@[simp] theorem Dev.modChan_clusters (n : Nat) (f : Chan → Chan) : (d.modChan n f).clusters = d.clusters := rfl
@[simp] theorem Dev.modChan_crossing (n : Nat) (f : Chan → Chan) : (d.modChan n f).crossing = d.crossing := rfl
@[simp] theorem Dev.modChan_due (n : Nat) (f : Chan → Chan) : (d.modChan n f).due = d.due := rfl
@[simp] theorem Dev.modChan_events (n : Nat) (f : Chan → Chan) : (d.modChan n f).events = d.events := rfl
@[simp] theorem Dev.modChan_lostFor (n : Nat) (f : Chan → Chan) : (d.modChan n f).lostFor = d.lostFor := rfl
@[simp] theorem Dev.modChan_tchQueue (n : Nat) (f : Chan → Chan) : (d.modChan n f).tchQueue = d.tchQueue := rfl
@[simp] theorem Dev.modChan_tchDropped (n : Nat) (f : Chan → Chan) : (d.modChan n f).tchDropped = d.tchDropped := rfl
@[simp] theorem Dev.modChan_wide (n : Nat) (f : Chan → Chan) : (d.modChan n f).wide = d.wide := rfl
@[simp] theorem Dev.modChan_lanes (n : Nat) (f : Chan → Chan) : (d.modChan n f).lanes = d.lanes := rfl
@[simp] theorem Dev.modChan_axes (n : Nat) (f : Chan → Chan) : (d.modChan n f).axes = d.axes := rfl
@[simp] theorem Dev.modChan_interps (n : Nat) (f : Chan → Chan) : (d.modChan n f).interps = d.interps := rfl
@[simp] theorem Dev.modChan_tiles (n : Nat) (f : Chan → Chan) : (d.modChan n f).tiles = d.tiles := rfl
@[simp] theorem Dev.modChan_draining (n : Nat) (f : Chan → Chan) : (d.modChan n f).draining = d.draining := rfl
@[simp] theorem Dev.modChan_sdcAt (n : Nat) (f : Chan → Chan) : (d.modChan n f).sdcAt = d.sdcAt := rfl
@[simp] theorem Dev.modChan_pwms (n : Nat) (f : Chan → Chan) : (d.modChan n f).pwms = d.pwms := rfl
@[simp] theorem Dev.modChan_fbks (n : Nat) (f : Chan → Chan) : (d.modChan n f).fbks = d.fbks := rfl
@[simp] theorem Dev.modChan_encs (n : Nat) (f : Chan → Chan) : (d.modChan n f).encs = d.encs := rfl
@[simp] theorem Dev.modChan_grps (n : Nat) (f : Chan → Chan) : (d.modChan n f).grps = d.grps := rfl
@[simp] theorem Dev.modChan_combs (n : Nat) (f : Chan → Chan) : (d.modChan n f).combs = d.combs := rfl
@[simp] theorem Dev.modChan_timers (n : Nat) (f : Chan → Chan) : (d.modChan n f).timers = d.timers := rfl
@[simp] theorem Dev.modChan_engs (n : Nat) (f : Chan → Chan) : (d.modChan n f).engs = d.engs := rfl
@[simp] theorem Dev.modChan_bank15 (n : Nat) (f : Chan → Chan) : (d.modChan n f).bank15 = d.bank15 := rfl
@[simp] theorem Dev.modChan_cores (n : Nat) (f : Chan → Chan) : (d.modChan n f).cores = d.cores := rfl
@[simp] theorem Dev.modChan_ownNext (n : Nat) (f : Chan → Chan) : (d.modChan n f).ownNext = d.ownNext := rfl
@[simp] theorem Dev.modChan_scrubAt (n : Nat) (f : Chan → Chan) : (d.modChan n f).scrubAt = d.scrubAt := rfl
@[simp] theorem Dev.modChan_scrubCcyc (n : Nat) (f : Chan → Chan) : (d.modChan n f).scrubCcyc = d.scrubCcyc := rfl
@[simp] theorem Dev.modChan_cru (n : Nat) (f : Chan → Chan) : (d.modChan n f).cru = d.cru := rfl
@[simp] theorem Dev.modChan_corePairs (n : Nat) (f : Chan → Chan) : (d.modChan n f).corePairs = d.corePairs := rfl
@[simp] theorem Dev.modChan_sqs (n : Nat) (f : Chan → Chan) : (d.modChan n f).sqs = d.sqs := rfl
@[simp] theorem Dev.modChan_bells (n : Nat) (f : Chan → Chan) : (d.modChan n f).bells = d.bells := rfl
@[simp] theorem Dev.modChan_nextOrder (n : Nat) (f : Chan → Chan) : (d.modChan n f).nextOrder = d.nextOrder := rfl
@[simp] theorem Dev.modChan_pcie (n : Nat) (f : Chan → Chan) : (d.modChan n f).pcie = d.pcie := rfl
@[simp] theorem Dev.modChan_sem (n : Nat) (f : Chan → Chan) : (d.modChan n f).sem = d.sem := rfl
@[simp] theorem Dev.modChan_slds (n : Nat) (f : Chan → Chan) : (d.modChan n f).slds = d.slds := rfl
@[simp] theorem Dev.modChan_fls (n : Nat) (f : Chan → Chan) : (d.modChan n f).fls = d.fls := rfl
@[simp] theorem Dev.modChan_tch (n : Nat) (f : Chan → Chan) : (d.modChan n f).tch = d.tch := rfl
@[simp] theorem Dev.modChan_hlm (n : Nat) (f : Chan → Chan) : (d.modChan n f).hlm = d.hlm := rfl
@[simp] theorem Dev.modChan_tap (n : Nat) (f : Chan → Chan) : (d.modChan n f).tap = d.tap := rfl
@[simp] theorem Dev.modChan_caps (n : Nat) (f : Chan → Chan) : (d.modChan n f).caps = d.caps := rfl
@[simp] theorem Dev.modChan_evcHigh (n : Nat) (f : Chan → Chan) : (d.modChan n f).evcHigh = d.evcHigh := rfl
@[simp] theorem Dev.modChan_evcAt (n : Nat) (f : Chan → Chan) : (d.modChan n f).evcAt = d.evcAt := rfl
@[simp] theorem Dev.modChan_evcClr (n : Nat) (f : Chan → Chan) : (d.modChan n f).evcClr = d.evcClr := rfl
@[simp] theorem Dev.modChan_waits (n : Nat) (f : Chan → Chan) : (d.modChan n f).waits = d.waits := rfl
@[simp] theorem Dev.modChan_cpls (n : Nat) (f : Chan → Chan) : (d.modChan n f).cpls = d.cpls := rfl
@[simp] theorem Dev.modChan_rdata (n : Nat) (f : Chan → Chan) : (d.modChan n f).rdata = d.rdata := rfl

@[simp] theorem Dev.modPwm_part (n : Nat) (f : Pwm → Pwm) : (d.modPwm n f).part = d.part := rfl
@[simp] theorem Dev.modPwm_now (n : Nat) (f : Pwm → Pwm) : (d.modPwm n f).now = d.now := rfl
@[simp] theorem Dev.modPwm_free (n : Nat) (f : Pwm → Pwm) : (d.modPwm n f).free = d.free := rfl
@[simp] theorem Dev.modPwm_regs (n : Nat) (f : Pwm → Pwm) : (d.modPwm n f).regs = d.regs := rfl
@[simp] theorem Dev.modPwm_windows (n : Nat) (f : Pwm → Pwm) : (d.modPwm n f).windows = d.windows := rfl
@[simp] theorem Dev.modPwm_time (n : Nat) (f : Pwm → Pwm) : (d.modPwm n f).time = d.time := rfl
@[simp] theorem Dev.modPwm_clkHeld (n : Nat) (f : Pwm → Pwm) : (d.modPwm n f).clkHeld = d.clkHeld := rfl
@[simp] theorem Dev.modPwm_clusters (n : Nat) (f : Pwm → Pwm) : (d.modPwm n f).clusters = d.clusters := rfl
@[simp] theorem Dev.modPwm_crossing (n : Nat) (f : Pwm → Pwm) : (d.modPwm n f).crossing = d.crossing := rfl
@[simp] theorem Dev.modPwm_due (n : Nat) (f : Pwm → Pwm) : (d.modPwm n f).due = d.due := rfl
@[simp] theorem Dev.modPwm_events (n : Nat) (f : Pwm → Pwm) : (d.modPwm n f).events = d.events := rfl
@[simp] theorem Dev.modPwm_lostFor (n : Nat) (f : Pwm → Pwm) : (d.modPwm n f).lostFor = d.lostFor := rfl
@[simp] theorem Dev.modPwm_tchQueue (n : Nat) (f : Pwm → Pwm) : (d.modPwm n f).tchQueue = d.tchQueue := rfl
@[simp] theorem Dev.modPwm_tchDropped (n : Nat) (f : Pwm → Pwm) : (d.modPwm n f).tchDropped = d.tchDropped := rfl
@[simp] theorem Dev.modPwm_wide (n : Nat) (f : Pwm → Pwm) : (d.modPwm n f).wide = d.wide := rfl
@[simp] theorem Dev.modPwm_lanes (n : Nat) (f : Pwm → Pwm) : (d.modPwm n f).lanes = d.lanes := rfl
@[simp] theorem Dev.modPwm_axes (n : Nat) (f : Pwm → Pwm) : (d.modPwm n f).axes = d.axes := rfl
@[simp] theorem Dev.modPwm_interps (n : Nat) (f : Pwm → Pwm) : (d.modPwm n f).interps = d.interps := rfl
@[simp] theorem Dev.modPwm_tiles (n : Nat) (f : Pwm → Pwm) : (d.modPwm n f).tiles = d.tiles := rfl
@[simp] theorem Dev.modPwm_chans (n : Nat) (f : Pwm → Pwm) : (d.modPwm n f).chans = d.chans := rfl
@[simp] theorem Dev.modPwm_draining (n : Nat) (f : Pwm → Pwm) : (d.modPwm n f).draining = d.draining := rfl
@[simp] theorem Dev.modPwm_sdcAt (n : Nat) (f : Pwm → Pwm) : (d.modPwm n f).sdcAt = d.sdcAt := rfl
@[simp] theorem Dev.modPwm_fbks (n : Nat) (f : Pwm → Pwm) : (d.modPwm n f).fbks = d.fbks := rfl
@[simp] theorem Dev.modPwm_encs (n : Nat) (f : Pwm → Pwm) : (d.modPwm n f).encs = d.encs := rfl
@[simp] theorem Dev.modPwm_grps (n : Nat) (f : Pwm → Pwm) : (d.modPwm n f).grps = d.grps := rfl
@[simp] theorem Dev.modPwm_combs (n : Nat) (f : Pwm → Pwm) : (d.modPwm n f).combs = d.combs := rfl
@[simp] theorem Dev.modPwm_timers (n : Nat) (f : Pwm → Pwm) : (d.modPwm n f).timers = d.timers := rfl
@[simp] theorem Dev.modPwm_engs (n : Nat) (f : Pwm → Pwm) : (d.modPwm n f).engs = d.engs := rfl
@[simp] theorem Dev.modPwm_bank15 (n : Nat) (f : Pwm → Pwm) : (d.modPwm n f).bank15 = d.bank15 := rfl
@[simp] theorem Dev.modPwm_cores (n : Nat) (f : Pwm → Pwm) : (d.modPwm n f).cores = d.cores := rfl
@[simp] theorem Dev.modPwm_ownNext (n : Nat) (f : Pwm → Pwm) : (d.modPwm n f).ownNext = d.ownNext := rfl
@[simp] theorem Dev.modPwm_scrubAt (n : Nat) (f : Pwm → Pwm) : (d.modPwm n f).scrubAt = d.scrubAt := rfl
@[simp] theorem Dev.modPwm_scrubCcyc (n : Nat) (f : Pwm → Pwm) : (d.modPwm n f).scrubCcyc = d.scrubCcyc := rfl
@[simp] theorem Dev.modPwm_cru (n : Nat) (f : Pwm → Pwm) : (d.modPwm n f).cru = d.cru := rfl
@[simp] theorem Dev.modPwm_corePairs (n : Nat) (f : Pwm → Pwm) : (d.modPwm n f).corePairs = d.corePairs := rfl
@[simp] theorem Dev.modPwm_sqs (n : Nat) (f : Pwm → Pwm) : (d.modPwm n f).sqs = d.sqs := rfl
@[simp] theorem Dev.modPwm_bells (n : Nat) (f : Pwm → Pwm) : (d.modPwm n f).bells = d.bells := rfl
@[simp] theorem Dev.modPwm_nextOrder (n : Nat) (f : Pwm → Pwm) : (d.modPwm n f).nextOrder = d.nextOrder := rfl
@[simp] theorem Dev.modPwm_pcie (n : Nat) (f : Pwm → Pwm) : (d.modPwm n f).pcie = d.pcie := rfl
@[simp] theorem Dev.modPwm_sem (n : Nat) (f : Pwm → Pwm) : (d.modPwm n f).sem = d.sem := rfl
@[simp] theorem Dev.modPwm_slds (n : Nat) (f : Pwm → Pwm) : (d.modPwm n f).slds = d.slds := rfl
@[simp] theorem Dev.modPwm_fls (n : Nat) (f : Pwm → Pwm) : (d.modPwm n f).fls = d.fls := rfl
@[simp] theorem Dev.modPwm_tch (n : Nat) (f : Pwm → Pwm) : (d.modPwm n f).tch = d.tch := rfl
@[simp] theorem Dev.modPwm_hlm (n : Nat) (f : Pwm → Pwm) : (d.modPwm n f).hlm = d.hlm := rfl
@[simp] theorem Dev.modPwm_tap (n : Nat) (f : Pwm → Pwm) : (d.modPwm n f).tap = d.tap := rfl
@[simp] theorem Dev.modPwm_caps (n : Nat) (f : Pwm → Pwm) : (d.modPwm n f).caps = d.caps := rfl
@[simp] theorem Dev.modPwm_evcHigh (n : Nat) (f : Pwm → Pwm) : (d.modPwm n f).evcHigh = d.evcHigh := rfl
@[simp] theorem Dev.modPwm_evcAt (n : Nat) (f : Pwm → Pwm) : (d.modPwm n f).evcAt = d.evcAt := rfl
@[simp] theorem Dev.modPwm_evcClr (n : Nat) (f : Pwm → Pwm) : (d.modPwm n f).evcClr = d.evcClr := rfl
@[simp] theorem Dev.modPwm_waits (n : Nat) (f : Pwm → Pwm) : (d.modPwm n f).waits = d.waits := rfl
@[simp] theorem Dev.modPwm_cpls (n : Nat) (f : Pwm → Pwm) : (d.modPwm n f).cpls = d.cpls := rfl
@[simp] theorem Dev.modPwm_rdata (n : Nat) (f : Pwm → Pwm) : (d.modPwm n f).rdata = d.rdata := rfl

@[simp] theorem Dev.modFbk_part (n : Nat) (f : Fbk → Fbk) : (d.modFbk n f).part = d.part := rfl
@[simp] theorem Dev.modFbk_now (n : Nat) (f : Fbk → Fbk) : (d.modFbk n f).now = d.now := rfl
@[simp] theorem Dev.modFbk_free (n : Nat) (f : Fbk → Fbk) : (d.modFbk n f).free = d.free := rfl
@[simp] theorem Dev.modFbk_regs (n : Nat) (f : Fbk → Fbk) : (d.modFbk n f).regs = d.regs := rfl
@[simp] theorem Dev.modFbk_windows (n : Nat) (f : Fbk → Fbk) : (d.modFbk n f).windows = d.windows := rfl
@[simp] theorem Dev.modFbk_time (n : Nat) (f : Fbk → Fbk) : (d.modFbk n f).time = d.time := rfl
@[simp] theorem Dev.modFbk_clkHeld (n : Nat) (f : Fbk → Fbk) : (d.modFbk n f).clkHeld = d.clkHeld := rfl
@[simp] theorem Dev.modFbk_clusters (n : Nat) (f : Fbk → Fbk) : (d.modFbk n f).clusters = d.clusters := rfl
@[simp] theorem Dev.modFbk_crossing (n : Nat) (f : Fbk → Fbk) : (d.modFbk n f).crossing = d.crossing := rfl
@[simp] theorem Dev.modFbk_due (n : Nat) (f : Fbk → Fbk) : (d.modFbk n f).due = d.due := rfl
@[simp] theorem Dev.modFbk_events (n : Nat) (f : Fbk → Fbk) : (d.modFbk n f).events = d.events := rfl
@[simp] theorem Dev.modFbk_lostFor (n : Nat) (f : Fbk → Fbk) : (d.modFbk n f).lostFor = d.lostFor := rfl
@[simp] theorem Dev.modFbk_tchQueue (n : Nat) (f : Fbk → Fbk) : (d.modFbk n f).tchQueue = d.tchQueue := rfl
@[simp] theorem Dev.modFbk_tchDropped (n : Nat) (f : Fbk → Fbk) : (d.modFbk n f).tchDropped = d.tchDropped := rfl
@[simp] theorem Dev.modFbk_wide (n : Nat) (f : Fbk → Fbk) : (d.modFbk n f).wide = d.wide := rfl
@[simp] theorem Dev.modFbk_lanes (n : Nat) (f : Fbk → Fbk) : (d.modFbk n f).lanes = d.lanes := rfl
@[simp] theorem Dev.modFbk_axes (n : Nat) (f : Fbk → Fbk) : (d.modFbk n f).axes = d.axes := rfl
@[simp] theorem Dev.modFbk_interps (n : Nat) (f : Fbk → Fbk) : (d.modFbk n f).interps = d.interps := rfl
@[simp] theorem Dev.modFbk_tiles (n : Nat) (f : Fbk → Fbk) : (d.modFbk n f).tiles = d.tiles := rfl
@[simp] theorem Dev.modFbk_chans (n : Nat) (f : Fbk → Fbk) : (d.modFbk n f).chans = d.chans := rfl
@[simp] theorem Dev.modFbk_draining (n : Nat) (f : Fbk → Fbk) : (d.modFbk n f).draining = d.draining := rfl
@[simp] theorem Dev.modFbk_sdcAt (n : Nat) (f : Fbk → Fbk) : (d.modFbk n f).sdcAt = d.sdcAt := rfl
@[simp] theorem Dev.modFbk_pwms (n : Nat) (f : Fbk → Fbk) : (d.modFbk n f).pwms = d.pwms := rfl
@[simp] theorem Dev.modFbk_encs (n : Nat) (f : Fbk → Fbk) : (d.modFbk n f).encs = d.encs := rfl
@[simp] theorem Dev.modFbk_grps (n : Nat) (f : Fbk → Fbk) : (d.modFbk n f).grps = d.grps := rfl
@[simp] theorem Dev.modFbk_combs (n : Nat) (f : Fbk → Fbk) : (d.modFbk n f).combs = d.combs := rfl
@[simp] theorem Dev.modFbk_timers (n : Nat) (f : Fbk → Fbk) : (d.modFbk n f).timers = d.timers := rfl
@[simp] theorem Dev.modFbk_engs (n : Nat) (f : Fbk → Fbk) : (d.modFbk n f).engs = d.engs := rfl
@[simp] theorem Dev.modFbk_bank15 (n : Nat) (f : Fbk → Fbk) : (d.modFbk n f).bank15 = d.bank15 := rfl
@[simp] theorem Dev.modFbk_cores (n : Nat) (f : Fbk → Fbk) : (d.modFbk n f).cores = d.cores := rfl
@[simp] theorem Dev.modFbk_ownNext (n : Nat) (f : Fbk → Fbk) : (d.modFbk n f).ownNext = d.ownNext := rfl
@[simp] theorem Dev.modFbk_scrubAt (n : Nat) (f : Fbk → Fbk) : (d.modFbk n f).scrubAt = d.scrubAt := rfl
@[simp] theorem Dev.modFbk_scrubCcyc (n : Nat) (f : Fbk → Fbk) : (d.modFbk n f).scrubCcyc = d.scrubCcyc := rfl
@[simp] theorem Dev.modFbk_cru (n : Nat) (f : Fbk → Fbk) : (d.modFbk n f).cru = d.cru := rfl
@[simp] theorem Dev.modFbk_corePairs (n : Nat) (f : Fbk → Fbk) : (d.modFbk n f).corePairs = d.corePairs := rfl
@[simp] theorem Dev.modFbk_sqs (n : Nat) (f : Fbk → Fbk) : (d.modFbk n f).sqs = d.sqs := rfl
@[simp] theorem Dev.modFbk_bells (n : Nat) (f : Fbk → Fbk) : (d.modFbk n f).bells = d.bells := rfl
@[simp] theorem Dev.modFbk_nextOrder (n : Nat) (f : Fbk → Fbk) : (d.modFbk n f).nextOrder = d.nextOrder := rfl
@[simp] theorem Dev.modFbk_pcie (n : Nat) (f : Fbk → Fbk) : (d.modFbk n f).pcie = d.pcie := rfl
@[simp] theorem Dev.modFbk_sem (n : Nat) (f : Fbk → Fbk) : (d.modFbk n f).sem = d.sem := rfl
@[simp] theorem Dev.modFbk_slds (n : Nat) (f : Fbk → Fbk) : (d.modFbk n f).slds = d.slds := rfl
@[simp] theorem Dev.modFbk_fls (n : Nat) (f : Fbk → Fbk) : (d.modFbk n f).fls = d.fls := rfl
@[simp] theorem Dev.modFbk_tch (n : Nat) (f : Fbk → Fbk) : (d.modFbk n f).tch = d.tch := rfl
@[simp] theorem Dev.modFbk_hlm (n : Nat) (f : Fbk → Fbk) : (d.modFbk n f).hlm = d.hlm := rfl
@[simp] theorem Dev.modFbk_tap (n : Nat) (f : Fbk → Fbk) : (d.modFbk n f).tap = d.tap := rfl
@[simp] theorem Dev.modFbk_caps (n : Nat) (f : Fbk → Fbk) : (d.modFbk n f).caps = d.caps := rfl
@[simp] theorem Dev.modFbk_evcHigh (n : Nat) (f : Fbk → Fbk) : (d.modFbk n f).evcHigh = d.evcHigh := rfl
@[simp] theorem Dev.modFbk_evcAt (n : Nat) (f : Fbk → Fbk) : (d.modFbk n f).evcAt = d.evcAt := rfl
@[simp] theorem Dev.modFbk_evcClr (n : Nat) (f : Fbk → Fbk) : (d.modFbk n f).evcClr = d.evcClr := rfl
@[simp] theorem Dev.modFbk_waits (n : Nat) (f : Fbk → Fbk) : (d.modFbk n f).waits = d.waits := rfl
@[simp] theorem Dev.modFbk_cpls (n : Nat) (f : Fbk → Fbk) : (d.modFbk n f).cpls = d.cpls := rfl
@[simp] theorem Dev.modFbk_rdata (n : Nat) (f : Fbk → Fbk) : (d.modFbk n f).rdata = d.rdata := rfl

@[simp] theorem Dev.modEnc_part (n : Nat) (f : EncOut → EncOut) : (d.modEnc n f).part = d.part := rfl
@[simp] theorem Dev.modEnc_now (n : Nat) (f : EncOut → EncOut) : (d.modEnc n f).now = d.now := rfl
@[simp] theorem Dev.modEnc_free (n : Nat) (f : EncOut → EncOut) : (d.modEnc n f).free = d.free := rfl
@[simp] theorem Dev.modEnc_regs (n : Nat) (f : EncOut → EncOut) : (d.modEnc n f).regs = d.regs := rfl
@[simp] theorem Dev.modEnc_windows (n : Nat) (f : EncOut → EncOut) : (d.modEnc n f).windows = d.windows := rfl
@[simp] theorem Dev.modEnc_time (n : Nat) (f : EncOut → EncOut) : (d.modEnc n f).time = d.time := rfl
@[simp] theorem Dev.modEnc_clkHeld (n : Nat) (f : EncOut → EncOut) : (d.modEnc n f).clkHeld = d.clkHeld := rfl
@[simp] theorem Dev.modEnc_clusters (n : Nat) (f : EncOut → EncOut) : (d.modEnc n f).clusters = d.clusters := rfl
@[simp] theorem Dev.modEnc_crossing (n : Nat) (f : EncOut → EncOut) : (d.modEnc n f).crossing = d.crossing := rfl
@[simp] theorem Dev.modEnc_due (n : Nat) (f : EncOut → EncOut) : (d.modEnc n f).due = d.due := rfl
@[simp] theorem Dev.modEnc_events (n : Nat) (f : EncOut → EncOut) : (d.modEnc n f).events = d.events := rfl
@[simp] theorem Dev.modEnc_lostFor (n : Nat) (f : EncOut → EncOut) : (d.modEnc n f).lostFor = d.lostFor := rfl
@[simp] theorem Dev.modEnc_tchQueue (n : Nat) (f : EncOut → EncOut) : (d.modEnc n f).tchQueue = d.tchQueue := rfl
@[simp] theorem Dev.modEnc_tchDropped (n : Nat) (f : EncOut → EncOut) : (d.modEnc n f).tchDropped = d.tchDropped := rfl
@[simp] theorem Dev.modEnc_wide (n : Nat) (f : EncOut → EncOut) : (d.modEnc n f).wide = d.wide := rfl
@[simp] theorem Dev.modEnc_lanes (n : Nat) (f : EncOut → EncOut) : (d.modEnc n f).lanes = d.lanes := rfl
@[simp] theorem Dev.modEnc_axes (n : Nat) (f : EncOut → EncOut) : (d.modEnc n f).axes = d.axes := rfl
@[simp] theorem Dev.modEnc_interps (n : Nat) (f : EncOut → EncOut) : (d.modEnc n f).interps = d.interps := rfl
@[simp] theorem Dev.modEnc_tiles (n : Nat) (f : EncOut → EncOut) : (d.modEnc n f).tiles = d.tiles := rfl
@[simp] theorem Dev.modEnc_chans (n : Nat) (f : EncOut → EncOut) : (d.modEnc n f).chans = d.chans := rfl
@[simp] theorem Dev.modEnc_draining (n : Nat) (f : EncOut → EncOut) : (d.modEnc n f).draining = d.draining := rfl
@[simp] theorem Dev.modEnc_sdcAt (n : Nat) (f : EncOut → EncOut) : (d.modEnc n f).sdcAt = d.sdcAt := rfl
@[simp] theorem Dev.modEnc_pwms (n : Nat) (f : EncOut → EncOut) : (d.modEnc n f).pwms = d.pwms := rfl
@[simp] theorem Dev.modEnc_fbks (n : Nat) (f : EncOut → EncOut) : (d.modEnc n f).fbks = d.fbks := rfl
@[simp] theorem Dev.modEnc_grps (n : Nat) (f : EncOut → EncOut) : (d.modEnc n f).grps = d.grps := rfl
@[simp] theorem Dev.modEnc_combs (n : Nat) (f : EncOut → EncOut) : (d.modEnc n f).combs = d.combs := rfl
@[simp] theorem Dev.modEnc_timers (n : Nat) (f : EncOut → EncOut) : (d.modEnc n f).timers = d.timers := rfl
@[simp] theorem Dev.modEnc_engs (n : Nat) (f : EncOut → EncOut) : (d.modEnc n f).engs = d.engs := rfl
@[simp] theorem Dev.modEnc_bank15 (n : Nat) (f : EncOut → EncOut) : (d.modEnc n f).bank15 = d.bank15 := rfl
@[simp] theorem Dev.modEnc_cores (n : Nat) (f : EncOut → EncOut) : (d.modEnc n f).cores = d.cores := rfl
@[simp] theorem Dev.modEnc_ownNext (n : Nat) (f : EncOut → EncOut) : (d.modEnc n f).ownNext = d.ownNext := rfl
@[simp] theorem Dev.modEnc_scrubAt (n : Nat) (f : EncOut → EncOut) : (d.modEnc n f).scrubAt = d.scrubAt := rfl
@[simp] theorem Dev.modEnc_scrubCcyc (n : Nat) (f : EncOut → EncOut) : (d.modEnc n f).scrubCcyc = d.scrubCcyc := rfl
@[simp] theorem Dev.modEnc_cru (n : Nat) (f : EncOut → EncOut) : (d.modEnc n f).cru = d.cru := rfl
@[simp] theorem Dev.modEnc_corePairs (n : Nat) (f : EncOut → EncOut) : (d.modEnc n f).corePairs = d.corePairs := rfl
@[simp] theorem Dev.modEnc_sqs (n : Nat) (f : EncOut → EncOut) : (d.modEnc n f).sqs = d.sqs := rfl
@[simp] theorem Dev.modEnc_bells (n : Nat) (f : EncOut → EncOut) : (d.modEnc n f).bells = d.bells := rfl
@[simp] theorem Dev.modEnc_nextOrder (n : Nat) (f : EncOut → EncOut) : (d.modEnc n f).nextOrder = d.nextOrder := rfl
@[simp] theorem Dev.modEnc_pcie (n : Nat) (f : EncOut → EncOut) : (d.modEnc n f).pcie = d.pcie := rfl
@[simp] theorem Dev.modEnc_sem (n : Nat) (f : EncOut → EncOut) : (d.modEnc n f).sem = d.sem := rfl
@[simp] theorem Dev.modEnc_slds (n : Nat) (f : EncOut → EncOut) : (d.modEnc n f).slds = d.slds := rfl
@[simp] theorem Dev.modEnc_fls (n : Nat) (f : EncOut → EncOut) : (d.modEnc n f).fls = d.fls := rfl
@[simp] theorem Dev.modEnc_tch (n : Nat) (f : EncOut → EncOut) : (d.modEnc n f).tch = d.tch := rfl
@[simp] theorem Dev.modEnc_hlm (n : Nat) (f : EncOut → EncOut) : (d.modEnc n f).hlm = d.hlm := rfl
@[simp] theorem Dev.modEnc_tap (n : Nat) (f : EncOut → EncOut) : (d.modEnc n f).tap = d.tap := rfl
@[simp] theorem Dev.modEnc_caps (n : Nat) (f : EncOut → EncOut) : (d.modEnc n f).caps = d.caps := rfl
@[simp] theorem Dev.modEnc_evcHigh (n : Nat) (f : EncOut → EncOut) : (d.modEnc n f).evcHigh = d.evcHigh := rfl
@[simp] theorem Dev.modEnc_evcAt (n : Nat) (f : EncOut → EncOut) : (d.modEnc n f).evcAt = d.evcAt := rfl
@[simp] theorem Dev.modEnc_evcClr (n : Nat) (f : EncOut → EncOut) : (d.modEnc n f).evcClr = d.evcClr := rfl
@[simp] theorem Dev.modEnc_waits (n : Nat) (f : EncOut → EncOut) : (d.modEnc n f).waits = d.waits := rfl
@[simp] theorem Dev.modEnc_cpls (n : Nat) (f : EncOut → EncOut) : (d.modEnc n f).cpls = d.cpls := rfl
@[simp] theorem Dev.modEnc_rdata (n : Nat) (f : EncOut → EncOut) : (d.modEnc n f).rdata = d.rdata := rfl

@[simp] theorem Dev.modComb_part (n : Nat) (f : Comb → Comb) : (d.modComb n f).part = d.part := rfl
@[simp] theorem Dev.modComb_now (n : Nat) (f : Comb → Comb) : (d.modComb n f).now = d.now := rfl
@[simp] theorem Dev.modComb_free (n : Nat) (f : Comb → Comb) : (d.modComb n f).free = d.free := rfl
@[simp] theorem Dev.modComb_regs (n : Nat) (f : Comb → Comb) : (d.modComb n f).regs = d.regs := rfl
@[simp] theorem Dev.modComb_windows (n : Nat) (f : Comb → Comb) : (d.modComb n f).windows = d.windows := rfl
@[simp] theorem Dev.modComb_time (n : Nat) (f : Comb → Comb) : (d.modComb n f).time = d.time := rfl
@[simp] theorem Dev.modComb_clkHeld (n : Nat) (f : Comb → Comb) : (d.modComb n f).clkHeld = d.clkHeld := rfl
@[simp] theorem Dev.modComb_clusters (n : Nat) (f : Comb → Comb) : (d.modComb n f).clusters = d.clusters := rfl
@[simp] theorem Dev.modComb_crossing (n : Nat) (f : Comb → Comb) : (d.modComb n f).crossing = d.crossing := rfl
@[simp] theorem Dev.modComb_due (n : Nat) (f : Comb → Comb) : (d.modComb n f).due = d.due := rfl
@[simp] theorem Dev.modComb_events (n : Nat) (f : Comb → Comb) : (d.modComb n f).events = d.events := rfl
@[simp] theorem Dev.modComb_lostFor (n : Nat) (f : Comb → Comb) : (d.modComb n f).lostFor = d.lostFor := rfl
@[simp] theorem Dev.modComb_tchQueue (n : Nat) (f : Comb → Comb) : (d.modComb n f).tchQueue = d.tchQueue := rfl
@[simp] theorem Dev.modComb_tchDropped (n : Nat) (f : Comb → Comb) : (d.modComb n f).tchDropped = d.tchDropped := rfl
@[simp] theorem Dev.modComb_wide (n : Nat) (f : Comb → Comb) : (d.modComb n f).wide = d.wide := rfl
@[simp] theorem Dev.modComb_lanes (n : Nat) (f : Comb → Comb) : (d.modComb n f).lanes = d.lanes := rfl
@[simp] theorem Dev.modComb_axes (n : Nat) (f : Comb → Comb) : (d.modComb n f).axes = d.axes := rfl
@[simp] theorem Dev.modComb_interps (n : Nat) (f : Comb → Comb) : (d.modComb n f).interps = d.interps := rfl
@[simp] theorem Dev.modComb_tiles (n : Nat) (f : Comb → Comb) : (d.modComb n f).tiles = d.tiles := rfl
@[simp] theorem Dev.modComb_chans (n : Nat) (f : Comb → Comb) : (d.modComb n f).chans = d.chans := rfl
@[simp] theorem Dev.modComb_draining (n : Nat) (f : Comb → Comb) : (d.modComb n f).draining = d.draining := rfl
@[simp] theorem Dev.modComb_sdcAt (n : Nat) (f : Comb → Comb) : (d.modComb n f).sdcAt = d.sdcAt := rfl
@[simp] theorem Dev.modComb_pwms (n : Nat) (f : Comb → Comb) : (d.modComb n f).pwms = d.pwms := rfl
@[simp] theorem Dev.modComb_fbks (n : Nat) (f : Comb → Comb) : (d.modComb n f).fbks = d.fbks := rfl
@[simp] theorem Dev.modComb_encs (n : Nat) (f : Comb → Comb) : (d.modComb n f).encs = d.encs := rfl
@[simp] theorem Dev.modComb_grps (n : Nat) (f : Comb → Comb) : (d.modComb n f).grps = d.grps := rfl
@[simp] theorem Dev.modComb_timers (n : Nat) (f : Comb → Comb) : (d.modComb n f).timers = d.timers := rfl
@[simp] theorem Dev.modComb_engs (n : Nat) (f : Comb → Comb) : (d.modComb n f).engs = d.engs := rfl
@[simp] theorem Dev.modComb_bank15 (n : Nat) (f : Comb → Comb) : (d.modComb n f).bank15 = d.bank15 := rfl
@[simp] theorem Dev.modComb_cores (n : Nat) (f : Comb → Comb) : (d.modComb n f).cores = d.cores := rfl
@[simp] theorem Dev.modComb_ownNext (n : Nat) (f : Comb → Comb) : (d.modComb n f).ownNext = d.ownNext := rfl
@[simp] theorem Dev.modComb_scrubAt (n : Nat) (f : Comb → Comb) : (d.modComb n f).scrubAt = d.scrubAt := rfl
@[simp] theorem Dev.modComb_scrubCcyc (n : Nat) (f : Comb → Comb) : (d.modComb n f).scrubCcyc = d.scrubCcyc := rfl
@[simp] theorem Dev.modComb_cru (n : Nat) (f : Comb → Comb) : (d.modComb n f).cru = d.cru := rfl
@[simp] theorem Dev.modComb_corePairs (n : Nat) (f : Comb → Comb) : (d.modComb n f).corePairs = d.corePairs := rfl
@[simp] theorem Dev.modComb_sqs (n : Nat) (f : Comb → Comb) : (d.modComb n f).sqs = d.sqs := rfl
@[simp] theorem Dev.modComb_bells (n : Nat) (f : Comb → Comb) : (d.modComb n f).bells = d.bells := rfl
@[simp] theorem Dev.modComb_nextOrder (n : Nat) (f : Comb → Comb) : (d.modComb n f).nextOrder = d.nextOrder := rfl
@[simp] theorem Dev.modComb_pcie (n : Nat) (f : Comb → Comb) : (d.modComb n f).pcie = d.pcie := rfl
@[simp] theorem Dev.modComb_sem (n : Nat) (f : Comb → Comb) : (d.modComb n f).sem = d.sem := rfl
@[simp] theorem Dev.modComb_slds (n : Nat) (f : Comb → Comb) : (d.modComb n f).slds = d.slds := rfl
@[simp] theorem Dev.modComb_fls (n : Nat) (f : Comb → Comb) : (d.modComb n f).fls = d.fls := rfl
@[simp] theorem Dev.modComb_tch (n : Nat) (f : Comb → Comb) : (d.modComb n f).tch = d.tch := rfl
@[simp] theorem Dev.modComb_hlm (n : Nat) (f : Comb → Comb) : (d.modComb n f).hlm = d.hlm := rfl
@[simp] theorem Dev.modComb_tap (n : Nat) (f : Comb → Comb) : (d.modComb n f).tap = d.tap := rfl
@[simp] theorem Dev.modComb_caps (n : Nat) (f : Comb → Comb) : (d.modComb n f).caps = d.caps := rfl
@[simp] theorem Dev.modComb_evcHigh (n : Nat) (f : Comb → Comb) : (d.modComb n f).evcHigh = d.evcHigh := rfl
@[simp] theorem Dev.modComb_evcAt (n : Nat) (f : Comb → Comb) : (d.modComb n f).evcAt = d.evcAt := rfl
@[simp] theorem Dev.modComb_evcClr (n : Nat) (f : Comb → Comb) : (d.modComb n f).evcClr = d.evcClr := rfl
@[simp] theorem Dev.modComb_waits (n : Nat) (f : Comb → Comb) : (d.modComb n f).waits = d.waits := rfl
@[simp] theorem Dev.modComb_cpls (n : Nat) (f : Comb → Comb) : (d.modComb n f).cpls = d.cpls := rfl
@[simp] theorem Dev.modComb_rdata (n : Nat) (f : Comb → Comb) : (d.modComb n f).rdata = d.rdata := rfl

@[simp] theorem Dev.modTmr_part (n : Nat) (f : Tmr → Tmr) : (d.modTmr n f).part = d.part := rfl
@[simp] theorem Dev.modTmr_now (n : Nat) (f : Tmr → Tmr) : (d.modTmr n f).now = d.now := rfl
@[simp] theorem Dev.modTmr_free (n : Nat) (f : Tmr → Tmr) : (d.modTmr n f).free = d.free := rfl
@[simp] theorem Dev.modTmr_regs (n : Nat) (f : Tmr → Tmr) : (d.modTmr n f).regs = d.regs := rfl
@[simp] theorem Dev.modTmr_windows (n : Nat) (f : Tmr → Tmr) : (d.modTmr n f).windows = d.windows := rfl
@[simp] theorem Dev.modTmr_time (n : Nat) (f : Tmr → Tmr) : (d.modTmr n f).time = d.time := rfl
@[simp] theorem Dev.modTmr_clkHeld (n : Nat) (f : Tmr → Tmr) : (d.modTmr n f).clkHeld = d.clkHeld := rfl
@[simp] theorem Dev.modTmr_clusters (n : Nat) (f : Tmr → Tmr) : (d.modTmr n f).clusters = d.clusters := rfl
@[simp] theorem Dev.modTmr_crossing (n : Nat) (f : Tmr → Tmr) : (d.modTmr n f).crossing = d.crossing := rfl
@[simp] theorem Dev.modTmr_due (n : Nat) (f : Tmr → Tmr) : (d.modTmr n f).due = d.due := rfl
@[simp] theorem Dev.modTmr_events (n : Nat) (f : Tmr → Tmr) : (d.modTmr n f).events = d.events := rfl
@[simp] theorem Dev.modTmr_lostFor (n : Nat) (f : Tmr → Tmr) : (d.modTmr n f).lostFor = d.lostFor := rfl
@[simp] theorem Dev.modTmr_tchQueue (n : Nat) (f : Tmr → Tmr) : (d.modTmr n f).tchQueue = d.tchQueue := rfl
@[simp] theorem Dev.modTmr_tchDropped (n : Nat) (f : Tmr → Tmr) : (d.modTmr n f).tchDropped = d.tchDropped := rfl
@[simp] theorem Dev.modTmr_wide (n : Nat) (f : Tmr → Tmr) : (d.modTmr n f).wide = d.wide := rfl
@[simp] theorem Dev.modTmr_lanes (n : Nat) (f : Tmr → Tmr) : (d.modTmr n f).lanes = d.lanes := rfl
@[simp] theorem Dev.modTmr_axes (n : Nat) (f : Tmr → Tmr) : (d.modTmr n f).axes = d.axes := rfl
@[simp] theorem Dev.modTmr_interps (n : Nat) (f : Tmr → Tmr) : (d.modTmr n f).interps = d.interps := rfl
@[simp] theorem Dev.modTmr_tiles (n : Nat) (f : Tmr → Tmr) : (d.modTmr n f).tiles = d.tiles := rfl
@[simp] theorem Dev.modTmr_chans (n : Nat) (f : Tmr → Tmr) : (d.modTmr n f).chans = d.chans := rfl
@[simp] theorem Dev.modTmr_draining (n : Nat) (f : Tmr → Tmr) : (d.modTmr n f).draining = d.draining := rfl
@[simp] theorem Dev.modTmr_sdcAt (n : Nat) (f : Tmr → Tmr) : (d.modTmr n f).sdcAt = d.sdcAt := rfl
@[simp] theorem Dev.modTmr_pwms (n : Nat) (f : Tmr → Tmr) : (d.modTmr n f).pwms = d.pwms := rfl
@[simp] theorem Dev.modTmr_fbks (n : Nat) (f : Tmr → Tmr) : (d.modTmr n f).fbks = d.fbks := rfl
@[simp] theorem Dev.modTmr_encs (n : Nat) (f : Tmr → Tmr) : (d.modTmr n f).encs = d.encs := rfl
@[simp] theorem Dev.modTmr_grps (n : Nat) (f : Tmr → Tmr) : (d.modTmr n f).grps = d.grps := rfl
@[simp] theorem Dev.modTmr_combs (n : Nat) (f : Tmr → Tmr) : (d.modTmr n f).combs = d.combs := rfl
@[simp] theorem Dev.modTmr_engs (n : Nat) (f : Tmr → Tmr) : (d.modTmr n f).engs = d.engs := rfl
@[simp] theorem Dev.modTmr_bank15 (n : Nat) (f : Tmr → Tmr) : (d.modTmr n f).bank15 = d.bank15 := rfl
@[simp] theorem Dev.modTmr_cores (n : Nat) (f : Tmr → Tmr) : (d.modTmr n f).cores = d.cores := rfl
@[simp] theorem Dev.modTmr_ownNext (n : Nat) (f : Tmr → Tmr) : (d.modTmr n f).ownNext = d.ownNext := rfl
@[simp] theorem Dev.modTmr_scrubAt (n : Nat) (f : Tmr → Tmr) : (d.modTmr n f).scrubAt = d.scrubAt := rfl
@[simp] theorem Dev.modTmr_scrubCcyc (n : Nat) (f : Tmr → Tmr) : (d.modTmr n f).scrubCcyc = d.scrubCcyc := rfl
@[simp] theorem Dev.modTmr_cru (n : Nat) (f : Tmr → Tmr) : (d.modTmr n f).cru = d.cru := rfl
@[simp] theorem Dev.modTmr_corePairs (n : Nat) (f : Tmr → Tmr) : (d.modTmr n f).corePairs = d.corePairs := rfl
@[simp] theorem Dev.modTmr_sqs (n : Nat) (f : Tmr → Tmr) : (d.modTmr n f).sqs = d.sqs := rfl
@[simp] theorem Dev.modTmr_bells (n : Nat) (f : Tmr → Tmr) : (d.modTmr n f).bells = d.bells := rfl
@[simp] theorem Dev.modTmr_nextOrder (n : Nat) (f : Tmr → Tmr) : (d.modTmr n f).nextOrder = d.nextOrder := rfl
@[simp] theorem Dev.modTmr_pcie (n : Nat) (f : Tmr → Tmr) : (d.modTmr n f).pcie = d.pcie := rfl
@[simp] theorem Dev.modTmr_sem (n : Nat) (f : Tmr → Tmr) : (d.modTmr n f).sem = d.sem := rfl
@[simp] theorem Dev.modTmr_slds (n : Nat) (f : Tmr → Tmr) : (d.modTmr n f).slds = d.slds := rfl
@[simp] theorem Dev.modTmr_fls (n : Nat) (f : Tmr → Tmr) : (d.modTmr n f).fls = d.fls := rfl
@[simp] theorem Dev.modTmr_tch (n : Nat) (f : Tmr → Tmr) : (d.modTmr n f).tch = d.tch := rfl
@[simp] theorem Dev.modTmr_hlm (n : Nat) (f : Tmr → Tmr) : (d.modTmr n f).hlm = d.hlm := rfl
@[simp] theorem Dev.modTmr_tap (n : Nat) (f : Tmr → Tmr) : (d.modTmr n f).tap = d.tap := rfl
@[simp] theorem Dev.modTmr_caps (n : Nat) (f : Tmr → Tmr) : (d.modTmr n f).caps = d.caps := rfl
@[simp] theorem Dev.modTmr_evcHigh (n : Nat) (f : Tmr → Tmr) : (d.modTmr n f).evcHigh = d.evcHigh := rfl
@[simp] theorem Dev.modTmr_evcAt (n : Nat) (f : Tmr → Tmr) : (d.modTmr n f).evcAt = d.evcAt := rfl
@[simp] theorem Dev.modTmr_evcClr (n : Nat) (f : Tmr → Tmr) : (d.modTmr n f).evcClr = d.evcClr := rfl
@[simp] theorem Dev.modTmr_waits (n : Nat) (f : Tmr → Tmr) : (d.modTmr n f).waits = d.waits := rfl
@[simp] theorem Dev.modTmr_cpls (n : Nat) (f : Tmr → Tmr) : (d.modTmr n f).cpls = d.cpls := rfl
@[simp] theorem Dev.modTmr_rdata (n : Nat) (f : Tmr → Tmr) : (d.modTmr n f).rdata = d.rdata := rfl

@[simp] theorem Dev.modEng_part (n : Nat) (f : Eng → Eng) : (d.modEng n f).part = d.part := rfl
@[simp] theorem Dev.modEng_now (n : Nat) (f : Eng → Eng) : (d.modEng n f).now = d.now := rfl
@[simp] theorem Dev.modEng_free (n : Nat) (f : Eng → Eng) : (d.modEng n f).free = d.free := rfl
@[simp] theorem Dev.modEng_regs (n : Nat) (f : Eng → Eng) : (d.modEng n f).regs = d.regs := rfl
@[simp] theorem Dev.modEng_windows (n : Nat) (f : Eng → Eng) : (d.modEng n f).windows = d.windows := rfl
@[simp] theorem Dev.modEng_time (n : Nat) (f : Eng → Eng) : (d.modEng n f).time = d.time := rfl
@[simp] theorem Dev.modEng_clkHeld (n : Nat) (f : Eng → Eng) : (d.modEng n f).clkHeld = d.clkHeld := rfl
@[simp] theorem Dev.modEng_clusters (n : Nat) (f : Eng → Eng) : (d.modEng n f).clusters = d.clusters := rfl
@[simp] theorem Dev.modEng_crossing (n : Nat) (f : Eng → Eng) : (d.modEng n f).crossing = d.crossing := rfl
@[simp] theorem Dev.modEng_due (n : Nat) (f : Eng → Eng) : (d.modEng n f).due = d.due := rfl
@[simp] theorem Dev.modEng_events (n : Nat) (f : Eng → Eng) : (d.modEng n f).events = d.events := rfl
@[simp] theorem Dev.modEng_lostFor (n : Nat) (f : Eng → Eng) : (d.modEng n f).lostFor = d.lostFor := rfl
@[simp] theorem Dev.modEng_tchQueue (n : Nat) (f : Eng → Eng) : (d.modEng n f).tchQueue = d.tchQueue := rfl
@[simp] theorem Dev.modEng_tchDropped (n : Nat) (f : Eng → Eng) : (d.modEng n f).tchDropped = d.tchDropped := rfl
@[simp] theorem Dev.modEng_wide (n : Nat) (f : Eng → Eng) : (d.modEng n f).wide = d.wide := rfl
@[simp] theorem Dev.modEng_lanes (n : Nat) (f : Eng → Eng) : (d.modEng n f).lanes = d.lanes := rfl
@[simp] theorem Dev.modEng_axes (n : Nat) (f : Eng → Eng) : (d.modEng n f).axes = d.axes := rfl
@[simp] theorem Dev.modEng_interps (n : Nat) (f : Eng → Eng) : (d.modEng n f).interps = d.interps := rfl
@[simp] theorem Dev.modEng_tiles (n : Nat) (f : Eng → Eng) : (d.modEng n f).tiles = d.tiles := rfl
@[simp] theorem Dev.modEng_chans (n : Nat) (f : Eng → Eng) : (d.modEng n f).chans = d.chans := rfl
@[simp] theorem Dev.modEng_draining (n : Nat) (f : Eng → Eng) : (d.modEng n f).draining = d.draining := rfl
@[simp] theorem Dev.modEng_sdcAt (n : Nat) (f : Eng → Eng) : (d.modEng n f).sdcAt = d.sdcAt := rfl
@[simp] theorem Dev.modEng_pwms (n : Nat) (f : Eng → Eng) : (d.modEng n f).pwms = d.pwms := rfl
@[simp] theorem Dev.modEng_fbks (n : Nat) (f : Eng → Eng) : (d.modEng n f).fbks = d.fbks := rfl
@[simp] theorem Dev.modEng_encs (n : Nat) (f : Eng → Eng) : (d.modEng n f).encs = d.encs := rfl
@[simp] theorem Dev.modEng_grps (n : Nat) (f : Eng → Eng) : (d.modEng n f).grps = d.grps := rfl
@[simp] theorem Dev.modEng_combs (n : Nat) (f : Eng → Eng) : (d.modEng n f).combs = d.combs := rfl
@[simp] theorem Dev.modEng_timers (n : Nat) (f : Eng → Eng) : (d.modEng n f).timers = d.timers := rfl
@[simp] theorem Dev.modEng_bank15 (n : Nat) (f : Eng → Eng) : (d.modEng n f).bank15 = d.bank15 := rfl
@[simp] theorem Dev.modEng_cores (n : Nat) (f : Eng → Eng) : (d.modEng n f).cores = d.cores := rfl
@[simp] theorem Dev.modEng_ownNext (n : Nat) (f : Eng → Eng) : (d.modEng n f).ownNext = d.ownNext := rfl
@[simp] theorem Dev.modEng_scrubAt (n : Nat) (f : Eng → Eng) : (d.modEng n f).scrubAt = d.scrubAt := rfl
@[simp] theorem Dev.modEng_scrubCcyc (n : Nat) (f : Eng → Eng) : (d.modEng n f).scrubCcyc = d.scrubCcyc := rfl
@[simp] theorem Dev.modEng_cru (n : Nat) (f : Eng → Eng) : (d.modEng n f).cru = d.cru := rfl
@[simp] theorem Dev.modEng_corePairs (n : Nat) (f : Eng → Eng) : (d.modEng n f).corePairs = d.corePairs := rfl
@[simp] theorem Dev.modEng_sqs (n : Nat) (f : Eng → Eng) : (d.modEng n f).sqs = d.sqs := rfl
@[simp] theorem Dev.modEng_bells (n : Nat) (f : Eng → Eng) : (d.modEng n f).bells = d.bells := rfl
@[simp] theorem Dev.modEng_nextOrder (n : Nat) (f : Eng → Eng) : (d.modEng n f).nextOrder = d.nextOrder := rfl
@[simp] theorem Dev.modEng_pcie (n : Nat) (f : Eng → Eng) : (d.modEng n f).pcie = d.pcie := rfl
@[simp] theorem Dev.modEng_sem (n : Nat) (f : Eng → Eng) : (d.modEng n f).sem = d.sem := rfl
@[simp] theorem Dev.modEng_slds (n : Nat) (f : Eng → Eng) : (d.modEng n f).slds = d.slds := rfl
@[simp] theorem Dev.modEng_fls (n : Nat) (f : Eng → Eng) : (d.modEng n f).fls = d.fls := rfl
@[simp] theorem Dev.modEng_tch (n : Nat) (f : Eng → Eng) : (d.modEng n f).tch = d.tch := rfl
@[simp] theorem Dev.modEng_hlm (n : Nat) (f : Eng → Eng) : (d.modEng n f).hlm = d.hlm := rfl
@[simp] theorem Dev.modEng_tap (n : Nat) (f : Eng → Eng) : (d.modEng n f).tap = d.tap := rfl
@[simp] theorem Dev.modEng_caps (n : Nat) (f : Eng → Eng) : (d.modEng n f).caps = d.caps := rfl
@[simp] theorem Dev.modEng_evcHigh (n : Nat) (f : Eng → Eng) : (d.modEng n f).evcHigh = d.evcHigh := rfl
@[simp] theorem Dev.modEng_evcAt (n : Nat) (f : Eng → Eng) : (d.modEng n f).evcAt = d.evcAt := rfl
@[simp] theorem Dev.modEng_evcClr (n : Nat) (f : Eng → Eng) : (d.modEng n f).evcClr = d.evcClr := rfl
@[simp] theorem Dev.modEng_waits (n : Nat) (f : Eng → Eng) : (d.modEng n f).waits = d.waits := rfl
@[simp] theorem Dev.modEng_cpls (n : Nat) (f : Eng → Eng) : (d.modEng n f).cpls = d.cpls := rfl
@[simp] theorem Dev.modEng_rdata (n : Nat) (f : Eng → Eng) : (d.modEng n f).rdata = d.rdata := rfl

@[simp] theorem Dev.modGrp_part (n : Nat) (f : Grp → Grp) : (d.modGrp n f).part = d.part := rfl
@[simp] theorem Dev.modGrp_now (n : Nat) (f : Grp → Grp) : (d.modGrp n f).now = d.now := rfl
@[simp] theorem Dev.modGrp_free (n : Nat) (f : Grp → Grp) : (d.modGrp n f).free = d.free := rfl
@[simp] theorem Dev.modGrp_regs (n : Nat) (f : Grp → Grp) : (d.modGrp n f).regs = d.regs := rfl
@[simp] theorem Dev.modGrp_windows (n : Nat) (f : Grp → Grp) : (d.modGrp n f).windows = d.windows := rfl
@[simp] theorem Dev.modGrp_time (n : Nat) (f : Grp → Grp) : (d.modGrp n f).time = d.time := rfl
@[simp] theorem Dev.modGrp_clkHeld (n : Nat) (f : Grp → Grp) : (d.modGrp n f).clkHeld = d.clkHeld := rfl
@[simp] theorem Dev.modGrp_clusters (n : Nat) (f : Grp → Grp) : (d.modGrp n f).clusters = d.clusters := rfl
@[simp] theorem Dev.modGrp_crossing (n : Nat) (f : Grp → Grp) : (d.modGrp n f).crossing = d.crossing := rfl
@[simp] theorem Dev.modGrp_due (n : Nat) (f : Grp → Grp) : (d.modGrp n f).due = d.due := rfl
@[simp] theorem Dev.modGrp_events (n : Nat) (f : Grp → Grp) : (d.modGrp n f).events = d.events := rfl
@[simp] theorem Dev.modGrp_lostFor (n : Nat) (f : Grp → Grp) : (d.modGrp n f).lostFor = d.lostFor := rfl
@[simp] theorem Dev.modGrp_tchQueue (n : Nat) (f : Grp → Grp) : (d.modGrp n f).tchQueue = d.tchQueue := rfl
@[simp] theorem Dev.modGrp_tchDropped (n : Nat) (f : Grp → Grp) : (d.modGrp n f).tchDropped = d.tchDropped := rfl
@[simp] theorem Dev.modGrp_wide (n : Nat) (f : Grp → Grp) : (d.modGrp n f).wide = d.wide := rfl
@[simp] theorem Dev.modGrp_lanes (n : Nat) (f : Grp → Grp) : (d.modGrp n f).lanes = d.lanes := rfl
@[simp] theorem Dev.modGrp_axes (n : Nat) (f : Grp → Grp) : (d.modGrp n f).axes = d.axes := rfl
@[simp] theorem Dev.modGrp_interps (n : Nat) (f : Grp → Grp) : (d.modGrp n f).interps = d.interps := rfl
@[simp] theorem Dev.modGrp_tiles (n : Nat) (f : Grp → Grp) : (d.modGrp n f).tiles = d.tiles := rfl
@[simp] theorem Dev.modGrp_chans (n : Nat) (f : Grp → Grp) : (d.modGrp n f).chans = d.chans := rfl
@[simp] theorem Dev.modGrp_draining (n : Nat) (f : Grp → Grp) : (d.modGrp n f).draining = d.draining := rfl
@[simp] theorem Dev.modGrp_sdcAt (n : Nat) (f : Grp → Grp) : (d.modGrp n f).sdcAt = d.sdcAt := rfl
@[simp] theorem Dev.modGrp_pwms (n : Nat) (f : Grp → Grp) : (d.modGrp n f).pwms = d.pwms := rfl
@[simp] theorem Dev.modGrp_fbks (n : Nat) (f : Grp → Grp) : (d.modGrp n f).fbks = d.fbks := rfl
@[simp] theorem Dev.modGrp_encs (n : Nat) (f : Grp → Grp) : (d.modGrp n f).encs = d.encs := rfl
@[simp] theorem Dev.modGrp_combs (n : Nat) (f : Grp → Grp) : (d.modGrp n f).combs = d.combs := rfl
@[simp] theorem Dev.modGrp_timers (n : Nat) (f : Grp → Grp) : (d.modGrp n f).timers = d.timers := rfl
@[simp] theorem Dev.modGrp_engs (n : Nat) (f : Grp → Grp) : (d.modGrp n f).engs = d.engs := rfl
@[simp] theorem Dev.modGrp_bank15 (n : Nat) (f : Grp → Grp) : (d.modGrp n f).bank15 = d.bank15 := rfl
@[simp] theorem Dev.modGrp_cores (n : Nat) (f : Grp → Grp) : (d.modGrp n f).cores = d.cores := rfl
@[simp] theorem Dev.modGrp_ownNext (n : Nat) (f : Grp → Grp) : (d.modGrp n f).ownNext = d.ownNext := rfl
@[simp] theorem Dev.modGrp_scrubAt (n : Nat) (f : Grp → Grp) : (d.modGrp n f).scrubAt = d.scrubAt := rfl
@[simp] theorem Dev.modGrp_scrubCcyc (n : Nat) (f : Grp → Grp) : (d.modGrp n f).scrubCcyc = d.scrubCcyc := rfl
@[simp] theorem Dev.modGrp_cru (n : Nat) (f : Grp → Grp) : (d.modGrp n f).cru = d.cru := rfl
@[simp] theorem Dev.modGrp_corePairs (n : Nat) (f : Grp → Grp) : (d.modGrp n f).corePairs = d.corePairs := rfl
@[simp] theorem Dev.modGrp_sqs (n : Nat) (f : Grp → Grp) : (d.modGrp n f).sqs = d.sqs := rfl
@[simp] theorem Dev.modGrp_bells (n : Nat) (f : Grp → Grp) : (d.modGrp n f).bells = d.bells := rfl
@[simp] theorem Dev.modGrp_nextOrder (n : Nat) (f : Grp → Grp) : (d.modGrp n f).nextOrder = d.nextOrder := rfl
@[simp] theorem Dev.modGrp_pcie (n : Nat) (f : Grp → Grp) : (d.modGrp n f).pcie = d.pcie := rfl
@[simp] theorem Dev.modGrp_sem (n : Nat) (f : Grp → Grp) : (d.modGrp n f).sem = d.sem := rfl
@[simp] theorem Dev.modGrp_slds (n : Nat) (f : Grp → Grp) : (d.modGrp n f).slds = d.slds := rfl
@[simp] theorem Dev.modGrp_fls (n : Nat) (f : Grp → Grp) : (d.modGrp n f).fls = d.fls := rfl
@[simp] theorem Dev.modGrp_tch (n : Nat) (f : Grp → Grp) : (d.modGrp n f).tch = d.tch := rfl
@[simp] theorem Dev.modGrp_hlm (n : Nat) (f : Grp → Grp) : (d.modGrp n f).hlm = d.hlm := rfl
@[simp] theorem Dev.modGrp_tap (n : Nat) (f : Grp → Grp) : (d.modGrp n f).tap = d.tap := rfl
@[simp] theorem Dev.modGrp_caps (n : Nat) (f : Grp → Grp) : (d.modGrp n f).caps = d.caps := rfl
@[simp] theorem Dev.modGrp_evcHigh (n : Nat) (f : Grp → Grp) : (d.modGrp n f).evcHigh = d.evcHigh := rfl
@[simp] theorem Dev.modGrp_evcAt (n : Nat) (f : Grp → Grp) : (d.modGrp n f).evcAt = d.evcAt := rfl
@[simp] theorem Dev.modGrp_evcClr (n : Nat) (f : Grp → Grp) : (d.modGrp n f).evcClr = d.evcClr := rfl
@[simp] theorem Dev.modGrp_waits (n : Nat) (f : Grp → Grp) : (d.modGrp n f).waits = d.waits := rfl
@[simp] theorem Dev.modGrp_cpls (n : Nat) (f : Grp → Grp) : (d.modGrp n f).cpls = d.cpls := rfl
@[simp] theorem Dev.modGrp_rdata (n : Nat) (f : Grp → Grp) : (d.modGrp n f).rdata = d.rdata := rfl

@[simp] theorem Dev.modCluster_part (n : Nat) (f : Cluster → Cluster) : (d.modCluster n f).part = d.part := rfl
@[simp] theorem Dev.modCluster_now (n : Nat) (f : Cluster → Cluster) : (d.modCluster n f).now = d.now := rfl
@[simp] theorem Dev.modCluster_free (n : Nat) (f : Cluster → Cluster) : (d.modCluster n f).free = d.free := rfl
@[simp] theorem Dev.modCluster_regs (n : Nat) (f : Cluster → Cluster) : (d.modCluster n f).regs = d.regs := rfl
@[simp] theorem Dev.modCluster_windows (n : Nat) (f : Cluster → Cluster) : (d.modCluster n f).windows = d.windows := rfl
@[simp] theorem Dev.modCluster_time (n : Nat) (f : Cluster → Cluster) : (d.modCluster n f).time = d.time := rfl
@[simp] theorem Dev.modCluster_clkHeld (n : Nat) (f : Cluster → Cluster) : (d.modCluster n f).clkHeld = d.clkHeld := rfl
@[simp] theorem Dev.modCluster_crossing (n : Nat) (f : Cluster → Cluster) : (d.modCluster n f).crossing = d.crossing := rfl
@[simp] theorem Dev.modCluster_due (n : Nat) (f : Cluster → Cluster) : (d.modCluster n f).due = d.due := rfl
@[simp] theorem Dev.modCluster_events (n : Nat) (f : Cluster → Cluster) : (d.modCluster n f).events = d.events := rfl
@[simp] theorem Dev.modCluster_lostFor (n : Nat) (f : Cluster → Cluster) : (d.modCluster n f).lostFor = d.lostFor := rfl
@[simp] theorem Dev.modCluster_tchQueue (n : Nat) (f : Cluster → Cluster) : (d.modCluster n f).tchQueue = d.tchQueue := rfl
@[simp] theorem Dev.modCluster_tchDropped (n : Nat) (f : Cluster → Cluster) : (d.modCluster n f).tchDropped = d.tchDropped := rfl
@[simp] theorem Dev.modCluster_wide (n : Nat) (f : Cluster → Cluster) : (d.modCluster n f).wide = d.wide := rfl
@[simp] theorem Dev.modCluster_lanes (n : Nat) (f : Cluster → Cluster) : (d.modCluster n f).lanes = d.lanes := rfl
@[simp] theorem Dev.modCluster_axes (n : Nat) (f : Cluster → Cluster) : (d.modCluster n f).axes = d.axes := rfl
@[simp] theorem Dev.modCluster_interps (n : Nat) (f : Cluster → Cluster) : (d.modCluster n f).interps = d.interps := rfl
@[simp] theorem Dev.modCluster_tiles (n : Nat) (f : Cluster → Cluster) : (d.modCluster n f).tiles = d.tiles := rfl
@[simp] theorem Dev.modCluster_chans (n : Nat) (f : Cluster → Cluster) : (d.modCluster n f).chans = d.chans := rfl
@[simp] theorem Dev.modCluster_draining (n : Nat) (f : Cluster → Cluster) : (d.modCluster n f).draining = d.draining := rfl
@[simp] theorem Dev.modCluster_sdcAt (n : Nat) (f : Cluster → Cluster) : (d.modCluster n f).sdcAt = d.sdcAt := rfl
@[simp] theorem Dev.modCluster_pwms (n : Nat) (f : Cluster → Cluster) : (d.modCluster n f).pwms = d.pwms := rfl
@[simp] theorem Dev.modCluster_fbks (n : Nat) (f : Cluster → Cluster) : (d.modCluster n f).fbks = d.fbks := rfl
@[simp] theorem Dev.modCluster_encs (n : Nat) (f : Cluster → Cluster) : (d.modCluster n f).encs = d.encs := rfl
@[simp] theorem Dev.modCluster_grps (n : Nat) (f : Cluster → Cluster) : (d.modCluster n f).grps = d.grps := rfl
@[simp] theorem Dev.modCluster_combs (n : Nat) (f : Cluster → Cluster) : (d.modCluster n f).combs = d.combs := rfl
@[simp] theorem Dev.modCluster_timers (n : Nat) (f : Cluster → Cluster) : (d.modCluster n f).timers = d.timers := rfl
@[simp] theorem Dev.modCluster_engs (n : Nat) (f : Cluster → Cluster) : (d.modCluster n f).engs = d.engs := rfl
@[simp] theorem Dev.modCluster_bank15 (n : Nat) (f : Cluster → Cluster) : (d.modCluster n f).bank15 = d.bank15 := rfl
@[simp] theorem Dev.modCluster_cores (n : Nat) (f : Cluster → Cluster) : (d.modCluster n f).cores = d.cores := rfl
@[simp] theorem Dev.modCluster_ownNext (n : Nat) (f : Cluster → Cluster) : (d.modCluster n f).ownNext = d.ownNext := rfl
@[simp] theorem Dev.modCluster_scrubAt (n : Nat) (f : Cluster → Cluster) : (d.modCluster n f).scrubAt = d.scrubAt := rfl
@[simp] theorem Dev.modCluster_scrubCcyc (n : Nat) (f : Cluster → Cluster) : (d.modCluster n f).scrubCcyc = d.scrubCcyc := rfl
@[simp] theorem Dev.modCluster_cru (n : Nat) (f : Cluster → Cluster) : (d.modCluster n f).cru = d.cru := rfl
@[simp] theorem Dev.modCluster_corePairs (n : Nat) (f : Cluster → Cluster) : (d.modCluster n f).corePairs = d.corePairs := rfl
@[simp] theorem Dev.modCluster_sqs (n : Nat) (f : Cluster → Cluster) : (d.modCluster n f).sqs = d.sqs := rfl
@[simp] theorem Dev.modCluster_bells (n : Nat) (f : Cluster → Cluster) : (d.modCluster n f).bells = d.bells := rfl
@[simp] theorem Dev.modCluster_nextOrder (n : Nat) (f : Cluster → Cluster) : (d.modCluster n f).nextOrder = d.nextOrder := rfl
@[simp] theorem Dev.modCluster_pcie (n : Nat) (f : Cluster → Cluster) : (d.modCluster n f).pcie = d.pcie := rfl
@[simp] theorem Dev.modCluster_sem (n : Nat) (f : Cluster → Cluster) : (d.modCluster n f).sem = d.sem := rfl
@[simp] theorem Dev.modCluster_slds (n : Nat) (f : Cluster → Cluster) : (d.modCluster n f).slds = d.slds := rfl
@[simp] theorem Dev.modCluster_fls (n : Nat) (f : Cluster → Cluster) : (d.modCluster n f).fls = d.fls := rfl
@[simp] theorem Dev.modCluster_tch (n : Nat) (f : Cluster → Cluster) : (d.modCluster n f).tch = d.tch := rfl
@[simp] theorem Dev.modCluster_hlm (n : Nat) (f : Cluster → Cluster) : (d.modCluster n f).hlm = d.hlm := rfl
@[simp] theorem Dev.modCluster_tap (n : Nat) (f : Cluster → Cluster) : (d.modCluster n f).tap = d.tap := rfl
@[simp] theorem Dev.modCluster_caps (n : Nat) (f : Cluster → Cluster) : (d.modCluster n f).caps = d.caps := rfl
@[simp] theorem Dev.modCluster_evcHigh (n : Nat) (f : Cluster → Cluster) : (d.modCluster n f).evcHigh = d.evcHigh := rfl
@[simp] theorem Dev.modCluster_evcAt (n : Nat) (f : Cluster → Cluster) : (d.modCluster n f).evcAt = d.evcAt := rfl
@[simp] theorem Dev.modCluster_evcClr (n : Nat) (f : Cluster → Cluster) : (d.modCluster n f).evcClr = d.evcClr := rfl
@[simp] theorem Dev.modCluster_waits (n : Nat) (f : Cluster → Cluster) : (d.modCluster n f).waits = d.waits := rfl
@[simp] theorem Dev.modCluster_cpls (n : Nat) (f : Cluster → Cluster) : (d.modCluster n f).cpls = d.cpls := rfl
@[simp] theorem Dev.modCluster_rdata (n : Nat) (f : Cluster → Cluster) : (d.modCluster n f).rdata = d.rdata := rfl

@[simp] theorem Dev.modCorePair_part (n : Nat) (f : Pair → Pair) : (d.modCorePair n f).part = d.part := rfl
@[simp] theorem Dev.modCorePair_now (n : Nat) (f : Pair → Pair) : (d.modCorePair n f).now = d.now := rfl
@[simp] theorem Dev.modCorePair_free (n : Nat) (f : Pair → Pair) : (d.modCorePair n f).free = d.free := rfl
@[simp] theorem Dev.modCorePair_regs (n : Nat) (f : Pair → Pair) : (d.modCorePair n f).regs = d.regs := rfl
@[simp] theorem Dev.modCorePair_windows (n : Nat) (f : Pair → Pair) : (d.modCorePair n f).windows = d.windows := rfl
@[simp] theorem Dev.modCorePair_time (n : Nat) (f : Pair → Pair) : (d.modCorePair n f).time = d.time := rfl
@[simp] theorem Dev.modCorePair_clkHeld (n : Nat) (f : Pair → Pair) : (d.modCorePair n f).clkHeld = d.clkHeld := rfl
@[simp] theorem Dev.modCorePair_clusters (n : Nat) (f : Pair → Pair) : (d.modCorePair n f).clusters = d.clusters := rfl
@[simp] theorem Dev.modCorePair_crossing (n : Nat) (f : Pair → Pair) : (d.modCorePair n f).crossing = d.crossing := rfl
@[simp] theorem Dev.modCorePair_due (n : Nat) (f : Pair → Pair) : (d.modCorePair n f).due = d.due := rfl
@[simp] theorem Dev.modCorePair_events (n : Nat) (f : Pair → Pair) : (d.modCorePair n f).events = d.events := rfl
@[simp] theorem Dev.modCorePair_lostFor (n : Nat) (f : Pair → Pair) : (d.modCorePair n f).lostFor = d.lostFor := rfl
@[simp] theorem Dev.modCorePair_tchQueue (n : Nat) (f : Pair → Pair) : (d.modCorePair n f).tchQueue = d.tchQueue := rfl
@[simp] theorem Dev.modCorePair_tchDropped (n : Nat) (f : Pair → Pair) : (d.modCorePair n f).tchDropped = d.tchDropped := rfl
@[simp] theorem Dev.modCorePair_wide (n : Nat) (f : Pair → Pair) : (d.modCorePair n f).wide = d.wide := rfl
@[simp] theorem Dev.modCorePair_lanes (n : Nat) (f : Pair → Pair) : (d.modCorePair n f).lanes = d.lanes := rfl
@[simp] theorem Dev.modCorePair_axes (n : Nat) (f : Pair → Pair) : (d.modCorePair n f).axes = d.axes := rfl
@[simp] theorem Dev.modCorePair_interps (n : Nat) (f : Pair → Pair) : (d.modCorePair n f).interps = d.interps := rfl
@[simp] theorem Dev.modCorePair_tiles (n : Nat) (f : Pair → Pair) : (d.modCorePair n f).tiles = d.tiles := rfl
@[simp] theorem Dev.modCorePair_chans (n : Nat) (f : Pair → Pair) : (d.modCorePair n f).chans = d.chans := rfl
@[simp] theorem Dev.modCorePair_draining (n : Nat) (f : Pair → Pair) : (d.modCorePair n f).draining = d.draining := rfl
@[simp] theorem Dev.modCorePair_sdcAt (n : Nat) (f : Pair → Pair) : (d.modCorePair n f).sdcAt = d.sdcAt := rfl
@[simp] theorem Dev.modCorePair_pwms (n : Nat) (f : Pair → Pair) : (d.modCorePair n f).pwms = d.pwms := rfl
@[simp] theorem Dev.modCorePair_fbks (n : Nat) (f : Pair → Pair) : (d.modCorePair n f).fbks = d.fbks := rfl
@[simp] theorem Dev.modCorePair_encs (n : Nat) (f : Pair → Pair) : (d.modCorePair n f).encs = d.encs := rfl
@[simp] theorem Dev.modCorePair_grps (n : Nat) (f : Pair → Pair) : (d.modCorePair n f).grps = d.grps := rfl
@[simp] theorem Dev.modCorePair_combs (n : Nat) (f : Pair → Pair) : (d.modCorePair n f).combs = d.combs := rfl
@[simp] theorem Dev.modCorePair_timers (n : Nat) (f : Pair → Pair) : (d.modCorePair n f).timers = d.timers := rfl
@[simp] theorem Dev.modCorePair_engs (n : Nat) (f : Pair → Pair) : (d.modCorePair n f).engs = d.engs := rfl
@[simp] theorem Dev.modCorePair_bank15 (n : Nat) (f : Pair → Pair) : (d.modCorePair n f).bank15 = d.bank15 := rfl
@[simp] theorem Dev.modCorePair_cores (n : Nat) (f : Pair → Pair) : (d.modCorePair n f).cores = d.cores := rfl
@[simp] theorem Dev.modCorePair_ownNext (n : Nat) (f : Pair → Pair) : (d.modCorePair n f).ownNext = d.ownNext := rfl
@[simp] theorem Dev.modCorePair_scrubAt (n : Nat) (f : Pair → Pair) : (d.modCorePair n f).scrubAt = d.scrubAt := rfl
@[simp] theorem Dev.modCorePair_scrubCcyc (n : Nat) (f : Pair → Pair) : (d.modCorePair n f).scrubCcyc = d.scrubCcyc := rfl
@[simp] theorem Dev.modCorePair_cru (n : Nat) (f : Pair → Pair) : (d.modCorePair n f).cru = d.cru := rfl
@[simp] theorem Dev.modCorePair_sqs (n : Nat) (f : Pair → Pair) : (d.modCorePair n f).sqs = d.sqs := rfl
@[simp] theorem Dev.modCorePair_bells (n : Nat) (f : Pair → Pair) : (d.modCorePair n f).bells = d.bells := rfl
@[simp] theorem Dev.modCorePair_nextOrder (n : Nat) (f : Pair → Pair) : (d.modCorePair n f).nextOrder = d.nextOrder := rfl
@[simp] theorem Dev.modCorePair_pcie (n : Nat) (f : Pair → Pair) : (d.modCorePair n f).pcie = d.pcie := rfl
@[simp] theorem Dev.modCorePair_sem (n : Nat) (f : Pair → Pair) : (d.modCorePair n f).sem = d.sem := rfl
@[simp] theorem Dev.modCorePair_slds (n : Nat) (f : Pair → Pair) : (d.modCorePair n f).slds = d.slds := rfl
@[simp] theorem Dev.modCorePair_fls (n : Nat) (f : Pair → Pair) : (d.modCorePair n f).fls = d.fls := rfl
@[simp] theorem Dev.modCorePair_tch (n : Nat) (f : Pair → Pair) : (d.modCorePair n f).tch = d.tch := rfl
@[simp] theorem Dev.modCorePair_hlm (n : Nat) (f : Pair → Pair) : (d.modCorePair n f).hlm = d.hlm := rfl
@[simp] theorem Dev.modCorePair_tap (n : Nat) (f : Pair → Pair) : (d.modCorePair n f).tap = d.tap := rfl
@[simp] theorem Dev.modCorePair_caps (n : Nat) (f : Pair → Pair) : (d.modCorePair n f).caps = d.caps := rfl
@[simp] theorem Dev.modCorePair_evcHigh (n : Nat) (f : Pair → Pair) : (d.modCorePair n f).evcHigh = d.evcHigh := rfl
@[simp] theorem Dev.modCorePair_evcAt (n : Nat) (f : Pair → Pair) : (d.modCorePair n f).evcAt = d.evcAt := rfl
@[simp] theorem Dev.modCorePair_evcClr (n : Nat) (f : Pair → Pair) : (d.modCorePair n f).evcClr = d.evcClr := rfl
@[simp] theorem Dev.modCorePair_waits (n : Nat) (f : Pair → Pair) : (d.modCorePair n f).waits = d.waits := rfl
@[simp] theorem Dev.modCorePair_cpls (n : Nat) (f : Pair → Pair) : (d.modCorePair n f).cpls = d.cpls := rfl
@[simp] theorem Dev.modCorePair_rdata (n : Nat) (f : Pair → Pair) : (d.modCorePair n f).rdata = d.rdata := rfl

@[simp] theorem Dev.modSq_part (n : Nat) (f : Sq → Sq) : (d.modSq n f).part = d.part := rfl
@[simp] theorem Dev.modSq_now (n : Nat) (f : Sq → Sq) : (d.modSq n f).now = d.now := rfl
@[simp] theorem Dev.modSq_free (n : Nat) (f : Sq → Sq) : (d.modSq n f).free = d.free := rfl
@[simp] theorem Dev.modSq_regs (n : Nat) (f : Sq → Sq) : (d.modSq n f).regs = d.regs := rfl
@[simp] theorem Dev.modSq_windows (n : Nat) (f : Sq → Sq) : (d.modSq n f).windows = d.windows := rfl
@[simp] theorem Dev.modSq_time (n : Nat) (f : Sq → Sq) : (d.modSq n f).time = d.time := rfl
@[simp] theorem Dev.modSq_clkHeld (n : Nat) (f : Sq → Sq) : (d.modSq n f).clkHeld = d.clkHeld := rfl
@[simp] theorem Dev.modSq_clusters (n : Nat) (f : Sq → Sq) : (d.modSq n f).clusters = d.clusters := rfl
@[simp] theorem Dev.modSq_crossing (n : Nat) (f : Sq → Sq) : (d.modSq n f).crossing = d.crossing := rfl
@[simp] theorem Dev.modSq_due (n : Nat) (f : Sq → Sq) : (d.modSq n f).due = d.due := rfl
@[simp] theorem Dev.modSq_events (n : Nat) (f : Sq → Sq) : (d.modSq n f).events = d.events := rfl
@[simp] theorem Dev.modSq_lostFor (n : Nat) (f : Sq → Sq) : (d.modSq n f).lostFor = d.lostFor := rfl
@[simp] theorem Dev.modSq_tchQueue (n : Nat) (f : Sq → Sq) : (d.modSq n f).tchQueue = d.tchQueue := rfl
@[simp] theorem Dev.modSq_tchDropped (n : Nat) (f : Sq → Sq) : (d.modSq n f).tchDropped = d.tchDropped := rfl
@[simp] theorem Dev.modSq_wide (n : Nat) (f : Sq → Sq) : (d.modSq n f).wide = d.wide := rfl
@[simp] theorem Dev.modSq_lanes (n : Nat) (f : Sq → Sq) : (d.modSq n f).lanes = d.lanes := rfl
@[simp] theorem Dev.modSq_axes (n : Nat) (f : Sq → Sq) : (d.modSq n f).axes = d.axes := rfl
@[simp] theorem Dev.modSq_interps (n : Nat) (f : Sq → Sq) : (d.modSq n f).interps = d.interps := rfl
@[simp] theorem Dev.modSq_tiles (n : Nat) (f : Sq → Sq) : (d.modSq n f).tiles = d.tiles := rfl
@[simp] theorem Dev.modSq_chans (n : Nat) (f : Sq → Sq) : (d.modSq n f).chans = d.chans := rfl
@[simp] theorem Dev.modSq_draining (n : Nat) (f : Sq → Sq) : (d.modSq n f).draining = d.draining := rfl
@[simp] theorem Dev.modSq_sdcAt (n : Nat) (f : Sq → Sq) : (d.modSq n f).sdcAt = d.sdcAt := rfl
@[simp] theorem Dev.modSq_pwms (n : Nat) (f : Sq → Sq) : (d.modSq n f).pwms = d.pwms := rfl
@[simp] theorem Dev.modSq_fbks (n : Nat) (f : Sq → Sq) : (d.modSq n f).fbks = d.fbks := rfl
@[simp] theorem Dev.modSq_encs (n : Nat) (f : Sq → Sq) : (d.modSq n f).encs = d.encs := rfl
@[simp] theorem Dev.modSq_grps (n : Nat) (f : Sq → Sq) : (d.modSq n f).grps = d.grps := rfl
@[simp] theorem Dev.modSq_combs (n : Nat) (f : Sq → Sq) : (d.modSq n f).combs = d.combs := rfl
@[simp] theorem Dev.modSq_timers (n : Nat) (f : Sq → Sq) : (d.modSq n f).timers = d.timers := rfl
@[simp] theorem Dev.modSq_engs (n : Nat) (f : Sq → Sq) : (d.modSq n f).engs = d.engs := rfl
@[simp] theorem Dev.modSq_bank15 (n : Nat) (f : Sq → Sq) : (d.modSq n f).bank15 = d.bank15 := rfl
@[simp] theorem Dev.modSq_cores (n : Nat) (f : Sq → Sq) : (d.modSq n f).cores = d.cores := rfl
@[simp] theorem Dev.modSq_ownNext (n : Nat) (f : Sq → Sq) : (d.modSq n f).ownNext = d.ownNext := rfl
@[simp] theorem Dev.modSq_scrubAt (n : Nat) (f : Sq → Sq) : (d.modSq n f).scrubAt = d.scrubAt := rfl
@[simp] theorem Dev.modSq_scrubCcyc (n : Nat) (f : Sq → Sq) : (d.modSq n f).scrubCcyc = d.scrubCcyc := rfl
@[simp] theorem Dev.modSq_cru (n : Nat) (f : Sq → Sq) : (d.modSq n f).cru = d.cru := rfl
@[simp] theorem Dev.modSq_corePairs (n : Nat) (f : Sq → Sq) : (d.modSq n f).corePairs = d.corePairs := rfl
@[simp] theorem Dev.modSq_bells (n : Nat) (f : Sq → Sq) : (d.modSq n f).bells = d.bells := rfl
@[simp] theorem Dev.modSq_nextOrder (n : Nat) (f : Sq → Sq) : (d.modSq n f).nextOrder = d.nextOrder := rfl
@[simp] theorem Dev.modSq_pcie (n : Nat) (f : Sq → Sq) : (d.modSq n f).pcie = d.pcie := rfl
@[simp] theorem Dev.modSq_sem (n : Nat) (f : Sq → Sq) : (d.modSq n f).sem = d.sem := rfl
@[simp] theorem Dev.modSq_slds (n : Nat) (f : Sq → Sq) : (d.modSq n f).slds = d.slds := rfl
@[simp] theorem Dev.modSq_fls (n : Nat) (f : Sq → Sq) : (d.modSq n f).fls = d.fls := rfl
@[simp] theorem Dev.modSq_tch (n : Nat) (f : Sq → Sq) : (d.modSq n f).tch = d.tch := rfl
@[simp] theorem Dev.modSq_hlm (n : Nat) (f : Sq → Sq) : (d.modSq n f).hlm = d.hlm := rfl
@[simp] theorem Dev.modSq_tap (n : Nat) (f : Sq → Sq) : (d.modSq n f).tap = d.tap := rfl
@[simp] theorem Dev.modSq_caps (n : Nat) (f : Sq → Sq) : (d.modSq n f).caps = d.caps := rfl
@[simp] theorem Dev.modSq_evcHigh (n : Nat) (f : Sq → Sq) : (d.modSq n f).evcHigh = d.evcHigh := rfl
@[simp] theorem Dev.modSq_evcAt (n : Nat) (f : Sq → Sq) : (d.modSq n f).evcAt = d.evcAt := rfl
@[simp] theorem Dev.modSq_evcClr (n : Nat) (f : Sq → Sq) : (d.modSq n f).evcClr = d.evcClr := rfl
@[simp] theorem Dev.modSq_waits (n : Nat) (f : Sq → Sq) : (d.modSq n f).waits = d.waits := rfl
@[simp] theorem Dev.modSq_cpls (n : Nat) (f : Sq → Sq) : (d.modSq n f).cpls = d.cpls := rfl
@[simp] theorem Dev.modSq_rdata (n : Nat) (f : Sq → Sq) : (d.modSq n f).rdata = d.rdata := rfl

@[simp] theorem Dev.modSld_part (n : Nat) (f : Sld → Sld) : (d.modSld n f).part = d.part := rfl
@[simp] theorem Dev.modSld_now (n : Nat) (f : Sld → Sld) : (d.modSld n f).now = d.now := rfl
@[simp] theorem Dev.modSld_free (n : Nat) (f : Sld → Sld) : (d.modSld n f).free = d.free := rfl
@[simp] theorem Dev.modSld_regs (n : Nat) (f : Sld → Sld) : (d.modSld n f).regs = d.regs := rfl
@[simp] theorem Dev.modSld_windows (n : Nat) (f : Sld → Sld) : (d.modSld n f).windows = d.windows := rfl
@[simp] theorem Dev.modSld_time (n : Nat) (f : Sld → Sld) : (d.modSld n f).time = d.time := rfl
@[simp] theorem Dev.modSld_clkHeld (n : Nat) (f : Sld → Sld) : (d.modSld n f).clkHeld = d.clkHeld := rfl
@[simp] theorem Dev.modSld_clusters (n : Nat) (f : Sld → Sld) : (d.modSld n f).clusters = d.clusters := rfl
@[simp] theorem Dev.modSld_crossing (n : Nat) (f : Sld → Sld) : (d.modSld n f).crossing = d.crossing := rfl
@[simp] theorem Dev.modSld_due (n : Nat) (f : Sld → Sld) : (d.modSld n f).due = d.due := rfl
@[simp] theorem Dev.modSld_events (n : Nat) (f : Sld → Sld) : (d.modSld n f).events = d.events := rfl
@[simp] theorem Dev.modSld_lostFor (n : Nat) (f : Sld → Sld) : (d.modSld n f).lostFor = d.lostFor := rfl
@[simp] theorem Dev.modSld_tchQueue (n : Nat) (f : Sld → Sld) : (d.modSld n f).tchQueue = d.tchQueue := rfl
@[simp] theorem Dev.modSld_tchDropped (n : Nat) (f : Sld → Sld) : (d.modSld n f).tchDropped = d.tchDropped := rfl
@[simp] theorem Dev.modSld_wide (n : Nat) (f : Sld → Sld) : (d.modSld n f).wide = d.wide := rfl
@[simp] theorem Dev.modSld_lanes (n : Nat) (f : Sld → Sld) : (d.modSld n f).lanes = d.lanes := rfl
@[simp] theorem Dev.modSld_axes (n : Nat) (f : Sld → Sld) : (d.modSld n f).axes = d.axes := rfl
@[simp] theorem Dev.modSld_interps (n : Nat) (f : Sld → Sld) : (d.modSld n f).interps = d.interps := rfl
@[simp] theorem Dev.modSld_tiles (n : Nat) (f : Sld → Sld) : (d.modSld n f).tiles = d.tiles := rfl
@[simp] theorem Dev.modSld_chans (n : Nat) (f : Sld → Sld) : (d.modSld n f).chans = d.chans := rfl
@[simp] theorem Dev.modSld_draining (n : Nat) (f : Sld → Sld) : (d.modSld n f).draining = d.draining := rfl
@[simp] theorem Dev.modSld_sdcAt (n : Nat) (f : Sld → Sld) : (d.modSld n f).sdcAt = d.sdcAt := rfl
@[simp] theorem Dev.modSld_pwms (n : Nat) (f : Sld → Sld) : (d.modSld n f).pwms = d.pwms := rfl
@[simp] theorem Dev.modSld_fbks (n : Nat) (f : Sld → Sld) : (d.modSld n f).fbks = d.fbks := rfl
@[simp] theorem Dev.modSld_encs (n : Nat) (f : Sld → Sld) : (d.modSld n f).encs = d.encs := rfl
@[simp] theorem Dev.modSld_grps (n : Nat) (f : Sld → Sld) : (d.modSld n f).grps = d.grps := rfl
@[simp] theorem Dev.modSld_combs (n : Nat) (f : Sld → Sld) : (d.modSld n f).combs = d.combs := rfl
@[simp] theorem Dev.modSld_timers (n : Nat) (f : Sld → Sld) : (d.modSld n f).timers = d.timers := rfl
@[simp] theorem Dev.modSld_engs (n : Nat) (f : Sld → Sld) : (d.modSld n f).engs = d.engs := rfl
@[simp] theorem Dev.modSld_bank15 (n : Nat) (f : Sld → Sld) : (d.modSld n f).bank15 = d.bank15 := rfl
@[simp] theorem Dev.modSld_cores (n : Nat) (f : Sld → Sld) : (d.modSld n f).cores = d.cores := rfl
@[simp] theorem Dev.modSld_ownNext (n : Nat) (f : Sld → Sld) : (d.modSld n f).ownNext = d.ownNext := rfl
@[simp] theorem Dev.modSld_scrubAt (n : Nat) (f : Sld → Sld) : (d.modSld n f).scrubAt = d.scrubAt := rfl
@[simp] theorem Dev.modSld_scrubCcyc (n : Nat) (f : Sld → Sld) : (d.modSld n f).scrubCcyc = d.scrubCcyc := rfl
@[simp] theorem Dev.modSld_cru (n : Nat) (f : Sld → Sld) : (d.modSld n f).cru = d.cru := rfl
@[simp] theorem Dev.modSld_corePairs (n : Nat) (f : Sld → Sld) : (d.modSld n f).corePairs = d.corePairs := rfl
@[simp] theorem Dev.modSld_sqs (n : Nat) (f : Sld → Sld) : (d.modSld n f).sqs = d.sqs := rfl
@[simp] theorem Dev.modSld_bells (n : Nat) (f : Sld → Sld) : (d.modSld n f).bells = d.bells := rfl
@[simp] theorem Dev.modSld_nextOrder (n : Nat) (f : Sld → Sld) : (d.modSld n f).nextOrder = d.nextOrder := rfl
@[simp] theorem Dev.modSld_pcie (n : Nat) (f : Sld → Sld) : (d.modSld n f).pcie = d.pcie := rfl
@[simp] theorem Dev.modSld_sem (n : Nat) (f : Sld → Sld) : (d.modSld n f).sem = d.sem := rfl
@[simp] theorem Dev.modSld_fls (n : Nat) (f : Sld → Sld) : (d.modSld n f).fls = d.fls := rfl
@[simp] theorem Dev.modSld_tch (n : Nat) (f : Sld → Sld) : (d.modSld n f).tch = d.tch := rfl
@[simp] theorem Dev.modSld_hlm (n : Nat) (f : Sld → Sld) : (d.modSld n f).hlm = d.hlm := rfl
@[simp] theorem Dev.modSld_tap (n : Nat) (f : Sld → Sld) : (d.modSld n f).tap = d.tap := rfl
@[simp] theorem Dev.modSld_caps (n : Nat) (f : Sld → Sld) : (d.modSld n f).caps = d.caps := rfl
@[simp] theorem Dev.modSld_evcHigh (n : Nat) (f : Sld → Sld) : (d.modSld n f).evcHigh = d.evcHigh := rfl
@[simp] theorem Dev.modSld_evcAt (n : Nat) (f : Sld → Sld) : (d.modSld n f).evcAt = d.evcAt := rfl
@[simp] theorem Dev.modSld_evcClr (n : Nat) (f : Sld → Sld) : (d.modSld n f).evcClr = d.evcClr := rfl
@[simp] theorem Dev.modSld_waits (n : Nat) (f : Sld → Sld) : (d.modSld n f).waits = d.waits := rfl
@[simp] theorem Dev.modSld_cpls (n : Nat) (f : Sld → Sld) : (d.modSld n f).cpls = d.cpls := rfl
@[simp] theorem Dev.modSld_rdata (n : Nat) (f : Sld → Sld) : (d.modSld n f).rdata = d.rdata := rfl

@[simp] theorem Dev.modCap_part (n : Nat) (f : Cap → Cap) : (d.modCap n f).part = d.part := rfl
@[simp] theorem Dev.modCap_now (n : Nat) (f : Cap → Cap) : (d.modCap n f).now = d.now := rfl
@[simp] theorem Dev.modCap_free (n : Nat) (f : Cap → Cap) : (d.modCap n f).free = d.free := rfl
@[simp] theorem Dev.modCap_regs (n : Nat) (f : Cap → Cap) : (d.modCap n f).regs = d.regs := rfl
@[simp] theorem Dev.modCap_windows (n : Nat) (f : Cap → Cap) : (d.modCap n f).windows = d.windows := rfl
@[simp] theorem Dev.modCap_time (n : Nat) (f : Cap → Cap) : (d.modCap n f).time = d.time := rfl
@[simp] theorem Dev.modCap_clkHeld (n : Nat) (f : Cap → Cap) : (d.modCap n f).clkHeld = d.clkHeld := rfl
@[simp] theorem Dev.modCap_clusters (n : Nat) (f : Cap → Cap) : (d.modCap n f).clusters = d.clusters := rfl
@[simp] theorem Dev.modCap_crossing (n : Nat) (f : Cap → Cap) : (d.modCap n f).crossing = d.crossing := rfl
@[simp] theorem Dev.modCap_due (n : Nat) (f : Cap → Cap) : (d.modCap n f).due = d.due := rfl
@[simp] theorem Dev.modCap_events (n : Nat) (f : Cap → Cap) : (d.modCap n f).events = d.events := rfl
@[simp] theorem Dev.modCap_lostFor (n : Nat) (f : Cap → Cap) : (d.modCap n f).lostFor = d.lostFor := rfl
@[simp] theorem Dev.modCap_tchQueue (n : Nat) (f : Cap → Cap) : (d.modCap n f).tchQueue = d.tchQueue := rfl
@[simp] theorem Dev.modCap_tchDropped (n : Nat) (f : Cap → Cap) : (d.modCap n f).tchDropped = d.tchDropped := rfl
@[simp] theorem Dev.modCap_wide (n : Nat) (f : Cap → Cap) : (d.modCap n f).wide = d.wide := rfl
@[simp] theorem Dev.modCap_lanes (n : Nat) (f : Cap → Cap) : (d.modCap n f).lanes = d.lanes := rfl
@[simp] theorem Dev.modCap_axes (n : Nat) (f : Cap → Cap) : (d.modCap n f).axes = d.axes := rfl
@[simp] theorem Dev.modCap_interps (n : Nat) (f : Cap → Cap) : (d.modCap n f).interps = d.interps := rfl
@[simp] theorem Dev.modCap_tiles (n : Nat) (f : Cap → Cap) : (d.modCap n f).tiles = d.tiles := rfl
@[simp] theorem Dev.modCap_chans (n : Nat) (f : Cap → Cap) : (d.modCap n f).chans = d.chans := rfl
@[simp] theorem Dev.modCap_draining (n : Nat) (f : Cap → Cap) : (d.modCap n f).draining = d.draining := rfl
@[simp] theorem Dev.modCap_sdcAt (n : Nat) (f : Cap → Cap) : (d.modCap n f).sdcAt = d.sdcAt := rfl
@[simp] theorem Dev.modCap_pwms (n : Nat) (f : Cap → Cap) : (d.modCap n f).pwms = d.pwms := rfl
@[simp] theorem Dev.modCap_fbks (n : Nat) (f : Cap → Cap) : (d.modCap n f).fbks = d.fbks := rfl
@[simp] theorem Dev.modCap_encs (n : Nat) (f : Cap → Cap) : (d.modCap n f).encs = d.encs := rfl
@[simp] theorem Dev.modCap_grps (n : Nat) (f : Cap → Cap) : (d.modCap n f).grps = d.grps := rfl
@[simp] theorem Dev.modCap_combs (n : Nat) (f : Cap → Cap) : (d.modCap n f).combs = d.combs := rfl
@[simp] theorem Dev.modCap_timers (n : Nat) (f : Cap → Cap) : (d.modCap n f).timers = d.timers := rfl
@[simp] theorem Dev.modCap_engs (n : Nat) (f : Cap → Cap) : (d.modCap n f).engs = d.engs := rfl
@[simp] theorem Dev.modCap_bank15 (n : Nat) (f : Cap → Cap) : (d.modCap n f).bank15 = d.bank15 := rfl
@[simp] theorem Dev.modCap_cores (n : Nat) (f : Cap → Cap) : (d.modCap n f).cores = d.cores := rfl
@[simp] theorem Dev.modCap_ownNext (n : Nat) (f : Cap → Cap) : (d.modCap n f).ownNext = d.ownNext := rfl
@[simp] theorem Dev.modCap_scrubAt (n : Nat) (f : Cap → Cap) : (d.modCap n f).scrubAt = d.scrubAt := rfl
@[simp] theorem Dev.modCap_scrubCcyc (n : Nat) (f : Cap → Cap) : (d.modCap n f).scrubCcyc = d.scrubCcyc := rfl
@[simp] theorem Dev.modCap_cru (n : Nat) (f : Cap → Cap) : (d.modCap n f).cru = d.cru := rfl
@[simp] theorem Dev.modCap_corePairs (n : Nat) (f : Cap → Cap) : (d.modCap n f).corePairs = d.corePairs := rfl
@[simp] theorem Dev.modCap_sqs (n : Nat) (f : Cap → Cap) : (d.modCap n f).sqs = d.sqs := rfl
@[simp] theorem Dev.modCap_bells (n : Nat) (f : Cap → Cap) : (d.modCap n f).bells = d.bells := rfl
@[simp] theorem Dev.modCap_nextOrder (n : Nat) (f : Cap → Cap) : (d.modCap n f).nextOrder = d.nextOrder := rfl
@[simp] theorem Dev.modCap_pcie (n : Nat) (f : Cap → Cap) : (d.modCap n f).pcie = d.pcie := rfl
@[simp] theorem Dev.modCap_sem (n : Nat) (f : Cap → Cap) : (d.modCap n f).sem = d.sem := rfl
@[simp] theorem Dev.modCap_slds (n : Nat) (f : Cap → Cap) : (d.modCap n f).slds = d.slds := rfl
@[simp] theorem Dev.modCap_fls (n : Nat) (f : Cap → Cap) : (d.modCap n f).fls = d.fls := rfl
@[simp] theorem Dev.modCap_tch (n : Nat) (f : Cap → Cap) : (d.modCap n f).tch = d.tch := rfl
@[simp] theorem Dev.modCap_hlm (n : Nat) (f : Cap → Cap) : (d.modCap n f).hlm = d.hlm := rfl
@[simp] theorem Dev.modCap_tap (n : Nat) (f : Cap → Cap) : (d.modCap n f).tap = d.tap := rfl
@[simp] theorem Dev.modCap_evcHigh (n : Nat) (f : Cap → Cap) : (d.modCap n f).evcHigh = d.evcHigh := rfl
@[simp] theorem Dev.modCap_evcAt (n : Nat) (f : Cap → Cap) : (d.modCap n f).evcAt = d.evcAt := rfl
@[simp] theorem Dev.modCap_evcClr (n : Nat) (f : Cap → Cap) : (d.modCap n f).evcClr = d.evcClr := rfl
@[simp] theorem Dev.modCap_waits (n : Nat) (f : Cap → Cap) : (d.modCap n f).waits = d.waits := rfl
@[simp] theorem Dev.modCap_cpls (n : Nat) (f : Cap → Cap) : (d.modCap n f).cpls = d.cpls := rfl
@[simp] theorem Dev.modCap_rdata (n : Nat) (f : Cap → Cap) : (d.modCap n f).rdata = d.rdata := rfl

@[simp] theorem Dev.modCore_part (n : Nat) (f : Core → Core) : (d.modCore n f).part = d.part := rfl
@[simp] theorem Dev.modCore_now (n : Nat) (f : Core → Core) : (d.modCore n f).now = d.now := rfl
@[simp] theorem Dev.modCore_free (n : Nat) (f : Core → Core) : (d.modCore n f).free = d.free := rfl
@[simp] theorem Dev.modCore_regs (n : Nat) (f : Core → Core) : (d.modCore n f).regs = d.regs := rfl
@[simp] theorem Dev.modCore_windows (n : Nat) (f : Core → Core) : (d.modCore n f).windows = d.windows := rfl
@[simp] theorem Dev.modCore_time (n : Nat) (f : Core → Core) : (d.modCore n f).time = d.time := rfl
@[simp] theorem Dev.modCore_clkHeld (n : Nat) (f : Core → Core) : (d.modCore n f).clkHeld = d.clkHeld := rfl
@[simp] theorem Dev.modCore_clusters (n : Nat) (f : Core → Core) : (d.modCore n f).clusters = d.clusters := rfl
@[simp] theorem Dev.modCore_crossing (n : Nat) (f : Core → Core) : (d.modCore n f).crossing = d.crossing := rfl
@[simp] theorem Dev.modCore_due (n : Nat) (f : Core → Core) : (d.modCore n f).due = d.due := rfl
@[simp] theorem Dev.modCore_events (n : Nat) (f : Core → Core) : (d.modCore n f).events = d.events := rfl
@[simp] theorem Dev.modCore_lostFor (n : Nat) (f : Core → Core) : (d.modCore n f).lostFor = d.lostFor := rfl
@[simp] theorem Dev.modCore_tchQueue (n : Nat) (f : Core → Core) : (d.modCore n f).tchQueue = d.tchQueue := rfl
@[simp] theorem Dev.modCore_tchDropped (n : Nat) (f : Core → Core) : (d.modCore n f).tchDropped = d.tchDropped := rfl
@[simp] theorem Dev.modCore_wide (n : Nat) (f : Core → Core) : (d.modCore n f).wide = d.wide := rfl
@[simp] theorem Dev.modCore_lanes (n : Nat) (f : Core → Core) : (d.modCore n f).lanes = d.lanes := rfl
@[simp] theorem Dev.modCore_axes (n : Nat) (f : Core → Core) : (d.modCore n f).axes = d.axes := rfl
@[simp] theorem Dev.modCore_interps (n : Nat) (f : Core → Core) : (d.modCore n f).interps = d.interps := rfl
@[simp] theorem Dev.modCore_tiles (n : Nat) (f : Core → Core) : (d.modCore n f).tiles = d.tiles := rfl
@[simp] theorem Dev.modCore_chans (n : Nat) (f : Core → Core) : (d.modCore n f).chans = d.chans := rfl
@[simp] theorem Dev.modCore_draining (n : Nat) (f : Core → Core) : (d.modCore n f).draining = d.draining := rfl
@[simp] theorem Dev.modCore_sdcAt (n : Nat) (f : Core → Core) : (d.modCore n f).sdcAt = d.sdcAt := rfl
@[simp] theorem Dev.modCore_pwms (n : Nat) (f : Core → Core) : (d.modCore n f).pwms = d.pwms := rfl
@[simp] theorem Dev.modCore_fbks (n : Nat) (f : Core → Core) : (d.modCore n f).fbks = d.fbks := rfl
@[simp] theorem Dev.modCore_encs (n : Nat) (f : Core → Core) : (d.modCore n f).encs = d.encs := rfl
@[simp] theorem Dev.modCore_grps (n : Nat) (f : Core → Core) : (d.modCore n f).grps = d.grps := rfl
@[simp] theorem Dev.modCore_combs (n : Nat) (f : Core → Core) : (d.modCore n f).combs = d.combs := rfl
@[simp] theorem Dev.modCore_timers (n : Nat) (f : Core → Core) : (d.modCore n f).timers = d.timers := rfl
@[simp] theorem Dev.modCore_engs (n : Nat) (f : Core → Core) : (d.modCore n f).engs = d.engs := rfl
@[simp] theorem Dev.modCore_bank15 (n : Nat) (f : Core → Core) : (d.modCore n f).bank15 = d.bank15 := rfl
@[simp] theorem Dev.modCore_ownNext (n : Nat) (f : Core → Core) : (d.modCore n f).ownNext = d.ownNext := rfl
@[simp] theorem Dev.modCore_scrubAt (n : Nat) (f : Core → Core) : (d.modCore n f).scrubAt = d.scrubAt := rfl
@[simp] theorem Dev.modCore_scrubCcyc (n : Nat) (f : Core → Core) : (d.modCore n f).scrubCcyc = d.scrubCcyc := rfl
@[simp] theorem Dev.modCore_cru (n : Nat) (f : Core → Core) : (d.modCore n f).cru = d.cru := rfl
@[simp] theorem Dev.modCore_corePairs (n : Nat) (f : Core → Core) : (d.modCore n f).corePairs = d.corePairs := rfl
@[simp] theorem Dev.modCore_sqs (n : Nat) (f : Core → Core) : (d.modCore n f).sqs = d.sqs := rfl
@[simp] theorem Dev.modCore_bells (n : Nat) (f : Core → Core) : (d.modCore n f).bells = d.bells := rfl
@[simp] theorem Dev.modCore_nextOrder (n : Nat) (f : Core → Core) : (d.modCore n f).nextOrder = d.nextOrder := rfl
@[simp] theorem Dev.modCore_pcie (n : Nat) (f : Core → Core) : (d.modCore n f).pcie = d.pcie := rfl
@[simp] theorem Dev.modCore_sem (n : Nat) (f : Core → Core) : (d.modCore n f).sem = d.sem := rfl
@[simp] theorem Dev.modCore_slds (n : Nat) (f : Core → Core) : (d.modCore n f).slds = d.slds := rfl
@[simp] theorem Dev.modCore_fls (n : Nat) (f : Core → Core) : (d.modCore n f).fls = d.fls := rfl
@[simp] theorem Dev.modCore_tch (n : Nat) (f : Core → Core) : (d.modCore n f).tch = d.tch := rfl
@[simp] theorem Dev.modCore_hlm (n : Nat) (f : Core → Core) : (d.modCore n f).hlm = d.hlm := rfl
@[simp] theorem Dev.modCore_tap (n : Nat) (f : Core → Core) : (d.modCore n f).tap = d.tap := rfl
@[simp] theorem Dev.modCore_caps (n : Nat) (f : Core → Core) : (d.modCore n f).caps = d.caps := rfl
@[simp] theorem Dev.modCore_evcHigh (n : Nat) (f : Core → Core) : (d.modCore n f).evcHigh = d.evcHigh := rfl
@[simp] theorem Dev.modCore_evcAt (n : Nat) (f : Core → Core) : (d.modCore n f).evcAt = d.evcAt := rfl
@[simp] theorem Dev.modCore_evcClr (n : Nat) (f : Core → Core) : (d.modCore n f).evcClr = d.evcClr := rfl
@[simp] theorem Dev.modCore_waits (n : Nat) (f : Core → Core) : (d.modCore n f).waits = d.waits := rfl
@[simp] theorem Dev.modCore_cpls (n : Nat) (f : Core → Core) : (d.modCore n f).cpls = d.cpls := rfl
@[simp] theorem Dev.modCore_rdata (n : Nat) (f : Core → Core) : (d.modCore n f).rdata = d.rdata := rfl

@[simp] theorem Dev.modSem_part (f : Sem → Sem) : (d.modSem f).part = d.part := rfl
@[simp] theorem Dev.modSem_now (f : Sem → Sem) : (d.modSem f).now = d.now := rfl
@[simp] theorem Dev.modSem_free (f : Sem → Sem) : (d.modSem f).free = d.free := rfl
@[simp] theorem Dev.modSem_regs (f : Sem → Sem) : (d.modSem f).regs = d.regs := rfl
@[simp] theorem Dev.modSem_windows (f : Sem → Sem) : (d.modSem f).windows = d.windows := rfl
@[simp] theorem Dev.modSem_time (f : Sem → Sem) : (d.modSem f).time = d.time := rfl
@[simp] theorem Dev.modSem_clkHeld (f : Sem → Sem) : (d.modSem f).clkHeld = d.clkHeld := rfl
@[simp] theorem Dev.modSem_clusters (f : Sem → Sem) : (d.modSem f).clusters = d.clusters := rfl
@[simp] theorem Dev.modSem_crossing (f : Sem → Sem) : (d.modSem f).crossing = d.crossing := rfl
@[simp] theorem Dev.modSem_due (f : Sem → Sem) : (d.modSem f).due = d.due := rfl
@[simp] theorem Dev.modSem_events (f : Sem → Sem) : (d.modSem f).events = d.events := rfl
@[simp] theorem Dev.modSem_lostFor (f : Sem → Sem) : (d.modSem f).lostFor = d.lostFor := rfl
@[simp] theorem Dev.modSem_tchQueue (f : Sem → Sem) : (d.modSem f).tchQueue = d.tchQueue := rfl
@[simp] theorem Dev.modSem_tchDropped (f : Sem → Sem) : (d.modSem f).tchDropped = d.tchDropped := rfl
@[simp] theorem Dev.modSem_wide (f : Sem → Sem) : (d.modSem f).wide = d.wide := rfl
@[simp] theorem Dev.modSem_lanes (f : Sem → Sem) : (d.modSem f).lanes = d.lanes := rfl
@[simp] theorem Dev.modSem_axes (f : Sem → Sem) : (d.modSem f).axes = d.axes := rfl
@[simp] theorem Dev.modSem_interps (f : Sem → Sem) : (d.modSem f).interps = d.interps := rfl
@[simp] theorem Dev.modSem_tiles (f : Sem → Sem) : (d.modSem f).tiles = d.tiles := rfl
@[simp] theorem Dev.modSem_chans (f : Sem → Sem) : (d.modSem f).chans = d.chans := rfl
@[simp] theorem Dev.modSem_draining (f : Sem → Sem) : (d.modSem f).draining = d.draining := rfl
@[simp] theorem Dev.modSem_sdcAt (f : Sem → Sem) : (d.modSem f).sdcAt = d.sdcAt := rfl
@[simp] theorem Dev.modSem_pwms (f : Sem → Sem) : (d.modSem f).pwms = d.pwms := rfl
@[simp] theorem Dev.modSem_fbks (f : Sem → Sem) : (d.modSem f).fbks = d.fbks := rfl
@[simp] theorem Dev.modSem_encs (f : Sem → Sem) : (d.modSem f).encs = d.encs := rfl
@[simp] theorem Dev.modSem_grps (f : Sem → Sem) : (d.modSem f).grps = d.grps := rfl
@[simp] theorem Dev.modSem_combs (f : Sem → Sem) : (d.modSem f).combs = d.combs := rfl
@[simp] theorem Dev.modSem_timers (f : Sem → Sem) : (d.modSem f).timers = d.timers := rfl
@[simp] theorem Dev.modSem_engs (f : Sem → Sem) : (d.modSem f).engs = d.engs := rfl
@[simp] theorem Dev.modSem_bank15 (f : Sem → Sem) : (d.modSem f).bank15 = d.bank15 := rfl
@[simp] theorem Dev.modSem_cores (f : Sem → Sem) : (d.modSem f).cores = d.cores := rfl
@[simp] theorem Dev.modSem_ownNext (f : Sem → Sem) : (d.modSem f).ownNext = d.ownNext := rfl
@[simp] theorem Dev.modSem_scrubAt (f : Sem → Sem) : (d.modSem f).scrubAt = d.scrubAt := rfl
@[simp] theorem Dev.modSem_scrubCcyc (f : Sem → Sem) : (d.modSem f).scrubCcyc = d.scrubCcyc := rfl
@[simp] theorem Dev.modSem_cru (f : Sem → Sem) : (d.modSem f).cru = d.cru := rfl
@[simp] theorem Dev.modSem_corePairs (f : Sem → Sem) : (d.modSem f).corePairs = d.corePairs := rfl
@[simp] theorem Dev.modSem_sqs (f : Sem → Sem) : (d.modSem f).sqs = d.sqs := rfl
@[simp] theorem Dev.modSem_bells (f : Sem → Sem) : (d.modSem f).bells = d.bells := rfl
@[simp] theorem Dev.modSem_nextOrder (f : Sem → Sem) : (d.modSem f).nextOrder = d.nextOrder := rfl
@[simp] theorem Dev.modSem_pcie (f : Sem → Sem) : (d.modSem f).pcie = d.pcie := rfl
@[simp] theorem Dev.modSem_slds (f : Sem → Sem) : (d.modSem f).slds = d.slds := rfl
@[simp] theorem Dev.modSem_fls (f : Sem → Sem) : (d.modSem f).fls = d.fls := rfl
@[simp] theorem Dev.modSem_tch (f : Sem → Sem) : (d.modSem f).tch = d.tch := rfl
@[simp] theorem Dev.modSem_hlm (f : Sem → Sem) : (d.modSem f).hlm = d.hlm := rfl
@[simp] theorem Dev.modSem_tap (f : Sem → Sem) : (d.modSem f).tap = d.tap := rfl
@[simp] theorem Dev.modSem_caps (f : Sem → Sem) : (d.modSem f).caps = d.caps := rfl
@[simp] theorem Dev.modSem_evcHigh (f : Sem → Sem) : (d.modSem f).evcHigh = d.evcHigh := rfl
@[simp] theorem Dev.modSem_evcAt (f : Sem → Sem) : (d.modSem f).evcAt = d.evcAt := rfl
@[simp] theorem Dev.modSem_evcClr (f : Sem → Sem) : (d.modSem f).evcClr = d.evcClr := rfl
@[simp] theorem Dev.modSem_waits (f : Sem → Sem) : (d.modSem f).waits = d.waits := rfl
@[simp] theorem Dev.modSem_cpls (f : Sem → Sem) : (d.modSem f).cpls = d.cpls := rfl
@[simp] theorem Dev.modSem_rdata (f : Sem → Sem) : (d.modSem f).rdata = d.rdata := rfl

@[simp] theorem Dev.modFls_part (f : Fls → Fls) : (d.modFls f).part = d.part := rfl
@[simp] theorem Dev.modFls_now (f : Fls → Fls) : (d.modFls f).now = d.now := rfl
@[simp] theorem Dev.modFls_free (f : Fls → Fls) : (d.modFls f).free = d.free := rfl
@[simp] theorem Dev.modFls_regs (f : Fls → Fls) : (d.modFls f).regs = d.regs := rfl
@[simp] theorem Dev.modFls_windows (f : Fls → Fls) : (d.modFls f).windows = d.windows := rfl
@[simp] theorem Dev.modFls_time (f : Fls → Fls) : (d.modFls f).time = d.time := rfl
@[simp] theorem Dev.modFls_clkHeld (f : Fls → Fls) : (d.modFls f).clkHeld = d.clkHeld := rfl
@[simp] theorem Dev.modFls_clusters (f : Fls → Fls) : (d.modFls f).clusters = d.clusters := rfl
@[simp] theorem Dev.modFls_crossing (f : Fls → Fls) : (d.modFls f).crossing = d.crossing := rfl
@[simp] theorem Dev.modFls_due (f : Fls → Fls) : (d.modFls f).due = d.due := rfl
@[simp] theorem Dev.modFls_events (f : Fls → Fls) : (d.modFls f).events = d.events := rfl
@[simp] theorem Dev.modFls_lostFor (f : Fls → Fls) : (d.modFls f).lostFor = d.lostFor := rfl
@[simp] theorem Dev.modFls_tchQueue (f : Fls → Fls) : (d.modFls f).tchQueue = d.tchQueue := rfl
@[simp] theorem Dev.modFls_tchDropped (f : Fls → Fls) : (d.modFls f).tchDropped = d.tchDropped := rfl
@[simp] theorem Dev.modFls_wide (f : Fls → Fls) : (d.modFls f).wide = d.wide := rfl
@[simp] theorem Dev.modFls_lanes (f : Fls → Fls) : (d.modFls f).lanes = d.lanes := rfl
@[simp] theorem Dev.modFls_axes (f : Fls → Fls) : (d.modFls f).axes = d.axes := rfl
@[simp] theorem Dev.modFls_interps (f : Fls → Fls) : (d.modFls f).interps = d.interps := rfl
@[simp] theorem Dev.modFls_tiles (f : Fls → Fls) : (d.modFls f).tiles = d.tiles := rfl
@[simp] theorem Dev.modFls_chans (f : Fls → Fls) : (d.modFls f).chans = d.chans := rfl
@[simp] theorem Dev.modFls_draining (f : Fls → Fls) : (d.modFls f).draining = d.draining := rfl
@[simp] theorem Dev.modFls_sdcAt (f : Fls → Fls) : (d.modFls f).sdcAt = d.sdcAt := rfl
@[simp] theorem Dev.modFls_pwms (f : Fls → Fls) : (d.modFls f).pwms = d.pwms := rfl
@[simp] theorem Dev.modFls_fbks (f : Fls → Fls) : (d.modFls f).fbks = d.fbks := rfl
@[simp] theorem Dev.modFls_encs (f : Fls → Fls) : (d.modFls f).encs = d.encs := rfl
@[simp] theorem Dev.modFls_grps (f : Fls → Fls) : (d.modFls f).grps = d.grps := rfl
@[simp] theorem Dev.modFls_combs (f : Fls → Fls) : (d.modFls f).combs = d.combs := rfl
@[simp] theorem Dev.modFls_timers (f : Fls → Fls) : (d.modFls f).timers = d.timers := rfl
@[simp] theorem Dev.modFls_engs (f : Fls → Fls) : (d.modFls f).engs = d.engs := rfl
@[simp] theorem Dev.modFls_bank15 (f : Fls → Fls) : (d.modFls f).bank15 = d.bank15 := rfl
@[simp] theorem Dev.modFls_cores (f : Fls → Fls) : (d.modFls f).cores = d.cores := rfl
@[simp] theorem Dev.modFls_ownNext (f : Fls → Fls) : (d.modFls f).ownNext = d.ownNext := rfl
@[simp] theorem Dev.modFls_scrubAt (f : Fls → Fls) : (d.modFls f).scrubAt = d.scrubAt := rfl
@[simp] theorem Dev.modFls_scrubCcyc (f : Fls → Fls) : (d.modFls f).scrubCcyc = d.scrubCcyc := rfl
@[simp] theorem Dev.modFls_cru (f : Fls → Fls) : (d.modFls f).cru = d.cru := rfl
@[simp] theorem Dev.modFls_corePairs (f : Fls → Fls) : (d.modFls f).corePairs = d.corePairs := rfl
@[simp] theorem Dev.modFls_sqs (f : Fls → Fls) : (d.modFls f).sqs = d.sqs := rfl
@[simp] theorem Dev.modFls_bells (f : Fls → Fls) : (d.modFls f).bells = d.bells := rfl
@[simp] theorem Dev.modFls_nextOrder (f : Fls → Fls) : (d.modFls f).nextOrder = d.nextOrder := rfl
@[simp] theorem Dev.modFls_pcie (f : Fls → Fls) : (d.modFls f).pcie = d.pcie := rfl
@[simp] theorem Dev.modFls_sem (f : Fls → Fls) : (d.modFls f).sem = d.sem := rfl
@[simp] theorem Dev.modFls_slds (f : Fls → Fls) : (d.modFls f).slds = d.slds := rfl
@[simp] theorem Dev.modFls_tch (f : Fls → Fls) : (d.modFls f).tch = d.tch := rfl
@[simp] theorem Dev.modFls_hlm (f : Fls → Fls) : (d.modFls f).hlm = d.hlm := rfl
@[simp] theorem Dev.modFls_tap (f : Fls → Fls) : (d.modFls f).tap = d.tap := rfl
@[simp] theorem Dev.modFls_caps (f : Fls → Fls) : (d.modFls f).caps = d.caps := rfl
@[simp] theorem Dev.modFls_evcHigh (f : Fls → Fls) : (d.modFls f).evcHigh = d.evcHigh := rfl
@[simp] theorem Dev.modFls_evcAt (f : Fls → Fls) : (d.modFls f).evcAt = d.evcAt := rfl
@[simp] theorem Dev.modFls_evcClr (f : Fls → Fls) : (d.modFls f).evcClr = d.evcClr := rfl
@[simp] theorem Dev.modFls_waits (f : Fls → Fls) : (d.modFls f).waits = d.waits := rfl
@[simp] theorem Dev.modFls_cpls (f : Fls → Fls) : (d.modFls f).cpls = d.cpls := rfl
@[simp] theorem Dev.modFls_rdata (f : Fls → Fls) : (d.modFls f).rdata = d.rdata := rfl

@[simp] theorem Dev.modTch_part (f : Tch → Tch) : (d.modTch f).part = d.part := rfl
@[simp] theorem Dev.modTch_now (f : Tch → Tch) : (d.modTch f).now = d.now := rfl
@[simp] theorem Dev.modTch_free (f : Tch → Tch) : (d.modTch f).free = d.free := rfl
@[simp] theorem Dev.modTch_regs (f : Tch → Tch) : (d.modTch f).regs = d.regs := rfl
@[simp] theorem Dev.modTch_windows (f : Tch → Tch) : (d.modTch f).windows = d.windows := rfl
@[simp] theorem Dev.modTch_time (f : Tch → Tch) : (d.modTch f).time = d.time := rfl
@[simp] theorem Dev.modTch_clkHeld (f : Tch → Tch) : (d.modTch f).clkHeld = d.clkHeld := rfl
@[simp] theorem Dev.modTch_clusters (f : Tch → Tch) : (d.modTch f).clusters = d.clusters := rfl
@[simp] theorem Dev.modTch_crossing (f : Tch → Tch) : (d.modTch f).crossing = d.crossing := rfl
@[simp] theorem Dev.modTch_due (f : Tch → Tch) : (d.modTch f).due = d.due := rfl
@[simp] theorem Dev.modTch_events (f : Tch → Tch) : (d.modTch f).events = d.events := rfl
@[simp] theorem Dev.modTch_lostFor (f : Tch → Tch) : (d.modTch f).lostFor = d.lostFor := rfl
@[simp] theorem Dev.modTch_tchQueue (f : Tch → Tch) : (d.modTch f).tchQueue = d.tchQueue := rfl
@[simp] theorem Dev.modTch_tchDropped (f : Tch → Tch) : (d.modTch f).tchDropped = d.tchDropped := rfl
@[simp] theorem Dev.modTch_wide (f : Tch → Tch) : (d.modTch f).wide = d.wide := rfl
@[simp] theorem Dev.modTch_lanes (f : Tch → Tch) : (d.modTch f).lanes = d.lanes := rfl
@[simp] theorem Dev.modTch_axes (f : Tch → Tch) : (d.modTch f).axes = d.axes := rfl
@[simp] theorem Dev.modTch_interps (f : Tch → Tch) : (d.modTch f).interps = d.interps := rfl
@[simp] theorem Dev.modTch_tiles (f : Tch → Tch) : (d.modTch f).tiles = d.tiles := rfl
@[simp] theorem Dev.modTch_chans (f : Tch → Tch) : (d.modTch f).chans = d.chans := rfl
@[simp] theorem Dev.modTch_draining (f : Tch → Tch) : (d.modTch f).draining = d.draining := rfl
@[simp] theorem Dev.modTch_sdcAt (f : Tch → Tch) : (d.modTch f).sdcAt = d.sdcAt := rfl
@[simp] theorem Dev.modTch_pwms (f : Tch → Tch) : (d.modTch f).pwms = d.pwms := rfl
@[simp] theorem Dev.modTch_fbks (f : Tch → Tch) : (d.modTch f).fbks = d.fbks := rfl
@[simp] theorem Dev.modTch_encs (f : Tch → Tch) : (d.modTch f).encs = d.encs := rfl
@[simp] theorem Dev.modTch_grps (f : Tch → Tch) : (d.modTch f).grps = d.grps := rfl
@[simp] theorem Dev.modTch_combs (f : Tch → Tch) : (d.modTch f).combs = d.combs := rfl
@[simp] theorem Dev.modTch_timers (f : Tch → Tch) : (d.modTch f).timers = d.timers := rfl
@[simp] theorem Dev.modTch_engs (f : Tch → Tch) : (d.modTch f).engs = d.engs := rfl
@[simp] theorem Dev.modTch_bank15 (f : Tch → Tch) : (d.modTch f).bank15 = d.bank15 := rfl
@[simp] theorem Dev.modTch_cores (f : Tch → Tch) : (d.modTch f).cores = d.cores := rfl
@[simp] theorem Dev.modTch_ownNext (f : Tch → Tch) : (d.modTch f).ownNext = d.ownNext := rfl
@[simp] theorem Dev.modTch_scrubAt (f : Tch → Tch) : (d.modTch f).scrubAt = d.scrubAt := rfl
@[simp] theorem Dev.modTch_scrubCcyc (f : Tch → Tch) : (d.modTch f).scrubCcyc = d.scrubCcyc := rfl
@[simp] theorem Dev.modTch_cru (f : Tch → Tch) : (d.modTch f).cru = d.cru := rfl
@[simp] theorem Dev.modTch_corePairs (f : Tch → Tch) : (d.modTch f).corePairs = d.corePairs := rfl
@[simp] theorem Dev.modTch_sqs (f : Tch → Tch) : (d.modTch f).sqs = d.sqs := rfl
@[simp] theorem Dev.modTch_bells (f : Tch → Tch) : (d.modTch f).bells = d.bells := rfl
@[simp] theorem Dev.modTch_nextOrder (f : Tch → Tch) : (d.modTch f).nextOrder = d.nextOrder := rfl
@[simp] theorem Dev.modTch_pcie (f : Tch → Tch) : (d.modTch f).pcie = d.pcie := rfl
@[simp] theorem Dev.modTch_sem (f : Tch → Tch) : (d.modTch f).sem = d.sem := rfl
@[simp] theorem Dev.modTch_slds (f : Tch → Tch) : (d.modTch f).slds = d.slds := rfl
@[simp] theorem Dev.modTch_fls (f : Tch → Tch) : (d.modTch f).fls = d.fls := rfl
@[simp] theorem Dev.modTch_hlm (f : Tch → Tch) : (d.modTch f).hlm = d.hlm := rfl
@[simp] theorem Dev.modTch_tap (f : Tch → Tch) : (d.modTch f).tap = d.tap := rfl
@[simp] theorem Dev.modTch_caps (f : Tch → Tch) : (d.modTch f).caps = d.caps := rfl
@[simp] theorem Dev.modTch_evcHigh (f : Tch → Tch) : (d.modTch f).evcHigh = d.evcHigh := rfl
@[simp] theorem Dev.modTch_evcAt (f : Tch → Tch) : (d.modTch f).evcAt = d.evcAt := rfl
@[simp] theorem Dev.modTch_evcClr (f : Tch → Tch) : (d.modTch f).evcClr = d.evcClr := rfl
@[simp] theorem Dev.modTch_waits (f : Tch → Tch) : (d.modTch f).waits = d.waits := rfl
@[simp] theorem Dev.modTch_cpls (f : Tch → Tch) : (d.modTch f).cpls = d.cpls := rfl
@[simp] theorem Dev.modTch_rdata (f : Tch → Tch) : (d.modTch f).rdata = d.rdata := rfl

@[simp] theorem Dev.modHlm_part (f : Hlm → Hlm) : (d.modHlm f).part = d.part := rfl
@[simp] theorem Dev.modHlm_now (f : Hlm → Hlm) : (d.modHlm f).now = d.now := rfl
@[simp] theorem Dev.modHlm_free (f : Hlm → Hlm) : (d.modHlm f).free = d.free := rfl
@[simp] theorem Dev.modHlm_regs (f : Hlm → Hlm) : (d.modHlm f).regs = d.regs := rfl
@[simp] theorem Dev.modHlm_windows (f : Hlm → Hlm) : (d.modHlm f).windows = d.windows := rfl
@[simp] theorem Dev.modHlm_time (f : Hlm → Hlm) : (d.modHlm f).time = d.time := rfl
@[simp] theorem Dev.modHlm_clkHeld (f : Hlm → Hlm) : (d.modHlm f).clkHeld = d.clkHeld := rfl
@[simp] theorem Dev.modHlm_clusters (f : Hlm → Hlm) : (d.modHlm f).clusters = d.clusters := rfl
@[simp] theorem Dev.modHlm_crossing (f : Hlm → Hlm) : (d.modHlm f).crossing = d.crossing := rfl
@[simp] theorem Dev.modHlm_due (f : Hlm → Hlm) : (d.modHlm f).due = d.due := rfl
@[simp] theorem Dev.modHlm_events (f : Hlm → Hlm) : (d.modHlm f).events = d.events := rfl
@[simp] theorem Dev.modHlm_lostFor (f : Hlm → Hlm) : (d.modHlm f).lostFor = d.lostFor := rfl
@[simp] theorem Dev.modHlm_tchQueue (f : Hlm → Hlm) : (d.modHlm f).tchQueue = d.tchQueue := rfl
@[simp] theorem Dev.modHlm_tchDropped (f : Hlm → Hlm) : (d.modHlm f).tchDropped = d.tchDropped := rfl
@[simp] theorem Dev.modHlm_wide (f : Hlm → Hlm) : (d.modHlm f).wide = d.wide := rfl
@[simp] theorem Dev.modHlm_lanes (f : Hlm → Hlm) : (d.modHlm f).lanes = d.lanes := rfl
@[simp] theorem Dev.modHlm_axes (f : Hlm → Hlm) : (d.modHlm f).axes = d.axes := rfl
@[simp] theorem Dev.modHlm_interps (f : Hlm → Hlm) : (d.modHlm f).interps = d.interps := rfl
@[simp] theorem Dev.modHlm_tiles (f : Hlm → Hlm) : (d.modHlm f).tiles = d.tiles := rfl
@[simp] theorem Dev.modHlm_chans (f : Hlm → Hlm) : (d.modHlm f).chans = d.chans := rfl
@[simp] theorem Dev.modHlm_draining (f : Hlm → Hlm) : (d.modHlm f).draining = d.draining := rfl
@[simp] theorem Dev.modHlm_sdcAt (f : Hlm → Hlm) : (d.modHlm f).sdcAt = d.sdcAt := rfl
@[simp] theorem Dev.modHlm_pwms (f : Hlm → Hlm) : (d.modHlm f).pwms = d.pwms := rfl
@[simp] theorem Dev.modHlm_fbks (f : Hlm → Hlm) : (d.modHlm f).fbks = d.fbks := rfl
@[simp] theorem Dev.modHlm_encs (f : Hlm → Hlm) : (d.modHlm f).encs = d.encs := rfl
@[simp] theorem Dev.modHlm_grps (f : Hlm → Hlm) : (d.modHlm f).grps = d.grps := rfl
@[simp] theorem Dev.modHlm_combs (f : Hlm → Hlm) : (d.modHlm f).combs = d.combs := rfl
@[simp] theorem Dev.modHlm_timers (f : Hlm → Hlm) : (d.modHlm f).timers = d.timers := rfl
@[simp] theorem Dev.modHlm_engs (f : Hlm → Hlm) : (d.modHlm f).engs = d.engs := rfl
@[simp] theorem Dev.modHlm_bank15 (f : Hlm → Hlm) : (d.modHlm f).bank15 = d.bank15 := rfl
@[simp] theorem Dev.modHlm_cores (f : Hlm → Hlm) : (d.modHlm f).cores = d.cores := rfl
@[simp] theorem Dev.modHlm_ownNext (f : Hlm → Hlm) : (d.modHlm f).ownNext = d.ownNext := rfl
@[simp] theorem Dev.modHlm_scrubAt (f : Hlm → Hlm) : (d.modHlm f).scrubAt = d.scrubAt := rfl
@[simp] theorem Dev.modHlm_scrubCcyc (f : Hlm → Hlm) : (d.modHlm f).scrubCcyc = d.scrubCcyc := rfl
@[simp] theorem Dev.modHlm_cru (f : Hlm → Hlm) : (d.modHlm f).cru = d.cru := rfl
@[simp] theorem Dev.modHlm_corePairs (f : Hlm → Hlm) : (d.modHlm f).corePairs = d.corePairs := rfl
@[simp] theorem Dev.modHlm_sqs (f : Hlm → Hlm) : (d.modHlm f).sqs = d.sqs := rfl
@[simp] theorem Dev.modHlm_bells (f : Hlm → Hlm) : (d.modHlm f).bells = d.bells := rfl
@[simp] theorem Dev.modHlm_nextOrder (f : Hlm → Hlm) : (d.modHlm f).nextOrder = d.nextOrder := rfl
@[simp] theorem Dev.modHlm_pcie (f : Hlm → Hlm) : (d.modHlm f).pcie = d.pcie := rfl
@[simp] theorem Dev.modHlm_sem (f : Hlm → Hlm) : (d.modHlm f).sem = d.sem := rfl
@[simp] theorem Dev.modHlm_slds (f : Hlm → Hlm) : (d.modHlm f).slds = d.slds := rfl
@[simp] theorem Dev.modHlm_fls (f : Hlm → Hlm) : (d.modHlm f).fls = d.fls := rfl
@[simp] theorem Dev.modHlm_tch (f : Hlm → Hlm) : (d.modHlm f).tch = d.tch := rfl
@[simp] theorem Dev.modHlm_tap (f : Hlm → Hlm) : (d.modHlm f).tap = d.tap := rfl
@[simp] theorem Dev.modHlm_caps (f : Hlm → Hlm) : (d.modHlm f).caps = d.caps := rfl
@[simp] theorem Dev.modHlm_evcHigh (f : Hlm → Hlm) : (d.modHlm f).evcHigh = d.evcHigh := rfl
@[simp] theorem Dev.modHlm_evcAt (f : Hlm → Hlm) : (d.modHlm f).evcAt = d.evcAt := rfl
@[simp] theorem Dev.modHlm_evcClr (f : Hlm → Hlm) : (d.modHlm f).evcClr = d.evcClr := rfl
@[simp] theorem Dev.modHlm_waits (f : Hlm → Hlm) : (d.modHlm f).waits = d.waits := rfl
@[simp] theorem Dev.modHlm_cpls (f : Hlm → Hlm) : (d.modHlm f).cpls = d.cpls := rfl
@[simp] theorem Dev.modHlm_rdata (f : Hlm → Hlm) : (d.modHlm f).rdata = d.rdata := rfl

@[simp] theorem Dev.modTap_part (f : Tap → Tap) : (d.modTap f).part = d.part := rfl
@[simp] theorem Dev.modTap_now (f : Tap → Tap) : (d.modTap f).now = d.now := rfl
@[simp] theorem Dev.modTap_free (f : Tap → Tap) : (d.modTap f).free = d.free := rfl
@[simp] theorem Dev.modTap_regs (f : Tap → Tap) : (d.modTap f).regs = d.regs := rfl
@[simp] theorem Dev.modTap_windows (f : Tap → Tap) : (d.modTap f).windows = d.windows := rfl
@[simp] theorem Dev.modTap_time (f : Tap → Tap) : (d.modTap f).time = d.time := rfl
@[simp] theorem Dev.modTap_clkHeld (f : Tap → Tap) : (d.modTap f).clkHeld = d.clkHeld := rfl
@[simp] theorem Dev.modTap_clusters (f : Tap → Tap) : (d.modTap f).clusters = d.clusters := rfl
@[simp] theorem Dev.modTap_crossing (f : Tap → Tap) : (d.modTap f).crossing = d.crossing := rfl
@[simp] theorem Dev.modTap_due (f : Tap → Tap) : (d.modTap f).due = d.due := rfl
@[simp] theorem Dev.modTap_events (f : Tap → Tap) : (d.modTap f).events = d.events := rfl
@[simp] theorem Dev.modTap_lostFor (f : Tap → Tap) : (d.modTap f).lostFor = d.lostFor := rfl
@[simp] theorem Dev.modTap_tchQueue (f : Tap → Tap) : (d.modTap f).tchQueue = d.tchQueue := rfl
@[simp] theorem Dev.modTap_tchDropped (f : Tap → Tap) : (d.modTap f).tchDropped = d.tchDropped := rfl
@[simp] theorem Dev.modTap_wide (f : Tap → Tap) : (d.modTap f).wide = d.wide := rfl
@[simp] theorem Dev.modTap_lanes (f : Tap → Tap) : (d.modTap f).lanes = d.lanes := rfl
@[simp] theorem Dev.modTap_axes (f : Tap → Tap) : (d.modTap f).axes = d.axes := rfl
@[simp] theorem Dev.modTap_interps (f : Tap → Tap) : (d.modTap f).interps = d.interps := rfl
@[simp] theorem Dev.modTap_tiles (f : Tap → Tap) : (d.modTap f).tiles = d.tiles := rfl
@[simp] theorem Dev.modTap_chans (f : Tap → Tap) : (d.modTap f).chans = d.chans := rfl
@[simp] theorem Dev.modTap_draining (f : Tap → Tap) : (d.modTap f).draining = d.draining := rfl
@[simp] theorem Dev.modTap_sdcAt (f : Tap → Tap) : (d.modTap f).sdcAt = d.sdcAt := rfl
@[simp] theorem Dev.modTap_pwms (f : Tap → Tap) : (d.modTap f).pwms = d.pwms := rfl
@[simp] theorem Dev.modTap_fbks (f : Tap → Tap) : (d.modTap f).fbks = d.fbks := rfl
@[simp] theorem Dev.modTap_encs (f : Tap → Tap) : (d.modTap f).encs = d.encs := rfl
@[simp] theorem Dev.modTap_grps (f : Tap → Tap) : (d.modTap f).grps = d.grps := rfl
@[simp] theorem Dev.modTap_combs (f : Tap → Tap) : (d.modTap f).combs = d.combs := rfl
@[simp] theorem Dev.modTap_timers (f : Tap → Tap) : (d.modTap f).timers = d.timers := rfl
@[simp] theorem Dev.modTap_engs (f : Tap → Tap) : (d.modTap f).engs = d.engs := rfl
@[simp] theorem Dev.modTap_bank15 (f : Tap → Tap) : (d.modTap f).bank15 = d.bank15 := rfl
@[simp] theorem Dev.modTap_cores (f : Tap → Tap) : (d.modTap f).cores = d.cores := rfl
@[simp] theorem Dev.modTap_ownNext (f : Tap → Tap) : (d.modTap f).ownNext = d.ownNext := rfl
@[simp] theorem Dev.modTap_scrubAt (f : Tap → Tap) : (d.modTap f).scrubAt = d.scrubAt := rfl
@[simp] theorem Dev.modTap_scrubCcyc (f : Tap → Tap) : (d.modTap f).scrubCcyc = d.scrubCcyc := rfl
@[simp] theorem Dev.modTap_cru (f : Tap → Tap) : (d.modTap f).cru = d.cru := rfl
@[simp] theorem Dev.modTap_corePairs (f : Tap → Tap) : (d.modTap f).corePairs = d.corePairs := rfl
@[simp] theorem Dev.modTap_sqs (f : Tap → Tap) : (d.modTap f).sqs = d.sqs := rfl
@[simp] theorem Dev.modTap_bells (f : Tap → Tap) : (d.modTap f).bells = d.bells := rfl
@[simp] theorem Dev.modTap_nextOrder (f : Tap → Tap) : (d.modTap f).nextOrder = d.nextOrder := rfl
@[simp] theorem Dev.modTap_pcie (f : Tap → Tap) : (d.modTap f).pcie = d.pcie := rfl
@[simp] theorem Dev.modTap_sem (f : Tap → Tap) : (d.modTap f).sem = d.sem := rfl
@[simp] theorem Dev.modTap_slds (f : Tap → Tap) : (d.modTap f).slds = d.slds := rfl
@[simp] theorem Dev.modTap_fls (f : Tap → Tap) : (d.modTap f).fls = d.fls := rfl
@[simp] theorem Dev.modTap_tch (f : Tap → Tap) : (d.modTap f).tch = d.tch := rfl
@[simp] theorem Dev.modTap_hlm (f : Tap → Tap) : (d.modTap f).hlm = d.hlm := rfl
@[simp] theorem Dev.modTap_caps (f : Tap → Tap) : (d.modTap f).caps = d.caps := rfl
@[simp] theorem Dev.modTap_evcHigh (f : Tap → Tap) : (d.modTap f).evcHigh = d.evcHigh := rfl
@[simp] theorem Dev.modTap_evcAt (f : Tap → Tap) : (d.modTap f).evcAt = d.evcAt := rfl
@[simp] theorem Dev.modTap_evcClr (f : Tap → Tap) : (d.modTap f).evcClr = d.evcClr := rfl
@[simp] theorem Dev.modTap_waits (f : Tap → Tap) : (d.modTap f).waits = d.waits := rfl
@[simp] theorem Dev.modTap_cpls (f : Tap → Tap) : (d.modTap f).cpls = d.cpls := rfl
@[simp] theorem Dev.modTap_rdata (f : Tap → Tap) : (d.modTap f).rdata = d.rdata := rfl

@[simp] theorem Dev.modPcie_part (f : Pcie → Pcie) : (d.modPcie f).part = d.part := rfl
@[simp] theorem Dev.modPcie_now (f : Pcie → Pcie) : (d.modPcie f).now = d.now := rfl
@[simp] theorem Dev.modPcie_free (f : Pcie → Pcie) : (d.modPcie f).free = d.free := rfl
@[simp] theorem Dev.modPcie_regs (f : Pcie → Pcie) : (d.modPcie f).regs = d.regs := rfl
@[simp] theorem Dev.modPcie_windows (f : Pcie → Pcie) : (d.modPcie f).windows = d.windows := rfl
@[simp] theorem Dev.modPcie_time (f : Pcie → Pcie) : (d.modPcie f).time = d.time := rfl
@[simp] theorem Dev.modPcie_clkHeld (f : Pcie → Pcie) : (d.modPcie f).clkHeld = d.clkHeld := rfl
@[simp] theorem Dev.modPcie_clusters (f : Pcie → Pcie) : (d.modPcie f).clusters = d.clusters := rfl
@[simp] theorem Dev.modPcie_crossing (f : Pcie → Pcie) : (d.modPcie f).crossing = d.crossing := rfl
@[simp] theorem Dev.modPcie_due (f : Pcie → Pcie) : (d.modPcie f).due = d.due := rfl
@[simp] theorem Dev.modPcie_events (f : Pcie → Pcie) : (d.modPcie f).events = d.events := rfl
@[simp] theorem Dev.modPcie_lostFor (f : Pcie → Pcie) : (d.modPcie f).lostFor = d.lostFor := rfl
@[simp] theorem Dev.modPcie_tchQueue (f : Pcie → Pcie) : (d.modPcie f).tchQueue = d.tchQueue := rfl
@[simp] theorem Dev.modPcie_tchDropped (f : Pcie → Pcie) : (d.modPcie f).tchDropped = d.tchDropped := rfl
@[simp] theorem Dev.modPcie_wide (f : Pcie → Pcie) : (d.modPcie f).wide = d.wide := rfl
@[simp] theorem Dev.modPcie_lanes (f : Pcie → Pcie) : (d.modPcie f).lanes = d.lanes := rfl
@[simp] theorem Dev.modPcie_axes (f : Pcie → Pcie) : (d.modPcie f).axes = d.axes := rfl
@[simp] theorem Dev.modPcie_interps (f : Pcie → Pcie) : (d.modPcie f).interps = d.interps := rfl
@[simp] theorem Dev.modPcie_tiles (f : Pcie → Pcie) : (d.modPcie f).tiles = d.tiles := rfl
@[simp] theorem Dev.modPcie_chans (f : Pcie → Pcie) : (d.modPcie f).chans = d.chans := rfl
@[simp] theorem Dev.modPcie_draining (f : Pcie → Pcie) : (d.modPcie f).draining = d.draining := rfl
@[simp] theorem Dev.modPcie_sdcAt (f : Pcie → Pcie) : (d.modPcie f).sdcAt = d.sdcAt := rfl
@[simp] theorem Dev.modPcie_pwms (f : Pcie → Pcie) : (d.modPcie f).pwms = d.pwms := rfl
@[simp] theorem Dev.modPcie_fbks (f : Pcie → Pcie) : (d.modPcie f).fbks = d.fbks := rfl
@[simp] theorem Dev.modPcie_encs (f : Pcie → Pcie) : (d.modPcie f).encs = d.encs := rfl
@[simp] theorem Dev.modPcie_grps (f : Pcie → Pcie) : (d.modPcie f).grps = d.grps := rfl
@[simp] theorem Dev.modPcie_combs (f : Pcie → Pcie) : (d.modPcie f).combs = d.combs := rfl
@[simp] theorem Dev.modPcie_timers (f : Pcie → Pcie) : (d.modPcie f).timers = d.timers := rfl
@[simp] theorem Dev.modPcie_engs (f : Pcie → Pcie) : (d.modPcie f).engs = d.engs := rfl
@[simp] theorem Dev.modPcie_bank15 (f : Pcie → Pcie) : (d.modPcie f).bank15 = d.bank15 := rfl
@[simp] theorem Dev.modPcie_cores (f : Pcie → Pcie) : (d.modPcie f).cores = d.cores := rfl
@[simp] theorem Dev.modPcie_ownNext (f : Pcie → Pcie) : (d.modPcie f).ownNext = d.ownNext := rfl
@[simp] theorem Dev.modPcie_scrubAt (f : Pcie → Pcie) : (d.modPcie f).scrubAt = d.scrubAt := rfl
@[simp] theorem Dev.modPcie_scrubCcyc (f : Pcie → Pcie) : (d.modPcie f).scrubCcyc = d.scrubCcyc := rfl
@[simp] theorem Dev.modPcie_cru (f : Pcie → Pcie) : (d.modPcie f).cru = d.cru := rfl
@[simp] theorem Dev.modPcie_corePairs (f : Pcie → Pcie) : (d.modPcie f).corePairs = d.corePairs := rfl
@[simp] theorem Dev.modPcie_sqs (f : Pcie → Pcie) : (d.modPcie f).sqs = d.sqs := rfl
@[simp] theorem Dev.modPcie_bells (f : Pcie → Pcie) : (d.modPcie f).bells = d.bells := rfl
@[simp] theorem Dev.modPcie_nextOrder (f : Pcie → Pcie) : (d.modPcie f).nextOrder = d.nextOrder := rfl
@[simp] theorem Dev.modPcie_sem (f : Pcie → Pcie) : (d.modPcie f).sem = d.sem := rfl
@[simp] theorem Dev.modPcie_slds (f : Pcie → Pcie) : (d.modPcie f).slds = d.slds := rfl
@[simp] theorem Dev.modPcie_fls (f : Pcie → Pcie) : (d.modPcie f).fls = d.fls := rfl
@[simp] theorem Dev.modPcie_tch (f : Pcie → Pcie) : (d.modPcie f).tch = d.tch := rfl
@[simp] theorem Dev.modPcie_hlm (f : Pcie → Pcie) : (d.modPcie f).hlm = d.hlm := rfl
@[simp] theorem Dev.modPcie_tap (f : Pcie → Pcie) : (d.modPcie f).tap = d.tap := rfl
@[simp] theorem Dev.modPcie_caps (f : Pcie → Pcie) : (d.modPcie f).caps = d.caps := rfl
@[simp] theorem Dev.modPcie_evcHigh (f : Pcie → Pcie) : (d.modPcie f).evcHigh = d.evcHigh := rfl
@[simp] theorem Dev.modPcie_evcAt (f : Pcie → Pcie) : (d.modPcie f).evcAt = d.evcAt := rfl
@[simp] theorem Dev.modPcie_evcClr (f : Pcie → Pcie) : (d.modPcie f).evcClr = d.evcClr := rfl
@[simp] theorem Dev.modPcie_waits (f : Pcie → Pcie) : (d.modPcie f).waits = d.waits := rfl
@[simp] theorem Dev.modPcie_cpls (f : Pcie → Pcie) : (d.modPcie f).cpls = d.cpls := rfl
@[simp] theorem Dev.modPcie_rdata (f : Pcie → Pcie) : (d.modPcie f).rdata = d.rdata := rfl

end updates

/-! ## The parts of the device -/

@[simp] theorem Dev.lane_modLane_same (d : Dev) (n : Nat) (f : Lane → Lane) : (d.modLane n f).lane n = f (d.lane n) := by
  simp [Dev.modLane, Dev.lane]
theorem Dev.lane_modLane_ne (d : Dev) (n : Nat) (f : Lane → Lane) (m : Nat) (h : m ≠ n) : (d.modLane n f).lane m = d.lane m := by
  simp [Dev.modLane, Dev.lane, mget_mset_ne _ _ _ h]
@[simp] theorem Dev.axis_modAxis_same (d : Dev) (n : Nat) (f : Axis → Axis) : (d.modAxis n f).axis n = f (d.axis n) := by
  simp [Dev.modAxis, Dev.axis]
theorem Dev.axis_modAxis_ne (d : Dev) (n : Nat) (f : Axis → Axis) (m : Nat) (h : m ≠ n) : (d.modAxis n f).axis m = d.axis m := by
  simp [Dev.modAxis, Dev.axis, mget_mset_ne _ _ _ h]
@[simp] theorem Dev.interp_modInterp_same (d : Dev) (n : Nat) (f : Interp → Interp) : (d.modInterp n f).interp n = f (d.interp n) := by
  simp [Dev.modInterp, Dev.interp]
theorem Dev.interp_modInterp_ne (d : Dev) (n : Nat) (f : Interp → Interp) (m : Nat) (h : m ≠ n) : (d.modInterp n f).interp m = d.interp m := by
  simp [Dev.modInterp, Dev.interp, mget_mset_ne _ _ _ h]
@[simp] theorem Dev.tile_modTile_same (d : Dev) (n : Nat) (f : Tile → Tile) : (d.modTile n f).tile n = f (d.tile n) := by
  simp [Dev.modTile, Dev.tile]
theorem Dev.tile_modTile_ne (d : Dev) (n : Nat) (f : Tile → Tile) (m : Nat) (h : m ≠ n) : (d.modTile n f).tile m = d.tile m := by
  simp [Dev.modTile, Dev.tile, mget_mset_ne _ _ _ h]
@[simp] theorem Dev.chan_modChan_same (d : Dev) (n : Nat) (f : Chan → Chan) : (d.modChan n f).chan n = f (d.chan n) := by
  simp [Dev.modChan, Dev.chan]
theorem Dev.chan_modChan_ne (d : Dev) (n : Nat) (f : Chan → Chan) (m : Nat) (h : m ≠ n) : (d.modChan n f).chan m = d.chan m := by
  simp [Dev.modChan, Dev.chan, mget_mset_ne _ _ _ h]
@[simp] theorem Dev.pwm_modPwm_same (d : Dev) (n : Nat) (f : Pwm → Pwm) : (d.modPwm n f).pwm n = f (d.pwm n) := by
  simp [Dev.modPwm, Dev.pwm]
theorem Dev.pwm_modPwm_ne (d : Dev) (n : Nat) (f : Pwm → Pwm) (m : Nat) (h : m ≠ n) : (d.modPwm n f).pwm m = d.pwm m := by
  simp [Dev.modPwm, Dev.pwm, mget_mset_ne _ _ _ h]
@[simp] theorem Dev.fbk_modFbk_same (d : Dev) (n : Nat) (f : Fbk → Fbk) : (d.modFbk n f).fbk n = f (d.fbk n) := by
  simp [Dev.modFbk, Dev.fbk]
theorem Dev.fbk_modFbk_ne (d : Dev) (n : Nat) (f : Fbk → Fbk) (m : Nat) (h : m ≠ n) : (d.modFbk n f).fbk m = d.fbk m := by
  simp [Dev.modFbk, Dev.fbk, mget_mset_ne _ _ _ h]
@[simp] theorem Dev.enc_modEnc_same (d : Dev) (n : Nat) (f : EncOut → EncOut) : (d.modEnc n f).enc n = f (d.enc n) := by
  simp [Dev.modEnc, Dev.enc]
theorem Dev.enc_modEnc_ne (d : Dev) (n : Nat) (f : EncOut → EncOut) (m : Nat) (h : m ≠ n) : (d.modEnc n f).enc m = d.enc m := by
  simp [Dev.modEnc, Dev.enc, mget_mset_ne _ _ _ h]
@[simp] theorem Dev.comb_modComb_same (d : Dev) (n : Nat) (f : Comb → Comb) : (d.modComb n f).comb n = f (d.comb n) := by
  simp [Dev.modComb, Dev.comb]
theorem Dev.comb_modComb_ne (d : Dev) (n : Nat) (f : Comb → Comb) (m : Nat) (h : m ≠ n) : (d.modComb n f).comb m = d.comb m := by
  simp [Dev.modComb, Dev.comb, mget_mset_ne _ _ _ h]
@[simp] theorem Dev.tmr_modTmr_same (d : Dev) (n : Nat) (f : Tmr → Tmr) : (d.modTmr n f).tmr n = f (d.tmr n) := by
  simp [Dev.modTmr, Dev.tmr]
theorem Dev.tmr_modTmr_ne (d : Dev) (n : Nat) (f : Tmr → Tmr) (m : Nat) (h : m ≠ n) : (d.modTmr n f).tmr m = d.tmr m := by
  simp [Dev.modTmr, Dev.tmr, mget_mset_ne _ _ _ h]
@[simp] theorem Dev.eng_modEng_same (d : Dev) (n : Nat) (f : Eng → Eng) : (d.modEng n f).eng n = f (d.eng n) := by
  simp [Dev.modEng, Dev.eng]
theorem Dev.eng_modEng_ne (d : Dev) (n : Nat) (f : Eng → Eng) (m : Nat) (h : m ≠ n) : (d.modEng n f).eng m = d.eng m := by
  simp [Dev.modEng, Dev.eng, mget_mset_ne _ _ _ h]
@[simp] theorem Dev.grp_modGrp_same (d : Dev) (n : Nat) (f : Grp → Grp) : (d.modGrp n f).grp n = f (d.grp n) := by
  simp [Dev.modGrp, Dev.grp]
theorem Dev.grp_modGrp_ne (d : Dev) (n : Nat) (f : Grp → Grp) (m : Nat) (h : m ≠ n) : (d.modGrp n f).grp m = d.grp m := by
  simp [Dev.modGrp, Dev.grp, mget_mset_ne _ _ _ h]
@[simp] theorem Dev.cluster_modCluster_same (d : Dev) (n : Nat) (f : Cluster → Cluster) : (d.modCluster n f).cluster n = f (d.cluster n) := by
  simp [Dev.modCluster, Dev.cluster]
theorem Dev.cluster_modCluster_ne (d : Dev) (n : Nat) (f : Cluster → Cluster) (m : Nat) (h : m ≠ n) : (d.modCluster n f).cluster m = d.cluster m := by
  simp [Dev.modCluster, Dev.cluster, mget_mset_ne _ _ _ h]
@[simp] theorem Dev.pair_modCorePair_same (d : Dev) (n : Nat) (f : Pair → Pair) : (d.modCorePair n f).pair n = f (d.pair n) := by
  simp [Dev.modCorePair, Dev.pair]
theorem Dev.pair_modCorePair_ne (d : Dev) (n : Nat) (f : Pair → Pair) (m : Nat) (h : m ≠ n) : (d.modCorePair n f).pair m = d.pair m := by
  simp [Dev.modCorePair, Dev.pair, mget_mset_ne _ _ _ h]
@[simp] theorem Dev.sqOf_modSq_same (d : Dev) (n : Nat) (f : Sq → Sq) : (d.modSq n f).sqOf n = f (d.sqOf n) := by
  simp [Dev.modSq, Dev.sqOf]
theorem Dev.sqOf_modSq_ne (d : Dev) (n : Nat) (f : Sq → Sq) (m : Nat) (h : m ≠ n) : (d.modSq n f).sqOf m = d.sqOf m := by
  simp [Dev.modSq, Dev.sqOf, mget_mset_ne _ _ _ h]
@[simp] theorem Dev.sld_modSld_same (d : Dev) (n : Nat) (f : Sld → Sld) : (d.modSld n f).sld n = f (d.sld n) := by
  simp [Dev.modSld, Dev.sld]
theorem Dev.sld_modSld_ne (d : Dev) (n : Nat) (f : Sld → Sld) (m : Nat) (h : m ≠ n) : (d.modSld n f).sld m = d.sld m := by
  simp [Dev.modSld, Dev.sld, mget_mset_ne _ _ _ h]
@[simp] theorem Dev.cap_modCap_same (d : Dev) (n : Nat) (f : Cap → Cap) : (d.modCap n f).cap n = f (d.cap n) := by
  simp [Dev.modCap, Dev.cap]
theorem Dev.cap_modCap_ne (d : Dev) (n : Nat) (f : Cap → Cap) (m : Nat) (h : m ≠ n) : (d.modCap n f).cap m = d.cap m := by
  simp [Dev.modCap, Dev.cap, mget_mset_ne _ _ _ h]
@[simp] theorem Dev.core_modCore_same (d : Dev) (n : Nat) (f : Core → Core) : (d.modCore n f).core n = f (d.core n) := by
  simp [Dev.modCore, Dev.core]
theorem Dev.core_modCore_ne (d : Dev) (n : Nat) (f : Core → Core) (m : Nat) (h : m ≠ n) : (d.modCore n f).core m = d.core m := by
  simp [Dev.modCore, Dev.core, mget_mset_ne _ _ _ h]

/-! ## Registers and their fields -/

@[simp] theorem Dev.rd_wr_same (d : Dev) (a : Nat) (v : Word) : (d.wr a v).rd a = v := by
  unfold Dev.wr Dev.rd
  simp only [alookup_mset_same]
  split
  · rename_i h
    split at h
    · cases h
    · exact (Option.some.inj h).symm
  · rename_i h
    split at h
    · rename_i hv; exact hv.symm
    · cases h

theorem Dev.rd_wr_ne (d : Dev) {a b : Nat} (h : b ≠ a) (v : Word) : (d.wr a v).rd b = d.rd b := by
  unfold Dev.wr Dev.rd
  simp only [alookup_mset_ne _ _ h]

theorem Dev.rd_wr (d : Dev) (a b : Nat) (v : Word) : (d.wr a v).rd b = if b = a then v else d.rd b := by
  by_cases h : b = a
  · subst h; simp
  · rw [Dev.rd_wr_ne d h, if_neg h]

theorem Dev.rd_congr {d e : Dev} (h : d.regs = e.regs) (hp : d.part = e.part) (a : Nat) : d.rd a = e.rd a := by
  unfold Dev.rd; rw [h, hp]

theorem fget_eq (f : Fld) (v : Word) : fget f v = v.toNat / 2 ^ f.lo % 2 ^ f.wid := by
  unfold fget; rw [Nat.shiftRight_eq_div_pow]

theorem fget_lt (f : Fld) (v : Word) : fget f v < 2 ^ f.wid := by
  unfold fget; exact Nat.mod_lt _ (Nat.two_pow_pos _)

/-- A word split at a field: what lies above it, the field, and what lies below. -/
theorem word_split (f : Fld) (v : Word) :
    v.toNat = v.toNat / 2 ^ (f.lo + f.wid) * (2 ^ f.wid * 2 ^ f.lo) + fget f v * 2 ^ f.lo + v.toNat % 2 ^ f.lo := by
  rw [fget_eq, Nat.pow_add, ← Nat.div_div_eq_div_mul]
  have h1 := Nat.div_add_mod v.toNat (2 ^ f.lo)
  have h2 := Nat.div_add_mod (v.toNat / 2 ^ f.lo) (2 ^ f.wid)
  calc v.toNat = 2 ^ f.lo * (v.toNat / 2 ^ f.lo) + v.toNat % 2 ^ f.lo := h1.symm
    _ = 2 ^ f.lo * (2 ^ f.wid * (v.toNat / 2 ^ f.lo / 2 ^ f.wid) + v.toNat / 2 ^ f.lo % 2 ^ f.wid) + v.toNat % 2 ^ f.lo := by
        rw [h2]
    _ = _ := by
        rw [Nat.mul_add]; congr 1; congr 1
        · rw [← Nat.mul_assoc, Nat.mul_comm, Nat.mul_comm (2 ^ f.lo)]
        · rw [Nat.mul_comm]

/-- The number of a word with a field put into it. -/
theorem fput_toNat (f : Fld) (v : Word) (n : Nat) (h : f.lo + f.wid ≤ 32) :
    (fput f v n).toNat =
      v.toNat / 2 ^ (f.lo + f.wid) * (2 ^ f.wid * 2 ^ f.lo) + n % 2 ^ f.wid * 2 ^ f.lo + v.toNat % 2 ^ f.lo := by
  have hs := word_split f v
  have hr : v.toNat % 2 ^ f.lo < 2 ^ f.lo := Nat.mod_lt _ (Nat.two_pow_pos _)
  have hk : n % 2 ^ f.wid + 1 ≤ 2 ^ f.wid := Nat.mod_lt _ (Nat.two_pow_pos _)
  have hk2 : n % 2 ^ f.wid * 2 ^ f.lo + 2 ^ f.lo ≤ 2 ^ f.wid * 2 ^ f.lo := by
    rw [← Nat.succ_mul]; exact Nat.mul_le_mul_right _ hk
  have hq : (v.toNat / 2 ^ (f.lo + f.wid) + 1) * (2 ^ f.wid * 2 ^ f.lo) ≤ 2 ^ 32 := by
    have hx : v.toNat / 2 ^ (f.lo + f.wid) < 2 ^ (32 - (f.lo + f.wid)) := by
      rw [Nat.div_lt_iff_lt_mul (Nat.two_pow_pos _), ← Nat.pow_add]
      have : 32 - (f.lo + f.wid) + (f.lo + f.wid) = 32 := by omega
      rw [this]; exact v.isLt
    calc (v.toNat / 2 ^ (f.lo + f.wid) + 1) * (2 ^ f.wid * 2 ^ f.lo)
        ≤ 2 ^ (32 - (f.lo + f.wid)) * (2 ^ f.wid * 2 ^ f.lo) := Nat.mul_le_mul_right _ hx
      _ = 2 ^ 32 := by rw [← Nat.pow_add, ← Nat.pow_add]; congr 1; omega
  rw [Nat.succ_mul] at hq
  unfold fput
  rw [BitVec.toNat_ofNat, Nat.mod_eq_of_lt] <;> omega

/-- A field reads what was put into it. -/
theorem fget_fput_same (f : Fld) (v : Word) (n : Nat) (h : f.lo + f.wid ≤ 32) : fget f (fput f v n) = n % 2 ^ f.wid := by
  rw [fget_eq, fput_toNat f v n h]
  have hr : v.toNat % 2 ^ f.lo < 2 ^ f.lo := Nat.mod_lt _ (Nat.two_pow_pos _)
  have e : v.toNat / 2 ^ (f.lo + f.wid) * (2 ^ f.wid * 2 ^ f.lo) + n % 2 ^ f.wid * 2 ^ f.lo + v.toNat % 2 ^ f.lo =
      v.toNat % 2 ^ f.lo + (v.toNat / 2 ^ (f.lo + f.wid) * 2 ^ f.wid + n % 2 ^ f.wid) * 2 ^ f.lo := by
    rw [Nat.add_mul, Nat.mul_assoc]; omega
  rw [e, Nat.add_mul_div_right _ _ (Nat.two_pow_pos _), Nat.div_eq_of_lt hr, Nat.zero_add, Nat.add_comm,
    Nat.add_mul_mod_self_right, Nat.mod_mod]

/-- A field reads as before where another one was put. -/
theorem fget_fput_ne (f g : Fld) (v : Word) (n : Nat) (h : f.lo + f.wid ≤ 32)
    (hd : g.lo + g.wid ≤ f.lo ∨ f.lo + f.wid ≤ g.lo) : fget g (fput f v n) = fget g v := by
  have hs := word_split f v
  have ht := fput_toNat f v n h
  rcases hd with hd | hd
  · have key : ∀ x : Nat, x / 2 ^ g.lo % 2 ^ g.wid = x % 2 ^ f.lo / 2 ^ g.lo % 2 ^ g.wid := by
      intro x
      have e : 2 ^ f.lo = 2 ^ g.lo * (2 ^ g.wid * 2 ^ (f.lo - (g.lo + g.wid))) := by
        rw [← Nat.pow_add, ← Nat.pow_add]; congr 1; omega
      rw [e, Nat.mod_mul_right_div_self, Nat.mod_mul_right_mod]
    rw [fget_eq, fget_eq, key, key v.toNat]
    congr 2
    rw [ht]
    have e1 : (v.toNat / 2 ^ (f.lo + f.wid) * (2 ^ f.wid * 2 ^ f.lo) + n % 2 ^ f.wid * 2 ^ f.lo) =
        2 ^ f.lo * (v.toNat / 2 ^ (f.lo + f.wid) * 2 ^ f.wid + n % 2 ^ f.wid) := by
      rw [Nat.mul_comm (2 ^ f.lo), Nat.add_mul, Nat.mul_assoc]
    rw [e1]
    simp
  · have key : ∀ x : Nat, x / 2 ^ g.lo = x / (2 ^ f.lo * 2 ^ f.wid) / 2 ^ (g.lo - (f.lo + f.wid)) := by
      intro x
      rw [Nat.div_div_eq_div_mul, ← Nat.pow_add, ← Nat.pow_add]; congr 2; omega
    rw [fget_eq, fget_eq, key, key v.toNat]
    congr 2
    have hr : v.toNat % 2 ^ f.lo < 2 ^ f.lo := Nat.mod_lt _ (Nat.two_pow_pos _)
    have mid : ∀ q k r : Nat, r < 2 ^ f.lo → k < 2 ^ f.wid →
        (q * (2 ^ f.wid * 2 ^ f.lo) + k * 2 ^ f.lo + r) / (2 ^ f.lo * 2 ^ f.wid) = q := by
      intro q k r hr hk
      rw [← Nat.div_div_eq_div_mul]
      have e : q * (2 ^ f.wid * 2 ^ f.lo) + k * 2 ^ f.lo + r = r + (q * 2 ^ f.wid + k) * 2 ^ f.lo := by
        rw [Nat.add_mul, Nat.mul_assoc]; omega
      rw [e, Nat.add_mul_div_right _ _ (Nat.two_pow_pos _), Nat.div_eq_of_lt hr, Nat.zero_add, Nat.add_comm,
        Nat.add_mul_div_right _ _ (Nat.two_pow_pos _), Nat.div_eq_of_lt hk, Nat.zero_add]
    rw [ht, mid _ _ _ hr (Nat.mod_lt _ (Nat.two_pow_pos _))]
    conv => rhs; rw [hs]
    rw [mid _ _ _ hr (fget_lt f v)]

/-- A field of a register reads what was put into it. -/
theorem Dev.fld_setF_same (d : Dev) (a : Nat) (f : Fld) (n : Nat) (h : f.lo + f.wid ≤ 32) :
    (d.setF a f n).fld a f = n % 2 ^ f.wid := by
  simp [Dev.setF, Dev.fld, fget_fput_same f _ n h]

/-- Another field of the same register reads as before. -/
theorem Dev.fld_setF_ne (d : Dev) (a : Nat) (f g : Fld) (n : Nat) (h : f.lo + f.wid ≤ 32)
    (hd : g.lo + g.wid ≤ f.lo ∨ f.lo + f.wid ≤ g.lo) : (d.setF a f n).fld a g = d.fld a g := by
  simp [Dev.setF, Dev.fld, fget_fput_ne f g _ n h hd]

/-- Another register reads as before. -/
theorem Dev.rd_setF_ne (d : Dev) {a b : Nat} (hb : b ≠ a) (f : Fld) (n : Nat) : (d.setF a f n).rd b = d.rd b :=
  Dev.rd_wr_ne d hb _

/-- A flag of a register reads what it was set to. -/
theorem Dev.flag_setB_same (d : Dev) (a : Nat) (f : Fld) (b : Bool) (h : f.lo + f.wid ≤ 32) (hw : 0 < f.wid) :
    (d.setB a f b).flag a f = b := by
  have h2 : 1 < 2 ^ f.wid := Nat.one_lt_two_pow (by omega)
  cases b <;> simp [Dev.setB, Dev.flag, Dev.fld_setF_same d a f _ h, b2n, Nat.mod_eq_of_lt h2]

@[simp] theorem when_true {α : Type} (f : α → α) (x : α) : when true f x = f x := rfl
@[simp] theorem when_false {α : Type} (f : α → α) (x : α) : when false f x = x := rfl

/-! ## Outcomes -/

/-- Every way a meaning changes the machine leaves its queue alone and answers a next state. -/
theorem State.upd_next (s : State) (f : Dev → Dev) : s.upd f = .next { s with dev := f s.dev } := rfl
theorem State.updM_next (s : State) (f : Memory → Dev → Dev) : s.updM f = .next { s with dev := f s.mem s.dev } := rfl
theorem State.updB_next (s : State) (f : Memory → Dev → Memory × Dev) :
    s.updB f = .next { s with mem := (f s.mem s.dev).1, dev := (f s.mem s.dev).2 } := rfl
theorem State.onCluster_runs (s : State) (c : Nat) (f : Dev → Dev) (h : s.dev.clusterRuns c = true) :
    s.onCluster c f = .next { s with dev := f s.dev } := by
  simp [State.onCluster, State.upd, h]
theorem State.onCluster_stands (s : State) (c : Nat) (f : Dev → Dev) (h : s.dev.clusterRuns c = false) :
    s.onCluster c f = .next s := by
  simp [State.onCluster, State.upd, h]
theorem State.onClusterM_runs (s : State) (c : Nat) (f : Memory → Dev → Dev) (h : s.dev.clusterRuns c = true) :
    s.onClusterM c f = .next { s with dev := f s.mem s.dev } := by
  simp [State.onClusterM, State.updM, h]
theorem State.onClusterM_stands (s : State) (c : Nat) (f : Memory → Dev → Dev) (h : s.dev.clusterRuns c = false) :
    s.onClusterM c f = .next s := by
  simp [State.onClusterM, State.updM, h]

end Sys2Proof.Machine
end

