-- ==== Sys2Proof/Laws/Quiet.lean ====
section
/-!
SUPPORT. What posting a record or counting a pulse can change: event counters, the event and Touchmark queues with their
counts, crossings and what is due. Everything else stands.
-/
namespace Sys2Proof.Machine

theorem Quiet.refl (d : Dev) : Quiet d d := ⟨rfl, fun _ _ => rfl, fun _ _ => rfl⟩

theorem Quiet.trans {a b c : Dev} (h : Quiet a b) (k : Quiet b c) : Quiet a c :=
  ⟨k.still.trans h.still, fun x hx => (k.regs x hx).trans (h.regs x hx), fun x hx => (k.wide x hx).trans (h.wide x hx)⟩

theorem Quiet.part {d e : Dev} (h : Quiet d e) : e.part = d.part := by
  have := congrArg Dev.part h.still; exact this

theorem Quiet.rd {d e : Dev} (h : Quiet d e) {a : Nat} (ha : noiseReg a = false) : e.rd a = d.rd a := by
  unfold Dev.rd; rw [h.regs a ha, h.part]

theorem Quiet.fld {d e : Dev} (h : Quiet d e) {a : Nat} (ha : noiseReg a = false) (f : Fld) : e.fld a f = d.fld a f := by
  unfold Dev.fld; rw [h.rd ha]

theorem Quiet.flag {d e : Dev} (h : Quiet d e) {a : Nat} (ha : noiseReg a = false) (f : Fld) : e.flag a f = d.flag a f := by
  unfold Dev.flag; rw [h.fld ha]

theorem Quiet.fldIf {d e : Dev} (h : Quiet d e) {a : Nat} (ha : noiseReg a = false) (f : Fld) : e.fldIf a f = d.fldIf a f := by
  unfold Dev.fldIf; rw [h.regs a ha]

/-- A register of the noise written. -/
theorem Quiet.wr (d : Dev) {a : Nat} (ha : noiseReg a = true) (v : Word) : Quiet d (d.wr a v) where
  still := rfl
  regs b hb := by
    have : b ≠ a := by rintro rfl; simp [ha] at hb
    exact alookup_mset_ne _ _ this _
  wide _ _ := rfl

theorem Quiet.setF (d : Dev) {a : Nat} (ha : noiseReg a = true) (f : Fld) (n : Nat) : Quiet d (d.setF a f n) := Quiet.wr d ha _

theorem Quiet.setB (d : Dev) {a : Nat} (ha : noiseReg a = true) (f : Fld) (b : Bool) : Quiet d (d.setB a f b) := Quiet.wr d ha _

theorem Quiet.setWide (d : Dev) {a : Nat} (ha : noiseReg a = true) (n : Nat) : Quiet d (d.setWide a n) where
  still := rfl
  regs b hb := by
    have : b ≠ a := by rintro rfl; simp [ha] at hb
    exact alookup_mset_ne _ _ this _
  wide b hb := by
    have : b ≠ a := by rintro rfl; simp [ha] at hb
    exact mget_mset_ne _ _ _ this _

theorem Quiet.addDue (d : Dev) (x : Due) : Quiet d (d.addDue x) := by
  unfold Dev.addDue
  split
  · exact .refl d
  · exact ⟨rfl, fun _ _ => rfl, fun _ _ => rfl⟩

theorem Quiet.when (b : Bool) (f : Dev → Dev) (d : Dev) (h : ∀ x, Quiet x (f x)) : Quiet d (when b f d) := by
  cases b
  · exact .refl d
  · exact h d

theorem Quiet.upTo (n : Nat) (f : Nat → Dev → Dev) (d : Dev) (h : ∀ i x, i < n → Quiet x (f i x)) : Quiet d (upTo n f d) := by
  have key : ∀ (l : List Nat) (x : Dev), (∀ i ∈ l, i < n) → Quiet x (l.foldl (fun t i => f i t) x) := by
    intro l
    induction l with
    | nil => intro x _; exact .refl x
    | cons i l ih =>
      intro x hl
      exact (h i x (hl i (by simp))).trans (ih _ fun j hj => hl j (by simp [hj]))
  exact key _ _ fun i hi => List.mem_range.1 hi

theorem noise_evcCfg (e : Nat) (h : e < 96) : noiseReg (EVC_CFG e) = true := by
  unfold noiseReg EVC_CFG
  split <;> simp only [Bool.or_eq_true, Bool.and_eq_true, decide_eq_true_eq, beq_iff_eq] <;> omega

theorem noise_evcCnt (e : Nat) (h : e < 96) : noiseReg (EVC_CNT_LO e) = true := by
  unfold noiseReg EVC_CNT_LO
  split <;> simp only [Bool.or_eq_true, Bool.and_eq_true, decide_eq_true_eq, beq_iff_eq] <;> omega

theorem noise_ringStat (r : Nat) (h : r < 4096) : noiseReg (LDL_RING_STAT r) = true := by
  unfold noiseReg LDL_RING_STAT
  simp only [Bool.or_eq_true, Bool.and_eq_true, decide_eq_true_eq, beq_iff_eq]
  omega

/-- One count. -/
theorem Quiet.evcTick (e : Nat) (h : e < 96) (d : Dev) : Quiet d (evcTick e d) := by
  unfold Machine.evcTick
  exact ((Quiet.setWide d (noise_evcCnt e h) _).trans
    (Quiet.when _ _ _ fun x => Quiet.setB x (noise_evcCfg e h) _ _)).trans (Quiet.when _ _ _ fun x => Quiet.addDue x _)

/-- A pulse for an event counter that counts at most one per ccyc. -/
theorem Quiet.evcPulse (e : Nat) (f : Dev → Dev) (d : Dev) (h : ∀ x, Quiet x (f x)) : Quiet d (evcPulse e f d) := by
  unfold Machine.evcPulse
  split
  · exact .refl d
  · have k : Quiet d { d with evcAt := mset 0 d.evcAt e (d.now + 1) } := ⟨rfl, fun _ _ => rfl, fun _ _ => rfl⟩
    exact k.trans (h _)

/-- A count that enters a crossing. -/
theorem Quiet.evcCross (i : Island) (e : Nat) (d : Dev) : Quiet d (evcCross i e d) := ⟨rfl, fun _ _ => rfl, fun _ _ => rfl⟩

/-- A pulse of a cluster's catalogue. -/
theorem Quiet.evcCluster (c src : Nat) (h : c < 4) (d : Dev) : Quiet d (evcCluster c src d) := by
  unfold Machine.evcCluster
  refine (Quiet.upTo _ _ _ fun i x hi => Quiet.when _ _ _ fun y => Quiet.evcPulse _ _ _ fun z => Quiet.evcTick _ (by omega) z).trans
    (Quiet.upTo _ _ _ fun i x _ => ?_)
  split
  · exact Quiet.evcPulse _ _ _ fun z => Quiet.evcCross _ _ z
  · exact .refl x

/-- A pulse of the device's catalogue. -/
theorem Quiet.evcDevice (src : Nat) (d : Dev) : Quiet d (evcDevice src d) := by
  unfold Machine.evcDevice
  refine (Quiet.upTo _ _ _ fun i x hi => Quiet.when _ _ _ fun y => Quiet.evcPulse _ _ _ fun z => Quiet.evcTick _ (by omega) z).trans
    (Quiet.upTo _ _ _ fun i x hi => ?_)
  split
  · refine Quiet.evcPulse _ _ _ fun z => ?_
    split
    · exact Quiet.evcTick _ (by omega) z
    · exact Quiet.evcCross _ _ z
  · exact .refl x

theorem eqOf_lt (d : Dev) (cls : Nat) : d.eqOf cls < 4096 := by
  have hw : ∀ a, d.fld a LDL_EVT_ROUTE_eq < 4096 := fun a => fget_lt LDL_EVT_ROUTE_eq _
  unfold Dev.eqOf
  simp only
  split
  · split
    · exact hw _
    · decide
  · split <;> decide

theorem noise_gstat : noiseReg LDL_GSTAT = true := by decide
theorem noise_evtDrop : noiseReg LDL_EVT_DROP = true := by decide
theorem noise_tchStat : noiseReg TCH_STAT = true := by decide

/-- The number of dwords lost for a ring. -/
theorem Quiet.lostFor (d : Dev) (l : SMap Nat) : Quiet d { d with lostFor := l } := ⟨rfl, fun _ _ => rfl, fun _ _ => rfl⟩
theorem Quiet.eventQueue (d : Dev) (l : List EvRec) : Quiet d { d with events := l } := ⟨rfl, fun _ _ => rfl, fun _ _ => rfl⟩
theorem Quiet.tchQueue (d : Dev) (l : List TchRec) : Quiet d { d with tchQueue := l } := ⟨rfl, fun _ _ => rfl, fun _ _ => rfl⟩
theorem Quiet.tchDropped (d : Dev) (n : Nat) : Quiet d { d with tchDropped := n } := ⟨rfl, fun _ _ => rfl, fun _ _ => rfl⟩

theorem Quiet.loseEvents (r n : Nat) (h : r < 4096) (d : Dev) : Quiet d (loseEvents r n d) :=
  (Quiet.setF d (noise_ringStat r h) LDL_RING_STAT_lost (satAdd 16 (d.fld (LDL_RING_STAT r) LDL_RING_STAT_lost) n)).trans
    ((Quiet.setF _ noise_evtDrop LDL_EVT_DROP_dropped _).trans ((Quiet.lostFor _ _).trans (Quiet.evcDevice _ _)))

theorem Quiet.bump (d : Dev) : Quiet d d.bump := ⟨rfl, fun _ _ => rfl, fun _ _ => rfl⟩

/-- The stamp of an island taken. -/
theorem Quiet.stamped (d : Dev) (isl : Nat) : Quiet d (d.stamped isl) := by
  refine ⟨?_, fun _ _ => rfl, fun _ _ => rfl⟩
  unfold Dev.stamped Machine.when
  dsimp only
  split <;> rfl

theorem Quiet.postEventAt (code isl index time : Nat) (pay : List Nat) (d : Dev) :
    Quiet d (postEventAt code isl index time pay d) := by
  unfold Machine.postEventAt
  simp only
  split
  · exact Quiet.loseEvents _ _ (eqOf_lt d _) d
  · exact (Quiet.eventQueue d _).trans (Quiet.setF _ noise_gstat LDL_GSTAT_evt_lvl _)

/-- A record is posted. -/
theorem Quiet.postEvent (code isl index : Nat) (pay : List Nat) (d : Dev) : Quiet d (postEvent code isl index pay d) := by
  unfold Machine.postEvent
  exact (Quiet.postEventAt _ _ _ _ _ d).trans (Quiet.stamped _ _)

/-- A Touchmark record joins the queue. -/
theorem Quiet.postTouchmark (cause isl index : Nat) (pay : List Nat) (d : Dev) :
    Quiet d (postTouchmark cause isl index pay d) := by
  unfold Machine.postTouchmark
  simp only
  split
  · exact (Quiet.tchQueue d _).trans ((Quiet.setF _ noise_tchStat TCH_STAT_queued _).trans (Quiet.stamped _ _))
  · exact (Quiet.tchDropped d _).trans ((Quiet.setF _ noise_tchStat TCH_STAT_dropped _).trans (Quiet.stamped _ _))

end Sys2Proof.Machine
end

