-- ==== Sys2Proof/Laws/Frame.lean ====
section
/-!
SUPPORT. How rows answer, and how the statement that a row changes only some registers and some parts of the device is
put together from the updates the row makes.
-/
namespace Sys2Proof.Machine

/-! ## What a row yields -/

theorem yields_upd {s : State} {f : Dev → Dev} {P : State → Prop} : Yields (s.upd f) P ↔ P { s with dev := f s.dev } := by
  simp [Yields, State.upd]

theorem yields_updM {s : State} {f : Memory → Dev → Dev} {P : State → Prop} :
    Yields (s.updM f) P ↔ P { s with dev := f s.mem s.dev } := by
  simp [Yields, State.updM]

theorem yields_updB {s : State} {f : Memory → Dev → Memory × Dev} {P : State → Prop} :
    Yields (s.updB f) P ↔ P { s with mem := (f s.mem s.dev).1, dev := (f s.mem s.dev).2 } := by
  simp [Yields, State.updB]

theorem yields_onCluster {s : State} {c : Nat} {f : Dev → Dev} {P : State → Prop} (h : s.dev.clusterRuns c = true) :
    Yields (s.onCluster c f) P ↔ P { s with dev := f s.dev } := by
  simp [Yields, State.onCluster_runs s c f h]

theorem yields_onClusterM {s : State} {c : Nat} {f : Memory → Dev → Dev} {P : State → Prop}
    (h : s.dev.clusterRuns c = true) : Yields (s.onClusterM c f) P ↔ P { s with dev := f s.mem s.dev } := by
  simp [Yields, State.onClusterM_runs s c f h]

theorem Yields.imp {o : Out} {P Q : State → Prop} (h : Yields o P) (k : ∀ t, P t → Q t) : Yields o Q := by
  obtain ⟨t, ht, hp⟩ := h; exact ⟨t, ht, k t hp⟩

theorem Yields.and {o : Out} {P Q : State → Prop} (h : Yields o P) (k : Yields o Q) : Yields o fun t => P t ∧ Q t := by
  obtain ⟨t, ht, hp⟩ := h; obtain ⟨u, hu, hq⟩ := k
  have : t = u := by rw [ht] at hu; exact Host.Outcome.next.inj hu
  subst this; exact ⟨t, ht, hp, hq⟩

/-! ## What a row changes only -/

section frame
variable {l : List Nat} {g : Dev → Dev} {d e : Dev}

theorem ChangesOnly.refl (l : List Nat) (g : Dev → Dev) (d : Dev) : ChangesOnly l g d d :=
  ⟨rfl, fun _ _ _ => rfl, fun _ _ _ => rfl⟩

theorem ChangesOnly.trans {c : Dev} (h : ChangesOnly l g d e) (k : ChangesOnly l g e c) : ChangesOnly l g d c :=
  ⟨k.rest.trans h.rest, fun a ha hn => (k.regs a ha hn).trans (h.regs a ha hn),
    fun a ha hn => (k.wide a ha hn).trans (h.wide a ha hn)⟩

/-- Parts that g erases may change freely where registers stand. -/
theorem ChangesOnly.parts (h : g e.still = g d.still) (hr : e.regs = d.regs) (hw : e.wide = d.wide) : ChangesOnly l g d e :=
  ⟨h, fun _ _ _ => by rw [hr], fun _ _ _ => by unfold Dev.wide64; rw [hw]⟩

theorem ChangesOnly.quiet (h : Quiet d e) : ChangesOnly l g d e :=
  ⟨congrArg g h.still, fun a _ hn => h.regs a hn, fun a _ hn => h.wide a hn⟩

theorem ChangesOnly.wr (d : Dev) {a : Nat} (ha : a ∈ l) (v : Word) : ChangesOnly l g d (d.wr a v) where
  rest := rfl
  regs b hb _ := alookup_mset_ne _ _ (by rintro rfl; exact hb ha) _
  wide _ _ _ := rfl

theorem ChangesOnly.setF (d : Dev) {a : Nat} (ha : a ∈ l) (f : Fld) (n : Nat) : ChangesOnly l g d (d.setF a f n) := .wr d ha _
theorem ChangesOnly.setB (d : Dev) {a : Nat} (ha : a ∈ l) (f : Fld) (b : Bool) : ChangesOnly l g d (d.setB a f b) := .wr d ha _
theorem ChangesOnly.incF (d : Dev) {a : Nat} (ha : a ∈ l) (f : Fld) : ChangesOnly l g d (d.incF a f) := .wr d ha _
theorem ChangesOnly.incW (d : Dev) {a : Nat} (ha : a ∈ l) (f : Fld) : ChangesOnly l g d (d.incW a f) := .wr d ha _

theorem ChangesOnly.setWide (d : Dev) {a : Nat} (ha : a ∈ l) (n : Nat) : ChangesOnly l g d (d.setWide a n) where
  rest := rfl
  regs b hb _ := alookup_mset_ne _ _ (by rintro rfl; exact hb ha) _
  wide b hb _ := mget_mset_ne _ _ _ (by rintro rfl; exact hb ha) _

theorem ChangesOnly.when (b : Bool) (f : Dev → Dev) (d : Dev) (h : ∀ x, ChangesOnly l g x (f x)) :
    ChangesOnly l g d (when b f d) := by
  cases b
  · exact .refl l g d
  · exact h d

theorem ChangesOnly.upTo (n : Nat) (f : Nat → Dev → Dev) (d : Dev) (h : ∀ i x, i < n → ChangesOnly l g x (f i x)) :
    ChangesOnly l g d (upTo n f d) := by
  have key : ∀ (m : List Nat) (x : Dev), (∀ i ∈ m, i < n) → ChangesOnly l g x (m.foldl (fun t i => f i t) x) := by
    intro m
    induction m with
    | nil => intro x _; exact .refl l g x
    | cons i m ih =>
      intro x hl
      exact (h i x (hl i (by simp))).trans (ih _ fun j hj => hl j (by simp [hj]))
  exact key _ _ fun i hi => List.mem_range.1 hi

/-- A register outside the list reads as before. -/
theorem ChangesOnly.rd (h : ChangesOnly l g d e) (hp : e.part = d.part) {a : Nat} (ha : a ∉ l) (hn : noiseReg a = false) :
    e.rd a = d.rd a := by
  unfold Dev.rd; rw [h.regs a ha hn, hp]

theorem ChangesOnly.fld (h : ChangesOnly l g d e) (hp : e.part = d.part) {a : Nat} (ha : a ∉ l) (hn : noiseReg a = false)
    (f : Fld) : e.fld a f = d.fld a f := by
  unfold Dev.fld; rw [h.rd hp ha hn]

end frame

/-! ## A write of a register -/

theorem alookup_wr (d : Dev) (a b : Nat) (v : Word) : alookup b (d.wr a v).regs.entries =
    if b = a then (if v = regReset d.part a then none else some v) else alookup b d.regs.entries := by
  by_cases h : b = a
  · subst h; rw [if_pos rfl]; exact alookup_mset_same _ _ _ _
  · rw [if_neg h]; exact alookup_mset_ne _ _ h _

@[simp] theorem Dev.regReset_part_wr (d : Dev) (a : Nat) (v : Word) : (d.wr a v).part = d.part := rfl

end Sys2Proof.Machine
end

