-- ==== Sys2Proof/Laws/Lane.lean ====
section
/-!
SUPPORT. One microinstruction of a lane: what fetching the word leaves, and what the results of words change.
-/
namespace Sys2Proof.Machine

theorem upTo_succ {σ : Type} (n : Nat) (f : Nat → σ → σ) (x : σ) : upTo (n + 1) f x = f n (upTo n f x) := by
  simp [upTo, List.range_succ]

/-- An invariant of every round holds after all of them. -/
theorem upTo_inv {σ : Type} (P : σ → Prop) (n : Nat) (f : Nat → σ → σ) (x : σ) (h0 : P x)
    (h : ∀ i y, i < n → P y → P (f i y)) : P (upTo n f x) := by
  have : ∀ k, k ≤ n → P (upTo k f x) := by
    intro k
    induction k with
    | zero => intro _; exact h0
    | succ k ih => intro hk; rw [upTo_succ]; exact h k _ (by omega) (ih (by omega))
  exact this n (Nat.le_refl n)

/-- The comparators of a lane, where none asks for a halt, change only their counts. -/
theorem lacAct_quiet {d : Dev} {n pc slot : Nat} (hn : n / 4 < 4)
    (h : ∀ k < 4, d.lacHit n k pc slot = true → d.fld (PLN_LAC_CFG n k) PLN_LAC_CFG_action ≠ 2) :
    ChangesOnly [PLN_LAC_CNT n 0, PLN_LAC_CNT n 1, PLN_LAC_CNT n 2, PLN_LAC_CNT n 3] id d (lacAct n pc slot d) := by
  unfold lacAct
  refine upTo_inv (fun x => ChangesOnly _ id d x) _ _ _ (.refl _ _ _) ?_
  intro k x hk hx
  simp only
  split
  · rename_i hit
    have hmem : PLN_LAC_CNT n k ∈ [PLN_LAC_CNT n 0, PLN_LAC_CNT n 1, PLN_LAC_CNT n 2, PLN_LAC_CNT n 3] := by
      have : k = 0 ∨ k = 1 ∨ k = 2 ∨ k = 3 := by omega
      rcases this with rfl | rfl | rfl | rfl <;> simp
    split
    · exact hx.trans ((ChangesOnly.incF _ hmem _).trans (.quiet (.evcCluster _ _ hn _)))
    · rename_i ha
      exact absurd ha (h k hk hit)
    · exact hx.trans (.incF _ hmem _)
  · exact hx

theorem ChangesOnly.mono {l k : List Nat} {g h : Dev → Dev} {d e : Dev} (c : ChangesOnly l g d e) (hl : ∀ a ∈ l, a ∈ k)
    (hg : ∀ x y : Dev, g x = g y → h x = h y) : ChangesOnly k h d e :=
  ⟨hg _ _ c.rest, fun a ha => c.regs a fun hb => ha (hl a hb), fun a ha => c.wide a fun hb => ha (hl a hb)⟩

/-- The registers a microinstruction of lane n may write. -/
def laneRegs (n : Nat) : List Nat :=
  [PLN_LANE_STAT n, PLN_LS_STAT (n / 4), PLN_LAC_CNT n 0, PLN_LAC_CNT n 1, PLN_LAC_CNT n 2, PLN_LAC_CNT n 3]

theorem lane_modLane_self (d : Dev) (n : Nat) (f : Lane → Lane) : (d.modLane n f).lane n = f (d.lane n) :=
  Dev.lane_modLane_same d n f

/-- A word that the lane executes: fetching it moves the law to the next word and changes nothing else, and the word then
acts. -/
theorem laneStep_ready {d : Dev} {n : Nat} {r : LawRun} {fg : Bool} (h : LaneReady d n r fg) {op cyc : Nat}
    (f : LW → Bool → Dev → Dev) (hop : (laneWord d n r).op = op) (hn : n / 4 < 4) :
    ∃ e, laneStep n op cyc f d = f (laneWord d n r) fg e ∧ LaneMoved n fg (r.after cyc) d e ∧ e.bank n fg = d.bank n fg ∧
      (e.lane n).stores = (d.lane n).stores ∧ e.clusters = d.clusters := by
  have hc := lacAct_quiet (slot := r.slot) (pc := r.pc) hn h.noHalt
  have hlanes : (lacAct n r.pc r.slot d).lanes = d.lanes := by
    have := congrArg Dev.lanes hc.rest; exact this
  have hclus : (lacAct n r.pc r.slot d).clusters = d.clusters := by
    have := congrArg Dev.clusters hc.rest; exact this
  have hlane : ∀ m, (lacAct n r.pc r.slot d).lane m = d.lane m := fun m => by unfold Dev.lane; rw [hlanes]
  have hhalt : ((lacAct n r.pc r.slot d).cluster (n / 4)).halting = false := by
    unfold Dev.cluster; rw [hclus]; exact h.goes
  have key : ∀ y : Dev, y.lanes = d.lanes → y.clusters = d.clusters → ChangesOnly (laneRegs n) Dev.noLanes d y →
      LaneMoved n fg (r.after cyc) d (y.modRun n fg fun r => { r with pc := r.pc + 1, len := r.len + cyc }) ∧
      (y.modRun n fg fun r => { r with pc := r.pc + 1, len := r.len + cyc }).bank n fg = d.bank n fg ∧
      ((y.modRun n fg fun r => { r with pc := r.pc + 1, len := r.len + cyc }).lane n).stores = (d.lane n).stores ∧
      (y.modRun n fg fun r => { r with pc := r.pc + 1, len := r.len + cyc }).clusters = d.clusters := by
    intro y hy hyc hco
    have hyl : ∀ m, y.lane m = d.lane m := fun m => by unfold Dev.lane; rw [hy]
    have hrun := h.law
    refine ⟨⟨?_, ?_, ?_, ?_, ?_⟩, ?_, ?_, hyc⟩
    · unfold Dev.running Dev.modRun at *
      rw [lane_modLane_self, hyl]
      cases fg
      · simp only [Bool.false_eq_true, if_false] at *
        cases hcur : (d.lane n).cur with
        | some q => rw [hcur] at hrun; cases hrun
        | none =>
          rw [hcur] at hrun
          simp only at hrun ⊢
          cases hj : (d.lane n).job with
          | none => rw [hj] at hrun; cases hrun
          | some q => rw [hj] at hrun; cases hrun; rfl
      · simp only [if_true] at *
        cases hcur : (d.lane n).cur with
        | some q => rw [hcur] at hrun; cases hrun; rfl
        | none =>
          rw [hcur] at hrun
          cases hj : (d.lane n).job with
          | none => rw [hj] at hrun; cases hrun
          | some q => rw [hj] at hrun; cases hrun
    · intro m hm
      unfold Dev.modRun
      rw [Dev.lane_modLane_ne _ _ _ _ hm, hyl]
    · unfold Dev.bank Dev.modRun
      rw [lane_modLane_self, hyl]
      cases fg <;> rfl
    · unfold Dev.modRun
      rw [lane_modLane_self, hyl]
      cases fg <;> rfl
    · exact hco.trans (.parts rfl rfl rfl)
    · unfold Dev.bank Dev.modRun
      rw [lane_modLane_self, hyl]
      cases fg <;> rfl
    · unfold Dev.modRun
      rw [lane_modLane_self, hyl]
      cases fg <;> rfl
  have hco : ChangesOnly (laneRegs n) Dev.noLanes d (lacAct n r.pc r.slot d) :=
    hc.mono (by intro a ha; unfold laneRegs; exact List.mem_cons_of_mem _ (List.mem_cons_of_mem _ ha)) fun x y hxy => congrArg _ hxy
  unfold laneStep
  have hops : ¬ (r.kind = .emulation ∨ (lwOf (d.lawWord n r.pc)).op ≠ op ∨ (d.cluster (n / 4)).halting = true) := by
    rintro (hk | hk | hk)
    · exact h.words hk
    · exact hk hop
    · rw [h.goes] at hk; cases hk
  have hecc := h.ecc
  simp only [h.law, hops, if_false, hhalt, Bool.false_eq_true]
  have he : mget 0 (d.lane n).lawErr (r.pc % 2048) = 0 ∨ mget 0 (d.lane n).lawErr (r.pc % 2048) = 1 := by omega
  rcases he with he | he
  · rw [he]
    exact ⟨_, rfl, key _ hlanes hclus hco⟩
  · rw [he]
    have hco2 : ChangesOnly (laneRegs n) Dev.noLanes d
        ((lacAct n r.pc r.slot d).incF (PLN_LS_STAT (n / 4)) PLN_LS_STAT_ecc_corr) :=
      hco.trans (.incF _ (by simp [laneRegs]) _)
    exact ⟨_, rfl, key ((lacAct n r.pc r.slot d).incF (PLN_LS_STAT (n / 4)) PLN_LS_STAT_ecc_corr)
      ((Dev.setF_lanes _ _ _ _).trans hlanes) ((Dev.setF_clusters _ _ _ _).trans hclus) hco2⟩

/-- Work on the bank of the law that runs, with sat_seen: the law stays where it stands. -/
theorem LaneMoved.modBank {n : Nat} {fg : Bool} {r : LawRun} {d e : Dev} (h : LaneMoved n fg r d e)
    (f : LaneBank → LaneBank) : LaneMoved n fg r d (e.modBank n fg f) where
  now := by
    have := h.now
    unfold Dev.running Dev.modBank at *
    rw [lane_modLane_self]
    cases fg <;> exact this
  lanes m hm := by unfold Dev.modBank; rw [Dev.lane_modLane_ne _ _ _ _ hm, h.lanes m hm]
  bank := by
    rw [← h.bank]
    unfold Dev.bank Dev.modBank
    rw [lane_modLane_self]
    cases fg <;> rfl
  stores := by
    rw [← h.stores]
    unfold Dev.modBank
    rw [lane_modLane_self]
    cases fg <;> rfl
  rest := h.rest.trans (.parts rfl rfl rfl)

theorem LaneMoved.setF {n : Nat} {fg : Bool} {r : LawRun} {d e : Dev} (h : LaneMoved n fg r d e) {a : Nat}
    (ha : a ∈ laneRegs n) (f : Fld) (v : Nat) : LaneMoved n fg r d (e.setF a f v) where
  now := h.now
  lanes := h.lanes
  bank := h.bank
  stores := h.stores
  rest := h.rest.trans (.setF _ ha f v)

@[simp] theorem bank_modBank (d : Dev) (n : Nat) (fg : Bool) (f : LaneBank → LaneBank) :
    (d.modBank n fg f).bank n fg = f (d.bank n fg) := by
  unfold Dev.bank Dev.modBank
  rw [lane_modLane_self]
  cases fg <;> rfl

theorem bank_setF (d : Dev) (a : Nat) (f : Fld) (v n : Nat) (fg : Bool) : (d.setF a f v).bank n fg = d.bank n fg := rfl

/-- What a result with flags leaves. -/
theorem lanePut_bank (n : Nat) (fg : Bool) (i : Nat) (v : Word) (sflag : Bool) (d : Dev) :
    (lanePut n fg i v sflag d).bank n fg =
      { d.bank n fg with t := mset 0 (d.bank n fg).t i v, z := decide (sgn v = 0), n := decide (sgn v < 0), s := sflag } := by
  unfold lanePut laneFlags laneS laneReg
  cases sflag
  · rw [when_false]; simp
  · rw [when_true]
    exact (bank_setF _ _ _ _ n fg).trans (by simp)

theorem lanePut_moved {n : Nat} {fg : Bool} {r : LawRun} {d e : Dev} (h : LaneMoved n fg r d e) (i : Nat) (v : Word)
    (sflag : Bool) : LaneMoved n fg r d (lanePut n fg i v sflag e) := by
  unfold lanePut laneFlags laneS laneReg
  cases sflag
  · rw [when_false]; exact ((h.modBank _).modBank _).modBank _
  · rw [when_true]; exact (((h.modBank _).modBank _).modBank _).setF (by simp [laneRegs]) _ _

theorem lanePut_put {n : Nat} {fg : Bool} {d e : Dev} (hb : e.bank n fg = d.bank n fg) (i : Nat) (v : Word) (sflag : Bool) :
    LanePut n fg i v sflag d (lanePut n fg i v sflag e) where
  value := by unfold Dev.lreg; rw [lanePut_bank]; simp
  others j hj := by unfold Dev.lreg; rw [lanePut_bank, hb]; simp [mget_mset_ne _ _ _ hj]
  zero := by
    rw [lanePut_bank]
    have : sgn v = 0 ↔ v = 0 := by
      unfold sgn
      constructor
      · intro h; exact BitVec.eq_of_toInt_eq (by simpa using h)
      · rintro rfl; rfl
    simp [this]
  neg := by rw [lanePut_bank]; rfl
  clamped := by rw [lanePut_bank]
  acc := by rw [lanePut_bank, hb]

end Sys2Proof.Machine
end

