-- ==== Sys2Proof/Laws/Memory.lean ====
section
/-!
SUPPORT. The memories: what a byte, a tag, an error state or a byte of host memory reads after a write, and that every
memory operation keeps the canonical form.
-/
namespace Sys2Proof.Machine

/-! ## Reading after a write -/

@[simp] theorem Memory.byte_setByte_same (m : Memory) (a : Nat) (b : Byte) : (m.setByte a b).byte a = b := by
  simp [Memory.byte, Memory.setByte]

theorem Memory.byte_setByte_ne (m : Memory) {a x : Nat} (h : x ≠ a) (b : Byte) : (m.setByte a b).byte x = m.byte x := by
  simp [Memory.byte, Memory.setByte, mget_mset_ne _ _ _ h]

@[simp] theorem Memory.byte_setTag (m : Memory) (a t x : Nat) : (m.setTag a t).byte x = m.byte x := rfl
@[simp] theorem Memory.byte_setErr (m : Memory) (a e x : Nat) : (m.setErr a e).byte x = m.byte x := rfl
@[simp] theorem Memory.tag_setByte (m : Memory) (a : Nat) (b : Byte) (x : Nat) : (m.setByte a b).tag x = m.tag x := rfl
@[simp] theorem Memory.tag_setErr (m : Memory) (a e x : Nat) : (m.setErr a e).tag x = m.tag x := rfl
@[simp] theorem Memory.errAt_setByte (m : Memory) (a : Nat) (b : Byte) (x : Nat) : (m.setByte a b).errAt x = m.errAt x := rfl
@[simp] theorem Memory.errAt_setTag (m : Memory) (a t x : Nat) : (m.setTag a t).errAt x = m.errAt x := rfl
@[simp] theorem Memory.hostByte_setByte (m : Memory) (a : Nat) (b : Byte) (x : Nat) : (m.setByte a b).hostByte x = m.hostByte x := rfl
@[simp] theorem Memory.host_setByte (m : Memory) (a : Nat) (b : Byte) : (m.setByte a b).host = m.host := rfl
@[simp] theorem Memory.host_setTag (m : Memory) (a t : Nat) : (m.setTag a t).host = m.host := rfl
@[simp] theorem Memory.host_setErr (m : Memory) (a e : Nat) : (m.setErr a e).host = m.host := rfl

@[simp] theorem Memory.tag_setTag_same (m : Memory) (a t : Nat) : (m.setTag a t).tag a = t := by
  simp [Memory.tag, Memory.setTag]

theorem Memory.tag_setTag_ne (m : Memory) {a x : Nat} (h : x ≠ a) (t : Nat) : (m.setTag a t).tag x = m.tag x := by
  simp [Memory.tag, Memory.setTag, mget_mset_ne _ _ _ h]

@[simp] theorem Memory.errAt_setErr_same (m : Memory) (a e : Nat) : (m.setErr a e).errAt a = e := by
  simp [Memory.errAt, Memory.setErr]

theorem Memory.errAt_setErr_ne (m : Memory) {a x : Nat} (h : x ≠ a) (e : Nat) : (m.setErr a e).errAt x = m.errAt x := by
  simp [Memory.errAt, Memory.setErr, mget_mset_ne _ _ _ h]

@[simp] theorem Memory.tags_setSpan (bs : List Byte) : ∀ (m : Memory) (a : Nat), (m.setSpan a bs).tags = m.tags := by
  induction bs with
  | nil => intros; rfl
  | cons b bs ih => intro m a; simp only [Memory.setSpan, ih]; rfl

@[simp] theorem Memory.err_setSpan (bs : List Byte) : ∀ (m : Memory) (a : Nat), (m.setSpan a bs).err = m.err := by
  induction bs with
  | nil => intros; rfl
  | cons b bs ih => intro m a; simp only [Memory.setSpan, ih]; rfl

@[simp] theorem Memory.host_setSpan (bs : List Byte) : ∀ (m : Memory) (a : Nat), (m.setSpan a bs).host = m.host := by
  induction bs with
  | nil => intros; rfl
  | cons b bs ih => intro m a; simp only [Memory.setSpan, ih]; rfl

theorem Memory.byte_setSpan_out (bs : List Byte) : ∀ (m : Memory) (a x : Nat), x < a ∨ a + bs.length ≤ x →
    (m.setSpan a bs).byte x = m.byte x := by
  induction bs with
  | nil => intros; rfl
  | cons b bs ih =>
    intro m a x h
    simp only [List.length_cons] at h
    simp only [Memory.setSpan]
    rw [ih _ _ _ (by omega), Memory.byte_setByte_ne _ (by omega)]

theorem Memory.byte_setSpan_in (bs : List Byte) : ∀ (m : Memory) (a i : Nat) (h : i < bs.length),
    (m.setSpan a bs).byte (a + i) = bs[i] := by
  induction bs with
  | nil => intro m a i h; simp at h
  | cons b bs ih =>
    intro m a i h
    simp only [Memory.setSpan]
    cases i with
    | zero => rw [Memory.byte_setSpan_out _ _ _ _ (by omega)]; simp
    | succ i =>
      have h2 : i < bs.length := by simpa using h
      have := ih (m.setByte a b) (a + 1) i h2
      rw [show a + (i + 1) = a + 1 + i by omega, this]
      simp

theorem Memory.span_setSpan (m : Memory) (a : Nat) (bs : List Byte) : (m.setSpan a bs).span a bs.length = bs := by
  apply List.ext_getElem
  · simp [Memory.span]
  · intro i h1 h2
    simp [Memory.span, Memory.byte_setSpan_in bs m a i h2]

@[simp] theorem leBytes_length (n x : Nat) : (leBytes n x).length = n := by
  induction n generalizing x with
  | zero => rfl
  | succ n ih => simp [leBytes, ih]

theorem leNat_leBytes (n : Nat) : ∀ x : Nat, leNat (leBytes n x) = x % 256 ^ n := by
  induction n with
  | zero => intro x; simp [leBytes, leNat]; omega
  | succ n ih =>
    intro x
    simp only [leBytes, leNat, ih, BitVec.toNat_ofNat]
    have : x % (256 ^ (n + 1)) = x % 256 + 256 * (x / 256 % 256 ^ n) := by
      rw [Nat.pow_succ, Nat.mul_comm, Nat.mod_mul]
    rw [this]

theorem Memory.word_setWord (m : Memory) (a : Nat) (v : Word) : (m.setWord a v).word a = v := by
  have h := Memory.span_setSpan m a (leBytes 4 v.toNat)
  simp only [leBytes_length] at h
  simp only [Memory.word, Memory.setWord, h, leNat_leBytes, w32]
  apply BitVec.eq_of_toNat_eq
  have := v.isLt
  simp only [BitVec.toNat_ofNat]
  omega

theorem Memory.hostByte_setHost_out (bs : List Byte) : ∀ (m : Memory) (a x : Nat), x < a ∨ a + bs.length ≤ x →
    (m.setHost a bs).hostByte x = m.hostByte x := by
  induction bs with
  | nil => intros; rfl
  | cons b bs ih =>
    intro m a x h
    simp only [List.length_cons] at h
    simp only [Memory.setHost]
    rw [ih _ _ _ (by omega)]
    simp [Memory.hostByte, mget_mset_ne _ _ _ (show x ≠ a by omega)]

theorem Memory.hostByte_setHost_in (bs : List Byte) : ∀ (m : Memory) (a i : Nat) (h : i < bs.length),
    (m.setHost a bs).hostByte (a + i) = bs[i] := by
  induction bs with
  | nil => intro m a i h; simp at h
  | cons b bs ih =>
    intro m a i h
    simp only [Memory.setHost]
    cases i with
    | zero => rw [Memory.hostByte_setHost_out _ _ _ _ (by omega)]; simp [Memory.hostByte]
    | succ i =>
      have h2 : i < bs.length := by simpa using h
      rw [show a + (i + 1) = a + 1 + i by omega, ih _ (a + 1) i h2]
      simp

theorem Memory.hostSpan_setHost (m : Memory) (a : Nat) (bs : List Byte) : (m.setHost a bs).hostSpan a bs.length = bs := by
  apply List.ext_getElem
  · simp [Memory.hostSpan]
  · intro i h1 h2
    simp [Memory.hostSpan, Memory.hostByte_setHost_in bs m a i h2]

@[simp] theorem Memory.bytes_setHost (bs : List Byte) : ∀ (m : Memory) (a : Nat), (m.setHost a bs).bytes = m.bytes := by
  induction bs with
  | nil => intros; rfl
  | cons b bs ih => intro m a; simp only [Memory.setHost, ih]

/-- A program of the flash array clears bits of its own bytes and touches no other. -/
theorem flashProg_out (bs : List Byte) : ∀ (m : Memory) (x y : Nat), y < flsAddr x ∨ flsAddr x + bs.length ≤ y →
    (flashProg x bs m).byte y = m.byte y := by
  induction bs with
  | nil => intros; rfl
  | cons b bs ih =>
    intro m x y h
    simp only [List.length_cons, flsAddr] at h
    simp only [flashProg]
    rw [ih _ _ _ (by simp only [flsAddr]; omega), Memory.byte_setByte_ne _ (by simp only [flsAddr]; omega)]

theorem flashProg_in (bs : List Byte) : ∀ (m : Memory) (x i : Nat) (h : i < bs.length),
    (flashProg x bs m).byte (flsAddr (x + i)) = m.byte (flsAddr (x + i)) &&& bs[i] := by
  induction bs with
  | nil => intro m x i h; simp at h
  | cons b bs ih =>
    intro m x i h
    simp only [flashProg]
    cases i with
    | zero => rw [flashProg_out _ _ _ _ (by simp only [flsAddr]; omega)]; simp
    | succ i =>
      have h2 : i < bs.length := by simpa using h
      rw [show x + (i + 1) = x + 1 + i by omega, ih _ (x + 1) i h2,
        Memory.byte_setByte_ne _ (by simp only [flsAddr]; omega)]
      simp

/-- An erased sector reads 0xFF, and every other byte stands. -/
theorem flashErase_byte (s : Nat) (m : Memory) (y : Nat) (hs : s < 1024) :
    (flashErase s m).byte y =
      if flsAddr (s * 0x10000) ≤ y ∧ y < flsAddr (s * 0x10000 + 0x10000) then 0xFF else m.byte y := by
  simp only [Memory.byte, flashErase, mget_mclear]
  by_cases h : flsAddr (s * 0x10000) ≤ y ∧ y < flsAddr (s * 0x10000 + 0x10000)
  · rw [if_pos h, if_pos h]
    simp only [flsAddr] at h
    simp only [byteDflt]
    rw [if_pos (by omega)]
  · rw [if_neg h, if_neg h]

/-! ## Every memory operation keeps the canonical form -/

theorem Memory.wf_iff (m : Memory) : m.wf = true ↔ mwf byteDflt m.bytes = true ∧ mwf (fun _ => 0) m.tags = true ∧
    mwf (fun _ => 0) m.err = true ∧ mwf (fun _ => 0) m.host = true := by
  simp [Memory.wf, and_assoc]

theorem Memory.wf_reset : Memory.reset.wf = true := rfl

theorem State.reset_mem_wf : State.reset.mem.wf = true := rfl

@[simp] theorem Memory.wf_setByte {m : Memory} (h : m.wf = true) (a : Nat) (b : Byte) : (m.setByte a b).wf = true := by
  rw [Memory.wf_iff] at h ⊢
  exact ⟨mwf_mset byteDflt _ _ _ h.1, h.2⟩

@[simp] theorem Memory.wf_setTag {m : Memory} (h : m.wf = true) (a t : Nat) : (m.setTag a t).wf = true := by
  rw [Memory.wf_iff] at h ⊢
  exact ⟨h.1, mwf_mset (fun _ => 0) _ _ _ h.2.1, h.2.2⟩

@[simp] theorem Memory.wf_setErr {m : Memory} (h : m.wf = true) (a e : Nat) : (m.setErr a e).wf = true := by
  rw [Memory.wf_iff] at h ⊢
  exact ⟨h.1, h.2.1, mwf_mset (fun _ => 0) _ _ _ h.2.2.1, h.2.2.2⟩

@[simp] theorem Memory.wf_setSpan (bs : List Byte) : ∀ {m : Memory} (_ : m.wf = true) (a : Nat), (m.setSpan a bs).wf = true := by
  induction bs with
  | nil => intro m h a; exact h
  | cons b bs ih => intro m h a; exact ih (Memory.wf_setByte h a b) (a + 1)

@[simp] theorem Memory.wf_setWord {m : Memory} (h : m.wf = true) (a : Nat) (v : Word) : (m.setWord a v).wf = true :=
  Memory.wf_setSpan _ h a

@[simp] theorem Memory.wf_setHost (bs : List Byte) : ∀ {m : Memory} (_ : m.wf = true) (a : Nat), (m.setHost a bs).wf = true := by
  induction bs with
  | nil => intro m h a; exact h
  | cons b bs ih =>
    intro m h a
    refine ih ?_ (a + 1)
    rw [Memory.wf_iff] at h ⊢
    exact ⟨h.1, h.2.1, h.2.2.1, mwf_mset (fun _ => 0) _ _ _ h.2.2.2⟩

@[simp] theorem Memory.wf_place (bs : List Byte) : ∀ {m : Memory} (_ : m.wf = true) (a : Nat), (m.place a bs).wf = true := by
  induction bs with
  | nil => intro m h a; exact h
  | cons b bs ih =>
    intro m h a
    exact ih (Memory.wf_setErr (Memory.wf_setTag (Memory.wf_setByte h a b) _ _) _ _) (a + 1)

@[simp] theorem wf_flashProg (bs : List Byte) : ∀ {m : Memory} (_ : m.wf = true) (x : Nat), (flashProg x bs m).wf = true := by
  induction bs with
  | nil => intro m h x; exact h
  | cons b bs ih => intro m h x; exact ih (Memory.wf_setByte h _ _) (x + 1)

@[simp] theorem wf_flashErase {m : Memory} (h : m.wf = true) (s : Nat) : (flashErase s m).wf = true := by
  rw [Memory.wf_iff] at h ⊢
  exact ⟨mwf_mclear byteDflt _ _ _ h.1, h.2⟩

@[simp] theorem wf_flashOpen {m : Memory} (h : m.wf = true) (x n free : Nat) : (flashOpen x n free m).wf = true :=
  wf_flashProg _ h x

@[simp] theorem wf_journalClear {m : Memory} (h : m.wf = true) (s : Nat) : (journalClear s m).wf = true := by
  unfold journalClear
  split
  · exact wf_flashProg _ h _
  · exact h

@[simp] theorem Memory.wf_clearBank {m : Memory} (h : m.wf = true) (b : Nat) : (m.clearBank b).wf = true := by
  rw [Memory.wf_iff] at h ⊢
  exact ⟨mwf_mclear byteDflt _ _ _ h.1, mwf_mclear (fun _ => 0) _ _ _ h.2.1, mwf_mclear (fun _ => 0) _ _ _ h.2.2.1, h.2.2.2⟩

theorem mwf_setAll {α : Type} [DecidableEq α] (dflt : Nat → α) (c : α) (a b : Nat) :
    ∀ (l : List (Nat × α)) (m : SMap α), mwf dflt m = true → (∀ e ∈ l, dflt (e.1 - a + b) = c) →
      mwf dflt (l.foldl (fun r e => mset c r (e.1 - a + b) e.2) m) = true := by
  intro l
  induction l with
  | nil => intro m h _; exact h
  | cons e l ih =>
    intro m h hd
    refine ih _ ?_ fun x hx => hd x (List.mem_cons_of_mem _ hx)
    have := mwf_mset dflt m (e.1 - a + b) e.2 h
    rwa [hd e (by simp)] at this

/-- A copy between places whose unlisted entries read the same keeps the form. -/
theorem mwf_mcopy {α : Type} [DecidableEq α] (dflt : Nat → α) (c : α) (m : SMap α) (a b n : Nat) (h : mwf dflt m = true)
    (hd : ∀ i < n, dflt (b + i) = c) : mwf dflt (mcopy c m a b n) = true := by
  refine mwf_setAll dflt c a b _ _ (mwf_mclear dflt m b (b + n) h) ?_
  intro e he
  simp only [List.mem_filter, Bool.and_eq_true, decide_eq_true_eq] at he
  have := hd (e.1 - a) (by omega)
  rwa [Nat.add_comm]

@[simp] theorem Memory.wf_copyBank {m : Memory} (h : m.wf = true) (a b : Nat) (hb : b < 72) : (m.copyBank a b).wf = true := by
  have hd : ∀ i < 0x10000, byteDflt (bankAddr b 0 + i) = 0 := by
    intro i hi
    simp only [byteDflt, bankAddr]
    split <;> split <;> first | rfl | omega
  rw [Memory.wf_iff] at h ⊢
  exact ⟨mwf_mcopy byteDflt 0 _ _ _ _ h.1 hd, mwf_mcopy (fun _ => 0) 0 _ _ _ _ h.2.1 fun _ _ => rfl,
    mwf_mcopy (fun _ => 0) 0 _ _ _ _ h.2.2.1 fun _ _ => rfl, h.2.2.2⟩

/-! ## Banks and DDR4 -/

theorem wf_ingotPut {m : Memory} (h : m.wf = true) (b o : Nat) (v : Word) (t : Nat) (d : Dev) : (ingotPut b o v t m d).1.wf = true := by
  unfold ingotPut
  exact Memory.wf_setErr (Memory.wf_setTag (Memory.wf_setWord h _ _) _ _) _ _

theorem wf_ingotRead {m : Memory} (h : m.wf = true) (w : Mst) (b o : Nat) (d : Dev) : (ingotRead w b o m d).1.wf = true := by
  unfold ingotRead
  dsimp only
  repeat' split
  all_goals first | exact h | exact Memory.wf_setErr h _ _

theorem wf_ingotWrite {m : Memory} (h : m.wf = true) (w : Mst) (b o : Nat) (v : Word) (t : Nat) (d : Dev) :
    (ingotWrite w b o v t m d).1.wf = true := by
  unfold ingotWrite
  dsimp only
  repeat' split
  all_goals first | exact h | exact wf_ingotPut h _ _ _ _ d

theorem wf_ingotModify {m : Memory} (h : m.wf = true) (w : Mst) (b o : Nat) (f : Word → Word) (t : Nat → Nat) (d : Dev) :
    (ingotModify w b o f t m d).1.wf = true := by
  unfold ingotModify
  dsimp only
  repeat' split
  all_goals first | exact h | exact wf_ingotPut h _ _ _ _ d

theorem wf_ddrRead {m : Memory} (h : m.wf = true) (a : Nat) (d : Dev) : (ddrRead a m d).1.wf = true := by
  unfold ddrRead
  repeat' split
  all_goals first | exact h | exact Memory.wf_setErr h _ _

theorem wf_ddrWrite {m : Memory} (h : m.wf = true) (a : Nat) (bs : List Byte) (d : Dev) : (ddrWrite a bs m d).1.wf = true := by
  unfold ddrWrite
  repeat' split
  all_goals first | exact h | exact Memory.wf_setErr (Memory.wf_setSpan _ h _) _ _

theorem wf_ddrPut (n : Nat) : ∀ (a : Nat) (b : List Byte) (x : MD), x.1.wf = true → (ddrPut n a b x).1.wf = true := by
  induction n with
  | zero => intro a b x h; exact h
  | succ n ih =>
    intro a b x h
    cases b with
    | nil => exact h
    | cons c b => exact ih _ _ _ (wf_ddrWrite h _ _ _)

theorem wf_ddrStore (a : Nat) (b : List Byte) (x : MD) (h : x.1.wf = true) : (ddrStore a b x).1.wf = true := wf_ddrPut _ _ _ _ h

theorem wf_h7Put (l : List Word) : ∀ (o : Nat) (x : MD), x.1.wf = true → (h7Put o l x).1.wf = true := by
  induction l with
  | nil => intro o x h; exact h
  | cons v l ih => intro o x h; exact ih _ _ (wf_ingotPut h _ _ _ _ _)

theorem wf_foldl {α : Type} (f : MD → α → MD) (hf : ∀ x a, x.1.wf = true → (f x a).1.wf = true) (l : List α) :
    ∀ x : MD, x.1.wf = true → (l.foldl f x).1.wf = true := by
  induction l with
  | nil => intro x h; exact h
  | cons a l ih => intro x h; exact ih _ (hf x a h)

/-! ## The flash routine, records of the rings -/

theorem wf_journalTurn (x : MD) (h : x.1.wf = true) : (journalTurn x).1.wf = true := by
  unfold journalTurn
  dsimp only
  split
  · exact h
  · refine wf_flashErase ?_ _
    suffices ∀ (l : List (Nat × Nat × Nat)) (y : Memory × Nat), y.1.wf = true →
        (l.foldl (fun (y : Memory × Nat) e => (flashProg (journalAt y.2) (journalBytes e.1 e.2.1 e.2.2) y.1, y.2 + 1)) y).1.wf = true from
      this _ _ h
    intro l
    induction l with
    | nil => intro y hy; exact hy
    | cons e l ih => intro y hy; exact ih _ (wf_flashProg _ hy _)

theorem wf_journalPut (s : Nat) (x : MD) (h : x.1.wf = true) : (journalPut s x).1.wf = true :=
  wf_journalTurn _ (wf_flashProg _ h _)

theorem wf_flsKick (x : MD) (h : x.1.wf = true) : (flsKick x).1.wf = true := by
  unfold flsKick
  dsimp only
  repeat' split
  all_goals first | exact h | exact wf_journalPut _ _ h

theorem wf_flsAdd (j : FlsJob) (x : MD) (h : x.1.wf = true) : (flsAdd j x).1.wf = true := wf_flsKick _ h

theorem flsJobDone_mem (j : FlsJob) (x : MD) : (flsJobDone j x).1 = x.1 := by
  unfold flsJobDone
  dsimp only
  repeat' split
  all_goals rfl

theorem wf_flsPop (j : FlsJob) (n : Nat) (x : MD) (h : x.1.wf = true) : (flsPop j n x).1.wf = true := by
  unfold flsPop
  dsimp only
  refine wf_flsKick _ ?_
  split
  · rw [flsJobDone_mem]; exact h
  · exact h

theorem wf_tchCommit (r : TchRec) (b : Bool) (x : MD) (h : x.1.wf = true) : (tchCommit r b x).1.wf = true := by
  unfold tchCommit
  extract_lets d i seq m d1 d2 d3 d4 d5
  have hm : m.wf = true := wf_flashProg _ h _
  clear_value m d5
  split
  · exact hm
  · exact wf_flsAdd _ _ hm

theorem wf_headMirror (r : Nat) (x : MD) (h : x.1.wf = true) : (headMirror r x).1.wf = true := by
  unfold headMirror
  dsimp only
  split
  · exact Memory.wf_setHost _ h _
  · exact h

theorem wf_putRecord (q n : Nat) (f : Nat → List Byte) (x : MD) (h : x.1.wf = true) : (putRecord q n f x).1.wf = true :=
  Memory.wf_setHost _ h _

/-- A power-on reset clears the ingot banks and the Hallmark's memory (R292); another reset leaves the memories. -/
def Memory.poweredOn (m : Memory) : Memory :=
  { m with bytes := mclear (mclear m.bytes 0x10000 0x18000) 0x01000000 0x01480000
           tags := .empty, err := mclear m.err 0x10000 0x01480000 }

theorem Memory.wf_poweredOn {m : Memory} (h : m.wf = true) : m.poweredOn.wf = true := by
  rw [Memory.wf_iff] at h ⊢
  exact ⟨mwf_mclear byteDflt _ _ _ (mwf_mclear byteDflt _ _ _ h.1), mwf_empty _, mwf_mclear (fun _ => 0) _ _ _ h.2.2.1, h.2.2.2⟩

theorem deviceReset_mem (code : Nat) (x : MD) : (deviceReset code x).1 = if code == 1 then x.1.poweredOn else x.1 := rfl

theorem wf_deviceReset (code : Nat) (x : MD) (h : x.1.wf = true) : (deviceReset code x).1.wf = true := by
  rw [deviceReset_mem]
  split
  · exact Memory.wf_poweredOn h
  · exact h

end Sys2Proof.Machine
end

