-- ==== Sys2Proof/Laws/Regs.lean ====
section
/-!
SUPPORT. The register tables: their fields lie inside the word and apart from each other, and what a write of a register
without a meaning of its own leaves in every field.
-/
namespace Sys2Proof.Machine

/-- Fields inside the word and apart from each other. -/
def fieldsApart : List FieldDesc → Bool
  | [] => true
  | f :: r => decide (f.fld.lo + f.fld.wid ≤ 32) &&
      r.all (fun g => decide (g.fld.lo + g.fld.wid ≤ f.fld.lo) || decide (f.fld.lo + f.fld.wid ≤ g.fld.lo)) && fieldsApart r

/-- The tables of every block. -/
def allTables : List (List RegClass) :=
  [regsGLB, regsANV, regsING, regsASY, regsLDL, regsMEM, regsHLM, regsSEM, regsSLD, regsCRU, regsTCH, regsDBG, regsEVC,
   regsPLN, regsAXS, regsPWM, regsFBK, regsDRW, regsTMR, regsCHS, regsFLX]

theorem tables_apart : (allTables.all fun t => t.all fun k => fieldsApart k.fields) = true := by decide +kernel

theorem findClass_mem {addr : Nat} {t : List RegClass} {k : RegClass} {ix : List Nat} (h : findClass addr t = some (k, ix)) :
    k ∈ t := by
  induction t with
  | nil => cases h
  | cons c r ih =>
    simp only [findClass] at h
    split at h
    · cases h; exact List.mem_cons_self
    · exact List.mem_cons_of_mem _ (ih h)

/-- Every register that an address names is in the tables. -/
theorem regAt_mem {addr : Nat} {k : RegClass} {ix : List Nat} (h : regAt addr = some (k, ix)) : ∃ t ∈ allTables, k ∈ t := by
  have hm := findClass_mem h
  unfold blockTables at hm
  repeat' (split at hm)
  all_goals first
    | exact absurd hm List.not_mem_nil
    | (simp only [List.mem_append] at hm
       rcases hm with ((hm | hm) | hm) | hm <;> exact ⟨_, by simp [allTables], hm⟩)
    | exact ⟨_, by simp [allTables], hm⟩

theorem regAt_apart {addr : Nat} {k : RegClass} {ix : List Nat} (h : regAt addr = some (k, ix)) :
    fieldsApart k.fields = true := by
  obtain ⟨t, ht, hk⟩ := regAt_mem h
  exact List.all_eq_true.1 (List.all_eq_true.1 tables_apart t ht) k hk

theorem fieldsApart_fit {fs : List FieldDesc} (h : fieldsApart fs = true) {f : FieldDesc} (hf : f ∈ fs) :
    f.fld.lo + f.fld.wid ≤ 32 := by
  induction fs with
  | nil => cases hf
  | cons g r ih =>
    simp only [fieldsApart, Bool.and_eq_true, decide_eq_true_eq] at h
    rcases List.mem_cons.1 hf with rfl | hf
    · exact h.1.1
    · exact ih h.2 hf

/-- A write over fields leaves a place apart from all of them as it was. -/
theorem fieldsWrite_other (ok op : Bool) (v : Word) (g : Fld) (fs : List FieldDesc) (cur eff : Word) (bad : Bool)
    (h : fieldsApart fs = true)
    (hg : ∀ f ∈ fs, g.lo + g.wid ≤ f.fld.lo ∨ f.fld.lo + f.fld.wid ≤ g.lo) :
    fget g (fieldsWrite ok op v fs cur eff bad).1 = fget g cur := by
  induction fs generalizing cur eff bad with
  | nil => rfl
  | cons f r ih =>
    simp only [fieldsApart, Bool.and_eq_true, decide_eq_true_eq] at h
    simp only [fieldsWrite]
    rw [ih _ _ _ h.2 fun x hx => hg x (List.mem_cons_of_mem _ hx)]
    exact fget_fput_ne _ _ _ _ h.1.1 (hg f List.mem_cons_self)

/-- Every field after a write over all fields. -/
theorem fieldsWrite_field (ok op : Bool) (v : Word) (fs : List FieldDesc) (cur eff : Word) (bad : Bool)
    (h : fieldsApart fs = true) (f : FieldDesc) (hf : f ∈ fs) :
    fget f.fld (fieldsWrite ok op v fs cur eff bad).1 =
      (fieldWrite f.acc ok op (fget f.fld cur) (fget f.fld v) f.fld.wid).1 % 2 ^ f.fld.wid := by
  induction fs generalizing cur eff bad with
  | nil => cases hf
  | cons g r ih =>
    have h' := h
    simp only [fieldsApart, Bool.and_eq_true, decide_eq_true_eq] at h
    simp only [fieldsWrite]
    have hap : ∀ x ∈ r, x.fld.lo + x.fld.wid ≤ g.fld.lo ∨ g.fld.lo + g.fld.wid ≤ x.fld.lo := by
      intro x hx
      have := List.all_eq_true.1 h.1.2 x hx
      simpa only [Bool.or_eq_true, decide_eq_true_eq] using this
    rcases List.mem_cons.1 hf with rfl | hf
    · rw [fieldsWrite_other _ _ _ _ _ _ _ _ h.2 fun x hx => (hap x hx).symm]
      exact fget_fput_same _ _ _ h.1.1
    · rw [ih _ _ _ h.2 hf, fget_fput_ne _ _ _ _ h.1.1 (hap f hf)]

/-- A discarded part would have changed something exactly where it would have in some field. -/
theorem fieldsWrite_bad (ok op : Bool) (v : Word) (fs : List FieldDesc) (cur eff : Word) (bad : Bool)
    (h : fieldsApart fs = true) :
    (fieldsWrite ok op v fs cur eff bad).2.2 = true ↔
      bad = true ∨ ∃ f ∈ fs, (fieldWrite f.acc ok op (fget f.fld cur) (fget f.fld v) f.fld.wid).2.2 = true := by
  induction fs generalizing cur eff bad with
  | nil => simp [fieldsWrite]
  | cons g r ih =>
    simp only [fieldsApart, Bool.and_eq_true, decide_eq_true_eq] at h
    have hap : ∀ x ∈ r, x.fld.lo + x.fld.wid ≤ g.fld.lo ∨ g.fld.lo + g.fld.wid ≤ x.fld.lo := by
      intro x hx
      have := List.all_eq_true.1 h.1.2 x hx
      simpa only [Bool.or_eq_true, decide_eq_true_eq] using this
    simp only [fieldsWrite]
    rw [ih _ _ _ h.2, Bool.or_eq_true]
    constructor
    · rintro ((hb | hb) | ⟨f, hf, hx⟩)
      · exact .inl hb
      · exact .inr ⟨g, List.mem_cons_self, hb⟩
      · rw [fget_fput_ne _ _ _ _ h.1.1 (hap f hf)] at hx
        exact .inr ⟨f, List.mem_cons_of_mem _ hf, hx⟩
    · rintro (hb | ⟨f, hf, hx⟩)
      · exact .inl (.inl hb)
      · rcases List.mem_cons.1 hf with rfl | hf
        · exact .inl (.inr hx)
        · refine .inr ⟨f, hf, ?_⟩
          rw [fget_fput_ne _ _ _ _ h.1.1 (hap f hf)]
          exact hx

theorem fieldWrite_lt (acc : Acc) (ok op : Bool) {cur n wid : Nat} (hc : cur < 2 ^ wid) (hn : n < 2 ^ wid) :
    (fieldWrite acc ok op cur n wid).1 < 2 ^ wid := by
  cases acc <;> cases ok <;> cases op <;> simp [fieldWrite, hc, hn, Nat.or_lt_two_pow] <;>
    exact Nat.lt_of_le_of_lt Nat.and_le_left hc

/-- The register after a plain write, where no reserved encoding is written. -/
theorem plainWrite_eq (w : Writer) {addr : Nat} (v : Word) (d : Dev) {k : RegClass} {ix : List Nat}
    (hr : regAt addr = some (k, ix)) (hv : d.reserves k ix v = false) :
    plainWrite w addr v d =
      (let ok := writerOk k.writer ix k w
       let x := fieldsWrite ok (d.windowOpen k addr w) v k.fields (d.rd addr) 0 false
       let d2 := (if w = .dap then d else closeWindow k addr w d).wr addr x.1
       match unlockOf k addr with
       | some u => when x.2.2 (fun y => y.wr u ((d2.rd u) ||| 0x80000000)) d2
       | none => d2) := by
  unfold Dev.reserves at hv
  unfold plainWrite regWriteCore
  simp only [hr, hv, Bool.false_and]
  rfl

/-- The word a register holds after a write that its writer may make, from its content before. -/
def acceptedWord (k : RegClass) (cur v : Word) : Word := (fieldsWrite true true v k.fields cur 0 false).1

theorem fieldWrite_accepted (acc : Acc) (cur n wid : Nat) : (fieldWrite acc true true cur n wid).2.2 = false := by
  cases acc <;> rfl

/-- An accepted write of a register without a meaning of its own: its window closes and the register holds the word. -/
theorem plainWrite_accepted (w : Writer) {addr : Nat} (v : Word) (d : Dev) {k : RegClass} {ix : List Nat}
    (hr : regAt addr = some (k, ix)) (hv : d.reserves k ix v = false) (ha : d.accepts w addr = true) :
    plainWrite w addr v d = (if w = .dap then d else closeWindow k addr w d).wr addr (acceptedWord k (d.rd addr) v) := by
  unfold Dev.accepts at ha
  simp only [hr, Bool.and_eq_true] at ha
  rw [plainWrite_eq w v d hr hv]
  have hb : (fieldsWrite true true v k.fields (d.rd addr) 0 false).2.2 = false := by
    rw [← Bool.not_eq_true, fieldsWrite_bad _ _ _ _ _ _ _ (regAt_apart hr)]
    simp [fieldWrite_accepted]
  simp only [ha.1, ha.2, hb]
  cases unlockOf k addr <;> rfl

/-- Every field of the word an accepted write leaves. -/
theorem acceptedWord_fget {addr : Nat} {k : RegClass} {ix : List Nat} (hr : regAt addr = some (k, ix)) (cur v : Word)
    {f : FieldDesc} (hf : f ∈ k.fields) :
    fget f.fld (acceptedWord k cur v) = (fieldWrite f.acc true true (fget f.fld cur) (fget f.fld v) f.fld.wid).1 := by
  unfold acceptedWord
  rw [fieldsWrite_field _ _ _ _ _ _ _ (regAt_apart hr) f hf, Nat.mod_eq_of_lt]
  exact fieldWrite_lt _ _ _ (fget_lt _ _) (fget_lt _ _)

/-- Windows closed: nothing else changes. -/
theorem closeWindow_frame (l : List Nat) (g : Dev → Dev) (hg : ∀ d : Dev, g d.noWindows = g d) (k : RegClass) (addr : Nat) (w : Writer)
    (d : Dev) : ChangesOnly l g d (closeWindow k addr w d) := by
  unfold closeWindow
  split
  · refine .parts ?_ rfl rfl
    rw [← hg, ← hg (Dev.still d)]; rfl
  · exact .refl l g d

/-- What an accepted write changes. -/
theorem plainWrite_accepted_frame (w : Writer) {addr : Nat} (v : Word) (d : Dev) {k : RegClass} {ix : List Nat}
    (hr : regAt addr = some (k, ix)) (hv : d.reserves k ix v = false) (ha : d.accepts w addr = true)
    {l : List Nat} {g : Dev → Dev} (hl : addr ∈ l) (hg : ∀ d : Dev, g d.noWindows = g d) :
    ChangesOnly l g d (plainWrite w addr v d) := by
  rw [plainWrite_accepted w v d hr hv ha]
  refine .trans ?_ (.wr _ hl _)
  split
  · exact .refl l g d
  · exact closeWindow_frame l g hg k addr w d

theorem closeWindow_rd (k : RegClass) (addr : Nat) (w : Writer) (d : Dev) (a : Nat) : (closeWindow k addr w d).rd a = d.rd a := by
  unfold closeWindow; split <;> rfl

theorem plainWrite_accepted_rd (w : Writer) {addr : Nat} (v : Word) (d : Dev) {k : RegClass} {ix : List Nat}
    (hr : regAt addr = some (k, ix)) (hv : d.reserves k ix v = false) (ha : d.accepts w addr = true) (a : Nat) :
    (plainWrite w addr v d).rd a = if a = addr then acceptedWord k (d.rd addr) v else d.rd a := by
  rw [plainWrite_accepted w v d hr hv ha, Dev.rd_wr]
  split
  · rfl
  · split
    · rfl
    · exact closeWindow_rd k addr w d a

/-- A field that is written by an accepted write reads as written. -/
theorem plainWrite_accepted_fld (w : Writer) {addr : Nat} (v : Word) (d : Dev) {k : RegClass} {ix : List Nat}
    (hr : regAt addr = some (k, ix)) (hv : d.reserves k ix v = false) (ha : d.accepts w addr = true)
    {f : FieldDesc} (hf : f ∈ k.fields) :
    (plainWrite w addr v d).fld addr f.fld =
      (fieldWrite f.acc true true (d.fld addr f.fld) (fget f.fld v) f.fld.wid).1 := by
  unfold Dev.fld
  rw [plainWrite_accepted_rd w v d hr hv ha, if_pos rfl, acceptedWord_fget hr _ _ hf]

end Sys2Proof.Machine
end

