-- ==== Sys2Proof/WellFormed.lean ====
section
/-!
DEFINITION. When a command is one that can arrive: what its operands must hold beyond their types. The machine answers
every command; statements and senders use this check.
-/
namespace Sys2Proof

/-- A deviation that the clock monitor reports lies above 1 % (R32). -/
def ppmOk (ppm : Option Nat) : Bool :=
  match ppm with
  | none => true
  | some p => decide (10000 < p)

/-- A node's response: none, or at least its start bit (R382, R384). -/
def responseOk (r : Option (List Bool)) : Bool :=
  match r with
  | none => true
  | some l => !l.isEmpty

/-- Images of a release: at most one for each core, and none empty (R465). -/
def imagesOk (imgs : List CoreImage) : Bool :=
  decide (imgs.map (·.core)).Nodup && imgs.all fun i => !i.body.isEmpty

/-- A frame of this type whose payload has a length the table of R396 gives it, or one of a reserved type (R395, R396). -/
def frameOk (f : Frame) (typ : Nat) (len : Nat → Bool) : Bool :=
  decide (f.typ < 256) && decide (f.src < 1024) && decide (f.dst < 1024) && decide (f.hops < 65536) &&
    ((decide (f.typ = typ) && len f.pay.length) || f.typ == 0 || decide (11 < f.typ))

/-- The command is well formed. -/
def Instr.wf (c : Instr) : Bool :=
  match c with
  | .registerWrite _ _ _ => true
  | .unlockWrite _ _ => true
  | .unlockWindowExpiry _ _ => true
  | .crossingDelivery src dst => decide (src ≠ dst)
  | .clockFail ppm => ppmOk ppm
  | .deviceTimeBoundary => true
  | .glbTimeStepWrite _ _ => true
  | .glbClkTrimWrite _ _ => true
  | .glbTimeLoRead _ => true
  | .syncInEdge => true
  | .syncLost => true
  | .syncOutRise => true
  | .syncOutFall => true
  | .windowOpen _ => true
  | .windowClose _ _ _ _ => true
  | .sampleResultsValid _ => true
  | .currentLawDispatch _ => true
  | .backgroundJobStart _ => true
  | .backgroundDeadline _ => true
  | .dutyRelease _ => true
  | .admissionCommit _ => true
  | .plnCommitWrite _ _ _ => true
  | .lawStoreWrite _ _ _ => true
  | .lawStoreRead _ => true
  | .gainStoreWrite _ _ _ _ _ => true
  | .variableFileWrite _ _ _ _ _ => true
  | .laneNop _ => true
  | .laneEnd _ => true
  | .laneLdi _ => true
  | .laneLdv _ => true
  | .laneStv _ => true
  | .laneIn _ => true
  | .laneOut _ => true
  | .laneLdg _ => true
  | .laneLdm _ => true
  | .laneStm _ => true
  | .laneAdd _ => true
  | .laneSub _ => true
  | .laneAddi _ => true
  | .laneNeg _ => true
  | .laneAbs _ => true
  | .laneMin _ => true
  | .laneMax _ => true
  | .laneLim _ => true
  | .laneAnd _ => true
  | .laneOr _ => true
  | .laneXor _ => true
  | .laneShl _ => true
  | .laneShr _ => true
  | .laneCmp _ => true
  | .laneMov _ => true
  | .laneMul _ => true
  | .laneMuli _ => true
  | .laneCla _ => true
  | .laneLda _ => true
  | .laneMac _ => true
  | .laneMsu _ => true
  | .laneMaci _ => true
  | .laneAcx _ => true
  | .laneDiv _ => true
  | .laneSincos _ => true
  | .laneRot _ => true
  | .laneAtan2 _ => true
  | .laneSkip _ => true
  | .laneFault _ => true
  | .laneEvt _ => true
  | .axsCtlArm _ _ => true
  | .axsCtlEnable _ _ => true
  | .axsCtlStopRamp _ _ => true
  | .axsCtlStopSto _ _ => true
  | .axsCtlDisarm _ _ => true
  | .axsCtlAck _ _ => true
  | .axsFaultReq _ _ _ => true
  | .rampHoldEnd _ => true
  | .rampTimeout _ => true
  | .drwClkWrite _ _ _ => true
  | .clockDrainEnd _ => true
  | .sdcReadbackFail _ => true
  | .sdcReadbackRecover _ => true
  | .continuousResult _ _ => true
  | .stuckRun _ => true
  | .overcurrentQualify _ _ => true
  | .overcurrentRelease _ _ => true
  | .drwOcCfgWrite _ _ _ => true
  | .drwOcThWrite _ _ _ => true
  | .drwChCfgWrite _ _ _ => true
  | .pwmPeak _ => true
  | .pwmValley _ => true
  | .fltAssert _ => true
  | .fltRelease _ => true
  | .stoAssert _ _ => true
  | .stoRelease _ _ => true
  | .pwmStoMapWrite _ _ _ _ => true
  | .encoderCount _ _ _ => true
  | .indexEvent _ => true
  | .fbkPosPreset _ _ _ => true
  | .fbkIdxStatRead _ => true
  | .disagreementQualified _ _ => true
  | .disPersistExpiry _ => true
  | .rscHit _ => true
  | .rscPulseEnd _ => true
  | .fbkRscCmpWrite _ _ _ => true
  | .fbkRscCfgWrite _ _ _ => true
  | .fbkRscStepWrite _ _ _ => true
  | .fbkEoRatioWrite _ _ _ => true
  | .fbkEoCfgWrite _ _ _ => true
  | .segmentEnd _ => true
  | .timeStart _ => true
  | .stRefill _ => true
  | .segStart _ => true
  | .grpStart _ => true
  | .pwmHold _ => true
  | .tmrIn _ => true
  | .cap _ => true
  | .chsSync _ => true
  | .evcIn _ => true
  | .cruStart _ _ => true
  | .combArm _ => true
  | .combinerFire _ => true
  | .combRearm _ _ _ => true
  | .importPulse tgt src _ => decide (tgt ≠ src)
  | .flxSwfire _ _ _ => true
  | .flxWinWrite _ _ _ _ => true
  | .flxCapTHiSnapRead _ => true
  | .flxImportWrite _ _ _ _ => true
  | .flxGrpWrite _ _ _ _ => true
  | .timerOverflow _ => true
  | .timerMatch _ _ => true
  | .timerInputEdge _ _ _ => true
  | .tmrCntWrite _ _ _ => true
  | .tmrCmpWrite _ _ _ _ => true
  | .tmrOutWrite _ _ _ => true
  | .tmrCfgWrite _ _ _ => true
  | .tmrCntRead _ => true
  | .tmrCapRead _ => true
  | .tmrSnap _ _ => true
  | .tmrGpioCfgWrite _ _ _ _ => true
  | .chsNop _ => true
  | .shift _ rx => decide (rx.length ≤ 32)
  | .expect _ rx => decide (rx.length ≤ 32)
  | .waitedge _ => true
  | .waitedgeEdge _ => true
  | .waitedgeTimeout _ => true
  | .countLoad _ => true
  | .countDecrement _ => true
  | .countWait _ => true
  | .emit _ => true
  | .latch _ => true
  | .crcstepInit _ => true
  | .crcstepFeed _ => true
  | .crcstepHalt _ => true
  | .crcstepCheck _ => true
  | .branch _ => true
  | .sync _ => true
  | .put _ => true
  | .get _ => true
  | .ldf _ => true
  | .clr _ => true
  | .chsEnable _ _ _ => true
  | .chsDisable _ _ _ => true
  | .chsGstart _ _ _ => true
  | .chsHold _ _ _ => true
  | .chsResume _ _ _ => true
  | .chsInqWrite _ _ _ => true
  | .chsOutqRead _ => true
  | .chsProgWrite _ _ _ _ => true
  | .triggerArrival _ _ => true
  | .triggerDelayMatch _ => true
  | .cruTrgDlyWrite _ _ _ => true
  | .cruGo _ _ _ => true
  | .integrationEnd _ => true
  | .conversionEnd _ ain _ => ain.length == 24
  | .cruCfgWrite _ _ _ => true
  | .cruRefCtlWrite _ _ => true
  | .refOk => true
  | .excOk _ => true
  | .excCurrentLimit _ => true
  | .nop _ => true
  | .add _ => true
  | .sub _ => true
  | .and _ => true
  | .or _ => true
  | .xor _ => true
  | .shl _ => true
  | .shr _ => true
  | .shru _ => true
  | .min _ => true
  | .max _ => true
  | .mov _ => true
  | .neg _ => true
  | .abs _ => true
  | .mfs _ => true
  | .mts _ => true
  | .addi _ => true
  | .andi _ => true
  | .ori _ => true
  | .xori _ => true
  | .shli _ => true
  | .shri _ => true
  | .shrui _ => true
  | .rep _ => true
  | .ldi _ => true
  | .ldih _ => true
  | .tag _ => true
  | .gtag _ => true
  | .cmp _ => true
  | .cmpi _ => true
  | .plog _ => true
  | .repn _ => true
  | .mul _ => true
  | .mulh _ => true
  | .mac _ => true
  | .fadd _ => true
  | .fsub _ => true
  | .fmul _ => true
  | .fcmp _ => true
  | .fcvt _ => true
  | .sqrt _ => true
  | .div _ => true
  | .rem _ => true
  | .sincos _ => true
  | .atan2 _ => true
  | .ina _ => true
  | .chkpt _ => true
  | .syncS _ => true
  | .ld _ => true
  | .ldr _ => true
  | .st _ => true
  | .str _ => true
  | .ldb _ => true
  | .stb _ => true
  | .ldx _ => true
  | .stx _ => true
  | .movbk _ => true
  | .callg _ => true
  | .br _ => true
  | .call _ => true
  | .jr _ => true
  | .retg _ => true
  | .reti _ => true
  | .wait _ => true
  | .waitEnd _ => true
  | .brk _ => true
  | .trap _ => true
  | .undefEncoding _ => true
  | .sideUnitResult _ _ => true
  | .loadComplete _ => true
  | .storeComplete _ _ => true
  | .lateStoreError _ => true
  | .interruptRecognition _ => true
  | .coreWdtExpiry _ => true
  | .anvWdtKick _ _ _ => true
  | .clusterWdtExpiry _ => true
  | .clusterWdtWarning _ => true
  | .anvCwdtKick _ _ _ => true
  | .ingBankOwnWrite _ _ _ => true
  | .ownerHandover _ => true
  | .marchTestEnd _ _ => true
  | .patrolScrub => true
  | .bar2Access _ _ _ ps => decide (1 ≤ ps.length) && decide (ps.length ≤ 1024)
  | .outputCompare _ => true
  | .checkpointCompare _ => true
  | .lagExpiry _ => true
  | .reqSplit _ _ => true
  | .reqMerge _ _ => true
  | .splitApply _ => true
  | .mergeCopy _ => true
  | .mergeComplete _ => true
  | .asyInaMapWrite _ _ _ _ => true
  | .configRequest _ => true
  | .bar0Request _ _ _ _ _ _ => true
  | .hostCompletionError _ _ _ n => decide (n ≤ 2 ^ 24)
  | .completionTimeout _ _ n => decide (n ≤ 2 ^ 24)
  | .perstAssert => true
  | .perstRelease _ => true
  | .dlDown => true
  | .linkRetrain _ _ _ _ => true
  | .d3hotEntry => true
  | .d0Return => true
  | .msixTimeout _ => true
  | .msixUnmask _ => true
  | .doorbell _ _ _ => true
  | .descriptorFetch _ => true
  | .completionWrite _ => true
  | .eventRecordWrite _ => true
  | .ldlAdminCtlWrite _ _ => true
  | .cmdNop _ => true
  | .identify _ => true
  | .ringCreate _ => true
  | .ringDelete _ => true
  | .evtRoute _ => true
  | .resetCluster _ => true
  | .resetHostIsland _ => true
  | .resetDevice _ => true
  | .resetCommandEffect => true
  | .sessionNonce _ => true
  | .sessionOpen _ => true
  | .axisAdmit _ => true
  | .axisRetire _ => true
  | .axisEnableArm _ => true
  | .axisEnable _ => true
  | .axisDisableRamp _ => true
  | .axisDisableSto _ => true
  | .lawLoad _ => true
  | .gainsetWrite _ => true
  | .segAppend _ => true
  | .segFlush _ => true
  | .segStreamBind _ => true
  | .segStreamUnbind _ => true
  | .camLoad _ => true
  | .groupSet _ => true
  | .setpointPut _ => true
  | .fluxFire _ => true
  | .feederPollSet _ => true
  | .feederRead _ => true
  | .feederCmd _ => true
  | .captureStart _ => true
  | .captureStop _ => true
  | .tmrSnapshot _ => true
  | .cruConvert _ => true
  | .seamMboxSend _ => true
  | .seamEvent _ => true
  | .seamMemberJoin _ => true
  | .seamMemberLeave _ => true
  | .flashRead _ => true
  | .flashErase _ => true
  | .flashProgram _ => true
  | .regionWrite _ => true
  | .regionRead _ => true
  | .fwUpdate _ => true
  | .fwSelect _ => true
  | .sessionClose _ => true
  | .authMark _ => true
  | .lifecycleSet _ => true
  | .securityStatus _ => true
  | .provision _ => true
  | .evcDump _ => true
  | .bankMarch _ => true
  | .touchmarkRead _ => true
  | .debugChallenge _ => true
  | .debugUnlock _ => true
  | .debugLock _ => true
  | .peek _ => true
  | .memRead _ => true
  | .memWrite _ => true
  | .memCopy _ => true
  | .memFill _ => true
  | .coreLoad _ => true
  | .coreStart _ => true
  | .coreReset _ => true
  | .pairSplit _ => true
  | .pairMerge _ => true
  | .engineGstart _ => true
  | .solderRoundStart _ => true
  | .slotPoll _ r => responseOk r
  | .slotRead _ r => responseOk r
  | .slotCmd _ r => responseOk r
  | .slotBroadcast _ => true
  | .sldListReq _ _ _ => true
  | .sldCmdPendWrite _ _ _ _ => true
  | .sldCtlWrite _ _ _ => true
  | .seamCycleStart => true
  | .timeFrame _ f => frameOk f 0x02 fun n => decide (n = 16)
  | .cyclicFrame _ f => frameOk f 0x01 fun n => decide (8 ≤ n)
  | .eventFrame _ f => frameOk f 0x03 fun n => decide (n = 12)
  | .seamEventFire _ _ => true
  | .mboxFrame _ f => frameOk f 0x04 fun n => decide (8 ≤ n ∧ n ≤ 264)
  | .mboxAckFrame _ f => frameOk f 0x05 fun n => decide (n = 4)
  | .mboxResend _ => true
  | .epochFrame _ f => frameOk f 0x06 fun n => decide (12 ≤ n ∧ n % 4 = 0)
  | .epochBoundary => true
  | .probeFrame _ f => frameOk f 0x07 fun n => decide (n = 10)
  | .probeReplyFrame _ f => frameOk f 0x08 fun n => decide (n = 10)
  | .joinFrame _ f => frameOk f 0x09 fun n => decide (n = 2)
  | .leaveFrame _ f => frameOk f 0x0A fun n => decide (n = 0)
  | .claimFrame _ f => frameOk f 0x0B fun n => decide (n = 0)
  | .timeFrameLoss => true
  | .keeperElected => true
  | .portDown _ _ => true
  | .portUp _ => true
  | .semCtlWrite _ _ => true
  | .semMbxRel _ _ => true
  | .pageProgramDone _ => true
  | .eraseDone _ => true
  | .eraseResume => true
  | .eraseForced => true
  | .touchmarkCommit => true
  | .suppliesValid _ _ => true
  | .supplyWarning _ _ => true
  | .supplyRecovered _ _ _ => true
  | .supplyResetLevel _ _ _ => true
  | .holdupCharged _ => true
  | .entropyFail _ => true
  | .entropyRetest => true
  | .nonceExpiry => true
  | .challengeExpiry _ => true
  | .sysRstN => true
  | .hallmarkReset => true
  | .deviceWdtExpiry => true
  | .tchWdtKick _ _ => true
  | .startup _ => true
  | .pllLock => true
  | .ddr4InitDone => true
  | .fwReady => true
  | .clusterRelease _ _ imgs => imagesOk imgs
  | .clRelClear _ _ => true
  | .extest _ => true
  | .samplePreload _ => true
  | .idcode => true
  | .bypass _ => true
  | .dapChal => true
  | .dapResp sig _ => decide (sig.length = 96)
  | .tapGrant => true
  | .dapCtl _ => true
  | .dapAcc => true
  | .dapRead _ => true
  | .dapConsume _ => true
  | .dapWrite _ _ _ => true
  | .dapAccessDone => true
  | .trstN => true
  | .dbgHalt _ => true
  | .dbgRelease _ => true
  | .benchHalt _ => true
  | .benchRelease _ => true
  | .dbgStep => true
  | .dbgWdtFreeze _ _ => true
  | .evcThreshold _ => true
  | .evcOverflow _ => true
  | .evcThrHiWrite _ _ _ => true
  | .evcClr _ _ _ => true
  | .evcGsnap _ _ => true
  | .evcCntLoRead _ => true
  | .captureRecord _ _ => true
  | .disagreementEnd _ => true
  | .commandTimeout _ => true
  | .encoderOutputEdge _ => true
  | .switchEdge _ _ _ _ => true
  | .pcieLinkUp _ _ _ => true
  | .l1Entry => true
  | .l1Exit => true
  | .probeSend _ => true
  | .claimSend => true

end Sys2Proof
end

