-- ==== Sys2Proof/Tests/Slice0.lean ====
section
/-!
SUPPORT. Tests of the model: ill-formed commands that the check refuses, values worked out from the spec by hand, and for
the statements a state and operands that meet their hypotheses.
-/
namespace Sys2Proof.Tests

open Sys2Proof.Machine

/-! ## Ill-formed commands -/

set_option maxRecDepth 20000

/-- An EVENT frame of this length. -/
def frameOf (typ len : Nat) : Frame :=
  { typ := typ, pass := false, healed := false, src := 1, dst := 1023, hops := 0, pay := List.replicate len 0, crcOk := true }

theorem test_wf_refuses_small_deviation : (Instr.clockFail (some 10000)).wf = false := by decide
theorem test_wf_refuses_crossing_into_itself : (Instr.crossingDelivery .hi .hi).wf = false := by decide
theorem test_wf_refuses_import_from_itself : (Instr.importPulse 2 2 0).wf = false := by decide
theorem test_wf_refuses_33_bits : (Instr.shift 0 (List.replicate 33 true)).wf = false := by decide
theorem test_wf_refuses_33_bits_expected : (Instr.expect 0 (List.replicate 33 true)).wf = false := by decide
theorem test_wf_refuses_no_pieces : (Instr.bar2Access true false 0 []).wf = false := by decide
theorem test_wf_refuses_empty_response : (Instr.slotPoll 0 (some [])).wf = false := by decide
theorem test_wf_refuses_empty_read_response : (Instr.slotRead 0 (some [])).wf = false := by decide
theorem test_wf_refuses_empty_command_response : (Instr.slotCmd 0 (some [])).wf = false := by decide
theorem test_wf_refuses_two_images_for_one_core :
    (Instr.clusterRelease .host 0 [⟨1, false, 0, 0, [0]⟩, ⟨1, false, 4, 0, [0]⟩]).wf = false := by decide
theorem test_wf_refuses_empty_image : (Instr.clusterRelease .host 0 [⟨1, false, 0, 0, []⟩]).wf = false := by decide
theorem test_wf_refuses_short_signature : (Instr.dapResp (List.replicate 95 0) 1).wf = false := by decide
theorem test_wf_refuses_long_transfer : (Instr.hostCompletionError 1 false false (2 ^ 24 + 1)).wf = false := by decide
theorem test_wf_refuses_long_late_transfer : (Instr.completionTimeout 1 false (2 ^ 24 + 1)).wf = false := by decide
theorem test_wf_refuses_short_event_frame : (Instr.eventFrame 0 (frameOf 3 11)).wf = false := by decide
theorem test_wf_refuses_other_frames_payload : (Instr.timeFrame 0 (frameOf 2 12)).wf = false := by decide
theorem test_wf_refuses_1025_pieces : (Instr.bar2Access true false 0 (List.replicate 1025 none)).wf = false := by decide
theorem test_wf_refuses_23_inputs : (Instr.conversionEnd 0 (List.replicate 23 0) none).wf = false := by decide
theorem test_wf_refuses_short_cyclic_frame : (Instr.cyclicFrame 0 (frameOf 1 7)).wf = false := by decide
theorem test_wf_refuses_long_mailbox_frame : (Instr.mboxFrame 0 (frameOf 4 265)).wf = false := by decide
theorem test_wf_refuses_long_acknowledgement : (Instr.mboxAckFrame 0 (frameOf 5 5)).wf = false := by decide
theorem test_wf_refuses_broken_epoch_frame : (Instr.epochFrame 0 (frameOf 6 13)).wf = false := by decide
theorem test_wf_refuses_short_probe_frame : (Instr.probeFrame 0 (frameOf 7 9)).wf = false := by decide
theorem test_wf_refuses_short_probe_reply : (Instr.probeReplyFrame 0 (frameOf 8 9)).wf = false := by decide
theorem test_wf_refuses_long_join_frame : (Instr.joinFrame 0 (frameOf 9 3)).wf = false := by decide
theorem test_wf_refuses_leave_frame_with_payload : (Instr.leaveFrame 0 (frameOf 10 1)).wf = false := by decide
theorem test_wf_refuses_claim_frame_with_payload : (Instr.claimFrame 0 (frameOf 11 1)).wf = false := by decide
theorem test_wf_refuses_frame_in_anothers_row : (Instr.joinFrame 0 (frameOf 10 0)).wf = false := by decide
theorem test_wf_takes_event_frame : (Instr.eventFrame 0 (frameOf 3 12)).wf = true := by decide

/-! ## The interface -/

theorem test_reset_queue_is_empty : State.reset.pending = [] := rfl
theorem test_no_word_spells_a_command : decodeTableWord 32 0 = none := rfl

/-! ## Values worked out in the spec -/

/-- R24: AXS_STATE[41] lies in cluster 2, at local axis 9. -/
theorem test_address_of_axs_state_41 : AXS_STATE 41 = 0x02C12400 := by decide
/-- R5: a PDL-64 of stepping B0 reads family 0x9D40, four clusters and part 0x4. -/
theorem test_glb_id : State.reset.dev.rd GLB_ID = 0x9D40F104 := by decide
/-- R471: version 1, part code 0x9D44, manufacturer 0x41D and the constant 1. -/
theorem test_idcode : idcodeOf .pdl64 = 0x19D4483B := by decide
/-- The example of R40 to R43: the four corrections of the first edges. -/
theorem test_sync_corrections : [syncCorrection 4 0 800000, syncCorrection 15 11 800000, syncCorrection 11 (-4) 800000,
    syncCorrection 8 (-3) 800000] = [1250, 18437, -1562, -1250] := by decide
/-- The example of R198: a write of 100 while the count is 500 lies in the past. -/
theorem test_compare_behind_the_count : cmpEval 32 100 500 = some true := by decide
/-- A compare ahead of the count waits for it (R198). -/
theorem test_compare_ahead_of_the_count : cmpEval 32 500 100 = none := by decide
/-- The example of R202: set by match A and toggled by match B in one ccyc leaves the level low. -/
theorem test_set_then_toggle : outAct 3 true (outAct 1 true false) = false := by decide
/-- The example of chapter 11: 800,000 / 64 icyc. -/
theorem test_integration_time : cruTInt false 6 = 12500 := by decide
/-- The example of chapter 11: 3 mV of a 1.5 V bridge at gain 128 with frac = 6. -/
theorem test_full_load : cruResult 0x06600000 3000000 1500000000 = (2147456, false) := by decide
/-- The example of R110: after 9 bits of constant 1 the sinc2 filter of length 8 covers 43 of its 64 weights. -/
theorem test_sinc2_after_9_bits : (sincRaw 2 8 (List.replicate 9 1)).getLast? = some 43 := by decide
/-- The example of R122: the half-widths of axis 8's three phases in taps. -/
theorem test_half_widths :
    let d := ((((Dev.reset.wr (PWM_PER 8) 4000).setB (PWM_CFG 8) PWM_CFG_center true).wr (PWM_ACT_U 8) 0x60000000).wr
      (PWM_ACT_V 8) 0x2AAAAAAB).wr (PWM_ACT_W 8) 0x01000000
    [d.halfTaps 8 0, d.halfTaps 8 1, d.halfTaps 8 2] = [48000, 21333, 500] := by decide

/-! ## Witnesses: states and operands that meet the hypotheses of the statements

The helpers build small states; `meets_<statement>` holds, clause by clause, values that meet what that clause assumes. -/

section Witnesses

set_option maxRecDepth 100000
set_option linter.unusedVariables false

/-- A device whose clusters are out of reset, changed by f. -/
def run (f : Dev → Dev) : State :=
  { State.reset with dev := f (Dev.reset.wr GLB_RST_CTL (Dev.reset.rd GLB_RST_CTL &&& 0)) }
def sTime (f : TimeS → TimeS) : State := run fun d => { d with time := f d.time }
def sSync (period tol master : Nat) (prev : Option Int) : State :=
  run fun d => { (d.wr GLB_SYNC_IN_PERIOD (w32 period)).setF GLB_TIME_CTL GLB_TIME_CTL_lock_tol tol with
    time := { d.time with mode := 1, master := master, ePrev := prev, lockRun := 7 } }
def sCross (x : CrossPay) : State := run fun d => { (d.setB TCH_WDT_CFG TCH_WDT_CFG_en true) with crossing := [⟨.hi, .ao, x⟩] }
def lw (op d a b sh x : Nat) (imm : Nat) (sat rnd : Bool) : BitVec 64 :=
  BitVec.ofNat 64 (op * 2 ^ 58 + b2n sat * 2 ^ 57 + b2n rnd * 2 ^ 56 + d * 2 ^ 52 + a * 2 ^ 48 + b * 2 ^ 44 + sh * 2 ^ 39 + x * 2 ^ 32 + imm)
def aRun (k : LawKind) : LawRun :=
  { slot := 1, kind := k, base := 0, pc := 5, s := 100, sRef := 70, deadline := 9, inp := PortIn.none, len := 10, req := [], du := none, dv := none, dw := none }
def aBank : LaneBank :=
  { t := ⟨[(0, 5), (1, 0xFFFFFFFD), (2, 0x80000000), (3, 0x7FFFFFFF), (5, 0x12345678)]⟩, acc := -77, z := true, n := false, s := true }
def sLane (k : LawKind) (w : BitVec 64) (f : Lane → Lane) : State := run fun d => d.modLane 0 fun l =>
  f { l with cur := if k = .current then some (aRun k) else none, job := if k = .current then none else some (aRun k), law := ⟨[(5, w)]⟩,
             fg := aBank, bg := aBank, var := ⟨[(0x110, 7)]⟩, gain := ⟨[(0x103, 9)]⟩, publish := [(0x111, 8)] }
def sw (op d a b sh x imm : Nat) (sat rnd : Bool) : State := sLane .current (lw op d a b sh x imm sat rnd) id
def sv (op d a b sh x imm : Nat) (sat rnd : Bool) : State := sLane .velocity (lw op d a b sh x imm sat rnd) id
def aSlot (pos : Bool) : Slot := { Slot.reset with cfg := fput PLN_SLOT_CFG_valid 0 1, pos := fput PLN_SLOT_VEL_en 0 (b2n pos) }
def sAx (st : Nat) (f : Dev → Dev) : State := run fun d =>
  f ((((d.setAxSt 0 st).setF (AXS_STATE 0) AXS_STATE_lane 1).setF (AXS_STATE 0) AXS_STATE_slot 2).modLane 1 fun l =>
    { l with slots := ⟨[(2, aSlot true)]⟩ })
def at_ (r : Nat) (d : Dev) : Dev := d.modCluster 0 fun c => { c with ref := r }
def sRamp (st tgt : Nat) (hold : Bool) : State := sAx st fun d =>
  { ((d.setB (AXS_STATE 0) AXS_STATE_ramp true).setB (AXS_STATE 0) AXS_STATE_stopping true).modAxis 0 fun x => { x with target := tgt, rampHold := hold } with
    waits := [⟨3, 9, 0x0204, 0, [], 5, 0, 0⟩] }
/-- events on, routes of cluster 0 set -/
def withRoutes (l : List (Nat × Nat)) (d : Dev) : Dev := l.foldl (fun d x => d.wr (FLX_ROUTE 0 x.1) (w32 (0x80000000 + x.2))) d
def evOn (d : Dev) : Dev := d.setB LDL_ADMIN_CTL LDL_ADMIN_CTL_en true
def regsD (l : List (Nat × Word)) (d : Dev) : Dev := l.foldl (fun d x => d.wr x.1 x.2) d
/-- axis 0 in state st, registers set, events taken, routes of its sources -/
def sR (st : Nat) (l : List (Nat × Word)) (f : Dev → Dev) : State := sAx st fun d =>
  f (regsD l (withRoutes [(3, 0x20), (4, 0x30), (5, 0x70), (6, 0x80), (7, 0x10), (8, 0x90), (9, 0), (10, 0xF0), (11, 0xC8), (12, 0xF8)] (evOn d)))
def putSeg (a e : Nat) (g : Seg) (d : Dev) : Dev :=
  { d with bank15 := [g.w0, g.w1, g.w2, g.w3, g.w4, g.w5, g.w6, g.w7].zipIdx.foldl (fun m x => mset 0 m (segAddr a e x.2) x.1) d.bank15 }
def aSeg (k st fl dur : Nat) : Seg := ⟨w32 (k + 16 * st + fl + 0x50000), w32 dur, 0, 0, 0, 0, 0, if st = 2 then 7 else 0⟩
def tm (c : Nat) (d : Dev) : Dev := { d with time := { d.time with copies := mset 0 d.time.copies 0 c } }
def sSeg (st : Nat) (g : Seg) (run : Option SegRun) (len : Nat) : State := sR st [] fun d =>
  tm 2000 ((putSeg 0 0 g d).modInterp 0 fun i => { i with len := len, run := run })
def aSegRun (k dur : Nat) : SegRun := { seg := { aSeg k 0 0x80 dur with w2 := 3 }, t0 := 1000, p0 := 5, mPrev := none, mAcc := 0, asHold := false }
def sGrp (st1 cp : Nat) : State := run fun d => tm cp <| putSeg 1 0 (aSeg 0 1 0 60) (putSeg 0 0 (aSeg 0 st1 0 50)
  ((((((regsD [(FLX_GRP_CFG 0, if 5 < cp then 0xC0000003 else 0x80000003), (FLX_GRP_MEM_LO 0, 0x00000100), (FLX_ROUTE 0 0x30, 0x80000001)] d).setAxSt 0 3).setAxSt 1 3).modInterp 0 fun i => { i with len := 1 }).modInterp 1 fun i => { i with len := 2 }).setF (FLX_GRP_STAT 0) FLX_GRP_STAT_gst 0))
def linkOn (d : Dev) : Dev := { d.setB GLB_PCIE_STAT GLB_PCIE_STAT_link_up true with pcie := { d.pcie with busMaster := true, memSpace := true } }
def sStream (host : List Byte) : State :=
  let s := sR 1 [(AXS_SEG_STAT 0, 0x01000007), (LDL_RING_CFG 7, 0xC2000000), (LDL_RING_BASE_LO 7, 0x1000), (LDL_RING_PTR 7, 0x00020000)] linkOn
  { s with mem := s.mem.setHost 0x1000 host }
def sT (l : List (Nat × Word)) (f : Dev → Dev) : State := run fun d => f (regsD l (withRoutes [(4, 0xA0), (5, 0xA1), (6, 0xC0)] (evOn d)))
/-- engine 0 before the word w -/
def sE (w : Nat) (l : List (Nat × Word)) (f : Eng → Eng) : State :=
  sT ([(CHS_CTL 0, 0x80000003), (CHS_PROG 0 3, w32 w), (CHS_LC 0, 5), (CHS_FRM_HI 0, 0x12345678), (CHS_FRM_LO 0, 0x9ABCDEF0), (CHS_STAT 0, 0xFF000000)] ++ l) fun d => d.modEng 0 f
def trigX (k t : Nat) : CrossItem := ⟨.cl 0, .ai, .trig k t⟩
def aConv : ConvRun := { cfg := 0x80000000, unsettled := false, tInt := 1000, rundown := true, check := false, began := 0, tWas := 0, pairWas := .reset }
def sCru (l : List (Nat × Word)) (runs : List (Nat × Option ConvRun)) (act : Bool) : State :=
  sT l fun d => { d with cru := { d.cru with runs := ⟨runs⟩, pairs := ⟨[(0, { CruPair.reset with active := act, resA := some 5 })]⟩ } }
def memS (s : State) : State :=
  { s with mem := ((((s.mem.setWord 0x1001004 0x11223344).setTag 0x1001004 5).setWord 0x1001008 0x55667788).setTag 0x1001008 15).setWord 0x80000010 77 }
def pcOf (k : Nat) : Nat := if k = 18 then 0x100 else if k < 16 then 0x01000100 + k / 4 * 0x100000 else 0x01400100
/-- core k before the words ws, with one region of all rights -/
def sN (k : Nat) (ws : List Nat) (l : List (Nat × Word)) (f : Core → Core) : State :=
  run fun d => (regsD ([(ANV_RGN_BASE k 0, 1), (ANV_RGN_LIMIT k 0, 0xFFFFFFFF), (ANV_RGN_RIGHTS k 0, 0xFFF), (ING_BANK_OWN 0, 1)] ++ l) (evOn d)).modCore k fun c =>
    f { c with running := true, pc := pcOf k, pfq := ws.map w32 }
def ab (a b : Word) (ta tb : Nat) (c : Core) : Core := ((c.setW 1 a ta).setW 2 b tb).setW 3 0x12345678 0
def stn (op d : Nat) (r : Bool) (sub : Nat) (a b : Word) (ta tb : Nat) : Stn := ⟨op, d, r, sub, ⟨a, ta, none⟩, ⟨b, tb, none⟩⟩
/-- vectors v of core 0 in bank 0 at 0x1002000, handler 0x1003000 in ring r -/
def vecs (l : List (Nat × Nat)) (s : State) : State :=
  { s with mem := l.foldl (fun m x => (m.setWord (0x1002000 + 8 * x.1) 0x1003000).setWord (0x1002004 + 8 * x.1) (w32 (0x80000000 + x.2))) s.mem }
def vb : List (Nat × Word) := [(ANV_VBASE 0, 0x1002000), (ANV_GATE_BASE 0, 0x1005000), (ANV_GATE_CNT 0, 4)]
def blk (c : Core) : Core := { ((ab 0x11 0x22 3 15 c)) with tsr := 0x1001000, tsbp := ⟨[(0, 0x1001200), (1, 0x1001400)]⟩, p := 0x54, bk := 0x1234, ctxid := 9, ipl := 1, ie := true }
def warnS (s : State) : State := { s with dev := s.dev.modCluster 0 fun c => { c with cwdtWarn := true } }
def intr (l : List (Nat × Nat)) : List (Nat × Word) := l.map fun x => (ANV_INT_CFG 0 x.1, w32 (x.2 * 65536 + 0x4C))
def gts (f : Memory → Memory) (s : State) : State := { s with mem := f (((s.mem.setWord 0x1005008 0x1003000).setWord 0x100500C 0x800000F0).setWord 0x1005010 0x1003001) }
def retBlk (a w60 w4C : Word) (m : Memory) : Memory := ((((m.setWord 0x1001068 a).setWord (a.toNat + 0x60) w60).setWord (a.toNat + 0x4C) w4C).setWord (a.toNat + 0x48) 0x1003010).setWord (a.toNat + 4) 0x77
def ringW (r ty lg link base head tail phase : Nat) (d : Dev) : Dev :=
  (((d.wr (LDL_RING_CFG r) (w32 (2 ^ 31 + ty * 2 ^ 28 + lg * 2 ^ 24 + link))).wr (LDL_RING_BASE_LO r) (w32 base)).wr (LDL_RING_PTR r)
    (w32 (phase * 2 ^ 31 + tail * 2 ^ 16 + head))).wr (LDL_RING_STAT r) 0
/-- the link up, the firmware ready, the host's memory open; SQ 3 with CQ 4, EQ 5, stream 6 -/
def sH (f : Dev → Dev) : State := run fun d => f (ringW 6 4 4 0 0x40000 0 0 0 (ringW 5 3 4 0 0x30000 2 3 1 (ringW 4 2 4 0 0x20000 15 15 0 (ringW 3 1 4 4 0x10000 0 1 0
  ({ evOn d with pcie := { d.pcie with memSpace := true, busMaster := true } }.wr GLB_PCIE_STAT 0xC0000000)))))
def desc (op flags sess tag target : Nat) (l : List (Nat × Nat)) : List Byte :=
  l.foldl (fun b x => b.set x.1 (BitVec.ofNat 8 x.2)) (leBytes 2 op ++ leBytes 1 flags ++ leBytes 1 sess ++ leBytes 4 tag ++ leBytes 4 target ++ List.replicate 52 0)
def withMem (f : Memory → Memory) (s : State) : State := { s with mem := f s.mem }
def oneCmd (op flags : Nat) (ref : Option Nat) (begun : Bool) (d : Dev) : Dev := d.modSq 3 fun _ => ⟨[⟨[desc op flags 0 7 0 []], 1, 5, ref, begun⟩], []⟩
def pairP (q : Nat) (l : List (Nat × Word)) (f : Pair → Pair) (s : State) : State := { s with dev := (regsD l s.dev).modCorePair q f }
def cores2 (q : Nat) (f g : Core → Core) (s : State) : State := { s with dev := (s.dev.modCore (2 * q) f).modCore (2 * q + 1) g }
/-- a command in front of SQ r, with the admin rings made -/
def cmds (r : Nat) (l : List (List Byte)) (f : Dev → Dev) : State :=
  sH fun d => f ((ringW 2 3 4 0 0x50000 0 0 0 (ringW 0 1 4 1 0x60000 0 1 0 (ringW 1 2 4 0 0x70000 15 15 0 (d.setB HLM_STAT HLM_STAT_ent_ok true)))).modSq r fun _ =>
    ⟨[⟨l, 1, 5, none, false⟩], []⟩)
def axDev (st : Nat) (d : Dev) : Dev := ((((d.setAxSt 0 st).setF (AXS_STATE 0) AXS_STATE_lane 1).setF (AXS_STATE 0) AXS_STATE_slot 2).modLane 1 fun l =>
  { l with slots := ⟨[(2, aSlot true)]⟩, law := ⟨[(0, lw 1 0 0 0 0 0 0 false false), (5, lw 1 0 0 0 0 0 0 false false)]⟩ })
/-- commands on axis 0 in state st -/
def cA (st : Nat) (l : List (List Byte)) (f : Dev → Dev) : State := cmds 3 l fun d => f (axDev st (evOn d))
def lawImg (l : List (BitVec 64)) (kind len : Nat) : List Byte :=
  (leBytes 4 0x494C4450 ++ leBytes 4 3 ++ leBytes 4 0x10000 ++ List.replicate 8 0 ++ leBytes 4 (8 * l.length) ++ List.replicate 8 0 ++
    leBytes 2 (l.length + kind * 4096) ++ leBytes 2 len ++ List.replicate 220 0) ++ l.flatMap fun w => leBytes 8 w.toNat
def regionMem (r : Nat) (body : List Byte) (m : Memory) : Memory := match (run id).dev.regionActs m r body with
  | some (acts, _) => acts.foldl (fun m a => match a with
    | .erase s => flashErase s m
    | .prog x b _ => flashProg x b m) m
  | none => m
def fl (f : Fls → Fls) (d : Dev) : Dev := { d with fls := f d.fls }
/-- the OTP in lifecycle k, with the owner's key where own says so -/
def otpK (k : Nat) (own : Bool) (d : Dev) : Dev :=
  d.modHlm fun h => { h with otp := ⟨((if k = 0 then [] else [(0x000 + (k - 1), 0xFF)]) ++ (if own then [(0x010, 7)] else []) : List (Nat × Byte))⟩ }
def coreImg (body : List Byte) (load entry kind mode : Nat) : List Byte :=
  leBytes 4 0x494C4450 ++ leBytes 1 kind ++ leBytes 1 mode ++ leBytes 2 0 ++ leBytes 4 0x10000 ++ leBytes 4 5 ++ leBytes 4 0 ++
    leBytes 4 body.length ++ leBytes 4 entry ++ leBytes 4 load ++ List.replicate 224 0 ++ body
/-- supplies valid and start-up past the given stage -/
def up (stage slot mode : Nat) (f : Dev → Dev) (d : Dev) : Dev := f (((d.modTch fun t => { t with valid := true }).wr TCH_BOOT (w32 (stage * 256 + slot * 4 + mode))).wr TCH_STAT 0xC0000000)
def busy (d : Dev) : Dev := { regsD [(AXS_STATE 0, 0x30000000), (AXS_STATE 1, 0xFFFFFFFF), (TCH_WDT_CFG, 0x80000005), (HLM_SESSIONS, 3), (ING_BANK_OWN 3, 2), (GLB_TEMP, 0x1234), (GLB_PCIE_STAT, 0xFFFFFFFF), (DBG_STAT, 0x14000000), (LDL_RING_CFG 3, 0x94000004), (TMR_CFG 0, 0xC0000000)] d with
  waits := [⟨3, 7, 0x0203, 0, [], 0, 0, 0⟩], cpls := [⟨3, 7, 0, 0⟩], events := [⟨5, 0x0102, 0x10, 3, 0, [], false⟩] }.modAxis 0 fun a => { a with enReq := 1 }
def rec1 (c : Nat) : TchRec := ⟨c, 5, 0, 1000 + c, [1, 2], false, 12000, 30⟩
def oldLog (seq newest : Nat) (l : List TchRec) (d : Dev) : Dev := { ((d.wr TCH_SEQ (w32 seq)).wr TCH_NEWEST (w32 newest)) with tchQueue := l }
/-- a good short response of node n with status byte st -/
def shortOk (n st : Nat) : List Bool := bitsOf 8 st ++ checkBits 4 (crcOver 4 3 0xF (bitsOf 7 n ++ bitsOf 8 st)) ++ [true]
/-- a good status block -/
def longOk (pay : List Byte) : List Bool := byteBits pay ++ checkBits 16 (crcOver 16 0x1021 0xFFFF (byteBits pay)) ++ [true]
/-- port p enabled with a list of nodes 5 and 9, and SLD_CTL -/
def sldP (p ctl : Nat) (d : Dev) : Dev := regsD [(SLD_CTL p, w32 ctl), (SLD_LIST p 0, 0x220), (SLD_LIST_NEXT p 0, 0xF01), (SLD_LIST_NEXT p 3, 7)] d
/-- in the slot of node n -/
def slot (p : Nat) (todo : List Nat) (tries kind : Nat) (bc : Bool) (d : Dev) : Dev :=
  { (d.modSld p fun s => { s with inRound := true, todo := todo, tries := tries, kind := kind, bcast := bc, slotAt := 640, bits := 100 }).setB (SLD_STAT p) SLD_STAT_running true with now := 640 + 64 * 182 }
/-- the link of node 5: ports with STAT values, SEM_STAT -/
def sem (stat p0 p1 : Nat) (d : Dev) : Dev := regsD [(SEM_CTL, 0xC0000005), (SEM_STAT, w32 stat), (SEM_PORT_STAT 0, w32 p0), (SEM_PORT_STAT 1, w32 p1), (SEM_SECT, 0x80000007),
  (SEM_TX_BASE, 0x80000200), (SEM_RX_BASE, 0x80080000), (SEM_MBX_BASE, 0x80002000), (MEM_STAT, 0xFFFFFFFF)] d
def mq (f : Sem → Sem) (d : Dev) : Dev := d.modSem f
def fr (typ src dst : Nat) (pay : List Byte) : Frame := ⟨typ, false, false, src, dst, 3, pay, true⟩
def mboxPay (id off total n : Nat) : List Byte := leBytes 2 id ++ leBytes 2 off ++ leBytes 2 total ++ [0, 0] ++ List.replicate n 0x5A
def msg (dest id age : Nat) (sent again : Bool) : SemMsg := ⟨dest, id, List.replicate 300 7, age, sent, again, 3⟩
def tapS (f : Tap → Tap) (d : Dev) : Dev := d.modTap f
def lc (n lvl : Nat) (d : Dev) : Dev := (if n = 0 then d else otpK n true d).setF DBG_STAT DBG_STAT_tap_level lvl

theorem lane_of {d : Dev} {n : Nat} {r : LawRun} {fg : Bool} (h : d.clusterRuns (n / 4) = true ∧ d.running n = some (r, fg) ∧
    r.kind ≠ .emulation ∧ (d.cluster (n / 4)).halting = false ∧
    (∀ k < 4, d.lacHit n k r.pc r.slot = true → d.fld (PLN_LAC_CFG n k) PLN_LAC_CFG_action ≠ 2) ∧
    mget 0 (d.lane n).lawErr (r.pc % 2048) ≤ 1) : LaneReady d n r fg :=
  ⟨h.1, h.2.1, h.2.2.1, h.2.2.2.1, h.2.2.2.2.1, h.2.2.2.2.2⟩
theorem eng_of {d : Dev} {e w : Nat} (h : d.clusterRuns (egCl e) = true ∧ d.egOn e = true ∧ d.egHold e = false ∧
    (d.cluster (egCl e)).halting = false ∧ (d.eng e).ir = none ∧ d.fld (CHS_PROG e (d.egPc e)) CHS_PROG_word = w ∧
    egReserved w = false ∧ (∀ k < 2, d.pacHit e k (d.egPc e) = false) ∧ d.flag (CHS_LOOP e) CHS_LOOP_loop_en = false) : EngReady d e w :=
  ⟨h.1, h.2.1, h.2.2.1, h.2.2.2.1, h.2.2.2.2.1, h.2.2.2.2.2.1, h.2.2.2.2.2.2.1, h.2.2.2.2.2.2.2.1, h.2.2.2.2.2.2.2.2⟩
theorem anv_of {m : Memory} {d : Dev} {k : Nat} {w : Word} (f : anvFetch k (m, d) = ((m, d), .inr w)) (h : d.anvReady k = true ∧
    iwUndef (d.core k).byteMode w = false ∧ (d.core k).pred (iwPg w) ≠ iwPn w ∧
    (∀ st ∈ (d.core k).stns, (∀ r ∈ st.dests, r ∉ iwRegs w) ∧ (st.op = 0x26 → st.d ≠ iwPg w ∧ st.d ∉ iwPreds w)) ∧
    (d.core k).rep = none ∧ (d.core k).stepping = false ∧ (k = 18 ∨ ∀ u < 4, d.fldIf (DBG_BW_CFG k u) DBG_BW_CFG_en = 0)) :
    AnvReady m d k w :=
  ⟨h.1, f, h.2.1, h.2.2.1, h.2.2.2.1, h.2.2.2.2.1, h.2.2.2.2.2.1, h.2.2.2.2.2.2⟩
theorem free_of {d : Dev} {k : Nat} (h : (d.cluster k).halted = false ∧ (d.cluster k).halting = false ∧ d.clusterRuns k = true) :
    d.clusterFree k := h
theorem plain_of {c : Cmd} (h : c.badNone = false ∧ c.bad [] = false) : plain c := h
theorem sound_of {d : Dev} {addr : Nat} {v : Word} (h : (regAt addr).all (fun x => !d.reserves x.1 x.2 v) = true) : d.sound addr v := by
  intro k ix e
  simpa [e] using h

theorem meets_RegisterWritesAndWindows :
    (∃ (w : Writer), w ≠ Writer.dap ∧ ∃ (addr : Word), ∃ (k : RegClass), ∃ (ix : List Nat),
      regAt (BitVec.toNat addr) = some (k, ix) ∧ unlockOf k (BitVec.toNat addr) = some (BitVec.toNat addr) ∧
      ∃ (s : State), s.dev.regDead w (BitVec.toNat addr) = false) ∧
    (∃ (w : Writer), ∃ (addr : Word), ∃ (s : State), s.dev.regDead w (BitVec.toNat addr) = true) ∧
    (∃ (w : Writer), ∃ (addr : Word), ∃ (k : RegClass), ∃ (ix : List Nat), regAt (BitVec.toNat addr) = some (k, ix) ∧
      35651584 ≤ BitVec.toNat addr ∧ BitVec.toNat addr < 36700160 ∧ BitVec.toNat addr ≠ MEM_UNLOCK ∧ ∃ (v : Word),
      ∃ (s : State), w = Writer.dap → s.dev.tapFull = true) :=
  ⟨⟨.host, by decide, (BitVec.ofNat 32 MEM_UNLOCK : Word), _, _, rfl, by decide, (run id), by decide⟩,
   ⟨.host, 0x02800000, State.reset, by decide⟩,
   ⟨.host, 0x02200000, _, _, rfl, by decide, by decide, by decide, 0, (run id), by decide⟩⟩

theorem meets_DeviceTimeRows_1 :
    (∃ (w : Writer), ∃ (v : Word), ∃ (s : State), s.dev.accepts w GLB_TIME_STEP = true ∧ s.dev.time.mode ≠ 2) ∧
    (∃ (w : Writer), ∃ (v : Word), ∃ (s : State), s.dev.time.mode = 2) ∧
    (∃ (w : Writer), ∃ (v : Word), ∃ (s : State), s.dev.accepts w GLB_CLK_TRIM = true ∧ s.dev.time.mode ≠ 2) ∧
    (∃ (s : State), s.dev.time.mode = 1 ∧ s.dev.fld GLB_SYNC_IN_PERIOD GLB_SYNC_IN_PERIOD_sync_period ≠ 0 ∧
      s.dev.fld GLB_SYNC_IN_PERIOD GLB_SYNC_IN_PERIOD_sync_period < 4 * (s.dev.phaseError s.dev.time.master).natAbs) ∧
    (∃ (s : State), s.dev.time.mode = 1 ∧ s.dev.fld GLB_SYNC_IN_PERIOD GLB_SYNC_IN_PERIOD_sync_period ≠ 0 ∧
      4 * (s.dev.phaseError s.dev.time.master).natAbs ≤ s.dev.fld GLB_SYNC_IN_PERIOD GLB_SYNC_IN_PERIOD_sync_period) ∧
    (∃ (s : State), s.dev.syncGone = false) ∧
    (∃ (s : State), s.dev.syncGone = true) ∧
    (∃ (s : State), s.dev.fld GLB_SYNC_OUT_PERIOD GLB_SYNC_OUT_PERIOD_out_period ≠ 0 ∧ ∃ (n : Nat),
      s.dev.time.master = s.dev.fld GLB_SYNC_OUT_OFFSET GLB_SYNC_OUT_OFFSET_out_offset + n * s.dev.fld GLB_SYNC_OUT_PERIOD GLB_SYNC_OUT_PERIOD_out_period ∧
      s.dev.time.syncFired = none) ∧
    (∃ (s : State), s.dev.fld GLB_SYNC_OUT_PERIOD GLB_SYNC_OUT_PERIOD_out_period ≠ 0 ∧ ∃ (n : Nat),
      s.dev.time.master = s.dev.fld GLB_SYNC_OUT_OFFSET GLB_SYNC_OUT_OFFSET_out_offset + n * s.dev.fld GLB_SYNC_OUT_PERIOD GLB_SYNC_OUT_PERIOD_out_period ∧
      ∃ (u : Nat), s.dev.time.syncFired = some u ∧ s.dev.time.master ≤ u) ∧
    (∃ (s : State), s.dev.syncOutNow = false) :=
  ⟨⟨.dap, 0, (run id), by decide⟩,
   ⟨.host, 0, (sTime fun t => { t with mode := 2 }), by decide⟩,
   ⟨.dap, 0, (run id), by decide⟩,
   ⟨(sSync 10000 10 5000 none), by decide⟩,
   ⟨(sTime fun t => { t with mode := 1 }), by decide⟩,
   ⟨(run id), by decide⟩,
   ⟨(run fun d => { d with now := 99999999, time := { d.time with mode := 1, master := 5 } }), by decide⟩,
   ⟨(run fun d => d.wr GLB_SYNC_OUT_PERIOD 4096), by decide, 0, by decide⟩,
   ⟨(run fun d => { (d.wr GLB_SYNC_OUT_PERIOD 4096).wr GLB_SYNC_OUT_OFFSET 8 with time := { d.time with master := 4104, syncFired := some 4104 } }),
     by decide, 1, by decide, _, rfl, by decide⟩,
   ⟨(run id), by decide⟩⟩

theorem meets_DeviceTimeRows_2 :
    (∃ (s : State), s.dev.time.syncRose + s.dev.fld GLB_SYNC_OUT_CTL GLB_SYNC_OUT_CTL_out_width ≤ s.dev.now) ∧
    (∃ (s : State), s.dev.now < s.dev.time.syncRose + s.dev.fld GLB_SYNC_OUT_CTL GLB_SYNC_OUT_CTL_out_width) :=
  ⟨⟨(run fun d => { (d.wr GLB_SYNC_OUT_CTL 9) with now := 20, time := { d.time with syncOut := true, syncRose := 3 } }),
     by decide⟩,
   ⟨(run id), by decide⟩⟩

theorem meets_TimeCrossingsAndBoundary :
    (∃ (s : State), s.dev.atBoundary = false) ∧
    (∃ (s : State), s.dev.time.master % 1024 = 0 ∧ s.dev.time.bound ≠ some s.dev.now) ∧
    (∃ (src : Island), ∃ (dst : Island), ∃ (s : State),
      List.find? (fun (x : CrossItem) => x.src == src && x.dst == dst && x.plain) s.dev.crossing = some { src := src, dst := dst, pay := CrossPay.wdtKick } ∧
      s.dev.flag TCH_WDT_CFG TCH_WDT_CFG_en = true) ∧
    (∃ (src : Island), ∃ (dst : Island), ∃ (e : Nat), e < 96 ∧ ∃ (s : State),
      List.find? (fun (x : CrossItem) => x.src == src && x.dst == dst && x.plain) s.dev.crossing = some { src := src, dst := dst, pay := CrossPay.evc e }) ∧
    (∃ (src : Island), ∃ (dst : Island), ∃ (c : Nat), ∃ (n : Nat), ∃ (s : State), s.dev.clusterRuns c = false ∧
      List.find? (fun (x : CrossItem) => x.src == src && x.dst == dst && x.plain) s.dev.crossing = some { src := src, dst := dst, pay := CrossPay.flux c n }) ∧
    (∃ (src : Island), ∃ (dst : Island), ∃ (c : Nat), ∃ (n : Nat), ∃ (dest : Nat), ∃ (s : State),
      s.dev.clusterRuns c = true ∧ dest ∈ s.dev.routes c ∧ s.dev.routed c dest n = true ∧
      List.find? (fun (x : CrossItem) => x.src == src && x.dst == dst && x.plain) s.dev.crossing = some { src := src, dst := dst, pay := CrossPay.flux c n }) :=
  ⟨⟨(sTime fun t => { t with master := 1024, bound := some 0 }), by decide⟩,
   ⟨(run id), by decide⟩,
   ⟨.hi, .ao, (sCross .wdtKick), by decide⟩,
   ⟨.hi, .ao, 1, by decide, (sCross (.evc 1)), by decide⟩,
   ⟨.hi, .ao, 0, 0x10, (run fun d => (sCross (.flux 0 0x10)).dev.modCluster 0 fun c => { c with halted := true }),
     by decide⟩,
   ⟨.ai, .cl 0, 0, 0xA0, 4, (sT [] fun d => { d with crossing := [⟨.ai, .cl 0, .flux 0 0xA0⟩] }), by decide⟩⟩

theorem meets_LaneArithmeticResults_1 :
    (∃ (n : Fin 16), ∃ (s : State), ∃ (r : LawRun), (laneWord s.dev (↑n) r).op = 16 ∧ ∃ (fg : Bool),
      LaneReady s.dev (↑n) r fg) ∧
    (∃ (n : Fin 16), ∃ (s : State), ∃ (r : LawRun), (laneWord s.dev (↑n) r).op = 17 ∧ ∃ (fg : Bool),
      LaneReady s.dev (↑n) r fg) ∧
    (∃ (n : Fin 16), ∃ (s : State), ∃ (r : LawRun), (laneWord s.dev (↑n) r).op = 18 ∧ ∃ (fg : Bool),
      LaneReady s.dev (↑n) r fg) ∧
    (∃ (n : Fin 16), ∃ (s : State), ∃ (r : LawRun), (laneWord s.dev (↑n) r).op = 19 ∧ ∃ (fg : Bool),
      LaneReady s.dev (↑n) r fg) ∧
    (∃ (n : Fin 16), ∃ (s : State), ∃ (r : LawRun), (laneWord s.dev (↑n) r).op = 20 ∧ ∃ (fg : Bool),
      LaneReady s.dev (↑n) r fg) ∧
    (∃ (n : Fin 16), ∃ (s : State), ∃ (r : LawRun), (laneWord s.dev (↑n) r).op = 21 ∧ ∃ (fg : Bool),
      LaneReady s.dev (↑n) r fg) ∧
    (∃ (n : Fin 16), ∃ (s : State), ∃ (r : LawRun), (laneWord s.dev (↑n) r).op = 22 ∧ ∃ (fg : Bool),
      LaneReady s.dev (↑n) r fg) ∧
    (∃ (n : Fin 16), ∃ (s : State), ∃ (r : LawRun), (laneWord s.dev (↑n) r).op = 27 ∧ ∃ (fg : Bool),
      LaneReady s.dev (↑n) r fg) ∧
    (∃ (n : Fin 16), ∃ (s : State), ∃ (r : LawRun), (laneWord s.dev (↑n) r).op = 32 ∧ ∃ (fg : Bool),
      LaneReady s.dev (↑n) r fg) ∧
    (∃ (n : Fin 16), ∃ (s : State), ∃ (r : LawRun), (laneWord s.dev (↑n) r).op = 33 ∧ ∃ (fg : Bool),
      LaneReady s.dev (↑n) r fg) :=
  ⟨⟨0, (sw 16 14 0 2 0 1 4294967295 false false), (aRun .current : LawRun), by decide, true, lane_of (by decide)⟩,
   ⟨0, (sw 17 0 4 0 1 3 16 true false), (aRun .current : LawRun), by decide, true, lane_of (by decide)⟩,
   ⟨0, (sw 18 14 1 0 1 2 2147483648 true false), (aRun .current : LawRun), by decide, true, lane_of (by decide)⟩,
   ⟨0, (sw 19 6 0 3 0 68 3 false true), (aRun .current : LawRun), by decide, true, lane_of (by decide)⟩,
   ⟨0, (sw 20 14 5 4 31 17 2147483648 true false), (aRun .current : LawRun), by decide, true, lane_of (by decide)⟩,
   ⟨0, (sw 21 14 3 2 31 0 16 false false), (aRun .current : LawRun), by decide, true, lane_of (by decide)⟩,
   ⟨0, (sv 22 6 3 0 31 16 3 false true), (aRun .velocity : LawRun), by decide, false, lane_of (by decide)⟩,
   ⟨0, (sw 27 0 3 4 4 2 16 false false), (aRun .current : LawRun), by decide, true, lane_of (by decide)⟩,
   ⟨0, (sw 32 14 4 2 1 65 16 true false), (aRun .current : LawRun), by decide, true, lane_of (by decide)⟩,
   ⟨0, (sw 33 14 4 4 4 16 3 true true), (aRun .current : LawRun), by decide, true, lane_of (by decide)⟩⟩

theorem meets_LaneArithmeticResults_2 :
    ∃ (n : Fin 16), ∃ (s : State), ∃ (r : LawRun), (laneWord s.dev (↑n) r).op = 39 ∧ ∃ (fg : Bool),
      LaneReady s.dev (↑n) r fg :=
  ⟨0, (sw 39 0 2 3 31 16 2147483648 true true), (aRun .current : LawRun), by decide, true, lane_of (by decide)⟩

theorem meets_LaneMovesAndBits_1 :
    (∃ (n : Fin 16), ∃ (s : State), ∃ (r : LawRun), (laneWord s.dev (↑n) r).op = 2 ∧ ∃ (fg : Bool),
      LaneReady s.dev (↑n) r fg) ∧
    (∃ (n : Fin 16), ∃ (s : State), ∃ (r : LawRun), (laneWord s.dev (↑n) r).op = 3 ∧ ∃ (fg : Bool),
      LaneReady s.dev (↑n) r fg) ∧
    (∃ (n : Fin 16), ∃ (s : State), ∃ (r : LawRun), (laneWord s.dev (↑n) r).op = 7 ∧ ∃ (fg : Bool),
      LaneReady s.dev (↑n) r fg) ∧
    (∃ (n : Fin 16), ∃ (s : State), ∃ (r : LawRun), (laneWord s.dev (↑n) r).op = 30 ∧ ∃ (fg : Bool),
      LaneReady s.dev (↑n) r fg) ∧
    (∃ (n : Fin 16), ∃ (s : State), ∃ (r : LawRun), (laneWord s.dev (↑n) r).op = 24 ∧ ∃ (fg : Bool),
      LaneReady s.dev (↑n) r fg) ∧
    (∃ (n : Fin 16), ∃ (s : State), ∃ (r : LawRun), (laneWord s.dev (↑n) r).op = 25 ∧ ∃ (fg : Bool),
      LaneReady s.dev (↑n) r fg) ∧
    (∃ (n : Fin 16), ∃ (s : State), ∃ (r : LawRun), (laneWord s.dev (↑n) r).op = 26 ∧ ∃ (fg : Bool),
      LaneReady s.dev (↑n) r fg) ∧
    (∃ (n : Fin 16), ∃ (s : State), ∃ (r : LawRun), (laneWord s.dev (↑n) r).op = 28 ∧ ∃ (fg : Bool),
      LaneReady s.dev (↑n) r fg) ∧
    (∃ (n : Fin 16), ∃ (s : State), ∃ (r : LawRun), (laneWord s.dev (↑n) r).op = 5 ∧ ∃ (fg : Bool),
      LaneReady s.dev (↑n) r fg) ∧
    (∃ (n : Fin 16), ∃ (s : State), ∃ (r : LawRun), (laneWord s.dev (↑n) r).op = 23 ∧ ∃ (fg : Bool),
      LaneReady s.dev (↑n) r fg) :=
  ⟨⟨0, (sw 2 6 2 3 1 7 0 false false), (aRun .current : LawRun), by decide, true, lane_of (by decide)⟩,
   ⟨0, (sv 3 14 4 0 1 2 4294967295 true true), (aRun .velocity : LawRun), by decide, false, lane_of (by decide)⟩,
   ⟨0, (sv 7 14 2 0 0 1 4294967295 false false), (aRun .velocity : LawRun), by decide, false, lane_of (by decide)⟩,
   ⟨0, (sv 30 14 5 1 31 68 3 true true), (aRun .velocity : LawRun), by decide, false, lane_of (by decide)⟩,
   ⟨0, (sv 24 0 0 0 4 1 2147483648 true true), (aRun .velocity : LawRun), by decide, false, lane_of (by decide)⟩,
   ⟨0, (sv 25 0 1 0 1 3 16 true true), (aRun .velocity : LawRun), by decide, false, lane_of (by decide)⟩,
   ⟨0, (sv 26 14 0 1 0 0 0 true false), (aRun .velocity : LawRun), by decide, false, lane_of (by decide)⟩,
   ⟨0, (sv 28 14 1 3 31 64 16 false true), (aRun .velocity : LawRun), by decide, false, lane_of (by decide)⟩,
   ⟨0, (sw 5 0 5 1 31 1 0 false true), (aRun .current : LawRun), by decide, true, lane_of (by decide)⟩,
   ⟨0, (sv 23 0 1 4 0 0 16 false false), (aRun .velocity : LawRun), by decide, false, lane_of (by decide)⟩⟩

theorem meets_LaneMovesAndBits_2 :
    (∃ (n : Fin 16), ∃ (s : State), ∃ (r : LawRun), (laneWord s.dev (↑n) r).op = 29 ∧ ∃ (fg : Bool),
      LaneReady s.dev (↑n) r fg) ∧
    (∃ (n : Fin 16), ∃ (s : State), ∃ (r : LawRun), (laneWord s.dev (↑n) r).op = 0 ∧ ∃ (fg : Bool),
      LaneReady s.dev (↑n) r fg) :=
  ⟨⟨0, (sv 29 14 2 4 1 0 3 false true), (aRun .velocity : LawRun), by decide, false, lane_of (by decide)⟩,
   ⟨0, (sw 0 6 5 4 31 2 4294967295 true false), (aRun .current : LawRun), by decide, true, lane_of (by decide)⟩⟩

theorem meets_LaneAccumulatorDivisionCordic :
    (∃ (n : Fin 16), ∃ (s : State), ∃ (r : LawRun), (laneWord s.dev (↑n) r).op = 35 ∧ ∃ (fg : Bool),
      LaneReady s.dev (↑n) r fg) ∧
    (∃ (n : Fin 16), ∃ (s : State), ∃ (r : LawRun), (laneWord s.dev (↑n) r).op = 36 ∧ ∃ (fg : Bool),
      LaneReady s.dev (↑n) r fg) ∧
    (∃ (n : Fin 16), ∃ (s : State), ∃ (r : LawRun), (laneWord s.dev (↑n) r).op = 37 ∧ ∃ (fg : Bool),
      LaneReady s.dev (↑n) r fg) ∧
    (∃ (n : Fin 16), ∃ (s : State), ∃ (r : LawRun), (laneWord s.dev (↑n) r).op = 38 ∧ ∃ (fg : Bool),
      LaneReady s.dev (↑n) r fg) ∧
    (∃ (n : Fin 16), ∃ (s : State), ∃ (r : LawRun), (laneWord s.dev (↑n) r).op = 34 ∧ ∃ (fg : Bool),
      LaneReady s.dev (↑n) r fg) ∧
    (∃ (n : Fin 16), ∃ (s : State), ∃ (r : LawRun), (laneWord s.dev (↑n) r).op = 40 ∧ ∃ (fg : Bool),
      LaneReady s.dev (↑n) r fg) ∧
    (∃ (n : Fin 16), ∃ (s : State), ∃ (r : LawRun), (laneWord s.dev (↑n) r).d < 15 ∧ ∃ (fg : Bool),
      LaneReady s.dev (↑n) r fg ∧ (laneWord s.dev (↑n) r).op = 48) ∧
    (∃ (n : Fin 16), ∃ (s : State), ∃ (r : LawRun), (laneWord s.dev (↑n) r).d < 15 ∧ ∃ (fg : Bool),
      LaneReady s.dev (↑n) r fg ∧ (laneWord s.dev (↑n) r).op = 49) ∧
    (∃ (n : Fin 16), ∃ (s : State), ∃ (r : LawRun), (laneWord s.dev (↑n) r).d < 15 ∧ ∃ (fg : Bool),
      LaneReady s.dev (↑n) r fg ∧ (laneWord s.dev (↑n) r).op = 50) :=
  ⟨⟨0, (sw 35 6 0 0 31 68 4294967295 false false), (aRun .current : LawRun), by decide, true, lane_of (by decide)⟩,
   ⟨0, (sw 36 14 0 0 4 16 4294967295 true false), (aRun .current : LawRun), by decide, true, lane_of (by decide)⟩,
   ⟨0, (sw 37 0 4 1 1 2 16 false false), (aRun .current : LawRun), by decide, true, lane_of (by decide)⟩,
   ⟨0, (sv 38 14 3 1 4 16 2147483648 true false), (aRun .velocity : LawRun), by decide, false, lane_of (by decide)⟩,
   ⟨0, (sv 34 14 5 4 31 0 0 false false), (aRun .velocity : LawRun), by decide, false, lane_of (by decide)⟩,
   ⟨0, (sv 40 0 1 2 1 0 2147483648 true true), (aRun .velocity : LawRun), by decide, false, lane_of (by decide)⟩,
   ⟨0, (sw 48 0 5 4 0 1 0 false false), (aRun .current : LawRun), by decide, true, lane_of (by decide), by decide⟩,
   ⟨0, (sv 49 14 0 4 1 2 4294967295 false true), (aRun .velocity : LawRun), by decide, false, lane_of (by decide),
     by decide⟩,
   ⟨0, (sv 50 14 0 4 1 65 3 true true), (aRun .velocity : LawRun), by decide, false, lane_of (by decide), by decide⟩⟩

theorem meets_LaneOutputsAndControl :
    (∃ (n : Fin 16), ∃ (s : State), ∃ (r : LawRun), (laneWord s.dev (↑n) r).op = 6 ∧ (laneWord s.dev (↑n) r).x ≠ 68 ∧
      ∃ (fg : Bool), LaneReady s.dev (↑n) r fg) ∧
    (∃ (n : Fin 16), ∃ (s : State), ∃ (r : LawRun), (laneWord s.dev (↑n) r).op = 6 ∧ (laneWord s.dev (↑n) r).x = 68 ∧
      ∃ (fg : Bool), LaneReady s.dev (↑n) r fg) ∧
    (∃ (n : Fin 16), ∃ (s : State), ∃ (r : LawRun), (laneWord s.dev (↑n) r).op = 4 ∧ ∃ (fg : Bool),
      LaneReady s.dev (↑n) r fg) ∧
    (∃ (n : Fin 16), ∃ (s : State), ∃ (r : LawRun), (laneWord s.dev (↑n) r).op = 56 ∧ ∃ (fg : Bool),
      LaneReady s.dev (↑n) r fg) ∧
    (∃ (n : Fin 16), ∃ (s : State), ∃ (r : LawRun), (laneWord s.dev (↑n) r).op = 57 ∧ ∃ (fg : Bool),
      LaneReady s.dev (↑n) r fg) ∧
    (∃ (n : Fin 16), ∃ (s : State), ∃ (r : LawRun), (laneWord s.dev (↑n) r).op = 58 ∧ ∃ (fg : Bool),
      LaneReady s.dev (↑n) r fg) ∧
    (∃ (n : Fin 16), ∃ (s : State), ∃ (r : LawRun), LaneReady s.dev (↑n) r true ∧ (laneWord s.dev (↑n) r).op = 1) ∧
    (∃ (n : Fin 16), ∃ (s : State), ∃ (r : LawRun), LaneReady s.dev (↑n) r false ∧ (laneWord s.dev (↑n) r).op = 1 ∧
      r.req = []) ∧
    (∃ (n : Fin 16), ∃ (s : State), ∃ (r : LawRun), s.dev.clusterRuns (↑n / 4) = true ∧ s.dev.running ↑n = some (r,
      false) ∧ r.kind = LawKind.emulation ∧ (s.dev.cluster (↑n / 4)).halting = false ∧ r.req = []) :=
  ⟨⟨0, (sw 6 14 3 3 1 1 16 false true), (aRun .current : LawRun), by decide, by decide, true, lane_of (by decide)⟩,
   ⟨0, (sv 6 6 5 3 0 68 2147483648 true false), (aRun .velocity : LawRun), by decide, by decide, false,
     lane_of (by decide)⟩,
   ⟨0, (sw 4 14 1 4 0 65 16 false false), (aRun .current : LawRun), by decide, true, lane_of (by decide)⟩,
   ⟨0, (sw 56 14 3 3 1 68 0 true true), (aRun .current : LawRun), by decide, true, lane_of (by decide)⟩,
   ⟨0, (sv 57 14 1 0 31 64 0 true false), (aRun .velocity : LawRun), by decide, false, lane_of (by decide)⟩,
   ⟨0, (sw 58 6 4 1 0 2 3 true false), (aRun .current : LawRun), by decide, true, lane_of (by decide)⟩,
   ⟨0, (sw 1 14 3 2 1 65 4294967295 true true), (aRun .current : LawRun), lane_of (by decide), by decide⟩,
   ⟨0, (sv 1 6 2 4 4 7 4294967295 false false), (aRun .velocity : LawRun), lane_of (by decide), by decide⟩,
   ⟨0, (sLane .emulation 0 id), (aRun .emulation : LawRun), by decide⟩⟩

theorem meets_LaneBackgroundAccesses :
    (∃ (n : Fin 16), ∃ (s : State), s.dev.isShadow ↑n = false ∧ ∃ (r : LawRun),
      s.dev.bankUp (offBank (↑n) (BitVec.toNat (laneWord s.dev (↑n) r).imm % 1048576 / 4 * 4)) = true ∧
      isBank15 (offBank (↑n) (BitVec.toNat (laneWord s.dev (↑n) r).imm % 1048576 / 4 * 4)) = false ∧
      s.mem.errAt (bankAddr (offBank (↑n) (BitVec.toNat (laneWord s.dev (↑n) r).imm % 1048576 / 4 * 4)) (BitVec.toNat (laneWord s.dev (↑n) r).imm % 1048576 / 4 * 4 % 65536)) = 0 ∧
      ∃ (fg : Bool), LaneReady s.dev (↑n) r fg ∧ (laneWord s.dev (↑n) r).op = 8 ∧
      s.dev.ingotOk Mst.lane (offBank (↑n) (BitVec.toNat (laneWord s.dev (↑n) r).imm % 1048576 / 4 * 4)) false = true) ∧
    (∃ (n : Fin 16), ∃ (s : State), s.dev.isShadow ↑n = false ∧ ∃ (r : LawRun),
      s.dev.bankUp (offBank (↑n) (BitVec.toNat (laneWord s.dev (↑n) r).imm % 1048576 / 4 * 4)) = true ∧
      isBank15 (offBank (↑n) (BitVec.toNat (laneWord s.dev (↑n) r).imm % 1048576 / 4 * 4)) = false ∧
      s.mem.errAt (bankAddr (offBank (↑n) (BitVec.toNat (laneWord s.dev (↑n) r).imm % 1048576 / 4 * 4)) (BitVec.toNat (laneWord s.dev (↑n) r).imm % 1048576 / 4 * 4 % 65536)) = 0 ∧
      ∃ (fg : Bool), LaneReady s.dev (↑n) r fg ∧ (laneWord s.dev (↑n) r).op = 9 ∧
      s.dev.ingotOk Mst.lane (offBank (↑n) (BitVec.toNat (laneWord s.dev (↑n) r).imm % 1048576 / 4 * 4)) true = true) ∧
    (∃ (n : Fin 16), ∃ (s : State), s.dev.isShadow ↑n = false ∧ ∃ (r : LawRun),
      s.dev.bankUp (offBank (↑n) (BitVec.toNat (laneWord s.dev (↑n) r).imm % 1048576 / 4 * 4)) = true ∧
      isBank15 (offBank (↑n) (BitVec.toNat (laneWord s.dev (↑n) r).imm % 1048576 / 4 * 4)) = false ∧
      s.mem.errAt (bankAddr (offBank (↑n) (BitVec.toNat (laneWord s.dev (↑n) r).imm % 1048576 / 4 * 4)) (BitVec.toNat (laneWord s.dev (↑n) r).imm % 1048576 / 4 * 4 % 65536)) = 0 ∧
      ∃ (fg : Bool), LaneReady s.dev (↑n) r fg ∧ (laneWord s.dev (↑n) r).op = 8 ∧
      s.dev.ingotOk Mst.lane (offBank (↑n) (BitVec.toNat (laneWord s.dev (↑n) r).imm % 1048576 / 4 * 4)) false = false) ∧
    (∃ (n : Fin 16), ∃ (s : State), s.dev.isShadow ↑n = false ∧ ∃ (r : LawRun),
      s.dev.bankUp (offBank (↑n) (BitVec.toNat (laneWord s.dev (↑n) r).imm % 1048576 / 4 * 4)) = true ∧
      isBank15 (offBank (↑n) (BitVec.toNat (laneWord s.dev (↑n) r).imm % 1048576 / 4 * 4)) = false ∧
      s.mem.errAt (bankAddr (offBank (↑n) (BitVec.toNat (laneWord s.dev (↑n) r).imm % 1048576 / 4 * 4)) (BitVec.toNat (laneWord s.dev (↑n) r).imm % 1048576 / 4 * 4 % 65536)) = 0 ∧
      ∃ (fg : Bool), LaneReady s.dev (↑n) r fg ∧ (laneWord s.dev (↑n) r).op = 9 ∧
      s.dev.ingotOk Mst.lane (offBank (↑n) (BitVec.toNat (laneWord s.dev (↑n) r).imm % 1048576 / 4 * 4)) true = false) ∧
    (∃ (n : Fin 16), ∃ (s : State), s.dev.isShadow ↑n = true ∧ ∃ (r : LawRun), ∃ (fg : Bool),
      LaneReady s.dev (↑n) r fg ∧ ∃ (v : Word), ∃ (rest : List Word), (s.dev.lane ↑n).ldm = v :: rest ∧
      (laneWord s.dev (↑n) r).op = 8) ∧
    (∃ (n : Fin 16), ∃ (s : State), s.dev.isShadow ↑n = true ∧ ∃ (r : LawRun), ∃ (fg : Bool),
      LaneReady s.dev (↑n) r fg ∧ (laneWord s.dev (↑n) r).op = 9) :=
  ⟨⟨0,
     ({ sLane .current (lw 8 6 1 0 0 0 0x104 false false) (fun l => l) with dev := (sLane .current (lw 8 6 1 0 0 0 0x104 false false) fun l => l).dev.setF (ING_BANK_SHARE 0) ING_BANK_SHARE_share_rd 0xFF }),
     by decide, (aRun .current : LawRun), by decide, by decide, by decide, true, lane_of (by decide), by decide⟩,
   ⟨0,
     ({ sLane .current (lw 9 6 1 0 0 0 0x104 false false) (fun l => l) with dev := (sLane .current (lw 9 6 1 0 0 0 0x104 false false) fun l => l).dev.setF (ING_BANK_SHARE 0) ING_BANK_SHARE_share_wr 0xFF }),
     by decide, (aRun .current : LawRun), by decide, by decide, by decide, true, lane_of (by decide), by decide⟩,
   ⟨0, (sLane .current (lw 8 6 1 0 0 0 256 false false) fun l => l), by decide, (aRun .current : LawRun), by decide,
     by decide, by decide, true, lane_of (by decide), by decide⟩,
   ⟨0, (sLane .current (lw 9 6 1 0 0 0 256 false false) fun l => l), by decide, (aRun .current : LawRun), by decide,
     by decide, by decide, true, lane_of (by decide), by decide⟩,
   ⟨0, (sLane .current (lw 8 6 1 0 0 0 256 false false) fun l => { l with paired := true, ldm := [5, 6] }),
     by decide, (aRun .current : LawRun), true, lane_of (by decide), _, _, rfl, by decide⟩,
   ⟨0, (sLane .current (lw 9 6 1 0 0 0 256 false false) fun l => { l with paired := true, ldm := [5, 6] }),
     by decide, (aRun .current : LawRun), true, lane_of (by decide), by decide⟩⟩

theorem meets_SamplesAndBackgroundJobs :
    (∃ (a : Fin 64), ∃ (s : State), s.dev.clusterRuns (axCl ↑a) = true ∧ (s.dev.tile ↑a).delaying = true ∧
      (s.dev.cluster (axCl ↑a)).ref = s.dev.windowFrom (↑a) (s.dev.tile ↑a).evt) ∧
    (∃ (a : Fin 64), ∃ (s : State), s.dev.clusterRuns (axCl ↑a) = true ∧ ((s.dev.tile ↑a).delaying = false ∨
      (s.dev.cluster (axCl ↑a)).ref ≠ s.dev.windowFrom (↑a) (s.dev.tile ↑a).evt)) ∧
    (∃ (a : Fin 64), ∃ (s : State), s.dev.clusterRuns (axCl ↑a) = true ∧ (s.dev.tile ↑a).opened = true ∧
      (s.dev.cluster (axCl ↑a)).ref = s.dev.windowTill (↑a) (s.dev.tile ↑a).evt ∧
      ¬(s.dev.cluster (axCl ↑a)).ref ∈ (s.dev.tile ↑a).lost ∧ ∃ (b0 : ChanBits), ∃ (b1 : ChanBits),
      ∃ (b2 : ChanBits), True) ∧
    (∃ (a : Fin 64), ∃ (s : State), s.dev.clusterRuns (axCl ↑a) = true ∧
      (s.dev.cluster (axCl ↑a)).ref ∈ (s.dev.tile ↑a).lost ∧ s.dev.axSt ↑a = stArmed ∧
      (inMask (s.dev.curWords (s.dev.axLane ↑a) (s.dev.axSlotNo ↑a))).drw = true ∧ s.dev.windowDone ↑a = false ∧
      s.dev.fld (AXS_MISS_CFG ↑a) AXS_MISS_CFG_miss_limit ≤ s.dev.fld (AXS_MISS_STAT ↑a) AXS_MISS_STAT_cons_miss ∧
      ∃ (b0 : ChanBits), ∃ (b1 : ChanBits), ∃ (b2 : ChanBits), True) ∧
    (∃ (a : Fin 64), ∃ (s : State), s.dev.clusterRuns (axCl ↑a) = true ∧ s.dev.windowDone ↑a = false ∧
      (s.dev.tile ↑a).lost = [] ∧ ∃ (b0 : ChanBits), ∃ (b1 : ChanBits), ∃ (b2 : ChanBits), True) ∧
    (∃ (a : Fin 64), ∃ (s : State), s.dev.clusterRuns (axCl ↑a) = true ∧ ∃ (smp : Nat), ∃ (p0 : PortIn),
      (s.dev.axis ↑a).smp = some (smp, p0) ∧ (s.dev.cluster (axCl ↑a)).ref = (s.dev.axis ↑a).smpRef + 4) ∧
    (∃ (a : Fin 64), ∃ (s : State), s.dev.clusterRuns (axCl ↑a) = true ∧ ∃ (smp : Nat), ∃ (p : PortIn),
      (s.dev.axis ↑a).smp = some (smp, p) ∧ (s.dev.cluster (axCl ↑a)).ref = (s.dev.axis ↑a).smpRef + 8 ∧
      s.dev.axSt ↑a ≠ stRetired ∧ (s.dev.lane (s.dev.axLane ↑a)).paired = false ∧
      fget PLN_SLOT_CFG_valid (s.dev.axSlot ↑a).cfg = 1 ∧ (s.dev.lane (s.dev.axLane ↑a)).cur = none ∧
      s.dev.lawsRun ↑a = true ∧ (inMask (s.dev.curWords (s.dev.axLane ↑a) (s.dev.axSlotNo ↑a))).met p = true) ∧
    (∃ (n : Fin 16), ∃ (s : State), s.dev.clusterRuns (↑n / 4) = true ∧ (s.dev.lane ↑n).cur = none ∧
      (s.dev.lane ↑n).job = none ∧ (s.dev.lane ↑n).released ≠ []) ∧
    (∃ (n : Fin 16), ∃ (s : State), ∃ (j : LawRun), (s.dev.lane ↑n).job = some j ∧ s.dev.clusterRuns (↑n / 4) = true ∧
      (∀ (x : LawRun), x ∈ (s.dev.lane ↑n).released → j.deadline ≤ x.deadline) ∧
      j.deadline ≤ (s.dev.cluster (↑n / 4)).ref) :=
  ⟨⟨0, (sAx 3 fun d => at_ (d.windowFrom 0 7) (d.modTile 0 fun t => { t with delaying := true, evt := 7 })),
     by decide⟩,
   ⟨0, (sAx 1 id), by decide⟩,
   ⟨0, (sAx 3 fun d => at_ (d.windowTill 0 7) (d.modTile 0 fun t => { t with opened := true, evt := 7 })), by decide,
     by decide, by decide, by decide, (⟨[], []⟩ : ChanBits), (⟨[], []⟩ : ChanBits), (⟨[], []⟩ : ChanBits),
     by decide⟩,
   ⟨0,
     (sAx 2 fun d => (at_ 55 ((((d.setF (AXS_MISS_STAT 0) AXS_MISS_STAT_cons_miss 4).setF (AXS_MISS_CFG 0) AXS_MISS_CFG_miss_limit 3).modTile 0 fun t => { t with lost := [55, 60] }))).modLane 1 fun l => { l with law := ⟨[(0, lw 5 0 0 0 0 0 0 false false)]⟩ }),
     by decide, by decide, by decide, by decide, by decide, by decide, (⟨[], []⟩ : ChanBits), (⟨[],
     []⟩ : ChanBits), (⟨[], []⟩ : ChanBits), by decide⟩,
   ⟨0, (sAx 1 id), by decide, by decide, by decide, (⟨[], []⟩ : ChanBits), (⟨[], []⟩ : ChanBits), (⟨[],
     []⟩ : ChanBits), by decide⟩,
   ⟨0,
     (sAx 3 fun d => at_ 74 ((d.wr (AXS_SEG_SETP 0) 77).modAxis 0 fun x => { x with smpRef := 70, smp := some (100, PortIn.none) })),
     by decide, _, _, rfl, by decide⟩,
   ⟨0, (sAx 2 fun d => at_ 78 (d.modAxis 0 fun x => { x with smpRef := 70, smp := some (100, PortIn.none) })),
     by decide, _, _, rfl, by decide⟩,
   ⟨0,
     (run fun d => d.modLane 0 fun l => { l with released := [{ aRun .velocity with deadline := 12 }, aRun .velocity] }),
     by decide⟩,
   ⟨0, (run fun d => at_ 9 (d.modLane 0 fun l => { l with job := some (aRun .velocity), publish := [(3, 4)] })), _,
     rfl, by decide⟩⟩

theorem meets_AdmissionCommits :
    (∃ (w : Writer), ∃ (c : Fin 4), ∃ (v : Word), ∃ (s : State), s.dev.clusterRuns ↑c = true ∧
      s.dev.accepts w (PLN_COMMIT ↑c) = true) ∧
    (∃ (n : Fin 16), ∃ (s : State), s.dev.clusterRuns (↑n / 4) = true ∧ (s.dev.lane ↑n).paired = false ∧
      (s.dev.lane (↑n / 2 * 2)).pairReq = 0 ∧ (s.dev.laneClear ↑n = false ∨ ∀ (k : Nat),
      k < 4 → (s.dev.fld (PLN_COMMIT (↑n / 4)) PLN_COMMIT_slots).testBit (↑n % 4 * 4 + k) = false)) ∧
    (∃ (n : Fin 16), ∃ (s : State), s.dev.clusterRuns (↑n / 4) = true ∧ (s.dev.lane ↑n).paired = false ∧
      (s.dev.lane (↑n / 2 * 2)).pairReq = 0 ∧ s.dev.laneClear ↑n = true ∧ ∃ (k : Nat), k < 4 ∧
      (s.dev.fld (PLN_COMMIT (↑n / 4)) PLN_COMMIT_slots).testBit (↑n % 4 * 4 + k) = true) :=
  ⟨⟨.dap, 0, 0, (sAx 1 id), by decide⟩,
   ⟨1, (sAx 1 id), by decide⟩,
   ⟨1,
     (run fun d => (d.wr (PLN_COMMIT 0) 0x00000060).wr (PLN_SLOT_CFG 1 2) (fput PLN_SLOT_CFG_laxis (fput PLN_SLOT_CFG_valid 0 1) 3)),
     by decide, by decide, by decide, by decide, 1, by decide⟩⟩

theorem meets_LaneStoresFollowTheirGuards :
    (∃ (w : Writer), ∃ (c : Fin 4), ∃ (v : Word), ∃ (s : State), s.dev.clusterRuns ↑c = true ∧
      s.dev.accepts w (PLN_LS_DATA_HI ↑c) = true) ∧
    (∃ (c : Fin 4), ∃ (s : State), s.dev.clusterRuns ↑c = true) ∧
    (∃ (w : Writer), ∃ (n : Fin 16), ∃ (k : Fin 4), ∃ (i : Fin 256), ∃ (v : Word), ∃ (s : State),
      s.dev.clusterRuns (↑n / 4) = true ∧ benchLike w = true ∧ ∀ (a : Nat),
      s.dev.slotOwner ↑n ↑k = some a → s.dev.lawsRun a = false) ∧
    (∃ (w : Writer), ∃ (n : Fin 16), ∃ (k : Fin 4), ∃ (i : Fin 256), ∃ (v : Word), ∃ (s : State),
      s.dev.clusterRuns (↑n / 4) = true ∧ benchLike w = true ∧ ∃ (a : Nat), s.dev.slotOwner ↑n ↑k = some a ∧
      s.dev.lawsRun a = true) ∧
    (∃ (w : Writer), ∃ (n : Fin 16), ∃ (k : Fin 4), ∃ (i : Fin 256), ∃ (v : Word), ∃ (s : State),
      s.dev.clusterRuns (↑n / 4) = true ∧ benchLike w = false) ∧
    (∃ (w : Writer), ∃ (n : Fin 16), ∃ (k : Fin 4), ∃ (i : Fin 256), ∃ (v : Word), ∃ (s : State),
      s.dev.clusterRuns (↑n / 4) = true ∧ (192 ≤ ↑i ∨ ∃ (a : Nat), s.dev.slotOwner ↑n ↑k = some a ∧
      s.dev.axSt a = stAdmitted)) ∧
    (∃ (w : Writer), ∃ (n : Fin 16), ∃ (k : Fin 4), ∃ (i : Fin 256), ∃ (v : Word), ∃ (s : State),
      s.dev.clusterRuns (↑n / 4) = true ∧ ↑i < 192 ∧ ∀ (a : Nat),
      s.dev.slotOwner ↑n ↑k = some a → s.dev.axSt a ≠ stAdmitted) :=
  ⟨⟨.dap, 0, 0, (sAx 0 id), by decide⟩,
   ⟨0, (sAx 0 id), by decide⟩,
   ⟨.dap, 1, 0, 0, 0, (sAx 0 id), by decide⟩,
   ⟨.dap, 1, 2, 0, 0, (sAx 3 id), by decide, by decide, _, rfl, by decide⟩,
   ⟨.host, 1, 0, 0, 0, (sAx 0 id), by decide⟩,
   ⟨.host, 1, 0, 192, 0, (sAx 0 id), by decide⟩,
   ⟨.host, 1, 0, 0, 0, (sAx 0 id), by decide⟩⟩

theorem meets_AxisRequests_1 :
    (∃ (w : Writer), ∃ (a : Fin 64), ∃ (s : State), s.dev.clusterRuns (axCl ↑a) = true ∧
      s.dev.accepts w (AXS_CTL ↑a) = true ∧ s.dev.axSt ↑a = stAdmitted ∧ s.dev.axBusy ↑a = false ∧
      s.dev.rd (AXS_CAUSE_ACT ↑a) = 0) ∧
    (∃ (w : Writer), ∃ (a : Fin 64), ∃ (s : State), s.dev.clusterRuns (axCl ↑a) = true ∧
      s.dev.accepts w (AXS_CTL ↑a) = true ∧ (s.dev.axSt ↑a = stAdmitted ∨ s.dev.axSt ↑a = stArmed) ∧
      s.dev.axBusy ↑a = false ∧ s.dev.rd (AXS_CAUSE_ACT ↑a) = 0) ∧
    (∃ (w : Writer), ∃ (a : Fin 64), ∃ (s : State), s.dev.clusterRuns (axCl ↑a) = true ∧
      s.dev.accepts w (AXS_CTL ↑a) = true ∧ s.dev.axSt ↑a = stEnabled ∧ s.dev.axBusy ↑a = false) ∧
    (∃ (w : Writer), ∃ (a : Fin 64), ∃ (s : State), s.dev.clusterRuns (axCl ↑a) = true ∧
      s.dev.accepts w (AXS_CTL ↑a) = true ∧ s.dev.axSt ↑a = stEnabled ∧ s.dev.axBusy ↑a = false ∧
      s.dev.posEnabled ↑a = true ∧ s.dev.rd (AXS_RAMP_DECEL ↑a) ≠ 0) ∧
    (∃ (w : Writer), ∃ (a : Fin 64), ∃ (s : State), s.dev.clusterRuns (axCl ↑a) = true ∧
      s.dev.accepts w (AXS_CTL ↑a) = true ∧ s.dev.axSt ↑a = stEnabled ∧ s.dev.axBusy ↑a = false ∧
      (s.dev.posEnabled ↑a = false ∨ s.dev.rd (AXS_RAMP_DECEL ↑a) = 0)) ∧
    (∃ (w : Writer), ∃ (a : Fin 64), ∃ (s : State), s.dev.clusterRuns (axCl ↑a) = true ∧
      s.dev.accepts w (AXS_CTL ↑a) = true ∧ s.dev.axSt ↑a = stArmed ∧ s.dev.axBusy ↑a = false) ∧
    (∃ (w : Writer), ∃ (a : Fin 64), ∃ (s : State), s.dev.clusterRuns (axCl ↑a) = true ∧
      s.dev.accepts w (AXS_CTL ↑a) = true ∧ s.dev.axSt ↑a = stFaulted ∧ (s.dev.axis ↑a).retiring = false ∧
      s.dev.flag (AXS_STATE ↑a) AXS_STATE_resp_done = true ∧ s.dev.rd (AXS_CAUSE_ACT ↑a) = 0 ∧
      (s.dev.axis ↑a).actEnd ≠ some s.dev.now) ∧
    (∃ (w : Writer), ∃ (a : Fin 64), ∃ (s : State), s.dev.clusterRuns (axCl ↑a) = true ∧
      s.dev.accepts w (AXS_CTL ↑a) = true ∧ s.dev.axSt ↑a ≠ stAdmitted) ∧
    (∃ (w : Writer), ∃ (a : Fin 64), ∃ (s : State), s.dev.clusterRuns (axCl ↑a) = true ∧
      s.dev.accepts w (AXS_CTL ↑a) = true ∧ s.dev.axSt ↑a ≠ stAdmitted ∧ s.dev.axSt ↑a ≠ stArmed) ∧
    (∃ (w : Writer), ∃ (a : Fin 64), ∃ (s : State), s.dev.clusterRuns (axCl ↑a) = true ∧
      s.dev.accepts w (AXS_CTL ↑a) = true ∧ s.dev.axSt ↑a ≠ stEnabled) :=
  ⟨⟨.dap, 0, (sAx 1 id), by decide⟩,
   ⟨.dap, 0, (sAx 1 id), by decide⟩,
   ⟨.dap, 0, (sAx 3 id), by decide⟩,
   ⟨.dap, 0, (sAx 3 fun d => d.wr (AXS_RAMP_DECEL 0) 5), by decide⟩,
   ⟨.dap, 0, (sAx 3 id), by decide⟩,
   ⟨.dap, 0, (sAx 2 id), by decide⟩,
   ⟨.dap, 0, (sAx 4 fun d => (d.setB (AXS_STATE 0) AXS_STATE_resp_done true).wr (AXS_CAUSE_SEEN 0) 0x4000),
     by decide⟩,
   ⟨.dap, 0, (sAx 0 id), by decide⟩,
   ⟨.dap, 0, (sAx 0 id), by decide⟩,
   ⟨.dap, 0, (sAx 0 id), by decide⟩⟩

theorem meets_AxisRequests_2 :
    (∃ (w : Writer), ∃ (a : Fin 64), ∃ (s : State), s.dev.clusterRuns (axCl ↑a) = true ∧
      s.dev.accepts w (AXS_CTL ↑a) = true ∧ s.dev.axSt ↑a ≠ stArmed) ∧
    (∃ (w : Writer), ∃ (a : Fin 64), ∃ (s : State), s.dev.clusterRuns (axCl ↑a) = true ∧
      s.dev.accepts w (AXS_CTL ↑a) = true ∧ s.dev.axSt ↑a ≠ stFaulted) ∧
    (∃ (w : Writer), ∃ (a : Fin 64), ∃ (s : State), s.dev.clusterRuns (axCl ↑a) = true ∧
      s.dev.accepts w (AXS_CTL ↑a) = false) :=
  ⟨⟨.dap, 0, (sAx 0 id), by decide⟩,
   ⟨.dap, 0, (sAx 0 id), by decide⟩,
   ⟨.host, 0, (sAx 0 id), by decide⟩⟩

theorem meets_AxisFaultsAndRamps :
    (∃ (w : Writer), ∃ (a : Fin 64), ∃ (v : Word), ∃ (s : State), s.dev.clusterRuns (axCl ↑a) = true ∧
      fget AXS_FAULT_REQ_cause v ≠ 14) ∧
    (∃ (w : Writer), ∃ (a : Fin 64), ∃ (v : Word), ∃ (s : State), s.dev.clusterRuns (axCl ↑a) = true ∧
      fget AXS_FAULT_REQ_cause v = 14 ∧ s.dev.axSt ↑a = stRetired) ∧
    (∃ (w : Writer), ∃ (a : Fin 64), ∃ (v : Word), ∃ (s : State), s.dev.clusterRuns (axCl ↑a) = true ∧
      fget AXS_FAULT_REQ_cause v = 14 ∧ s.dev.axSt ↑a ≠ stRetired) ∧
    (∃ (a : Fin 64), ∃ (s : State), s.dev.clusterRuns (axCl ↑a) = true ∧ s.dev.ramping ↑a = true ∧ (1,
      (s.dev.axis ↑a).rampHold = true ∧
      s.dev.fld (AXS_RAMP_HOLD ↑a) AXS_RAMP_HOLD_ramp_hold * 800 ≤ (s.dev.cluster (axCl ↑a)).ref - (s.dev.axis ↑a).rampHoldT).snd) :=
  ⟨⟨.host, 0, 0, (sAx 0 id), by decide⟩,
   ⟨.host, 0, 0x0E, (sAx 0 id), by decide⟩,
   ⟨.host, 0, 0x0E, (sAx 1 id), by decide⟩,
   ⟨0, (sRamp 3 1 true), by decide⟩⟩

theorem meets_DrawplateClocksAndSettings_1 :
    (∃ (w : Writer), ∃ (n : Fin 16), ∃ (v : Word), ∃ (s : State), s.dev.clusterRuns (↑n / 4) = true ∧
      s.dev.flag (DRW_CLK ↑n) DRW_CLK_running = true ∧
      fget DRW_CLK_clk_div v ≠ s.dev.fld (DRW_CLK ↑n) DRW_CLK_clk_div) ∧
    (∃ (w : Writer), ∃ (n : Fin 16), ∃ (v : Word), ∃ (s : State), s.dev.clusterRuns (↑n / 4) = true ∧
      s.dev.flag (DRW_CLK ↑n) DRW_CLK_running = false ∧ s.dev.flag (DRW_CLK ↑n) DRW_CLK_en = false ∧
      ¬↑n ∈ s.dev.draining ∧ fget DRW_CLK_en v = 1 ∧ s.dev.sound (DRW_CLK ↑n) v) ∧
    (∃ (w : Writer), ∃ (n : Fin 16), ∃ (v : Word), ∃ (s : State), s.dev.clusterRuns (↑n / 4) = true ∧
      s.dev.flag (DRW_CLK ↑n) DRW_CLK_running = true ∧ s.dev.flag (DRW_CLK ↑n) DRW_CLK_en = true ∧
      fget DRW_CLK_en v = 0 ∧ fget DRW_CLK_clk_div v = s.dev.fld (DRW_CLK ↑n) DRW_CLK_clk_div ∧
      s.dev.sound (DRW_CLK ↑n) v) ∧
    (∃ (w : Writer), ∃ (n : Fin 16), ∃ (v : Word), ∃ (s : State), s.dev.clusterRuns (↑n / 4) = true ∧
      ↑n ∈ s.dev.draining ∧ s.dev.sdcWrap ↑n = true) ∧
    (∃ (w : Writer), ∃ (n : Fin 16), ∃ (v : Word), ∃ (s : State), s.dev.clusterRuns (↑n / 4) = true ∧
      (¬↑n ∈ s.dev.draining ∨ s.dev.sdcWrap ↑n = false)) ∧
    (∃ (w : Writer), ∃ (n : Fin 16), ∃ (v : Word), ∃ (s : State), s.dev.clusterRuns (↑n / 4) = true ∧
      s.dev.flag (DRW_CLK ↑n) DRW_CLK_running = true) ∧
    (∃ (w : Writer), ∃ (n : Fin 16), ∃ (v : Word), ∃ (s : State), s.dev.clusterRuns (↑n / 4) = true ∧
      s.dev.flag (DRW_CLK ↑n) DRW_CLK_clk_lost = true) ∧
    (∃ (w : Writer), ∃ (h : Fin 192), ∃ (v : Word), ∃ (s : State), s.dev.clusterRuns (↑h / 48) = true ∧
      s.dev.accepts w (DRW_OC_CFG ↑h) = true ∧ s.dev.axSt (↑h / 3) ≠ stRetired ∧
      fget DRW_OC_CFG_oc_osr v ≠ s.dev.fld (DRW_OC_CFG ↑h) DRW_OC_CFG_oc_osr) ∧
    (∃ (w : Writer), ∃ (h : Fin 192), ∃ (v : Word), ∃ (s : State), s.dev.clusterRuns (↑h / 48) = true ∧
      (s.dev.accepts w (DRW_OC_CFG ↑h) = false ∨ s.dev.axSt (↑h / 3) = stRetired ∨
      fget DRW_OC_CFG_oc_osr v = s.dev.fld (DRW_OC_CFG ↑h) DRW_OC_CFG_oc_osr)) ∧
    (∃ (w : Writer), ∃ (h : Fin 192), ∃ (v : Word), ∃ (s : State), s.dev.clusterRuns (↑h / 48) = true ∧
      s.dev.accepts w (DRW_OC_TH ↑h) = true ∧ sx 16 (fget DRW_OC_TH_hi_th v) ≤ sx 16 (fget DRW_OC_TH_lo_th v)) :=
  ⟨⟨.dap, 0, 0, (sR 0 [(DRW_CLK 0, 0xC0000028), (DRW_CH_CFG 0, 0x90000F00)] id), by decide⟩,
   ⟨.dap, 0, 0x80000028, (sR 0 [] id), by decide, by decide, by decide, by decide, by decide, sound_of (by decide)⟩,
   ⟨.dap, 0, 0x28, (sR 0 [(DRW_CLK 0, 0xC0000028), (DRW_CH_CFG 0, 0x90000F00)] id), by decide, by decide, by decide,
     by decide, by decide, sound_of (by decide)⟩,
   ⟨.dap, 0, 0, (sR 0 [(DRW_CLK 0, 0x40000005)] fun d => at_ 10 { d with draining := [0] }), by decide⟩,
   ⟨.dap, 0, 0, (sR 0 [] id), by decide⟩,
   ⟨.dap, 0, 0, (sR 0 [(DRW_CLK 0, 0xC0000028), (DRW_CH_CFG 0, 0x90000F00)] id), by decide⟩,
   ⟨.dap, 0, 0, (sR 0 [(DRW_CLK 0, 0xF0000005)] id), by decide⟩,
   ⟨.dap, 0, 0, (sR 3 [] id), by decide⟩,
   ⟨.dap, 0, 0, (sR 0 [] id), by decide⟩,
   ⟨.dap, 0, 0, (sR 0 [] id), by decide⟩⟩

theorem meets_DrawplateClocksAndSettings_2 :
    (∃ (w : Writer), ∃ (h : Fin 192), ∃ (v : Word), ∃ (s : State), s.dev.clusterRuns (↑h / 48) = true ∧
      (s.dev.accepts w (DRW_OC_TH ↑h) = false ∨ sx 16 (fget DRW_OC_TH_lo_th v) < sx 16 (fget DRW_OC_TH_hi_th v))) ∧
    (∃ (w : Writer), ∃ (h : Fin 192), ∃ (v : Word), ∃ (s : State), s.dev.clusterRuns (↑h / 48) = true ∧
      s.dev.axSt (↑h / 3) ≠ stRetired ∧ v ≠ s.dev.rd (DRW_CH_CFG ↑h)) ∧
    (∃ (w : Writer), ∃ (h : Fin 192), ∃ (v : Word), ∃ (s : State), s.dev.clusterRuns (↑h / 48) = true ∧
      s.dev.axSt (↑h / 3) = stRetired ∧ s.dev.sound (DRW_CH_CFG ↑h) v ∧
      s.dev.flag (DRW_CH_CFG ↑h) DRW_CH_CFG_ch_en = false ∧ fget DRW_CH_CFG_ch_en v = 1) ∧
    (∃ (w : Writer), ∃ (h : Fin 192), ∃ (v : Word), ∃ (s : State), s.dev.clusterRuns (↑h / 48) = true ∧
      s.dev.axSt (↑h / 3) = stRetired ∧ s.dev.sound (DRW_CH_CFG ↑h) v ∧
      fget DRW_CH_CFG_ch_en v = s.dev.fld (DRW_CH_CFG ↑h) DRW_CH_CFG_ch_en) ∧
    (∃ (w : Writer), ∃ (h : Fin 192), ∃ (v : Word), ∃ (s : State), s.dev.clusterRuns (↑h / 48) = true ∧
      s.dev.axSt (↑h / 3) = stRetired ∧ s.dev.sound (DRW_CH_CFG ↑h) v ∧
      s.dev.flag (DRW_CH_CFG ↑h) DRW_CH_CFG_ch_en = true ∧ fget DRW_CH_CFG_ch_en v = 0) :=
  ⟨⟨.dap, 0, 0x00100000, (sR 0 [] id), by decide⟩,
   ⟨.dap, 0, 0, (sR 3 [] id), by decide⟩,
   ⟨.dap, 0, 0x90000F00, (sR 0 [] id), by decide, by decide, sound_of (by decide), by decide⟩,
   ⟨.dap, 0, 0x90000F00, (sR 0 [(DRW_CLK 0, 0xC0000028), (DRW_CH_CFG 0, 0x90000F00)] id), by decide, by decide,
     sound_of (by decide), by decide⟩,
   ⟨.dap, 0, 0x10000F00, (sR 0 [(DRW_CLK 0, 0xC0000028), (DRW_CH_CFG 0, 0x90000F00)] id), by decide, by decide,
     sound_of (by decide), by decide⟩⟩

theorem meets_DrawplateChannels :
    (∃ (h : Fin 192), ∃ (b : ChanBits), ∃ (s : State), s.dev.clusterRuns (↑h / 48) = true ∧
      s.dev.fld (DRW_CH_CFG ↑h) DRW_CH_CFG_win_mode ≠ 1 ∧ s.dev.flag (DRW_CH_CFG ↑h) DRW_CH_CFG_ch_en = true ∧
      s.dev.captureNow ↑h = true ∧
      ((s.dev.chan ↑h).prior + s.dev.captures (↑h) ((s.dev.chan ↑h).since + 1) (s.dev.chanRef ↑h + 1)) % s.dev.chanOsr ↑h = 0) ∧
    (∃ (h : Fin 192), ∃ (b : ChanBits), ∃ (s : State), s.dev.clusterRuns (↑h / 48) = true ∧
      (s.dev.fld (DRW_CH_CFG ↑h) DRW_CH_CFG_win_mode = 1 ∨ s.dev.flag (DRW_CH_CFG ↑h) DRW_CH_CFG_ch_en = false ∨
      ¬(s.dev.captureNow ↑h = true ∧
      ((s.dev.chan ↑h).prior + s.dev.captures (↑h) ((s.dev.chan ↑h).since + 1) (s.dev.chanRef ↑h + 1)) % s.dev.chanOsr ↑h = 0))) ∧
    (∃ (h : Fin 192), ∃ (b : ChanBits), ∃ (s : State), s.dev.clusterRuns (↑h / 48) = true ∧
      s.dev.flag (DRW_CH_CFG ↑h) DRW_CH_CFG_ch_en = true) ∧
    (∃ (h : Fin 192), ∃ (b : ChanBits), ∃ (s : State), s.dev.clusterRuns (↑h / 48) = true ∧ ∃ (y : Nat × Int),
      (s.dev.ocOutputs (↑h) (s.dev.bitsFor (↑h) (s.dev.captureBack (↑h) (s.dev.fld (DRW_OC_CFG ↑h) DRW_OC_CFG_oc_qual_m1 + 1)) (s.dev.chanRef ↑h + 1) b)).getLast? = some y ∧
      s.dev.ocTakes ↑h = true ∧ ((s.dev.chan ↑h).oc ≠ 0 ∨
      (s.dev.bitsFor (↑h) (s.dev.captureBack (↑h) (s.dev.fld (DRW_OC_CFG ↑h) DRW_OC_CFG_oc_qual_m1 + 1)) (s.dev.chanRef ↑h + 1) b).inside.length ≠ s.dev.fld (DRW_OC_CFG ↑h) DRW_OC_CFG_oc_qual_m1 + 1 ∨
      s.dev.captures (↑h) ((s.dev.chan ↑h).ocSince + 1) (s.dev.chanRef ↑h + 1) < s.dev.fld (DRW_OC_CFG ↑h) DRW_OC_CFG_oc_qual_m1 + 1 ∨
      ∃ (z : Nat × Int),
      z ∈ s.dev.ocOutputs (↑h) (s.dev.bitsFor (↑h) (s.dev.captureBack (↑h) (s.dev.fld (DRW_OC_CFG ↑h) DRW_OC_CFG_oc_qual_m1 + 1)) (s.dev.chanRef ↑h + 1) b) ∧
      (z.fst < 2 * s.dev.fld (DRW_OC_CFG ↑h) DRW_OC_CFG_oc_osr ∨ s.dev.ocBeyond (↑h) z.snd = 0))) ∧
    (∃ (h : Fin 192), ∃ (b : ChanBits), ∃ (s : State), s.dev.clusterRuns (↑h / 48) = true ∧ ∃ (y : Nat × Int),
      (s.dev.ocOutputs (↑h) (s.dev.bitsFor (↑h) (s.dev.captureBack (↑h) (s.dev.fld (DRW_OC_CFG ↑h) DRW_OC_CFG_oc_qual_m1 + 1)) (s.dev.chanRef ↑h + 1) b)).getLast? = some y ∧
      s.dev.ocTakes ↑h = true ∧ (s.dev.chan ↑h).oc = 0 ∧
      (s.dev.bitsFor (↑h) (s.dev.captureBack (↑h) (s.dev.fld (DRW_OC_CFG ↑h) DRW_OC_CFG_oc_qual_m1 + 1)) (s.dev.chanRef ↑h + 1) b).inside.length = s.dev.fld (DRW_OC_CFG ↑h) DRW_OC_CFG_oc_qual_m1 + 1 ∧
      s.dev.fld (DRW_OC_CFG ↑h) DRW_OC_CFG_oc_qual_m1 + 1 ≤ s.dev.captures (↑h) ((s.dev.chan ↑h).ocSince + 1) (s.dev.chanRef ↑h + 1) ∧
      ∀ (z : Nat × Int),
      z ∈ s.dev.ocOutputs (↑h) (s.dev.bitsFor (↑h) (s.dev.captureBack (↑h) (s.dev.fld (DRW_OC_CFG ↑h) DRW_OC_CFG_oc_qual_m1 + 1)) (s.dev.chanRef ↑h + 1) b) → 2 * s.dev.fld (DRW_OC_CFG ↑h) DRW_OC_CFG_oc_osr ≤ z.fst ∧
      s.dev.ocBeyond (↑h) z.snd ≠ 0) ∧
    (∃ (h : Fin 192), ∃ (b : ChanBits), ∃ (s : State), s.dev.clusterRuns (↑h / 48) = true ∧ ∃ (y : Nat × Int),
      (s.dev.ocOutputs (↑h) (s.dev.bitsFor (↑h) (s.dev.chanRef ↑h) (s.dev.chanRef ↑h + 1) b)).getLast? = some y ∧
      s.dev.ocTakes ↑h = true ∧ ((s.dev.chan ↑h).oc = 0 ∨
      y.fst < 2 * s.dev.fld (DRW_OC_CFG ↑h) DRW_OC_CFG_oc_osr ∨ s.dev.ocBeyond (↑h) y.snd ≠ 0)) ∧
    (∃ (h : Fin 192), ∃ (b : ChanBits), ∃ (s : State), s.dev.clusterRuns (↑h / 48) = true ∧ ∃ (y : Nat × Int),
      (s.dev.ocOutputs (↑h) (s.dev.bitsFor (↑h) (s.dev.chanRef ↑h) (s.dev.chanRef ↑h + 1) b)).getLast? = some y ∧
      s.dev.ocTakes ↑h = true ∧ (s.dev.chan ↑h).oc ≠ 0 ∧ 2 * s.dev.fld (DRW_OC_CFG ↑h) DRW_OC_CFG_oc_osr ≤ y.fst ∧
      s.dev.ocBeyond (↑h) y.snd = 0) :=
  ⟨⟨0, (⟨[], []⟩ : ChanBits), (sR 0 [(DRW_CH_CFG 0, 0x90000100), (DRW_CLK 0, 0xC0000005)] (at_ 40)), by decide⟩,
   ⟨0, (⟨[], []⟩ : ChanBits), (sR 3 [(DRW_CH_CFG 0, 0x90000100), (DRW_CLK 0, 0xC0000005), (DRW_OC_CFG 0, 0x40010000),
     (DRW_OC_TH 0, 0x00100001)] (at_ 45)), by decide⟩,
   ⟨0, (⟨[], []⟩ : ChanBits), (sR 0 [(DRW_CH_CFG 0, 0x90000100), (DRW_CLK 0, 0xC0000005)] (at_ 40)), by decide⟩,
   ⟨0, (⟨[], []⟩ : ChanBits), (sR 0 [(DRW_CH_CFG 0, 0x90000100), (DRW_CLK 0, 0xC0000005)] (at_ 40)), by decide, _,
     rfl, by decide⟩,
   ⟨0, ⟨List.replicate 8 true, [true]⟩, (sR 3 [(DRW_CH_CFG 0, 0x90000100), (DRW_CLK 0, 0xC0000005), (DRW_OC_CFG 0,
     0x00020000), (DRW_OC_TH 0, 0x00100001)] (at_ 40)), by decide, _, rfl, by decide⟩,
   ⟨0, (⟨[], []⟩ : ChanBits), (sR 0 [(DRW_CH_CFG 0, 0x90000100), (DRW_CLK 0, 0xC0000005)] (at_ 40)), by decide, _,
     rfl, by decide⟩,
   ⟨0, (⟨[true, true, true, true, true, true, true], [true]⟩ : ChanBits), (sR 3 [(DRW_CH_CFG 0, 0x90000100),
     (DRW_CLK 0, 0xC0000005), (DRW_OC_CFG 0, 0x80010000), (DRW_OC_TH 0,
     0x7FFF8001)] fun d => at_ 40 (d.modChan 0 fun c => { c with oc := 1 })), by decide, _, rfl, by decide⟩⟩

theorem meets_CarrierEventsAndSwitchEdges :
    (∃ (a : Fin 64), ∃ (s : State), s.dev.clusterRuns (axCl ↑a) = true ∧ ((if (true, 32,
      s.dev.periodActive ↑a).fst = true then s.dev.atPeak ↑a else s.dev.atValley ↑a) && !s.dev.carrierDone ↑a) = false) ∧
    (∃ (a : Fin 64), ∃ (s : State), s.dev.clusterRuns (axCl ↑a) = true ∧ ((if (true, 32,
      s.dev.periodActive ↑a).fst = true then s.dev.atPeak ↑a else s.dev.atValley ↑a) && !s.dev.carrierDone ↑a) = true) ∧
    (∃ (a : Fin 64), ∃ (s : State), s.dev.clusterRuns (axCl ↑a) = true ∧ ((if (false, 48,
      s.dev.periodActive ↑a).fst = true then s.dev.atPeak ↑a else s.dev.atValley ↑a) && !s.dev.carrierDone ↑a) = false) ∧
    (∃ (a : Fin 64), ∃ (s : State), s.dev.clusterRuns (axCl ↑a) = true ∧ ((if (false, 48,
      s.dev.periodActive ↑a).fst = true then s.dev.atPeak ↑a else s.dev.atValley ↑a) && !s.dev.carrierDone ↑a) = true) ∧
    (∃ (a : Fin 64), ∃ (ph : Fin 3), ∃ (low : Bool), ∃ (s : State), s.dev.clusterRuns (axCl ↑a) = true ∧ ∃ (x : Nat),
      (s.dev.pwm ↑a).riseOf (switchBit (↑ph) low) = some x ∧ (s.dev.outMode ↑a = 1 ∧
      (s.dev.command ↑a ↑ph != low) = true ∨ s.dev.outMode ↑a = 2 ∧ low = true) ∧ x < s.dev.tapNow ↑a + 32 ∧
      (s.dev.pwm ↑a).on.testBit (switchBit (↑ph) low) = false ∧
      (s.dev.pwm ↑a).on.testBit (switchBit ↑ph !low) = false) ∧
    (∃ (a : Fin 64), ∃ (ph : Fin 3), ∃ (low : Bool), ∃ (s : State), s.dev.clusterRuns (axCl ↑a) = true ∧
      (s.dev.outMode ↑a = 0 ∨ (s.dev.pwm ↑a).on.testBit (switchBit ↑ph !low) = true ∨
      (s.dev.pwm ↑a).riseOf (switchBit (↑ph) low) = none ∨ (∃ (x : Nat),
      (s.dev.pwm ↑a).riseOf (switchBit (↑ph) low) = some x ∧ s.dev.tapNow ↑a + 32 ≤ x) ∨ s.dev.outMode ↑a = 1 ∧
      (s.dev.command ↑a ↑ph != low) = false)) ∧
    (∃ (a : Fin 64), ∃ (ph : Fin 3), ∃ (low : Bool), ∃ (s : State), s.dev.clusterRuns (axCl ↑a) = true ∧
      s.dev.outMode ↑a = 1 ∧ (s.dev.command ↑a ↑ph != low) = false ∧
      (s.dev.pwm ↑a).dropped.testBit (switchBit ↑ph !low) = false ∧ (s.dev.pulseShort ↑a ↑ph !low) = false ∧
      (s.dev.pwm ↑a).on.testBit (switchBit (↑ph) low) = true ∧ ∀ (x : Nat × Nat),
      x ∈ (s.dev.pwm ↑a).keep → x.fst ≠ switchBit (↑ph) low) ∧
    (∃ (a : Fin 64), ∃ (ph : Fin 3), ∃ (low : Bool), ∃ (s : State), s.dev.clusterRuns (axCl ↑a) = true ∧
      s.dev.outMode ↑a = 1 ∧ ((s.dev.command ↑a ↑ph != low) = true ∨
      (s.dev.pwm ↑a).dropped.testBit (switchBit ↑ph !low) = true ∨ (∃ (x : Nat × Nat), x ∈ (s.dev.pwm ↑a).keep ∧
      x.fst = switchBit (↑ph) low ∧ s.dev.tapNow ↑a + 32 ≤ x.snd) ∧ (s.dev.pulseShort ↑a ↑ph !low) = false)) ∧
    (∃ (a : Fin 64), ∃ (ph : Fin 3), ∃ (low : Bool), ∃ (s : State), s.dev.clusterRuns (axCl ↑a) = true ∧
      ((s.dev.pwm ↑a).on.testBit (switchBit (↑ph) low) && (s.dev.pwm ↑a).on.testBit (switchBit ↑ph !low)) = false ∧
      ∃ (turnOn : Bool), True) ∧
    (∃ (a : Fin 64), ∃ (s : State), s.dev.clusterRuns (axCl ↑a) = true) :=
  ⟨⟨0, (sR 3 [] id), by decide⟩,
   ⟨0, (sR 3 [(PWM_STAT 0, 0x40000000), (PWM_CFG 0, 0x80000000), (PWM_PER 0, 2000), (PWM_ACT_U 0, 0x40000000),
     (PWM_ACT_W 0, 0x40000000)] fun d => at_ 2000 ((d.modPwm 0 fun p => { p with counts := true }))), by decide⟩,
   ⟨0, (sR 3 [] id), by decide⟩,
   ⟨0, (sR 3 [(PWM_STAT 0, 0x40000000), (PWM_CFG 0, 0x80000000), (PWM_PER 0, 2000), (PWM_ACT_U 0, 0x40000000),
     (PWM_ACT_W 0, 0x40000000)] fun d => at_ 0 ((d.modPwm 0 fun p => { p with counts := true }))), by decide⟩,
   ⟨0, 0, false, (sR 3 [(PWM_STAT 0, 0x40000000), (PWM_CFG 0, 0x80000000), (PWM_PER 0, 2000), (PWM_ACT_U 0,
     0x40000000), (PWM_ACT_W 0,
     0x40000000)] fun d => at_ 0 ((d.modPwm 0 fun p => { p with counts := true, rise := [(0, 10), (4, 20)] }))),
     by decide, _, rfl, by decide⟩,
   ⟨0, 0, false, (sR 3 [] id), by decide⟩,
   ⟨0, 0, false, (sR 3 [(PWM_STAT 0, 0x40000000), (PWM_CFG 0, 0x80000000), (PWM_PER 0, 2000), (PWM_ACT_U 0,
     0x40000000), (PWM_ACT_W 0,
     0x40000000)] fun d => at_ 500 ((d.modPwm 0 fun p => { p with counts := true, on := 1 }))), by decide⟩,
   ⟨0, 0, false, (sR 3 [(PWM_STAT 0, 0x40000000), (PWM_CFG 0, 0x80000000), (PWM_PER 0, 2000), (PWM_ACT_U 0,
     0x40000000), (PWM_ACT_W 0, 0x40000000)] fun d => at_ 0 ((d.modPwm 0 fun p => { p with counts := true }))),
     by decide⟩,
   ⟨0, 0, false, (sR 3 [] id), by decide, by decide, false, by decide⟩,
   ⟨0, (sR 3 [] id), by decide⟩⟩

theorem meets_FaultInputsForceSafe :
    (∃ (a : Fin 64), ∃ (s : State), s.dev.clusterRuns (axCl ↑a) = true ∧
      (s.dev.flag (PWM_FLT ↑a) PWM_FLT_flt_en = false ∨ s.dev.flag (PWM_STAT ↑a) PWM_STAT_flt_live = true)) ∧
    (∃ (a : Fin 64), ∃ (s : State), s.dev.clusterRuns (axCl ↑a) = true ∧
      s.dev.flag (PWM_FLT ↑a) PWM_FLT_flt_en = true ∧ s.dev.flag (PWM_STAT ↑a) PWM_STAT_flt_live = false) ∧
    (∃ (a : Fin 64), ∃ (s : State), s.dev.clusterRuns (axCl ↑a) = true ∧
      s.dev.flag (PWM_STAT ↑a) PWM_STAT_flt_live = true) ∧
    (∃ (c : Fin 4), ∃ (g : Fin 8), ∃ (s : State), s.dev.clusterRuns ↑c = true ∧
      (s.dev.fld (PWM_STO_STAT ↑c) PWM_STO_STAT_live).testBit ↑g = false) ∧
    (∃ (c : Fin 4), ∃ (g : Fin 8), ∃ (s : State), s.dev.clusterRuns ↑c = true) ∧
    (∃ (w : Writer), ∃ (c : Fin 4), ∃ (g : Fin 8), ∃ (v : Word), ∃ (s : State), s.dev.clusterRuns ↑c = true ∧
      s.dev.accepts w (PWM_STO_MAP (↑c * 8 + ↑g)) = true ∧ ∃ (l : Nat), l < 16 ∧
      (s.dev.fld (PWM_STO_MAP (↑c * 8 + ↑g)) PWM_STO_MAP_axes).testBit l = true ∧
      (fget PWM_STO_MAP_axes v).testBit l = false ∧ stArmed ≤ s.dev.axSt (↑c * 16 + l)) ∧
    (∃ (w : Writer), ∃ (c : Fin 4), ∃ (g : Fin 8), ∃ (v : Word), ∃ (s : State), s.dev.clusterRuns ↑c = true ∧
      s.dev.accepts w (PWM_STO_MAP (↑c * 8 + ↑g)) = true ∧ ∀ (l : Nat),
      l < 16 → (s.dev.fld (PWM_STO_MAP (↑c * 8 + ↑g)) PWM_STO_MAP_axes).testBit l = true → (fget PWM_STO_MAP_axes v).testBit l = false → s.dev.axSt (↑c * 16 + l) < stArmed) :=
  ⟨⟨0, (sR 3 [(PWM_STAT 0, 0x10000000), (AXS_CAUSE_ACT 0, 2)] id), by decide⟩,
   ⟨0, (sR 0 [] id), by decide⟩,
   ⟨0, (sR 3 [(PWM_STAT 0, 0x10000000), (AXS_CAUSE_ACT 0, 2)] id), by decide⟩,
   ⟨0, 0, (sR 0 [] id), by decide⟩,
   ⟨0, 0, (sR 0 [] id), by decide⟩,
   ⟨.dap, 0, 0, 0, (sR 3 [(PWM_FLT 0, 0x80000000), (PWM_STO_MAP 0, 3), (PWM_STO_MAP 7, 3)] id), by decide, by decide,
     0, by decide⟩,
   ⟨.dap, 0, 0, 0, (sR 0 [] id), by decide⟩⟩

theorem meets_EncoderCountingAndOutputs_1 :
    (∃ (a : Fin 64), ∃ (p0 : Bool), ∃ (n0 : Bool), ∃ (p1 : Bool), ∃ (n1 : Bool), ∃ (s : State),
      s.dev.hasCluster (axCl ↑a) = true) ∧
    (∃ (a : Fin 64), ∃ (p0 : Bool), ∃ (n0 : Bool), ∃ (p1 : Bool), ∃ (n1 : Bool), ∃ (s : State),
      s.dev.clusterRuns (axCl ↑a) = true ∧ s.dev.flag (FBK_CFG ↑a) FBK_CFG_enc_en = false) ∧
    (∃ (a : Fin 64), ∃ (p0 : Bool), ∃ (n0 : Bool), ∃ (p1 : Bool), ∃ (n1 : Bool), ∃ (s : State),
      s.dev.clusterRuns (axCl ↑a) = true ∧ s.dev.flag (FBK_CFG ↑a) FBK_CFG_enc_en = true) ∧
    (∃ (a : Fin 64), ∃ (p0 : Bool), ∃ (n0 : Bool), ∃ (s : State), s.dev.clusterRuns (axCl ↑a) = true) ∧
    (∃ (a : Fin 64), ∃ (p0 : Bool), ∃ (n0 : Bool), ∃ (s : State), s.dev.clusterRuns (axCl ↑a) = true ∧
      ((s.dev.fbk ↑a).lvZ != s.dev.pairLevel (↑a) 2 p0 n0 (s.dev.fbk ↑a).pinZ && s.dev.pairLevel (↑a) 2 p0 n0 (s.dev.fbk ↑a).pinZ != s.dev.flag (FBK_CFG ↑a) FBK_CFG_inv_z && s.dev.flag (FBK_CFG ↑a) FBK_CFG_enc_en && s.dev.fld (FBK_CFG ↑a) FBK_CFG_cnt_mode != 3 && s.dev.gateOpen ↑a) = true) ∧
    (∃ (a : Fin 64), ∃ (s : State), s.dev.clusterRuns (axCl ↑a) = true) ∧
    (∃ (w : Writer), ∃ (a : Fin 64), ∃ (v : Word), ∃ (s : State), s.dev.clusterRuns (axCl ↑a) = true ∧
      s.dev.accepts w (FBK_POS ↑a) = true ∧ (s.dev.axSt ↑a = stRetired ∨ s.dev.axSt ↑a = stAdmitted)) ∧
    (∃ (w : Writer), ∃ (a : Fin 64), ∃ (v : Word), ∃ (s : State), s.dev.clusterRuns (axCl ↑a) = true ∧
      s.dev.accepts w (FBK_POS ↑a) = true ∧ s.dev.axSt ↑a ≠ stRetired ∧ s.dev.axSt ↑a ≠ stAdmitted) ∧
    (∃ (w : Writer), ∃ (k : Fin 16), ∃ (v : Word), ∃ (s : State), s.dev.clusterRuns (↑k / 4) = true ∧
      (s.dev.part = Part.pdl64 ∨ s.dev.flag (FBK_EO_CFG ↑k) FBK_EO_CFG_en = false ∨ (s.dev.enc ↑k).todo = 0 ∨
      ∃ (x : Nat), (s.dev.enc ↑k).edgeAt = some x ∧ (s.dev.cluster (↑k / 4)).ref < x + (s.dev.enc ↑k).spacing)) ∧
    (∃ (w : Writer), ∃ (k : Fin 16), ∃ (v : Word), ∃ (s : State), s.dev.clusterRuns (↑k / 4) = true ∧
      s.dev.part ≠ Part.pdl64 ∧ s.dev.flag (FBK_EO_CFG ↑k) FBK_EO_CFG_en = true ∧ (s.dev.enc ↑k).todo ≠ 0 ∧
      ¬∃ (x : Nat), (s.dev.enc ↑k).edgeAt = some x ∧ (s.dev.cluster (↑k / 4)).ref < x + (s.dev.enc ↑k).spacing) :=
  ⟨⟨0, false, false, false, false, (sR 0 [] id), by decide⟩,
   ⟨0, false, false, false, false, (sR 0 [] id), by decide⟩,
   ⟨0, false, false, false, false, (sR 0 [(FBK_CFG 0, 0x80000000)] id), by decide⟩,
   ⟨0, false, false, (sR 0 [] id), by decide⟩,
   ⟨0, false, true, (sR 3 [(FBK_CFG 0, 0x84000000), (FBK_SUP_CFG 0,
     0x02000000)] fun d => (d.modFbk 0 fun f => { f with lvA := true, moved := true, cnt := some (5, 6), lcOld := some 7, hist := [(4, 9), (6, 2 ^ 33)], pinZ := true, lvZ := true, dis := 1 })),
     by decide⟩,
   ⟨0, (sR 0 [] id), by decide⟩,
   ⟨.dap, 0, 0, (sR 0 [] id), by decide⟩,
   ⟨.dap, 0, 0, (sR 3 [(FBK_CFG 0,
     0x80000000)] fun d => (d.modFbk 0 fun f => { f with lvA := true, moved := true, cnt := some (5, 6), lcOld := some 7, hist := [(4, 9), (6, 2 ^ 33)] })),
     by decide⟩,
   ⟨.dap, 0, 0, (sR 0 [] id), by decide⟩,
   ⟨.dap, 0, 0,
     ({ sR 3 [(FBK_EO_CFG 0, 0x80000000)] fun d => d.modEnc 0 fun e => { e with todo := -3 } with dev := { (sR 3 [(FBK_EO_CFG 0, 0x80000000)] fun d => d.modEnc 0 fun e => { e with todo := -3 }).dev with part := .pdl16 } }),
     by decide⟩⟩

theorem meets_EncoderCountingAndOutputs_2 :
    (∃ (w : Writer), ∃ (k : Fin 16), ∃ (v : Word), ∃ (s : State), s.dev.clusterRuns (↑k / 4) = true ∧
      s.dev.part = Part.pdl64 ∧ (fget FBK_EO_RATIO_n v = 0 ∨ fget FBK_EO_RATIO_m v < fget FBK_EO_RATIO_n v)) ∧
    (∃ (w : Writer), ∃ (k : Fin 16), ∃ (v : Word), ∃ (s : State), s.dev.clusterRuns (↑k / 4) = true ∧
      s.dev.part = Part.pdl64 ∧ fget FBK_EO_RATIO_n v ≠ 0 ∧ fget FBK_EO_RATIO_n v ≤ fget FBK_EO_RATIO_m v) ∧
    (∃ (w : Writer), ∃ (k : Fin 16), ∃ (v : Word), ∃ (s : State), s.dev.clusterRuns (↑k / 4) = true ∧
      s.dev.sound (FBK_EO_CFG ↑k) v ∧ s.dev.flag (FBK_EO_CFG ↑k) FBK_EO_CFG_en = true ∧ fget FBK_EO_CFG_en v = 0) ∧
    (∃ (w : Writer), ∃ (k : Fin 16), ∃ (v : Word), ∃ (s : State), s.dev.clusterRuns (↑k / 4) = true ∧
      s.dev.sound (FBK_EO_CFG ↑k) v ∧ s.dev.part = Part.pdl64 ∧ s.dev.flag (FBK_EO_CFG ↑k) FBK_EO_CFG_en = false ∧
      fget FBK_EO_CFG_en v = 1) ∧
    (∃ (w : Writer), ∃ (k : Fin 16), ∃ (v : Word), ∃ (s : State), s.dev.clusterRuns (↑k / 4) = true ∧
      s.dev.sound (FBK_EO_CFG ↑k) v ∧ s.dev.part ≠ Part.pdl64 ∧ s.dev.flag (FBK_EO_CFG ↑k) FBK_EO_CFG_en = false ∧
      fget FBK_EO_CFG_en v = 1) :=
  ⟨⟨.dap, 0, 0, (sR 0 [] id), by decide⟩,
   ⟨.dap, 0, 0x00030005, (sR 0 [] id), by decide⟩,
   ⟨.dap, 0, 0,
     ({ sR 3 [(FBK_EO_CFG 0, 0x80000000)] fun d => d.modEnc 0 fun e => { e with todo := -3 } with dev := { (sR 3 [(FBK_EO_CFG 0, 0x80000000)] fun d => d.modEnc 0 fun e => { e with todo := -3 }).dev with part := .pdl16 } }),
     by decide, sound_of (by decide), by decide⟩,
   ⟨.dap, 0, 0x80000000, (sR 0 [] id), by decide, sound_of (by decide), by decide⟩,
   ⟨.dap, 0, 0x80000000, (sR 0 [] fun d => { d with part := .pdl16 }), by decide, sound_of (by decide), by decide⟩⟩

theorem meets_FeedbackSupervisionAndCompare_1 :
    (∃ (a : Fin 64), ∃ (s : State), s.dev.clusterRuns (axCl ↑a) = true ∧ ∃ (pair : Fin 3),
      (s.dev.fld (FBK_SUP_CFG ↑a) FBK_SUP_CFG_dis_mask).testBit ↑pair = false ∨
      (s.dev.fbk ↑a).dis.testBit ↑pair = true) ∧
    (∃ (a : Fin 64), ∃ (s : State), s.dev.clusterRuns (axCl ↑a) = true ∧ ∃ (pair : Fin 3),
      (s.dev.fld (FBK_SUP_CFG ↑a) FBK_SUP_CFG_dis_mask).testBit ↑pair = true ∧
      (s.dev.fbk ↑a).dis.testBit ↑pair = false) ∧
    (∃ (a : Fin 64), ∃ (s : State), s.dev.clusterRuns (axCl ↑a) = true ∧ ∃ (pairs : Fin 8), True) ∧
    (∃ (a : Fin 64), ∃ (s : State), s.dev.clusterRuns (axCl ↑a) = true ∧
      ¬(s.dev.flag (FBK_STAT ↑a) FBK_STAT_dis_live = true ∧
      s.dev.fld (FBK_SUP_CFG ↑a) FBK_SUP_CFG_dis_persist ≠ 0 ∧
      (s.dev.cluster (axCl ↑a)).ref = (s.dev.fbk ↑a).disAt + s.dev.fld (FBK_SUP_CFG ↑a) FBK_SUP_CFG_dis_persist * 1024)) ∧
    (∃ (a : Fin 64), ∃ (s : State), s.dev.clusterRuns (axCl ↑a) = true ∧
      s.dev.flag (FBK_STAT ↑a) FBK_STAT_dis_live = true ∧ s.dev.fld (FBK_SUP_CFG ↑a) FBK_SUP_CFG_dis_persist ≠ 0 ∧
      (s.dev.cluster (axCl ↑a)).ref = (s.dev.fbk ↑a).disAt + s.dev.fld (FBK_SUP_CFG ↑a) FBK_SUP_CFG_dis_persist * 1024) ∧
    (∃ (w : Writer), ∃ (a : Fin 64), ∃ (v : Word), ∃ (s : State), s.dev.clusterRuns (axCl ↑a) = true ∧
      ∃ (late : Bool), Due.rscHit (↑a) late ∈ s.dev.due ∧ (late = false → ¬Due.rscHit (↑a) true ∈ s.dev.due)) ∧
    (∃ (w : Writer), ∃ (a : Fin 64), ∃ (v : Word), ∃ (s : State), s.dev.clusterRuns (axCl ↑a) = true ∧
      (s.dev.fbk ↑a).rscHigh = true ∧
      (s.dev.fbk ↑a).rscRise + s.dev.fld (FBK_RSC_CFG ↑a) FBK_RSC_CFG_pw ≤ (s.dev.cluster (axCl ↑a)).ref) ∧
    (∃ (w : Writer), ∃ (a : Fin 64), ∃ (v : Word), ∃ (s : State), s.dev.clusterRuns (axCl ↑a) = true ∧
      ¬((s.dev.fbk ↑a).rscHigh = true ∧
      (s.dev.fbk ↑a).rscRise + s.dev.fld (FBK_RSC_CFG ↑a) FBK_RSC_CFG_pw ≤ (s.dev.cluster (axCl ↑a)).ref)) ∧
    (∃ (w : Writer), ∃ (a : Fin 64), ∃ (v : Word), ∃ (s : State), s.dev.clusterRuns (axCl ↑a) = true) ∧
    (∃ (w : Writer), ∃ (a : Fin 64), ∃ (v : Word), ∃ (s : State), s.dev.clusterRuns (axCl ↑a) = true ∧
      s.dev.sound (FBK_RSC_CFG ↑a) v) :=
  ⟨⟨0, (sR 3 [(FBK_SUP_CFG 0, 0x38000005), (FBK_STAT 0,
     0xFFFFFFFF)] fun d => at_ 5125 (d.modFbk 0 fun f => { f with dis := 5, disAt := 4 })), by decide, 0,
     by decide⟩,
   ⟨0, (sR 3 [(FBK_SUP_CFG 0, 0xB8000005), (FBK_STAT 0, 0xFFFFFFFF)] (at_ 5120)), by decide, 0, by decide⟩,
   ⟨0, (sR 3 [(FBK_SUP_CFG 0, 0xB8000005), (FBK_STAT 0, 0xFFFFFFFF)] (at_ 5120)), by decide, 0, by decide⟩,
   ⟨0, (sR 3 [(FBK_SUP_CFG 0, 0x38000005), (FBK_STAT 0,
     0xFFFFFFFF)] fun d => at_ 5125 (d.modFbk 0 fun f => { f with dis := 5, disAt := 4 })), by decide⟩,
   ⟨0, (sR 3 [(FBK_SUP_CFG 0, 0xB8000005), (FBK_STAT 0, 0xFFFFFFFF)] (at_ 5120)), by decide⟩,
   ⟨.dap, 0, 0, (sR 3 [(FBK_RSC_CFG 0, 0xA0000000), (FBK_RSC_STEP 0, 5), (FBK_RSC_REM 0,
     1)] fun d => { d with due := [.rscHit 0 false] }), by decide, false, by decide⟩,
   ⟨.dap, 0, 0, (sR 3 [(FBK_RSC_CFG 0,
     0xA0000009)] fun d => at_ 20 { d.modFbk 0 fun f => { f with rscPulsed := true, rscHigh := true, rscRise := 11 } with due := [.rscHit 0 true] }),
     by decide⟩,
   ⟨.dap, 0, 0, (sR 3 [(FBK_SUP_CFG 0, 0xB8000005), (FBK_STAT 0, 0xFFFFFFFF)] (at_ 5120)), by decide⟩,
   ⟨.dap, 0, 0, (sR 3 [(FBK_SUP_CFG 0, 0xB8000005), (FBK_STAT 0, 0xFFFFFFFF)] (at_ 5120)), by decide⟩,
   ⟨.dap, 0, 0x7FFFFFFF, (sR 3 [(FBK_SUP_CFG 0, 0xB8000005), (FBK_STAT 0, 0xFFFFFFFF)] (at_ 5120)), by decide,
     sound_of (by decide)⟩⟩

theorem meets_FeedbackSupervisionAndCompare_2 :
    (∃ (w : Writer), ∃ (a : Fin 64), ∃ (v : Word), ∃ (s : State), s.dev.clusterRuns (axCl ↑a) = true ∧ (v = 0 ∨
      BitVec.msb v ≠ s.dev.flag (FBK_RSC_CFG ↑a) FBK_RSC_CFG_dir_rsc)) ∧
    (∃ (w : Writer), ∃ (a : Fin 64), ∃ (v : Word), ∃ (s : State), s.dev.clusterRuns (axCl ↑a) = true ∧ v ≠ 0 ∧
      BitVec.msb v = s.dev.flag (FBK_RSC_CFG ↑a) FBK_RSC_CFG_dir_rsc) :=
  ⟨⟨.dap, 0, 0, (sR 3 [(FBK_SUP_CFG 0, 0xB8000005), (FBK_STAT 0, 0xFFFFFFFF)] (at_ 5120)), by decide⟩,
   ⟨.dap, 0, 1, (sR 3 [(FBK_SUP_CFG 0, 0xB8000005), (FBK_STAT 0, 0xFFFFFFFF)] (at_ 5120)), by decide⟩⟩

theorem meets_SegmentsGroupsAndStreams :
    (∃ (a : Fin 64), ∃ (s : State), s.dev.clusterRuns (axCl ↑a) = true ∧ s.dev.groupOf ↑a = none ∧ ∃ (r : SegRun),
      (s.dev.interp ↑a).run = some r ∧ (r.open_ = true ∨ s.dev.copy (axCl ↑a) < r.t0 + r.seg.dur)) ∧
    (∃ (a : Fin 64), ∃ (s : State), s.dev.clusterRuns (axCl ↑a) = true ∧ s.dev.groupOf ↑a = none ∧ ∃ (r : SegRun),
      (s.dev.interp ↑a).run = some r ∧ r.open_ = false ∧ r.t0 + r.seg.dur ≤ s.dev.copy (axCl ↑a)) ∧
    (∃ (a : Fin 64), ∃ (s : State), s.dev.clusterRuns (axCl ↑a) = true ∧ s.dev.groupOf ↑a = none ∧ ∃ (g : Seg),
      s.dev.headSeg ↑a = some g ∧ g.start = 2 ∧ g.kind < 4 ∧ s.dev.eligible ↑a = true ∧
      (s.dev.interp ↑a).run = none ∧ ∃ (late : Bool), Due.timeStart (↑a) late ∈ s.dev.due ∧
      (late = false → ¬Due.timeStart (↑a) true ∈ s.dev.due)) ∧
    (∃ (a : Fin 64), ∃ (s : State), s.dev.clusterRuns (axCl ↑a) = true ∧ s.dev.groupOf ↑a = none ∧ ∃ (g : Seg),
      s.dev.headSeg ↑a = some g ∧ g.start = 2 ∧ g.kind < 4 ∧ s.dev.eligible ↑a = true ∧
      (s.dev.interp ↑a).run = none ∧ ¬Due.timeStart (↑a) true ∈ s.dev.due ∧ ¬Due.timeStart (↑a) false ∈ s.dev.due) ∧
    (∃ (a : Fin 64), ∃ (s : State), s.dev.clusterRuns (axCl ↑a) = true ∧ s.dev.groupOf ↑a = none ∧ ∃ (g : Seg),
      s.dev.headSeg ↑a = some g ∧ g.start = 1 ∧ g.kind < 4 ∧ s.dev.eligible ↑a = true ∧
      (s.dev.interp ↑a).run = none) ∧
    (∃ (a : Fin 64), ∃ (s : State), s.dev.clusterRuns (axCl ↑a) = true ∧ s.dev.groupOf ↑a = none ∧
      s.dev.eligible ↑a = false) ∧
    (∃ (g : Fin 32), ∃ (l : Nat), ∃ (sg : Seg), sg.start = 1 ∧ ∃ (s : State), s.dev.clusterRuns (↑g / 8) = true ∧
      (s.dev.members ↑g).Nodup ∧ (∀ (m : Nat), m ∈ s.dev.members ↑g → (s.dev.interp m).run = none ∧ ∃ (x : Seg),
      s.dev.headSeg m = some x ∧ x.kind < 4) ∧ s.dev.leaderSeg ↑g = some (l, sg)) ∧
    (∃ (a : Fin 64), ∃ (s : State), s.dev.clusterRuns (axCl ↑a) = true ∧ s.dev.groupOf ↑a = none ∧
      s.dev.axSt ↑a ≠ stEnabled ∧ s.dev.streamed ↑a = true ∧ s.dev.isRing (s.dev.streamRing ↑a) tyST = true ∧
      s.dev.ringBad (s.dev.streamRing ↑a) = false ∧ s.dev.ringDel (s.dev.streamRing ↑a) = false ∧
      s.dev.hostOk = true ∧ (s.dev.interp ↑a).len ≤ 48 ∧ s.dev.ringUsed (s.dev.streamRing ↑a) ≠ 0 ∧
      s.dev.ringTail (s.dev.streamRing ↑a) ≠ s.dev.ringHead (s.dev.streamRing ↑a) ∧
      s.dev.segCheck (↑a) (segOf (s.mem.hostSpan (s.dev.ringBase (s.dev.streamRing ↑a) + 32 * s.dev.ringHead (s.dev.streamRing ↑a)) 32)) = none) ∧
    (∃ (a : Fin 64), ∃ (s : State), s.dev.clusterRuns (axCl ↑a) = true ∧ s.dev.groupOf ↑a = none ∧
      s.dev.axSt ↑a ≠ stEnabled ∧ s.dev.streamed ↑a = true ∧ s.dev.isRing (s.dev.streamRing ↑a) tyST = true ∧
      s.dev.ringBad (s.dev.streamRing ↑a) = false ∧ s.dev.ringDel (s.dev.streamRing ↑a) = false ∧
      s.dev.hostOk = true ∧ (s.dev.interp ↑a).len ≤ 48 ∧ s.dev.ringUsed (s.dev.streamRing ↑a) ≠ 0 ∧
      s.dev.ringTail (s.dev.streamRing ↑a) ≠ s.dev.ringHead (s.dev.streamRing ↑a) ∧
      s.dev.segCheck (↑a) (segOf (s.mem.hostSpan (s.dev.ringBase (s.dev.streamRing ↑a) + 32 * s.dev.ringHead (s.dev.streamRing ↑a)) 32)) ≠ none) :=
  ⟨⟨0, (sSeg 3 (aSeg 0 0 0 50) (some (aSegRun 3 4000)) 1), by decide, by decide, _, rfl, by decide⟩,
   ⟨0, (sSeg 3 (aSeg 0 0 0 50) (some (aSegRun 3 40)) 1), by decide, by decide, _, rfl, by decide⟩,
   ⟨0,
     ({ sSeg 3 (aSeg 0 2 0 50) none 1 with dev := { (sSeg 3 (aSeg 0 2 0 50) none 1).dev with due := [.timeStart 0 true] } }),
     by decide, by decide, _, rfl, by decide, by decide, by decide, by decide, true, by decide⟩,
   ⟨0,
     ({ sSeg 3 (aSeg 0 2 0 50) none 1 with dev := (sSeg 3 (aSeg 0 2 0 50) none 1).dev.modInterp 0 fun i => { i with waitT := some 1000 } }),
     by decide, by decide, _, rfl, by decide⟩,
   ⟨0, (sSeg 3 (aSeg 0 1 0 50) none 1), by decide, by decide, _, rfl, by decide⟩,
   ⟨0, (sSeg 3 (aSeg 0 0 0 50) (some (aSegRun 3 4000)) 1), by decide⟩,
   ⟨0, 0, (aSeg 0 1 0 50 : Seg), by decide, (sGrp 1 0), by decide⟩,
   ⟨0, (sStream [0x10, 0, 0, 0, 5]), by decide⟩,
   ⟨0, (sStream [0x10, 0, 0, 0, 5, 0, 0, 0, 3]), by decide⟩⟩

theorem meets_FluxCapturesCombinersSettings_1 :
    (∃ (k : Fin 64), ∃ (s : State), s.dev.clusterRuns (↑k / 16) = true ∧
      s.dev.fldIf (FLX_CAP_CFG (↑k / 16) (↑k % 16)) FLX_CAP_CFG_en ≠ 0) ∧
    (∃ (k : Fin 64), ∃ (s : State), s.dev.clusterRuns (↑k / 16) = true ∧
      s.dev.fldIf (FLX_CAP_CFG (↑k / 16) (↑k % 16)) FLX_CAP_CFG_en = 0) ∧
    (∃ (k : Fin 64), ∃ (s : State), s.dev.clusterRuns (↑k / 16) = true) ∧
    (∃ (k : Fin 32), ∃ (s : State), s.dev.clusterRuns (↑k / 8) = true) ∧
    (∃ (k : Fin 32), ∃ (s : State), s.dev.clusterRuns (↑k / 8) = true ∧ ∃ (w : Writer), ∃ (v : Word),
      fget FLX_COMB_CFG_rearm v = 1 ∧ s.dev.sound (FLX_COMB_CFG (↑k / 8) (↑k % 8)) v) ∧
    (∃ (k : Fin 32), ∃ (s : State), s.dev.clusterRuns (↑k / 8) = true ∧ Due.combiner (↑k / 8) (↑k % 8) ∈ s.dev.due ∧
      (s.dev.comb ↑k).trueAt < s.dev.now) ∧
    (∃ (k : Fin 32), ∃ (s : State), s.dev.clusterRuns (↑k / 8) = true ∧ ¬(Due.combiner (↑k / 8) (↑k % 8) ∈ s.dev.due ∧
      (s.dev.comb ↑k).trueAt < s.dev.now)) ∧
    (∃ (tgt : Fin 4), ∃ (src : Fin 4), ∃ (k : Fin 8), ∃ (s : State), ¬Due.exported ↑src ↑k ↑tgt ∈ s.dev.due) ∧
    (∃ (tgt : Fin 4), ∃ (src : Fin 4), ∃ (k : Fin 8), ∃ (s : State), Due.exported ↑src ↑k ↑tgt ∈ s.dev.due ∧
      s.dev.clusterRuns ↑tgt = true) ∧
    (∃ (tgt : Fin 4), ∃ (src : Fin 4), ∃ (k : Fin 8), ∃ (s : State), Due.exported ↑src ↑k ↑tgt ∈ s.dev.due ∧
      (s.dev.cluster ↑tgt).halted = true) :=
  ⟨⟨0, (sR 0 [(FLX_CAP_CFG 0 0, 0xC0000000)] id), by decide⟩,
   ⟨0, (sR 0 [] id), by decide⟩,
   ⟨0, (sR 0 [] id), by decide⟩,
   ⟨0, (sR 0 [] id), by decide⟩,
   ⟨0, (sR 0 [] id), by decide, .dap, 0x88000000, by decide, sound_of (by decide)⟩,
   ⟨0, (sR 0 [(FLX_COMB_CFG 0 0,
     0xE0000001)] fun d => { d.modComb 0 fun c => { c with latch := 1, held := true } with due := [.combiner 0 0], now := 5 }),
     by decide⟩,
   ⟨0, (sR 0 [] id), by decide⟩,
   ⟨0, 0, 0, (sR 0 [] id), by decide⟩,
   ⟨0, 1, 0, (sR 0 [(FLX_IMPORT 0 0, 0x80000010)] fun d => { d with due := [.exported 1 0 0] }), by decide⟩,
   ⟨0, 1, 0, (sR 0 [] fun d => { d.modCluster 0 fun c => { c with halted := true } with due := [.exported 1 0 0] }),
     by decide⟩⟩

theorem meets_FluxCapturesCombinersSettings_2 :
    (∃ (w : Writer), ∃ (c : Fin 4), ∃ (v : Word), ∃ (s : State), s.dev.clusterRuns ↑c = true) ∧
    (∃ (w : Writer), ∃ (c : Fin 4), ∃ (k : Fin 8), ∃ (v : Word), ∃ (s : State), s.dev.clusterRuns ↑c = true ∧
      (decide (fget FLX_IMPORT_en v = 1) && (decide (fget FLX_IMPORT_cl v = ↑c) || !s.dev.hasCluster (fget FLX_IMPORT_cl v))) = true) ∧
    (∃ (w : Writer), ∃ (c : Fin 4), ∃ (k : Fin 8), ∃ (v : Word), ∃ (s : State), s.dev.clusterRuns ↑c = true ∧
      (decide (fget FLX_IMPORT_en v = 1) && (decide (fget FLX_IMPORT_cl v = ↑c) || !s.dev.hasCluster (fget FLX_IMPORT_cl v))) = false) ∧
    (∃ (w : Writer), ∃ (a : Fin 64), ∃ (v : Word), ∃ (s : State), s.dev.clusterRuns (axCl ↑a) = true ∧
      s.dev.sound (FLX_WIN_CFG ↑a) v) ∧
    (∃ (w : Writer), ∃ (a : Fin 64), ∃ (r : Fin 3), r ≠ 0 ∧ ∃ (v : Word), ∃ (s : State),
      s.dev.clusterRuns (axCl ↑a) = true) ∧
    (∃ (w : Writer), ∃ (g : Fin 32), ∃ (r : Fin 3), ∃ (v : Word), ∃ (s : State), s.dev.clusterRuns (↑g / 8) = true ∧
      s.dev.accepts w (if r = 0 then FLX_GRP_CFG ↑g else if r = 1 then FLX_GRP_MEM_LO ↑g else FLX_GRP_MEM_HI ↑g) = true ∧
      s.dev.grpCheck (↑g) (if r = 0 then v else s.dev.rd (FLX_GRP_CFG ↑g)) (if r = 1 then v else s.dev.rd (FLX_GRP_MEM_LO ↑g)) (if r = 2 then v else s.dev.rd (FLX_GRP_MEM_HI ↑g)) = 1) ∧
    (∃ (w : Writer), ∃ (g : Fin 32), ∃ (r : Fin 3), ∃ (v : Word), ∃ (s : State), s.dev.clusterRuns (↑g / 8) = true ∧
      s.dev.accepts w (if r = 0 then FLX_GRP_CFG ↑g else if r = 1 then FLX_GRP_MEM_LO ↑g else FLX_GRP_MEM_HI ↑g) = true ∧
      s.dev.grpCheck (↑g) (if r = 0 then v else s.dev.rd (FLX_GRP_CFG ↑g)) (if r = 1 then v else s.dev.rd (FLX_GRP_MEM_LO ↑g)) (if r = 2 then v else s.dev.rd (FLX_GRP_MEM_HI ↑g)) = 2) ∧
    (∃ (w : Writer), ∃ (g : Fin 32), ∃ (r : Fin 3), ∃ (v : Word), ∃ (s : State), s.dev.clusterRuns (↑g / 8) = true ∧
      s.dev.accepts w (if r = 0 then FLX_GRP_CFG ↑g else if r = 1 then FLX_GRP_MEM_LO ↑g else FLX_GRP_MEM_HI ↑g) = true ∧
      s.dev.grpCheck (↑g) (if r = 0 then v else s.dev.rd (FLX_GRP_CFG ↑g)) (if r = 1 then v else s.dev.rd (FLX_GRP_MEM_LO ↑g)) (if r = 2 then v else s.dev.rd (FLX_GRP_MEM_HI ↑g)) = 0) :=
  ⟨⟨.dap, 0, 0, (sR 0 [] id), by decide⟩,
   ⟨.dap, 0, 0, 0x80000000, (sR 0 [] id), by decide⟩,
   ⟨.dap, 0, 0, 0, (sR 0 [] id), by decide⟩,
   ⟨.dap, 0, 0, (sR 0 [] id), by decide, sound_of (by decide)⟩,
   ⟨.dap, 0, 1, by decide, 0, (sR 0 [] id), by decide⟩,
   ⟨.dap, 0, 0, 0x80000010, (sR 0 [] id), by decide⟩,
   ⟨.dap, 0, 0, 0, (sR 3 [(FLX_GRP_CFG 0, 0x80000003), (FLX_GRP_MEM_LO 0, 0x00000100)] id), by decide⟩,
   ⟨.dap, 0, 0, 0, (sR 0 [] id), by decide⟩⟩

theorem meets_TimerEventsAndRegisters_1 :
    (∃ (t : Fin 128), ∃ (s : State), s.dev.clusterRuns (tmCl ↑t) = true ∧
      Option.any TmHit.o (s.dev.tmr ↑t).hit = true) ∧
    (∃ (t : Fin 128), ∃ (s : State), s.dev.clusterRuns (tmCl ↑t) = true ∧
      Option.any TmHit.o (s.dev.tmr ↑t).hit = false ∧ s.dev.tmReady ↑t = true ∧
      BitVec.toNat (s.dev.rd (TMR_TOP ↑t)) ≤ s.dev.tmCnt ↑t) ∧
    (∃ (t : Fin 128), ∃ (s : State), s.dev.clusterRuns (tmCl ↑t) = true ∧
      Option.any TmHit.o (s.dev.tmr ↑t).hit = false ∧ (s.dev.tmReady ↑t = false ∨
      s.dev.tmCnt ↑t < BitVec.toNat (s.dev.rd (TMR_TOP ↑t)))) ∧
    (∃ (t : Fin 128), ∃ (s : State), s.dev.clusterRuns (tmCl ↑t) = true ∧ ∃ (isB : Bool),
      Option.any (fun (h : TmHit) => if isB = true then h.b else h.a) (s.dev.tmr ↑t).hit = true ∨ ∃ (x : Bool),
      Due.tmrMatch (↑t) isB x ∈ s.dev.due) ∧
    (∃ (t : Fin 128), ∃ (s : State), s.dev.clusterRuns (tmCl ↑t) = true ∧ s.dev.tmReady ↑t = true ∧ ∃ (isB : Bool),
      Option.any (fun (h : TmHit) => if isB = true then h.b else h.a) (s.dev.tmr ↑t).hit = false ∧ (∀ (x : Bool),
      ¬Due.tmrMatch (↑t) isB x ∈ s.dev.due) ∧ if isB = false ∧
      s.dev.tmWide ↑t = true then s.dev.tmNext ↑t + (if BitVec.toNat (s.dev.rd (TMR_TOP ↑t)) ≤ s.dev.tmCnt ↑t then s.dev.tmNext (↑t + 1) else s.dev.tmCnt (↑t + 1)) * 2 ^ 32 = s.dev.tmCmp64 ↑t else s.dev.tmNext ↑t = BitVec.toNat (s.dev.rd (if isB = true then TMR_CMPB ↑t else TMR_CMPA ↑t))) ∧
    (∃ (t : Fin 128), ∃ (s : State), s.dev.clusterRuns (tmCl ↑t) = true ∧ s.dev.tmReady ↑t = false ∧ ∃ (isB : Bool),
      Option.any (fun (h : TmHit) => if isB = true then h.b else h.a) (s.dev.tmr ↑t).hit = false ∧ ∀ (x : Bool),
      ¬Due.tmrMatch (↑t) isB x ∈ s.dev.due) ∧
    (∃ (t : Fin 128), ∃ (s : State), s.dev.clusterRuns (tmCl ↑t) = true ∧ (s.dev.tmCfg (↑t) TMR_CFG_isel ≠ 0 ∨
      s.dev.tmCfg (↑t) TMR_CFG_en = 0 ∨ s.dev.tmIsHigh ↑t = true ∨ (s.dev.tmr ↑t).cntAt = some s.dev.now)) ∧
    (∃ (t : Fin 128), ∃ (s : State), s.dev.clusterRuns (tmCl ↑t) = true ∧ s.dev.tmCfg (↑t) TMR_CFG_isel = 0 ∧
      s.dev.tmCfg (↑t) TMR_CFG_en ≠ 0 ∧ s.dev.tmIsHigh ↑t = false ∧ (s.dev.tmr ↑t).cntAt ≠ some s.dev.now) ∧
    (∃ (c : Fin 4), ∃ (b : Fin 16), ∃ (rising : Bool), ∃ (s : State), s.dev.clusterRuns ↑c = true ∧
      ((s.dev.ballDrives ↑c ↑b).isSome = true ∨ s.dev.ballIn ↑c ↑b = rising)) ∧
    (∃ (w : Writer), ∃ (t : Fin 128), ∃ (v : Word), ∃ (s : State), s.dev.clusterRuns (tmCl ↑t) = true) :=
  ⟨⟨0, (sT [(TMR_CFG 0, 0xC0000000), (TMR_OUT 0,
     0x03000000)] fun d => d.modTmr 0 fun y => { y with hit := some ⟨0, true, true, false⟩ }), by decide⟩,
   ⟨0, (sT [(TMR_CFG 0, 0xC8000000), (TMR_TOP 0, 0), (TMR_OUT 0, 0x02000000)] id), by decide⟩,
   ⟨0, (sT [] id), by decide⟩,
   ⟨0, (sT [(TMR_CFG 0, 0xD0000000), (TMR_CFG 1, 0xE0000000)] fun d => { d with due := [.tmrMatch 0 false true] }),
     by decide, false, by decide⟩,
   ⟨0, (sT [(TMR_CFG 0, 0xC8000000), (TMR_TOP 0, 0), (TMR_OUT 0, 0x02000000)] id), by decide, by decide, false,
     by decide⟩,
   ⟨0, (sT [] id), by decide, by decide, false, by decide⟩,
   ⟨0, (sT [] id), by decide⟩,
   ⟨0, (sT [(TMR_CFG 0, 0xC0000000)] id), by decide⟩,
   ⟨0, 0, false, (sT [] id), by decide⟩,
   ⟨.dap, 0, 0, (sT [] id), by decide⟩⟩

theorem meets_TimerEventsAndRegisters_2 :
    (∃ (w : Writer), ∃ (t : Fin 128), ∃ (v : Word), ∃ (s : State), s.dev.clusterRuns (tmCl ↑t) = true ∧
      ∃ (isB : Bool), True) ∧
    (∃ (w : Writer), ∃ (t : Fin 128), ∃ (v : Word), ∃ (s : State), s.dev.clusterRuns (tmCl ↑t) = true ∧
      tmrReserved (↑t) v = true) ∧
    (∃ (w : Writer), ∃ (t : Fin 128), ∃ (v : Word), ∃ (s : State), s.dev.clusterRuns (tmCl ↑t) = true ∧
      tmrReserved (↑t) v = false) ∧
    (∃ (t : Fin 128), ∃ (s : State), s.dev.clusterRuns (tmCl ↑t) = true) ∧
    (∃ (w : Writer), ∃ (c : Fin 4), ∃ (s : State), s.dev.clusterRuns ↑c = true) ∧
    (∃ (w : Writer), ∃ (c : Fin 4), ∃ (s : State), s.dev.clusterRuns ↑c = true ∧
      (s.dev.flag (TMR_SNAP_CTL ↑c) TMR_SNAP_CTL_done = true ∨ ∃ (e : Nat × Tmr), e ∈ s.dev.timers.entries ∧
      tmCl e.fst = ↑c ∧ e.snd.carry = true)) ∧
    (∃ (w : Writer), ∃ (c : Fin 4), ∃ (s : State), s.dev.clusterRuns ↑c = true ∧ ∃ (n : Fin 16), ∃ (v : Word),
      gpioOk (↑n) v = true) ∧
    (∃ (w : Writer), ∃ (c : Fin 4), ∃ (s : State), s.dev.clusterRuns ↑c = true ∧ ∃ (n : Fin 16), ∃ (v : Word),
      gpioOk (↑n) v = false) :=
  ⟨⟨.dap, 0, 0, (sT [] id), by decide, false, by decide⟩,
   ⟨.dap, 0, 0xFFFFFFFF, (sT [] id), by decide⟩,
   ⟨.dap, 0, 0, (sT [] id), by decide⟩,
   ⟨0, (sT [] id), by decide⟩,
   ⟨.dap, 0, (sT [] id), by decide⟩,
   ⟨.dap, 0, (sT [] id), by decide⟩,
   ⟨.dap, 0, (sT [] id), by decide, 0, 0, by decide⟩,
   ⟨.dap, 0, (sT [] id), by decide, 0, 5, by decide⟩⟩

theorem meets_EngineInstructions_1 :
    (∃ (e : Fin 32), ∃ (s : State), ∃ (w : Nat), EngReady s.dev (↑e) w ∧ w / 2 ^ 20 = 0 ∧ anySub w = true) ∧
    (∃ (e : Fin 32), ∃ (s : State), ∃ (w : Nat), EngReady s.dev (↑e) w ∧ w / 2 ^ 20 = 4 ∧ (bits w 15 14 == 0) = true) ∧
    (∃ (e : Fin 32), ∃ (s : State), ∃ (w : Nat), EngReady s.dev (↑e) w ∧ w / 2 ^ 20 = 4 ∧ (bits w 15 14 == 1) = true) ∧
    (∃ (e : Fin 32), ∃ (s : State), ∃ (w : Nat), EngReady s.dev (↑e) w ∧ w / 2 ^ 20 = 4 ∧ (bits w 15 14 == 2) = true) ∧
    (∃ (e : Fin 32), ∃ (s : State), ∃ (w : Nat), EngReady s.dev (↑e) w ∧ w / 2 ^ 20 = 5 ∧ anySub w = true) ∧
    (∃ (e : Fin 32), ∃ (s : State), ∃ (w : Nat), EngReady s.dev (↑e) w ∧ w / 2 ^ 20 = 6 ∧ (!bit w 1) = true) ∧
    (∃ (e : Fin 32), ∃ (s : State), ∃ (w : Nat), EngReady s.dev (↑e) w ∧ w / 2 ^ 20 = 6 ∧ w.testBit 1 = true) ∧
    (∃ (e : Fin 32), ∃ (s : State), ∃ (w : Nat), EngReady s.dev (↑e) w ∧ w / 2 ^ 20 = 7 ∧ (bits w 1 0 == 0) = true) ∧
    (∃ (e : Fin 32), ∃ (s : State), ∃ (w : Nat), EngReady s.dev (↑e) w ∧ w / 2 ^ 20 = 7 ∧ (bits w 1 0 == 1) = true) ∧
    (∃ (e : Fin 32), ∃ (s : State), ∃ (w : Nat), EngReady s.dev (↑e) w ∧ w / 2 ^ 20 = 7 ∧ (bits w 1 0 == 2) = true) :=
  ⟨⟨0, (sE 0 [] id), 0, eng_of (by decide), by decide⟩,
   ⟨0, (sE 0x400123 [] id), 0x400123, eng_of (by decide), by decide⟩,
   ⟨0, (sE 0x404000 [] id), 0x404000, eng_of (by decide), by decide⟩,
   ⟨0, (sE 0x408005 [] id), 0x408005, eng_of (by decide), by decide⟩,
   ⟨0, (sE 0x500003 [] id), 0x500003, eng_of (by decide), by decide⟩,
   ⟨0, (sE 0x600001 [] id), 0x600001, eng_of (by decide), by decide⟩,
   ⟨0, (sE 0x600802 [] id), 0x600802, eng_of (by decide), by decide⟩,
   ⟨0, (sE 0x700000 [(CHS_CRC_CFG 0, 0x00000008), (CHS_CRC_VAL 0, 0x12345678)] id), 0x700000, eng_of (by decide),
     by decide⟩,
   ⟨0, (sE 0x700001 [] id), 0x700001, eng_of (by decide), by decide⟩,
   ⟨0, (sE 0x700002 [] id), 0x700002, eng_of (by decide), by decide⟩⟩

theorem meets_EngineInstructions_2 :
    (∃ (e : Fin 32), ∃ (s : State), ∃ (w : Nat), EngReady s.dev (↑e) w ∧ w / 2 ^ 20 = 7 ∧ (bits w 1 0 == 3) = true) ∧
    (∃ (e : Fin 32), ∃ (s : State), ∃ (w : Nat), EngReady s.dev (↑e) w ∧ w / 2 ^ 20 = 12 ∧ anySub w = true) ∧
    (∃ (e : Fin 32), ∃ (s : State), ∃ (w : Nat), EngReady s.dev (↑e) w ∧ w / 2 ^ 20 = 13 ∧ anySub w = true) ∧
    (∃ (e : Fin 32), ∃ (s : State), ∃ (w : Nat), EngReady s.dev (↑e) w ∧ w / 2 ^ 20 = 8) :=
  ⟨⟨0, (sE 0x700003 [] id), 0x700003, eng_of (by decide), by decide⟩,
   ⟨0, (sE 0xC01234 [] id), 0xC01234, eng_of (by decide), by decide⟩,
   ⟨0, (sE 0xD0001F [] id), 0xD0001F, eng_of (by decide), by decide⟩,
   ⟨0, (sE 0x800009 [] id), 0x800009, eng_of (by decide), by decide⟩⟩

theorem meets_EngineTransfersAndWaits_1 :
    (∃ (e : Fin 32), ∃ (s : State), ∃ (w : Nat), EngReady s.dev (↑e) w ∧ w / 2 ^ 20 = 1 ∧ ∃ (rx : List Bool),
      rx.length = if bits w 5 0 = 0 then 64 else bits w 5 0) ∧
    (∃ (e : Fin 32), ∃ (s : State), ∃ (w : Nat), EngReady s.dev (↑e) w ∧ w / 2 ^ 20 = 1 ∧ ∃ (rx : List Bool),
      rx.length < if bits w 5 0 = 0 then 64 else bits w 5 0) ∧
    (∃ (e : Fin 32), ∃ (s : State), ∃ (w : Nat), EngReady s.dev (↑e) w ∧ w / 2 ^ 20 = 2 ∧ ∃ (rx : List Bool),
      rx.length = bits w 14 12 + 1) ∧
    (∃ (e : Fin 32), ∃ (s : State), ∃ (w : Nat), EngReady s.dev (↑e) w ∧ w / 2 ^ 20 = 3) ∧
    (∃ (e : Fin 32), ∃ (s : State), ∃ (w : Nat), EngReady s.dev (↑e) w ∧ w / 2 ^ 20 = 10 ∧ w.testBit 1 = false ∧
      (s.dev.eng ↑e).outq.length < 8) ∧
    (∃ (e : Fin 32), ∃ (s : State), ∃ (w : Nat), EngReady s.dev (↑e) w ∧ w / 2 ^ 20 = 10 ∧ w.testBit 1 = false ∧
      8 ≤ (s.dev.eng ↑e).outq.length ∧ w.testBit 0 = true) ∧
    (∃ (e : Fin 32), ∃ (s : State), ∃ (w : Nat), EngReady s.dev (↑e) w ∧ w / 2 ^ 20 = 10 ∧ w.testBit 1 = false ∧
      8 ≤ (s.dev.eng ↑e).outq.length ∧ w.testBit 0 = false) ∧
    (∃ (e : Fin 32), ∃ (s : State), ∃ (w : Nat), EngReady s.dev (↑e) w ∧ w / 2 ^ 20 = 10 ∧ w.testBit 1 = true ∧
      s.dev.bankUp (egCl ↑e * 16 + (s.dev.fld (CHS_MEM_BASE ↑e) CHS_MEM_BASE_mem_base * 4 + 4 * s.dev.fld (CHS_MEM_LEN ↑e) CHS_MEM_LEN_ptr) % 1048576 / 65536) = true ∧
      isBank15 (egCl ↑e * 16 + (s.dev.fld (CHS_MEM_BASE ↑e) CHS_MEM_BASE_mem_base * 4 + 4 * s.dev.fld (CHS_MEM_LEN ↑e) CHS_MEM_LEN_ptr) % 1048576 / 65536) = false ∧
      s.dev.ingotOk Mst.engine (egCl ↑e * 16 + (s.dev.fld (CHS_MEM_BASE ↑e) CHS_MEM_BASE_mem_base * 4 + 4 * s.dev.fld (CHS_MEM_LEN ↑e) CHS_MEM_LEN_ptr) % 1048576 / 65536) true = true ∧
      s.mem.errAt (bankAddr (egCl ↑e * 16 + (s.dev.fld (CHS_MEM_BASE ↑e) CHS_MEM_BASE_mem_base * 4 + 4 * s.dev.fld (CHS_MEM_LEN ↑e) CHS_MEM_LEN_ptr) % 1048576 / 65536) ((s.dev.fld (CHS_MEM_BASE ↑e) CHS_MEM_BASE_mem_base * 4 + 4 * s.dev.fld (CHS_MEM_LEN ↑e) CHS_MEM_LEN_ptr) % 1048576 % 65536)) = 0) ∧
    (∃ (e : Fin 32), ∃ (s : State), ∃ (w : Nat), EngReady s.dev (↑e) w ∧ ∃ (v : Word), ∃ (r : List Word),
      (s.dev.eng ↑e).inq = v :: r ∧ w / 2 ^ 20 = 11) ∧
    (∃ (e : Fin 32), ∃ (s : State), ∃ (w : Nat), EngReady s.dev (↑e) w ∧ w / 2 ^ 20 = 11 ∧ (s.dev.eng ↑e).inq = []) :=
  ⟨⟨0, (sE 0x104003 [] id), 0x104003, eng_of (by decide), by decide, ([true, false, true] : List Bool), by decide⟩,
   ⟨0, (sE 0x104003 [] id), 0x104003, eng_of (by decide), by decide, ([] : List Bool), by decide⟩,
   ⟨0, (sE 0x203005 [] id), 0x203005, eng_of (by decide), by decide, ([true, false, true, true] : List Bool),
     by decide⟩,
   ⟨0, (sE 0x301000 [] id), 0x301000, eng_of (by decide), by decide⟩,
   ⟨0, (sE 0xA00000 [] id), 0xA00000, eng_of (by decide), by decide⟩,
   ⟨0, (sE 0xA00001 [] fun e => { e with outq := [1, 2, 3, 4, 5, 6, 7, 8] }), 0xA00001, eng_of (by decide),
     by decide⟩,
   ⟨0, (sE 0xA00000 [] fun e => { e with outq := [1, 2, 3, 4, 5, 6, 7, 8] }), 0xA00000, eng_of (by decide),
     by decide⟩,
   ⟨0, (sE 0xA00002 [(CHS_MEM_LEN 0, 0x00000010), (ING_BANK_SHARE 0, 0xFFFFFFFF)] id), 0xA00002, eng_of (by decide),
     by decide⟩,
   ⟨0, (sE 0xB00000 [] fun e => { e with inq := [5, 6] }), 0xB00000, eng_of (by decide), _, _, rfl, by decide⟩,
   ⟨0, (sE 0xB00000 [] id), 0xB00000, eng_of (by decide), by decide⟩⟩

theorem meets_EngineTransfersAndWaits_2 :
    (∃ (e : Fin 32), ∃ (s : State), ∃ (w : Nat), EngReady s.dev (↑e) w ∧ w / 2 ^ 20 = 9 ∧ (w % 2 = 1 ∨ ∃ (m : Nat),
      m ∈ s.dev.barrier (egCl ↑e) (s.dev.fld (CHS_CFG ↑e) CHS_CFG_grp) ∧ m ≠ ↑e ∧ s.dev.atSync m 0 = false)) ∧
    (∃ (e : Fin 32), ∃ (s : State), ∃ (w : Nat), (s.dev.eng ↑e).ir = some w ∧ s.dev.clusterRuns (egCl ↑e) = true ∧
      s.dev.egOn ↑e = true ∧ s.dev.egHold ↑e = false ∧ s.dev.flag (CHS_LOOP ↑e) CHS_LOOP_loop_en = false ∧
      w / 2 ^ 20 = 3 ∧ (s.dev.eng ↑e).edge = false) ∧
    (∃ (e : Fin 32), ∃ (s : State), ∃ (w : Nat), (s.dev.eng ↑e).ir = some w ∧ s.dev.clusterRuns (egCl ↑e) = true ∧
      s.dev.egOn ↑e = true ∧ s.dev.egHold ↑e = false ∧ s.dev.flag (CHS_LOOP ↑e) CHS_LOOP_loop_en = false ∧
      w / 2 ^ 20 = 3 ∧ (s.dev.eng ↑e).edge = true) ∧
    (∃ (e : Fin 32), ∃ (s : State), ∃ (w : Nat), (s.dev.eng ↑e).ir = some w ∧ s.dev.clusterRuns (egCl ↑e) = true ∧
      s.dev.egOn ↑e = true ∧ s.dev.egHold ↑e = false ∧ s.dev.flag (CHS_LOOP ↑e) CHS_LOOP_loop_en = false ∧
      w / 2 ^ 20 = 3 ∧ bits w 11 0 ≠ 0 ∧ (s.dev.eng ↑e).edge = false ∧
      (s.dev.eng ↑e).waitAt + bits w 11 0 * s.dev.fld (CHS_CFG ↑e) CHS_CFG_step_len ≤ s.dev.now) ∧
    (∃ (e : Fin 32), ∃ (s : State), ∃ (w : Nat), (s.dev.eng ↑e).ir = some w ∧ s.dev.clusterRuns (egCl ↑e) = true ∧
      s.dev.egOn ↑e = true ∧ s.dev.egHold ↑e = false ∧ s.dev.flag (CHS_LOOP ↑e) CHS_LOOP_loop_en = false ∧
      w / 2 ^ 20 = 3 ∧ (bits w 11 0 = 0 ∨ (s.dev.eng ↑e).edge = true ∨
      s.dev.now < (s.dev.eng ↑e).waitAt + bits w 11 0 * s.dev.fld (CHS_CFG ↑e) CHS_CFG_step_len)) ∧
    (∃ (e : Fin 32), ∃ (s : State), ∃ (w : Nat), (s.dev.eng ↑e).ir = some w ∧ s.dev.clusterRuns (egCl ↑e) = true ∧
      s.dev.egOn ↑e = true ∧ s.dev.egHold ↑e = false ∧ s.dev.flag (CHS_LOOP ↑e) CHS_LOOP_loop_en = false ∧
      w / 2 ^ 20 = 9 ∧ w % 2 = 1) :=
  ⟨⟨0, (sE 0x900001 [] id), 0x900001, eng_of (by decide), by decide⟩,
   ⟨0, (sE 0 [] fun e => { e with ir := some 0x302005 }), _, rfl, by decide⟩,
   ⟨0, (sE 0 [] fun e => { e with ir := some 0x302005, edge := true }), _, rfl, by decide⟩,
   ⟨0,
     ({ sE 0 [] fun e => { e with ir := some 0x302005 } with dev := { (sE 0 [] fun e => { e with ir := some 0x302005 }).dev with now := 1000000 } }),
     _, rfl, by decide⟩,
   ⟨0, (sE 0 [] fun e => { e with ir := some 0x302005 }), _, rfl, by decide⟩,
   ⟨0, (sE 0 [] fun e => { e with ir := some 0x900001 }), _, rfl, by decide⟩⟩

theorem meets_EngineControl_1 :
    (∃ (w : Writer), ∃ (e : Fin 32), ∃ (v : Word), ∃ (s : State), s.dev.clusterRuns (egCl ↑e) = true ∧
      (s.dev.eng ↑e).inq.length < 8 ∧ (s.dev.eng ↑e).ir = none) ∧
    (∃ (w : Writer), ∃ (e : Fin 32), ∃ (v : Word), ∃ (s : State), s.dev.clusterRuns (egCl ↑e) = true ∧
      8 ≤ (s.dev.eng ↑e).inq.length) ∧
    (∃ (w : Writer), ∃ (e : Fin 32), ∃ (v : Word), ∃ (s : State), s.dev.clusterRuns (egCl ↑e) = true ∧ ∃ (x : Word),
      ∃ (r : List Word), (s.dev.eng ↑e).outq = x :: r ∧ (s.dev.eng ↑e).ir = none) ∧
    (∃ (w : Writer), ∃ (e : Fin 32), ∃ (v : Word), ∃ (s : State), s.dev.clusterRuns (egCl ↑e) = true ∧
      (s.dev.eng ↑e).outq = []) ∧
    (∃ (w : Writer), ∃ (e : Fin 32), ∃ (v : Word), ∃ (s : State), s.dev.clusterRuns (egCl ↑e) = true ∧
      s.dev.egOn ↑e = false) ∧
    (∃ (w : Writer), ∃ (e : Fin 32), ∃ (v : Word), ∃ (s : State), s.dev.clusterRuns (egCl ↑e) = true ∧
      s.dev.egOn ↑e = false ∧ (BitVec.toNat v).testBit (↑e % 8) = true) ∧
    (∃ (w : Writer), ∃ (e : Fin 32), ∃ (v : Word), ∃ (s : State), s.dev.clusterRuns (egCl ↑e) = true ∧
      s.dev.egOn ↑e = true ∧ s.dev.fld (CHS_CFG ↑e) CHS_CFG_grp_en ≠ 1) ∧
    (∃ (w : Writer), ∃ (e : Fin 32), ∃ (v : Word), ∃ (s : State), s.dev.clusterRuns (egCl ↑e) = true ∧
      s.dev.egOn ↑e = true ∧ s.dev.egHold ↑e = false ∧ (BitVec.toNat v).testBit 31 = true) ∧
    (∃ (w : Writer), ∃ (e : Fin 32), ∃ (v : Word), ∃ (s : State), s.dev.clusterRuns (egCl ↑e) = true ∧
      s.dev.egOn ↑e = true ∧ s.dev.egHold ↑e = true ∧ (BitVec.toNat v).testBit 31 = true ∧
      (s.dev.eng ↑e).ir = none ∧ (s.dev.eng ↑e).rel = false) ∧
    (∃ (w : Writer), ∃ (e : Fin 32), ∃ (v : Word), ∃ (s : State), s.dev.clusterRuns (egCl ↑e) = true ∧
      s.dev.patchRefused ↑e = true ∧ ∃ (i : Option (Fin 64)), True) :=
  ⟨⟨.dap, 0, 0, (sT [] id), by decide⟩,
   ⟨.dap, 0, 0, (sE 0 [] fun e => { e with inq := [1, 2, 3, 4, 5, 6, 7, 8], ir := some 0x900001 }), by decide⟩,
   ⟨.dap, 0, 0, (sE 0 [] fun e => { e with outq := [1, 2] }), by decide, _, _, rfl, by decide⟩,
   ⟨.dap, 0, 0, (sT [] id), by decide⟩,
   ⟨.dap, 0, 0, (sT [] id), by decide⟩,
   ⟨.dap, 0, 1, (sT [] id), by decide⟩,
   ⟨.dap, 0, 0, (sE 0 [] id), by decide⟩,
   ⟨.dap, 0, 0x80000000, (sE 0 [] id), by decide⟩,
   ⟨.dap, 0, 0x80000000, (sE 0 [(CHS_CTL 0, 0xC0000003)] id), by decide⟩,
   ⟨.dap, 0, 0, (sE 0 [] id), by decide, by decide, none, by decide⟩⟩

theorem meets_EngineControl_2 :
    (∃ (w : Writer), ∃ (e : Fin 32), ∃ (v : Word), ∃ (s : State), s.dev.clusterRuns (egCl ↑e) = true ∧
      s.dev.patchRefused ↑e = false ∧ ∃ (i : Fin 64), True) ∧
    (∃ (w : Writer), ∃ (e : Fin 32), ∃ (v : Word), ∃ (s : State), s.dev.clusterRuns (egCl ↑e) = true ∧
      s.dev.patchRefused ↑e = false ∧ fget CHS_LOOP_last v < fget CHS_LOOP_first v) :=
  ⟨⟨.dap, 0, 0, (sT [] id), by decide, by decide, 0, by decide⟩,
   ⟨.dap, 0, 1, (sT [] id), by decide⟩⟩

theorem meets_CrucibleTriggers :
    (∃ (c : Fin 4), ∃ (k : Fin 4), ∃ (s : State), s.dev.clusterRuns ↑c = true) ∧
    (∃ (k : Fin 4), ∃ (l : Fin 3), ∃ (s : State), s.dev.nextStart ↑k = none) ∧
    (∃ (k : Fin 4), ∃ (l : Fin 3), ∃ (s : State), ∃ (it : CrossItem), s.dev.nextStart ↑k = some it ∧ ∃ (tt : Nat),
      it.pay = CrossPay.trig (↑k) tt ∧ s.dev.flag (CRU_TRG_CFG ↑k) CRU_TRG_CFG_counting = true) ∧
    (∃ (k : Fin 4), ∃ (l : Fin 3), ∃ (s : State), ∃ (it : CrossItem), s.dev.nextStart ↑k = some it ∧ ∃ (tt : Nat),
      it.pay = CrossPay.trig (↑k) tt ∧ s.dev.flag (CRU_TRG_CFG ↑k) CRU_TRG_CFG_counting = false ∧ ∀ (b : Bool),
      ¬Due.cruMatch (↑k) b ∈ s.dev.due) ∧
    (∃ (k : Fin 4), ∃ (s : State), s.dev.flag (CRU_TRG_CFG ↑k) CRU_TRG_CFG_counting = false ∨ ∀ (b : Bool),
      ¬Due.cruMatch (↑k) b ∈ s.dev.due) ∧
    (∃ (k : Fin 4), ∃ (s : State), s.dev.flag (CRU_TRG_CFG ↑k) CRU_TRG_CFG_counting = true ∧ ∃ (b : Bool),
      Due.cruMatch (↑k) b ∈ s.dev.due) :=
  ⟨⟨0, 0, (sT [] id), by decide⟩,
   ⟨0, 0, (sT [] id), by decide⟩,
   ⟨0, 0, (sT [(CRU_TRG_CFG 0, 0x90000003)] fun d => { d with crossing := [trigX 0 77], due := [.cruMatch 0 true] }),
     _, rfl, 77, by decide⟩,
   ⟨0, 0, (sT [(CRU_TRG_CFG 0, 0x80000003)] fun d => { d with crossing := [trigX 0 77] }), _, rfl, 77, by decide⟩,
   ⟨0, (sT [] id), by decide⟩,
   ⟨0, (sT [(CRU_TRG_CFG 0, 0x90000003)] fun d => { d with crossing := [trigX 0 77], due := [.cruMatch 0 true] }),
     by decide, true, by decide⟩⟩

theorem meets_CrucibleConversions_1 :
    (∃ (w : Writer), ∃ (j : Fin 16), ∃ (v : Word), ∃ (s : State), cruCfgBad v = true) ∧
    (∃ (w : Writer), ∃ (j : Fin 16), ∃ (v : Word), ∃ (s : State),
      (fget CRU_CFG_en v == 0 && s.dev.flag (CRU_CFG ↑j) CRU_CFG_en) = false ∧ s.dev.cruRun ↑j ≠ none) ∧
    (∃ (w : Writer), ∃ (j : Fin 16), ∃ (v : Word), ∃ (s : State), ∃ (r : ConvRun), s.dev.cruRun ↑j = some r ∧
      cruCfgBad v = false ∧ (fget CRU_CFG_en v == 0 && s.dev.flag (CRU_CFG ↑j) CRU_CFG_en) = true ∧
      r.check = false ∧ r.began ≠ s.dev.now / 20) ∧
    (∃ (w : Writer), ∃ (j : Fin 16), ∃ (v : Word), ∃ (s : State), ∃ (r : ConvRun), s.dev.cruRun ↑j = some r ∧
      cruCfgBad v = false ∧ (fget CRU_CFG_en v == 0 && s.dev.flag (CRU_CFG ↑j) CRU_CFG_en) = true ∧
      r.check = false ∧ r.began = s.dev.now / 20) ∧
    (∃ (w : Writer), ∃ (j : Fin 16), ∃ (v : Word), ∃ (s : State), ∃ (r : ConvRun), s.dev.cruRun ↑j = some r ∧
      cruCfgBad v = false ∧ (fget CRU_CFG_en v == 0 && s.dev.flag (CRU_CFG ↑j) CRU_CFG_en) = true ∧
      r.check = true) ∧
    (∃ (w : Writer), ∃ (j : Fin 16), ∃ (v : Word), ∃ (s : State), cruCfgBad v = false ∧ s.dev.cruRun ↑j = none ∧
      fget CRU_CFG_go v = 0) ∧
    (∃ (w : Writer), ∃ (j : Fin 16), ∃ (v : Word), ∃ (s : State), cruCfgBad v = false ∧ s.dev.cruRun ↑j = none ∧
      fget CRU_CFG_en v = 1 ∧ s.dev.flag CRU_REF_CTL CRU_REF_CTL_ref_en = true) ∧
    (∃ (w : Writer), ∃ (j : Fin 16), ∃ (v : Word), ∃ (s : State), cruCfgBad v = false ∧ s.dev.cruRun ↑j = none ∧
      fget CRU_CFG_en v = 1 ∧ s.dev.flag CRU_REF_CTL CRU_REF_CTL_ref_en = false) ∧
    (∃ (j : Fin 16), ∃ (s : State), ∃ (r : ConvRun), s.dev.cruRun ↑j = some r) ∧
    (∃ (j : Fin 16), ∃ (s : State), ∃ (r : ConvRun), s.dev.cruRun ↑j = some r ∧ r.rundown = false ∧
      ∃ (ain : List Int), ∃ (exc : Option Nat), True) :=
  ⟨⟨.dap, 0, 0xFFFFFFFF, (sCru [] [] false), by decide⟩,
   ⟨.dap, 0, 0, (sCru [] [(0, some { aConv with cfg := 0xA6300000 })] false), by decide⟩,
   ⟨.dap, 0, 0, ((let s := sCru [(CRU_REF_CTL, 0xC0000F0F), (CRU_CFG 0, 0x80000000)] [(0,
     some { aConv with tWas := 99 })] true; { s with dev := { s.dev with now := 55555 } })), _, rfl, by decide⟩,
   ⟨.dap, 0, 0, (sCru [(CRU_REF_CTL, 0xC0000F0F), (CRU_CFG 0, 0x80000000)] [(0, some aConv)] false), _, rfl,
     by decide⟩,
   ⟨.dap, 1, 0, ((let s := sCru [(CRU_REF_CTL, 0xC000000F), (CRU_CFG 1, 0x80000000)] [(1,
     some { aConv with check := true })] true; { s with dev := { s.dev with now := 55555 } })), _, rfl, by decide⟩,
   ⟨.dap, 0, 0, (sCru [] [] false), by decide⟩,
   ⟨.dap, 0, 0x80000000, (sCru [(CRU_REF_CTL, 0xC0000F0F), (CRU_CFG 0, 0x80000000)] [] false), by decide⟩,
   ⟨.dap, 0, 0x80000000, (sCru [] [] false), by decide⟩,
   ⟨0, (sCru [(CRU_REF_CTL, 0xC0000F0F), (CRU_CFG 0, 0x80000000)] [(0, some aConv)] false), _, rfl⟩,
   ⟨0, (sCru [(CRU_REF_CTL, 0xC0000F0F), (CRU_CFG 0, 0xA0000000)] [(0, some { aConv with rundown := false })] false),
     _, rfl, by decide, (List.replicate 24 0 : List Int), none, by decide⟩⟩

theorem meets_CrucibleConversions_2 :
    (∃ (j : Fin 16), ∃ (s : State), ∃ (r : ConvRun), s.dev.cruRun ↑j = some r ∧ r.rundown = true ∧ ∃ (ain : List Int),
      ∃ (exc : Option Nat), 0 < s.dev.cruVref r.cfg exc ∨ fget CRU_CFG_ratio r.cfg = 0) ∧
    (∃ (k : Fin 4), ∃ (s : State), s.dev.flag CRU_REF_CTL CRU_REF_CTL_ref_en = true) ∧
    (∃ (k : Fin 4), ∃ (s : State), s.dev.flag CRU_REF_CTL CRU_REF_CTL_ref_en = false) ∧
    (∃ (k : Fin 4), ∃ (s : State), (s.dev.fld CRU_REF_CTL CRU_REF_CTL_exc_en).testBit ↑k = true ∧ (CRU_REF_CTL_exc_ok,
      true).snd = true) ∧
    (∃ (k : Fin 4), ∃ (s : State), (s.dev.fld CRU_REF_CTL CRU_REF_CTL_exc_en).testBit ↑k = false) ∧
    (∃ (k : Fin 4), ∃ (s : State), (s.dev.fld CRU_REF_CTL CRU_REF_CTL_exc_en).testBit ↑k = true ∧
      (CRU_REF_CTL_exc_ilim, s.dev.flag CRU_REF_CTL CRU_REF_CTL_ref_en).snd = true) :=
  ⟨⟨0, (sCru [(CRU_REF_CTL, 0xC0000F0F), (CRU_CFG 0, 0x80000000)] [(0, some aConv)] false), _, rfl, by decide,
     (List.replicate 24 0 : List Int), none, by decide⟩,
   ⟨0, (sCru [(CRU_REF_CTL, 0xC0000F0F), (CRU_CFG 0, 0x80000000)] [] false), by decide⟩,
   ⟨0, (sCru [] [] false), by decide⟩,
   ⟨0, (sCru [(CRU_REF_CTL, 0xC0000F0F), (CRU_CFG 0, 0x80000000)] [] false), by decide⟩,
   ⟨0, (sCru [] [] false), by decide⟩,
   ⟨0, (sCru [(CRU_REF_CTL, 0xC0000F0F), (CRU_CFG 0, 0x80000000)] [] false), by decide⟩⟩

theorem meets_AnvilRegisterInstructions_1 :
    (∃ (k : Fin 19), ∃ (s : State), ∃ (w : Word), AnvReady s.mem s.dev (↑k) w ∧ iwOp w = 0) ∧
    (∃ (k : Fin 19), ∃ (s : State), ∃ (w : Word), AnvReady s.mem s.dev (↑k) w ∧ iwOp w = 1 ∧
      (s.dev.core ↑k).byteMode = false ∧ iwR w = true) ∧
    (∃ (k : Fin 19), ∃ (s : State), ∃ (w : Word), AnvReady s.mem s.dev (↑k) w ∧ iwOp w = 1 ∧
      ((s.dev.core ↑k).byteMode = false ∧ iwR w = false) ∧ (s.dev.core ↑k).tag (iwA w) = 1 ∧
      (s.dev.core ↑k).tag (iwB w) = 1) ∧
    (∃ (k : Fin 19), ∃ (s : State), ∃ (w : Word), AnvReady s.mem s.dev (↑k) w ∧ iwOp w = 1 ∧
      ((s.dev.core ↑k).byteMode = false ∧ iwR w = false) ∧ ((s.dev.core ↑k).tag (iwA w) = 15 ∨
      (s.dev.core ↑k).tag (iwB w) = 15)) ∧
    (∃ (k : Fin 19), ∃ (s : State), ∃ (w : Word), AnvReady s.mem s.dev (↑k) w ∧ iwOp w = 1 ∧
      ((s.dev.core ↑k).byteMode = false ∧ iwR w = false) ∧ ((s.dev.core ↑k).tag (iwA w) = 4 ∨
      (s.dev.core ↑k).tag (iwB w) = 4) ∧ (s.dev.core ↑k).tag (iwA w) ≠ 15 ∧ (s.dev.core ↑k).tag (iwB w) ≠ 15) ∧
    (∃ (k : Fin 19), ∃ (s : State), ∃ (w : Word), AnvReady s.mem s.dev (↑k) w ∧ iwOp w = 2 ∧
      (s.dev.core ↑k).byteMode = false ∧ iwR w = true) :=
  ⟨⟨0, (sN 0 [0x0] [] (id)), 0x00000000, anv_of rfl (by decide), by decide⟩,
   ⟨0, (sN 0 [0x4C4A00] [] (ab 0x80000000 0xFFFFFFFF 2 1)), 0x004c4a00, anv_of rfl (by decide), by decide⟩,
   ⟨0, (sN 0 [0x4C4800] [] (ab 0xFFFFFF80 0x3 1 1)), 0x004c4800, anv_of rfl (by decide), by decide⟩,
   ⟨0, (sN 0 [0x4C4800] [] (ab 0xFFFFFF80 0x3 15 1)), 0x004c4800, anv_of rfl (by decide), by decide⟩,
   ⟨0, (sN 0 [0x4C4800] [] (ab 0x7FFFFFFF 0x1 4 1)), 0x004c4800, anv_of rfl (by decide), by decide⟩,
   ⟨0, (sN 0 [0x8C4A00] [] (ab 0xFFFFFFFF 0x80000000 2 1)), 0x008c4a00, anv_of rfl (by decide), by decide⟩⟩

theorem meets_AnvilRegisterInstructions_2 :
    (∃ (k : Fin 19), ∃ (s : State), ∃ (w : Word), AnvReady s.mem s.dev (↑k) w ∧ iwOp w = 2 ∧
      ((s.dev.core ↑k).byteMode = false ∧ iwR w = false) ∧ (s.dev.core ↑k).tag (iwA w) = 1 ∧
      (s.dev.core ↑k).tag (iwB w) = 1) ∧
    (∃ (k : Fin 19), ∃ (s : State), ∃ (w : Word), AnvReady s.mem s.dev (↑k) w ∧ iwOp w = 2 ∧
      ((s.dev.core ↑k).byteMode = false ∧ iwR w = false) ∧ ((s.dev.core ↑k).tag (iwA w) = 15 ∨
      (s.dev.core ↑k).tag (iwB w) = 15)) ∧
    (∃ (k : Fin 19), ∃ (s : State), ∃ (w : Word), AnvReady s.mem s.dev (↑k) w ∧ iwOp w = 2 ∧
      ((s.dev.core ↑k).byteMode = false ∧ iwR w = false) ∧ ((s.dev.core ↑k).tag (iwA w) = 4 ∨
      (s.dev.core ↑k).tag (iwB w) = 4) ∧ (s.dev.core ↑k).tag (iwA w) ≠ 15 ∧ (s.dev.core ↑k).tag (iwB w) ≠ 15) ∧
    (∃ (k : Fin 19), ∃ (s : State), ∃ (w : Word), AnvReady s.mem s.dev (↑k) w ∧ iwOp w = 3 ∧
      (s.dev.core ↑k).byteMode = false ∧ iwR w = true) ∧
    (∃ (k : Fin 19), ∃ (s : State), ∃ (w : Word), AnvReady s.mem s.dev (↑k) w ∧ iwOp w = 3 ∧
      ((s.dev.core ↑k).byteMode = false ∧ iwR w = false) ∧ (s.dev.core ↑k).tag (iwA w) = 1 ∧
      (s.dev.core ↑k).tag (iwB w) = 1) ∧
    (∃ (k : Fin 19), ∃ (s : State), ∃ (w : Word), AnvReady s.mem s.dev (↑k) w ∧ iwOp w = 3 ∧
      ((s.dev.core ↑k).byteMode = false ∧ iwR w = false) ∧ ((s.dev.core ↑k).tag (iwA w) = 15 ∨
      (s.dev.core ↑k).tag (iwB w) = 15)) :=
  ⟨⟨0, (sN 0 [0x8C4800] [] (ab 0x80000000 0x21 1 1)), 0x008c4800, anv_of rfl (by decide), by decide⟩,
   ⟨0, (sN 0 [0x8C4800] [] (ab 0xFFFFFFFF 0x80000000 15 1)), 0x008c4800, anv_of rfl (by decide), by decide⟩,
   ⟨0, (sN 0 [0x8C4800] [] (ab 0x5 0x7 1 4)), 0x008c4800, anv_of rfl (by decide), by decide⟩,
   ⟨0, (sN 0 [0xCC4A00] [] (ab 0x80000000 0xFFFFFFFF 2 1)), 0x00cc4a00, anv_of rfl (by decide), by decide⟩,
   ⟨0, (sN 0 [0xCC4800] [] (ab 0x7FFFFFFF 0x1 1 1)), 0x00cc4800, anv_of rfl (by decide), by decide⟩,
   ⟨0, (sN 0 [0xCC4800] [] (ab 0xFFFFFF80 0x3 15 1)), 0x00cc4800, anv_of rfl (by decide), by decide⟩⟩

theorem meets_AnvilRegisterInstructions_3 :
    (∃ (k : Fin 19), ∃ (s : State), ∃ (w : Word), AnvReady s.mem s.dev (↑k) w ∧ iwOp w = 3 ∧
      ((s.dev.core ↑k).byteMode = false ∧ iwR w = false) ∧ ((s.dev.core ↑k).tag (iwA w) = 4 ∨
      (s.dev.core ↑k).tag (iwB w) = 4) ∧ (s.dev.core ↑k).tag (iwA w) ≠ 15 ∧ (s.dev.core ↑k).tag (iwB w) ≠ 15) ∧
    (∃ (k : Fin 19), ∃ (s : State), ∃ (w : Word), AnvReady s.mem s.dev (↑k) w ∧ iwOp w = 4 ∧
      (s.dev.core ↑k).byteMode = false ∧ iwR w = true) ∧
    (∃ (k : Fin 19), ∃ (s : State), ∃ (w : Word), AnvReady s.mem s.dev (↑k) w ∧ iwOp w = 4 ∧
      ((s.dev.core ↑k).byteMode = false ∧ iwR w = false) ∧ (s.dev.core ↑k).tag (iwA w) = 1 ∧
      (s.dev.core ↑k).tag (iwB w) = 1) ∧
    (∃ (k : Fin 19), ∃ (s : State), ∃ (w : Word), AnvReady s.mem s.dev (↑k) w ∧ iwOp w = 4 ∧
      ((s.dev.core ↑k).byteMode = false ∧ iwR w = false) ∧ ((s.dev.core ↑k).tag (iwA w) = 15 ∨
      (s.dev.core ↑k).tag (iwB w) = 15)) ∧
    (∃ (k : Fin 19), ∃ (s : State), ∃ (w : Word), AnvReady s.mem s.dev (↑k) w ∧ iwOp w = 4 ∧
      ((s.dev.core ↑k).byteMode = false ∧ iwR w = false) ∧ ((s.dev.core ↑k).tag (iwA w) = 4 ∨
      (s.dev.core ↑k).tag (iwB w) = 4) ∧ (s.dev.core ↑k).tag (iwA w) ≠ 15 ∧ (s.dev.core ↑k).tag (iwB w) ≠ 15) ∧
    (∃ (k : Fin 19), ∃ (s : State), ∃ (w : Word), AnvReady s.mem s.dev (↑k) w ∧ iwOp w = 5 ∧
      (s.dev.core ↑k).byteMode = false ∧ iwR w = true) :=
  ⟨⟨0, (sN 0 [0xCC4800] [] (ab 0xFFFFFF80 0x3 4 1)), 0x00cc4800, anv_of rfl (by decide), by decide⟩,
   ⟨0, (sN 0 [0x10C4A00] [] (ab 0x7FFFFFFF 0x1 2 1)), 0x010c4a00, anv_of rfl (by decide), by decide⟩,
   ⟨0, (sN 0 [0x10C4800] [] (ab 0x5 0x7 1 1)), 0x010c4800, anv_of rfl (by decide), by decide⟩,
   ⟨0, (sN 0 [0x10C4800] [] (ab 0xFFFFFF80 0x3 15 1)), 0x010c4800, anv_of rfl (by decide), by decide⟩,
   ⟨0, (sN 0 [0x10C4800] [] (ab 0x5 0x7 4 1)), 0x010c4800, anv_of rfl (by decide), by decide⟩,
   ⟨0, (sN 0 [0x14C4A00] [] (ab 0x7FFFFFFF 0x1 4 1)), 0x014c4a00, anv_of rfl (by decide), by decide⟩⟩

theorem meets_AnvilRegisterInstructions_4 :
    (∃ (k : Fin 19), ∃ (s : State), ∃ (w : Word), AnvReady s.mem s.dev (↑k) w ∧ iwOp w = 5 ∧
      ((s.dev.core ↑k).byteMode = false ∧ iwR w = false) ∧ (s.dev.core ↑k).tag (iwA w) = 1 ∧
      (s.dev.core ↑k).tag (iwB w) = 1) ∧
    (∃ (k : Fin 19), ∃ (s : State), ∃ (w : Word), AnvReady s.mem s.dev (↑k) w ∧ iwOp w = 5 ∧
      ((s.dev.core ↑k).byteMode = false ∧ iwR w = false) ∧ ((s.dev.core ↑k).tag (iwA w) = 15 ∨
      (s.dev.core ↑k).tag (iwB w) = 15)) ∧
    (∃ (k : Fin 19), ∃ (s : State), ∃ (w : Word), AnvReady s.mem s.dev (↑k) w ∧ iwOp w = 5 ∧
      ((s.dev.core ↑k).byteMode = false ∧ iwR w = false) ∧ ((s.dev.core ↑k).tag (iwA w) = 4 ∨
      (s.dev.core ↑k).tag (iwB w) = 4) ∧ (s.dev.core ↑k).tag (iwA w) ≠ 15 ∧ (s.dev.core ↑k).tag (iwB w) ≠ 15) ∧
    (∃ (k : Fin 19), ∃ (s : State), ∃ (w : Word), AnvReady s.mem s.dev (↑k) w ∧ iwOp w = 6 ∧
      (s.dev.core ↑k).byteMode = false ∧ iwR w = true) ∧
    (∃ (k : Fin 19), ∃ (s : State), ∃ (w : Word), AnvReady s.mem s.dev (↑k) w ∧ iwOp w = 6 ∧
      ((s.dev.core ↑k).byteMode = false ∧ iwR w = false) ∧ (s.dev.core ↑k).tag (iwA w) = 1 ∧
      (s.dev.core ↑k).tag (iwB w) = 1) ∧
    (∃ (k : Fin 19), ∃ (s : State), ∃ (w : Word), AnvReady s.mem s.dev (↑k) w ∧ iwOp w = 6 ∧
      ((s.dev.core ↑k).byteMode = false ∧ iwR w = false) ∧ ((s.dev.core ↑k).tag (iwA w) = 15 ∨
      (s.dev.core ↑k).tag (iwB w) = 15)) :=
  ⟨⟨0, (sN 0 [0x14C4800] [] (ab 0x80000000 0xFFFFFFFF 1 1)), 0x014c4800, anv_of rfl (by decide), by decide⟩,
   ⟨0, (sN 0 [0x14C4800] [] (ab 0xFFFFFF80 0x3 15 1)), 0x014c4800, anv_of rfl (by decide), by decide⟩,
   ⟨0, (sN 0 [0x14C4800] [] (ab 0xFFFFFF80 0x3 1 4)), 0x014c4800, anv_of rfl (by decide), by decide⟩,
   ⟨0, (sN 0 [0x18C4A00] [] (ab 0xFFFFFF80 0x3 4 1)), 0x018c4a00, anv_of rfl (by decide), by decide⟩,
   ⟨0, (sN 0 [0x18C4800] [] (ab 0x5 0x7 1 1)), 0x018c4800, anv_of rfl (by decide), by decide⟩,
   ⟨0, (sN 0 [0x18C4800] [] (ab 0x80000000 0x21 15 1)), 0x018c4800, anv_of rfl (by decide), by decide⟩⟩

theorem meets_AnvilRegisterInstructions_5 :
    (∃ (k : Fin 19), ∃ (s : State), ∃ (w : Word), AnvReady s.mem s.dev (↑k) w ∧ iwOp w = 6 ∧
      ((s.dev.core ↑k).byteMode = false ∧ iwR w = false) ∧ ((s.dev.core ↑k).tag (iwA w) = 4 ∨
      (s.dev.core ↑k).tag (iwB w) = 4) ∧ (s.dev.core ↑k).tag (iwA w) ≠ 15 ∧ (s.dev.core ↑k).tag (iwB w) ≠ 15) ∧
    (∃ (k : Fin 19), ∃ (s : State), ∃ (w : Word), AnvReady s.mem s.dev (↑k) w ∧ iwOp w = 7 ∧
      (s.dev.core ↑k).byteMode = false ∧ iwR w = true) ∧
    (∃ (k : Fin 19), ∃ (s : State), ∃ (w : Word), AnvReady s.mem s.dev (↑k) w ∧ iwOp w = 7 ∧
      ((s.dev.core ↑k).byteMode = false ∧ iwR w = false) ∧ (s.dev.core ↑k).tag (iwA w) = 1 ∧
      (s.dev.core ↑k).tag (iwB w) = 1) ∧
    (∃ (k : Fin 19), ∃ (s : State), ∃ (w : Word), AnvReady s.mem s.dev (↑k) w ∧ iwOp w = 7 ∧
      ((s.dev.core ↑k).byteMode = false ∧ iwR w = false) ∧ ((s.dev.core ↑k).tag (iwA w) = 15 ∨
      (s.dev.core ↑k).tag (iwB w) = 15)) ∧
    (∃ (k : Fin 19), ∃ (s : State), ∃ (w : Word), AnvReady s.mem s.dev (↑k) w ∧ iwOp w = 7 ∧
      ((s.dev.core ↑k).byteMode = false ∧ iwR w = false) ∧ ((s.dev.core ↑k).tag (iwA w) = 4 ∨
      (s.dev.core ↑k).tag (iwB w) = 4) ∧ (s.dev.core ↑k).tag (iwA w) ≠ 15 ∧ (s.dev.core ↑k).tag (iwB w) ≠ 15) ∧
    (∃ (k : Fin 19), ∃ (s : State), ∃ (w : Word), AnvReady s.mem s.dev (↑k) w ∧ iwOp w = 8 ∧
      (s.dev.core ↑k).byteMode = false ∧ iwR w = true) :=
  ⟨⟨0, (sN 0 [0x18C4800] [] (ab 0xFFFFFFFF 0x80000000 4 1)), 0x018c4800, anv_of rfl (by decide), by decide⟩,
   ⟨0, (sN 0 [0x1CC4A00] [] (ab 0xFFFFFFFF 0x80000000 1 1)), 0x01cc4a00, anv_of rfl (by decide), by decide⟩,
   ⟨0, (sN 0 [0x1CC4800] [] (ab 0x80000000 0xFFFFFFFF 1 1)), 0x01cc4800, anv_of rfl (by decide), by decide⟩,
   ⟨0, (sN 0 [0x1CC4800] [] (ab 0x5 0x7 1 15)), 0x01cc4800, anv_of rfl (by decide), by decide⟩,
   ⟨0, (sN 0 [0x1CC4800] [] (ab 0xFFFFFFFF 0x80000000 4 1)), 0x01cc4800, anv_of rfl (by decide), by decide⟩,
   ⟨0, (sN 0 [0x20C4A00] [] (ab 0x5 0x7 1 1)), 0x020c4a00, anv_of rfl (by decide), by decide⟩⟩

theorem meets_AnvilRegisterInstructions_6 :
    (∃ (k : Fin 19), ∃ (s : State), ∃ (w : Word), AnvReady s.mem s.dev (↑k) w ∧ iwOp w = 8 ∧
      ((s.dev.core ↑k).byteMode = false ∧ iwR w = false) ∧ (s.dev.core ↑k).tag (iwA w) = 1 ∧
      (s.dev.core ↑k).tag (iwB w) = 1) ∧
    (∃ (k : Fin 19), ∃ (s : State), ∃ (w : Word), AnvReady s.mem s.dev (↑k) w ∧ iwOp w = 8 ∧
      ((s.dev.core ↑k).byteMode = false ∧ iwR w = false) ∧ ((s.dev.core ↑k).tag (iwA w) = 15 ∨
      (s.dev.core ↑k).tag (iwB w) = 15)) ∧
    (∃ (k : Fin 19), ∃ (s : State), ∃ (w : Word), AnvReady s.mem s.dev (↑k) w ∧ iwOp w = 8 ∧
      ((s.dev.core ↑k).byteMode = false ∧ iwR w = false) ∧ ((s.dev.core ↑k).tag (iwA w) = 4 ∨
      (s.dev.core ↑k).tag (iwB w) = 4) ∧ (s.dev.core ↑k).tag (iwA w) ≠ 15 ∧ (s.dev.core ↑k).tag (iwB w) ≠ 15) ∧
    (∃ (k : Fin 19), ∃ (s : State), ∃ (w : Word), AnvReady s.mem s.dev (↑k) w ∧ iwOp w = 9 ∧
      (s.dev.core ↑k).byteMode = false ∧ iwR w = true) ∧
    (∃ (k : Fin 19), ∃ (s : State), ∃ (w : Word), AnvReady s.mem s.dev (↑k) w ∧ iwOp w = 9 ∧
      ((s.dev.core ↑k).byteMode = false ∧ iwR w = false) ∧ (s.dev.core ↑k).tag (iwA w) = 1 ∧
      (s.dev.core ↑k).tag (iwB w) = 1) ∧
    (∃ (k : Fin 19), ∃ (s : State), ∃ (w : Word), AnvReady s.mem s.dev (↑k) w ∧ iwOp w = 9 ∧
      ((s.dev.core ↑k).byteMode = false ∧ iwR w = false) ∧ ((s.dev.core ↑k).tag (iwA w) = 15 ∨
      (s.dev.core ↑k).tag (iwB w) = 15)) :=
  ⟨⟨0, (sN 0 [0x20C4800] [] (ab 0x7FFFFFFF 0x1 1 1)), 0x020c4800, anv_of rfl (by decide), by decide⟩,
   ⟨0, (sN 0 [0x20C4800] [] (ab 0x5 0x7 1 15)), 0x020c4800, anv_of rfl (by decide), by decide⟩,
   ⟨0, (sN 0 [0x20C4800] [] (ab 0xFFFFFF80 0x3 1 4)), 0x020c4800, anv_of rfl (by decide), by decide⟩,
   ⟨0, (sN 0 [0x24C4A00] [] (ab 0x80000000 0x21 2 1)), 0x024c4a00, anv_of rfl (by decide), by decide⟩,
   ⟨0, (sN 0 [0x24C4800] [] (ab 0x5 0x7 1 1)), 0x024c4800, anv_of rfl (by decide), by decide⟩,
   ⟨0, (sN 0 [0x24C4800] [] (ab 0x7FFFFFFF 0x1 15 1)), 0x024c4800, anv_of rfl (by decide), by decide⟩⟩

theorem meets_AnvilRegisterInstructions_7 :
    (∃ (k : Fin 19), ∃ (s : State), ∃ (w : Word), AnvReady s.mem s.dev (↑k) w ∧ iwOp w = 9 ∧
      ((s.dev.core ↑k).byteMode = false ∧ iwR w = false) ∧ ((s.dev.core ↑k).tag (iwA w) = 4 ∨
      (s.dev.core ↑k).tag (iwB w) = 4) ∧ (s.dev.core ↑k).tag (iwA w) ≠ 15 ∧ (s.dev.core ↑k).tag (iwB w) ≠ 15) ∧
    (∃ (k : Fin 19), ∃ (s : State), ∃ (w : Word), AnvReady s.mem s.dev (↑k) w ∧ iwOp w = 10 ∧
      (s.dev.core ↑k).byteMode = false ∧ iwR w = true) ∧
    (∃ (k : Fin 19), ∃ (s : State), ∃ (w : Word), AnvReady s.mem s.dev (↑k) w ∧ iwOp w = 10 ∧
      ((s.dev.core ↑k).byteMode = false ∧ iwR w = false) ∧ (s.dev.core ↑k).tag (iwA w) = 1 ∧
      (s.dev.core ↑k).tag (iwB w) = 1) ∧
    (∃ (k : Fin 19), ∃ (s : State), ∃ (w : Word), AnvReady s.mem s.dev (↑k) w ∧ iwOp w = 10 ∧
      ((s.dev.core ↑k).byteMode = false ∧ iwR w = false) ∧ ((s.dev.core ↑k).tag (iwA w) = 15 ∨
      (s.dev.core ↑k).tag (iwB w) = 15)) ∧
    (∃ (k : Fin 19), ∃ (s : State), ∃ (w : Word), AnvReady s.mem s.dev (↑k) w ∧ iwOp w = 10 ∧
      ((s.dev.core ↑k).byteMode = false ∧ iwR w = false) ∧ ((s.dev.core ↑k).tag (iwA w) = 4 ∨
      (s.dev.core ↑k).tag (iwB w) = 4) ∧ (s.dev.core ↑k).tag (iwA w) ≠ 15 ∧ (s.dev.core ↑k).tag (iwB w) ≠ 15) ∧
    (∃ (k : Fin 19), ∃ (s : State), ∃ (w : Word), AnvReady s.mem s.dev (↑k) w ∧ iwOp w = 1 ∧
      (s.dev.core ↑k).byteMode = true) :=
  ⟨⟨0, (sN 0 [0x24C4800] [] (ab 0xFFFFFF80 0x3 4 1)), 0x024c4800, anv_of rfl (by decide), by decide⟩,
   ⟨0, (sN 0 [0x28C4A00] [] (ab 0x7FFFFFFF 0x1 4 1)), 0x028c4a00, anv_of rfl (by decide), by decide⟩,
   ⟨0, (sN 0 [0x28C4800] [] (ab 0x80000000 0x21 1 1)), 0x028c4800, anv_of rfl (by decide), by decide⟩,
   ⟨0, (sN 0 [0x28C4800] [] (ab 0x80000000 0x21 1 15)), 0x028c4800, anv_of rfl (by decide), by decide⟩,
   ⟨0, (sN 0 [0x28C4800] [] (ab 0x80000000 0x21 4 1)), 0x028c4800, anv_of rfl (by decide), by decide⟩,
   ⟨0, (sN 0 [0x4C4A00] [] (fun c => { ab 0xFFFFFFFF 0x80000000 0 0 c with byteMode := true })), 0x004c4a00,
     anv_of rfl (by decide), by decide⟩⟩

theorem meets_AnvilRegisterInstructions_8 :
    (∃ (k : Fin 19), ∃ (s : State), ∃ (w : Word), AnvReady s.mem s.dev (↑k) w ∧ iwOp w = 2 ∧
      (s.dev.core ↑k).byteMode = true) ∧
    (∃ (k : Fin 19), ∃ (s : State), ∃ (w : Word), AnvReady s.mem s.dev (↑k) w ∧ iwOp w = 3 ∧
      (s.dev.core ↑k).byteMode = true) ∧
    (∃ (k : Fin 19), ∃ (s : State), ∃ (w : Word), AnvReady s.mem s.dev (↑k) w ∧ iwOp w = 4 ∧
      (s.dev.core ↑k).byteMode = true) ∧
    (∃ (k : Fin 19), ∃ (s : State), ∃ (w : Word), AnvReady s.mem s.dev (↑k) w ∧ iwOp w = 5 ∧
      (s.dev.core ↑k).byteMode = true) ∧
    (∃ (k : Fin 19), ∃ (s : State), ∃ (w : Word), AnvReady s.mem s.dev (↑k) w ∧ iwOp w = 1 ∧
      ((s.dev.core ↑k).byteMode = false ∧ iwR w = false) ∧ (s.dev.core ↑k).tag (iwA w) = 2 ∧
      (s.dev.core ↑k).tag (iwB w) = 2) ∧
    (∃ (k : Fin 19), ∃ (s : State), ∃ (w : Word), AnvReady s.mem s.dev (↑k) w ∧ iwOp w = 1 ∧
      ((s.dev.core ↑k).byteMode = false ∧ iwR w = false) ∧ ((s.dev.core ↑k).tag (iwA w) = 6 ∧
      (s.dev.core ↑k).tag (iwB w) = 1 ∨ (s.dev.core ↑k).tag (iwA w) = 1 ∧ (s.dev.core ↑k).tag (iwB w) = 6)) :=
  ⟨⟨0, (sN 0 [0x8C4800] [] (fun c => { ab 0x80000000 0xFFFFFFFF 0 0 c with byteMode := true })), 0x008c4800,
     anv_of rfl (by decide), by decide⟩,
   ⟨0, (sN 0 [0xCC4800] [] (fun c => { ab 0x80000000 0x21 0 0 c with byteMode := true })), 0x00cc4800,
     anv_of rfl (by decide), by decide⟩,
   ⟨0, (sN 0 [0x10C4800] [] (fun c => { ab 0xFFFFFF80 0x3 0 0 c with byteMode := true })), 0x010c4800,
     anv_of rfl (by decide), by decide⟩,
   ⟨0, (sN 0 [0x14C4A00] [] (fun c => { ab 0x5 0x7 0 0 c with byteMode := true })), 0x014c4a00,
     anv_of rfl (by decide), by decide⟩,
   ⟨0, (sN 0 [0x4C4800] [] (ab 0x80000000 0x21 2 2)), 0x004c4800, anv_of rfl (by decide), by decide⟩,
   ⟨0, (sN 0 [0x4C4800] [] (ab 0x80000000 0xFFFFFFFF 1 6)), 0x004c4800, anv_of rfl (by decide), by decide⟩⟩

theorem meets_AnvilRegisterInstructions_9 :
    (∃ (k : Fin 19), ∃ (s : State), ∃ (w : Word), AnvReady s.mem s.dev (↑k) w ∧ iwOp w = 2 ∧
      ((s.dev.core ↑k).byteMode = false ∧ iwR w = false) ∧ (s.dev.core ↑k).tag (iwA w) = 6 ∧
      ((s.dev.core ↑k).tag (iwB w) = 1 ∨ (s.dev.core ↑k).tag (iwB w) = 6)) ∧
    (∃ (k : Fin 19), ∃ (s : State), ∃ (w : Word), AnvReady s.mem s.dev (↑k) w ∧ iwOp w = 11 ∧
      (s.dev.core ↑k).byteMode = false ∧ iwR w = false) ∧
    (∃ (k : Fin 19), ∃ (s : State), ∃ (w : Word), AnvReady s.mem s.dev (↑k) w ∧ iwOp w = 12 ∧
      (s.dev.core ↑k).byteMode = false ∧ iwR w = true) ∧
    (∃ (k : Fin 19), ∃ (s : State), ∃ (w : Word), AnvReady s.mem s.dev (↑k) w ∧ iwOp w = 12 ∧
      ((s.dev.core ↑k).byteMode = false ∧ iwR w = false) ∧ (s.dev.core ↑k).tag (iwA w) = 0) ∧
    (∃ (k : Fin 19), ∃ (s : State), ∃ (w : Word), AnvReady s.mem s.dev (↑k) w ∧ iwOp w = 12 ∧
      ((s.dev.core ↑k).byteMode = false ∧ iwR w = false) ∧ (s.dev.core ↑k).tag (iwA w) = 15) ∧
    (∃ (k : Fin 19), ∃ (s : State), ∃ (w : Word), AnvReady s.mem s.dev (↑k) w ∧ iwOp w = 13 ∧
      (s.dev.core ↑k).byteMode = false ∧ iwR w = true) :=
  ⟨⟨0, (sN 0 [0x8C4800] [] (ab 0xFFFFFFFF 0x80000000 6 1)), 0x008c4800, anv_of rfl (by decide), by decide⟩,
   ⟨0, (sN 0 [0x2CC4000] [] (ab 0xFFFFFFFF 0x80000000 0 1)), 0x02cc4000, anv_of rfl (by decide), by decide⟩,
   ⟨0, (sN 0 [0x30C4200] [] (ab 0xFFFFFFFF 0x80000000 0 1)), 0x030c4200, anv_of rfl (by decide), by decide⟩,
   ⟨0, (sN 0 [0x30C4000] [] (ab 0x7FFFFFFF 0x1 0 1)), 0x030c4000, anv_of rfl (by decide), by decide⟩,
   ⟨0, (sN 0 [0x30C4000] [] (ab 0xFFFFFF80 0x3 15 1)), 0x030c4000, anv_of rfl (by decide), by decide⟩,
   ⟨0, (sN 0 [0x34C4200] [] (ab 0x7FFFFFFF 0x1 0 1)), 0x034c4200, anv_of rfl (by decide), by decide⟩⟩

theorem meets_AnvilRegisterInstructions_10 :
    (∃ (k : Fin 19), ∃ (s : State), ∃ (w : Word), AnvReady s.mem s.dev (↑k) w ∧ iwOp w = 13 ∧
      ((s.dev.core ↑k).byteMode = false ∧ iwR w = false) ∧ (s.dev.core ↑k).tag (iwA w) = 15) ∧
    (∃ (k : Fin 19), ∃ (s : State), ∃ (w : Word), AnvReady s.mem s.dev (↑k) w ∧ iwOp w = 16 ∧
      (s.dev.core ↑k).byteMode = false ∧ (s.dev.core ↑k).tag (iwA w) = 0) ∧
    (∃ (k : Fin 19), ∃ (s : State), ∃ (w : Word), AnvReady s.mem s.dev (↑k) w ∧ iwOp w = 28 ∧
      (s.dev.core ↑k).byteMode = false ∧ (iwCr w = true ∨
      (s.dev.core ↑k).tag (iwA w) = (s.dev.core ↑k).tag (iwB w) ∧ (s.dev.core ↑k).tag (iwA w) ≠ 4 ∧
      (s.dev.core ↑k).tag (iwA w) ≠ 15)) ∧
    (∃ (k : Fin 19), ∃ (s : State), ∃ (w : Word), AnvReady s.mem s.dev (↑k) w ∧ iwOp w = 28 ∧
      (s.dev.core ↑k).byteMode = false ∧ iwCr w = false ∧ ((s.dev.core ↑k).tag (iwA w) = 15 ∨
      (s.dev.core ↑k).tag (iwB w) = 15)) ∧
    (∃ (k : Fin 19), ∃ (s : State), ∃ (w : Word), AnvReady s.mem s.dev (↑k) w ∧ iwOp w = 29 ∧
      (s.dev.core ↑k).byteMode = false ∧ (s.dev.core ↑k).tag (iwCiA w) ∈ [0, 1, 2, 3, 5, 7, 8]) ∧
    (∃ (k : Fin 19), ∃ (s : State), ∃ (w : Word), AnvReady s.mem s.dev (↑k) w ∧ iwOp w = 14 ∧ BitVec.toNat w % 64 = 0) :=
  ⟨⟨0, (sN 0 [0x34C4000] [] (ab 0xFFFFFFFF 0x80000000 15 1)), 0x034c4000, anv_of rfl (by decide), by decide⟩,
   ⟨0, (sN 0 [0x40C4005] [] (ab 0xFFFFFF80 0x3 0 1)), 0x040c4005, anv_of rfl (by decide), by decide⟩,
   ⟨0, (sN 0 [0x7184800] [] (ab 0x5 0x7 1 1)), 0x07184800, anv_of rfl (by decide), by decide⟩,
   ⟨0, (sN 0 [0x7184800] [] (ab 0x80000000 0xFFFFFFFF 15 1)), 0x07184800, anv_of rfl (by decide), by decide⟩,
   ⟨0, (sN 0 [0x7581FFF] [] (ab 0x5 0x7 0 1)), 0x07581fff, anv_of rfl (by decide), by decide⟩,
   ⟨0,
     (sN 0 [0x38C0000] [] (fun c => { c with bk := 5, tsr := 0x1000200, ctxid := 7, p := 0xA4, suerr := 3, cycHi := 9, ie := true, ipl := 3 })),
     0x038c0000, anv_of rfl (by decide), by decide⟩⟩

theorem meets_AnvilRegisterInstructions_11 :
    (∃ (k : Fin 19), ∃ (s : State), ∃ (w : Word), AnvReady s.mem s.dev (↑k) w ∧ iwOp w = 14 ∧
      13 < BitVec.toNat w % 64) ∧
    (∃ (k : Fin 19), ∃ (s : State), ∃ (w : Word), AnvReady s.mem s.dev (↑k) w ∧ iwOp w = 15 ∧
      BitVec.toNat w % 64 = 0 ∧ (s.dev.core ↑k).ring ≤ 3) ∧
    (∃ (k : Fin 19), ∃ (s : State), ∃ (w : Word), AnvReady s.mem s.dev (↑k) w ∧ iwOp w = 15 ∧
      BitVec.toNat w % 64 = 0 ∧ 3 < (s.dev.core ↑k).ring) ∧
    (∃ (k : Fin 19), ∃ (s : State), ∃ (w : Word), AnvReady s.mem s.dev (↑k) w ∧ iwOp w = 15 ∧
      BitVec.toNat w % 64 = 1 ∧ (s.dev.core ↑k).ring ≤ 0) ∧
    (∃ (k : Fin 19), ∃ (s : State), ∃ (w : Word), AnvReady s.mem s.dev (↑k) w ∧ iwOp w = 15 ∧
      BitVec.toNat w % 64 = 1 ∧ 0 < (s.dev.core ↑k).ring) ∧
    (∃ (k : Fin 19), ∃ (s : State), ∃ (w : Word), AnvReady s.mem s.dev (↑k) w ∧ iwOp w = 15 ∧
      BitVec.toNat w % 64 = 6 ∧ (s.dev.core ↑k).ring ≤ 1) :=
  ⟨⟨0,
     (sN 0 [0x38C000E] [] (fun c => { c with bk := 5, tsr := 0x1000200, ctxid := 7, p := 0xA4, suerr := 3, cycHi := 9, ie := true, ipl := 3 })),
     0x038c000e, anv_of rfl (by decide), by decide⟩,
   ⟨0, (sN 0 [0x3CC0000] [] (fun c => { (c.setW 3 0xA5A5F0F7 0) with ring := 0, suerr := 7 })), 0x03cc0000,
     anv_of rfl (by decide), by decide⟩,
   ⟨18, (sN 18 [0x3CC0000] [] (fun c => { (c.setW 3 0xA5A5F0F7 0) with ring := 5, suerr := 7 })), 0x03cc0000,
     anv_of rfl (by decide), by decide⟩,
   ⟨0, (sN 0 [0x3CC0001] [] (fun c => { (c.setW 3 0xA5A5F0F7 0) with ring := 0, suerr := 7 })), 0x03cc0001,
     anv_of rfl (by decide), by decide⟩,
   ⟨0, (sN 0 [0x3CC0001] [] (fun c => { (c.setW 3 0xA5A5F0F7 0) with ring := 1, suerr := 7 })), 0x03cc0001,
     anv_of rfl (by decide), by decide⟩,
   ⟨0, (sN 0 [0x3CC0006] [] (fun c => { (c.setW 3 0xA5A5F0F7 0) with ring := 0, suerr := 7 })), 0x03cc0006,
     anv_of rfl (by decide), by decide⟩⟩

theorem meets_AnvilRegisterInstructions_12 :
    (∃ (k : Fin 19), ∃ (s : State), ∃ (w : Word), AnvReady s.mem s.dev (↑k) w ∧ iwOp w = 15 ∧
      BitVec.toNat w % 64 = 6 ∧ 1 < (s.dev.core ↑k).ring) ∧
    (∃ (k : Fin 19), ∃ (s : State), ∃ (w : Word), AnvReady s.mem s.dev (↑k) w ∧ iwOp w = 15 ∧
      BitVec.toNat w % 64 = 9 ∧ (s.dev.core ↑k).ring ≤ 3) ∧
    (∃ (k : Fin 19), ∃ (s : State), ∃ (w : Word), AnvReady s.mem s.dev (↑k) w ∧ iwOp w = 15 ∧
      BitVec.toNat w % 64 = 9 ∧ 3 < (s.dev.core ↑k).ring) ∧
    (∃ (k : Fin 19), ∃ (s : State), ∃ (w : Word), AnvReady s.mem s.dev (↑k) w ∧ iwOp w = 15 ∧
      BitVec.toNat w % 64 = 10 ∧ (s.dev.core ↑k).ring ≤ 0) ∧
    (∃ (k : Fin 19), ∃ (s : State), ∃ (w : Word), AnvReady s.mem s.dev (↑k) w ∧ iwOp w = 15 ∧
      BitVec.toNat w % 64 = 10 ∧ 0 < (s.dev.core ↑k).ring) ∧
    (∃ (k : Fin 19), ∃ (s : State), ∃ (w : Word), AnvReady s.mem s.dev (↑k) w ∧ iwOp w = 15 ∧
      BitVec.toNat w % 64 = 11 ∧ (s.dev.core ↑k).ring ≤ 3) :=
  ⟨⟨0, (sN 0 [0x3CC0006] [] (fun c => { (c.setW 3 0xA5A5F0F7 0) with ring := 3, suerr := 7 })), 0x03cc0006,
     anv_of rfl (by decide), by decide⟩,
   ⟨0, (sN 0 [0x3CC0009] [] (fun c => { (c.setW 3 0xA5A5F0F7 0) with ring := 0, suerr := 7 })), 0x03cc0009,
     anv_of rfl (by decide), by decide⟩,
   ⟨18, (sN 18 [0x3CC0009] [] (fun c => { (c.setW 3 0xA5A5F0F7 0) with ring := 5, suerr := 7 })), 0x03cc0009,
     anv_of rfl (by decide), by decide⟩,
   ⟨0, (sN 0 [0x3CC000A] [] (fun c => { (c.setW 3 0xA5A5F0F7 0) with ring := 0, suerr := 7 })), 0x03cc000a,
     anv_of rfl (by decide), by decide⟩,
   ⟨0, (sN 0 [0x3CC000A] [] (fun c => { (c.setW 3 0xA5A5F0F7 0) with ring := 1, suerr := 7 })), 0x03cc000a,
     anv_of rfl (by decide), by decide⟩,
   ⟨0, (sN 0 [0x3CC000B] [] (fun c => { (c.setW 3 0xA5A5F0F7 0) with ring := 0, suerr := 7 })), 0x03cc000b,
     anv_of rfl (by decide), by decide⟩⟩

theorem meets_AnvilRegisterInstructions_13 :
    (∃ (k : Fin 19), ∃ (s : State), ∃ (w : Word), AnvReady s.mem s.dev (↑k) w ∧ iwOp w = 15 ∧
      BitVec.toNat w % 64 = 11 ∧ 3 < (s.dev.core ↑k).ring) ∧
    (∃ (k : Fin 19), ∃ (s : State), ∃ (w : Word), AnvReady s.mem s.dev (↑k) w ∧ iwOp w = 15 ∧
      (BitVec.toNat w % 64 ∈ [7, 8, 12, 13] ∨ 13 < BitVec.toNat w % 64)) :=
  ⟨⟨18, (sN 18 [0x3CC000B] [] (fun c => { (c.setW 3 0xA5A5F0F7 0) with ring := 5, suerr := 7 })), 0x03cc000b,
     anv_of rfl (by decide), by decide⟩,
   ⟨0, (sN 0 [0x3CC0007] [] (fun c => { (c.setW 3 0xA5A5F0F7 0) with ring := 0, suerr := 7 })), 0x03cc0007,
     anv_of rfl (by decide), by decide⟩⟩

theorem meets_AnvilControlFlow_1 :
    (∃ (k : Fin 19), ∃ (s : State), ∃ (w : Word), AnvReady s.mem s.dev (↑k) w ∧ iwOp w = 58) ∧
    (∃ (k : Fin 19), ∃ (s : State), ∃ (w : Word), AnvReady s.mem s.dev (↑k) w ∧ iwOp w = 59) ∧
    (∃ (k : Fin 19), ∃ (s : State), ∃ (w : Word), AnvReady s.mem s.dev (↑k) w ∧ iwOp w = 60 ∧ (iwR w = true ∨
      (s.dev.core ↑k).byteMode = true ∨ (s.dev.core ↑k).tag (iwA w) ∈ [0, 1, 6]) ∧
      BitVec.toNat ((s.dev.core ↑k).wv (iwA w)) % 4 = 0) ∧
    (∃ (k : Fin 19), ∃ (s : State), ∃ (w : Word), AnvReady s.mem s.dev (↑k) w ∧ iwOp w = 60 ∧ (iwR w = true ∨
      (s.dev.core ↑k).byteMode = true ∨ (s.dev.core ↑k).tag (iwA w) ∈ [0, 1, 6]) ∧
      BitVec.toNat ((s.dev.core ↑k).wv (iwA w)) % 4 ≠ 0) ∧
    (∃ (k : Fin 19), ∃ (s : State), ∃ (w : Word), AnvReady s.mem s.dev (↑k) w ∧ iwOp w = 60 ∧ iwR w = false ∧
      (s.dev.core ↑k).byteMode = false ∧ (s.dev.core ↑k).tag (iwA w) = 15) ∧
    (∃ (k : Fin 19), ∃ (s : State), ∃ (w : Word), AnvReady s.mem s.dev (↑k) w ∧ iwOp w = 60 ∧ iwR w = false ∧
      (s.dev.core ↑k).byteMode = false ∧ ¬(s.dev.core ↑k).tag (iwA w) ∈ [0, 1, 6, 15]) :=
  ⟨⟨0, (sN 0 [0xE800005] [] (id)), 0x0e800005, anv_of rfl (by decide), by decide⟩,
   ⟨0, (sN 0 [0xEC00005] [] (id)), 0x0ec00005, anv_of rfl (by decide), by decide⟩,
   ⟨0, (sN 0 [0xF004000] [] (ab 0x1000200 0 0 0)), 0x0f004000, anv_of rfl (by decide), by decide⟩,
   ⟨0, (sN 0 [0xF004000] [] (ab 0x1000202 0 0 0)), 0x0f004000, anv_of rfl (by decide), by decide⟩,
   ⟨0, (sN 0 [0xF004000] [] (ab 0x1000200 0 15 0)), 0x0f004000, anv_of rfl (by decide), by decide⟩,
   ⟨0, (sN 0 [0xF004000] [] (ab 0x1000200 0 2 0)), 0x0f004000, anv_of rfl (by decide), by decide⟩⟩

theorem meets_AnvilControlFlow_2 :
    (∃ (k : Fin 19), ∃ (s : State), ∃ (w : Word), AnvReady s.mem s.dev (↑k) w ∧ iwOp w = (23, false, repAccepts,
      repCount).fst ∧ (∀ (v : Word), anvPeekNext ↑k (s.mem, s.dev) = some v → (23, false, repAccepts,
      repCount).snd.snd.fst (iwOp v) = true) ∧ (23, false, repAccepts,
      repCount).snd.snd.snd (s.dev.core ↑k) w ≤ 4096) ∧
    (∃ (k : Fin 19), ∃ (s : State), ∃ (w : Word), AnvReady s.mem s.dev (↑k) w ∧ iwOp w = (23, false, repAccepts,
      repCount).fst ∧ ((∃ (v : Word), anvPeekNext ↑k (s.mem, s.dev) = some v ∧ (23, false, repAccepts,
      repCount).snd.snd.fst (iwOp v) = false) ∨ 4096 < (23, false, repAccepts,
      repCount).snd.snd.snd (s.dev.core ↑k) w)) ∧
    (∃ (k : Fin 19), ∃ (s : State), ∃ (w : Word), AnvReady s.mem s.dev (↑k) w ∧ iwOp w = (31, true, repnAccepts,
      fun (x : Core) (w : Word) => BitVec.toNat w % 4 + 1).fst ∧ (∀ (v : Word), anvPeekNext ↑k (s.mem,
      s.dev) = some v → (31, true, repnAccepts,
      fun (x : Core) (w : Word) => BitVec.toNat w % 4 + 1).snd.snd.fst (iwOp v) = true) ∧ (31, true, repnAccepts,
      fun (x : Core) (w : Word) => BitVec.toNat w % 4 + 1).snd.snd.snd (s.dev.core ↑k) w ≤ 4096) ∧
    (∃ (k : Fin 19), ∃ (s : State), ∃ (w : Word), AnvReady s.mem s.dev (↑k) w ∧ iwOp w = (31, true, repnAccepts,
      fun (x : Core) (w : Word) => BitVec.toNat w % 4 + 1).fst ∧ ((∃ (v : Word), anvPeekNext ↑k (s.mem,
      s.dev) = some v ∧ (31, true, repnAccepts,
      fun (x : Core) (w : Word) => BitVec.toNat w % 4 + 1).snd.snd.fst (iwOp v) = false) ∨ 4096 < (31, true,
      repnAccepts, fun (x : Core) (w : Word) => BitVec.toNat w % 4 + 1).snd.snd.snd (s.dev.core ↑k) w)) ∧
    (∃ (k : Fin 19), ∃ (s : State), ∃ (r : Rep), ((fun (s : State) => s.dev.core ↑k) s).rep = some r ∧
      s.dev.anvReady ↑k = true ∧ ∃ (w : Word),
      AnvReady s.mem { part := s.dev.part, now := s.dev.now, free := s.dev.free, regs := s.dev.regs, windows := s.dev.windows, time := s.dev.time, clkHeld := s.dev.clkHeld, clusters := s.dev.clusters, crossing := s.dev.crossing, due := s.dev.due, events := s.dev.events, lostFor := s.dev.lostFor, tchQueue := s.dev.tchQueue, tchDropped := s.dev.tchDropped, wide := s.dev.wide, lanes := s.dev.lanes, axes := s.dev.axes, interps := s.dev.interps, tiles := s.dev.tiles, chans := s.dev.chans, draining := s.dev.draining, sdcAt := s.dev.sdcAt, pwms := s.dev.pwms, fbks := s.dev.fbks, encs := s.dev.encs, grps := s.dev.grps, combs := s.dev.combs, timers := s.dev.timers, engs := s.dev.engs, bank15 := s.dev.bank15, cores := mset Core.reset s.dev.cores ↑k { pc := (s.dev.core ↑k).pc, w := (s.dev.core ↑k).w, tg := (s.dev.core ↑k).tg, p := (s.dev.core ↑k).p, bk := (s.dev.core ↑k).bk, tsr := (s.dev.core ↑k).tsr, tsbp := (s.dev.core ↑k).tsbp, ctxid := (s.dev.core ↑k).ctxid, ring := (s.dev.core ↑k).ring, ipl := (s.dev.core ↑k).ipl, ie := (s.dev.core ↑k).ie, df := (s.dev.core ↑k).df, suerr := (s.dev.core ↑k).suerr, cycBase := (s.dev.core ↑k).cycBase, cycHi := (s.dev.core ↑k).cycHi, byteMode := (s.dev.core ↑k).byteMode, running := (s.dev.core ↑k).running, entry := (s.dev.core ↑k).entry, waiting := (s.dev.core ↑k).waiting, mergeWait := (s.dev.core ↑k).mergeWait, inaWait := (s.dev.core ↑k).inaWait, load := (s.dev.core ↑k).load, rep := none, stns := (s.dev.core ↑k).stns, stores := (s.dev.core ↑k).stores, late := (s.dev.core ↑k).late, lateOvf := (s.dev.core ↑k).lateOvf, wdtOnce := (s.dev.core ↑k).wdtOnce, monitor := (s.dev.core ↑k).monitor, sig := (s.dev.core ↑k).sig, pfq := (s.dev.core ↑k).pfq, stepping := (s.dev.core ↑k).stepping }, ownNext := s.dev.ownNext, scrubAt := s.dev.scrubAt, scrubCcyc := s.dev.scrubCcyc, cru := s.dev.cru, corePairs := s.dev.corePairs, sqs := s.dev.sqs, bells := s.dev.bells, nextOrder := s.dev.nextOrder, pcie := s.dev.pcie, sem := s.dev.sem, slds := s.dev.slds, fls := s.dev.fls, tch := s.dev.tch, hlm := s.dev.hlm, tap := s.dev.tap, caps := s.dev.caps, evcHigh := s.dev.evcHigh, evcAt := s.dev.evcAt, evcClr := s.dev.evcClr, waits := s.dev.waits, cpls := s.dev.cpls, rdata := s.dev.rdata } (↑k) w ∧
      iwOp w = 24 ∧ anvFetch ↑k (s.mem, s.dev) = ((s.mem, s.dev), Sum.inr w)) ∧
    (∃ (k : Fin 19), ∃ (s : State), ∃ (w : Word), AnvReady s.mem s.dev (↑k) w ∧ iwOp w = 61 ∧ BitVec.toNat w % 4 = 2) :=
  ⟨⟨0, (sN 0 [0x5C00000, 0x4C4800] [] id), 0x05c00000, anv_of rfl (by decide), by decide,
     fun v h => (Option.some.inj ((rfl : some (0x4C4800 : Word) = _).trans h)) ▸ (by decide), by decide⟩,
   ⟨0, (sN 0 [0x5C00000, 0xE800000] [] id), 0x05c00000, anv_of rfl (by decide), by decide, Or.inl ⟨0xE800000, rfl,
     by decide⟩⟩,
   ⟨0, (sN 0 [0x7C00000, 0x4C4800] [] id), 0x07c00000, anv_of rfl (by decide), by decide,
     fun v h => (Option.some.inj ((rfl : some (0x4C4800 : Word) = _).trans h)) ▸ (by decide), by decide⟩,
   ⟨0, (sN 0 [0x7C00000, 0xE800000] [] id), 0x07c00000, anv_of rfl (by decide), by decide, Or.inl ⟨0xE800000, rfl,
     by decide⟩⟩,
   ⟨0, (sN 0 [0x60C8005] [] (fun c => { c with rep := some ⟨true, 1⟩ })), _, rfl, by decide, 0x060c8005,
     anv_of rfl (by decide), by decide⟩,
   ⟨0, (sN 0 [0xF400002] [] (fun c => { c with tsr := 0x1001000, tsbp := ⟨[(0, 0x1001200)]⟩ })), 0x0f400002,
     anv_of rfl (by decide), by decide⟩⟩

theorem meets_AnvilControlFlow_3 :
    (∃ (k : Fin 19), ∃ (s : State), ∃ (w : Word), AnvReady s.mem s.dev (↑k) w ∧ iwOp w = 63) ∧
    (∃ (k : Fin 19), ∃ (s : State), ∃ (w : Word), AnvReady s.mem s.dev (↑k) w ∧ iwOp w = 61 ∧ BitVec.toNat w % 4 = 3 ∧
      (16 ≤ ↑k ∨ s.dev.flag DBG_CTL DBG_CTL_brk_halt = false)) ∧
    (∃ (k : Fin 19), ↑k < 16 ∧ ∃ (s : State), s.dev.flag DBG_CTL DBG_CTL_brk_halt = true ∧
      (s.dev.cluster (↑k / 4)).halting = false ∧ ∃ (w : Word), AnvReady s.mem s.dev (↑k) w ∧ iwOp w = 61 ∧
      BitVec.toNat w % 4 = 3) ∧
    (∃ (k : Fin 19), ∃ (s : State), s.dev.anvReady ↑k = true ∧ (s.dev.core ↑k).stepping = false ∧ ∃ (w : Word),
      anvFetch ↑k (s.mem, s.dev) = ((s.mem, s.dev), Sum.inr w) ∧ iwUndef (s.dev.core ↑k).byteMode w = true) ∧
    (∃ (k : Fin 19), ∃ (s : State), s.dev.anvReady ↑k = true ∧ (s.dev.core ↑k).stepping = false ∧
      (s.dev.core ↑k).stns = [] ∧ ∃ (w : Word), anvFetch ↑k (s.mem, s.dev) = ((s.mem, s.dev), Sum.inr w) ∧
      iwUndef (s.dev.core ↑k).byteMode w = false ∧ (s.dev.core ↑k).pred (iwPg w) = iwPn w ∧ iwOp w = 1) ∧
    (∃ (k : Fin 19), ∃ (s : State), s.dev.anvReady ↑k = true ∧ (s.dev.core ↑k).stepping = false ∧
      (s.dev.core ↑k).stns = [] ∧ ∃ (w : Word), anvFetch ↑k (s.mem, s.dev) = ((s.mem, s.dev), Sum.inr w) ∧
      iwUndef (s.dev.core ↑k).byteMode w = false ∧ (s.dev.core ↑k).pred (iwPg w) = iwPn w ∧ iwOp w = 58) :=
  ⟨⟨0, (sN 0 [0xFC00055] [] (fun c => { c with tsr := 0x1001000, tsbp := ⟨[(0, 0x1001200)]⟩ })), 0x0fc00055,
     anv_of rfl (by decide), by decide⟩,
   ⟨0, (sN 0 [0xF400003] [] (fun c => { c with tsr := 0x1001000, tsbp := ⟨[(0, 0x1001200)]⟩ })), 0x0f400003,
     anv_of rfl (by decide), by decide⟩,
   ⟨0, by decide, (sN 0 [0xF400003] [(DBG_CTL, 0xFFFFFFFF)] (id)), by decide, by decide, 0x0f400003,
     anv_of rfl (by decide), by decide⟩,
   ⟨0, (sN 0 [0xF800000] [] (fun c => { c with tsr := 0x1001000, tsbp := ⟨[(0, 0x1001200)]⟩ })), by decide,
     by decide, 0x0f800000, by decide⟩,
   ⟨0, (sN 0 [0x20400000] [] (id)), by decide, by decide, by decide, 0x20400000, by decide⟩,
   ⟨0, (sN 0 [0x2E800000] [] (id)), by decide, by decide, by decide, 0x2e800000, by decide⟩⟩

theorem meets_AnvilControlFlow_4 :
    (∃ (k : Fin 19), ∃ (s : State), s.dev.anvReady ↑k = true ∧ (s.dev.core ↑k).stepping = false ∧
      (s.dev.core ↑k).stns = [] ∧ ∃ (w : Word), anvFetch ↑k (s.mem, s.dev) = ((s.mem, s.dev), Sum.inr w) ∧
      iwUndef (s.dev.core ↑k).byteMode w = false ∧ (s.dev.core ↑k).pred (iwPg w) = iwPn w ∧ iwOp w = 48) ∧
    (∃ (k : Fin 19), ∃ (s : State), s.dev.anvReady ↑k = true ∧ (s.dev.core ↑k).stepping = false ∧
      (s.dev.core ↑k).stns = [] ∧ ∃ (w : Word), anvFetch ↑k (s.mem, s.dev) = ((s.mem, s.dev), Sum.inr w) ∧
      iwUndef (s.dev.core ↑k).byteMode w = false ∧ (s.dev.core ↑k).pred (iwPg w) = iwPn w ∧ iwOp w = 63) :=
  ⟨⟨0, (sN 0 [0x2C000000] [] (id)), by decide, by decide, by decide, 0x2c000000, by decide⟩,
   ⟨0, (sN 0 [0x2FC00000] [] (id)), by decide, by decide, by decide, 0x2fc00000, by decide⟩⟩

theorem meets_AnvilLoadsAndStores_1 :
    (∃ (k : Fin 19), ∃ (s : State), ∃ (w : Word), AnvReady s.mem s.dev (↑k) w ∧ ∃ (b : Nat), ∃ (o : Nat),
      kindOf (loadAddr (s.dev.core ↑k) w) = Kind.ingot b o 0 ∧ iwOp w = 48 ∧
      tgtIsl (loadAddr (s.dev.core ↑k) w) = coreIsl ↑k ∧ (48 ≠ 52 → loadAddr (s.dev.core ↑k) w % 4 = 0) ∧
      (s.dev.rights (↑k) (s.dev.core ↑k).ring (loadAddr (s.dev.core ↑k) w)).testBit 0 = true ∧
      (((s.dev.core ↑k).byteMode = true ∨ iwAm w = 0 ∨ (s.dev.core ↑k).tag (iwBase w) ∈ [0, 1, 6]) ∨ 48 = 54) ∧
      (s.dev.core ↑k).stores = [] ∧ s.dev.loadHeld (↑k) (loadAddr (s.dev.core ↑k) w) = false ∧
      s.dev.bankUp (s.dev.mirror (↑k) b) = true ∧ isBank15 (s.dev.mirror (↑k) b) = false ∧
      s.dev.ingotOk (Mst.core ↑k) (s.dev.mirror (↑k) b) false = true ∧
      s.mem.errAt (bankAddr (s.dev.mirror (↑k) b) (o / 4 * 4)) = 0 ∧ (48 = 54 ∨ iwAm w ≠ 2 ∨ iwBase w ≠ iwD w) ∧
      (48 = 48 → s.mem.tag (bankAddr (s.dev.mirror (↑k) b) (o / 4 * 4)) < 9)) ∧
    (∃ (k : Fin 19), ∃ (s : State), ∃ (w : Word), AnvReady s.mem s.dev (↑k) w ∧ ∃ (b : Nat), ∃ (o : Nat),
      kindOf (loadAddr (s.dev.core ↑k) w) = Kind.ingot b o 0 ∧ iwOp w = 49 ∧
      tgtIsl (loadAddr (s.dev.core ↑k) w) = coreIsl ↑k ∧ (49 ≠ 52 → loadAddr (s.dev.core ↑k) w % 4 = 0) ∧
      (s.dev.rights (↑k) (s.dev.core ↑k).ring (loadAddr (s.dev.core ↑k) w)).testBit 0 = true ∧
      (((s.dev.core ↑k).byteMode = true ∨ iwAm w = 0 ∨ (s.dev.core ↑k).tag (iwBase w) ∈ [0, 1, 6]) ∨ 49 = 54) ∧
      (s.dev.core ↑k).stores = [] ∧ s.dev.loadHeld (↑k) (loadAddr (s.dev.core ↑k) w) = false ∧
      s.dev.bankUp (s.dev.mirror (↑k) b) = true ∧ isBank15 (s.dev.mirror (↑k) b) = false ∧
      s.dev.ingotOk (Mst.core ↑k) (s.dev.mirror (↑k) b) false = true ∧
      s.mem.errAt (bankAddr (s.dev.mirror (↑k) b) (o / 4 * 4)) = 0 ∧ (49 = 54 ∨ iwAm w ≠ 2 ∨ iwBase w ≠ iwD w) ∧
      (49 = 48 → s.mem.tag (bankAddr (s.dev.mirror (↑k) b) (o / 4 * 4)) < 9)) ∧
    (∃ (k : Fin 19), ∃ (s : State), ∃ (w : Word), AnvReady s.mem s.dev (↑k) w ∧ ∃ (b : Nat), ∃ (o : Nat),
      kindOf (loadAddr (s.dev.core ↑k) w) = Kind.ingot b o 0 ∧ iwOp w = 52 ∧
      tgtIsl (loadAddr (s.dev.core ↑k) w) = coreIsl ↑k ∧ (52 ≠ 52 → loadAddr (s.dev.core ↑k) w % 4 = 0) ∧
      (s.dev.rights (↑k) (s.dev.core ↑k).ring (loadAddr (s.dev.core ↑k) w)).testBit 0 = true ∧
      (((s.dev.core ↑k).byteMode = true ∨ iwAm w = 0 ∨ (s.dev.core ↑k).tag (iwBase w) ∈ [0, 1, 6]) ∨ 52 = 54) ∧
      (s.dev.core ↑k).stores = [] ∧ s.dev.loadHeld (↑k) (loadAddr (s.dev.core ↑k) w) = false ∧
      s.dev.bankUp (s.dev.mirror (↑k) b) = true ∧ isBank15 (s.dev.mirror (↑k) b) = false ∧
      s.dev.ingotOk (Mst.core ↑k) (s.dev.mirror (↑k) b) false = true ∧
      s.mem.errAt (bankAddr (s.dev.mirror (↑k) b) (o / 4 * 4)) = 0 ∧ (52 = 54 ∨ iwAm w ≠ 2 ∨ iwBase w ≠ iwD w) ∧
      (52 = 48 → s.mem.tag (bankAddr (s.dev.mirror (↑k) b) (o / 4 * 4)) < 9)) ∧
    (∃ (k : Fin 19), ∃ (s : State), ∃ (w : Word), AnvReady s.mem s.dev (↑k) w ∧ ∃ (b : Nat), ∃ (o : Nat),
      kindOf (loadAddr (s.dev.core ↑k) w) = Kind.ingot b o 0 ∧ iwOp w = 54 ∧
      tgtIsl (loadAddr (s.dev.core ↑k) w) = coreIsl ↑k ∧ (54 ≠ 52 → loadAddr (s.dev.core ↑k) w % 4 = 0) ∧
      (s.dev.rights (↑k) (s.dev.core ↑k).ring (loadAddr (s.dev.core ↑k) w)).testBit 0 = true ∧
      (((s.dev.core ↑k).byteMode = true ∨ iwAm w = 0 ∨ (s.dev.core ↑k).tag (iwBase w) ∈ [0, 1, 6]) ∨ 54 = 54) ∧
      (s.dev.core ↑k).stores = [] ∧ s.dev.loadHeld (↑k) (loadAddr (s.dev.core ↑k) w) = false ∧
      s.dev.bankUp (s.dev.mirror (↑k) b) = true ∧ isBank15 (s.dev.mirror (↑k) b) = false ∧
      s.dev.ingotOk (Mst.core ↑k) (s.dev.mirror (↑k) b) false = true ∧
      s.mem.errAt (bankAddr (s.dev.mirror (↑k) b) (o / 4 * 4)) = 0 ∧ (54 = 54 ∨ iwAm w ≠ 2 ∨ iwBase w ≠ iwD w) ∧
      (54 = 48 → s.mem.tag (bankAddr (s.dev.mirror (↑k) b) (o / 4 * 4)) < 9)) ∧
    (∃ (k : Fin 19), ∃ (s : State), ∃ (w : Word), AnvReady s.mem s.dev (↑k) w ∧ ∃ (b : Nat), ∃ (o : Nat),
      kindOf (loadAddr (s.dev.core ↑k) w) = Kind.ingot b o 0 ∧ iwOp w = 48 ∧
      tgtIsl (loadAddr (s.dev.core ↑k) w) = coreIsl ↑k ∧ loadAddr (s.dev.core ↑k) w % 4 = 0 ∧
      (s.dev.rights (↑k) (s.dev.core ↑k).ring (loadAddr (s.dev.core ↑k) w)).testBit 0 = true ∧
      ((s.dev.core ↑k).byteMode = true ∨ iwAm w = 0 ∨ (s.dev.core ↑k).tag (iwBase w) ∈ [0, 1, 6]) ∧
      (s.dev.core ↑k).stores = [] ∧ s.dev.loadHeld (↑k) (loadAddr (s.dev.core ↑k) w) = false ∧
      s.dev.bankUp (s.dev.mirror (↑k) b) = true ∧ isBank15 (s.dev.mirror (↑k) b) = false ∧
      s.dev.ingotOk (Mst.core ↑k) (s.dev.mirror (↑k) b) false = true ∧
      s.mem.errAt (bankAddr (s.dev.mirror (↑k) b) (o / 4 * 4)) = 0 ∧
      9 ≤ s.mem.tag (bankAddr (s.dev.mirror (↑k) b) (o / 4 * 4))) ∧
    (∃ (k : Fin 19), ∃ (s : State), ∃ (w : Word), AnvReady s.mem s.dev (↑k) w ∧ iwOp w = (48, 0).fst ∧
      (((s.dev.core ↑k).byteMode = true ∨ iwAm w = 0 ∨ (s.dev.core ↑k).tag (iwBase w) ∈ [0, 1, 6]) ∨ 54 ≤ (48,
      0).fst) ∧ (if (48,
      0).fst < 54 then memAddr (s.dev.core ↑k) w 4 else baseAddr (s.dev.core ↑k) ((s.dev.core ↑k).wv (iwA w)) 0) % 4 ≠ 0) :=
  ⟨⟨0, (memS (sN 0 [0xC0C1000] [] (fun c => { ab 0x1001004 9 15 0 c with bk := 0x100 }))), 0x0c0c1000,
     anv_of rfl (by decide), _, _, rfl, by decide, by decide, by decide, by decide, by decide, by decide,
     by decide, by decide, by decide, by decide, by decide, by decide, by decide⟩,
   ⟨0, (memS (sN 0 [0xC4C1004] [] (fun c => { ab 0x1001004 9 2 0 c with bk := 0x100 }))), 0x0c4c1004,
     anv_of rfl (by decide), _, _, rfl, by decide⟩,
   ⟨0, (memS (sN 0 [0xD0C1004] [] (fun c => { ab 0x1001004 9 1 0 c with bk := 0x100 }))), 0x0d0c1004,
     anv_of rfl (by decide), _, _, rfl, by decide⟩,
   ⟨0, (memS (sN 0 [0xD8C4000] [] (fun c => { ab 0x1001004 0xCAFE 1 0 c with monitor := none }))), 0x0d8c4000,
     anv_of rfl (by decide), _, _, rfl, by decide⟩,
   ⟨0, (memS (sN 0 [0xC0C1008] [] (fun c => { ab 0x1001004 9 2 0 c with bk := 0x100 }))), 0x0c0c1008,
     anv_of rfl (by decide), _, _, rfl, by decide⟩,
   ⟨0, (memS (sN 0 [0xC0C1001] [] (fun c => { ab 0x80000010 9 1 0 c with bk := 0x100 }))), 0x0c0c1001,
     anv_of rfl (by decide), by decide⟩⟩

theorem meets_AnvilLoadsAndStores_2 :
    (∃ (k : Fin 19), ∃ (s : State), ∃ (w : Word), AnvReady s.mem s.dev (↑k) w ∧ iwOp w = (48, 0).fst ∧
      (((s.dev.core ↑k).byteMode = true ∨ iwAm w = 0 ∨ (s.dev.core ↑k).tag (iwBase w) ∈ [0, 1, 6]) ∨ 54 ≤ (48,
      0).fst) ∧ (if (48,
      0).fst < 54 then memAddr (s.dev.core ↑k) w 4 else baseAddr (s.dev.core ↑k) ((s.dev.core ↑k).wv (iwA w)) 0) % 4 = 0 ∧
      (s.dev.rights (↑k) (s.dev.core ↑k).ring (if (48,
      0).fst < 54 then memAddr (s.dev.core ↑k) w 4 else baseAddr (s.dev.core ↑k) ((s.dev.core ↑k).wv (iwA w)) 0)).testBit (48,
      0).snd = false) ∧
    (∃ (k : Fin 19), ∃ (s : State), ∃ (w : Word), AnvReady s.mem s.dev (↑k) w ∧ iwOp w = (49, 0).fst ∧
      (((s.dev.core ↑k).byteMode = true ∨ iwAm w = 0 ∨ (s.dev.core ↑k).tag (iwBase w) ∈ [0, 1, 6]) ∨ 54 ≤ (49,
      0).fst) ∧ (if (49,
      0).fst < 54 then memAddr (s.dev.core ↑k) w 4 else baseAddr (s.dev.core ↑k) ((s.dev.core ↑k).wv (iwA w)) 0) % 4 ≠ 0) ∧
    (∃ (k : Fin 19), ∃ (s : State), ∃ (w : Word), AnvReady s.mem s.dev (↑k) w ∧ iwOp w = (49, 0).fst ∧
      (((s.dev.core ↑k).byteMode = true ∨ iwAm w = 0 ∨ (s.dev.core ↑k).tag (iwBase w) ∈ [0, 1, 6]) ∨ 54 ≤ (49,
      0).fst) ∧ (if (49,
      0).fst < 54 then memAddr (s.dev.core ↑k) w 4 else baseAddr (s.dev.core ↑k) ((s.dev.core ↑k).wv (iwA w)) 0) % 4 = 0 ∧
      (s.dev.rights (↑k) (s.dev.core ↑k).ring (if (49,
      0).fst < 54 then memAddr (s.dev.core ↑k) w 4 else baseAddr (s.dev.core ↑k) ((s.dev.core ↑k).wv (iwA w)) 0)).testBit (49,
      0).snd = false) ∧
    (∃ (k : Fin 19), ∃ (s : State), ∃ (w : Word), AnvReady s.mem s.dev (↑k) w ∧ iwOp w = (54, 0).fst ∧
      (((s.dev.core ↑k).byteMode = true ∨ iwAm w = 0 ∨ (s.dev.core ↑k).tag (iwBase w) ∈ [0, 1, 6]) ∨ 54 ≤ (54,
      0).fst) ∧ (if (54,
      0).fst < 54 then memAddr (s.dev.core ↑k) w 4 else baseAddr (s.dev.core ↑k) ((s.dev.core ↑k).wv (iwA w)) 0) % 4 ≠ 0) ∧
    (∃ (k : Fin 19), ∃ (s : State), ∃ (w : Word), AnvReady s.mem s.dev (↑k) w ∧ iwOp w = (54, 0).fst ∧
      (((s.dev.core ↑k).byteMode = true ∨ iwAm w = 0 ∨ (s.dev.core ↑k).tag (iwBase w) ∈ [0, 1, 6]) ∨ 54 ≤ (54,
      0).fst) ∧ (if (54,
      0).fst < 54 then memAddr (s.dev.core ↑k) w 4 else baseAddr (s.dev.core ↑k) ((s.dev.core ↑k).wv (iwA w)) 0) % 4 = 0 ∧
      (s.dev.rights (↑k) (s.dev.core ↑k).ring (if (54,
      0).fst < 54 then memAddr (s.dev.core ↑k) w 4 else baseAddr (s.dev.core ↑k) ((s.dev.core ↑k).wv (iwA w)) 0)).testBit (54,
      0).snd = false) ∧
    (∃ (k : Fin 19), ∃ (s : State), ∃ (w : Word), AnvReady s.mem s.dev (↑k) w ∧ iwOp w = (50, 1).fst ∧
      (((s.dev.core ↑k).byteMode = true ∨ iwAm w = 0 ∨ (s.dev.core ↑k).tag (iwBase w) ∈ [0, 1, 6]) ∨ 54 ≤ (50,
      1).fst) ∧ (if (50,
      1).fst < 54 then memAddr (s.dev.core ↑k) w 4 else baseAddr (s.dev.core ↑k) ((s.dev.core ↑k).wv (iwA w)) 0) % 4 ≠ 0) :=
  ⟨⟨0, (memS (sN 0 [0xC0D1000] [(ANV_RGN_RIGHTS 0 0, 0x027)] (fun c => { ab 0x1001004 0 1 0 c with ring := 1 }))),
     0x0c0d1000, anv_of rfl (by decide), by decide⟩,
   ⟨0, (memS (sN 0 [0xC4C1001] [] (fun c => { ab 0x1001004 9 6 0 c with bk := 0x100 }))), 0x0c4c1001,
     anv_of rfl (by decide), by decide⟩,
   ⟨0, (memS (sN 0 [0xC4D1000] [(ANV_RGN_RIGHTS 0 0, 0x027)] (fun c => { ab 0x1001004 0 1 0 c with ring := 1 }))),
     0x0c4d1000, anv_of rfl (by decide), by decide⟩,
   ⟨0, (memS (sN 0 [0xD8C4000] [] (fun c => { ab 0x1001001 0xCAFE 1 0 c with monitor := none }))), 0x0d8c4000,
     anv_of rfl (by decide), by decide⟩,
   ⟨0, (memS (sN 0 [0xD8C4000] [(ANV_RGN_RIGHTS 0 0,
     0x027)] (fun c => { ab 0x1001004 0xCAFE 1 0 c with ring := 1 }))), 0x0d8c4000, anv_of rfl (by decide),
     by decide⟩,
   ⟨0, (memS (sN 0 [0xC8C1001] [] (fun c => { ab 0x1001004 9 15 0 c with bk := 0x100 }))), 0x0c8c1001,
     anv_of rfl (by decide), by decide⟩⟩

theorem meets_AnvilLoadsAndStores_3 :
    (∃ (k : Fin 19), ∃ (s : State), ∃ (w : Word), AnvReady s.mem s.dev (↑k) w ∧ iwOp w = (50, 1).fst ∧
      (((s.dev.core ↑k).byteMode = true ∨ iwAm w = 0 ∨ (s.dev.core ↑k).tag (iwBase w) ∈ [0, 1, 6]) ∨ 54 ≤ (50,
      1).fst) ∧ (if (50,
      1).fst < 54 then memAddr (s.dev.core ↑k) w 4 else baseAddr (s.dev.core ↑k) ((s.dev.core ↑k).wv (iwA w)) 0) % 4 = 0 ∧
      (s.dev.rights (↑k) (s.dev.core ↑k).ring (if (50,
      1).fst < 54 then memAddr (s.dev.core ↑k) w 4 else baseAddr (s.dev.core ↑k) ((s.dev.core ↑k).wv (iwA w)) 0)).testBit (50,
      1).snd = false) ∧
    (∃ (k : Fin 19), ∃ (s : State), ∃ (w : Word), AnvReady s.mem s.dev (↑k) w ∧ iwOp w = (51, 1).fst ∧
      (((s.dev.core ↑k).byteMode = true ∨ iwAm w = 0 ∨ (s.dev.core ↑k).tag (iwBase w) ∈ [0, 1, 6]) ∨ 54 ≤ (51,
      1).fst) ∧ (if (51,
      1).fst < 54 then memAddr (s.dev.core ↑k) w 4 else baseAddr (s.dev.core ↑k) ((s.dev.core ↑k).wv (iwA w)) 0) % 4 ≠ 0) ∧
    (∃ (k : Fin 19), ∃ (s : State), ∃ (w : Word), AnvReady s.mem s.dev (↑k) w ∧ iwOp w = (51, 1).fst ∧
      (((s.dev.core ↑k).byteMode = true ∨ iwAm w = 0 ∨ (s.dev.core ↑k).tag (iwBase w) ∈ [0, 1, 6]) ∨ 54 ≤ (51,
      1).fst) ∧ (if (51,
      1).fst < 54 then memAddr (s.dev.core ↑k) w 4 else baseAddr (s.dev.core ↑k) ((s.dev.core ↑k).wv (iwA w)) 0) % 4 = 0 ∧
      (s.dev.rights (↑k) (s.dev.core ↑k).ring (if (51,
      1).fst < 54 then memAddr (s.dev.core ↑k) w 4 else baseAddr (s.dev.core ↑k) ((s.dev.core ↑k).wv (iwA w)) 0)).testBit (51,
      1).snd = false) ∧
    (∃ (k : Fin 19), ∃ (s : State), ∃ (w : Word), AnvReady s.mem s.dev (↑k) w ∧ iwOp w = (55, 1).fst ∧
      (((s.dev.core ↑k).byteMode = true ∨ iwAm w = 0 ∨ (s.dev.core ↑k).tag (iwBase w) ∈ [0, 1, 6]) ∨ 54 ≤ (55,
      1).fst) ∧ (if (55,
      1).fst < 54 then memAddr (s.dev.core ↑k) w 4 else baseAddr (s.dev.core ↑k) ((s.dev.core ↑k).wv (iwA w)) 0) % 4 ≠ 0) ∧
    (∃ (k : Fin 19), ∃ (s : State), ∃ (w : Word), AnvReady s.mem s.dev (↑k) w ∧ iwOp w = (55, 1).fst ∧
      (((s.dev.core ↑k).byteMode = true ∨ iwAm w = 0 ∨ (s.dev.core ↑k).tag (iwBase w) ∈ [0, 1, 6]) ∨ 54 ≤ (55,
      1).fst) ∧ (if (55,
      1).fst < 54 then memAddr (s.dev.core ↑k) w 4 else baseAddr (s.dev.core ↑k) ((s.dev.core ↑k).wv (iwA w)) 0) % 4 = 0 ∧
      (s.dev.rights (↑k) (s.dev.core ↑k).ring (if (55,
      1).fst < 54 then memAddr (s.dev.core ↑k) w 4 else baseAddr (s.dev.core ↑k) ((s.dev.core ↑k).wv (iwA w)) 0)).testBit (55,
      1).snd = false) ∧
    (∃ (k : Fin 19), ∃ (s : State), ∃ (w : Word), AnvReady s.mem s.dev (↑k) w ∧ iwOp w = 48 ∧
      kindOf (loadAddr (s.dev.core ↑k) w) = Kind.ddr ∧ loadAddr (s.dev.core ↑k) w % 4 = 0 ∧
      (s.dev.rights (↑k) (s.dev.core ↑k).ring (loadAddr (s.dev.core ↑k) w)).testBit 0 = true ∧
      ((s.dev.core ↑k).byteMode = true ∨ iwAm w = 0 ∨ (s.dev.core ↑k).tag (iwBase w) ∈ [0, 1, 6]) ∧
      (s.dev.core ↑k).stores = [] ∧ s.dev.loadHeld (↑k) (loadAddr (s.dev.core ↑k) w) = false ∧
      s.dev.ddrUp = true ∧ s.mem.errAt (loadAddr (s.dev.core ↑k) w / 8 * 8) = 0) :=
  ⟨⟨0, (memS (sN 0 [0xC8D1000] [(ANV_RGN_RIGHTS 0 0, 0x027)] (fun c => { ab 0x1001004 0 1 0 c with ring := 1 }))),
     0x0c8d1000, anv_of rfl (by decide), by decide⟩,
   ⟨0, (memS (sN 0 [0xCCC1001] [] (fun c => { ab 0x1001008 9 6 0 c with bk := 0x100 }))), 0x0ccc1001,
     anv_of rfl (by decide), by decide⟩,
   ⟨0, (memS (sN 0 [0xCCD1000] [(ANV_RGN_RIGHTS 0 0, 0x027)] (fun c => { ab 0x1001004 0 1 0 c with ring := 1 }))),
     0x0ccd1000, anv_of rfl (by decide), by decide⟩,
   ⟨0, (memS (sN 0 [0xDCC4800] [] (fun c => { ab 0x1001001 0xCAFE 1 0 c with monitor := none }))), 0x0dcc4800,
     anv_of rfl (by decide), by decide⟩,
   ⟨0, (memS (sN 0 [0xDCC4800] [(ANV_RGN_RIGHTS 0 0,
     0x027)] (fun c => { ab 0x1001004 0xCAFE 1 0 c with ring := 1 }))), 0x0dcc4800, anv_of rfl (by decide),
     by decide⟩,
   ⟨0, (memS (sN 0 [0xC0D1000] [(MEM_STAT, 0xFFFFFFFF)] (ab 0x80000010 0 1 0))), 0x0c0d1000, anv_of rfl (by decide),
     by decide, rfl, by decide⟩⟩

theorem meets_AnvilLoadsAndStores_4 :
    (∃ (k : Fin 19), ∃ (s : State), ∃ (w : Word), AnvReady s.mem s.dev (↑k) w ∧ iwOp w = 49 ∧
      kindOf (loadAddr (s.dev.core ↑k) w) = Kind.ddr ∧ loadAddr (s.dev.core ↑k) w % 4 = 0 ∧
      (s.dev.rights (↑k) (s.dev.core ↑k).ring (loadAddr (s.dev.core ↑k) w)).testBit 0 = true ∧
      ((s.dev.core ↑k).byteMode = true ∨ iwAm w = 0 ∨ (s.dev.core ↑k).tag (iwBase w) ∈ [0, 1, 6]) ∧
      (s.dev.core ↑k).stores = [] ∧ s.dev.loadHeld (↑k) (loadAddr (s.dev.core ↑k) w) = false ∧
      s.dev.ddrUp = true ∧ s.mem.errAt (loadAddr (s.dev.core ↑k) w / 8 * 8) = 0) ∧
    (∃ (k : Fin 19), ∃ (s : State), ∃ (w : Word), AnvReady s.mem s.dev (↑k) w ∧ iwOp w = 50 ∧
      ((s.dev.core ↑k).byteMode = true ∨ iwAm w = 0 ∨ (s.dev.core ↑k).tag (iwBase w) ∈ [0, 1, 6]) ∧
      ((if 50 = 53 then 1 else 4) = 4 → memAddr (s.dev.core ↑k) w (if 50 = 53 then 1 else 4) % 4 = 0) ∧
      (s.dev.rights (↑k) (s.dev.core ↑k).ring (memAddr (s.dev.core ↑k) w (if 50 = 53 then 1 else 4))).testBit 1 = true ∧
      (if 50 = 50 then (s.dev.core ↑k).tag (iwD w) else 0) ≠ 0 ∧
      keepsTags (memAddr (s.dev.core ↑k) w (if 50 = 53 then 1 else 4)) = false) ∧
    (∃ (k : Fin 19), ∃ (s : State), ∃ (w : Word), AnvReady s.mem s.dev (↑k) w ∧ iwOp w = 50 ∧
      ((s.dev.core ↑k).byteMode = true ∨ iwAm w = 0 ∨ (s.dev.core ↑k).tag (iwBase w) ∈ [0, 1, 6]) ∧
      ((if 50 = 53 then 1 else 4) = 4 → memAddr (s.dev.core ↑k) w (if 50 = 53 then 1 else 4) % 4 = 0) ∧
      (s.dev.rights (↑k) (s.dev.core ↑k).ring (memAddr (s.dev.core ↑k) w (if 50 = 53 then 1 else 4))).testBit 1 = true ∧
      ((if 50 = 50 then (s.dev.core ↑k).tag (iwD w) else 0) = 0 ∨
      keepsTags (memAddr (s.dev.core ↑k) w (if 50 = 53 then 1 else 4)) = true) ∧
      (s.dev.core ↑k).stores.length < 4) ∧
    (∃ (k : Fin 19), ∃ (s : State), ∃ (w : Word), AnvReady s.mem s.dev (↑k) w ∧ iwOp w = 51 ∧
      ((s.dev.core ↑k).byteMode = true ∨ iwAm w = 0 ∨ (s.dev.core ↑k).tag (iwBase w) ∈ [0, 1, 6]) ∧
      ((if 51 = 53 then 1 else 4) = 4 → memAddr (s.dev.core ↑k) w (if 51 = 53 then 1 else 4) % 4 = 0) ∧
      (s.dev.rights (↑k) (s.dev.core ↑k).ring (memAddr (s.dev.core ↑k) w (if 51 = 53 then 1 else 4))).testBit 1 = true ∧
      ((if 51 = 50 then (s.dev.core ↑k).tag (iwD w) else 0) = 0 ∨
      keepsTags (memAddr (s.dev.core ↑k) w (if 51 = 53 then 1 else 4)) = true) ∧
      (s.dev.core ↑k).stores.length < 4) ∧
    (∃ (k : Fin 19), ∃ (s : State), ∃ (w : Word), AnvReady s.mem s.dev (↑k) w ∧ iwOp w = 53 ∧
      ((s.dev.core ↑k).byteMode = true ∨ iwAm w = 0 ∨ (s.dev.core ↑k).tag (iwBase w) ∈ [0, 1, 6]) ∧
      ((if 53 = 53 then 1 else 4) = 4 → memAddr (s.dev.core ↑k) w (if 53 = 53 then 1 else 4) % 4 = 0) ∧
      (s.dev.rights (↑k) (s.dev.core ↑k).ring (memAddr (s.dev.core ↑k) w (if 53 = 53 then 1 else 4))).testBit 1 = true ∧
      ((if 53 = 50 then (s.dev.core ↑k).tag (iwD w) else 0) = 0 ∨
      keepsTags (memAddr (s.dev.core ↑k) w (if 53 = 53 then 1 else 4)) = true) ∧
      (s.dev.core ↑k).stores.length < 4) ∧
    (∃ (k : Fin 19), ∃ (s : State), ∃ (w : Word), AnvReady s.mem s.dev (↑k) w ∧ ∃ (b : Nat), ∃ (o : Nat),
      kindOf (baseAddr (s.dev.core ↑k) ((s.dev.core ↑k).wv (iwA w)) 0) = Kind.ingot b o 0 ∧ iwOp w = 55 ∧
      (s.dev.core ↑k).stores = [] ∧ baseAddr (s.dev.core ↑k) ((s.dev.core ↑k).wv (iwA w)) 0 % 4 = 0 ∧
      (s.dev.rights (↑k) (s.dev.core ↑k).ring (baseAddr (s.dev.core ↑k) ((s.dev.core ↑k).wv (iwA w)) 0)).testBit 1 = true ∧
      (s.dev.core ↑k).monitor ≠ some (bankAddr (s.dev.mirror (↑k) b) o)) :=
  ⟨⟨0, (memS (sN 0 [0xC4D1000] [(MEM_STAT, 0xFFFFFFFF)] (ab 0x80000010 0 1 0))), 0x0c4d1000, anv_of rfl (by decide),
     by decide, rfl, by decide⟩,
   ⟨0, (memS (sN 0 [0xC8D1000] [] (fun c => (ab 0x2000004 0 1 0 c).setW 3 0xABCD1234 1))), 0x0c8d1000,
     anv_of rfl (by decide), by decide⟩,
   ⟨0, (memS (sN 0 [0xC8C1008] [] (fun c => { ab 0x1001004 9 0 0 c with bk := 0x100 }))), 0x0c8c1008,
     anv_of rfl (by decide), by decide⟩,
   ⟨0, (memS (sN 0 [0xCCC1008] [] (fun c => { ab 0x1001004 9 6 0 c with bk := 0x100 }))), 0x0ccc1008,
     anv_of rfl (by decide), by decide⟩,
   ⟨0, (memS (sN 0 [0xD4C1000] [] (fun c => { ab 0x1001004 9 6 0 c with bk := 0x100 }))), 0x0d4c1000,
     anv_of rfl (by decide), by decide⟩,
   ⟨0, (memS (sN 0 [0xDCC4800] [] (fun c => { ab 0x1001004 0xCAFE 1 0 c with monitor := none }))), 0x0dcc4800,
     anv_of rfl (by decide), _, _, rfl, by decide⟩⟩

theorem meets_AnvilLoadsAndStores_5 :
    (∃ (k : Fin 19), ∃ (s : State), ∃ (w : Word), AnvReady s.mem s.dev (↑k) w ∧ ∃ (b : Nat), ∃ (o : Nat),
      kindOf (baseAddr (s.dev.core ↑k) ((s.dev.core ↑k).wv (iwA w)) 0) = Kind.ingot b o 0 ∧ iwOp w = 55 ∧
      (s.dev.core ↑k).stores = [] ∧ baseAddr (s.dev.core ↑k) ((s.dev.core ↑k).wv (iwA w)) 0 % 4 = 0 ∧
      (s.dev.rights (↑k) (s.dev.core ↑k).ring (baseAddr (s.dev.core ↑k) ((s.dev.core ↑k).wv (iwA w)) 0)).testBit 1 = true ∧
      (s.dev.core ↑k).monitor = some (bankAddr (s.dev.mirror (↑k) b) o) ∧
      s.dev.bankUp (s.dev.mirror (↑k) b) = true ∧ isBank15 (s.dev.mirror (↑k) b) = false ∧
      s.dev.mirror (↑k) b ≠ 71 ∧ s.dev.ingotOk (Mst.core ↑k) (s.dev.mirror (↑k) b) true = true) ∧
    (∃ (k : Fin 19), ∃ (s : State), ∃ (w : Word), AnvReady s.mem s.dev (↑k) w ∧ iwOp w = 47 ∧
      (s.dev.core ↑k).stores = []) :=
  ⟨⟨0, (memS (sN 0 [0xDCC4800] [] (fun c => { ab 0x1001004 0xCAFE 1 0 c with monitor := some 0x1001004 }))),
     0x0dcc4800, anv_of rfl (by decide), _, _, rfl, by decide⟩,
   ⟨0, (memS (sN 0 [0xBC00000] [] (id))), 0x0bc00000, anv_of rfl (by decide), by decide⟩⟩

theorem meets_AnvilBackgroundAccesses_1 :
    (∃ (k : Fin 19), ∃ (s : State), ∃ (e : StoreEnt), ∃ (r : List StoreEnt), (s.dev.core ↑k).stores = e :: r ∧
      s.dev.coreClock ↑k = true ∧ s.dev.windowOf (↑k) e.addr = none ∧ ∃ (b : Nat), ∃ (o : Nat),
      kindOf e.addr = Kind.ingot b o 0 ∧ s.dev.bankUp (s.dev.mirror (↑k) b) = true ∧
      isBank15 (s.dev.mirror (↑k) b) = false ∧ s.dev.mirror (↑k) b ≠ 71 ∧
      s.dev.ingotOk (Mst.core ↑k) (s.dev.mirror (↑k) b) true = true ∧
      s.mem.errAt (bankAddr (s.dev.mirror (↑k) b) (o / 4 * 4)) = 0) ∧
    (∃ (k : Fin 19), ∃ (s : State), ∃ (e : StoreEnt), ∃ (r : List StoreEnt), (s.dev.core ↑k).stores = e :: r ∧
      s.dev.coreClock ↑k = true ∧ s.dev.windowOf (↑k) e.addr = none ∧ (kindOf e.addr = Kind.rom ∨
      kindOf e.addr = Kind.flash ∨ kindOf e.addr = Kind.reserved)) ∧
    (∃ (k : Fin 19), ∃ (s : State), ∃ (a : Nat), ∃ (v : Word), ∃ (n : Nat), (s.dev.core ↑k).late = some (a, v, n) ∧
      s.dev.coreLive ↑k = true ∧ (s.dev.core ↑k).load = none ∧ s.dev.merging ↑k = false) ∧
    (∃ (k : Fin 19), ∃ (s : State), (s.dev.core ↑k).late = none ∨ s.dev.merging ↑k = true) ∧
    (∃ (k : Fin 19), ∃ (s : State), ∃ (p : LoadPend), (s.dev.core ↑k).load = some p ∧ s.dev.coreLive ↑k = true ∧
      (s.dev.core ↑k).stepping = false ∧ (s.dev.core ↑k).rep = none ∧ (↑k = 18 ∨ ∀ (u : Nat),
      u < 4 → s.dev.fldIf (DBG_BW_CFG (↑k) u) DBG_BW_CFG_en = 0) ∧ iwOp p.iw ∈ [48, 49, 52, 54] ∧ p.ok = true ∧
      (iwOp p.iw = 48 → p.tag < 9) ∧ (iwOp p.iw = 54 ∨ iwAm p.iw ≠ 2)) ∧
    (∃ (k : Fin 19), ∃ (s : State), ∃ (p : LoadPend), (s.dev.core ↑k).load = some p ∧ s.dev.coreLive ↑k = true ∧
      (s.dev.core ↑k).stepping = false ∧ (s.dev.core ↑k).rep = none ∧ (↑k = 18 ∨ ∀ (u : Nat),
      u < 4 → s.dev.fldIf (DBG_BW_CFG (↑k) u) DBG_BW_CFG_en = 0) ∧ iwOp p.iw ∈ [48, 49, 52, 54] ∧ p.ok = false) :=
  ⟨⟨0,
     (memS (sN 0 [0x0] [] (fun c => { c with stores := [⟨0x1001004, 4, 0xABCD, 3, 0⟩], late := none, monitor := some 0x1001004 }))),
     _, _, rfl, by decide, by decide, _, _, rfl, by decide⟩,
   ⟨0,
     (memS (sN 0 [0x0] [] (fun c => { c with stores := [⟨0x0, 4, 5, 0, 0⟩], late := none, monitor := some 0x1001004 }))),
     _, _, rfl, by decide⟩,
   ⟨0,
     (memS (sN 0 [0x0] [] (fun c => { c with stores := [⟨0x1001004, 4, 0xABCD, 3, 0⟩], late := some (4, 5, 4), monitor := some 0x1001004 }))),
     4, 0x00000005, 4, by decide⟩,
   ⟨0,
     (memS (sN 0 [0x0] [] (fun c => { c with stores := [⟨0x1001004, 4, 0xABCD, 3, 0⟩], late := none, monitor := some 0x1001004 }))),
     by decide⟩,
   ⟨0, (sN 0 [0x0] [] (fun c => { (ab 0x80000010 5 1 1 c) with load := some ⟨0xC0D1000, true, 0x77, 0⟩ })), _, rfl,
     by decide⟩,
   ⟨0, (sN 0 [0x0] [] (fun c => { (ab 0x80000010 5 1 1 c) with load := some ⟨0xC0D1000, false, 0x77, 0⟩ })), _, rfl,
     by decide⟩⟩

theorem meets_AnvilBackgroundAccesses_2 :
    ∃ (k : Fin 19), ∃ (s : State), (s.dev.core ↑k).load = none :=
  ⟨0,
    (memS (sN 0 [0x0] [] (fun c => { c with stores := [⟨0x1001004, 4, 0xABCD, 3, 0⟩], late := none, monitor := some 0x1001004 }))),
    by decide⟩

theorem meets_AnvilSideUnits_1 :
    (∃ (k : Fin 19), ∃ (s : State),
      (List.filter (fun (st : Stn) => unitOf st.op == unitOf 32) (s.dev.core ↑k).stns).length < 2 ∧ ∃ (w : Word),
      AnvReady s.mem s.dev (↑k) w ∧ iwOp w = 32 ∧ ∃ (l : List Nat),
      sideTags 32 (s.dev.core ↑k).byteMode (if 32 = 38 then iwCr w else if 32 = 39 then false else iwR w) (if 32 = 38 then iwCc w else if 32 = 39 then BitVec.toNat w % 8 else 0) ((s.dev.core ↑k).operand (iwA w)).tag (if 32 ∈ [39,
      40,
      43] then { val := 0, tag := 0, link := none } else (s.dev.core ↑k).operand (iwB w)).tag ((s.dev.core ↑k).tag (if 32 = 38 then iwPd w else iwD w)) ((s.dev.core ↑k).tag ((if 32 = 38 then iwPd w else iwD w) + 1)) = Sum.inr l) ∧
    (∃ (k : Fin 19), ∃ (s : State),
      (List.filter (fun (st : Stn) => unitOf st.op == unitOf 32) (s.dev.core ↑k).stns).length < 2 ∧ ∃ (w : Word),
      AnvReady s.mem s.dev (↑k) w ∧ iwOp w = 32 ∧ (s.dev.core ↑k).byteMode = false ∧
      (if 32 = 38 then iwCr w else if 32 = 39 then false else iwR w) = false ∧
      ((s.dev.core ↑k).operand (iwA w)).tag = 15) ∧
    (∃ (k : Fin 19), ∃ (s : State),
      (List.filter (fun (st : Stn) => unitOf st.op == unitOf 33) (s.dev.core ↑k).stns).length < 2 ∧ ∃ (w : Word),
      AnvReady s.mem s.dev (↑k) w ∧ iwOp w = 33 ∧ ∃ (l : List Nat),
      sideTags 33 (s.dev.core ↑k).byteMode (if 33 = 38 then iwCr w else if 33 = 39 then false else iwR w) (if 33 = 38 then iwCc w else if 33 = 39 then BitVec.toNat w % 8 else 0) ((s.dev.core ↑k).operand (iwA w)).tag (if 33 ∈ [39,
      40,
      43] then { val := 0, tag := 0, link := none } else (s.dev.core ↑k).operand (iwB w)).tag ((s.dev.core ↑k).tag (if 33 = 38 then iwPd w else iwD w)) ((s.dev.core ↑k).tag ((if 33 = 38 then iwPd w else iwD w) + 1)) = Sum.inr l) ∧
    (∃ (k : Fin 19), ∃ (s : State),
      (List.filter (fun (st : Stn) => unitOf st.op == unitOf 34) (s.dev.core ↑k).stns).length < 2 ∧ ∃ (w : Word),
      AnvReady s.mem s.dev (↑k) w ∧ iwOp w = 34 ∧ ∃ (l : List Nat),
      sideTags 34 (s.dev.core ↑k).byteMode (if 34 = 38 then iwCr w else if 34 = 39 then false else iwR w) (if 34 = 38 then iwCc w else if 34 = 39 then BitVec.toNat w % 8 else 0) ((s.dev.core ↑k).operand (iwA w)).tag (if 34 ∈ [39,
      40,
      43] then { val := 0, tag := 0, link := none } else (s.dev.core ↑k).operand (iwB w)).tag ((s.dev.core ↑k).tag (if 34 = 38 then iwPd w else iwD w)) ((s.dev.core ↑k).tag ((if 34 = 38 then iwPd w else iwD w) + 1)) = Sum.inr l) ∧
    (∃ (k : Fin 19), ∃ (s : State),
      (List.filter (fun (st : Stn) => unitOf st.op == unitOf 34) (s.dev.core ↑k).stns).length < 2 ∧ ∃ (w : Word),
      AnvReady s.mem s.dev (↑k) w ∧ iwOp w = 34 ∧ (s.dev.core ↑k).byteMode = false ∧
      (if 34 = 38 then iwCr w else if 34 = 39 then false else iwR w) = false ∧
      ((s.dev.core ↑k).operand (iwA w)).tag = 15) ∧
    (∃ (k : Fin 19), ∃ (s : State),
      (List.filter (fun (st : Stn) => unitOf st.op == unitOf 35) (s.dev.core ↑k).stns).length < 2 ∧ ∃ (w : Word),
      AnvReady s.mem s.dev (↑k) w ∧ iwOp w = 35 ∧ ∃ (l : List Nat),
      sideTags 35 (s.dev.core ↑k).byteMode (if 35 = 38 then iwCr w else if 35 = 39 then false else iwR w) (if 35 = 38 then iwCc w else if 35 = 39 then BitVec.toNat w % 8 else 0) ((s.dev.core ↑k).operand (iwA w)).tag (if 35 ∈ [39,
      40,
      43] then { val := 0, tag := 0, link := none } else (s.dev.core ↑k).operand (iwB w)).tag ((s.dev.core ↑k).tag (if 35 = 38 then iwPd w else iwD w)) ((s.dev.core ↑k).tag ((if 35 = 38 then iwPd w else iwD w) + 1)) = Sum.inr l) :=
  ⟨⟨0, (sN 0 [0x8104800] [] (ab 0x40000000 0xC0000000 1 1)), by decide, 0x08104800, anv_of rfl (by decide),
     by decide, _, rfl⟩,
   ⟨0, (sN 0 [0x8104800] [] (ab 0x80000000 0xFFFFFFFF 15 1)), by decide, 0x08104800, anv_of rfl (by decide),
     by decide⟩,
   ⟨0, (sN 0 [0x8504A00] [] (ab 0xFFFFFFFF 0x80000000 2 2)), by decide, 0x08504a00, anv_of rfl (by decide),
     by decide, _, rfl⟩,
   ⟨0, (sN 0 [0x8904800] [] (ab 0xFFFFFF80 0x3 3 3)), by decide, 0x08904800, anv_of rfl (by decide), by decide, _,
     rfl⟩,
   ⟨0, (sN 0 [0x8904800] [] (ab 0x80000001 0x0 15 1)), by decide, 0x08904800, anv_of rfl (by decide), by decide⟩,
   ⟨0, (sN 0 [0x8D04A00] [] (ab 0x80000000 0xFFFFFFFF 1 1)), by decide, 0x08d04a00, anv_of rfl (by decide),
     by decide, _, rfl⟩⟩

theorem meets_AnvilSideUnits_2 :
    (∃ (k : Fin 19), ∃ (s : State),
      (List.filter (fun (st : Stn) => unitOf st.op == unitOf 35) (s.dev.core ↑k).stns).length < 2 ∧ ∃ (w : Word),
      AnvReady s.mem s.dev (↑k) w ∧ iwOp w = 35 ∧ (s.dev.core ↑k).byteMode = false ∧
      (if 35 = 38 then iwCr w else if 35 = 39 then false else iwR w) = false ∧
      ((s.dev.core ↑k).operand (iwA w)).tag = 15) ∧
    (∃ (k : Fin 19), ∃ (s : State),
      (List.filter (fun (st : Stn) => unitOf st.op == unitOf 36) (s.dev.core ↑k).stns).length < 2 ∧ ∃ (w : Word),
      AnvReady s.mem s.dev (↑k) w ∧ iwOp w = 36 ∧ ∃ (l : List Nat),
      sideTags 36 (s.dev.core ↑k).byteMode (if 36 = 38 then iwCr w else if 36 = 39 then false else iwR w) (if 36 = 38 then iwCc w else if 36 = 39 then BitVec.toNat w % 8 else 0) ((s.dev.core ↑k).operand (iwA w)).tag (if 36 ∈ [39,
      40,
      43] then { val := 0, tag := 0, link := none } else (s.dev.core ↑k).operand (iwB w)).tag ((s.dev.core ↑k).tag (if 36 = 38 then iwPd w else iwD w)) ((s.dev.core ↑k).tag ((if 36 = 38 then iwPd w else iwD w) + 1)) = Sum.inr l) ∧
    (∃ (k : Fin 19), ∃ (s : State),
      (List.filter (fun (st : Stn) => unitOf st.op == unitOf 36) (s.dev.core ↑k).stns).length < 2 ∧ ∃ (w : Word),
      AnvReady s.mem s.dev (↑k) w ∧ iwOp w = 36 ∧ (s.dev.core ↑k).byteMode = false ∧
      (if 36 = 38 then iwCr w else if 36 = 39 then false else iwR w) = false ∧
      ((s.dev.core ↑k).operand (iwA w)).tag = 15) ∧
    (∃ (k : Fin 19), ∃ (s : State),
      (List.filter (fun (st : Stn) => unitOf st.op == unitOf 37) (s.dev.core ↑k).stns).length < 2 ∧ ∃ (w : Word),
      AnvReady s.mem s.dev (↑k) w ∧ iwOp w = 37 ∧ ∃ (l : List Nat),
      sideTags 37 (s.dev.core ↑k).byteMode (if 37 = 38 then iwCr w else if 37 = 39 then false else iwR w) (if 37 = 38 then iwCc w else if 37 = 39 then BitVec.toNat w % 8 else 0) ((s.dev.core ↑k).operand (iwA w)).tag (if 37 ∈ [39,
      40,
      43] then { val := 0, tag := 0, link := none } else (s.dev.core ↑k).operand (iwB w)).tag ((s.dev.core ↑k).tag (if 37 = 38 then iwPd w else iwD w)) ((s.dev.core ↑k).tag ((if 37 = 38 then iwPd w else iwD w) + 1)) = Sum.inr l) ∧
    (∃ (k : Fin 19), ∃ (s : State),
      (List.filter (fun (st : Stn) => unitOf st.op == unitOf 37) (s.dev.core ↑k).stns).length < 2 ∧ ∃ (w : Word),
      AnvReady s.mem s.dev (↑k) w ∧ iwOp w = 37 ∧ (s.dev.core ↑k).byteMode = false ∧
      (if 37 = 38 then iwCr w else if 37 = 39 then false else iwR w) = false ∧
      ((s.dev.core ↑k).operand (iwA w)).tag = 15) ∧
    (∃ (k : Fin 19), ∃ (s : State),
      (List.filter (fun (st : Stn) => unitOf st.op == unitOf 38) (s.dev.core ↑k).stns).length < 2 ∧ ∃ (w : Word),
      AnvReady s.mem s.dev (↑k) w ∧ iwOp w = 38 ∧ ∃ (l : List Nat),
      sideTags 38 (s.dev.core ↑k).byteMode (if 38 = 38 then iwCr w else if 38 = 39 then false else iwR w) (if 38 = 38 then iwCc w else if 38 = 39 then BitVec.toNat w % 8 else 0) ((s.dev.core ↑k).operand (iwA w)).tag (if 38 ∈ [39,
      40,
      43] then { val := 0, tag := 0, link := none } else (s.dev.core ↑k).operand (iwB w)).tag ((s.dev.core ↑k).tag (if 38 = 38 then iwPd w else iwD w)) ((s.dev.core ↑k).tag ((if 38 = 38 then iwPd w else iwD w) + 1)) = Sum.inr l) :=
  ⟨⟨0, (sN 0 [0x8D04800] [] (ab 0xFFFFFF80 0x3 15 1)), by decide, 0x08d04800, anv_of rfl (by decide), by decide⟩,
   ⟨0, (sN 0 [0x9104A00] [] (ab 0x40000000 0xC0000000 1 1)), by decide, 0x09104a00, anv_of rfl (by decide),
     by decide, _, rfl⟩,
   ⟨0, (sN 0 [0x9104800] [] (ab 0x5 0x0 15 1)), by decide, 0x09104800, anv_of rfl (by decide), by decide⟩,
   ⟨0, (sN 0 [0x9504800] [] (ab 0x7FFFFFFF 0x1 4 4)), by decide, 0x09504800, anv_of rfl (by decide), by decide, _,
     rfl⟩,
   ⟨0, (sN 0 [0x9504800] [] (ab 0x40000000 0xC0000000 15 1)), by decide, 0x09504800, anv_of rfl (by decide),
     by decide⟩,
   ⟨0, (sN 0 [0x9984900] [] (ab 0x10000 0x20000 4 4)), by decide, 0x09984900, anv_of rfl (by decide), by decide, _,
     rfl⟩⟩

theorem meets_AnvilSideUnits_3 :
    (∃ (k : Fin 19), ∃ (s : State),
      (List.filter (fun (st : Stn) => unitOf st.op == unitOf 38) (s.dev.core ↑k).stns).length < 2 ∧ ∃ (w : Word),
      AnvReady s.mem s.dev (↑k) w ∧ iwOp w = 38 ∧ (s.dev.core ↑k).byteMode = false ∧
      (if 38 = 38 then iwCr w else if 38 = 39 then false else iwR w) = false ∧
      ((s.dev.core ↑k).operand (iwA w)).tag = 15) ∧
    (∃ (k : Fin 19), ∃ (s : State),
      (List.filter (fun (st : Stn) => unitOf st.op == unitOf 39) (s.dev.core ↑k).stns).length < 2 ∧ ∃ (w : Word),
      AnvReady s.mem s.dev (↑k) w ∧ iwOp w = 39 ∧ ∃ (l : List Nat),
      sideTags 39 (s.dev.core ↑k).byteMode (if 39 = 38 then iwCr w else if 39 = 39 then false else iwR w) (if 39 = 38 then iwCc w else if 39 = 39 then BitVec.toNat w % 8 else 0) ((s.dev.core ↑k).operand (iwA w)).tag (if 39 ∈ [39,
      40,
      43] then { val := 0, tag := 0, link := none } else (s.dev.core ↑k).operand (iwB w)).tag ((s.dev.core ↑k).tag (if 39 = 38 then iwPd w else iwD w)) ((s.dev.core ↑k).tag ((if 39 = 38 then iwPd w else iwD w) + 1)) = Sum.inr l) ∧
    (∃ (k : Fin 19), ∃ (s : State),
      (List.filter (fun (st : Stn) => unitOf st.op == unitOf 39) (s.dev.core ↑k).stns).length < 2 ∧ ∃ (w : Word),
      AnvReady s.mem s.dev (↑k) w ∧ iwOp w = 39 ∧ (s.dev.core ↑k).byteMode = false ∧
      (if 39 = 38 then iwCr w else if 39 = 39 then false else iwR w) = false ∧
      ((s.dev.core ↑k).operand (iwA w)).tag = 15) ∧
    (∃ (k : Fin 19), ∃ (s : State),
      (List.filter (fun (st : Stn) => unitOf st.op == unitOf 40) (s.dev.core ↑k).stns).length < 2 ∧ ∃ (w : Word),
      AnvReady s.mem s.dev (↑k) w ∧ iwOp w = 40 ∧ ∃ (l : List Nat),
      sideTags 40 (s.dev.core ↑k).byteMode (if 40 = 38 then iwCr w else if 40 = 39 then false else iwR w) (if 40 = 38 then iwCc w else if 40 = 39 then BitVec.toNat w % 8 else 0) ((s.dev.core ↑k).operand (iwA w)).tag (if 40 ∈ [39,
      40,
      43] then { val := 0, tag := 0, link := none } else (s.dev.core ↑k).operand (iwB w)).tag ((s.dev.core ↑k).tag (if 40 = 38 then iwPd w else iwD w)) ((s.dev.core ↑k).tag ((if 40 = 38 then iwPd w else iwD w) + 1)) = Sum.inr l) ∧
    (∃ (k : Fin 19), ∃ (s : State),
      (List.filter (fun (st : Stn) => unitOf st.op == unitOf 40) (s.dev.core ↑k).stns).length < 2 ∧ ∃ (w : Word),
      AnvReady s.mem s.dev (↑k) w ∧ iwOp w = 40 ∧ (s.dev.core ↑k).byteMode = false ∧
      (if 40 = 38 then iwCr w else if 40 = 39 then false else iwR w) = false ∧
      ((s.dev.core ↑k).operand (iwA w)).tag = 15) ∧
    (∃ (k : Fin 19), ∃ (s : State),
      (List.filter (fun (st : Stn) => unitOf st.op == unitOf 41) (s.dev.core ↑k).stns).length < 2 ∧ ∃ (w : Word),
      AnvReady s.mem s.dev (↑k) w ∧ iwOp w = 41 ∧ ∃ (l : List Nat),
      sideTags 41 (s.dev.core ↑k).byteMode (if 41 = 38 then iwCr w else if 41 = 39 then false else iwR w) (if 41 = 38 then iwCc w else if 41 = 39 then BitVec.toNat w % 8 else 0) ((s.dev.core ↑k).operand (iwA w)).tag (if 41 ∈ [39,
      40,
      43] then { val := 0, tag := 0, link := none } else (s.dev.core ↑k).operand (iwB w)).tag ((s.dev.core ↑k).tag (if 41 = 38 then iwPd w else iwD w)) ((s.dev.core ↑k).tag ((if 41 = 38 then iwPd w else iwD w) + 1)) = Sum.inr l) :=
  ⟨⟨0, (sN 0 [0x9984800] [] (ab 0x10000 0x20000 15 1)), by decide, 0x09984800, anv_of rfl (by decide), by decide⟩,
   ⟨0, (sN 0 [0x9D04000] [] (ab 0x40000000 0xC0000000 1 1)), by decide, 0x09d04000, anv_of rfl (by decide),
     by decide, _, rfl⟩,
   ⟨0, (sN 0 [0x9D04000] [] (ab 0x10000 0x20000 15 1)), by decide, 0x09d04000, anv_of rfl (by decide), by decide⟩,
   ⟨0, (sN 0 [0xA104000] [] (ab 0x40000000 0xC0000000 2 2)), by decide, 0x0a104000, anv_of rfl (by decide),
     by decide, _, rfl⟩,
   ⟨0, (sN 0 [0xA104000] [] (ab 0x80000000 0x21 15 1)), by decide, 0x0a104000, anv_of rfl (by decide), by decide⟩,
   ⟨0, (sN 0 [0xA504800] [] (ab 0x7FFFFFFF 0x1 1 1)), by decide, 0x0a504800, anv_of rfl (by decide), by decide, _,
     rfl⟩⟩

theorem meets_AnvilSideUnits_4 :
    (∃ (k : Fin 19), ∃ (s : State),
      (List.filter (fun (st : Stn) => unitOf st.op == unitOf 41) (s.dev.core ↑k).stns).length < 2 ∧ ∃ (w : Word),
      AnvReady s.mem s.dev (↑k) w ∧ iwOp w = 41 ∧ (s.dev.core ↑k).byteMode = false ∧
      (if 41 = 38 then iwCr w else if 41 = 39 then false else iwR w) = false ∧
      ((s.dev.core ↑k).operand (iwA w)).tag = 15) ∧
    (∃ (k : Fin 19), ∃ (s : State),
      (List.filter (fun (st : Stn) => unitOf st.op == unitOf 42) (s.dev.core ↑k).stns).length < 2 ∧ ∃ (w : Word),
      AnvReady s.mem s.dev (↑k) w ∧ iwOp w = 42 ∧ ∃ (l : List Nat),
      sideTags 42 (s.dev.core ↑k).byteMode (if 42 = 38 then iwCr w else if 42 = 39 then false else iwR w) (if 42 = 38 then iwCc w else if 42 = 39 then BitVec.toNat w % 8 else 0) ((s.dev.core ↑k).operand (iwA w)).tag (if 42 ∈ [39,
      40,
      43] then { val := 0, tag := 0, link := none } else (s.dev.core ↑k).operand (iwB w)).tag ((s.dev.core ↑k).tag (if 42 = 38 then iwPd w else iwD w)) ((s.dev.core ↑k).tag ((if 42 = 38 then iwPd w else iwD w) + 1)) = Sum.inr l) ∧
    (∃ (k : Fin 19), ∃ (s : State),
      (List.filter (fun (st : Stn) => unitOf st.op == unitOf 42) (s.dev.core ↑k).stns).length < 2 ∧ ∃ (w : Word),
      AnvReady s.mem s.dev (↑k) w ∧ iwOp w = 42 ∧ (s.dev.core ↑k).byteMode = false ∧
      (if 42 = 38 then iwCr w else if 42 = 39 then false else iwR w) = false ∧
      ((s.dev.core ↑k).operand (iwA w)).tag = 15) ∧
    (∃ (k : Fin 19), ∃ (s : State),
      (List.filter (fun (st : Stn) => unitOf st.op == unitOf 43) (s.dev.core ↑k).stns).length < 2 ∧ ∃ (w : Word),
      AnvReady s.mem s.dev (↑k) w ∧ iwOp w = 43 ∧ ∃ (l : List Nat),
      sideTags 43 (s.dev.core ↑k).byteMode (if 43 = 38 then iwCr w else if 43 = 39 then false else iwR w) (if 43 = 38 then iwCc w else if 43 = 39 then BitVec.toNat w % 8 else 0) ((s.dev.core ↑k).operand (iwA w)).tag (if 43 ∈ [39,
      40,
      43] then { val := 0, tag := 0, link := none } else (s.dev.core ↑k).operand (iwB w)).tag ((s.dev.core ↑k).tag (if 43 = 38 then iwPd w else iwD w)) ((s.dev.core ↑k).tag ((if 43 = 38 then iwPd w else iwD w) + 1)) = Sum.inr l) ∧
    (∃ (k : Fin 19), ∃ (s : State),
      (List.filter (fun (st : Stn) => unitOf st.op == unitOf 43) (s.dev.core ↑k).stns).length < 2 ∧ ∃ (w : Word),
      AnvReady s.mem s.dev (↑k) w ∧ iwOp w = 43 ∧ (s.dev.core ↑k).byteMode = false ∧
      (if 43 = 38 then iwCr w else if 43 = 39 then false else iwR w) = false ∧
      ((s.dev.core ↑k).operand (iwA w)).tag = 15) ∧
    (∃ (k : Fin 19), ∃ (s : State),
      (List.filter (fun (st : Stn) => unitOf st.op == unitOf 44) (s.dev.core ↑k).stns).length < 2 ∧ ∃ (w : Word),
      AnvReady s.mem s.dev (↑k) w ∧ iwOp w = 44 ∧ ∃ (l : List Nat),
      sideTags 44 (s.dev.core ↑k).byteMode (if 44 = 38 then iwCr w else if 44 = 39 then false else iwR w) (if 44 = 38 then iwCc w else if 44 = 39 then BitVec.toNat w % 8 else 0) ((s.dev.core ↑k).operand (iwA w)).tag (if 44 ∈ [39,
      40,
      43] then { val := 0, tag := 0, link := none } else (s.dev.core ↑k).operand (iwB w)).tag ((s.dev.core ↑k).tag (if 44 = 38 then iwPd w else iwD w)) ((s.dev.core ↑k).tag ((if 44 = 38 then iwPd w else iwD w) + 1)) = Sum.inr l) :=
  ⟨⟨18, (sN 18 [0xA504800] [] (ab 0xFFFFFF80 0x3 15 1)), by decide, 0x0a504800, anv_of rfl (by decide), by decide⟩,
   ⟨0, (sN 0 [0xA904A00] [] (ab 0x80000001 0x0 2 2)), by decide, 0x0a904a00, anv_of rfl (by decide), by decide, _,
     rfl⟩,
   ⟨0, (sN 0 [0xA904800] [] (ab 0x80000000 0x21 15 1)), by decide, 0x0a904800, anv_of rfl (by decide), by decide⟩,
   ⟨0, (sN 0 [0xAD04000] [] (ab 0x5 0x0 5 1)), by decide, 0x0ad04000, anv_of rfl (by decide), by decide, _, rfl⟩,
   ⟨18, (sN 18 [0xAD04000] [] (ab 0x5 0x0 15 1)), by decide, 0x0ad04000, anv_of rfl (by decide), by decide⟩,
   ⟨0, (sN 0 [0xB104800] [] (ab 0x80000000 0xFFFFFFFF 3 3)), by decide, 0x0b104800, anv_of rfl (by decide),
     by decide, _, rfl⟩⟩

theorem meets_AnvilSideUnits_5 :
    (∃ (k : Fin 19), ∃ (s : State),
      (List.filter (fun (st : Stn) => unitOf st.op == unitOf 44) (s.dev.core ↑k).stns).length < 2 ∧ ∃ (w : Word),
      AnvReady s.mem s.dev (↑k) w ∧ iwOp w = 44 ∧ (s.dev.core ↑k).byteMode = false ∧
      (if 44 = 38 then iwCr w else if 44 = 39 then false else iwR w) = false ∧
      ((s.dev.core ↑k).operand (iwA w)).tag = 15) ∧
    (∃ (k : Fin 19), ∃ (n : Fin 12), ∃ (s : State), ∃ (st : Stn), (s.dev.core ↑k).stns[↑n]? = some st ∧
      s.dev.coreClock ↑k = true ∧ (s.dev.core ↑k).running = true ∧ s.dev.locked ↑k = false ∧
      sideTurn (s.dev.core ↑k).stns ↑n = true ∧ st.op = 32 ∧ (s.dev.core ↑k).byteMode = false ∧ st.r = true) ∧
    (∃ (k : Fin 19), ∃ (n : Fin 12), ∃ (s : State), ∃ (st : Stn), (s.dev.core ↑k).stns[↑n]? = some st ∧
      s.dev.coreClock ↑k = true ∧ (s.dev.core ↑k).running = true ∧ s.dev.locked ↑k = false ∧
      sideTurn (s.dev.core ↑k).stns ↑n = true ∧ st.op = 32 ∧ ((s.dev.core ↑k).byteMode = false ∧ st.r = false) ∧
      st.a.tag = 1 ∧ st.b.tag = 1) ∧
    (∃ (k : Fin 19), ∃ (n : Fin 12), ∃ (s : State), ∃ (st : Stn), (s.dev.core ↑k).stns[↑n]? = some st ∧
      s.dev.coreClock ↑k = true ∧ (s.dev.core ↑k).running = true ∧ s.dev.locked ↑k = false ∧
      sideTurn (s.dev.core ↑k).stns ↑n = true ∧ st.op = 32 ∧ ((s.dev.core ↑k).byteMode = false ∧ st.r = false) ∧
      st.a.tag = 5 ∧ st.b.tag = 1) ∧
    (∃ (k : Fin 19), ∃ (n : Fin 12), ∃ (s : State), ∃ (st : Stn), (s.dev.core ↑k).stns[↑n]? = some st ∧
      s.dev.coreClock ↑k = true ∧ (s.dev.core ↑k).running = true ∧ s.dev.locked ↑k = false ∧
      sideTurn (s.dev.core ↑k).stns ↑n = true ∧ st.op = 32 ∧ ((s.dev.core ↑k).byteMode = false ∧ st.r = false) ∧
      st.a.tag = 2 ∧ st.b.tag = 2) ∧
    (∃ (k : Fin 19), ∃ (n : Fin 12), ∃ (s : State), ∃ (st : Stn), (s.dev.core ↑k).stns[↑n]? = some st ∧
      s.dev.coreClock ↑k = true ∧ (s.dev.core ↑k).running = true ∧ s.dev.locked ↑k = false ∧
      sideTurn (s.dev.core ↑k).stns ↑n = true ∧ st.op = 32 ∧ ((s.dev.core ↑k).byteMode = false ∧ st.r = false) ∧
      st.a.tag = 3 ∧ st.b.tag = 3) :=
  ⟨⟨0, (sN 0 [0xB104800] [] (ab 0x7FFFFFFF 0x1 15 1)), by decide, 0x0b104800, anv_of rfl (by decide), by decide⟩,
   ⟨0, 0, (sN 0 [0x8104800] [] (fun c => { ab 5 6 1 1 c with stns := [stn 0x20 1 true 0 5 6 0 0] })), _, rfl,
     by decide⟩,
   ⟨0, 0,
     (sN 0 [0x0] [] (fun c => { ((ab 1 2 1 1 c).setW 5 0xFFFFFFF0 0) with stns := [stn 0x20 4 false 0 0x5 0x7 1 1, ⟨0x29, 6, false, 0, ⟨0, 0, some 4⟩, ⟨3, 1, none⟩⟩], byteMode := false, suerr := 8 })),
     _, rfl, by decide⟩,
   ⟨0, 0,
     (sN 0 [0x0] [] (fun c => { ((ab 1 2 1 1 c).setW 5 0xFFFFFFF0 0) with stns := [stn 0x20 4 false 0 0x5 0x7 5 1, ⟨0x29, 6, false, 0, ⟨0, 0, some 4⟩, ⟨3, 1, none⟩⟩], byteMode := false, suerr := 8 })),
     _, rfl, by decide⟩,
   ⟨0, 0,
     (sN 0 [0x0] [] (fun c => { ((ab 1 2 1 1 c).setW 5 0xFFFFFFF0 0) with stns := [stn 0x20 4 false 0 0x5 0x7 2 2, ⟨0x29, 6, false, 0, ⟨0, 0, some 4⟩, ⟨3, 1, none⟩⟩], byteMode := false, suerr := 8 })),
     _, rfl, by decide⟩,
   ⟨0, 0,
     (sN 0 [0x0] [] (fun c => { ((ab 1 2 1 1 c).setW 5 0xFFFFFFF0 0) with stns := [stn 0x20 4 false 0 0x5 0x7 3 3, ⟨0x29, 6, false, 0, ⟨0, 0, some 4⟩, ⟨3, 1, none⟩⟩], byteMode := false, suerr := 8 })),
     _, rfl, by decide⟩⟩

theorem meets_AnvilSideUnits_6 :
    (∃ (k : Fin 19), ∃ (n : Fin 12), ∃ (s : State), ∃ (st : Stn), (s.dev.core ↑k).stns[↑n]? = some st ∧
      s.dev.coreClock ↑k = true ∧ (s.dev.core ↑k).running = true ∧ s.dev.locked ↑k = false ∧
      sideTurn (s.dev.core ↑k).stns ↑n = true ∧ st.op = 32 ∧ (s.dev.core ↑k).byteMode = true) ∧
    (∃ (k : Fin 19), ∃ (n : Fin 12), ∃ (s : State), ∃ (st : Stn), (s.dev.core ↑k).stns[↑n]? = some st ∧
      s.dev.coreClock ↑k = true ∧ (s.dev.core ↑k).running = true ∧ s.dev.locked ↑k = false ∧
      sideTurn (s.dev.core ↑k).stns ↑n = true ∧ st.op = 33) ∧
    (∃ (k : Fin 19), ∃ (n : Fin 12), ∃ (s : State), ∃ (st : Stn), (s.dev.core ↑k).stns[↑n]? = some st ∧
      s.dev.coreClock ↑k = true ∧ (s.dev.core ↑k).running = true ∧ s.dev.locked ↑k = false ∧
      sideTurn (s.dev.core ↑k).stns ↑n = true ∧ st.op = 34) ∧
    (∃ (k : Fin 19), ∃ (n : Fin 12), ∃ (s : State), ∃ (st : Stn), (s.dev.core ↑k).stns[↑n]? = some st ∧
      s.dev.coreClock ↑k = true ∧ (s.dev.core ↑k).running = true ∧ s.dev.locked ↑k = false ∧
      sideTurn (s.dev.core ↑k).stns ↑n = true ∧ st.op = 41 ∧ st.b.val = 0 ∧ ((s.dev.core ↑k).byteMode = false ∧
      st.r = false) ∧ st.a.tag = 1 ∧ st.b.tag = 1) ∧
    (∃ (k : Fin 19), ∃ (n : Fin 12), ∃ (s : State), ∃ (st : Stn), (s.dev.core ↑k).stns[↑n]? = some st ∧
      s.dev.coreClock ↑k = true ∧ (s.dev.core ↑k).running = true ∧ s.dev.locked ↑k = false ∧
      sideTurn (s.dev.core ↑k).stns ↑n = true ∧ st.op = 41 ∧ st.b.val = 0 ∧ (s.dev.core ↑k).byteMode = false ∧
      st.r = true) ∧
    (∃ (k : Fin 19), ∃ (n : Fin 12), ∃ (s : State), ∃ (st : Stn), (s.dev.core ↑k).stns[↑n]? = some st ∧
      s.dev.coreClock ↑k = true ∧ (s.dev.core ↑k).running = true ∧ s.dev.locked ↑k = false ∧
      sideTurn (s.dev.core ↑k).stns ↑n = true ∧ st.op = 41 ∧ st.b.val ≠ 0 ∧ ((s.dev.core ↑k).byteMode = false ∧
      st.r = false) ∧ st.a.tag = 1 ∧ st.b.tag = 1) :=
  ⟨⟨0, 0,
     (sN 0 [0x0] [] (fun c => { ((ab 1 2 1 1 c).setW 5 0xFFFFFFF0 0) with stns := [stn 0x20 4 false 0 0x5 0x7 0 0, ⟨0x29, 6, false, 0, ⟨0, 0, some 4⟩, ⟨3, 1, none⟩⟩], byteMode := true, suerr := 8 })),
     _, rfl, by decide⟩,
   ⟨0, 0,
     (sN 0 [0x0] [] (fun c => { ((ab 1 2 1 1 c).setW 5 0xFFFFFFF0 0) with stns := [stn 0x21 4 true 0 0x5 0x7 1 1, ⟨0x29, 6, false, 0, ⟨0, 0, some 4⟩, ⟨3, 1, none⟩⟩], byteMode := false, suerr := 8 })),
     _, rfl, by decide⟩,
   ⟨0, 0,
     (sN 0 [0x0] [] (fun c => { ((ab 1 2 1 1 c).setW 5 0xFFFFFFF0 0) with stns := [stn 0x22 4 true 0 0x5 0x7 1 1, ⟨0x29, 6, false, 0, ⟨0, 0, some 4⟩, ⟨3, 1, none⟩⟩], byteMode := false, suerr := 8 })),
     _, rfl, by decide⟩,
   ⟨0, 0,
     (sN 0 [0x0] [] (fun c => { ((ab 1 2 1 1 c).setW 5 0xFFFFFFF0 0) with stns := [stn 0x29 4 false 0 0x5 0x0 1 1, ⟨0x29, 6, false, 0, ⟨0, 0, some 4⟩, ⟨3, 1, none⟩⟩], byteMode := false, suerr := 8 })),
     _, rfl, by decide⟩,
   ⟨0, 0,
     (sN 0 [0x0] [] (fun c => { ((ab 1 2 1 1 c).setW 5 0xFFFFFFF0 0) with stns := [stn 0x29 4 true 0 0x5 0x0 0 0, ⟨0x29, 6, false, 0, ⟨0, 0, some 4⟩, ⟨3, 1, none⟩⟩], byteMode := false, suerr := 8 })),
     _, rfl, by decide⟩,
   ⟨0, 0,
     (sN 0 [0x0] [] (fun c => { ((ab 1 2 1 1 c).setW 5 0xFFFFFFF0 0) with stns := [stn 0x29 4 false 0 0x5 0x7 1 1, ⟨0x29, 6, false, 0, ⟨0, 0, some 4⟩, ⟨3, 1, none⟩⟩], byteMode := false, suerr := 8 })),
     _, rfl, by decide⟩⟩

theorem meets_AnvilSideUnits_7 :
    (∃ (k : Fin 19), ∃ (n : Fin 12), ∃ (s : State), ∃ (st : Stn), (s.dev.core ↑k).stns[↑n]? = some st ∧
      s.dev.coreClock ↑k = true ∧ (s.dev.core ↑k).running = true ∧ s.dev.locked ↑k = false ∧
      sideTurn (s.dev.core ↑k).stns ↑n = true ∧ st.op = 41 ∧ st.b.val ≠ 0 ∧ ((s.dev.core ↑k).byteMode = false ∧
      st.r = false) ∧ st.a.tag = 2 ∧ st.b.tag = 2) ∧
    (∃ (k : Fin 19), ∃ (n : Fin 12), ∃ (s : State), ∃ (st : Stn), (s.dev.core ↑k).stns[↑n]? = some st ∧
      s.dev.coreClock ↑k = true ∧ (s.dev.core ↑k).running = true ∧ s.dev.locked ↑k = false ∧
      sideTurn (s.dev.core ↑k).stns ↑n = true ∧ st.op = 42 ∧ st.b.val = 0 ∧ (s.dev.core ↑k).byteMode = false ∧
      st.r = false) ∧
    (∃ (k : Fin 19), ∃ (n : Fin 12), ∃ (s : State), ∃ (st : Stn), (s.dev.core ↑k).stns[↑n]? = some st ∧
      s.dev.coreClock ↑k = true ∧ (s.dev.core ↑k).running = true ∧ s.dev.locked ↑k = false ∧
      sideTurn (s.dev.core ↑k).stns ↑n = true ∧ st.op = 42 ∧ st.b.val = 0 ∧ (s.dev.core ↑k).byteMode = false ∧
      st.r = true) ∧
    (∃ (k : Fin 19), ∃ (n : Fin 12), ∃ (s : State), ∃ (st : Stn), (s.dev.core ↑k).stns[↑n]? = some st ∧
      s.dev.coreClock ↑k = true ∧ (s.dev.core ↑k).running = true ∧ s.dev.locked ↑k = false ∧
      sideTurn (s.dev.core ↑k).stns ↑n = true ∧ st.op = 42 ∧ st.b.val ≠ 0 ∧ (s.dev.core ↑k).byteMode = false ∧
      st.r = false) ∧
    (∃ (k : Fin 19), ∃ (n : Fin 12), ∃ (s : State), ∃ (st : Stn), (s.dev.core ↑k).stns[↑n]? = some st ∧
      s.dev.coreClock ↑k = true ∧ (s.dev.core ↑k).running = true ∧ s.dev.locked ↑k = false ∧
      sideTurn (s.dev.core ↑k).stns ↑n = true ∧ st.op = 40 ∧ ((s.dev.core ↑k).byteMode = false ∧ st.r = false) ∧
      st.a.tag = 1) ∧
    (∃ (k : Fin 19), ∃ (n : Fin 12), ∃ (s : State), ∃ (st : Stn), (s.dev.core ↑k).stns[↑n]? = some st ∧
      s.dev.coreClock ↑k = true ∧ (s.dev.core ↑k).running = true ∧ s.dev.locked ↑k = false ∧
      sideTurn (s.dev.core ↑k).stns ↑n = true ∧ st.op = 40 ∧ ((s.dev.core ↑k).byteMode = false ∧ st.r = false) ∧
      st.a.tag = 2 ∧ BitVec.toInt st.a.val < 0) :=
  ⟨⟨0, 0,
     (sN 0 [0x0] [] (fun c => { ((ab 1 2 1 1 c).setW 5 0xFFFFFFF0 0) with stns := [stn 0x29 4 false 0 0x5 0x7 2 2, ⟨0x29, 6, false, 0, ⟨0, 0, some 4⟩, ⟨3, 1, none⟩⟩], byteMode := false, suerr := 8 })),
     _, rfl, by decide⟩,
   ⟨0, 0,
     (sN 0 [0x0] [] (fun c => { ((ab 1 2 1 1 c).setW 5 0xFFFFFFF0 0) with stns := [stn 0x2A 4 false 0 0x5 0x0 1 1, ⟨0x29, 6, false, 0, ⟨0, 0, some 4⟩, ⟨3, 1, none⟩⟩], byteMode := false, suerr := 8 })),
     _, rfl, by decide⟩,
   ⟨0, 0,
     (sN 0 [0x0] [] (fun c => { ((ab 1 2 1 1 c).setW 5 0xFFFFFFF0 0) with stns := [stn 0x2A 4 true 0 0x5 0x0 0 0, ⟨0x29, 6, false, 0, ⟨0, 0, some 4⟩, ⟨3, 1, none⟩⟩], byteMode := false, suerr := 8 })),
     _, rfl, by decide⟩,
   ⟨0, 0,
     (sN 0 [0x0] [] (fun c => { ((ab 1 2 1 1 c).setW 5 0xFFFFFFF0 0) with stns := [stn 0x2A 4 false 0 0x5 0x7 1 1, ⟨0x29, 6, false, 0, ⟨0, 0, some 4⟩, ⟨3, 1, none⟩⟩], byteMode := false, suerr := 8 })),
     _, rfl, by decide⟩,
   ⟨0, 0,
     (sN 0 [0x0] [] (fun c => { ((ab 1 2 1 1 c).setW 5 0xFFFFFFF0 0) with stns := [stn 0x28 4 false 0 0x0 0x0 1 0, ⟨0x29, 6, false, 0, ⟨0, 0, some 4⟩, ⟨3, 1, none⟩⟩], byteMode := false, suerr := 8 })),
     _, rfl, by decide⟩,
   ⟨0, 0,
     (sN 0 [0x0] [] (fun c => { ((ab 1 2 1 1 c).setW 5 0xFFFFFFF0 0) with stns := [stn 0x28 4 false 0 0xFFFFFFFF 0x0 2 0, ⟨0x29, 6, false, 0, ⟨0, 0, some 4⟩, ⟨3, 1, none⟩⟩], byteMode := false, suerr := 8 })),
     _, rfl, by decide⟩⟩

theorem meets_AnvilSideUnits_8 :
    (∃ (k : Fin 19), ∃ (n : Fin 12), ∃ (s : State), ∃ (st : Stn), (s.dev.core ↑k).stns[↑n]? = some st ∧
      s.dev.coreClock ↑k = true ∧ (s.dev.core ↑k).running = true ∧ s.dev.locked ↑k = false ∧
      sideTurn (s.dev.core ↑k).stns ↑n = true ∧ ∃ (v : Word), ∃ (tg : Nat), ∃ (e : Nat), (35,
      fpAdd false).snd st.a.val st.b.val 4 = { vals := [(v, tg)], err := e, pred := none } ∧ st.op = 35 ∧
      (s.dev.core ↑k).byteMode = false ∧ st.r = false) ∧
    (∃ (k : Fin 19), ∃ (n : Fin 12), ∃ (s : State), ∃ (st : Stn), (s.dev.core ↑k).stns[↑n]? = some st ∧
      s.dev.coreClock ↑k = true ∧ (s.dev.core ↑k).running = true ∧ s.dev.locked ↑k = false ∧
      sideTurn (s.dev.core ↑k).stns ↑n = true ∧ ∃ (v : Word), ∃ (tg : Nat), ∃ (e : Nat), (36,
      fpAdd true).snd st.a.val st.b.val 4 = { vals := [(v, tg)], err := e, pred := none } ∧ st.op = 36 ∧
      (s.dev.core ↑k).byteMode = false ∧ st.r = false) ∧
    (∃ (k : Fin 19), ∃ (n : Fin 12), ∃ (s : State), ∃ (st : Stn), (s.dev.core ↑k).stns[↑n]? = some st ∧
      s.dev.coreClock ↑k = true ∧ (s.dev.core ↑k).running = true ∧ s.dev.locked ↑k = false ∧
      sideTurn (s.dev.core ↑k).stns ↑n = true ∧ ∃ (v : Word), ∃ (tg : Nat), ∃ (e : Nat), (37,
      fpMul).snd st.a.val st.b.val 4 = { vals := [(v, tg)], err := e, pred := none } ∧ st.op = 37 ∧
      (s.dev.core ↑k).byteMode = false ∧ st.r = false) ∧
    (∃ (k : Fin 19), ∃ (n : Fin 12), ∃ (s : State), ∃ (st : Stn), (s.dev.core ↑k).stns[↑n]? = some st ∧
      s.dev.coreClock ↑k = true ∧ (s.dev.core ↑k).running = true ∧ s.dev.locked ↑k = false ∧
      sideTurn (s.dev.core ↑k).stns ↑n = true ∧ st.op ∈ [35, 36, 37] ∧ ((s.dev.core ↑k).byteMode = false ∧
      st.r = false) ∧ (bits (BitVec.toNat st.a.val) 30 23 = 255 ∧ bits (BitVec.toNat st.a.val) 22 0 ≠ 0 ∨
      bits (BitVec.toNat st.b.val) 30 23 = 255 ∧ bits (BitVec.toNat st.b.val) 22 0 ≠ 0)) ∧
    (∃ (k : Fin 19), ∃ (n : Fin 12), ∃ (s : State), ∃ (st : Stn), (s.dev.core ↑k).stns[↑n]? = some st ∧
      s.dev.coreClock ↑k = true ∧ (s.dev.core ↑k).running = true ∧ s.dev.locked ↑k = false ∧
      sideTurn (s.dev.core ↑k).stns ↑n = true ∧ st.op = 39 ∧ st.sub = 0 ∧ (BitVec.toInt st.a.val).natAbs < 2 ^ 24) ∧
    (∃ (k : Fin 19), ∃ (n : Fin 12), ∃ (s : State), ∃ (st : Stn), (s.dev.core ↑k).stns[↑n]? = some st ∧
      s.dev.coreClock ↑k = true ∧ (s.dev.core ↑k).running = true ∧ s.dev.locked ↑k = false ∧
      sideTurn (s.dev.core ↑k).stns ↑n = true ∧ st.op = 38 ∧ (s.dev.core ↑k).byteMode = false ∧ st.r = false) :=
  ⟨⟨0, 0,
     (sN 0 [0x0] [] (fun c => { ((ab 1 2 1 1 c).setW 5 0xFFFFFFF0 0) with stns := [stn 0x23 4 false 0 0x3F800000 0x40000000 4 4, ⟨0x29, 6, false, 0, ⟨0, 0, some 4⟩, ⟨3, 1, none⟩⟩], byteMode := false, suerr := 8 })),
     _, rfl, by decide, by decide, by decide, by decide, 0x40400000, 4, 0, by decide⟩,
   ⟨0, 0,
     (sN 0 [0x0] [] (fun c => { ((ab 1 2 1 1 c).setW 5 0xFFFFFFF0 0) with stns := [stn 0x24 4 false 0 0x3F800000 0x40000000 4 4, ⟨0x29, 6, false, 0, ⟨0, 0, some 4⟩, ⟨3, 1, none⟩⟩], byteMode := false, suerr := 8 })),
     _, rfl, by decide, by decide, by decide, by decide, 0xbf800000, 4, 0, by decide⟩,
   ⟨0, 0,
     (sN 0 [0x0] [] (fun c => { ((ab 1 2 1 1 c).setW 5 0xFFFFFFF0 0) with stns := [stn 0x25 4 false 0 0x3F800000 0x40000000 4 4, ⟨0x29, 6, false, 0, ⟨0, 0, some 4⟩, ⟨3, 1, none⟩⟩], byteMode := false, suerr := 8 })),
     _, rfl, by decide, by decide, by decide, by decide, 0x40000000, 4, 0, by decide⟩,
   ⟨0, 0,
     (sN 0 [0x0] [] (fun c => { ((ab 1 2 1 1 c).setW 5 0xFFFFFFF0 0) with stns := [stn 0x23 4 false 0 0x7FC00001 0x3F800000 4 4, ⟨0x29, 6, false, 0, ⟨0, 0, some 4⟩, ⟨3, 1, none⟩⟩], byteMode := false, suerr := 8 })),
     _, rfl, by decide⟩,
   ⟨0, 0,
     (sN 0 [0x0] [] (fun c => { ((ab 1 2 1 1 c).setW 5 0xFFFFFFF0 0) with stns := [stn 0x27 4 false 0 0x0 0x0 1 0, ⟨0x29, 6, false, 0, ⟨0, 0, some 4⟩, ⟨3, 1, none⟩⟩], byteMode := false, suerr := 8 })),
     _, rfl, by decide⟩,
   ⟨0, 0,
     (sN 0 [0x0] [] (fun c => { ((ab 1 2 1 1 c).setW 5 0xFFFFFFF0 0) with stns := [stn 0x26 4 false 0 0x3F800000 0x40000000 4 4, ⟨0x29, 6, false, 0, ⟨0, 0, some 4⟩, ⟨3, 1, none⟩⟩], byteMode := false, suerr := 8 })),
     _, rfl, by decide⟩⟩

theorem meets_AnvilSideUnits_9 :
    (∃ (k : Fin 19), ∃ (n : Fin 12), ∃ (s : State), ∃ (st : Stn), (s.dev.core ↑k).stns[↑n]? = some st ∧
      s.dev.coreClock ↑k = true ∧ (s.dev.core ↑k).running = true ∧ s.dev.locked ↑k = false ∧
      sideTurn (s.dev.core ↑k).stns ↑n = true ∧ st.op = 43 ∧ (s.dev.core ↑k).byteMode = false ∧ st.r = false) ∧
    (∃ (k : Fin 19), ∃ (n : Fin 12), ∃ (s : State), ∃ (st : Stn), (s.dev.core ↑k).stns[↑n]? = some st ∧
      s.dev.coreClock ↑k = true ∧ (s.dev.core ↑k).running = true ∧ s.dev.locked ↑k = false ∧
      sideTurn (s.dev.core ↑k).stns ↑n = true ∧ st.op = 44 ∧ ((s.dev.core ↑k).byteMode = false ∧ st.r = false) ∧
      (st.a.val ≠ 0 ∨ st.b.val ≠ 0)) :=
  ⟨⟨0, 0,
     (sN 0 [0x0] [] (fun c => { ((ab 1 2 1 1 c).setW 5 0xFFFFFFF0 0) with stns := [stn 0x2B 4 false 0 0x0 0x0 5 0, ⟨0x29, 6, false, 0, ⟨0, 0, some 4⟩, ⟨3, 1, none⟩⟩], byteMode := false, suerr := 8 })),
     _, rfl, by decide⟩,
   ⟨0, 0,
     (sN 0 [0x0] [] (fun c => { ((ab 1 2 1 1 c).setW 5 0xFFFFFFF0 0) with stns := [stn 0x2C 4 false 0 0x5 0x0 1 1, ⟨0x29, 6, false, 0, ⟨0, 0, some 4⟩, ⟨3, 1, none⟩⟩], byteMode := false, suerr := 8 })),
     _, rfl, by decide⟩⟩

theorem meets_AnvilEntries_1 :
    (∃ (k : Fin 19), ∃ (s : State), ∃ (i : Nat), ∃ (l : Nat), s.dev.intBest ↑k = some (i, l)) ∧
    (∃ (k : Fin 19), ∃ (s : State), ∃ (i : Nat), ∃ (l : Nat), s.dev.intBest ↑k = some (i, l) ∧ ∃ (j : Nat), j < 64 ∧
      s.dev.inputPend (↑k) j = true) ∧
    (∃ (k : Fin 19), ∃ (s : State), ∃ (i : Nat), ∃ (l : Nat), s.dev.intBest ↑k = some (i, l) ∧ ∃ (j : Nat), j < 64 ∧
      s.dev.inputPend (↑k) j = true ∧ s.dev.fld (ANV_INT_CFG (↑k) j) ANV_INT_CFG_level = l) ∧
    (∃ (k : Fin 19), ∃ (s : State), ∃ (i : Nat), ∃ (l : Nat), s.dev.intBest ↑k = some (i, l) ∧
      s.dev.coreLive ↑k = true ∧ (s.dev.core ↑k).late = none ∧ s.dev.intReady ↑k = true) ∧
    (∃ (k : Fin 19), ∃ (s : State), ∃ (i : Nat), ∃ (l : Nat), s.dev.intBest ↑k = some (i, l) ∧
      s.dev.coreLive ↑k = true ∧ (s.dev.core ↑k).late = none ∧ (s.dev.core ↑k).waiting = true ∧
      (s.dev.core ↑k).ie = false) ∧
    (∃ (k : Fin 19), ∃ (s : State), ∃ (i : Nat), ∃ (l : Nat), s.dev.intBest ↑k = some (i, l) ∧
      s.dev.coreLive ↑k = true ∧ (s.dev.core ↑k).late = none ∧ (s.dev.core ↑k).waiting = true ∧
      s.dev.intReady ↑k = true) :=
  ⟨⟨0, (warnS (vecs [(0, 0), (1, 0), (2, 1), (3, 0), (5, 2), (33, 0), (34, 0), (35, 1)] (sN 0 [0x0] (vb ++ intr [(1,
     3), (2, 5), (3, 5)]) (fun c => { blk c with ie := true })))), _, _, rfl⟩,
   ⟨0, (warnS (vecs [(0, 0), (1, 0), (2, 1), (3, 0), (5, 2), (33, 0), (34, 0), (35, 1)] (sN 0 [0x0] (vb ++ intr [(5,
     15)]) (fun c => { blk c with ie := true, waiting := true })))), _, _, rfl, 5, by decide⟩,
   ⟨0, (warnS (vecs [(0, 0), (1, 0), (2, 1), (3, 0), (5, 2), (33, 0), (34, 0), (35, 1)] (sN 0 [0x0] (vb ++ intr [(5,
     15)]) (fun c => { blk c with ie := true, waiting := true })))), _, _, rfl, 5, by decide⟩,
   ⟨0, (warnS (vecs [(0, 0), (1, 0), (2, 1), (3, 0), (5, 2), (33, 0), (34, 0), (35, 1)] (sN 0 [0x0] (vb ++ intr [(1,
     3), (2, 5), (3, 5)]) (fun c => { blk c with ie := true })))), _, _, rfl, by decide⟩,
   ⟨0, (warnS (vecs [(0, 0), (1, 0), (2, 1), (3, 0), (5, 2), (33, 0), (34, 0), (35, 1)] (sN 0 [0x0] (vb ++ intr [(1,
     3), (2, 5), (3, 5)]) (fun c => { blk c with ie := false, waiting := true })))), _, _, rfl, by decide⟩,
   ⟨0, (warnS (vecs [(0, 0), (1, 0), (2, 1), (3, 0), (5, 2), (33, 0), (34, 0), (35, 1)] (sN 0 [0x0] (vb ++ intr [(1,
     3), (2, 5), (3, 5)]) (fun c => { blk c with ie := true, waiting := true })))), _, _, rfl, by decide⟩⟩

theorem meets_AnvilEntries_2 :
    (∃ (k : Fin 19), ∃ (s : State), s.dev.intReady ↑k = false) ∧
    (∃ (k : Fin 19), ∃ (s : State), s.dev.intBest ↑k = none) ∧
    (∃ (k : Fin 19), ∃ (s : State), ∃ (b : Nat), ∃ (o : Nat), kindOf (s.dev.core ↑k).tsr = Kind.ingot b o 0 ∧
      (s.dev.core ↑k).df = false ∧ ∃ (v : Nat), ∃ (h : Nat), ∃ (vr : Nat),
      Dev.vector s.mem s.dev (↑k) v = some (h, vr) ∧ ∃ (b2 : Nat), ∃ (o2 : Nat),
      kindOf (mget 0 (s.dev.core ↑k).tsbp (min vr (s.dev.core ↑k).ring)) = Kind.ingot b2 o2 0 ∧
      (vectorTouch (↑k) v (s.mem,
      s.dev)).snd.blockOk (↑k) (s.dev.core ↑k).tsr (min vr (s.dev.core ↑k).ring) = true ∧
      (vectorTouch (↑k) v (s.mem,
      s.dev)).snd.blockOk (↑k) (mget 0 (s.dev.core ↑k).tsbp (min vr (s.dev.core ↑k).ring)) (min vr (s.dev.core ↑k).ring) = true ∧
      (s.dev.core ↑k).tsr ≠ mget 0 (s.dev.core ↑k).tsbp (min vr (s.dev.core ↑k).ring) ∧ (∀ (e : Nat),
      e ∈ [(vectorTouch (↑k) v (s.mem, s.dev)).snd.mirror (↑k) b, (vectorTouch (↑k) v (s.mem,
      s.dev)).snd.mirror (↑k) b2] → isBank15 e = false ∧ (vectorTouch (↑k) v (s.mem,
      s.dev)).snd.flag (ING_BANK_STAT e) ING_BANK_STAT_march_busy = false) ∧ ∃ (lvl : Option Nat), ∃ (pcS : Nat),
      ∃ (cause : Nat), ∃ (fa : Nat), ∃ (fd : Word), True) ∧
    (∃ (k : Fin 19), ∃ (s : State), ∃ (b : Nat), ∃ (o : Nat), kindOf (s.dev.core ↑k).tsr = Kind.ingot b o 0 ∧
      (s.dev.core ↑k).df = false ∧ ∃ (v : Nat), ∃ (h : Nat), ∃ (vr : Nat),
      Dev.vector s.mem s.dev (↑k) v = some (h, vr) ∧ ∃ (b2 : Nat), ∃ (o2 : Nat),
      kindOf (mget 0 (s.dev.core ↑k).tsbp (min vr (s.dev.core ↑k).ring)) = Kind.ingot b2 o2 0 ∧
      (vectorTouch (↑k) v (s.mem,
      s.dev)).snd.blockOk (↑k) (s.dev.core ↑k).tsr (min vr (s.dev.core ↑k).ring) = true ∧
      (vectorTouch (↑k) v (s.mem,
      s.dev)).snd.blockOk (↑k) (mget 0 (s.dev.core ↑k).tsbp (min vr (s.dev.core ↑k).ring)) (min vr (s.dev.core ↑k).ring) = true ∧
      (s.dev.core ↑k).tsr ≠ mget 0 (s.dev.core ↑k).tsbp (min vr (s.dev.core ↑k).ring) ∧ (∀ (e : Nat),
      e ∈ [(vectorTouch (↑k) v (s.mem, s.dev)).snd.mirror (↑k) b, (vectorTouch (↑k) v (s.mem,
      s.dev)).snd.mirror (↑k) b2] → isBank15 e = false ∧ (vectorTouch (↑k) v (s.mem,
      s.dev)).snd.flag (ING_BANK_STAT e) ING_BANK_STAT_march_busy = false) ∧ ∃ (lvl : Option Nat), ∃ (pcS : Nat),
      ∃ (cause : Nat), ∃ (fa : Nat), ∃ (fd : Word), ∃ (i : Nat), i < 16) ∧
    (∃ (k : Fin 19), ∃ (s : State), ∃ (b : Nat), ∃ (o : Nat), kindOf (s.dev.core ↑k).tsr = Kind.ingot b o 0 ∧
      (s.dev.core ↑k).df = false ∧ ∃ (v : Nat), ∃ (h : Nat), ∃ (vr : Nat),
      Dev.vector s.mem s.dev (↑k) v = some (h, vr) ∧ ∃ (b2 : Nat), ∃ (o2 : Nat),
      kindOf (mget 0 (s.dev.core ↑k).tsbp (min vr (s.dev.core ↑k).ring)) = Kind.ingot b2 o2 0 ∧
      (vectorTouch (↑k) v (s.mem,
      s.dev)).snd.blockOk (↑k) (s.dev.core ↑k).tsr (min vr (s.dev.core ↑k).ring) = true ∧
      (vectorTouch (↑k) v (s.mem,
      s.dev)).snd.blockOk (↑k) (mget 0 (s.dev.core ↑k).tsbp (min vr (s.dev.core ↑k).ring)) (min vr (s.dev.core ↑k).ring) = true ∧
      (s.dev.core ↑k).tsr ≠ mget 0 (s.dev.core ↑k).tsbp (min vr (s.dev.core ↑k).ring) ∧ (∀ (e : Nat),
      e ∈ [(vectorTouch (↑k) v (s.mem, s.dev)).snd.mirror (↑k) b, (vectorTouch (↑k) v (s.mem,
      s.dev)).snd.mirror (↑k) b2] → isBank15 e = false ∧ (vectorTouch (↑k) v (s.mem,
      s.dev)).snd.flag (ING_BANK_STAT e) ING_BANK_STAT_march_busy = false) ∧ ∃ (lvl : Option Nat), ∃ (pcS : Nat),
      ∃ (cause : Nat), ∃ (fa : Nat), ∃ (fd : Word), (∀ (i : Nat), i < 16 → (s.dev.core ↑k).tag i < 16) ∧
      ∃ (i : Nat), i < 8) ∧
    (∃ (k : Fin 19), ∃ (s : State), (s.dev.core ↑k).df = false ∧ ∃ (v : Nat), ∃ (h : Nat), ∃ (vr : Nat),
      Dev.vector s.mem s.dev (↑k) v = some (h, vr) ∧ ∃ (h1 : Nat), ∃ (r1 : Nat),
      Dev.vector (vectorTouch (↑k) v (s.mem, s.dev)).fst (vectorTouch (↑k) v (s.mem,
      s.dev)).snd (↑k) 1 = some (h1, r1) ∧ ((vectorTouch (↑k) v (s.mem,
      s.dev)).snd.blockOk (↑k) (s.dev.core ↑k).tsr (min vr (s.dev.core ↑k).ring) = false ∨
      (vectorTouch (↑k) v (s.mem,
      s.dev)).snd.blockOk (↑k) (mget 0 (s.dev.core ↑k).tsbp (min vr (s.dev.core ↑k).ring)) (min vr (s.dev.core ↑k).ring) = false ∨
      (s.dev.core ↑k).tsr = mget 0 (s.dev.core ↑k).tsbp (min vr (s.dev.core ↑k).ring)) ∧ ∃ (lvl : Option Nat),
      ∃ (pcS : Nat), ∃ (cause : Nat), ∃ (fa : Nat), ∃ (fd : Word), True) :=
  ⟨⟨0, (vecs [(0, 0), (1, 0), (2, 1), (3, 0), (5, 2), (33, 0), (34, 0), (35, 1)] (sN 0 [0x0] (vb) (blk))), by decide⟩,
   ⟨0, (vecs [(0, 0), (1, 0), (2, 1), (3, 0), (5, 2), (33, 0), (34, 0), (35, 1)] (sN 0 [0x0] (vb) (blk))), by decide⟩,
   ⟨0, (vecs [(0, 0), (1, 0), (2, 1), (3, 0), (5, 2), (33, 0), (34, 0), (35, 1)] (sN 0 [0x0] (vb) (blk))), _, _, rfl,
     by decide, 0, _, _, rfl, _, _, rfl, by decide, by decide, by decide, by decide, none, 0, 0, 0, 7, by decide⟩,
   ⟨0, (vecs [(0, 0), (1, 0), (2, 1), (3, 0), (5, 2), (33, 0), (34, 0), (35, 1)] (sN 0 [0x0] (vb) (blk))), _, _, rfl,
     by decide, 0, _, _, rfl, _, _, rfl, by decide, by decide, by decide, by decide, none, 0, 0, 0, 7, 0,
     by decide⟩,
   ⟨0, (vecs [(0, 0), (1, 0), (2, 1), (3, 0), (5, 2), (33, 0), (34, 0), (35, 1)] (sN 0 [0x0] (vb) (blk))), _, _, rfl,
     by decide, 0, _, _, rfl, _, _, rfl, by decide, by decide, by decide, by decide, none, 0, 0, 0, 7, by decide,
     0, by decide⟩,
   ⟨0, (vecs [(0, 0), (1, 0), (2, 1), (3, 0), (5, 2), (33, 0), (34, 0), (35,
     1)] (sN 0 [0x0] (vb) (fun c => { blk c with ring := 2 }))), by decide, 5, _, _, rfl, _, _, rfl, by decide,
     none, 0, 0, 0, 7, by decide⟩⟩

theorem meets_AnvilEntries_3 :
    (∃ (k : Fin 19), ∃ (s : State), (s.dev.core ↑k).df = false ∧ ∃ (v : Nat), ∃ (h : Nat), ∃ (vr : Nat),
      Dev.vector s.mem s.dev (↑k) v = some (h, vr) ∧ ∃ (h1 : Nat), ∃ (r1 : Nat),
      Dev.vector (vectorTouch (↑k) v (s.mem, s.dev)).fst (vectorTouch (↑k) v (s.mem,
      s.dev)).snd (↑k) 1 = some (h1, r1) ∧ ((vectorTouch (↑k) v (s.mem,
      s.dev)).snd.blockOk (↑k) (s.dev.core ↑k).tsr (min vr (s.dev.core ↑k).ring) = false ∨
      (vectorTouch (↑k) v (s.mem,
      s.dev)).snd.blockOk (↑k) (mget 0 (s.dev.core ↑k).tsbp (min vr (s.dev.core ↑k).ring)) (min vr (s.dev.core ↑k).ring) = false ∨
      (s.dev.core ↑k).tsr = mget 0 (s.dev.core ↑k).tsbp (min vr (s.dev.core ↑k).ring)) ∧ ∃ (lvl : Option Nat),
      ∃ (pcS : Nat), ∃ (cause : Nat), ∃ (fa : Nat), ∃ (fd : Word), ∃ (i : Nat), i < 16) ∧
    (∃ (k : Fin 19), ∃ (s : State), (s.dev.core ↑k).df = true ∧ ∃ (v : Nat), ∃ (lvl : Option Nat), ∃ (pcS : Nat),
      ∃ (cause : Nat), ∃ (fa : Nat), ∃ (fd : Word), True) ∧
    (∃ (k : Fin 19), ∃ (s : State), (s.dev.core ↑k).df = true ∧ ∃ (v : Nat), ∃ (lvl : Option Nat), ∃ (pcS : Nat),
      ∃ (cause : Nat), ∃ (fa : Nat), ∃ (fd : Word), ↑k < 16 ∧ ∃ (l : Nat), l < 16 ∧
      (s.dev.fld (ANV_SUPV ↑k) ANV_SUPV_axes).testBit l = true) :=
  ⟨⟨0, (vecs [(0, 0), (1, 0), (2, 1), (3, 0), (5, 2), (33, 0), (34, 0), (35,
     1)] (sN 0 [0x0] (vb) (fun c => { blk c with ring := 2 }))), by decide, 5, _, _, rfl, _, _, rfl, by decide,
     none, 0, 0, 0, 7, 0, by decide⟩,
   ⟨0, (vecs [(0, 0), (1, 0), (2, 1), (3, 0), (5, 2), (33, 0), (34, 0), (35,
     1)] (sN 0 [0x0] (vb) (fun c => { blk c with ring := 1, df := true }))), by decide, 0, none, 0, 0, 0, 7,
     by decide⟩,
   ⟨0, (vecs [(0, 0), (1, 0), (2, 1), (3, 0), (5, 2), (33, 0), (34, 0), (35, 1)] (sN 0 [0x0] (vb ++ [(ANV_SUPV 0,
     0xFFFF0003)]) (fun c => { blk c with df := true }))), by decide, 0, none, 0, 0, 0, 7, by decide, 0,
     by decide⟩⟩

theorem meets_AnvilGatesAndReturns_1 :
    (∃ (k : Fin 19), ∃ (s : State), ∃ (w : Word), AnvReady s.mem s.dev (↑k) w ∧ iwOp w = 57 ∧
      s.dev.fldIf (anvA ANV_GATE_CNT ↑k) ANV_GATE_CNT_gate_cnt ≤ bits (BitVec.toNat w) 11 0) ∧
    (∃ (k : Fin 19), ∃ (s : State), ∃ (w : Word), AnvReady s.mem s.dev (↑k) w ∧ iwOp w = 57 ∧
      bits (BitVec.toNat w) 11 0 < s.dev.fldIf (anvA ANV_GATE_CNT ↑k) ANV_GATE_CNT_gate_cnt ∧
      (s.dev.rights (↑k) (s.dev.core ↑k).ring ((s.dev.fldIf (anvA ANV_GATE_BASE ↑k) ANV_GATE_BASE_gate_base * 8 + 8 * bits (BitVec.toNat w) 11 0) % 2 ^ 32)).testBit 0 = true ∧
      (s.dev.rights (↑k) (s.dev.core ↑k).ring ((s.dev.fldIf (anvA ANV_GATE_BASE ↑k) ANV_GATE_BASE_gate_base * 8 + 8 * bits (BitVec.toNat w) 11 0) % 2 ^ 32 + 4)).testBit 0 = true ∧
      (s.dev.core ↑k).stores = [] ∧ ∃ (w0 : Word), ∃ (w1 : Word), ∃ (t0 : Nat),
      coreRead (↑k) (s.dev.core ↑k).ring ((s.dev.fldIf (anvA ANV_GATE_BASE ↑k) ANV_GATE_BASE_gate_base * 8 + 8 * bits (BitVec.toNat w) 11 0) % 2 ^ 32) 4 (s.mem,
      s.dev) = ((s.mem, s.dev), some (w0, t0)) ∧ ∃ (t1 : Nat),
      coreRead (↑k) (s.dev.core ↑k).ring ((s.dev.fldIf (anvA ANV_GATE_BASE ↑k) ANV_GATE_BASE_gate_base * 8 + 8 * bits (BitVec.toNat w) 11 0) % 2 ^ 32 + 4) 4 (s.mem,
      s.dev) = ((s.mem, s.dev), some (w1, t1)) ∧ ¬(bits (BitVec.toNat w0) 1 0 = 0 ∧
      (BitVec.toNat w1).testBit 31 = true ∧ bits (BitVec.toNat w1) 30 8 = 0 ∧ bits (BitVec.toNat w1) 3 2 = 0 ∧
      (bits (BitVec.toNat w1) 7 4).testBit (s.dev.core ↑k).ring = true ∧
      BitVec.toNat w1 % 4 < (s.dev.core ↑k).ring)) ∧
    (∃ (k : Fin 19), ∃ (s : State), ∃ (w : Word), AnvReady s.mem s.dev (↑k) w ∧ iwOp w = 57 ∧
      bits (BitVec.toNat w) 11 0 < s.dev.fldIf (anvA ANV_GATE_CNT ↑k) ANV_GATE_CNT_gate_cnt ∧
      (s.dev.rights (↑k) (s.dev.core ↑k).ring ((s.dev.fldIf (anvA ANV_GATE_BASE ↑k) ANV_GATE_BASE_gate_base * 8 + 8 * bits (BitVec.toNat w) 11 0) % 2 ^ 32)).testBit 0 = true ∧
      (s.dev.rights (↑k) (s.dev.core ↑k).ring ((s.dev.fldIf (anvA ANV_GATE_BASE ↑k) ANV_GATE_BASE_gate_base * 8 + 8 * bits (BitVec.toNat w) 11 0) % 2 ^ 32 + 4)).testBit 0 = true ∧
      (s.dev.core ↑k).stores = [] ∧ ∃ (w0 : Word), ∃ (w1 : Word), ∃ (t0 : Nat),
      coreRead (↑k) (s.dev.core ↑k).ring ((s.dev.fldIf (anvA ANV_GATE_BASE ↑k) ANV_GATE_BASE_gate_base * 8 + 8 * bits (BitVec.toNat w) 11 0) % 2 ^ 32) 4 (s.mem,
      s.dev) = ((s.mem, s.dev), some (w0, t0)) ∧ ∃ (t1 : Nat),
      coreRead (↑k) (s.dev.core ↑k).ring ((s.dev.fldIf (anvA ANV_GATE_BASE ↑k) ANV_GATE_BASE_gate_base * 8 + 8 * bits (BitVec.toNat w) 11 0) % 2 ^ 32 + 4) 4 (s.mem,
      s.dev) = ((s.mem, s.dev), some (w1, t1)) ∧ ∃ (b : Nat), ∃ (o : Nat),
      kindOf (gateSlot (s.dev.core ↑k).tsr (BitVec.toNat w1 % 4)) = Kind.ingot b o 0 ∧
      (bits (BitVec.toNat w0) 1 0 = 0 ∧ (BitVec.toNat w1).testBit 31 = true ∧ bits (BitVec.toNat w1) 30 8 = 0 ∧
      bits (BitVec.toNat w1) 3 2 = 0 ∧ (bits (BitVec.toNat w1) 7 4).testBit (s.dev.core ↑k).ring = true ∧
      BitVec.toNat w1 % 4 < (s.dev.core ↑k).ring) ∧ slotOk (↑k) (s.dev.core ↑k).tsr = true ∧
      (isBank15 (s.dev.mirror (↑k) b) = false ∧
      s.dev.flag (ING_BANK_STAT (s.dev.mirror (↑k) b)) ING_BANK_STAT_march_busy = false) ∧
      s.mem.errAt (bankAddr (s.dev.mirror (↑k) b) o + 4) = 0 ∧
      (BitVec.toNat (s.mem.word (bankAddr (s.dev.mirror (↑k) b) o + 4))).testBit 31 = false) ∧
    (∃ (k : Fin 19), ∃ (s : State), ∃ (w : Word), AnvReady s.mem s.dev (↑k) w ∧ iwOp w = 61 ∧ BitVec.toNat w % 4 = 0 ∧
      (s.dev.core ↑k).ring = 3) ∧
    (∃ (k : Fin 19), ∃ (s : State), ∃ (w : Word), AnvReady s.mem s.dev (↑k) w ∧ iwOp w = 61 ∧ BitVec.toNat w % 4 = 0 ∧
      ∃ (b : Nat), ∃ (o : Nat), kindOf (gateSlot (s.dev.core ↑k).tsr (s.dev.core ↑k).ring) = Kind.ingot b o 0 ∧
      (s.dev.core ↑k).ring ≠ 3 ∧ slotOk (↑k) (s.dev.core ↑k).tsr = true ∧
      (isBank15 (s.dev.mirror (↑k) b) = false ∧
      s.dev.flag (ING_BANK_STAT (s.dev.mirror (↑k) b)) ING_BANK_STAT_march_busy = false) ∧
      s.mem.errAt (bankAddr (s.dev.mirror (↑k) b) o) = 0 ∧
      s.mem.errAt (bankAddr (s.dev.mirror (↑k) b) o + 4) = 0 ∧
      (BitVec.toNat (s.mem.word (bankAddr (s.dev.mirror (↑k) b) o + 4))).testBit 31 = true ∧
      (s.dev.core ↑k).ring < BitVec.toNat (s.mem.word (bankAddr (s.dev.mirror (↑k) b) o + 4)) % 4) ∧
    (∃ (k : Fin 19), ∃ (s : State), ∃ (w : Word), AnvReady s.mem s.dev (↑k) w ∧ iwOp w = 61 ∧ BitVec.toNat w % 4 = 0 ∧
      ∃ (b : Nat), ∃ (o : Nat), kindOf (gateSlot (s.dev.core ↑k).tsr (s.dev.core ↑k).ring) = Kind.ingot b o 0 ∧
      (s.dev.core ↑k).ring ≠ 3 ∧ slotOk (↑k) (s.dev.core ↑k).tsr = true ∧
      (isBank15 (s.dev.mirror (↑k) b) = false ∧
      s.dev.flag (ING_BANK_STAT (s.dev.mirror (↑k) b)) ING_BANK_STAT_march_busy = false) ∧
      s.mem.errAt (bankAddr (s.dev.mirror (↑k) b) o) = 0 ∧
      s.mem.errAt (bankAddr (s.dev.mirror (↑k) b) o + 4) = 0 ∧
      ((BitVec.toNat (s.mem.word (bankAddr (s.dev.mirror (↑k) b) o + 4))).testBit 31 = false ∨
      BitVec.toNat (s.mem.word (bankAddr (s.dev.mirror (↑k) b) o + 4)) % 4 ≤ (s.dev.core ↑k).ring)) :=
  ⟨⟨0, (gts id (vecs [(0, 0), (1, 0), (2, 1), (3, 0), (5, 2), (33, 0), (34, 0), (35,
     1)] (sN 0 [0xE400004] (vb) (fun c => { blk c with ring := 0 })))), 0x0e400004, anv_of rfl (by decide),
     by decide⟩,
   ⟨0, (gts id (vecs [(0, 0), (1, 0), (2, 1), (3, 0), (5, 2), (33, 0), (34, 0), (35,
     1)] (sN 0 [0xE400000] (vb) (fun c => { blk c with ring := 0 })))), 0x0e400000, anv_of rfl (by decide),
     by decide, by decide, by decide, by decide, by decide, 0, 0, 0, by decide, 0, by decide⟩,
   ⟨0, (gts id (vecs [(0, 0), (1, 0), (2, 1), (3, 0), (5, 2), (33, 0), (34, 0), (35,
     1)] (sN 0 [0xE400001] (vb) (fun c => { blk c with ring := 1 })))), 0x0e400001, anv_of rfl (by decide),
     by decide, by decide, by decide, by decide, by decide, 0x1003000, 0x800000F0, 0, by decide, 0, by decide, _,
     _, rfl, by decide⟩,
   ⟨0, (gts (fun m => (m.setWord 0x1001098 0x1003008).setWord 0x100109c 0x80000003) (vecs [(0, 0), (1, 0), (2, 1),
     (3, 0), (5, 2), (33, 0), (34, 0), (35,
     1)] (sN 0 [0xF400000] (vb) (fun c => { blk c with ring := 3, tsr := 0x1001000 })))), 0x0f400000,
     anv_of rfl (by decide), by decide⟩,
   ⟨0, (gts (fun m => (m.setWord 0x1001080 0x1003008).setWord 0x1001084 0x80000003) (vecs [(0, 0), (1, 0), (2, 1),
     (3, 0), (5, 2), (33, 0), (34, 0), (35,
     1)] (sN 0 [0xF400000] (vb) (fun c => { blk c with ring := 0, tsr := 0x1001000 })))), 0x0f400000,
     anv_of rfl (by decide), by decide, by decide, _, _, rfl, by decide⟩,
   ⟨0, (gts (fun m => (m.setWord 0x1001080 0x1003008).setWord 0x1001084 0x80000000) (vecs [(0, 0), (1, 0), (2, 1),
     (3, 0), (5, 2), (33, 0), (34, 0), (35,
     1)] (sN 0 [0xF400000] (vb) (fun c => { blk c with ring := 0, tsr := 0x1001000 })))), 0x0f400000,
     anv_of rfl (by decide), by decide, by decide, _, _, rfl, by decide⟩⟩

theorem meets_AnvilGatesAndReturns_2 :
    (∃ (k : Fin 19), ∃ (s : State), ∃ (w : Word), AnvReady s.mem s.dev (↑k) w ∧ iwOp w = 61 ∧ BitVec.toNat w % 4 = 1 ∧
      (s.dev.core ↑k).ring = 3) ∧
    (∃ (k : Fin 19), ∃ (s : State), ∃ (w : Word), AnvReady s.mem s.dev (↑k) w ∧ iwOp w = 61 ∧ BitVec.toNat w % 4 = 1 ∧
      ∃ (b : Nat), ∃ (o : Nat), kindOf (s.dev.core ↑k).tsr = Kind.ingot b o 0 ∧ ∃ (b2 : Nat), ∃ (o2 : Nat),
      kindOf (BitVec.toNat (s.mem.word (bankAddr (s.dev.mirror (↑k) b) o + 104))) = Kind.ingot b2 o2 0 ∧
      (s.dev.core ↑k).ring ≠ 3 ∧ (s.dev.core ↑k).df = false ∧
      s.dev.blockOk (↑k) (s.dev.core ↑k).tsr (s.dev.core ↑k).ring = true ∧
      s.dev.blockOk (↑k) (BitVec.toNat (s.mem.word (bankAddr (s.dev.mirror (↑k) b) o + 104))) (s.dev.core ↑k).ring = true ∧
      (isBank15 (s.dev.mirror (↑k) b) = false ∧
      s.dev.flag (ING_BANK_STAT (s.dev.mirror (↑k) b)) ING_BANK_STAT_march_busy = false) ∧
      (isBank15 (s.dev.mirror (↑k) b2) = false ∧
      s.dev.flag (ING_BANK_STAT (s.dev.mirror (↑k) b2)) ING_BANK_STAT_march_busy = false) ∧
      s.mem.errAt (bankAddr (s.dev.mirror (↑k) b) o + 104) = 0 ∧ (∀ (x : Nat),
      x < 512 → s.mem.errAt (bankAddr (s.dev.mirror (↑k) b2) o2 + x) = 0) ∧
      BitVec.toNat (s.mem.word (bankAddr (s.dev.mirror (↑k) b2) o2 + 100)) % 16 = 0 ∧ (s.dev.core ↑k).stns = []) ∧
    (∃ (k : Fin 19), ∃ (s : State), ∃ (w : Word), AnvReady s.mem s.dev (↑k) w ∧ iwOp w = 61 ∧ BitVec.toNat w % 4 = 1 ∧
      (s.dev.core ↑k).ring ≠ 3 ∧ (s.dev.core ↑k).df = true) ∧
    (∃ (k : Fin 19), ∃ (s : State), ∃ (w : Word), AnvReady s.mem s.dev (↑k) w ∧ iwOp w = 46 ∧
      (s.dev.core ↑k).stns = [] ∧ ↑k = 18) ∧
    (∃ (k : Fin 19), ∃ (s : State), ∃ (w : Word), AnvReady s.mem s.dev (↑k) w ∧ iwOp w = 46 ∧
      (s.dev.core ↑k).stns = [] ∧ ∃ (q : Nat), pairOf ↑k = some q ∧
      s.dev.flag (ASY_PAIR_CTL q) ASY_PAIR_CTL_req_merge = false ∧ s.dev.pairedQ q = false) ∧
    (∃ (k : Fin 19), ∃ (s : State), ∃ (w : Word), AnvReady s.mem s.dev (↑k) w ∧ iwOp w = 46 ∧
      (s.dev.core ↑k).stns = [] ∧ ∃ (q : Nat), pairOf ↑k = some q ∧
      s.dev.flag (ASY_PAIR_CTL q) ASY_PAIR_CTL_req_merge = false ∧ s.dev.pairedQ q = true ∧
      s.dev.blockedQ q = false ∧
      (if isShadowCore ↑k = true then (s.dev.pair q).chkS else (s.dev.pair q).chkP).length < 4) :=
  ⟨⟨0, (gts (fun m => (m.setWord 0x1001098 0x1003008).setWord 0x100109c 0x80000003) (vecs [(0, 0), (1, 0), (2, 1),
     (3, 0), (5, 2), (33, 0), (34, 0), (35,
     1)] (sN 0 [0xF400001] (vb) (fun c => { blk c with ring := 3, tsr := 0x1001000 })))), 0x0f400001,
     anv_of rfl (by decide), by decide⟩,
   ⟨0, (gts (retBlk 0x1001200 0 0x5537) (vecs [(0, 0), (1, 0), (2, 1), (3, 0), (5, 2), (33, 0), (34, 0), (35,
     1)] (sN 0 [0xF400001] (vb) (fun c => { blk c with ring := 0 })))), 0x0f400001, anv_of rfl (by decide),
     by decide, by decide, _, _, rfl, _, _, rfl, by decide, by decide, by decide, by decide, by decide, by decide,
     by decide, (fun _ _ => rfl), by decide⟩,
   ⟨0, (gts id (vecs [(0, 0), (1, 0), (2, 1), (3, 0), (5, 2), (33, 0), (34, 0), (35,
     1)] (sN 0 [0xF400001] (vb ++ (List.range 32).map fun i => (ANV_EMB 0 i,
     w32 (i * 0x1000200))) (fun c => { blk c with df := true })))), 0x0f400001, anv_of rfl (by decide), by decide⟩,
   ⟨18, (gts id (vecs [(0, 0), (1, 0), (2, 1), (3, 0), (5, 2), (33, 0), (34, 0), (35,
     1)] (sN 18 [0xB800055] ([]) (fun c => { c with sig := [5, 6] })))), 0x0b800055, anv_of rfl (by decide),
     by decide⟩,
   ⟨0, (gts id (vecs [(0, 0), (1, 0), (2, 1), (3, 0), (5, 2), (33, 0), (34, 0), (35,
     1)] (sN 0 [0xB800055] ([]) (fun c => { c with sig := [5, 6] })))), 0x0b800055, anv_of rfl (by decide),
     by decide, by decide, _, rfl, by decide⟩,
   ⟨0, (gts id (vecs [(0, 0), (1, 0), (2, 1), (3, 0), (5, 2), (33, 0), (34, 0), (35,
     1)] (sN 0 [0xB800055] ([(ASY_PAIR_CTL 0, 0x80000001), (ASY_PAIR_CTL 8,
     0x80000001)]) (fun c => { c with sig := [5, 6] })))), 0x0b800055, anv_of rfl (by decide), by decide,
     by decide, _, rfl, by decide⟩⟩

theorem meets_AnvilGatesAndReturns_3 :
    (∃ (k : Fin 19), ∃ (s : State), ∃ (w : Word), AnvReady s.mem s.dev (↑k) w ∧ iwOp w = 45 ∧
      s.dev.isPaired ↑k = false ∧ s.dev.inaAddr (↑k) (BitVec.toNat w % 8) = none) ∧
    (∃ (k : Fin 19), ∃ (s : State), ∃ (w : Word), AnvReady s.mem s.dev (↑k) w ∧ iwOp w = 45 ∧ ∃ (q : Nat),
      pairOf ↑k = some q ∧ isShadowCore ↑k = true ∧ s.dev.pairedQ q = true ∧ s.dev.blockedQ q = false ∧
      ∃ (v : Word), ∃ (r : List Word), (s.dev.pair q).ina = v :: r) ∧
    (∃ (k : Fin 19), ∃ (s : State), ∃ (w : Word), AnvReady s.mem s.dev (↑k) w ∧ iwOp w = 45 ∧ ∃ (q : Nat),
      pairOf ↑k = some q ∧ isShadowCore ↑k = true ∧ s.dev.pairedQ q = true ∧ s.dev.blockedQ q = false ∧
      ∃ (v : Word), ∃ (r : List Word), (s.dev.pair q).ina = []) ∧
    (∃ (k : Fin 19), ∃ (s : State), ∃ (w : Word), AnvReady s.mem s.dev (↑k) w ∧ iwOp w = 45 ∧ ∃ (q : Nat),
      pairOf ↑k = some q ∧ isShadowCore ↑k = false ∧ s.dev.pairedQ q = true ∧ s.dev.blockedQ q = false ∧
      s.dev.inaAddr (↑k) (BitVec.toNat w % 8) = none) :=
  ⟨⟨0, (gts id (vecs [(0, 0), (1, 0), (2, 1), (3, 0), (5, 2), (33, 0), (34, 0), (35,
     1)] (sN 0 [0xB4C0002] ([]) (fun c => { c with sig := [5, 6] })))), 0x0b4c0002, anv_of rfl (by decide),
     by decide⟩,
   ⟨1,
     ({ sN 1 [0xB4C0002] ([(ASY_PAIR_CTL 0, 0x80000001), (ASY_PAIR_CTL 8, 0x80000001)]) (id) with dev := (sN 1 [0xB4C0002] ([(ASY_PAIR_CTL 0, 0x80000001), (ASY_PAIR_CTL 8, 0x80000001)]) (id)).dev.modCorePair 0 fun p => { p with ina := [5, 6] } }),
     0x0b4c0002, anv_of rfl (by decide), by decide, _, rfl, by decide, by decide, by decide, 5, ([6] : List Word),
     by decide⟩,
   ⟨1, (gts id (vecs [(0, 0), (1, 0), (2, 1), (3, 0), (5, 2), (33, 0), (34, 0), (35,
     1)] (sN 1 [0xB4C0002] ([(ASY_PAIR_CTL 0, 0x80000001), (ASY_PAIR_CTL 8,
     0x80000001)]) (fun c => { c with sig := [5, 6] })))), 0x0b4c0002, anv_of rfl (by decide), by decide, _, rfl,
     by decide, by decide, by decide, 5, ([6] : List Word), by decide⟩,
   ⟨0, (gts id (vecs [(0, 0), (1, 0), (2, 1), (3, 0), (5, 2), (33, 0), (34, 0), (35,
     1)] (sN 0 [0xB4C0002] ([(ASY_PAIR_CTL 0, 0x80000001), (ASY_PAIR_CTL 8,
     0x80000001)]) (fun c => { c with sig := [5, 6] })))), 0x0b4c0002, anv_of rfl (by decide), by decide, _, rfl,
     by decide⟩⟩

theorem meets_AnvilWatchdogs_1 :
    (∃ (k : Fin 18), ∃ (s : State), ∃ (j : Fin 19), j.val = k.val ∧ ∃ (r : Fin 4), ∃ (v : Word),
      BitVec.toNat v % 65536 = 15510) ∧
    (∃ (k : Fin 18), ∃ (s : State), ∃ (j : Fin 19), j.val = k.val ∧ ∃ (r : Fin 4), ∃ (v : Word),
      BitVec.toNat v % 65536 ≠ 15510) ∧
    (∃ (k : Fin 18), ∃ (s : State), ∃ (w : Writer), (∀ (j : Fin 19) (r : Fin 4),
      w = Writer.core j r → j.val ≠ k.val) ∧ ∃ (v : Word), BitVec.toNat v % 65536 = 0) ∧
    (∃ (k : Fin 18), ∃ (s : State), ∃ (w : Writer), (∀ (j : Fin 19) (r : Fin 4),
      w = Writer.core j r → j.val ≠ k.val) ∧ ∃ (v : Word), BitVec.toNat v % 65536 ≠ 0) ∧
    (∃ (k : Fin 18), ∃ (s : State), s.dev.coreClock ↑k = true ∧ s.dev.flag (ANV_WDT_CFG ↑k) ANV_WDT_CFG_en = true ∧
      s.dev.coreHalted ↑k = false ∧ s.dev.locked ↑k = false ∧ s.dev.rd (ANV_WDT_LEFT ↑k) = 0 ∧
      (s.dev.core ↑k).wdtOnce = true) ∧
    (∃ (k : Fin 18), ∃ (s : State), s.dev.coreClock ↑k = true ∧ s.dev.flag (ANV_WDT_CFG ↑k) ANV_WDT_CFG_en = true ∧
      s.dev.coreHalted ↑k = false ∧ s.dev.locked ↑k = false ∧ s.dev.rd (ANV_WDT_LEFT ↑k) = 0 ∧
      (s.dev.core ↑k).wdtOnce = false ∧ s.dev.merging ↑k = true) :=
  ⟨⟨0, (vecs [(0, 0), (1, 0), (2, 1), (3, 0), (5, 2), (33, 0), (34, 0), (35, 1)] (sN 0 [0x0] (vb ++ [(ANV_WDT_CFG 0,
     0x80000005), (ANV_SUPV 0, 3), (ANV_CWDT_CFG 0, 0x80F00003)]) (fun c => { blk c with wdtOnce := true }))), 0,
     by decide, 0, 0x3C96, by decide⟩,
   ⟨0, (vecs [(0, 0), (1, 0), (2, 1), (3, 0), (5, 2), (33, 0), (34, 0), (35, 1)] (sN 0 [0x0] (vb ++ [(ANV_WDT_CFG 0,
     0x80000005), (ANV_SUPV 0, 3), (ANV_CWDT_CFG 0, 0x80F00003)]) (fun c => { blk c with wdtOnce := true }))), 0,
     by decide, 0, 5, by decide⟩,
   ⟨0, (sN 0 [0x0] [(ANV_WDT_CFG 0, 0x80000005)] id), .host, (fun _ _ h => nomatch h), 0, by decide⟩,
   ⟨0, (sN 0 [0x0] [(ANV_WDT_CFG 0, 0x80000005)] id), .host, (fun _ _ h => nomatch h), 5, by decide⟩,
   ⟨0, (vecs [(0, 0), (1, 0), (2, 1), (3, 0), (5, 2), (33, 0), (34, 0), (35, 1)] (sN 0 [0x0] (vb ++ [(ANV_WDT_CFG 0,
     0x80000005), (ANV_SUPV 0, 3), (ANV_CWDT_CFG 0, 0x80F00003)]) (fun c => { blk c with wdtOnce := true }))),
     by decide⟩,
   ⟨0, (run fun d => ((regsD [(ANV_WDT_CFG 0,
     0x80000005)] (evOn d)).modCore 0 fun c => { c with running := true, mergeWait := true }).modCorePair 0 fun p => { p with copying := true }),
     by decide⟩⟩

theorem meets_AnvilWatchdogs_2 :
    (∃ (k : Fin 18), ∃ (s : State), s.dev.coreClock ↑k = true ∧ s.dev.flag (ANV_WDT_CFG ↑k) ANV_WDT_CFG_en = true ∧
      s.dev.coreHalted ↑k = false ∧ s.dev.locked ↑k = false ∧ s.dev.rd (ANV_WDT_LEFT ↑k) = 0 ∧
      (s.dev.core ↑k).wdtOnce = false ∧ s.dev.merging ↑k = false) ∧
    (∃ (k : Fin 18), ∃ (s : State), s.dev.flag (ANV_WDT_CFG ↑k) ANV_WDT_CFG_en = false ∨
      s.dev.rd (ANV_WDT_LEFT ↑k) ≠ 0) ∧
    (∃ (c : Fin 4), ∃ (s : State), s.dev.clusterRuns ↑c = true ∧ s.dev.flag (ANV_CWDT_CFG ↑c) ANV_CWDT_CFG_en = true ∧
      (s.dev.cluster ↑c).cwdtLeft = 0) ∧
    (∃ (c : Fin 4), ∃ (s : State), s.dev.clusterRuns ↑c = true ∧ s.dev.flag (ANV_CWDT_CFG ↑c) ANV_CWDT_CFG_en = true ∧
      (s.dev.cluster ↑c).cwdtLeft ≠ 0) ∧
    (∃ (c : Fin 4), ∃ (s : State), s.dev.clusterRuns ↑c = true ∧ s.dev.flag (ANV_CWDT_CFG ↑c) ANV_CWDT_CFG_en = true ∧
      s.dev.fld (ANV_CWDT_CFG ↑c) ANV_CWDT_CFG_period * 512 < (s.dev.cluster ↑c).cwdtLeft) ∧
    (∃ (c : Fin 4), ∃ (s : State), s.dev.clusterRuns ↑c = true ∧ s.dev.flag (ANV_CWDT_CFG ↑c) ANV_CWDT_CFG_en = true ∧
      (s.dev.cluster ↑c).cwdtLeft ≤ s.dev.fld (ANV_CWDT_CFG ↑c) ANV_CWDT_CFG_period * 512) :=
  ⟨⟨0, (vecs [(0, 0), (1, 0), (2, 1), (3, 0), (5, 2), (33, 0), (34, 0), (35, 1)] (sN 0 [0x0] (vb ++ [(ANV_WDT_CFG 0,
     0x80000005), (ANV_SUPV 0, 3), (ANV_CWDT_CFG 0, 0x80F00003)]) (fun c => { blk c with wdtOnce := false }))),
     by decide⟩,
   ⟨0, (vecs [(0, 0), (1, 0), (2, 1), (3, 0), (5, 2), (33, 0), (34, 0), (35, 1)] (sN 0 [0x0] (vb ++ [(ANV_WDT_CFG 0,
     5), (ANV_SUPV 0, 3), (ANV_CWDT_CFG 0, 0x80F00003)]) (fun c => { blk c with wdtOnce := true }))), by decide⟩,
   ⟨0, (vecs [(0, 0), (1, 0), (2, 1), (3, 0), (5, 2), (33, 0), (34, 0), (35, 1)] (sN 0 [0x0] (vb ++ [(ANV_WDT_CFG 0,
     0x80000005), (ANV_SUPV 0, 3), (ANV_CWDT_CFG 0, 0x80F00003)]) (fun c => { blk c with wdtOnce := true }))),
     by decide⟩,
   ⟨0, ((let s := sN 0 [0x0] (vb ++ [(ANV_CWDT_CFG 0,
     0x80F00003)]) id; { s with dev := s.dev.modCluster 0 fun x => { x with cwdtLeft := 99999999999 } })),
     by decide⟩,
   ⟨0, ((let s := sN 0 [0x0] (vb ++ [(ANV_CWDT_CFG 0,
     0x80F00003)]) id; { s with dev := s.dev.modCluster 0 fun x => { x with cwdtLeft := 99999999999 } })),
     by decide⟩,
   ⟨0, (vecs [(0, 0), (1, 0), (2, 1), (3, 0), (5, 2), (33, 0), (34, 0), (35, 1)] (sN 0 [0x0] (vb ++ [(ANV_WDT_CFG 0,
     0x80000005), (ANV_SUPV 0, 3), (ANV_CWDT_CFG 0, 0x80F00003)]) (fun c => { blk c with wdtOnce := true }))),
     by decide⟩⟩

theorem meets_AnvilWatchdogs_3 :
    (∃ (c : Fin 4), ∃ (s : State), s.dev.clusterRuns ↑c = true ∧ s.dev.flag (ANV_CWDT_CFG ↑c) ANV_CWDT_CFG_en = true ∧
      ∃ (j : Fin 19), j.val / 4 = c.val ∧
      (s.dev.fld (ANV_CWDT_CFG ↑c) ANV_CWDT_CFG_kick_mask).testBit (↑j % 4) = true ∧ ∃ (r : Fin 4), ∃ (v : Word),
      BitVec.toNat v % 65536 = 15510) ∧
    (∃ (c : Fin 4), ∃ (s : State), s.dev.clusterRuns ↑c = true ∧ s.dev.flag (ANV_CWDT_CFG ↑c) ANV_CWDT_CFG_en = true ∧
      ∃ (w : Writer), ∃ (v : Word), (∀ (j : Fin 19) (r : Fin 4), w = Writer.core j r → j.val / 4 ≠ c.val ∨
      (s.dev.fld (ANV_CWDT_CFG ↑c) ANV_CWDT_CFG_kick_mask).testBit (↑j % 4) = false) ∨
      BitVec.toNat v % 65536 ≠ 15510) :=
  ⟨⟨0, (vecs [(0, 0), (1, 0), (2, 1), (3, 0), (5, 2), (33, 0), (34, 0), (35, 1)] (sN 0 [0x0] ([(ANV_CWDT_CFG 0,
     0xFFFFFFFF), (ANV_CWDT_STAT 0, 0)]) (id))), by decide, by decide, 0, by decide, by decide, 0, 0x3C96,
     by decide⟩,
   ⟨0, (sN 0 [0x0] [(ANV_CWDT_CFG 0, 0x80F00003)] id), by decide, by decide, .host, 0x3C96,
     Or.inl (fun _ _ h => nomatch h)⟩⟩

theorem meets_MemoriesAndTheirMasters_1 :
    (∃ (w : Writer), ∃ (b : Fin 72), ∃ (v : Word), ∃ (s : State), s.dev.bankUp ↑b = true) ∧
    (∃ (b : Fin 72), ∃ (s : State), ∃ (n : Nat), mget 0 s.dev.ownNext ↑b = n + 1 ∧ n < 16 ∧ s.dev.bankUp ↑b = true ∧
      s.dev.drained ↑b = true) ∧
    (∃ (b : Fin 72), ∃ (s : State), ∃ (n : Nat), mget 0 s.dev.ownNext ↑b = n + 1 ∧ n < 16 ∧ s.dev.drained ↑b = false) ∧
    (∃ (b : Fin 72), ∃ (first : Option (Fin 16384)), ∃ (s : State), s.dev.bankUp ↑b = true ∧
      s.dev.flag (ING_BANK_STAT ↑b) ING_BANK_STAT_march_busy = true) ∧
    (∃ (s : State), s.dev.now < s.dev.scrubCcyc + s.dev.fld MEM_SCRUB MEM_SCRUB_scrub_iv * 800) ∧
    (∃ (s : State), s.dev.ddrUp = true ∧ s.dev.fld MEM_SCRUB MEM_SCRUB_scrub_iv ≠ 0 ∧
      s.dev.scrubCcyc + s.dev.fld MEM_SCRUB MEM_SCRUB_scrub_iv * 800 ≤ s.dev.now) ∧
    (∃ (x : Fin 268435456), ∃ (s : State), s.dev.linkUp = true ∧ s.dev.memOff = true ∧ ∃ (wr : Bool),
      ∃ (poisoned : Bool), ∃ (ps : List (Option Word)), True) ∧
    (∃ (x : Fin 268435456), ∃ (s : State), s.dev.linkUp = true ∧ s.dev.memOff = false ∧ ∃ (ps : List (Option Word)),
      True) ∧
    (∃ (x : Fin 268435456), ∃ (s : State), s.dev.linkUp = true ∧ s.dev.memOff = false ∧ s.dev.ddrUp = true ∧
      s.mem.errAt (s.dev.bar2 (↑x / 4 * 4) / 8 * 8) = 0 ∧ s.dev.hostWin false (s.dev.bar2 (↑x / 4 * 4)) = true ∧
      ∃ (p : Bool), ∃ (v : Word), True) ∧
    (∃ (x : Fin 268435456), ∃ (s : State), s.dev.linkUp = true ∧ s.dev.memOff = false ∧ s.dev.ddrUp = true ∧
      s.mem.errAt (s.dev.bar2 (↑x / 4 * 4) / 8 * 8) = 0 ∧ s.dev.hostWin true (s.dev.bar2 (↑x / 4 * 4)) = true ∧
      ∃ (v : Word), True) :=
  ⟨⟨(.core 0 0 : Writer), 0, 0, (run id), by decide⟩,
   ⟨0, (run fun d => { d with ownNext := ⟨[(0, 3), (3, 1), (71, 16)]⟩ }), 2, by decide⟩,
   ⟨0,
     ({ sN 0 [0] [] (fun c => { c with stores := [⟨0x1001000, 4, 5, 0, 0⟩] }) with dev := { (sN 0 [0] [] (fun c => { c with stores := [⟨0x1001000, 4, 5, 0, 0⟩] })).dev with ownNext := ⟨[(0, 3)]⟩ } }),
     2, by decide⟩,
   ⟨0, none,
     (memS (run fun d => { regsD [(ING_BANK_STAT 0, 0xFFFFFFFF), (ING_BANK_STAT 3, 0xFFFFFFFF)] d with waits := [⟨3, 7, 0x0902, bankNo 0, [], 0, 0, 0⟩, ⟨5, 7, 0x0902, bankNo 1, [], 0, 0, 0⟩, ⟨3, 7, 0x0903, bankNo 0, [], 0, 0, 0⟩] })),
     by decide⟩,
   ⟨(run id), by decide⟩,
   ⟨(withMem (fun m => m) (run fun d => { regsD [(MEM_STAT, 0xFFFFFFFF), (MEM_SCRUB, 0xFFFF)] (evOn d) with scrubAt := 0, now := 1000000000 })),
     by decide⟩,
   ⟨0,
     (memS (sH fun d => { regsD [(MEM_STAT, 0), (MEM_HWIN_LO 0, 0xC0000000 / 0x40000000), (MEM_HWIN_HI 0, 0xFFFFF), (MEM_BAR2_BASE, 8)] d with pcie := { d.pcie with memSpace := false } })),
     by decide, by decide, false, false, ([] : List (Option Word)), by decide⟩,
   ⟨0,
     (memS (sH fun d => { regsD [(MEM_STAT, 0), (MEM_HWIN_LO 0, 0xC0000000 / 0x40000000), (MEM_HWIN_HI 0, 0xFFFFF), (MEM_BAR2_BASE, 8)] d with pcie := { d.pcie with memSpace := true } })),
     by decide, by decide, ([] : List (Option Word)), by decide⟩,
   ⟨0,
     (memS (sH fun d => { regsD [(MEM_STAT, 0xFFFFFFFF), (MEM_HWIN_LO 0, 0xC0000000 / 0x40000000), (MEM_HWIN_HI 0, 0xFFFFF), (MEM_BAR2_BASE, 8)] d with pcie := { d.pcie with memSpace := true } })),
     by decide, by decide, by decide, by decide, by decide, false, 0, by decide⟩,
   ⟨0,
     (memS (sH fun d => { regsD [(MEM_STAT, 0xFFFFFFFF), (MEM_HWIN_LO 0, 0xC0000000 / 0x40000000), (MEM_HWIN_HI 0, 0xFFFFF), (MEM_BAR2_BASE, 8)] d with pcie := { d.pcie with memSpace := true } })),
     by decide, by decide, by decide, by decide, by decide, 0, by decide⟩⟩

theorem meets_MemoriesAndTheirMasters_2 :
    (∃ (x : Fin 268435456), ∃ (s : State), s.dev.linkUp = true ∧ s.dev.memOff = false ∧
      s.dev.hostWin false (s.dev.bar2 (↑x / 4 * 4)) = false ∧ ∃ (p : Bool), ∃ (v : Word), True) ∧
    (∃ (x : Fin 268435456), ∃ (s : State), s.dev.linkUp = true ∧ s.dev.memOff = false ∧ ∃ (v : Option Word),
      s.dev.hostWin true (s.dev.bar2 (↑x / 4 * 4)) = false ∨ v = none) :=
  ⟨⟨0,
     (memS (sH fun d => { regsD [(MEM_STAT, 0), (MEM_HWIN_LO 0, 0x80000000 / 0x40000000), (MEM_HWIN_HI 0, 0xFFFFF), (MEM_BAR2_BASE, 8)] d with pcie := { d.pcie with memSpace := true } })),
     by decide, by decide, by decide, false, 0, by decide⟩,
   ⟨0,
     (memS (sH fun d => { regsD [(MEM_STAT, 0), (MEM_HWIN_LO 0, 0xC0000000 / 0x40000000), (MEM_HWIN_HI 0, 0xFFFFF), (MEM_BAR2_BASE, 8)] d with pcie := { d.pcie with memSpace := true } })),
     by decide, by decide, none, by decide⟩⟩

theorem meets_CorePairsAndAgreedInputs_1 :
    (∃ (q : Fin 9), ∃ (s : State), s.dev.pairRuns ↑q = true ∧ ∃ (a : OutEnt), ∃ (ra : List OutEnt),
      (s.dev.pair ↑q).outP = a :: ra ∧ ∃ (b : OutEnt), ∃ (rb : List OutEnt), (s.dev.pair ↑q).outS = b :: rb ∧
      (s.dev.pairedQ ↑q = true ∧ s.dev.blockedQ ↑q = false) ∧ (a.addr ≠ b.addr ∨ a.size ≠ b.size)) ∧
    (∃ (q : Fin 9), ∃ (s : State), s.dev.pairRuns ↑q = true ∧ ∃ (a : OutEnt), ∃ (ra : List OutEnt),
      (s.dev.pair ↑q).outP = a :: ra ∧ ∃ (b : OutEnt), ∃ (rb : List OutEnt), (s.dev.pair ↑q).outS = b :: rb ∧
      (s.dev.pairedQ ↑q = true ∧ s.dev.blockedQ ↑q = false) ∧ a.addr = b.addr ∧ a.size = b.size ∧ a.data ≠ b.data) ∧
    (∃ (q : Fin 9), ∃ (s : State), s.dev.pairRuns ↑q = true ∧ ∃ (a : OutEnt), ∃ (ra : List OutEnt),
      (s.dev.pair ↑q).outP = a :: ra ∧ ∃ (b : OutEnt), ∃ (rb : List OutEnt), (s.dev.pair ↑q).outS = b :: rb ∧
      (s.dev.pairedQ ↑q = true ∧ s.dev.blockedQ ↑q = false) ∧ ∃ (bk : Nat), ∃ (o : Nat),
      kindOf a.addr = Kind.ingot bk o 0 ∧ a.addr = b.addr ∧ a.size = b.size ∧ a.data = b.data ∧ a.size = 4 ∧
      a.addr % 4 = 0 ∧ s.dev.bankUp bk = true ∧ isBank15 bk = false ∧ bk ≠ 71 ∧
      s.dev.ingotOk (Mst.core (2 * ↑q)) bk true = true) ∧
    (∃ (q : Fin 9), ∃ (s : State), s.dev.pairRuns ↑q = true ∧ ∃ (a : ChkVal), ∃ (ra : List ChkVal),
      (s.dev.pair ↑q).chkP = a :: ra ∧ ∃ (b : ChkVal), ∃ (rb : List ChkVal), (s.dev.pair ↑q).chkS = b :: rb ∧
      (s.dev.pairedQ ↑q = true ∧ s.dev.blockedQ ↑q = false) ∧ (a.id ≠ b.id ∨ a.val ≠ b.val)) ∧
    (∃ (q : Fin 9), ∃ (s : State), s.dev.pairRuns ↑q = true ∧ ∃ (a : ChkVal), ∃ (ra : List ChkVal),
      (s.dev.pair ↑q).chkP = a :: ra ∧ ∃ (b : ChkVal), ∃ (rb : List ChkVal), (s.dev.pair ↑q).chkS = b :: rb ∧
      (s.dev.pairedQ ↑q = true ∧ s.dev.blockedQ ↑q = false) ∧ a = b) ∧
    (∃ (q : Fin 9), ∃ (s : State), s.dev.pairRuns ↑q = true ∧ (s.dev.pairedQ ↑q = true ∧ s.dev.blockedQ ↑q = false) ∧
      s.dev.coreHalted (2 * ↑q) = false ∧ s.dev.coreHalted (2 * ↑q + 1) = false ∧ ((s.dev.pair ↑q).chkP ≠ [] ∨
      (s.dev.pair ↑q).chkS ≠ [] ∨ (s.dev.pair ↑q).outP ≠ [] ∨ (s.dev.pair ↑q).outS ≠ []) ∧
      s.dev.fld (ASY_PAIR_CTL ↑q) ASY_PAIR_CTL_lag_max * 128 ≤ (s.dev.pair ↑q).lagT) ∧
    (∃ (q : Fin 9), ∃ (s : State), s.dev.pairRuns ↑q = true ∧ ((s.dev.pair ↑q).chkP = [] ∧ (s.dev.pair ↑q).chkS = [] ∧
      (s.dev.pair ↑q).outP = [] ∧ (s.dev.pair ↑q).outS = [] ∨
      (s.dev.pair ↑q).lagT < s.dev.fld (ASY_PAIR_CTL ↑q) ASY_PAIR_CTL_lag_max * 128)) ∧
    (∃ (q : Fin 9), ∃ (s : State), s.dev.pairRuns ↑q = true ∧ s.dev.fld (ASY_PAIR_CTL ↑q) ASY_PAIR_CTL_lag_max ≠ 0 ∧
      ∃ (w : Writer), s.dev.accepts w (ASY_PAIR_CTL ↑q) = true ∧
      (s.dev.flag (ASY_PAIR_CTL ↑q) ASY_PAIR_CTL_req_split,
      s.dev.flag (ASY_PAIR_CTL ↑q) ASY_PAIR_CTL_req_merge) = (false, false) ∧ s.dev.pairedQ ↑q = true) ∧
    (∃ (q : Fin 9), ∃ (s : State), s.dev.pairRuns ↑q = true ∧ s.dev.fld (ASY_PAIR_CTL ↑q) ASY_PAIR_CTL_lag_max ≠ 0 ∧
      ∃ (w : Writer), s.dev.accepts w (ASY_PAIR_CTL ↑q) = true ∧
      (s.dev.flag (ASY_PAIR_CTL ↑q) ASY_PAIR_CTL_req_split,
      s.dev.flag (ASY_PAIR_CTL ↑q) ASY_PAIR_CTL_req_merge) = (false, false) ∧ s.dev.pairedQ ↑q = false ∧
      (s.dev.core (2 * ↑q)).byteMode = (s.dev.core (2 * ↑q + 1)).byteMode ∧ s.dev.mirrorUnowned ↑q = false) ∧
    (∃ (q : Fin 9), ∃ (s : State), s.dev.pairRuns ↑q = true ∧ s.dev.fld (ASY_PAIR_CTL ↑q) ASY_PAIR_CTL_lag_max ≠ 0 ∧
      ∃ (w : Writer), s.dev.accepts w (ASY_PAIR_CTL ↑q) = true ∧
      ((s.dev.flag (ASY_PAIR_CTL ↑q) ASY_PAIR_CTL_req_split,
      s.dev.flag (ASY_PAIR_CTL ↑q) ASY_PAIR_CTL_req_merge) ≠ (false, false) ∨ s.dev.pairedQ ↑q = false)) :=
  ⟨⟨0, (pairP 0 [(ASY_PAIR_CTL 0, 0x80000005), (ING_BANK_OWN 0,
     1)] (fun p => { p with outP := [⟨0x1001004, 4, 7, 0, 0⟩], outS := [⟨0x1001008, 4, 7, 0, 0⟩] }) (memS (run evOn))),
     by decide, _, _, rfl, _, _, rfl, by decide⟩,
   ⟨0, (pairP 0 [(ASY_PAIR_CTL 0, 0x80000005), (ING_BANK_OWN 0,
     1)] (fun p => { p with outP := [⟨0x1001004, 4, 7, 3, 0⟩], outS := [⟨0x1001004, 4, 8, 3, 0⟩] }) (memS (run evOn))),
     by decide, _, _, rfl, _, _, rfl, by decide⟩,
   ⟨0, (pairP 0 [(ASY_PAIR_CTL 0, 0x80000005), (ING_BANK_OWN 0,
     1)] (fun p => { p with outP := [⟨0x1001004, 4, 7, 0, 0⟩], outS := [⟨0x1001004, 4, 7, 0, 0⟩] }) (memS (run evOn))),
     by decide, _, _, rfl, _, _, rfl, by decide, _, _, rfl, by decide⟩,
   ⟨0, (pairP 0 [(ASY_PAIR_CTL 0, 0x80000005), (ING_BANK_OWN 0,
     1)] (fun p => { p with chkP := [⟨1, 0x1234567890⟩], chkS := [⟨2, 0x1234567890⟩] }) (run evOn)), by decide, _,
     _, rfl, _, _, rfl, by decide⟩,
   ⟨0, (pairP 0 [(ASY_PAIR_CTL 0, 0x80000005), (ING_BANK_OWN 0,
     1)] (fun p => { p with chkP := [⟨1, 0x1234567890⟩], chkS := [⟨1, 0x1234567890⟩] }) (run evOn)), by decide, _,
     _, rfl, _, _, rfl, by decide⟩,
   ⟨0, (pairP 0 [(ASY_PAIR_CTL 0, 0x80000005), (ING_BANK_OWN 0,
     1)] (fun p => { p with outS := [⟨0x1001004, 4, 7, 0, 0⟩], lagT := 5000 }) (run evOn)), by decide⟩,
   ⟨0, (pairP 0 [(ASY_PAIR_CTL 0, 0x80000005), (ING_BANK_OWN 0,
     1)] (fun p => { p with outP := [⟨0x1001004, 4, 7, 0, 0⟩], outS := [⟨0x1001004, 4, 7, 0, 0⟩] }) (memS (run evOn))),
     by decide⟩,
   ⟨0, (pairP 0 [(ASY_PAIR_CTL 0, 0x80000005), (ING_BANK_OWN 0,
     1)] (fun p => { p with outP := [⟨0x1001004, 4, 7, 0, 0⟩], outS := [⟨0x1001004, 4, 7, 0, 0⟩] }) (memS (run evOn))),
     by decide, by decide, .dap, by decide⟩,
   ⟨0, (pairP 0 [(ASY_PAIR_CTL 0, 0x00000005)] (fun p => { p with agreed := true }) (run evOn)), by decide,
     by decide, .dap, by decide⟩,
   ⟨0, (pairP 0 [(ASY_PAIR_CTL 0, 0x00000005)] (fun p => { p with agreed := true }) (run evOn)), by decide,
     by decide, .dap, by decide⟩⟩

theorem meets_CorePairsAndAgreedInputs_2 :
    (∃ (q : Fin 9), ∃ (s : State), s.dev.pairRuns ↑q = true ∧ s.dev.fld (ASY_PAIR_CTL ↑q) ASY_PAIR_CTL_lag_max ≠ 0 ∧
      ∃ (w : Writer), s.dev.accepts w (ASY_PAIR_CTL ↑q) = true ∧
      ((s.dev.flag (ASY_PAIR_CTL ↑q) ASY_PAIR_CTL_req_split,
      s.dev.flag (ASY_PAIR_CTL ↑q) ASY_PAIR_CTL_req_merge) ≠ (false, false) ∨ s.dev.pairedQ ↑q = true ∨
      s.dev.mirrorUnowned ↑q = true)) ∧
    (∃ (q : Fin 9), ∃ (s : State), s.dev.pairRuns ↑q = true ∧ s.dev.splitReady ↑q = false) ∧
    (∃ (q : Fin 9), ∃ (s : State), s.dev.pairRuns ↑q = true ∧ s.dev.splitReady ↑q = true) ∧
    (∃ (q : Fin 9), ∃ (s : State), s.dev.pairRuns ↑q = true ∧ (s.dev.mergeReady ↑q = false ∨
      (s.dev.pair ↑q).copying = true)) ∧
    (∃ (q : Fin 9), ∃ (s : State), s.dev.pairRuns ↑q = true ∧ s.dev.mergeReady ↑q = true ∧
      (s.dev.pair ↑q).copying = false) ∧
    (∃ (q : Fin 9), ∃ (s : State), s.dev.pairRuns ↑q = true) ∧
    (∃ (q : Fin 9), ∃ (s : State), s.dev.pairRuns ↑q = true ∧ s.dev.mergeReady ↑q = true ∧
      (s.dev.pair ↑q).copying = true ∧ s.dev.copySpan ↑q ≤ (s.dev.pair ↑q).copyT) ∧
    (∃ (q : Fin 9), ∃ (s : State), s.dev.pairRuns ↑q = true ∧ (s.dev.mergeReady ↑q = false ∨
      (s.dev.pair ↑q).copying = false ∨ (s.dev.pair ↑q).copyT < s.dev.copySpan ↑q)) ∧
    (∃ (w : Writer), ∃ (c : Fin 5), ∃ (n : Fin 8), ∃ (v : Word), ∃ (s : State),
      (if ↑c < 4 then s.dev.clusterRuns ↑c else !s.dev.clkHeld) = true ∧
      s.dev.accepts w (ASY_INA_MAP ↑c ↑n) = true ∧ (fget ASY_INA_MAP_addr v * 4 < 33554432 ∨
      50331648 ≤ fget ASY_INA_MAP_addr v * 4 ∨ (findClass (fget ASY_INA_MAP_addr v * 4) regsASY).isSome = true)) ∧
    (∃ (w : Writer), ∃ (c : Fin 5), ∃ (n : Fin 8), ∃ (v : Word), ∃ (s : State),
      (if ↑c < 4 then s.dev.clusterRuns ↑c else !s.dev.clkHeld) = true ∧
      s.dev.accepts w (ASY_INA_MAP ↑c ↑n) = true ∧ ¬(fget ASY_INA_MAP_addr v * 4 < 33554432 ∨
      50331648 ≤ fget ASY_INA_MAP_addr v * 4 ∨ (findClass (fget ASY_INA_MAP_addr v * 4) regsASY).isSome = true)) :=
  ⟨⟨0, (pairP 0 [(ASY_PAIR_CTL 0, 0x80000005), (ING_BANK_OWN 0,
     1)] (fun p => { p with outP := [⟨0x1001004, 4, 7, 0, 0⟩], outS := [⟨0x1001004, 4, 7, 0, 0⟩] }) (memS (run evOn))),
     by decide, by decide, .dap, by decide⟩,
   ⟨0, (pairP 0 [(ASY_PAIR_CTL 0, 0x80000005), (ING_BANK_OWN 0,
     1)] (fun p => { p with outP := [⟨0x1001004, 4, 7, 0, 0⟩], outS := [⟨0x1001004, 4, 7, 0, 0⟩] }) (memS (run evOn))),
     by decide⟩,
   ⟨0, (pairP 0 [(ASY_PAIR_CTL 0,
     0xC0000005)] (fun p => { p with agreed := true }) (cores2 0 id (fun c => { c with running := true, w := ⟨[(3, 5)]⟩, tsr := 0x1001000 }) (memS (run evOn)))),
     by decide⟩,
   ⟨0, (pairP 0 [(ASY_PAIR_CTL 0, 0x80000005), (ING_BANK_OWN 0,
     1)] (fun p => { p with outP := [⟨0x1001004, 4, 7, 0, 0⟩], outS := [⟨0x1001004, 4, 7, 0, 0⟩] }) (memS (run evOn))),
     by decide⟩,
   ⟨0, (pairP 0 [(ASY_PAIR_CTL 0,
     0x20000005)] (fun p => { p with copying := false, copyT := 99999 }) (cores2 0 (fun c => { c with running := true, w := ⟨[(3, 5)]⟩, tsr := 0x1001000, mergeWait := true, pc := 0x1001100, sig := [5, 6] }) (fun c => { c with running := true, w := ⟨[(3, 5)]⟩, tsr := 0x1001000, mergeWait := true, pc := 0x1001100, sig := [5, 6] }) (memS (run evOn)))),
     by decide⟩,
   ⟨0, (pairP 0 [(ASY_PAIR_CTL 0, 0x80000005), (ING_BANK_OWN 0,
     1)] (fun p => { p with outP := [⟨0x1001004, 4, 7, 0, 0⟩], outS := [⟨0x1001004, 4, 7, 0, 0⟩] }) (memS (run evOn))),
     by decide⟩,
   ⟨0, (pairP 0 [(ASY_PAIR_CTL 0,
     0x20000005)] (fun p => { p with copying := true, copyT := 99999 }) (cores2 0 (fun c => { c with running := true, w := ⟨[(3, 5)]⟩, tsr := 0x1001000, mergeWait := true, pc := 0x1001100, sig := [5, 6] }) (fun c => { c with running := true, w := ⟨[(3, 5)]⟩, tsr := 0x1001000, mergeWait := true, pc := 0x1001100, sig := [5, 6] }) (memS (run evOn)))),
     by decide⟩,
   ⟨0, (pairP 0 [(ASY_PAIR_CTL 0, 0x80000005), (ING_BANK_OWN 0,
     1)] (fun p => { p with outP := [⟨0x1001004, 4, 7, 0, 0⟩], outS := [⟨0x1001004, 4, 7, 0, 0⟩] }) (memS (run evOn))),
     by decide⟩,
   ⟨.dap, 0, 0, 0, (pairP 0 [(ASY_PAIR_CTL 0, 0x80000005), (ING_BANK_OWN 0,
     1)] (fun p => { p with outP := [⟨0x1001004, 4, 7, 0, 0⟩], outS := [⟨0x1001004, 4, 7, 0, 0⟩] }) (memS (run evOn))),
     by decide⟩,
   ⟨.dap, 0, 0, 0x02000000, (pairP 0 [(ASY_PAIR_CTL 0, 0x80000005), (ING_BANK_OWN 0,
     1)] (fun p => { p with outP := [⟨0x1001004, 4, 7, 0, 0⟩], outS := [⟨0x1001004, 4, 7, 0, 0⟩] }) (memS (run evOn))),
     by decide⟩⟩

theorem meets_LadleRings_1 :
    (∃ (w : Writer), ∃ (r : Fin 4096), ∃ (v : Word), ∃ (s : State), w ≠ Writer.host) ∧
    (∃ (w : Writer), ∃ (r : Fin 4096), ∃ (v : Word), ∃ (s : State), w = Writer.host ∧ (s.dev.ringOn ↑r = false ∨
      s.dev.ringDel ↑r = true)) ∧
    (∃ (w : Writer), ∃ (r : Fin 4096), ∃ (v : Word), ∃ (s : State), w = Writer.host ∧ s.dev.ringOn ↑r = true ∧
      s.dev.ringDel ↑r = false ∧ s.dev.ringBad ↑r = false ∧ 2 ^ 15 ≤ BitVec.toNat v) ∧
    (∃ (w : Writer), ∃ (r : Fin 4096), ∃ (v : Word), ∃ (s : State), w = Writer.host ∧ s.dev.ringOn ↑r = true ∧
      s.dev.ringDel ↑r = false ∧ s.dev.ringBad ↑r = false ∧ BitVec.toNat v < 2 ^ 15 ∧
      s.dev.ringN ↑r ≤ BitVec.toNat v) ∧
    (∃ (w : Writer), ∃ (r : Fin 4096), ∃ (v : Word), ∃ (s : State), w = Writer.host ∧ s.dev.ringOn ↑r = true ∧
      s.dev.ringDel ↑r = false ∧ s.dev.ringBad ↑r = false ∧ BitVec.toNat v < 2 ^ 15 ∧
      BitVec.toNat v < s.dev.ringN ↑r ∧ (s.dev.ringType ↑r = 1 ∨ s.dev.ringType ↑r = 4) ∧
      s.dev.ringRoom ↑r < (BitVec.toNat v + s.dev.ringN ↑r - s.dev.ringTail ↑r) % s.dev.ringN ↑r) ∧
    (∃ (w : Writer), ∃ (r : Fin 4096), ∃ (v : Word), ∃ (s : State), w = Writer.host ∧ s.dev.ringOn ↑r = true ∧
      s.dev.ringDel ↑r = false ∧ s.dev.ringBad ↑r = false ∧ BitVec.toNat v < 2 ^ 15 ∧
      BitVec.toNat v < s.dev.ringN ↑r ∧ (s.dev.ringType ↑r = 1 ∨ s.dev.ringType ↑r = 4) ∧
      (BitVec.toNat v + s.dev.ringN ↑r - s.dev.ringTail ↑r) % s.dev.ringN ↑r ≤ s.dev.ringRoom ↑r) ∧
    (∃ (r : Fin 4096), ∃ (s : State), s.dev.isRing (↑r) 1 = true ∧ s.dev.ringBad ↑r = false ∧
      s.dev.ringDel ↑r = false ∧ s.dev.hostOk = true ∧ s.dev.fld GLB_PCIE_STAT GLB_PCIE_STAT_dstate ≠ 3 ∧
      s.dev.ringUsed ↑r = 1 ∧ s.dev.fldIf (LDL_RING_CFG ↑r) LDL_RING_CFG_mir = 0 ∧
      dChain (s.mem.hostSpan (s.dev.ringBase ↑r + 64 * s.dev.ringHead ↑r) 64) = true) ∧
    (∃ (r : Fin 4096), ∃ (s : State), s.dev.isRing (↑r) 1 = true ∧ s.dev.ringBad ↑r = false ∧
      s.dev.ringDel ↑r = false ∧ s.dev.hostOk = true ∧ s.dev.fld GLB_PCIE_STAT GLB_PCIE_STAT_dstate ≠ 3 ∧
      s.dev.ringUsed ↑r = 1 ∧ s.dev.fldIf (LDL_RING_CFG ↑r) LDL_RING_CFG_mir = 0 ∧
      dChain (s.mem.hostSpan (s.dev.ringBase ↑r + 64 * s.dev.ringHead ↑r) 64) = false ∧
      (s.dev.sqOf ↑r).part = [] ∧
      formRefusal [s.mem.hostSpan (s.dev.ringBase ↑r + 64 * s.dev.ringHead ↑r) 64] = none ∧
      s.dev.authCheck [s.mem.hostSpan (s.dev.ringBase ↑r + 64 * s.dev.ringHead ↑r) 64] = Sum.inr none) ∧
    (∃ (r : Fin 4096), ∃ (s : State), s.dev.isRing (↑r) 1 = true ∧ s.dev.ringBad ↑r = false ∧
      s.dev.ringDel ↑r = false ∧ s.dev.hostOk = true ∧ s.dev.fld GLB_PCIE_STAT GLB_PCIE_STAT_dstate ≠ 3 ∧
      s.dev.ringUsed ↑r = 1 ∧ s.dev.fldIf (LDL_RING_CFG ↑r) LDL_RING_CFG_mir = 0 ∧
      dChain (s.mem.hostSpan (s.dev.ringBase ↑r + 64 * s.dev.ringHead ↑r) 64) = false ∧
      (s.dev.sqOf ↑r).part = [] ∧ ∃ (st : Nat),
      formRefusal [s.mem.hostSpan (s.dev.ringBase ↑r + 64 * s.dev.ringHead ↑r) 64] = some st) ∧
    (∃ (r : Fin 4096), ∃ (s : State), ∃ (c : Cmd), ∃ (l : List Cmd), (s.dev.sqOf ↑r).cmds = c :: l ∧ ∃ (k : Cpl),
      s.dev.cplOf ↑r = some k ∧ s.dev.hostOk = true ∧ s.dev.cqRoom ↑r = true ∧ (dQuiet c.d0 = false ∨
      k.status ≠ stOk) ∧ ¬dOp c.d0 ∈ [272, 273, 288, 2051] ∧ c.refuse = none ∧ c.descs.length = 1 ∧
      s.dev.ringDel 0 = false ∧ s.dev.ringDel ↑r = false) :=
  ⟨⟨(.core 16 0 : Writer), 3, 0, (run id), by decide⟩,
   ⟨.host, 3, 0, (run id), by decide⟩,
   ⟨.host, 3, 0x8005, (sH id), by decide⟩,
   ⟨.host, 3, 16, (sH id), by decide⟩,
   ⟨.host, 3, 0, (sH id), by decide⟩,
   ⟨.host, 3, 0,
     (withMem (fun m => m.setHost 0x103C0 (desc 0x0101 0 0 7 0 [])) (sH fun d => (d.setF (LDL_RING_PTR 3) LDL_RING_PTR_head 15).setF (LDL_RING_PTR 3) LDL_RING_PTR_tail 0)),
     by decide⟩,
   ⟨3, (withMem (fun m => m.setHost 0x10000 (desc 0x0201 8 0 7 0 [])) (sH id)), by decide⟩,
   ⟨3, (withMem (fun m => m.setHost 0x10000 (desc 0x0101 0 0 7 0 [])) (sH id)), by decide⟩,
   ⟨3, (sH id), by decide, by decide, by decide, by decide, by decide, by decide, by decide, by decide, by decide, _,
     rfl⟩,
   ⟨3, (sH fun d => id { (oneCmd 0x0101 0 none true d) with cpls := [⟨3, 7, 0, 0x123456789⟩] }), _, _, rfl, _, rfl,
     by decide⟩⟩

theorem meets_LadleRings_2 :
    (∃ (r : Fin 4096), ∃ (s : State), ∃ (c : Cmd), ∃ (l : List Cmd), (s.dev.sqOf ↑r).cmds = c :: l ∧
      (s.dev.hostOk = false ∨ s.dev.cqRoom ↑r = false ∧ dQuiet c.d0 = false)) ∧
    (∃ (q : Fin 4096), ∃ (s : State), ∃ (e : EvRec), ∃ (l : List EvRec), s.dev.events = e :: l ∧
      s.dev.isRing (↑q) 3 = true ∧ s.dev.ringBad ↑q = false ∧ s.dev.ringDel ↑q = false ∧ s.dev.hostOk = true ∧
      mget 0 s.dev.lostFor ↑q = 0 ∧ e.eq = ↑q ∧ e.pay.length ≤ 4 ∧ 1 ≤ s.dev.ringRoom ↑q ∧
      s.dev.pcie.pmeEn = false) ∧
    (∃ (w : Writer), (w = Writer.host ∨ isBench w = true) ∧ ∃ (v : Word), ∃ (s : State),
      s.dev.flag LDL_ADMIN_CTL LDL_ADMIN_CTL_en = false ∧ fget LDL_ADMIN_CTL_en v = 1 ∧
      4 ≤ fget LDL_ADMIN_CTL_asq_lg v ∧ 4 ≤ fget LDL_ADMIN_CTL_acq_lg v ∧ 4 ≤ fget LDL_ADMIN_CTL_aeq_lg v) ∧
    (∃ (w : Writer), (w = Writer.host ∨ isBench w = true) ∧ ∃ (v : Word), ∃ (s : State),
      s.dev.flag LDL_ADMIN_CTL LDL_ADMIN_CTL_en = true ∧ fget LDL_ADMIN_CTL_en v = 1 ∧
      s.dev.fld LDL_ADMIN_CTL { lo := 0, wid := 12 } ≠ fget { lo := 0, wid := 12 } v) ∧
    (∃ (w : Writer), (w = Writer.host ∨ isBench w = true) ∧ ∃ (v : Word), ∃ (s : State),
      s.dev.flag LDL_ADMIN_CTL LDL_ADMIN_CTL_en = true ∧ fget LDL_ADMIN_CTL_en v = 0 ∧ s.dev.otherRings = true) ∧
    (∃ (w : Writer), (w = Writer.host ∨ isBench w = true) ∧ ∃ (v : Word), ∃ (s : State),
      s.dev.flag LDL_ADMIN_CTL LDL_ADMIN_CTL_en = true ∧ fget LDL_ADMIN_CTL_en v = 0 ∧ s.dev.otherRings = false ∧
      (s.dev.sqOf 0).cmds = []) ∧
    (∃ (r : Fin 4096), ∃ (n : Nat), ∃ (s : State), s.dev.isRing (↑r) 1 = true ∧ s.dev.ringUsed ↑r ≠ 0 ∧
      s.dev.ringBad ↑r = false ∧ ∃ (poison : Bool), True) ∧
    (∃ (r : Fin 4096), ∃ (n : Nat), ∃ (s : State), s.dev.isRing (↑r) 1 = true ∧ s.dev.ringUsed ↑r ≠ 0 ∧
      s.dev.ringBad ↑r = false) ∧
    (∃ (r : Fin 4096), ∃ (n : Nat), ∃ (s : State), s.dev.ringUsed ↑r = 0 ∧ ∃ (poison : Bool), True) ∧
    (∃ (r : Fin 4096), ∃ (n : Nat), ∃ (s : State), s.dev.ringUsed ↑r = 0) :=
  ⟨⟨3,
     (sH fun d => (fun d => d.wr GLB_PCIE_STAT 0) { (oneCmd 0x0101 0 none true d) with cpls := [⟨3, 7, 0, 0x123456789⟩] }),
     _, _, rfl, by decide⟩,
   ⟨5,
     (sH fun d => { (d) with events := [⟨5, 0x0102, 0x10, 3, 0x123456789, [], true⟩, ⟨5, 0x0102, 0x10, 3, 0x123456789, [], false⟩] }),
     _, _, rfl, by decide⟩,
   ⟨.host, by decide, 0x80000444, (run id), by decide⟩,
   ⟨.host, by decide, 0x80000444, (sH id), by decide⟩,
   ⟨.host, by decide, 0, (sH id), by decide⟩,
   ⟨.host, by decide, 0, (run fun d => d.wr LDL_ADMIN_CTL 0x80000444), by decide⟩,
   ⟨3, 0, (sH id), by decide, by decide, by decide, false, by decide⟩,
   ⟨3, 0, (sH id), by decide⟩,
   ⟨3, 0, (run id), by decide, false, by decide⟩,
   ⟨3, 0, (run id), by decide⟩⟩

theorem meets_PcieEndpoint_1 :
    (∃ (q : CfgReq), ∃ (s : State), s.dev.linkUp = true ∧ s.dev.flag GLB_PCIE_STAT GLB_PCIE_STAT_fw_ready = false) ∧
    (∃ (q : CfgReq), ∃ (s : State), s.dev.linkUp = true ∧ s.dev.flag GLB_PCIE_STAT GLB_PCIE_STAT_fw_ready = true ∧
      ∃ (dw : Fin 1024), q = CfgReq.read dw) ∧
    (∃ (q : CfgReq), ∃ (s : State), s.dev.linkUp = true ∧ s.dev.flag GLB_PCIE_STAT GLB_PCIE_STAT_fw_ready = true ∧
      ∃ (mem : Bool), ∃ (bus : Bool), q = CfgReq.command mem bus) ∧
    (∃ (off : Fin 16777216), ∃ (lo : Word), ∃ (hi : Word), ∃ (s : State), s.dev.linkUp = true ∧ s.dev.memOff = true ∧
      ∃ (wr : Bool), ∃ (len : Fin 4096), True) ∧
    (∃ (off : Fin 16777216), ∃ (lo : Word), ∃ (hi : Word), ∃ (s : State), s.dev.linkUp = true ∧ s.dev.memOff = false ∧
      ∃ (wr : Bool), ∃ (len : Fin 4096), 8 < ↑len ∨ 4 ≤ ↑len ∧ (↑off % 4 ≠ 0 ∨ ↑len % 4 ≠ 0)) ∧
    (∃ (off : Fin 16777216), ∃ (lo : Word), ∃ (hi : Word), ∃ (s : State), s.dev.linkUp = true ∧ s.dev.memOff = false ∧
      ∃ (len : Fin 4096), ↑len < 4) ∧
    (∃ (off : Fin 16777216), ∃ (lo : Word), ∃ (hi : Word), ∃ (s : State), s.dev.linkUp = true ∧ s.dev.memOff = false ∧
      ↑off % 4 = 0) ∧
    (∃ (v : Fin 64), ∃ (s : State), s.dev.fld GLB_PCIE_STAT GLB_PCIE_STAT_dstate ≠ 3 ∧
      s.dev.flag GLB_PCIE_STAT GLB_PCIE_STAT_l1 = false ∧ s.dev.pcie.busMaster = true ∧ s.dev.pcie.msixEn = true ∧
      s.dev.pcie.funcMask = false ∧
      s.dev.time.master < ((s.dev.vec ↑v).first + s.dev.fld (GLB_MSIX_MOD ↑v) GLB_MSIX_MOD_tmo * 800 + 799) / 800 * 800) ∧
    (∃ (v : Fin 64), ∃ (s : State), s.dev.fld GLB_PCIE_STAT GLB_PCIE_STAT_dstate ≠ 3 ∧
      s.dev.flag GLB_PCIE_STAT GLB_PCIE_STAT_l1 = false ∧ s.dev.pcie.busMaster = true ∧ s.dev.pcie.msixEn = true ∧
      s.dev.pcie.funcMask = false ∧ 0 < (s.dev.vec ↑v).count ∧ 0 < s.dev.fld (GLB_MSIX_MOD ↑v) GLB_MSIX_MOD_tmo ∧
      (s.dev.vec ↑v).due = false ∧ (s.dev.vec ↑v).pend = false ∧
      ((s.dev.vec ↑v).first + s.dev.fld (GLB_MSIX_MOD ↑v) GLB_MSIX_MOD_tmo * 800 + 799) / 800 * 800 ≤ s.dev.time.master ∧
      (s.dev.vec ↑v).masked = false) ∧
    (∃ (v : Fin 64), ∃ (s : State), s.dev.fld GLB_PCIE_STAT GLB_PCIE_STAT_dstate ≠ 3 ∧
      s.dev.flag GLB_PCIE_STAT GLB_PCIE_STAT_l1 = false ∧ s.dev.pcie.busMaster = true ∧ s.dev.pcie.msixEn = true ∧
      s.dev.pcie.funcMask = false ∧ 0 < (s.dev.vec ↑v).count ∧ 0 < s.dev.fld (GLB_MSIX_MOD ↑v) GLB_MSIX_MOD_tmo ∧
      (s.dev.vec ↑v).due = false ∧ (s.dev.vec ↑v).pend = false ∧
      ((s.dev.vec ↑v).first + s.dev.fld (GLB_MSIX_MOD ↑v) GLB_MSIX_MOD_tmo * 800 + 799) / 800 * 800 ≤ s.dev.time.master ∧
      (s.dev.vec ↑v).masked = true) :=
  ⟨⟨(.read 0 : CfgReq), (sH fun d => d.wr GLB_PCIE_STAT 0x80000000), by decide⟩,
   ⟨(.read 0 : CfgReq), (sH id), by decide, by decide, 0, by decide⟩,
   ⟨(.command true false : CfgReq), (sH id), by decide, by decide, true, false, by decide⟩,
   ⟨0, 0, 0, (sH fun d => d.modPcie fun p => { p with memSpace := false }), by decide, by decide, false, 3,
     by decide⟩,
   ⟨0, 0, 0, (sH id), by decide, by decide, false, 9, by decide⟩,
   ⟨0, 0, 0, (sH id), by decide, by decide, 3, by decide⟩,
   ⟨0, 0, 0, (sH id), by decide⟩,
   ⟨0,
     (sH fun d => (d.wr (GLB_MSIX_MOD 0) 0x00050005).modPcie fun p => { p with msixEn := true, vecs := ⟨[(0, { Vec.reset with count := 1, first := 9999999 })]⟩ }),
     by decide⟩,
   ⟨0,
     (sH fun d => ({ d with time := { d.time with master := 9999999 } }.wr (GLB_MSIX_MOD 0) 0x00050005).modPcie fun p => { p with msixEn := true, vecs := ⟨[(0, { Vec.reset with masked := false, pend := false, count := 3, due := false })]⟩ }),
     by decide⟩,
   ⟨0,
     (sH fun d => ({ d with time := { d.time with master := 9999999 } }.wr (GLB_MSIX_MOD 0) 0x00050005).modPcie fun p => { p with msixEn := true, vecs := ⟨[(0, { Vec.reset with masked := true, pend := false, count := 3, due := false })]⟩ }),
     by decide⟩⟩

theorem meets_PcieEndpoint_2 :
    (∃ (v : Fin 64), ∃ (s : State), s.dev.fld GLB_PCIE_STAT GLB_PCIE_STAT_dstate ≠ 3 ∧
      s.dev.flag GLB_PCIE_STAT GLB_PCIE_STAT_l1 = false ∧ s.dev.pcie.busMaster = true ∧ s.dev.pcie.msixEn = true ∧
      s.dev.pcie.funcMask = false ∧ (s.dev.vec ↑v).pend = true) ∧
    (∃ (v : Fin 64), ∃ (s : State), s.dev.fld GLB_PCIE_STAT GLB_PCIE_STAT_dstate ≠ 3 ∧
      s.dev.flag GLB_PCIE_STAT GLB_PCIE_STAT_l1 = false ∧ s.dev.pcie.busMaster = true ∧ s.dev.pcie.msixEn = true ∧
      s.dev.pcie.funcMask = false ∧ (s.dev.vec ↑v).pend = false) ∧
    (∃ (gen : Fin 8), ∃ (width : Fin 4), ∃ (rev : Bool), ∃ (s : State), s.dev.inReset = false ∧
      s.dev.pcie.perst = false ∧ s.dev.pcie.dlDown = false ∧ 2 ≤ s.dev.fld TCH_BOOT TCH_BOOT_stage ∧
      s.dev.linkUp = false ∧ s.dev.linkCan ↑gen ↑width = true) ∧
    (∃ (gen : Fin 8), ∃ (width : Fin 4), ∃ (rev : Bool), ∃ (s : State), s.dev.linkCan ↑gen ↑width = false) ∧
    (∃ (gen : Fin 8), ∃ (width : Fin 4), ∃ (rev : Bool), ∃ (s : State), s.dev.linkUp = true ∧ 1 ≤ ↑gen ∧
      ∃ (w : Writer), s.dev.accepts w GLB_PCIE_CTL = true ∧ ∃ (v : Word), s.dev.sound GLB_PCIE_CTL (v ||| 1) ∧
      ↑gen ≤ min 5 (fget GLB_PCIE_CTL_max_gen v) ∧ ↑width ≤ min 2 (fget GLB_PCIE_CTL_max_width v)) ∧
    (∃ (gen : Fin 8), ∃ (width : Fin 4), ∃ (rev : Bool), ∃ (s : State), s.dev.linkUp = true) ∧
    (∃ (gen : Fin 8), ∃ (width : Fin 4), ∃ (rev : Bool), ∃ (s : State), ∀ (v : Nat),
      v < 64 → (s.dev.vec v).due = false) ∧
    (∃ (sq : Fin 4096), ∃ (s : State), ∃ (x : Wait),
      List.find? (fun (y : Wait) => y.sq == ↑sq && y.limit != 0 && decide (y.start + y.limit * 800000 ≤ s.dev.now)) s.dev.waits = some x ∧
      x.op = 515) ∧
    (∃ (sq : Fin 4096), ∃ (s : State), ∃ (x : Wait),
      List.find? (fun (y : Wait) => y.sq == ↑sq && y.limit != 0 && decide (y.start + y.limit * 800000 ≤ s.dev.now)) s.dev.waits = some x ∧
      ∃ (q : Nat), corePairOf x.target = some q ∧ x.op = 3088 ∧ x.aux.headD 0 = 2 ∧ s.dev.mergeReady q = true) ∧
    (∃ (sq : Fin 4096), ∃ (s : State), ∃ (x : Wait),
      List.find? (fun (y : Wait) => y.sq == ↑sq && y.limit != 0 && decide (y.start + y.limit * 800000 ≤ s.dev.now)) s.dev.waits = some x ∧
      ∃ (q : Nat), corePairOf x.target = some q ∧ x.op = 3088 ∧ (x.aux.headD 0 ≠ 2 ∨ s.dev.mergeReady q = false)) :=
  ⟨⟨0,
     (sH fun d => ({ d with time := { d.time with master := 9999999 } }.wr (GLB_MSIX_MOD 0) 0x00050005).modPcie fun p => { p with msixEn := true, vecs := ⟨[(0, { Vec.reset with masked := true, pend := true, count := 0, due := true })]⟩ }),
     by decide⟩,
   ⟨0,
     (sH fun d => ({ d with time := { d.time with master := 9999999 } }.wr (GLB_MSIX_MOD 0) 0x00050005).modPcie fun p => { p with msixEn := true, vecs := ⟨[(0, { Vec.reset with masked := true, pend := false, count := 0, due := true })]⟩ }),
     by decide⟩,
   ⟨1, 0, false,
     ({ run (fun d => (d.wr TCH_BOOT 0x200).wr GLB_PCIE_CTL 0xFFFFFFFF) with dev := { (run (fun d => (d.wr TCH_BOOT 0x200).wr GLB_PCIE_CTL 0xFFFFFFFF)).dev with clkHeld := false, tch := { (run id).dev.tch with valid := true } } }),
     by decide⟩,
   ⟨0, 0, false, (run id), by decide⟩,
   ⟨1, 0, false, (sH id), by decide, by decide, .dap, by decide, 0x52, sound_of (by decide), by decide⟩,
   ⟨0, 0, false, (sH id), by decide⟩,
   ⟨0, 0, false, (run id), by decide⟩,
   ⟨3,
     (run fun d => { regsD [(ASY_PAIR_CTL 0, 0xFFFFFFFF), (ASY_PAIR_CTL 1, 0xFFFFFFFF)] d with waits := [⟨3, 7, 0x0203, 0, [], 0, 5, 7⟩, ⟨4, 7, 0x0203, 0, [], 0, 0, 1000⟩], now := 900000000 }),
     _, rfl, by decide⟩,
   ⟨3,
     ((cores2 0 (fun c => { c with running := true, w := ⟨[(3, 5)]⟩, tsr := 0x1001000, mergeWait := true, pc := 0x1001100, sig := [5, 6] }) (fun c => { c with running := true, w := ⟨[(3, 5)]⟩, tsr := 0x1001000, mergeWait := true, pc := 0x1001100, sig := [5, 6] }) (run fun d => { regsD [(ASY_PAIR_CTL 0, 0xA0000005)] d with waits := [⟨3, 7, 0x0C10, 0, [2], 0, 0, 1⟩], now := 800000 }))),
     _, rfl, _, rfl, by decide⟩,
   ⟨3,
     (run fun d => { regsD [(ASY_PAIR_CTL 0, 0xFFFFFFFF), (ASY_PAIR_CTL 1, 0xFFFFFFFF)] d with waits := [⟨3, 7, 0x0C10, 0, [], 0, 5, 7⟩, ⟨4, 7, 0x0C10, 0, [], 0, 0, 1000⟩], now := 900000000 }),
     _, rfl, _, rfl, by decide⟩⟩

theorem meets_PcieEndpoint_3 :
    ∃ (sq : Fin 4096), ∃ (s : State), ∀ (x : Wait), x ∈ s.dev.waits → x.sq = ↑sq → x.limit = 0 ∨
      s.dev.now < x.start + x.limit * 800000 :=
  ⟨3, (run id), by decide⟩

theorem meets_SystemCommands_1 :
    (∃ (r : Fin 4096), ∃ (s : State), ∃ (c : Cmd), s.dev.front (↑r) 257 = some c ∧ plain c) ∧
    (∃ (r : Fin 4096), ∃ (s : State), ∃ (c : Cmd), s.dev.front (↑r) 258 = some c ∧ plain c) ∧
    (∃ (r : Fin 4096), ∃ (s : State), ∃ (c : Cmd), s.dev.front (↑r) 272 = some c ∧ (c.tgt < 4096 ∧ c.bad [(12, 3,
      255), (16, 18, 255)] = false ∧ badRing s.dev c = false) ∧ ↑r = 0 ∧ s.dev.ringOn c.tgt = false) ∧
    (∃ (r : Fin 4096), ∃ (s : State), ∃ (c : Cmd), s.dev.front (↑r) 272 = some c ∧ (c.tgt < 4096 ∧ c.bad [(12, 3,
      255), (16, 18, 255)] = false ∧ badRing s.dev c = false) ∧ ↑r ≠ 0) ∧
    (∃ (r : Fin 4096), ∃ (s : State), ∃ (c : Cmd), s.dev.front (↑r) 272 = some c ∧ (c.tgt < 4096 ∧ c.bad [(12, 3,
      255), (16, 18, 255)] = false ∧ badRing s.dev c = false) ∧ ↑r = 0 ∧ s.dev.ringOn c.tgt = true) ∧
    (∃ (r : Fin 4096), ∃ (s : State), ∃ (c : Cmd), s.dev.front (↑r) 272 = some c ∧ badRing s.dev c = true) ∧
    (∃ (r : Fin 4096), ∃ (s : State), ∃ (c : Cmd), ∃ (l : List Cmd), (s.dev.sqOf ↑r).cmds = c :: l ∧ ∃ (k : Cpl),
      s.dev.cplOf ↑r = some k ∧ s.dev.hostOk = true ∧ s.dev.cqRoom ↑r = true ∧ c.refuse = none ∧
      c.descs.length = 1 ∧ dOp c.d0 = 272 ∧ k.status = stOk ∧ s.dev.ringDel 0 = false ∧ 1 ≤ c.byte 12 ∧
      c.byte 12 ≤ 4 ∧ c.byte 13 ≤ 15 ∧ c.get 16 8 % 64 = 0) ∧
    (∃ (r : Fin 4096), ∃ (s : State), ∃ (c : Cmd), s.dev.front (↑r) 273 = some c ∧ (↑r = 0 ∧ 2 < c.tgt ∧
      c.tgt < 4096 ∧ s.dev.ringOn c.tgt = true ∧ c.bad [] = false ∧ s.dev.ringType c.tgt = 2) ∧
      s.dev.cqBound c.tgt = false) ∧
    (∃ (r : Fin 4096), ∃ (s : State), ∃ (c : Cmd), s.dev.front (↑r) 273 = some c ∧ (↑r = 0 ∧ 2 < c.tgt ∧
      c.tgt < 4096 ∧ s.dev.ringOn c.tgt = true ∧ c.bad [] = false ∧ s.dev.ringType c.tgt = 2) ∧
      s.dev.cqBound c.tgt = true) ∧
    (∃ (r : Fin 4096), ∃ (s : State), ∃ (c : Cmd), s.dev.front (↑r) 273 = some c ∧ (↑r = 0 ∧ 2 < c.tgt ∧
      c.tgt < 4096 ∧ s.dev.ringOn c.tgt = true ∧ c.bad [] = false ∧ s.dev.ringType c.tgt = 1) ∧
      (s.dev.sqOf c.tgt).cmds = [] ∧ (s.dev.sqOf c.tgt).part = []) :=
  ⟨⟨3, (cmds 3 [desc 0x101 0 0 7 0 []] (id)), _, rfl, by unfold plain; decide⟩,
   ⟨3, (cmds 3 [desc 0x102 0 0 7 0 []] (id)), _, rfl, by unfold plain; decide⟩,
   ⟨0, (cmds 0 [desc 0x110 0 0 7 7 [(12, 1), (13, 4), (14, 255), (17, 16), (32, 4)]] (id)), _, rfl, by decide⟩,
   ⟨3, (cmds 3 [desc 0x110 0 0 7 7 [(12, 1), (13, 4), (14, 255), (17, 16), (32, 4)]] (id)), _, rfl, by decide⟩,
   ⟨0, (cmds 0 [desc 0x110 0 0 7 3 [(12, 1), (13, 4), (14, 255), (17, 16), (32, 4)]] (id)), _, rfl, by decide⟩,
   ⟨3, (cmds 3 [desc 0x110 0 0 7 7 [(12, 5), (13, 4)]] (id)), _, rfl, by decide⟩,
   ⟨3, ((cmds 3 [desc 0x110 0 0 7 7 [(12, 1), (13, 4), (14, 255), (17, 52), (18, 18), (32,
     4)]] (fun d => { d.modSq 3 (fun q => { q with cmds := q.cmds.map fun c => { c with begun := true } }) with cpls := [⟨3, 7, 0, 0⟩] }))),
     _, _, rfl, _, rfl, by decide⟩,
   ⟨0, (cmds 0 [desc 0x111 0 0 7 8 []] (fun d => ringW 8 2 4 0 0x9000 0 0 0 d)), _, rfl, by decide⟩,
   ⟨0, (cmds 0 [desc 0x111 0 0 7 4 []] (id)), _, rfl, by decide⟩,
   ⟨0, (cmds 0 [desc 0x111 0 0 7 3 []] (id)), _, rfl, by decide⟩⟩

theorem meets_SystemCommands_2 :
    (∃ (r : Fin 4096), ∃ (s : State), ∃ (c : Cmd), s.dev.front (↑r) 273 = some c ∧ (↑r = 0 ∧ 2 < c.tgt ∧
      c.tgt < 4096 ∧ s.dev.ringOn c.tgt = true ∧ c.bad [] = false ∧ s.dev.ringType c.tgt = 1) ∧
      (s.dev.sqOf c.tgt).cmds ≠ []) ∧
    (∃ (r : Fin 4096), ∃ (s : State), ∃ (c : Cmd), s.dev.front (↑r) 273 = some c ∧ ↑r = 0 ∧ 2 < c.tgt ∧ c.tgt < 4096 ∧
      s.dev.ringOn c.tgt = true ∧ c.bad [] = false ∧ s.dev.ringType c.tgt = 3) ∧
    (∃ (r : Fin 4096), ∃ (s : State), ∃ (c : Cmd), s.dev.front (↑r) 273 = some c ∧ (↑r = 0 ∧ 2 < c.tgt ∧
      c.tgt < 4096 ∧ s.dev.ringOn c.tgt = true ∧ c.bad [] = false ∧ s.dev.ringType c.tgt = 4) ∧
      s.dev.ringLink c.tgt ≠ 4095) ∧
    (∃ (r : Fin 4096), ∃ (s : State), ∃ (c : Cmd), s.dev.front (↑r) 273 = some c ∧ (↑r = 0 ∧ 2 < c.tgt ∧
      c.tgt < 4096 ∧ s.dev.ringOn c.tgt = true ∧ c.bad [] = false ∧ s.dev.ringType c.tgt = 4) ∧
      s.dev.ringLink c.tgt = 4095) ∧
    (∃ (r : Fin 4096), ∃ (s : State), ∃ (c : Cmd), s.dev.front (↑r) 273 = some c ∧ ↑r = 0 ∧ c.tgt ≤ 2 ∧
      s.dev.ringOn c.tgt = true ∧ c.bad [] = false) ∧
    (∃ (r : Fin 4096), ∃ (s : State), ∃ (c : Cmd), s.dev.front (↑r) 273 = some c ∧ s.dev.ringOn c.tgt = false) ∧
    (∃ (r : Fin 4096), ∃ (s : State), ∃ (c : Cmd), s.dev.front (↑r) 275 = some c ∧ (c.tgt < 4096 ∧ c.bad [(12, 1,
      255)] = false ∧ 1 ≤ c.byte 12 ∧ c.byte 12 ≤ 12 ∧ s.dev.isRing c.tgt 3 = true) ∧ ↑r = 0) ∧
    (∃ (r : Fin 4096), ∃ (s : State), ∃ (c : Cmd), s.dev.front (↑r) 275 = some c ∧ (c.tgt < 4096 ∧ c.bad [(12, 1,
      255)] = false ∧ 1 ≤ c.byte 12 ∧ c.byte 12 ≤ 12 ∧ s.dev.isRing c.tgt 3 = true) ∧ ↑r ≠ 0) ∧
    (∃ (r : Fin 4096), ∃ (s : State), ∃ (c : Cmd), s.dev.front (↑r) 275 = some c ∧ c.tgt < 4096 ∧
      s.dev.isRing c.tgt 3 = false) ∧
    (∃ (r : Fin 4096), ∃ (s : State), ∃ (c : Cmd), s.dev.front (↑r) 304 = some c ∧ ((c.badNone = false ∧ c.bad [(12,
      8, 255), (20, 1, 1)] = false ∧ (c.buf 12 20).bad 32 = false) ∧ s.dev.noEntropy = false) ∧
      (c.buf 12 20).fab = false ∧ s.dev.hostOk = false) :=
  ⟨⟨0, (cmds 0 [desc 0x111 0 0 7 3 []] (fun d => d.modSq 3 fun _ => ⟨[⟨[desc 0x0101 0 0 7 0 []], 1, 5, none, false⟩],
     [[1]]⟩)), _, rfl, by decide⟩,
   ⟨0, (cmds 0 [desc 0x111 0 0 7 5 []] (id)), _, rfl, by decide⟩,
   ⟨0, (cmds 0 [desc 0x111 0 0 7 6 []] (id)), _, rfl, by decide⟩,
   ⟨0, (cmds 0 [desc 0x111 0 0 7 6 []] (fun d => (d.wr (LDL_RING_CFG 6) 0xC4000FFF))), _, rfl, by decide⟩,
   ⟨0, (cmds 0 [desc 0x111 0 0 7 0 []] (id)), _, rfl, by decide⟩,
   ⟨3, (cmds 3 [desc 0x111 0 0 7 9 []] (id)), _, rfl, by decide⟩,
   ⟨0, (cmds 0 [desc 0x113 0 0 7 5 [(12, 1)]] (id)), _, rfl, by decide⟩,
   ⟨3, (cmds 3 [desc 0x113 0 0 7 5 [(12, 1)]] (id)), _, rfl, by decide⟩,
   ⟨3, (cmds 3 [desc 0x113 0 0 7 4 [(12, 1)]] (id)), _, rfl, by decide⟩,
   ⟨3, (cmds 3 [desc 0x130 0 0 7 0 [(13,
     16)]] (fun d => (d.modPcie fun p => { p with busMaster := false }).setB HLM_STAT HLM_STAT_ent_ok true)), _,
     rfl, by decide⟩⟩

theorem meets_SystemCommands_3 :
    (∃ (r : Fin 4096), ∃ (s : State), ∃ (c : Cmd), s.dev.front (↑r) 304 = some c ∧ ((c.badNone = false ∧ c.bad [(12,
      8, 255), (20, 1, 1)] = false ∧ (c.buf 12 20).bad 32 = false) ∧ s.dev.noEntropy = false) ∧
      (c.buf 12 20).fab = false ∧ s.dev.hostOk = true) ∧
    (∃ (r : Fin 4096), ∃ (s : State), ∃ (c : Cmd), s.dev.front (↑r) 304 = some c ∧ ((c.badNone = false ∧ c.bad [(12,
      8, 255), (20, 1, 1)] = false ∧ (c.buf 12 20).bad 32 = false) ∧ s.dev.noEntropy = false) ∧
      (c.buf 12 20).fab = true) ∧
    (∃ (r : Fin 4096), ∃ (s : State), ∃ (c : Cmd), s.dev.front (↑r) 304 = some c ∧ (c.badNone = false ∧ c.bad [(12, 8,
      255), (20, 1, 1)] = false ∧ (c.buf 12 20).bad 32 = false) ∧ s.dev.noEntropy = true) ∧
    (∃ (r : Fin 4096), ∃ (s : State), ∃ (c : Cmd), s.dev.front (↑r) 305 = some c ∧ ((c.badNone = false ∧ c.bad [(12,
      16, 255), (28, 1, 1)] = false ∧ (c.buf 12 28).bad 224 = false ∧
      ({ fab := bit (c.byte 28) 0, addr := c.get 20 8 } : Buf).bad 192 = false) ∧ s.dev.noEntropy = false ∧
      s.dev.freeSessions ≠ []) ∧ (c.buf 12 28).fab = false ∧ s.dev.hostOk = false) ∧
    (∃ (r : Fin 4096), ∃ (s : State), ∃ (c : Cmd), s.dev.front (↑r) 305 = some c ∧ ((c.badNone = false ∧ c.bad [(12,
      16, 255), (28, 1, 1)] = false ∧ (c.buf 12 28).bad 224 = false ∧
      ({ fab := bit (c.byte 28) 0, addr := c.get 20 8 } : Buf).bad 192 = false) ∧ s.dev.noEntropy = false ∧
      s.dev.freeSessions ≠ []) ∧ (c.buf 12 28).fab = false ∧ s.dev.hostOk = true ∧ (s.mem,
      s.dev).snd.sessionGood (s.mem.hostSpan (c.buf 12 28).addr 224) = false) ∧
    (∃ (r : Fin 4096), ∃ (s : State), ∃ (c : Cmd), s.dev.front (↑r) 305 = some c ∧ ((c.badNone = false ∧ c.bad [(12,
      16, 255), (28, 1, 1)] = false ∧ (c.buf 12 28).bad 224 = false ∧
      ({ fab := bit (c.byte 28) 0, addr := c.get 20 8 } : Buf).bad 192 = false) ∧ s.dev.noEntropy = false ∧
      s.dev.freeSessions ≠ []) ∧ (c.buf 12 28).fab = false ∧ s.dev.hostOk = true ∧ (s.mem,
      s.dev).snd.sessionGood (s.mem.hostSpan (c.buf 12 28).addr 224) = true ∧
      ({ fab := bit (c.byte 28) 0, addr := c.get 20 8 } : Buf).fab = false ∧ (s.mem, s.dev).snd.hostOk = true) ∧
    (∃ (r : Fin 4096), ∃ (s : State), ∃ (c : Cmd), s.dev.front (↑r) 305 = some c ∧ ((c.badNone = false ∧ c.bad [(12,
      16, 255), (28, 1, 1)] = false ∧ (c.buf 12 28).bad 224 = false ∧
      ({ fab := bit (c.byte 28) 0, addr := c.get 20 8 } : Buf).bad 192 = false) ∧ s.dev.noEntropy = false ∧
      s.dev.freeSessions ≠ []) ∧ (c.buf 12 28).fab = true ∧ (ladRead (224 + 1) (c.buf 12 28).addr 224 (s.mem,
      s.dev)).snd.snd = none ∧ (ladRead (224 + 1) (c.buf 12 28).addr 224 (s.mem,
      s.dev)).fst.snd.sessionGood (ladRead (224 + 1) (c.buf 12 28).addr 224 (s.mem, s.dev)).snd.fst = false) ∧
    (∃ (r : Fin 4096), ∃ (s : State), ∃ (c : Cmd), s.dev.front (↑r) 305 = some c ∧ ((c.badNone = false ∧ c.bad [(12,
      16, 255), (28, 1, 1)] = false ∧ (c.buf 12 28).bad 224 = false ∧
      ({ fab := bit (c.byte 28) 0, addr := c.get 20 8 } : Buf).bad 192 = false) ∧ s.dev.noEntropy = false ∧
      s.dev.freeSessions ≠ []) ∧ (c.buf 12 28).fab = true ∧ (ladRead (224 + 1) (c.buf 12 28).addr 224 (s.mem,
      s.dev)).snd.snd = none ∧ (ladRead (224 + 1) (c.buf 12 28).addr 224 (s.mem,
      s.dev)).fst.snd.sessionGood (ladRead (224 + 1) (c.buf 12 28).addr 224 (s.mem, s.dev)).snd.fst = true ∧
      ({ fab := bit (c.byte 28) 0, addr := c.get 20 8 } : Buf).fab = true) ∧
    (∃ (r : Fin 4096), ∃ (s : State), ∃ (c : Cmd), s.dev.front (↑r) 305 = some c ∧ (c.badNone = false ∧ c.bad [(12,
      16, 255), (28, 1, 1)] = false ∧ (c.buf 12 28).bad 224 = false ∧
      ({ fab := bit (c.byte 28) 0, addr := c.get 20 8 } : Buf).bad 192 = false) ∧ (s.dev.noEntropy = true ∨
      s.dev.freeSessions = [])) ∧
    (∃ (r : Fin 4096), ∃ (s : State), ∃ (c : Cmd), s.dev.front (↑r) 288 = some c ∧ ↑r = 0 ∧ c.badNone = false ∧
      c.bad [(12, 1, 255)] = false ∧ c.byte 12 = 2) :=
  ⟨⟨3, (cmds 3 [desc 0x130 0 0 7 0 [(13, 16)]] (fun d => (d).setB HLM_STAT HLM_STAT_ent_ok true)), _, rfl, by decide⟩,
   ⟨3, (cmds 3 [desc 0x130 0 0 7 0 [(15, 128), (20, 1)]] (fun d => (d).setB HLM_STAT HLM_STAT_ent_ok true)), _, rfl,
     by decide⟩,
   ⟨3, (cmds 3 [desc 0x130 0 0 7 0 [(13, 16)]] (fun d => (d).setB HLM_STAT HLM_STAT_ent_ok false)), _, rfl,
     by decide⟩,
   ⟨3, (cmds 3 [desc 0x131 0 0 7 0 [(13, 16), (21,
     32)]] (fun d => ((d.modPcie fun p => { p with busMaster := false }).setB HLM_STAT HLM_STAT_ent_ok true).modHlm fun h => { h with nonce := some (List.replicate 32 0) })),
     _, rfl, by decide⟩,
   ⟨3, (cmds 3 [desc 0x131 0 0 7 0 [(13, 16), (21,
     32)]] (fun d => ((d.wr (ING_BANK_OWN 0) 8).modHlm fun h => { h with nonce := none }))), _, rfl, by decide⟩,
   ⟨3, (cmds 3 [desc 0x131 0 0 7 0 [(13, 16), (21,
     32)]] (fun d => ((d).setB HLM_STAT HLM_STAT_ent_ok true).modHlm fun h => { h with nonce := some (List.replicate 32 0) })),
     _, rfl, by decide⟩,
   ⟨3, (cmds 3 [desc 0x131 0 0 7 0 [(13, 16), (15, 1), (21, 32), (23, 1), (28,
     1)]] (fun d => ((d.wr (ING_BANK_OWN 0) 8).modHlm fun h => { h with nonce := none }))), _, rfl, by decide⟩,
   ⟨3, (cmds 3 [desc 0x131 0 0 7 0 [(15, 128), (21, 16), (23, 128), (28,
     1)]] (fun d => (((d.wr MEM_STAT 0xFFFFFFFF).wr (ING_BANK_OWN 0) 8).setB HLM_STAT HLM_STAT_ent_ok true).modHlm fun h => { h with nonce := some (List.replicate 32 0) })),
     _, rfl, by decide⟩,
   ⟨3, (cmds 3 [desc 0x131 0 0 7 0 [(13, 16), (21,
     32)]] (fun d => d.modHlm fun h => { h with nonce := some (List.replicate 32 0), sess := ⟨(List.range 15).map fun i => (i + 1, some ⟨5, []⟩)⟩ })),
     _, rfl, by decide⟩,
   ⟨0, (cmds 0 [desc 0x120 0 0 7 0 [(12, 2)]] (id)), _, rfl, by decide⟩⟩

theorem meets_SystemCommands_4 :
    (∃ (r : Fin 4096), ∃ (s : State), ∃ (c : Cmd), s.dev.front (↑r) 288 = some c ∧ ↑r = 0 ∧ c.badNone = false ∧
      c.bad [(12, 1, 255)] = false ∧ c.byte 12 = 3) ∧
    (∃ (r : Fin 4096), ↑r = 0 ∧ ∃ (s : State), ∃ (c : Cmd), s.dev.front (↑r) 288 = some c ∧ c.byte 12 = 1 ∧
      c.bad [(12, 1, 255)] = false ∧ s.dev.badCluster c.tgt = false ∧ s.dev.clusterFree c.tgt ∧
      s.dev.atRest c.tgt = true) ∧
    (∃ (r : Fin 4096), ↑r = 0 ∧ ∃ (s : State), ∃ (c : Cmd), s.dev.front (↑r) 288 = some c ∧ c.byte 12 = 1 ∧
      c.bad [(12, 1, 255)] = false ∧ s.dev.badCluster c.tgt = false ∧ s.dev.clusterFree c.tgt ∧
      s.dev.atRest c.tgt = false) :=
  ⟨⟨0, (cmds 0 [desc 0x120 0 0 7 0 [(12, 3)]] (id)), _, rfl, by decide⟩,
   ⟨0, by decide, (cmds 0 [desc 0x120 0 0 7 0 [(12, 1)]] (id)), _, rfl, by decide, by decide, by decide,
     by unfold Dev.clusterFree; decide, by decide⟩,
   ⟨0, by decide, (cmds 0 [desc 0x120 0 0 7 0 [(12, 1)]] (fun d => (d.setAxSt 3 stEnabled))), _, rfl, by decide,
     by decide, by decide, by unfold Dev.clusterFree; decide, by decide⟩⟩

theorem meets_AxisCommands_1 :
    (∃ (r : Fin 4096), ∃ (s : State), ∃ (c : Cmd), s.dev.front (↑r) 515 = some c ∧ ((s.dev.badAxis c.tgt = false ∧
      s.dev.clusterFree (axCl c.tgt)) ∧ c.bad [(12, 1, 255), (14, 2, 255)] = false ∧ c.byte 12 = 1) ∧
      (s.dev.axBusy c.tgt = false ∧ s.dev.rd (AXS_CAUSE_ACT c.tgt) = 0) ∧ s.dev.axSt c.tgt = stAdmitted) ∧
    (∃ (r : Fin 4096), ∃ (s : State), ∃ (c : Cmd), s.dev.front (↑r) 515 = some c ∧ ((s.dev.badAxis c.tgt = false ∧
      s.dev.clusterFree (axCl c.tgt)) ∧ c.bad [(12, 1, 255), (14, 2, 255)] = false ∧ c.byte 12 = 2) ∧
      (s.dev.axBusy c.tgt = false ∧ s.dev.rd (AXS_CAUSE_ACT c.tgt) = 0) ∧ (s.dev.axSt c.tgt = stAdmitted ∨
      s.dev.axSt c.tgt = stArmed)) ∧
    (∃ (r : Fin 4096), ∃ (s : State), ∃ (c : Cmd), s.dev.front (↑r) 515 = some c ∧ ((s.dev.badAxis c.tgt = false ∧
      s.dev.clusterFree (axCl c.tgt)) ∧ c.bad [(12, 1, 255), (14, 2, 255)] = false ∧ c.byte 12 = 1) ∧
      s.dev.axBusy c.tgt = true) ∧
    (∃ (r : Fin 4096), ∃ (s : State), ∃ (c : Cmd), s.dev.front (↑r) 515 = some c ∧ ((s.dev.badAxis c.tgt = false ∧
      s.dev.clusterFree (axCl c.tgt)) ∧ c.bad [(12, 1, 255), (14, 2, 255)] = false ∧ c.byte 12 = 1) ∧
      s.dev.axBusy c.tgt = false ∧ (s.dev.rd (AXS_CAUSE_ACT c.tgt) ≠ 0 ∨ s.dev.axSt c.tgt ≠ stAdmitted)) ∧
    (∃ (r : Fin 4096), ∃ (s : State), ∃ (c : Cmd), s.dev.front (↑r) 515 = some c ∧ ((s.dev.badAxis c.tgt = false ∧
      s.dev.clusterFree (axCl c.tgt)) ∧ c.bad [(12, 1, 255), (14, 2, 255)] = false ∧ c.byte 12 = 2) ∧
      s.dev.axBusy c.tgt = false ∧ (s.dev.rd (AXS_CAUSE_ACT c.tgt) ≠ 0 ∨ s.dev.axSt c.tgt ≠ stAdmitted ∧
      s.dev.axSt c.tgt ≠ stArmed)) ∧
    (∃ (r : Fin 4096), ∃ (s : State), ∃ (c : Cmd), s.dev.front (↑r) 516 = some c ∧ ((s.dev.badAxis c.tgt = false ∧
      s.dev.clusterFree (axCl c.tgt)) ∧ c.bad [(12, 2, 255)] = false ∧ c.byte 12 = 1 ∧ (c.byte 13 = 1 ∨
      c.byte 13 = 2)) ∧ s.dev.axBusy c.tgt = false ∧ s.dev.axSt c.tgt = stArmed) ∧
    (∃ (r : Fin 4096), ∃ (s : State), ∃ (c : Cmd), s.dev.front (↑r) 516 = some c ∧ ((s.dev.badAxis c.tgt = false ∧
      s.dev.clusterFree (axCl c.tgt)) ∧ c.bad [(12, 2, 255)] = false ∧ c.byte 12 = 1 ∧ (c.byte 13 = 1 ∨
      c.byte 13 = 2)) ∧ s.dev.axSt c.tgt = stFaulted ∧ (s.dev.axis c.tgt).retiring = false ∧
      s.dev.flag (AXS_STATE c.tgt) AXS_STATE_resp_done = true ∧ s.dev.rd (AXS_CAUSE_ACT c.tgt) = 0) ∧
    (∃ (r : Fin 4096), ∃ (s : State), ∃ (c : Cmd), s.dev.front (↑r) 516 = some c ∧ ((s.dev.badAxis c.tgt = false ∧
      s.dev.clusterFree (axCl c.tgt)) ∧ c.bad [(12, 2, 255)] = false ∧ c.byte 12 = 1 ∧ (c.byte 13 = 1 ∨
      c.byte 13 = 2)) ∧ s.dev.axSt c.tgt = stFaulted ∧ (s.dev.axis c.tgt).retiring = false ∧
      s.dev.flag (AXS_STATE c.tgt) AXS_STATE_resp_done = false) ∧
    (∃ (r : Fin 4096), ∃ (s : State), ∃ (c : Cmd), s.dev.front (↑r) 516 = some c ∧ ((s.dev.badAxis c.tgt = false ∧
      s.dev.clusterFree (axCl c.tgt)) ∧ c.bad [(12, 2, 255)] = false ∧ c.byte 12 = 1 ∧ (c.byte 13 = 1 ∨
      c.byte 13 = 2)) ∧ s.dev.axBusy c.tgt = false ∧ s.dev.axSt c.tgt ≠ stArmed ∧ s.dev.axSt c.tgt ≠ stEnabled ∧
      s.dev.axSt c.tgt ≠ stFaulted) ∧
    (∃ (r : Fin 4096), ∃ (s : State), ∃ (c : Cmd), s.dev.front (↑r) 516 = some c ∧ ((s.dev.badAxis c.tgt = false ∧
      s.dev.clusterFree (axCl c.tgt)) ∧ c.bad [(12, 2, 255)] = false ∧ c.byte 12 = 2 ∧ (c.byte 13 = 1 ∨
      c.byte 13 = 2)) ∧ s.dev.axBusy c.tgt = false ∧ s.dev.axSt c.tgt = stArmed) :=
  ⟨⟨3, (cA 1 [desc 0x203 0 0 7 0 [(12, 1)]] (id)), _, rfl, by unfold Dev.clusterFree; decide, by decide⟩,
   ⟨3, (cA 1 [desc 0x203 0 0 7 0 [(12, 2), (14, 5)]] (id)), _, rfl, by unfold Dev.clusterFree; decide, by decide⟩,
   ⟨3, (cA 0 [desc 0x203 0 0 7 0 [(12, 1)]] (fun d => d.setB (AXS_STATE 0) AXS_STATE_ramp true)), _, rfl,
     by unfold Dev.clusterFree; decide, by decide⟩,
   ⟨3, (cA 0 [desc 0x203 0 0 7 0 [(12, 1)]] (id)), _, rfl, by unfold Dev.clusterFree; decide, by decide⟩,
   ⟨3, (cA 0 [desc 0x203 0 0 7 0 [(12, 2), (14, 5)]] (id)), _, rfl, by unfold Dev.clusterFree; decide, by decide⟩,
   ⟨3, (cA 2 [desc 0x204 0 0 7 0 [(12, 1), (13, 1)]] (id)), _, rfl, by unfold Dev.clusterFree; decide, by decide⟩,
   ⟨3, (cA 4 [desc 0x204 0 0 7 0 [(12, 1), (13, 1)]] (fun d => d.setB (AXS_STATE 0) AXS_STATE_resp_done true)), _,
     rfl, by unfold Dev.clusterFree; decide, by decide⟩,
   ⟨3, (cA 4 [desc 0x204 0 0 7 0 [(12, 1), (13, 1)]] (id)), _, rfl, by unfold Dev.clusterFree; decide, by decide⟩,
   ⟨3, (cA 0 [desc 0x204 0 0 7 0 [(12, 1), (13, 1)]] (id)), _, rfl, by unfold Dev.clusterFree; decide, by decide⟩,
   ⟨3, (cA 2 [desc 0x204 0 0 7 0 [(12, 2), (13, 1)]] (id)), _, rfl, by unfold Dev.clusterFree; decide, by decide⟩⟩

theorem meets_AxisCommands_2 :
    (∃ (r : Fin 4096), ∃ (s : State), ∃ (c : Cmd), s.dev.front (↑r) 516 = some c ∧ ((s.dev.badAxis c.tgt = false ∧
      s.dev.clusterFree (axCl c.tgt)) ∧ c.bad [(12, 2, 255)] = false ∧ c.byte 12 = 2 ∧ (c.byte 13 = 1 ∨
      c.byte 13 = 2)) ∧ s.dev.axSt c.tgt = stFaulted ∧ (s.dev.axis c.tgt).retiring = false ∧
      s.dev.flag (AXS_STATE c.tgt) AXS_STATE_resp_done = true ∧ s.dev.rd (AXS_CAUSE_ACT c.tgt) = 0) ∧
    (∃ (r : Fin 4096), ∃ (s : State), ∃ (c : Cmd), s.dev.front (↑r) 516 = some c ∧ ((s.dev.badAxis c.tgt = false ∧
      s.dev.clusterFree (axCl c.tgt)) ∧ c.bad [(12, 2, 255)] = false ∧ c.byte 12 = 2 ∧ (c.byte 13 = 1 ∨
      c.byte 13 = 2)) ∧ s.dev.axSt c.tgt = stFaulted ∧ (s.dev.axis c.tgt).retiring = false ∧
      s.dev.flag (AXS_STATE c.tgt) AXS_STATE_resp_done = false) ∧
    (∃ (r : Fin 4096), ∃ (s : State), ∃ (c : Cmd), s.dev.front (↑r) 516 = some c ∧ ((s.dev.badAxis c.tgt = false ∧
      s.dev.clusterFree (axCl c.tgt)) ∧ c.bad [(12, 2, 255)] = false ∧ c.byte 12 = 2 ∧ (c.byte 13 = 1 ∨
      c.byte 13 = 2)) ∧ s.dev.axBusy c.tgt = false ∧ s.dev.axSt c.tgt ≠ stArmed ∧ s.dev.axSt c.tgt ≠ stEnabled ∧
      s.dev.axSt c.tgt ≠ stFaulted) ∧
    (∃ (r : Fin 4096), ∃ (s : State), ∃ (c : Cmd), s.dev.front (↑r) 516 = some c ∧ ((s.dev.badAxis c.tgt = false ∧
      s.dev.clusterFree (axCl c.tgt)) ∧ c.bad [(12, 2, 255)] = false ∧ c.byte 12 = 2 ∧ (c.byte 13 = 1 ∨
      c.byte 13 = 2)) ∧ s.dev.axBusy c.tgt = false ∧ s.dev.axSt c.tgt = stEnabled) ∧
    (∃ (r : Fin 4096), ∃ (s : State), ∃ (c : Cmd), s.dev.front (↑r) 516 = some c ∧ ((s.dev.badAxis c.tgt = false ∧
      s.dev.clusterFree (axCl c.tgt)) ∧ c.bad [(12, 2, 255)] = false ∧ c.byte 12 = 1 ∧ (c.byte 13 = 1 ∨
      c.byte 13 = 2)) ∧ s.dev.axBusy c.tgt = false ∧ s.dev.axSt c.tgt = stEnabled ∧
      s.dev.posEnabled c.tgt = true ∧ s.dev.rd (AXS_RAMP_DECEL c.tgt) ≠ 0) ∧
    (∃ (r : Fin 4096), ∃ (s : State), ∃ (c : Cmd), s.dev.front (↑r) 516 = some c ∧ ((s.dev.badAxis c.tgt = false ∧
      s.dev.clusterFree (axCl c.tgt)) ∧ c.bad [(12, 2, 255)] = false ∧ c.byte 12 = 1 ∧ (c.byte 13 = 1 ∨
      c.byte 13 = 2)) ∧ s.dev.axBusy c.tgt = false ∧ s.dev.axSt c.tgt = stEnabled ∧
      (s.dev.posEnabled c.tgt = false ∨ s.dev.rd (AXS_RAMP_DECEL c.tgt) = 0)) ∧
    (∃ (r : Fin 4096), ∃ (s : State), ∃ (c : Cmd), s.dev.front (↑r) 514 = some c ∧ ((s.dev.badAxis c.tgt = false ∧
      s.dev.clusterFree (axCl c.tgt)) ∧ c.bad [(12, 1, 255)] = false ∧ (c.byte 12 = 2 ∨ c.byte 12 = 4)) ∧
      (s.dev.axis c.tgt).retiring = false ∧ (s.dev.axSt c.tgt = stAdmitted ∨ s.dev.axSt c.tgt = stArmed)) ∧
    (∃ (r : Fin 4096), ∃ (s : State), ∃ (c : Cmd), s.dev.front (↑r) 514 = some c ∧ ((s.dev.badAxis c.tgt = false ∧
      s.dev.clusterFree (axCl c.tgt)) ∧ c.bad [(12, 1, 255)] = false ∧ (c.byte 12 = 2 ∨ c.byte 12 = 4)) ∧
      (s.dev.axis c.tgt).retiring = false ∧ s.dev.axSt c.tgt = stEnabled ∧ c.byte 12 = 4) ∧
    (∃ (r : Fin 4096), ∃ (s : State), ∃ (c : Cmd), s.dev.front (↑r) 514 = some c ∧ ((s.dev.badAxis c.tgt = false ∧
      s.dev.clusterFree (axCl c.tgt)) ∧ c.bad [(12, 1, 255)] = false ∧ (c.byte 12 = 2 ∨ c.byte 12 = 4)) ∧
      (s.dev.axis c.tgt).retiring = true) ∧
    (∃ (r : Fin 4096), ∃ (s : State), ∃ (c : Cmd), s.dev.front (↑r) 514 = some c ∧ ((s.dev.badAxis c.tgt = false ∧
      s.dev.clusterFree (axCl c.tgt)) ∧ c.bad [(12, 1, 255)] = false ∧ (c.byte 12 = 2 ∨ c.byte 12 = 4)) ∧
      (s.dev.axis c.tgt).retiring = false ∧ (s.dev.axSt c.tgt = stRetired ∨ s.dev.axSt c.tgt = stHalted)) :=
  ⟨⟨3, (cA 4 [desc 0x204 0 0 7 0 [(12, 2), (13, 1)]] (fun d => d.setB (AXS_STATE 0) AXS_STATE_resp_done true)), _,
     rfl, by unfold Dev.clusterFree; decide, by decide⟩,
   ⟨3, (cA 4 [desc 0x204 0 0 7 0 [(12, 2), (13, 1)]] (id)), _, rfl, by unfold Dev.clusterFree; decide, by decide⟩,
   ⟨3, (cA 0 [desc 0x204 0 0 7 0 [(12, 2), (13, 1)]] (id)), _, rfl, by unfold Dev.clusterFree; decide, by decide⟩,
   ⟨3, (cA 3 [desc 0x204 0 0 7 0 [(12, 2), (13, 1)]] (id)), _, rfl, by unfold Dev.clusterFree; decide, by decide⟩,
   ⟨3, (cA 3 [desc 0x204 0 0 7 0 [(12, 1), (13, 1)]] (fun d => d.wr (AXS_RAMP_DECEL 0) 500)), _, rfl,
     by unfold Dev.clusterFree; decide, by decide⟩,
   ⟨3, (cA 3 [desc 0x204 0 0 7 0 [(12, 1), (13, 1)]] (id)), _, rfl, by unfold Dev.clusterFree; decide, by decide⟩,
   ⟨3, (cA 1 [desc 0x202 0 0 7 0 [(12, 2)]] (id)), _, rfl, by unfold Dev.clusterFree; decide, by decide⟩,
   ⟨3, (cA 3 [desc 0x202 0 0 7 0 [(12, 4)]] (id)), _, rfl, by unfold Dev.clusterFree; decide, by decide⟩,
   ⟨3, (cA 0 [desc 0x202 0 0 7 0 [(12, 2)]] (fun d => d.modAxis 0 fun x => { x with retiring := true })), _, rfl,
     by unfold Dev.clusterFree; decide, by decide⟩,
   ⟨3, (cA 0 [desc 0x202 0 0 7 0 [(12, 2)]] (id)), _, rfl, by unfold Dev.clusterFree; decide, by decide⟩⟩

theorem meets_AxisCommands_3 :
    (∃ (r : Fin 4096), ∃ (s : State), ∃ (c : Cmd), s.dev.front (↑r) 513 = some c ∧ (∀ (x : AdmitRec),
      x ∈ List.map admitRec c.descs → s.dev.badAxis x.axis = false ∧ badAdmit x = false ∧
      axCl x.axis = axCl c.tgt ∧ s.dev.axBusy x.axis = false ∧ s.dev.admitDenied x = false) ∧
      (c.descs.zipIdx.any fun (e : List Byte × Nat) => reservedSet (dAuth e.fst && e.snd == c.descs.length - 1) e.fst 12 admitBits) = false ∧
      (List.map AdmitRec.axis (List.map admitRec c.descs)).Nodup ∧ s.dev.clusterFree (axCl c.tgt) ∧
      ∃ (no : Nat × Nat × Nat),
      (List.foldl (fun (z : Dev) (x : AdmitRec) => stageAxis x z) s.dev (List.map admitRec c.descs)).admission ((List.foldl (fun (z : Dev) (x : AdmitRec) => stageAxis x z) s.dev (List.map admitRec c.descs)).lanesTouched (List.map admitRec c.descs)) = some no) ∧
    (∃ (r : Fin 4096), ∃ (s : State), ∃ (c : Cmd), s.dev.front (↑r) 513 = some c ∧ (∀ (x : AdmitRec),
      x ∈ List.map admitRec c.descs → s.dev.badAxis x.axis = false ∧ badAdmit x = false ∧
      axCl x.axis = axCl c.tgt ∧ s.dev.axBusy x.axis = false ∧ s.dev.admitDenied x = false) ∧
      (c.descs.zipIdx.any fun (e : List Byte × Nat) => reservedSet (dAuth e.fst && e.snd == c.descs.length - 1) e.fst 12 admitBits) = false ∧
      (List.map AdmitRec.axis (List.map admitRec c.descs)).Nodup ∧ s.dev.clusterFree (axCl c.tgt) ∧
      (List.foldl (fun (z : Dev) (x : AdmitRec) => stageAxis x z) s.dev (List.map admitRec c.descs)).admission ((List.foldl (fun (z : Dev) (x : AdmitRec) => stageAxis x z) s.dev (List.map admitRec c.descs)).lanesTouched (List.map admitRec c.descs)) = none) ∧
    (∃ (r : Fin 4096), ∃ (s : State), ∃ (c : Cmd), s.dev.front (↑r) 528 = some c ∧ ((c.tgt < 16 ∧
      s.dev.badCluster (c.tgt / 4) = false ∧ s.dev.clusterFree (c.tgt / 4) ∧ c.bad [(12, 14, 255), (26, 1, 3),
      (27, 1, 3), (28, 1, 3)] = false ∧ 264 ≤ c.get 20 4 ∧ c.get 20 4 ≤ 4352 ∧ c.get 20 4 % 8 = 0 ∧
      c.get 24 2 + (c.get 20 4 - 256) / 8 ≤ 2048 ∧ c.byte 28 ≠ 3 ∧ (c.buf 12 26).bad (c.get 20 4) = false ∧
      ((s.dev.lane c.tgt).paired = true → (s.dev.lane c.tgt).primary = true) ∧ ∀ (n : Nat),
      n ∈ s.dev.lawLanes c.tgt → ∀ (i : Nat),
      i < (c.get 20 4 - 256) / 8 → s.dev.lawBound n (c.get 24 2 + i) = false) ∧ bit (c.byte 26) 1 = false) ∧
      (c.buf 12 26).fab = false ∧ s.dev.hostOk = false) ∧
    (∃ (r : Fin 4096), ∃ (s : State), ∃ (c : Cmd), s.dev.front (↑r) 528 = some c ∧ ((c.tgt < 16 ∧
      s.dev.badCluster (c.tgt / 4) = false ∧ s.dev.clusterFree (c.tgt / 4) ∧ c.bad [(12, 14, 255), (26, 1, 3),
      (27, 1, 3), (28, 1, 3)] = false ∧ 264 ≤ c.get 20 4 ∧ c.get 20 4 ≤ 4352 ∧ c.get 20 4 % 8 = 0 ∧
      c.get 24 2 + (c.get 20 4 - 256) / 8 ≤ 2048 ∧ c.byte 28 ≠ 3 ∧ (c.buf 12 26).bad (c.get 20 4) = false ∧
      ((s.dev.lane c.tgt).paired = true → (s.dev.lane c.tgt).primary = true) ∧ ∀ (n : Nat),
      n ∈ s.dev.lawLanes c.tgt → ∀ (i : Nat),
      i < (c.get 20 4 - 256) / 8 → s.dev.lawBound n (c.get 24 2 + i) = false) ∧ bit (c.byte 26) 1 = false) ∧
      (c.buf 12 26).fab = true ∧ ∃ (code : Nat),
      (ladRead ((fun (c : Cmd) => c.get 20 4) c + 1) ((fun (c : Cmd) => c.buf 12 26) c).addr ((fun (c : Cmd) => c.get 20 4) c) (s.mem,
      s.dev)).snd.snd = some code) ∧
    (∃ (r : Fin 4096), ∃ (s : State), ∃ (c : Cmd), s.dev.front (↑r) 529 = some c ∧ (s.dev.badAxis c.tgt = false ∧
      s.dev.clusterFree (axCl c.tgt) ∧ s.dev.axSt c.tgt ≠ stRetired ∧
      reservedSet (dAuth c.d0 && (List.drop 1 c.descs).isEmpty) c.d0 12 [(12, 3, 255), (15, 1, 135), (16, 32,
      255)] = false ∧
      ((List.drop 1 c.descs).zipIdx.any fun (e : List Byte × Nat) => reservedSet (dAuth e.fst && e.snd + 1 == (List.drop 1 c.descs).length) e.fst 8 [(8,
      3, 255), (11, 1, 135), (12, 32, 255)]) = false ∧ (∀ (g : GainRec),
      g ∈ gainRec c.d0 12 :: List.map (fun (b : List Byte) => gainRec b 8) (List.drop 1 c.descs) → badGain g = false) ∧
      integralsOk (s.dev.gainThen (s.dev.axLane c.tgt) (s.dev.axSlotNo c.tgt) (gainWords (gainRec c.d0 12 :: List.map (fun (b : List Byte) => gainRec b 8) (List.drop 1 c.descs)))) (s.dev.axSlotNo c.tgt) ((List.filterMap GainRec.top (gainRec c.d0 12 :: List.map (fun (b : List Byte) => gainRec b 8) (List.drop 1 c.descs))).getLast?.getD (s.dev.topThen c.tgt)) = true) ∧
      ∀ (n : Nat), n ∈ s.dev.axLanes c.tgt → s.dev.slotOwner n (s.dev.axSlotNo c.tgt) = some c.tgt ∧
      s.dev.lawsRun c.tgt = false) ∧
    (∃ (r : Fin 4096), ∃ (s : State), ∃ (c : Cmd), s.dev.front (↑r) 529 = some c ∧ (s.dev.badAxis c.tgt = false ∧
      s.dev.clusterFree (axCl c.tgt) ∧ s.dev.axSt c.tgt ≠ stRetired ∧
      reservedSet (dAuth c.d0 && (List.drop 1 c.descs).isEmpty) c.d0 12 [(12, 3, 255), (15, 1, 135), (16, 32,
      255)] = false ∧
      ((List.drop 1 c.descs).zipIdx.any fun (e : List Byte × Nat) => reservedSet (dAuth e.fst && e.snd + 1 == (List.drop 1 c.descs).length) e.fst 8 [(8,
      3, 255), (11, 1, 135), (12, 32, 255)]) = false ∧ (∀ (g : GainRec),
      g ∈ gainRec c.d0 12 :: List.map (fun (b : List Byte) => gainRec b 8) (List.drop 1 c.descs) → badGain g = false) ∧
      integralsOk (s.dev.gainThen (s.dev.axLane c.tgt) (s.dev.axSlotNo c.tgt) (gainWords (gainRec c.d0 12 :: List.map (fun (b : List Byte) => gainRec b 8) (List.drop 1 c.descs)))) (s.dev.axSlotNo c.tgt) ((List.filterMap GainRec.top (gainRec c.d0 12 :: List.map (fun (b : List Byte) => gainRec b 8) (List.drop 1 c.descs))).getLast?.getD (s.dev.topThen c.tgt)) = true) ∧
      ∀ (n : Nat), n ∈ s.dev.axLanes c.tgt → s.dev.slotOwner n (s.dev.axSlotNo c.tgt) = some c.tgt ∧
      s.dev.lawsRun c.tgt = true) ∧
    (∃ (r : Fin 4096), ∃ (s : State), ∃ (c : Cmd), s.dev.front (↑r) 529 = some c ∧ s.dev.badAxis c.tgt = false ∧
      ∃ (g : GainRec),
      g ∈ gainRec c.d0 12 :: List.map (fun (b : List Byte) => gainRec b 8) (List.drop 1 c.descs) ∧
      badGain g = true) :=
  ⟨⟨3, (cA 0 [desc 0x201 0 0 7 0 [(12, 1), (13, 2), (18, 2), (19, 1), (28, 208), (29, 7), (38, 100)]] (id)), _, rfl,
     by decide, by decide, by decide, by unfold Dev.clusterFree; decide, _, rfl⟩,
   ⟨3, (cA 0 [desc 0x201 0 0 7 0 [(12, 1), (13, 2), (18, 1), (19, 1), (28, 208), (29, 7), (38, 100)]] (id)), _, rfl,
     by decide, by decide, by decide, by unfold Dev.clusterFree; decide, by decide⟩,
   ⟨3,
     (withMem (fun m => (m.setHost 0x9000 (lawImg [lw 1 0 0 0 0 0 0 false false] 3 1)).setSpan 0x1001000 (lawImg [lw 1 0 0 0 0 0 0 false false] 3 1)) (cA 1 [desc 0x210 0 0 7 1 [(13,
     144), (20, 8), (21, 1), (24, 100)]] (fun d => d.modPcie fun p => { p with busMaster := false }))), _, rfl,
     by unfold Dev.clusterFree; decide, by decide⟩,
   ⟨3,
     (withMem (fun m => (m.setHost 0x9000 (lawImg [lw 1 0 0 0 0 0 0 false false] 3 1)).setSpan 0x1001000 (lawImg [lw 1 0 0 0 0 0 0 false false] 3 1)) (cA 1 [desc 0x210 0 0 7 1 [(13,
     16), (15, 1), (20, 8), (21, 1), (24, 100), (26, 1)]] (id))), _, rfl, by unfold Dev.clusterFree; decide,
     by decide, _, rfl⟩,
   ⟨3, (cA 1 [desc 0x211 0 0 7 0 [(12, 1), (14, 2), (16, 120), (17, 86), (18, 52), (19, 18), (20, 9)]] (id)), _, rfl,
     by unfold Dev.clusterFree; decide, by decide⟩,
   ⟨3, (cA 3 [desc 0x211 0 0 7 0 [(12, 1), (14, 2), (16, 120), (17, 86), (18, 52), (19, 18), (20, 9)]] (id)), _, rfl,
     by unfold Dev.clusterFree; decide, by decide⟩,
   ⟨3, (cA 0 [desc 0x211 0 0 7 0 [(12, 1), (13, 30), (14, 4), (16, 120), (17, 86), (18, 52), (19, 18), (20,
     9)]] (id)), _, rfl, by decide, _, List.mem_cons_self, by decide⟩⟩

theorem meets_MotionCommands_1 :
    (∃ (r : Fin 4096), ∃ (s : State), ∃ (c : Cmd), s.dev.front (↑r) 769 = some c ∧ (s.dev.badAxis c.tgt = false ∧
      s.dev.clusterFree (axCl c.tgt)) ∧ c.bad [(12, 32, 255)] = false ∧
      s.dev.segCheck c.tgt (segOf (List.take 32 (List.drop 12 c.d0))) = none ∧ (s.dev.axSt c.tgt ≠ stRetired ∧
      s.dev.axSt c.tgt ≠ stFaulted) ∧ s.dev.streamed c.tgt = false ∧ (s.dev.interp c.tgt).len < 64) ∧
    (∃ (r : Fin 4096), ∃ (s : State), ∃ (c : Cmd), s.dev.front (↑r) 769 = some c ∧ (s.dev.badAxis c.tgt = false ∧
      s.dev.clusterFree (axCl c.tgt)) ∧ c.bad [(12, 32, 255)] = false ∧
      s.dev.segCheck c.tgt (segOf (List.take 32 (List.drop 12 c.d0))) = none ∧ (s.dev.axSt c.tgt = stRetired ∨
      s.dev.axSt c.tgt = stFaulted ∨ s.dev.streamed c.tgt = true)) ∧
    (∃ (r : Fin 4096), ∃ (s : State), ∃ (c : Cmd), s.dev.front (↑r) 769 = some c ∧ (s.dev.badAxis c.tgt = false ∧
      s.dev.clusterFree (axCl c.tgt)) ∧ c.bad [(12, 32, 255)] = false ∧
      s.dev.segCheck c.tgt (segOf (List.take 32 (List.drop 12 c.d0))) = none ∧ (s.dev.axSt c.tgt ≠ stRetired ∧
      s.dev.axSt c.tgt ≠ stFaulted) ∧ s.dev.streamed c.tgt = false ∧ 64 ≤ (s.dev.interp c.tgt).len) ∧
    (∃ (r : Fin 4096), ∃ (s : State), ∃ (c : Cmd), s.dev.front (↑r) 769 = some c ∧ s.dev.badAxis c.tgt = false ∧
      s.dev.segCheck c.tgt (segOf (List.take 32 (List.drop 12 c.d0))) = some stBadParam) ∧
    (∃ (r : Fin 4096), ∃ (s : State), ∃ (c : Cmd), s.dev.front (↑r) 770 = some c ∧ (s.dev.badAxis c.tgt = false ∧
      s.dev.clusterFree (axCl c.tgt)) ∧ c.bad [] = false ∧ s.dev.axSt c.tgt ≠ stRetired ∧
      s.dev.streamed c.tgt = false) ∧
    (∃ (r : Fin 4096), ∃ (s : State), ∃ (c : Cmd), s.dev.front (↑r) 770 = some c ∧ (s.dev.badAxis c.tgt = false ∧
      s.dev.clusterFree (axCl c.tgt)) ∧ c.bad [] = false ∧ s.dev.axSt c.tgt ≠ stRetired ∧
      s.dev.streamed c.tgt = true) ∧
    (∃ (r : Fin 4096), ∃ (s : State), ∃ (c : Cmd), s.dev.front (↑r) 770 = some c ∧ (s.dev.badAxis c.tgt = false ∧
      s.dev.clusterFree (axCl c.tgt)) ∧ c.bad [] = false ∧ s.dev.axSt c.tgt = stRetired) ∧
    (∃ (r : Fin 4096), ∃ (s : State), ∃ (c : Cmd), s.dev.front (↑r) 771 = some c ∧ ((s.dev.badAxis c.tgt = false ∧
      s.dev.clusterFree (axCl c.tgt)) ∧ c.bad [(12, 3, 255)] = false ∧ c.get 12 2 < 4096 ∧ c.byte 14 = 1 ∧
      s.dev.isRing (c.get 12 2) 4 = true) ∧ s.dev.streamed c.tgt = false ∧ s.dev.stBound (c.get 12 2) = none) ∧
    (∃ (r : Fin 4096), ∃ (s : State), ∃ (c : Cmd), s.dev.front (↑r) 771 = some c ∧ ((s.dev.badAxis c.tgt = false ∧
      s.dev.clusterFree (axCl c.tgt)) ∧ c.bad [(12, 3, 255)] = false ∧ c.get 12 2 < 4096 ∧ c.byte 14 = 1 ∧
      s.dev.isRing (c.get 12 2) 4 = true) ∧ (s.dev.streamed c.tgt = true ∨ s.dev.stBound (c.get 12 2) ≠ none)) ∧
    (∃ (r : Fin 4096), ∃ (s : State), ∃ (c : Cmd), s.dev.front (↑r) 771 = some c ∧ ((s.dev.badAxis c.tgt = false ∧
      s.dev.clusterFree (axCl c.tgt)) ∧ c.bad [(12, 3, 255)] = false ∧ c.get 12 2 < 4096 ∧ c.byte 14 = 0 ∧
      s.dev.isRing (c.get 12 2) 4 = true) ∧ s.dev.streamed c.tgt = true ∧ s.dev.streamRing c.tgt = c.get 12 2) :=
  ⟨⟨3, (cA 1 [desc 0x301 0 0 7 0 [(14, 5), (16, 100)]] (id)), _, rfl, by unfold Dev.clusterFree; decide, by decide⟩,
   ⟨3, (cA 0 [desc 0x301 0 0 7 0 [(14, 5), (16, 100)]] (id)), _, rfl, by unfold Dev.clusterFree; decide, by decide⟩,
   ⟨3, (cA 1 [desc 0x301 0 0 7 0 [(12, 16), (14, 5), (16,
     100)]] (fun d => d.modInterp 0 fun i => { i with len := 64 })), _, rfl, by unfold Dev.clusterFree; decide,
     by decide⟩,
   ⟨3, (cA 0 [desc 0x301 0 0 7 0 [(14, 5), (16, 5), (20, 1)]] (id)), _, rfl, by decide⟩,
   ⟨3, (cA 1 [desc 0x302 0 0 7 0 []] (id)), _, rfl, by unfold Dev.clusterFree; decide, by decide⟩,
   ⟨3,
     (cA 1 [desc 0x302 0 0 7 0 []] (fun d => (d.wr (AXS_SEG_STAT 0) 0xFFFFFFFF).setF (AXS_SEG_STAT 0) AXS_SEG_STAT_str_ring 6)),
     _, rfl, by unfold Dev.clusterFree; decide, by decide⟩,
   ⟨3, (cA 0 [desc 0x302 0 0 7 0 []] (id)), _, rfl, by unfold Dev.clusterFree; decide, by decide⟩,
   ⟨3, (cA 1 [desc 0x303 0 0 7 0 [(12, 6), (14, 1)]] (fun d => d.wr (LDL_RING_CFG 6) 0xC4000FFF)), _, rfl,
     by unfold Dev.clusterFree; decide, by decide⟩,
   ⟨3, (cA 1 [desc 0x303 0 0 7 0 [(12, 6), (14, 1)]] (id)), _, rfl, by unfold Dev.clusterFree; decide, by decide⟩,
   ⟨3, (cA 1 [desc 0x303 0 0 7 0 [(12,
     6)]] (fun d => ((d.wr (LDL_RING_CFG 6) 0xC4000000).setB (AXS_SEG_STAT 0) AXS_SEG_STAT_str true).setF (AXS_SEG_STAT 0) AXS_SEG_STAT_str_ring 6)),
     _, rfl, by unfold Dev.clusterFree; decide, by decide⟩⟩

theorem meets_MotionCommands_2 :
    (∃ (r : Fin 4096), ∃ (s : State), ∃ (c : Cmd), s.dev.front (↑r) 771 = some c ∧ ((s.dev.badAxis c.tgt = false ∧
      s.dev.clusterFree (axCl c.tgt)) ∧ c.bad [(12, 3, 255)] = false ∧ c.get 12 2 < 4096 ∧ c.byte 14 = 0 ∧
      s.dev.isRing (c.get 12 2) 4 = true) ∧ (s.dev.streamed c.tgt = false ∨ s.dev.streamRing c.tgt ≠ c.get 12 2)) ∧
    (∃ (r : Fin 4096), ∃ (s : State), ∃ (c : Cmd), s.dev.front (↑r) 784 = some c ∧ (s.dev.badAxis c.tgt = false ∧
      s.dev.clusterFree (axCl c.tgt)) ∧ (c.bad [(12, 2, 255), (16, 32, 255)] = false ∧ 192 ≤ c.byte 12 ∧
      1 ≤ c.byte 13 ∧ c.byte 13 ≤ 8 ∧ c.byte 12 + c.byte 13 ≤ 256 ∧
      (c.byte 12 ≤ 207 → c.byte 12 + c.byte 13 ≤ 207)) ∧ s.dev.axSt c.tgt ≠ stRetired ∧
      s.dev.axSt c.tgt ≠ stFaulted) ∧
    (∃ (r : Fin 4096), ∃ (s : State), ∃ (c : Cmd), s.dev.front (↑r) 784 = some c ∧ (s.dev.badAxis c.tgt = false ∧
      s.dev.clusterFree (axCl c.tgt)) ∧ (c.bad [(12, 2, 255), (16, 32, 255)] = false ∧ 192 ≤ c.byte 12 ∧
      1 ≤ c.byte 13 ∧ c.byte 13 ≤ 8 ∧ c.byte 12 + c.byte 13 ≤ 256 ∧
      (c.byte 12 ≤ 207 → c.byte 12 + c.byte 13 ≤ 207)) ∧ ¬(s.dev.axSt c.tgt ≠ stRetired ∧
      s.dev.axSt c.tgt ≠ stFaulted)) ∧
    (∃ (r : Fin 4096), ∃ (s : State), ∃ (c : Cmd), s.dev.front (↑r) 784 = some c ∧ s.dev.badAxis c.tgt = false ∧
      c.byte 12 < 192) ∧
    (∃ (r : Fin 4096), ∃ (s : State), ∃ (c : Cmd), s.dev.front (↑r) 772 = some c ∧ ((s.dev.badCluster c.tgt = false ∧
      c.bad [(12, 1, 7), (16, 8, 255), (24, 1, 1)] = false ∧ (c.buf 16 24).bad 4096 = false ∧
      s.dev.clusterFree c.tgt) ∧ s.dev.camRuns c.tgt (c.byte 12) = false) ∧ (c.buf 16 24).fab = false ∧
      s.dev.hostOk = false) ∧
    (∃ (r : Fin 4096), ∃ (s : State), ∃ (c : Cmd), s.dev.front (↑r) 772 = some c ∧ ((s.dev.badCluster c.tgt = false ∧
      c.bad [(12, 1, 7), (16, 8, 255), (24, 1, 1)] = false ∧ (c.buf 16 24).bad 4096 = false ∧
      s.dev.clusterFree c.tgt) ∧ s.dev.camRuns c.tgt (c.byte 12) = false) ∧ (c.buf 16 24).fab = false ∧
      s.dev.hostOk = true) ∧
    (∃ (r : Fin 4096), ∃ (s : State), ∃ (c : Cmd), s.dev.front (↑r) 772 = some c ∧ ((s.dev.badCluster c.tgt = false ∧
      c.bad [(12, 1, 7), (16, 8, 255), (24, 1, 1)] = false ∧ (c.buf 16 24).bad 4096 = false ∧
      s.dev.clusterFree c.tgt) ∧ s.dev.camRuns c.tgt (c.byte 12) = false) ∧ (c.buf 16 24).fab = true ∧
      (ladRead (4096 + 1) (c.buf 16 24).addr 4096 (s.mem, s.dev)).snd.snd = none) ∧
    (∃ (r : Fin 4096), ∃ (s : State), ∃ (c : Cmd), s.dev.front (↑r) 772 = some c ∧ (s.dev.badCluster c.tgt = false ∧
      c.bad [(12, 1, 7), (16, 8, 255), (24, 1, 1)] = false ∧ (c.buf 16 24).bad 4096 = false ∧
      s.dev.clusterFree c.tgt) ∧ s.dev.camRuns c.tgt (c.byte 12) = true) ∧
    (∃ (r : Fin 4096), ∃ (s : State), ∃ (c : Cmd), s.dev.front (↑r) 773 = some c ∧ (c.tgt < 32 ∧
      s.dev.badCluster (c.tgt / 8) = false ∧ c.bad [(12, 1, 255), (13, 1, 1), (16, 8, 63)] = false ∧ (∀ (i : Nat),
      i < 8 → (c.byte 12).testBit i = true → s.dev.badAxis (c.byte (16 + i)) = false) ∧
      s.dev.clusterFree (c.tgt / 8)) ∧
      s.dev.grpCheck c.tgt (fput FLX_GRP_CFG_mem_en (fput FLX_GRP_CFG_en 0 (c.byte 13 % 2)) (c.byte 12)) (w32 (c.get 16 4)) (w32 (c.get 20 4)) = 0) ∧
    (∃ (r : Fin 4096), ∃ (s : State), ∃ (c : Cmd), s.dev.front (↑r) 773 = some c ∧ (c.tgt < 32 ∧
      s.dev.badCluster (c.tgt / 8) = false ∧ c.bad [(12, 1, 255), (13, 1, 1), (16, 8, 63)] = false ∧ (∀ (i : Nat),
      i < 8 → (c.byte 12).testBit i = true → s.dev.badAxis (c.byte (16 + i)) = false) ∧
      s.dev.clusterFree (c.tgt / 8)) ∧
      s.dev.grpCheck c.tgt (fput FLX_GRP_CFG_mem_en (fput FLX_GRP_CFG_en 0 (c.byte 13 % 2)) (c.byte 12)) (w32 (c.get 16 4)) (w32 (c.get 20 4)) = 1) :=
  ⟨⟨3, (cA 1 [desc 0x303 0 0 7 0 [(12, 6)]] (id)), _, rfl, by unfold Dev.clusterFree; decide, by decide⟩,
   ⟨3, (cA 1 [desc 0x310 0 0 7 0 [(12, 192), (13, 8), (16, 120), (17, 86), (18, 52), (19, 18), (20, 9)]] (id)), _,
     rfl, by unfold Dev.clusterFree; decide, by decide⟩,
   ⟨3, (cA 0 [desc 0x310 0 0 7 0 [(12, 192), (13, 8), (16, 120), (17, 86), (18, 52), (19, 18), (20, 9)]] (id)), _,
     rfl, by unfold Dev.clusterFree; decide, by decide⟩,
   ⟨3, (cA 0 [desc 0x310 0 0 7 0 [(12, 191), (13, 1), (16, 120), (17, 86), (18, 52), (19, 18), (20, 9)]] (id)), _,
     rfl, by decide⟩,
   ⟨3, (withMem (fun m => (m.setHost 0x9004 [1, 2, 3, 4, 5]).setWord 0x1001008 0x77) (cA 1 [desc 0x304 0 0 7 0 [(17,
     144)]] (fun d => d.modPcie fun p => { p with busMaster := false }))), _, rfl,
     by unfold Dev.clusterFree; decide, by decide⟩,
   ⟨3, (withMem (fun m => (m.setHost 0x9004 [1, 2, 3, 4, 5]).setWord 0x1001008 0x77) (cA 1 [desc 0x304 0 0 7 0 [(17,
     144)]] (id))), _, rfl, by unfold Dev.clusterFree; decide, by decide⟩,
   ⟨3, (withMem (fun m => (m.setHost 0x9004 [1, 2, 3, 4, 5]).setWord 0x1001008 0x77) (cA 1 [desc 0x304 0 0 7 0 [(17,
     16), (19, 1), (24, 1)]] (fun d => d.wr (ING_BANK_OWN 0) 8))), _, rfl, by unfold Dev.clusterFree; decide,
     by decide⟩,
   ⟨3, (withMem (fun m => (m.setHost 0x9004 [1, 2, 3, 4, 5]).setWord 0x1001008 0x77) (cA 1 [desc 0x304 0 0 7 0 [(12,
     3), (17,
     144)]] (fun d => d.modInterp 3 fun i => { i with run := some { seg := { aSeg 5 0 0 1000 with w2 := 0x30000 }, t0 := 5, p0 := 7, mPrev := none, mAcc := 0, asHold := false } }))),
     _, rfl, by unfold Dev.clusterFree; decide, by decide⟩,
   ⟨3, (cmds 3 [desc 0x305 0 0 7 0 [(17, 1), (18, 5)]] (id)), _, rfl, by unfold Dev.clusterFree; decide, by decide⟩,
   ⟨3, (cmds 3 [desc 0x305 0 0 7 0 [(12, 1), (13, 1), (17, 1), (18,
     5)]] (fun d => (d.wr (FLX_GRP_CFG 5) 0x80000001).wr (FLX_GRP_MEM_LO 5) 0)), _, rfl,
     by unfold Dev.clusterFree; decide, by decide⟩⟩

theorem meets_MotionCommands_3 :
    (∃ (r : Fin 4096), ∃ (s : State), ∃ (c : Cmd), s.dev.front (↑r) 773 = some c ∧ (c.tgt < 32 ∧
      s.dev.badCluster (c.tgt / 8) = false ∧ c.bad [(12, 1, 255), (13, 1, 1), (16, 8, 63)] = false ∧ (∀ (i : Nat),
      i < 8 → (c.byte 12).testBit i = true → s.dev.badAxis (c.byte (16 + i)) = false) ∧
      s.dev.clusterFree (c.tgt / 8)) ∧
      s.dev.grpCheck c.tgt (fput FLX_GRP_CFG_mem_en (fput FLX_GRP_CFG_en 0 (c.byte 13 % 2)) (c.byte 12)) (w32 (c.get 16 4)) (w32 (c.get 20 4)) = 2) ∧
    (∃ (r : Fin 4096), ∃ (s : State), ∃ (c : Cmd), s.dev.front (↑r) 800 = some c ∧ (s.dev.badCluster c.tgt = false ∧
      c.bad [(12, 1, 15)] = false) ∧ c.byte 12 ≠ 0 ∧ s.dev.clusterFree c.tgt) ∧
    (∃ (r : Fin 4096), ∃ (s : State), ∃ (c : Cmd), s.dev.front (↑r) 800 = some c ∧ (s.dev.badCluster c.tgt = false ∧
      c.bad [(12, 1, 15)] = false) ∧ c.byte 12 = 0) :=
  ⟨⟨3, (cmds 3 [desc 0x305 0 0 7 0 [(12, 3), (13, 1), (17, 1), (18, 5)]] (fun d => d.setAxSt 1 stEnabled)), _, rfl,
     by unfold Dev.clusterFree; decide, by decide⟩,
   ⟨3, (cmds 3 [desc 0x320 0 0 7 0 [(12, 1)]] (fun d => (withRoutes [(3, 0xC8), (5,
     0xC9)] d).wr (FLX_ROUTE 0 0x40) 0x800000CB)), _, rfl, by decide, by decide,
     by unfold Dev.clusterFree; decide⟩,
   ⟨3, (cmds 3 [desc 0x320 0 0 7 0 []] (fun d => (withRoutes [(3, 0xC8), (5,
     0xC9)] d).wr (FLX_ROUTE 0 0x40) 0x800000CB)), _, rfl, by decide⟩⟩

theorem meets_ServiceCommands_1 :
    (∃ (r : Fin 4096), ∃ (s : State), ∃ (c : Cmd), s.dev.front (↑r) 1025 = some c ∧ (c.tgt < 8 ∧ c.bad [(12, 1, 254),
      (13, 15, 255)] = false) ∧ (∀ (w : Wait), w ∈ s.dev.waits → ¬(w.op = 1025 ∧ w.target = c.tgt)) ∧
      (s.dev.flag (SLD_CTL c.tgt) SLD_CTL_en = true ∨ (s.dev.sld c.tgt).inRound = true)) ∧
    (∃ (r : Fin 4096), ∃ (s : State), ∃ (c : Cmd), s.dev.front (↑r) 1025 = some c ∧ (c.tgt < 8 ∧ c.bad [(12, 1, 254),
      (13, 15, 255)] = false) ∧ (∀ (w : Wait), w ∈ s.dev.waits → ¬(w.op = 1025 ∧ w.target = c.tgt)) ∧
      ¬(s.dev.flag (SLD_CTL c.tgt) SLD_CTL_en = true ∨ (s.dev.sld c.tgt).inRound = true)) ∧
    (∃ (r : Fin 4096), ∃ (s : State), ∃ (c : Cmd), s.dev.front (↑r) 1025 = some c ∧ (c.tgt < 8 ∧ c.bad [(12, 1, 254),
      (13, 15, 255)] = false) ∧ ¬∀ (w : Wait), w ∈ s.dev.waits → ¬(w.op = 1025 ∧ w.target = c.tgt)) ∧
    (∃ (r : Fin 4096), ∃ (s : State), ∃ (c : Cmd), s.dev.front (↑r) 1026 = some c ∧ (c.tgt < 8 ∧ c.bad [(12, 2, 255),
      (16, 8, 255), (24, 1, 1)] = false ∧ 1 ≤ c.byte 13 ∧ c.byte 12 + c.byte 13 ≤ 128 ∧
      (c.buf 16 24).bad (32 * c.byte 13) = false) ∧ (c.buf 16 24).fab = false ∧ s.dev.hostOk = false) ∧
    (∃ (r : Fin 4096), ∃ (s : State), ∃ (c : Cmd), s.dev.front (↑r) 1026 = some c ∧ (c.tgt < 8 ∧ c.bad [(12, 2, 255),
      (16, 8, 255), (24, 1, 1)] = false ∧ 1 ≤ c.byte 13 ∧ c.byte 12 + c.byte 13 ≤ 128 ∧
      (c.buf 16 24).bad (32 * c.byte 13) = false) ∧ (c.buf 16 24).fab = false ∧ s.dev.hostOk = true) ∧
    (∃ (r : Fin 4096), ∃ (s : State), ∃ (c : Cmd), s.dev.front (↑r) 1026 = some c ∧ (c.tgt < 8 ∧ c.bad [(12, 2, 255),
      (16, 8, 255), (24, 1, 1)] = false ∧ 1 ≤ c.byte 13 ∧ c.byte 12 + c.byte 13 ≤ 128 ∧
      (c.buf 16 24).bad (32 * c.byte 13) = false) ∧ (c.buf 16 24).fab = true) ∧
    (∃ (r : Fin 4096), ∃ (s : State), ∃ (c : Cmd), s.dev.front (↑r) 1027 = some c ∧ (c.tgt < 8 ∧ c.bad [(12, 1, 127),
      (16, 16, 255)] = false ∧ c.d0.length = 64) ∧ s.dev.sldListed c.tgt (c.byte 12) = true ∧
      s.dev.sldPend c.tgt (c.byte 12) = false) ∧
    (∃ (r : Fin 4096), ∃ (s : State), ∃ (c : Cmd), s.dev.front (↑r) 1027 = some c ∧ (c.tgt < 8 ∧ c.bad [(12, 1, 127),
      (16, 16, 255)] = false ∧ c.d0.length = 64) ∧ s.dev.sldListed c.tgt (c.byte 12) = false) ∧
    (∃ (r : Fin 4096), ∃ (s : State), ∃ (c : Cmd), s.dev.front (↑r) 1027 = some c ∧ (c.tgt < 8 ∧ c.bad [(12, 1, 127),
      (16, 16, 255)] = false ∧ c.d0.length = 64) ∧ s.dev.sldListed c.tgt (c.byte 12) = true ∧
      s.dev.sldPend c.tgt (c.byte 12) = true) ∧
    (∃ (r : Fin 4096), ∃ (s : State), ∃ (c : Cmd), s.dev.front (↑r) 1281 = some c ∧ (c.tgt < 8 ∧ c.bad [(12, 10, 255),
      (22, 1, 1), (24, 8, 255), (32, 1, 1)] = false ∧ c.get 12 4 % 64 = 0 ∧ c.get 16 4 % 64 = 0 ∧
      4096 ≤ c.get 16 4 ∧ 2147483648 ≤ c.get 12 4 ∧ c.get 12 4 + c.get 16 4 ≤ 4026531840 ∧ 1 ≤ c.get 20 2 ∧
      c.get 20 2 ≤ 1024 ∧ (c.buf 24 32).bad (4 * c.get 20 2) = false) ∧ (c.buf 24 32).fab = false ∧
      s.dev.hostOk = false) :=
  ⟨⟨3, (cmds 3 [desc 0x401 0 0 7 0 [(12, 254), (13, 3), (20, 120), (21, 86), (22, 52), (23,
     18)]] (fun d => d.setB (SLD_CTL 0) SLD_CTL_en true)), _, rfl, by decide⟩,
   ⟨3, (cmds 3 [desc 0x401 0 0 7 0 [(12, 254), (13, 3), (20, 120), (21, 86), (22, 52), (23, 18)]] (id)), _, rfl,
     by decide⟩,
   ⟨3, (cmds 3 [desc 0x401 0 0 7 0 [(12, 254), (13, 3), (20, 120), (21, 86), (22, 52), (23,
     18)]] (fun d => { d with waits := [⟨5, 6, 0x0401, 0, [], 0, 0, 0⟩] })), _, rfl, by decide⟩,
   ⟨3,
     (withMem (fun m => (m.setWord (bankAddr 71 0x20) 0x1234).setWord (bankAddr 71 (statusBox 0 5)) 0x99) (cmds 3 [desc 0x402 0 0 7 0 [(12,
     5), (13, 2), (17, 144)]] (fun d => d.modPcie fun p => { p with busMaster := false }))), _, rfl, by decide⟩,
   ⟨3,
     (withMem (fun m => (m.setWord (bankAddr 71 0x20) 0x1234).setWord (bankAddr 71 (statusBox 0 5)) 0x99) (cmds 3 [desc 0x402 0 0 7 0 [(12,
     5), (13, 2), (17, 144)]] (id))), _, rfl, by decide⟩,
   ⟨3,
     (withMem (fun m => (m.setWord (bankAddr 71 0x20) 0x1234).setWord (bankAddr 71 (statusBox 0 5)) 0x99) (cmds 3 [desc 0x402 0 0 7 0 [(12,
     5), (13, 2), (17, 16), (19, 1), (24, 1)]] (id))), _, rfl, by decide⟩,
   ⟨3, (cmds 3 [desc 0x403 0 0 7 0 [(12, 5), (16, 120), (17, 86), (18, 52), (19, 18), (28,
     9)]] (fun d => (List.range 4).foldl (fun d i => d.wr (SLD_LIST 0 i) 0xFFFFFFFF) d)), _, rfl, by decide⟩,
   ⟨3, (cmds 3 [desc 0x403 0 0 7 0 [(12, 5), (16, 120), (17, 86), (18, 52), (19, 18), (28, 9)]] (id)), _, rfl,
     by decide⟩,
   ⟨3, (cmds 3 [desc 0x403 0 0 7 0 [(12, 5), (16, 120), (17, 86), (18, 52), (19, 18), (28,
     9)]] (fun d => (List.range 4).foldl (fun d i => (d.wr (SLD_LIST 0 i) 0xFFFFFFFF).wr (SLD_CMD_PEND 0 i) 0xFFFFFFFF) d)),
     _, rfl, by decide⟩,
   ⟨3, (withMem (fun m => (m.setHost 0x9000 ([])).setSpan 0x1001000 ([])) (cmds 3 [desc 0x501 0 0 7 0 [(15, 128),
     (17, 16), (20, 1), (22, 1), (25,
     144)]] (fun d => ((fun (d : Dev) => d.modPcie fun p => { p with busMaster := false }) ((axDev 1 d).modLane 0 fun l => { l with slots := ⟨[(0, aSlot true), (1, aSlot true)]⟩ })).wr (ING_BANK_OWN 0) 8))),
     _, rfl, by decide⟩⟩

theorem meets_ServiceCommands_2 :
    (∃ (r : Fin 4096), ∃ (s : State), ∃ (c : Cmd), s.dev.front (↑r) 1281 = some c ∧ (c.tgt < 8 ∧ c.bad [(12, 10, 255),
      (22, 1, 1), (24, 8, 255), (32, 1, 1)] = false ∧ c.get 12 4 % 64 = 0 ∧ c.get 16 4 % 64 = 0 ∧
      4096 ≤ c.get 16 4 ∧ 2147483648 ≤ c.get 12 4 ∧ c.get 12 4 + c.get 16 4 ≤ 4026531840 ∧ 1 ≤ c.get 20 2 ∧
      c.get 20 2 ≤ 1024 ∧ (c.buf 24 32).bad (4 * c.get 20 2) = false) ∧ (c.buf 24 32).fab = false ∧
      s.dev.hostOk = true ∧ ∃ (v : Nat),
      v ∈ List.map (fun (i : Nat) => dget (s.mem.hostSpan (c.buf 24 32).addr (4 * c.get 20 2)) (4 * i) 4) (List.range (c.get 20 2)) ∧
      (s.mem, s.dev).snd.badSpec v = true) ∧
    (∃ (r : Fin 4096), ∃ (s : State), ∃ (c : Cmd), s.dev.front (↑r) 1281 = some c ∧ (c.tgt < 8 ∧ c.bad [(12, 10, 255),
      (22, 1, 1), (24, 8, 255), (32, 1, 1)] = false ∧ c.get 12 4 % 64 = 0 ∧ c.get 16 4 % 64 = 0 ∧
      4096 ≤ c.get 16 4 ∧ 2147483648 ≤ c.get 12 4 ∧ c.get 12 4 + c.get 16 4 ≤ 4026531840 ∧ 1 ≤ c.get 20 2 ∧
      c.get 20 2 ≤ 1024 ∧ (c.buf 24 32).bad (4 * c.get 20 2) = false) ∧ (c.buf 24 32).fab = false ∧
      s.dev.hostOk = true ∧ (∀ (v : Nat),
      v ∈ List.map (fun (i : Nat) => dget (s.mem.hostSpan (c.buf 24 32).addr (4 * c.get 20 2)) (4 * i) 4) (List.range (c.get 20 2)) → (s.mem,
      s.dev).snd.badSpec v = false) ∧ ((s.mem, s.dev).snd.capRuns c.tgt = true ∨ 1024 < (s.mem,
      s.dev).snd.capVars + c.get 20 2)) ∧
    (∃ (r : Fin 4096), ∃ (s : State), ∃ (c : Cmd), s.dev.front (↑r) 1281 = some c ∧ (c.tgt < 8 ∧ c.bad [(12, 10, 255),
      (22, 1, 1), (24, 8, 255), (32, 1, 1)] = false ∧ c.get 12 4 % 64 = 0 ∧ c.get 16 4 % 64 = 0 ∧
      4096 ≤ c.get 16 4 ∧ 2147483648 ≤ c.get 12 4 ∧ c.get 12 4 + c.get 16 4 ≤ 4026531840 ∧ 1 ≤ c.get 20 2 ∧
      c.get 20 2 ≤ 1024 ∧ (c.buf 24 32).bad (4 * c.get 20 2) = false) ∧ (c.buf 24 32).fab = false ∧
      s.dev.hostOk = true ∧ (∀ (v : Nat),
      v ∈ List.map (fun (i : Nat) => dget (s.mem.hostSpan (c.buf 24 32).addr (4 * c.get 20 2)) (4 * i) 4) (List.range (c.get 20 2)) → (s.mem,
      s.dev).snd.badSpec v = false) ∧ (s.mem, s.dev).snd.capRuns c.tgt = false ∧ (s.mem,
      s.dev).snd.capVars + c.get 20 2 ≤ 1024) ∧
    (∃ (r : Fin 4096), ∃ (s : State), ∃ (c : Cmd), s.dev.front (↑r) 1281 = some c ∧ (c.tgt < 8 ∧ c.bad [(12, 10, 255),
      (22, 1, 1), (24, 8, 255), (32, 1, 1)] = false ∧ c.get 12 4 % 64 = 0 ∧ c.get 16 4 % 64 = 0 ∧
      4096 ≤ c.get 16 4 ∧ 2147483648 ≤ c.get 12 4 ∧ c.get 12 4 + c.get 16 4 ≤ 4026531840 ∧ 1 ≤ c.get 20 2 ∧
      c.get 20 2 ≤ 1024 ∧ (c.buf 24 32).bad (4 * c.get 20 2) = false) ∧ (c.buf 24 32).fab = true ∧
      (ladRead (4 * c.get 20 2 + 1) (c.buf 24 32).addr (4 * c.get 20 2) (s.mem, s.dev)).snd.snd = none ∧
      (∀ (v : Nat),
      v ∈ List.map (fun (i : Nat) => dget (ladRead (4 * c.get 20 2 + 1) (c.buf 24 32).addr (4 * c.get 20 2) (s.mem,
      s.dev)).snd.fst (4 * i) 4) (List.range (c.get 20 2)) → (ladRead (4 * c.get 20 2 + 1) (c.buf 24 32).addr (4 * c.get 20 2) (s.mem,
      s.dev)).fst.snd.badSpec v = false) ∧
      ((ladRead (4 * c.get 20 2 + 1) (c.buf 24 32).addr (4 * c.get 20 2) (s.mem,
      s.dev)).fst.snd.capRuns c.tgt = true ∨
      1024 < (ladRead (4 * c.get 20 2 + 1) (c.buf 24 32).addr (4 * c.get 20 2) (s.mem,
      s.dev)).fst.snd.capVars + c.get 20 2)) ∧
    (∃ (r : Fin 4096), ∃ (s : State), ∃ (c : Cmd), s.dev.front (↑r) 1281 = some c ∧ (c.tgt < 8 ∧ c.bad [(12, 10, 255),
      (22, 1, 1), (24, 8, 255), (32, 1, 1)] = false ∧ c.get 12 4 % 64 = 0 ∧ c.get 16 4 % 64 = 0 ∧
      4096 ≤ c.get 16 4 ∧ 2147483648 ≤ c.get 12 4 ∧ c.get 12 4 + c.get 16 4 ≤ 4026531840 ∧ 1 ≤ c.get 20 2 ∧
      c.get 20 2 ≤ 1024 ∧ (c.buf 24 32).bad (4 * c.get 20 2) = false) ∧ (c.buf 24 32).fab = true ∧
      (ladRead (4 * c.get 20 2 + 1) (c.buf 24 32).addr (4 * c.get 20 2) (s.mem, s.dev)).snd.snd = none ∧
      (∀ (v : Nat),
      v ∈ List.map (fun (i : Nat) => dget (ladRead (4 * c.get 20 2 + 1) (c.buf 24 32).addr (4 * c.get 20 2) (s.mem,
      s.dev)).snd.fst (4 * i) 4) (List.range (c.get 20 2)) → (ladRead (4 * c.get 20 2 + 1) (c.buf 24 32).addr (4 * c.get 20 2) (s.mem,
      s.dev)).fst.snd.badSpec v = false) ∧
      (ladRead (4 * c.get 20 2 + 1) (c.buf 24 32).addr (4 * c.get 20 2) (s.mem,
      s.dev)).fst.snd.capRuns c.tgt = false ∧
      (ladRead (4 * c.get 20 2 + 1) (c.buf 24 32).addr (4 * c.get 20 2) (s.mem,
      s.dev)).fst.snd.capVars + c.get 20 2 ≤ 1024) ∧
    (∃ (r : Fin 4096), ∃ (s : State), ∃ (c : Cmd), s.dev.front (↑r) 1281 = some c ∧ (c.tgt < 8 ∧ c.bad [(12, 10, 255),
      (22, 1, 1), (24, 8, 255), (32, 1, 1)] = false ∧ c.get 12 4 % 64 = 0 ∧ c.get 16 4 % 64 = 0 ∧
      4096 ≤ c.get 16 4 ∧ 2147483648 ≤ c.get 12 4 ∧ c.get 12 4 + c.get 16 4 ≤ 4026531840 ∧ 1 ≤ c.get 20 2 ∧
      c.get 20 2 ≤ 1024 ∧ (c.buf 24 32).bad (4 * c.get 20 2) = false) ∧ (c.buf 24 32).fab = true ∧ ∃ (code : Nat),
      (ladRead ((fun (c : Cmd) => 4 * (fun (c : Cmd) => c.get 20 2) c) c + 1) ((fun (c : Cmd) => c.buf 24 32) c).addr ((fun (c : Cmd) => 4 * (fun (c : Cmd) => c.get 20 2) c) c) (s.mem,
      s.dev)).snd.snd = some code) ∧
    (∃ (r : Fin 4096), ∃ (s : State), ∃ (c : Cmd), s.dev.front (↑r) 1282 = some c ∧ c.tgt < 8 ∧ c.bad [] = false) ∧
    (∃ (r : Fin 4096), ∃ (s : State), ∃ (c : Cmd), s.dev.front (↑r) 1282 = some c ∧ 8 ≤ c.tgt) ∧
    (∃ (r : Fin 4096), ∃ (s : State), ∃ (c : Cmd), s.dev.front (↑r) 1296 = some c ∧ (s.dev.badCluster c.tgt = false ∧
      c.bad [] = false ∧ s.dev.clusterFree c.tgt) ∧ s.dev.flag (TMR_SNAP_CTL c.tgt) TMR_SNAP_CTL_done = true) ∧
    (∃ (r : Fin 4096), ∃ (s : State), ∃ (c : Cmd), s.dev.front (↑r) 1296 = some c ∧ (s.dev.badCluster c.tgt = false ∧
      c.bad [] = false ∧ s.dev.clusterFree c.tgt) ∧ s.dev.flag (TMR_SNAP_CTL c.tgt) TMR_SNAP_CTL_done = false) :=
  ⟨⟨3, (withMem (fun m => (m.setHost 0x9000 ([])).setSpan 0x1001000 ([])) (cmds 3 [desc 0x501 0 0 7 0 [(15, 128),
     (17, 16), (20, 2), (25, 144)]] (id))), _, rfl, by decide, by decide, by decide, 0, by decide⟩,
   ⟨3, (withMem (fun m => (m.setHost 0x9000 ([])).setSpan 0x1001000 ([])) (cmds 3 [desc 0x501 0 0 7 0 [(15, 128),
     (17, 16), (20, 1), (22, 1), (25,
     144)]] (fun d => ((fun (d : Dev) => d.setB (DBG_CAP_STAT 0) DBG_CAP_STAT_running true) ((axDev 1 d).modLane 0 fun l => { l with slots := ⟨[(0, aSlot true), (1, aSlot true)]⟩ })).wr (ING_BANK_OWN 0) 8))),
     _, rfl, by decide⟩,
   ⟨3, (withMem (fun m => (m.setHost 0x9000 ([])).setSpan 0x1001000 ([])) (cmds 3 [desc 0x501 0 0 7 0 [(15, 128),
     (17, 16), (20, 1), (22, 1), (25,
     144)]] (fun d => (((id : Dev → Dev)) ((axDev 1 d).modLane 0 fun l => { l with slots := ⟨[(0, aSlot true), (1, aSlot true)]⟩ })).wr (ING_BANK_OWN 0) 8))),
     _, rfl, by decide⟩,
   ⟨3, (withMem (fun m => (m.setHost 0x9000 ([])).setSpan 0x1001000 ([])) (cmds 3 [desc 0x501 0 0 7 0 [(15, 128),
     (17, 16), (20, 1), (22, 1), (25, 16), (27, 1), (32,
     1)]] (fun d => ((fun (d : Dev) => d.setB (DBG_CAP_STAT 0) DBG_CAP_STAT_running true) ((axDev 1 d).modLane 0 fun l => { l with slots := ⟨[(0, aSlot true), (1, aSlot true)]⟩ })).wr (ING_BANK_OWN 0) 8))),
     _, rfl, by decide⟩,
   ⟨3, (withMem (fun m => (m.setHost 0x9000 ([])).setSpan 0x1001000 ([])) (cmds 3 [desc 0x501 0 0 7 0 [(15, 128),
     (17, 16), (20, 1), (22, 1), (25, 16), (27, 1), (32,
     1)]] (fun d => (((id : Dev → Dev)) ((axDev 1 d).modLane 0 fun l => { l with slots := ⟨[(0, aSlot true), (1, aSlot true)]⟩ })).wr (ING_BANK_OWN 0) 8))),
     _, rfl, by decide⟩,
   ⟨3, (withMem (fun m => (m.setHost 0x9000 ([])).setSpan 0x1001000 ([])) (cmds 3 [desc 0x501 0 0 7 0 [(15, 128),
     (17, 16), (20, 2), (25, 16), (27, 1), (32, 1)]] (id))), _, rfl, by decide, by decide, _, rfl⟩,
   ⟨3, (cmds 3 [desc 0x502 0 0 7 0 []] (id)), _, rfl, by decide⟩,
   ⟨3, (cmds 3 [desc 0x502 0 0 7 8 []] (id)), _, rfl, by decide⟩,
   ⟨3, (cmds 3 [desc 0x510 0 0 7 0 []] (id)), _, rfl, by unfold Dev.clusterFree; decide, by decide⟩,
   ⟨3, (cmds 3 [desc 0x510 0 0 7 0 []] (fun d => d.wr (TMR_SNAP_CTL 0) 0)), _, rfl,
     by unfold Dev.clusterFree; decide, by decide⟩⟩

theorem meets_ServiceCommands_3 :
    (∃ (r : Fin 4096), ∃ (s : State), ∃ (c : Cmd), s.dev.front (↑r) 1312 = some c ∧ (c.tgt < 16 ∧ c.bad [] = false) ∧
      (s.dev.flag (CRU_CFG c.tgt) CRU_CFG_en = true ∧ s.dev.flag CRU_REF_CTL CRU_REF_CTL_ref_en = true) ∧
      s.dev.cruRun c.tgt = none) ∧
    (∃ (r : Fin 4096), ∃ (s : State), ∃ (c : Cmd), s.dev.front (↑r) 1312 = some c ∧ (c.tgt < 16 ∧ c.bad [] = false) ∧
      ¬(s.dev.flag (CRU_CFG c.tgt) CRU_CFG_en = true ∧ s.dev.flag CRU_REF_CTL CRU_REF_CTL_ref_en = true)) ∧
    (∃ (r : Fin 4096), ∃ (s : State), ∃ (c : Cmd), s.dev.front (↑r) 1312 = some c ∧ (c.tgt < 16 ∧ c.bad [] = false) ∧
      (s.dev.flag (CRU_CFG c.tgt) CRU_CFG_en = true ∧ s.dev.flag CRU_REF_CTL CRU_REF_CTL_ref_en = true) ∧
      s.dev.cruRun c.tgt ≠ none) ∧
    (∃ (r : Fin 4096), ∃ (s : State), ∃ (c : Cmd), s.dev.front (↑r) 1537 = some c ∧ ((c.tgt < 1000 ∧ c.bad [(12, 2,
      255), (16, 8, 255), (24, 1, 1), (26, 2, 255)] = false ∧ 1 ≤ c.get 12 2 ∧ c.get 12 2 ≤ 1024 ∧
      (c.buf 16 24).bad (c.get 12 2) = false) ∧ s.dev.reachable c.tgt = true) ∧ (c.buf 16 24).fab = false ∧
      s.dev.hostOk = false) ∧
    (∃ (r : Fin 4096), ∃ (s : State), ∃ (c : Cmd), s.dev.front (↑r) 1537 = some c ∧ ((c.tgt < 1000 ∧ c.bad [(12, 2,
      255), (16, 8, 255), (24, 1, 1), (26, 2, 255)] = false ∧ 1 ≤ c.get 12 2 ∧ c.get 12 2 ≤ 1024 ∧
      (c.buf 16 24).bad (c.get 12 2) = false) ∧ s.dev.reachable c.tgt = true) ∧ (c.buf 16 24).fab = false ∧
      s.dev.hostOk = true) ∧
    (∃ (r : Fin 4096), ∃ (s : State), ∃ (c : Cmd), s.dev.front (↑r) 1537 = some c ∧ ((c.tgt < 1000 ∧ c.bad [(12, 2,
      255), (16, 8, 255), (24, 1, 1), (26, 2, 255)] = false ∧ 1 ≤ c.get 12 2 ∧ c.get 12 2 ≤ 1024 ∧
      (c.buf 16 24).bad (c.get 12 2) = false) ∧ s.dev.reachable c.tgt = true) ∧ (c.buf 16 24).fab = true ∧
      (ladRead (c.get 12 2 + 1) (c.buf 16 24).addr (c.get 12 2) (s.mem, s.dev)).snd.snd = none) ∧
    (∃ (r : Fin 4096), ∃ (s : State), ∃ (c : Cmd), s.dev.front (↑r) 1537 = some c ∧ ((c.tgt < 1000 ∧ c.bad [(12, 2,
      255), (16, 8, 255), (24, 1, 1), (26, 2, 255)] = false ∧ 1 ≤ c.get 12 2 ∧ c.get 12 2 ≤ 1024 ∧
      (c.buf 16 24).bad (c.get 12 2) = false) ∧ s.dev.reachable c.tgt = true) ∧ (c.buf 16 24).fab = true ∧
      ∃ (code : Nat),
      (ladRead ((fun (c : Cmd) => c.get 12 2) c + 1) ((fun (c : Cmd) => c.buf 16 24) c).addr ((fun (c : Cmd) => c.get 12 2) c) (s.mem,
      s.dev)).snd.snd = some code) ∧
    (∃ (r : Fin 4096), ∃ (s : State), ∃ (c : Cmd), s.dev.front (↑r) 1537 = some c ∧ (c.tgt < 1000 ∧ c.bad [(12, 2,
      255), (16, 8, 255), (24, 1, 1), (26, 2, 255)] = false ∧ 1 ≤ c.get 12 2 ∧ c.get 12 2 ≤ 1024 ∧
      (c.buf 16 24).bad (c.get 12 2) = false) ∧ s.dev.reachable c.tgt = false) ∧
    (∃ (r : Fin 4096), ∃ (s : State), ∃ (c : Cmd), s.dev.front (↑r) 1538 = some c ∧ c.bad [(12, 1, 7), (16, 8,
      255)] = false ∧ c.tgt < 1000 ∧ s.dev.reachable c.tgt = true ∧ c.tgt ≠ s.dev.semNode) ∧
    (∃ (r : Fin 4096), ∃ (s : State), ∃ (c : Cmd), s.dev.front (↑r) 1538 = some c ∧ c.bad [(12, 1, 7), (16, 8,
      255)] = false ∧ c.tgt < 1000 ∧ s.dev.reachable c.tgt = true ∧ c.tgt = s.dev.semNode) :=
  ⟨⟨3, (cmds 3 [desc 0x520 0 0 7 0 []] (fun d => regsD [(CRU_REF_CTL, 0xC0000F0F), (CRU_CFG 0, 0x80000000),
     (CRU_CFG 3, 0x80300000)] d)), _, rfl, by decide⟩,
   ⟨3, (cmds 3 [desc 0x520 0 0 7 0 []] (id)), _, rfl, by decide⟩,
   ⟨3,
     (cmds 3 [desc 0x520 0 0 7 0 []] (fun d => { regsD [(CRU_REF_CTL, 0xC0000F0F), (CRU_CFG 0, 0x80000000), (CRU_CFG 3, 0x80300000)] d with cru := { d.cru with runs := ⟨[(0, some aConv), (3, some aConv)]⟩ } })),
     _, rfl, by decide⟩,
   ⟨3, (withMem (fun m => m.setHost 0x9000 [1, 2, 3]) (cmds 3 [desc 0x601 0 0 7 9 [(12, 3), (17, 144), (26, 52), (27,
     18)]] (fun d => ((fun (d : Dev) => { regsD [(SEM_CTL, 0x80000005), (SEM_STAT, 0xFFFFFFFF), (SEM_CYC, 0x00640010), (SEM_PORT_STAT 0, 0x80000000), (SEM_PORT_STAT 1, 0x80000000)] d with sem := { d.sem with layout := [(5, 64), (9, 64)] }, time := { d.time with mode := 2 }, waits := [] }) d).modPcie fun p => { p with busMaster := false }))),
     _, rfl, by decide⟩,
   ⟨3, (withMem (fun m => m.setHost 0x9000 [1, 2, 3]) (cmds 3 [desc 0x601 0 0 7 5 [(12, 3), (17, 144), (26, 52), (27,
     18)]] (fun (d : Dev) => { regsD [(SEM_CTL, 0x80000005), (SEM_STAT, 0xFFFFFFFF), (SEM_CYC, 0x00640010), (SEM_PORT_STAT 0, 0x80000000), (SEM_PORT_STAT 1, 0x80000000)] d with sem := { d.sem with layout := [(5, 64), (9, 64)] }, time := { d.time with mode := 2 }, waits := [] }))),
     _, rfl, by decide⟩,
   ⟨3, (withMem (fun m => m.setHost 0x9000 [1, 2, 3]) (cmds 3 [desc 0x601 0 0 7 9 [(12, 3), (17, 16), (19, 1), (24,
     1), (26, 52), (27,
     18)]] (fun d => ((fun (d : Dev) => { regsD [(SEM_CTL, 0x80000005), (SEM_STAT, 0xFFFFFFFF), (SEM_CYC, 0x00640010), (SEM_PORT_STAT 0, 0x80000000), (SEM_PORT_STAT 1, 0x80000000)] d with sem := { d.sem with layout := [(5, 64), (9, 64)] }, time := { d.time with mode := 2 }, waits := [] }) d).wr (ING_BANK_OWN 0) 8))),
     _, rfl, by decide⟩,
   ⟨3, (withMem (fun m => m.setHost 0x9000 [1, 2, 3]) (cmds 3 [desc 0x601 0 0 7 9 [(12, 3), (17, 16), (19, 1), (24,
     1), (26, 52), (27,
     18)]] (fun (d : Dev) => { regsD [(SEM_CTL, 0x80000005), (SEM_STAT, 0xFFFFFFFF), (SEM_CYC, 0x00640010), (SEM_PORT_STAT 0, 0x80000000), (SEM_PORT_STAT 1, 0x80000000)] d with sem := { d.sem with layout := [(5, 64), (9, 64)] }, time := { d.time with mode := 2 }, waits := [] }))),
     _, rfl, by decide, by decide, _, rfl⟩,
   ⟨3, (withMem (fun m => m.setHost 0x9000 [1, 2, 3]) (cmds 3 [desc 0x601 0 0 7 12 [(12, 3), (17, 144), (26, 52),
     (27,
     18)]] (fun (d : Dev) => { regsD [(SEM_CTL, 0x80000005), (SEM_STAT, 0xFFFFFFFF), (SEM_CYC, 0x00640010), (SEM_PORT_STAT 0, 0x80000000), (SEM_PORT_STAT 1, 0x80000000)] d with sem := { d.sem with layout := [(5, 64), (9, 64)] }, time := { d.time with mode := 2 }, waits := [] }))),
     _, rfl, by decide⟩,
   ⟨3,
     (cmds 3 [desc 0x602 0 0 7 9 []] (fun (d : Dev) => { regsD [(SEM_CTL, 0x80000005), (SEM_STAT, 0xFFFFFFFF), (SEM_CYC, 0x00640010), (SEM_PORT_STAT 0, 0x80000000), (SEM_PORT_STAT 1, 0x80000000)] d with sem := { d.sem with layout := [(5, 64), (9, 64)] }, time := { d.time with mode := 2 }, waits := [] })),
     _, rfl, by decide⟩,
   ⟨3,
     (cmds 3 [desc 0x602 0 0 7 5 []] (fun (d : Dev) => { regsD [(SEM_CTL, 0x80000005), (SEM_STAT, 0xFFFFFFFF), (SEM_CYC, 0x00640010), (SEM_PORT_STAT 0, 0x80000000), (SEM_PORT_STAT 1, 0x80000000)] d with sem := { d.sem with layout := [(5, 64), (9, 64)] }, time := { d.time with mode := 2 }, waits := [] })),
     _, rfl, by decide⟩⟩

theorem meets_ServiceCommands_4 :
    (∃ (r : Fin 4096), ∃ (s : State), ∃ (c : Cmd), s.dev.front (↑r) 1538 = some c ∧ c.bad [(12, 1, 7), (16, 8,
      255)] = false ∧ c.tgt < 1000 ∧ s.dev.reachable c.tgt = false) ∧
    (∃ (r : Fin 4096), ∃ (s : State), ∃ (c : Cmd), s.dev.front (↑r) 1538 = some c ∧ c.bad [(12, 1, 7), (16, 8,
      255)] = false ∧ c.tgt = 1023 ∧ (s.dev.semEn = false ∨ s.dev.member = false)) ∧
    (∃ (r : Fin 4096), ∃ (s : State), ∃ (c : Cmd), s.dev.front (↑r) 1539 = some c ∧ (c.badNone = false ∧ c.bad [(12,
      1, 255)] = false ∧ c.byte 12 = 1) ∧ s.dev.semEn = true ∧ s.dev.member = false ∧ s.dev.time.mode = 2 ∧
      ∀ (w : Wait), w ∈ s.dev.waits → w.op ≠ 1539) ∧
    (∃ (r : Fin 4096), ∃ (s : State), ∃ (c : Cmd), s.dev.front (↑r) 1539 = some c ∧ (c.badNone = false ∧ c.bad [(12,
      1, 255)] = false ∧ c.byte 12 = 2) ∧ s.dev.semEn = true ∧ s.dev.member = true ∧ ∀ (w : Wait),
      w ∈ s.dev.waits → w.op ≠ 1539) ∧
    (∃ (r : Fin 4096), ∃ (s : State), ∃ (c : Cmd), s.dev.front (↑r) 1539 = some c ∧ (c.badNone = false ∧ c.bad [(12,
      1, 255)] = false ∧ c.byte 12 = 1) ∧ (s.dev.semEn = false ∨ s.dev.member = true ∨ s.dev.time.mode ≠ 2)) ∧
    (∃ (r : Fin 4096), ∃ (s : State), ∃ (c : Cmd), s.dev.front (↑r) 1539 = some c ∧ (c.badNone = false ∧ c.bad [(12,
      1, 255)] = false ∧ c.byte 12 = 2) ∧ (s.dev.semEn = false ∨ s.dev.member = false)) ∧
    (∃ (r : Fin 4096), ∃ (s : State), ∃ (c : Cmd), s.dev.front (↑r) 1539 = some c ∧ (c.badNone = false ∧ c.bad [(12,
      1, 255)] = false ∧ c.byte 12 = 1) ∧ s.dev.semEn = true ∧ s.dev.member = false ∧ s.dev.time.mode = 2 ∧
      ¬∀ (w : Wait), w ∈ s.dev.waits → w.op ≠ 1539) ∧
    (∃ (r : Fin 4096), ∃ (s : State), ∃ (c : Cmd), s.dev.front (↑r) 1539 = some c ∧ (c.badNone = false ∧ c.bad [(12,
      1, 255)] = false ∧ c.byte 12 = 2) ∧ s.dev.semEn = true ∧ s.dev.member = true ∧ ¬∀ (w : Wait),
      w ∈ s.dev.waits → w.op ≠ 1539) :=
  ⟨⟨3,
     (cmds 3 [desc 0x602 0 0 7 12 []] (fun (d : Dev) => { regsD [(SEM_CTL, 0x80000005), (SEM_STAT, 0xFFFFFFFF), (SEM_CYC, 0x00640010), (SEM_PORT_STAT 0, 0x80000000), (SEM_PORT_STAT 1, 0x80000000)] d with sem := { d.sem with layout := [(5, 64), (9, 64)] }, time := { d.time with mode := 2 }, waits := [] })),
     _, rfl, by decide⟩,
   ⟨3,
     (cmds 3 [desc 0x602 0 0 7 1023 []] (fun (d : Dev) => { regsD [(SEM_CTL, 0x80000005), (SEM_STAT, 0x0), (SEM_CYC, 0x00640010), (SEM_PORT_STAT 0, 0x80000000), (SEM_PORT_STAT 1, 0x80000000)] d with sem := { d.sem with layout := [(5, 64), (9, 64)] }, time := { d.time with mode := 2 }, waits := [] })),
     _, rfl, by decide⟩,
   ⟨3, (cmds 3 [desc 0x603 0 0 7 0 [(12,
     1)]] (fun (d : Dev) => { regsD [(SEM_CTL, 0x80000005), (SEM_STAT, 0x0), (SEM_CYC, 0x00640010), (SEM_PORT_STAT 0, 0x80000000), (SEM_PORT_STAT 1, 0x80000000)] d with sem := { d.sem with layout := [(5, 64), (9, 64)] }, time := { d.time with mode := 2 }, waits := [] })),
     _, rfl, by decide⟩,
   ⟨3, (cmds 3 [desc 0x603 0 0 7 0 [(12,
     2)]] (fun (d : Dev) => { regsD [(SEM_CTL, 0x80000005), (SEM_STAT, 0xFFFFFFFF), (SEM_CYC, 0x00640010), (SEM_PORT_STAT 0, 0x80000000), (SEM_PORT_STAT 1, 0x80000000)] d with sem := { d.sem with layout := [(5, 64), (9, 64)] }, time := { d.time with mode := 2 }, waits := [] })),
     _, rfl, by decide⟩,
   ⟨3, (cmds 3 [desc 0x603 0 0 7 0 [(12,
     1)]] (fun (d : Dev) => { regsD [(SEM_CTL, 0x80000005), (SEM_STAT, 0xFFFFFFFF), (SEM_CYC, 0x00640010), (SEM_PORT_STAT 0, 0x80000000), (SEM_PORT_STAT 1, 0x80000000)] d with sem := { d.sem with layout := [(5, 64), (9, 64)] }, time := { d.time with mode := 2 }, waits := [] })),
     _, rfl, by decide⟩,
   ⟨3, (cmds 3 [desc 0x603 0 0 7 0 [(12,
     2)]] (fun (d : Dev) => { regsD [(SEM_CTL, 0x80000005), (SEM_STAT, 0x0), (SEM_CYC, 0x00640010), (SEM_PORT_STAT 0, 0x80000000), (SEM_PORT_STAT 1, 0x80000000)] d with sem := { d.sem with layout := [(5, 64), (9, 64)] }, time := { d.time with mode := 2 }, waits := [] })),
     _, rfl, by decide⟩,
   ⟨3, (cmds 3 [desc 0x603 0 0 7 0 [(12,
     1)]] (fun (d : Dev) => { regsD [(SEM_CTL, 0x80000005), (SEM_STAT, 0x0), (SEM_CYC, 0x00640010), (SEM_PORT_STAT 0, 0x80000000), (SEM_PORT_STAT 1, 0x80000000)] d with sem := { d.sem with layout := [(5, 64), (9, 64)] }, time := { d.time with mode := 2 }, waits := [⟨5, 6, 0x0603, 0, [], 0, 0, 0⟩] })),
     _, rfl, by decide⟩,
   ⟨3, (cmds 3 [desc 0x603 0 0 7 0 [(12,
     2)]] (fun (d : Dev) => { regsD [(SEM_CTL, 0x80000005), (SEM_STAT, 0xFFFFFFFF), (SEM_CYC, 0x00640010), (SEM_PORT_STAT 0, 0x80000000), (SEM_PORT_STAT 1, 0x80000000)] d with sem := { d.sem with layout := [(5, 64), (9, 64)] }, time := { d.time with mode := 2 }, waits := [⟨5, 6, 0x0603, 0, [], 0, 0, 0⟩] })),
     _, rfl, by decide⟩⟩

theorem meets_FlashCommands_1 :
    (∃ (r : Fin 4096), ∃ (s : State), ∃ (c : Cmd), s.dev.front (↑r) 1793 = some c ∧ ((c.badNone = false ∧ c.bad [(12,
      16, 255), (28, 1, 3)] = false ∧ 1 ≤ c.get 16 4 ∧ c.get 16 4 ≤ 2 ^ 20 ∧ c.get 16 4 % 4 = 0 ∧
      c.get 12 4 + c.get 16 4 ≤ 67108864 ∧ (c.buf 20 28).bad (c.get 16 4) = false) ∧
      s.dev.flashWay (sectorsOf (c.get 12 4) (c.get 16 4)) = FlashWay.now) ∧ (c.buf 20 28).fab = false ∧
      s.dev.hostOk = false) ∧
    (∃ (r : Fin 4096), ∃ (s : State), ∃ (c : Cmd), s.dev.front (↑r) 1793 = some c ∧ ((c.badNone = false ∧ c.bad [(12,
      16, 255), (28, 1, 3)] = false ∧ 1 ≤ c.get 16 4 ∧ c.get 16 4 ≤ 2 ^ 20 ∧ c.get 16 4 % 4 = 0 ∧
      c.get 12 4 + c.get 16 4 ≤ 67108864 ∧ (c.buf 20 28).bad (c.get 16 4) = false) ∧
      s.dev.flashWay (sectorsOf (c.get 12 4) (c.get 16 4)) = FlashWay.now) ∧ (c.buf 20 28).fab = false ∧
      s.dev.hostOk = true) ∧
    (∃ (r : Fin 4096), ∃ (s : State), ∃ (c : Cmd), s.dev.front (↑r) 1793 = some c ∧ ((c.badNone = false ∧ c.bad [(12,
      16, 255), (28, 1, 3)] = false ∧ 1 ≤ c.get 16 4 ∧ c.get 16 4 ≤ 2 ^ 20 ∧ c.get 16 4 % 4 = 0 ∧
      c.get 12 4 + c.get 16 4 ≤ 67108864 ∧ (c.buf 20 28).bad (c.get 16 4) = false) ∧
      s.dev.flashWay (sectorsOf (c.get 12 4) (c.get 16 4)) = FlashWay.now) ∧ (c.buf 20 28).fab = true) ∧
    (∃ (r : Fin 4096), ∃ (s : State), ∃ (c : Cmd), s.dev.front (↑r) 1793 = some c ∧ (c.badNone = false ∧ c.bad [(12,
      16, 255), (28, 1, 3)] = false ∧ 1 ≤ c.get 16 4 ∧ c.get 16 4 ≤ 2 ^ 20 ∧ c.get 16 4 % 4 = 0 ∧
      c.get 12 4 + c.get 16 4 ≤ 67108864 ∧ (c.buf 20 28).bad (c.get 16 4) = false) ∧
      (s.dev.flashWay (sectorsOf (c.get 12 4) (c.get 16 4)) = FlashWay.busy ∨
      s.dev.flashWay (sectorsOf (c.get 12 4) (c.get 16 4)) = FlashWay.suspend) ∧ bit (c.byte 28) 1 = true) ∧
    (∃ (r : Fin 4096), ∃ (s : State), ∃ (c : Cmd), s.dev.front (↑r) 1793 = some c ∧ (c.badNone = false ∧ c.bad [(12,
      16, 255), (28, 1, 3)] = false ∧ 1 ≤ c.get 16 4 ∧ c.get 16 4 ≤ 2 ^ 20 ∧ c.get 16 4 % 4 = 0 ∧
      c.get 12 4 + c.get 16 4 ≤ 67108864 ∧ (c.buf 20 28).bad (c.get 16 4) = false) ∧ bit (c.byte 28) 1 = false ∧
      s.dev.flashWay (sectorsOf (c.get 12 4) (c.get 16 4)) = FlashWay.busy) ∧
    (∃ (r : Fin 4096), ∃ (s : State), ∃ (c : Cmd), s.dev.front (↑r) 1793 = some c ∧ (c.badNone = false ∧ c.bad [(12,
      16, 255), (28, 1, 3)] = false ∧ 1 ≤ c.get 16 4 ∧ c.get 16 4 ≤ 2 ^ 20 ∧ c.get 16 4 % 4 = 0 ∧
      c.get 12 4 + c.get 16 4 ≤ 67108864 ∧ (c.buf 20 28).bad (c.get 16 4) = false) ∧ bit (c.byte 28) 1 = false ∧
      s.dev.flashWay (sectorsOf (c.get 12 4) (c.get 16 4)) = FlashWay.suspend ∧ (c.buf 20 28).fab = false ∧
      s.dev.hostOk = true) ∧
    (∃ (r : Fin 4096), ∃ (s : State), ∃ (c : Cmd), s.dev.front (↑r) 1793 = some c ∧ c.badNone = false ∧
      67108864 < c.get 12 4 + c.get 16 4) ∧
    (∃ (r : Fin 4096), ∃ (s : State), ∃ (c : Cmd), s.dev.front (↑r) 1794 = some c ∧ (c.badNone = false ∧ c.bad [(12,
      5, 255), (20, 4, 255)] = false ∧ c.get 12 4 % 65536 = 0 ∧ 1 ≤ c.byte 16 ∧ c.byte 16 ≤ 16 ∧
      c.get 12 4 + c.byte 16 * 65536 ≤ 67108864) ∧ s.dev.flashKept (c.get 12 4) (c.byte 16 * 65536) = false) ∧
    (∃ (r : Fin 4096), ∃ (s : State), ∃ (c : Cmd), s.dev.front (↑r) 1794 = some c ∧ (c.badNone = false ∧ c.bad [(12,
      5, 255), (20, 4, 255)] = false ∧ c.get 12 4 % 65536 = 0 ∧ 1 ≤ c.byte 16 ∧ c.byte 16 ≤ 16 ∧
      c.get 12 4 + c.byte 16 * 65536 ≤ 67108864) ∧ s.dev.flashKept (c.get 12 4) (c.byte 16 * 65536) = true) ∧
    (∃ (r : Fin 4096), ∃ (s : State), ∃ (c : Cmd), s.dev.front (↑r) 1794 = some c ∧ c.badNone = false ∧
      c.get 12 4 % 65536 ≠ 0) :=
  ⟨⟨3, (cmds 3 [desc 0x701 0 0 7 0 [(14, 5), (16, 8), (21,
     144)]] (fun d => d.modPcie fun p => { p with busMaster := false })), _, rfl, by decide⟩,
   ⟨3, (cmds 3 [desc 0x701 0 0 7 0 [(14, 5), (16, 8), (21, 144)]] (id)), _, rfl, by decide⟩,
   ⟨3, (cmds 3 [desc 0x701 0 0 7 0 [(14, 5), (16, 8), (21, 16), (23, 1), (28, 1)]] (id)), _, rfl, by decide⟩,
   ⟨3, (cmds 3 [desc 0x701 0 0 7 0 [(14, 5), (16, 8), (21, 144), (28,
     2)]] (fl fun f => { f with erasing := some 5 })), _, rfl, by decide⟩,
   ⟨3, (cmds 3 [desc 0x701 0 0 7 0 [(14, 5), (16, 8), (21, 144)]] (fl fun f => { f with erasing := some 5 })), _,
     rfl, by decide⟩,
   ⟨3, (cmds 3 [desc 0x701 0 0 7 0 [(14, 5), (16, 8), (21, 144)]] (fl fun f => { f with erasing := some 6 })), _,
     rfl, by decide⟩,
   ⟨3, (cmds 3 [desc 0x701 0 0 7 0 [(12, 252), (13, 255), (14, 255), (15, 3), (16, 8), (21, 144)]] (id)), _, rfl,
     by decide⟩,
   ⟨3, (cmds 3 [desc 0x702 0 0 7 0 [(14, 5), (16, 1), (20, 50)]] (fun d => d.wr TCH_BOOT 0x4)), _, rfl, by decide⟩,
   ⟨3, (cmds 3 [desc 0x702 0 0 7 0 [(14, 5), (16, 1), (20, 50)]] (fun d => d.wr TCH_BOOT 0x0)), _, rfl, by decide⟩,
   ⟨3, (cmds 3 [desc 0x702 0 0 7 0 [(12, 1), (14, 5), (16, 1), (20, 50)]] (fun d => d.wr TCH_BOOT 0x0)), _, rfl,
     by decide⟩⟩

theorem meets_FlashCommands_2 :
    (∃ (r : Fin 4096), ∃ (s : State), ∃ (c : Cmd), s.dev.front (↑r) 1795 = some c ∧ ((c.badNone = false ∧ c.bad [(12,
      16, 255), (28, 1, 3)] = false ∧ c.get 12 4 % 4 = 0 ∧ 4 ≤ c.get 16 4 ∧
      (c.get 16 4 ≤ if bit (c.byte 28) 1 = true then 64 else 4096) ∧ c.get 16 4 % 4 = 0 ∧
      c.get 12 4 + c.get 16 4 ≤ 67108864 ∧ (c.buf 20 28).bad (c.get 16 4) = false) ∧
      s.dev.flashKept (c.get 12 4) (c.get 16 4) = false) ∧ (c.buf 20 28).fab = false ∧ s.dev.hostOk = false) ∧
    (∃ (r : Fin 4096), ∃ (s : State), ∃ (c : Cmd), s.dev.front (↑r) 1795 = some c ∧ ((c.badNone = false ∧ c.bad [(12,
      16, 255), (28, 1, 3)] = false ∧ c.get 12 4 % 4 = 0 ∧ 4 ≤ c.get 16 4 ∧
      (c.get 16 4 ≤ if bit (c.byte 28) 1 = true then 64 else 4096) ∧ c.get 16 4 % 4 = 0 ∧
      c.get 12 4 + c.get 16 4 ≤ 67108864 ∧ (c.buf 20 28).bad (c.get 16 4) = false) ∧
      s.dev.flashKept (c.get 12 4) (c.get 16 4) = false) ∧ (c.buf 20 28).fab = false ∧ s.dev.hostOk = true) ∧
    (∃ (r : Fin 4096), ∃ (s : State), ∃ (c : Cmd), s.dev.front (↑r) 1795 = some c ∧ ((c.badNone = false ∧ c.bad [(12,
      16, 255), (28, 1, 3)] = false ∧ c.get 12 4 % 4 = 0 ∧ 4 ≤ c.get 16 4 ∧
      (c.get 16 4 ≤ if bit (c.byte 28) 1 = true then 64 else 4096) ∧ c.get 16 4 % 4 = 0 ∧
      c.get 12 4 + c.get 16 4 ≤ 67108864 ∧ (c.buf 20 28).bad (c.get 16 4) = false) ∧
      s.dev.flashKept (c.get 12 4) (c.get 16 4) = false) ∧ (c.buf 20 28).fab = true ∧
      (ladRead (c.get 16 4 + 1) (c.buf 20 28).addr (c.get 16 4) (s.mem, s.dev)).snd.snd = none) ∧
    (∃ (r : Fin 4096), ∃ (s : State), ∃ (c : Cmd), s.dev.front (↑r) 1795 = some c ∧ ((c.badNone = false ∧ c.bad [(12,
      16, 255), (28, 1, 3)] = false ∧ c.get 12 4 % 4 = 0 ∧ 4 ≤ c.get 16 4 ∧
      (c.get 16 4 ≤ if bit (c.byte 28) 1 = true then 64 else 4096) ∧ c.get 16 4 % 4 = 0 ∧
      c.get 12 4 + c.get 16 4 ≤ 67108864 ∧ (c.buf 20 28).bad (c.get 16 4) = false) ∧
      s.dev.flashKept (c.get 12 4) (c.get 16 4) = false) ∧ (c.buf 20 28).fab = true ∧ ∃ (code : Nat),
      (ladRead ((fun (c : Cmd) => c.get 16 4) c + 1) ((fun (c : Cmd) => c.buf 20 28) c).addr ((fun (c : Cmd) => c.get 16 4) c) (s.mem,
      s.dev)).snd.snd = some code) ∧
    (∃ (r : Fin 4096), ∃ (s : State), ∃ (c : Cmd), s.dev.front (↑r) 1795 = some c ∧ (c.badNone = false ∧ c.bad [(12,
      16, 255), (28, 1, 3)] = false ∧ c.get 12 4 % 4 = 0 ∧ 4 ≤ c.get 16 4 ∧
      (c.get 16 4 ≤ if bit (c.byte 28) 1 = true then 64 else 4096) ∧ c.get 16 4 % 4 = 0 ∧
      c.get 12 4 + c.get 16 4 ≤ 67108864 ∧ (c.buf 20 28).bad (c.get 16 4) = false) ∧
      s.dev.flashKept (c.get 12 4) (c.get 16 4) = true) ∧
    (∃ (r : Fin 4096), ∃ (s : State), ∃ (c : Cmd), s.dev.front (↑r) 1808 = some c ∧ ((c.tgt < 4 ∧ c.bad [(12, 12,
      255), (24, 1, 1)] = false ∧ c.get 12 4 ≤ regionLimit c.tgt ∧ (c.buf 16 24).bad (c.get 12 4) = false) ∧
      1 ≤ c.get 12 4 ∧ ∀ (w : Wait), w ∈ s.dev.waits → ¬(w.op = 1808 ∧ w.target = c.tgt)) ∧
      (c.buf 16 24).fab = false ∧ s.dev.hostOk = false) ∧
    (∃ (r : Fin 4096), ∃ (s : State), ∃ (c : Cmd), s.dev.front (↑r) 1808 = some c ∧ ((c.tgt < 4 ∧ c.bad [(12, 12,
      255), (24, 1, 1)] = false ∧ c.get 12 4 ≤ regionLimit c.tgt ∧ (c.buf 16 24).bad (c.get 12 4) = false) ∧
      1 ≤ c.get 12 4 ∧ ∀ (w : Wait), w ∈ s.dev.waits → ¬(w.op = 1808 ∧ w.target = c.tgt)) ∧
      (c.buf 16 24).fab = false ∧ s.dev.hostOk = true ∧ (s.mem, s.dev).snd.regionActs (s.mem,
      s.dev).fst c.tgt (s.mem.hostSpan (c.buf 16 24).addr (c.get 12 4)) = none) ∧
    (∃ (r : Fin 4096), ∃ (s : State), ∃ (c : Cmd), s.dev.front (↑r) 1808 = some c ∧ ((c.tgt < 4 ∧ c.bad [(12, 12,
      255), (24, 1, 1)] = false ∧ c.get 12 4 ≤ regionLimit c.tgt ∧ (c.buf 16 24).bad (c.get 12 4) = false) ∧
      1 ≤ c.get 12 4 ∧ ∀ (w : Wait), w ∈ s.dev.waits → ¬(w.op = 1808 ∧ w.target = c.tgt)) ∧
      (c.buf 16 24).fab = true ∧ (ladRead (c.get 12 4 + 1) (c.buf 16 24).addr (c.get 12 4) (s.mem,
      s.dev)).snd.snd = none ∧ (ladRead (c.get 12 4 + 1) (c.buf 16 24).addr (c.get 12 4) (s.mem,
      s.dev)).fst.snd.regionActs (ladRead (c.get 12 4 + 1) (c.buf 16 24).addr (c.get 12 4) (s.mem,
      s.dev)).fst.fst c.tgt (ladRead (c.get 12 4 + 1) (c.buf 16 24).addr (c.get 12 4) (s.mem,
      s.dev)).snd.fst = none) ∧
    (∃ (r : Fin 4096), ∃ (s : State), ∃ (c : Cmd), s.dev.front (↑r) 1808 = some c ∧ ((c.tgt < 4 ∧ c.bad [(12, 12,
      255), (24, 1, 1)] = false ∧ c.get 12 4 ≤ regionLimit c.tgt ∧ (c.buf 16 24).bad (c.get 12 4) = false) ∧
      1 ≤ c.get 12 4 ∧ ∀ (w : Wait), w ∈ s.dev.waits → ¬(w.op = 1808 ∧ w.target = c.tgt)) ∧
      (c.buf 16 24).fab = true ∧ ∃ (code : Nat),
      (ladRead ((fun (c : Cmd) => c.get 12 4) c + 1) ((fun (c : Cmd) => c.buf 16 24) c).addr ((fun (c : Cmd) => c.get 12 4) c) (s.mem,
      s.dev)).snd.snd = some code) ∧
    (∃ (r : Fin 4096), ∃ (s : State), ∃ (c : Cmd), s.dev.front (↑r) 1808 = some c ∧ (c.tgt < 4 ∧ c.bad [(12, 12, 255),
      (24, 1, 1)] = false ∧ c.get 12 4 ≤ regionLimit c.tgt ∧ (c.buf 16 24).bad (c.get 12 4) = false) ∧
      1 ≤ c.get 12 4 ∧ ¬∀ (w : Wait), w ∈ s.dev.waits → ¬(w.op = 1808 ∧ w.target = c.tgt)) :=
  ⟨⟨3, (withMem (fun m => (m.setHost 0x9000 [1, 2, 3]).setByte 0x4050000 0xF0) (cmds 3 [desc 0x703 0 0 7 0 [(13, 1),
     (15, 1), (16, 8), (21, 144)]] (fun d => d.modPcie fun p => { p with busMaster := false }))), _, rfl,
     by decide⟩,
   ⟨3, (withMem (fun m => (m.setHost 0x9000 [1, 2, 3]).setByte 0x4050000 0xF0) (cmds 3 [desc 0x703 0 0 7 0 [(14, 5),
     (16, 8), (21, 144)]] (fun d => d.wr TCH_BOOT 0xC))), _, rfl, by decide⟩,
   ⟨3, (withMem (fun m => (m.setHost 0x9000 [1, 2, 3]).setByte 0x4050000 0xF0) (cmds 3 [desc 0x703 0 0 7 0 [(13, 1),
     (15, 1), (16, 8), (21, 16), (23, 1), (28, 1)]] (fun d => d.wr (ING_BANK_OWN 0) 8))), _, rfl, by decide⟩,
   ⟨3, (withMem (fun m => (m.setHost 0x9000 [1, 2, 3]).setByte 0x4050000 0xF0) (cmds 3 [desc 0x703 0 0 7 0 [(14, 5),
     (16, 8), (21, 16), (23, 1), (28, 1)]] (fun d => d.wr TCH_BOOT 0xC))), _, rfl, by decide, by decide, _, rfl⟩,
   ⟨3, (withMem (fun m => (m.setHost 0x9000 [1, 2, 3]).setByte 0x4050000 0xF0) (cmds 3 [desc 0x703 0 0 7 0 [(14, 5),
     (16, 8), (21, 144)]] (id))), _, rfl, by decide⟩,
   ⟨3, (cmds 3 [desc 0x710 0 0 7 0 [(12, 5), (17,
     144)]] (fun d => d.modPcie fun p => { p with busMaster := false })), _, rfl, by decide⟩,
   ⟨3, (cmds 3 [desc 0x710 0 0 7 0 [(12, 5), (17,
     144)]] (fl fun f => { f with retired := (List.range 16).map (· + 512) })), _, rfl, by decide⟩,
   ⟨3, (cmds 3 [desc 0x710 0 0 7 0 [(12, 5), (17, 16), (19, 1), (24,
     1)]] (fun d => ((fl fun f => { f with retired := (List.range 16).map (· + 512) }) d).wr (ING_BANK_OWN 0) 8)),
     _, rfl, by decide⟩,
   ⟨3, (cmds 3 [desc 0x710 0 0 7 0 [(12, 5), (17, 16), (19, 1), (24, 1)]] (id)), _, rfl, by decide, by decide, _,
     rfl⟩,
   ⟨3, (cmds 3 [desc 0x710 0 0 7 0 [(12, 5), (17,
     144)]] (fun d => { d with waits := [⟨5, 6, 0x0710, 0, [], 0, 0, 0⟩] })), _, rfl, by decide⟩⟩

theorem meets_FlashCommands_3 :
    (∃ (r : Fin 4096), ∃ (s : State), ∃ (c : Cmd), s.dev.front (↑r) 1809 = some c ∧ (c.tgt < 4 ∧ c.bad [(12, 12, 255),
      (24, 1, 1)] = false ∧ c.get 12 4 ≤ regionLimit c.tgt ∧ (c.buf 16 24).bad (c.get 12 4) = false) ∧
      s.dev.region s.mem c.tgt = none) ∧
    (∃ (r : Fin 4096), ∃ (s : State), ∃ (c : Cmd), s.dev.front (↑r) 1824 = some c ∧ ((c.tgt < 2 ∧ c.bad [(12, 12,
      255), (24, 1, 1)] = false ∧ 1 ≤ c.get 12 4 ∧ c.get 12 4 ≤ 16711680 ∧
      (c.buf 16 24).bad (c.get 12 4) = false) ∧ s.dev.fld TCH_BOOT TCH_BOOT_slot ≠ c.tgt ∧ ∀ (w : Wait),
      w ∈ s.dev.waits → ¬(w.op = 1824 ∧ w.target = c.tgt)) ∧ (c.buf 16 24).fab = false ∧ s.dev.hostOk = false) ∧
    (∃ (r : Fin 4096), ∃ (s : State), ∃ (c : Cmd), s.dev.front (↑r) 1824 = some c ∧ ((c.tgt < 2 ∧ c.bad [(12, 12,
      255), (24, 1, 1)] = false ∧ 1 ≤ c.get 12 4 ∧ c.get 12 4 ≤ 16711680 ∧
      (c.buf 16 24).bad (c.get 12 4) = false) ∧ s.dev.fld TCH_BOOT TCH_BOOT_slot ≠ c.tgt ∧ ∀ (w : Wait),
      w ∈ s.dev.waits → ¬(w.op = 1824 ∧ w.target = c.tgt)) ∧ (c.buf 16 24).fab = false ∧ s.dev.hostOk = true) ∧
    (∃ (r : Fin 4096), ∃ (s : State), ∃ (c : Cmd), s.dev.front (↑r) 1824 = some c ∧ ((c.tgt < 2 ∧ c.bad [(12, 12,
      255), (24, 1, 1)] = false ∧ 1 ≤ c.get 12 4 ∧ c.get 12 4 ≤ 16711680 ∧
      (c.buf 16 24).bad (c.get 12 4) = false) ∧ s.dev.fld TCH_BOOT TCH_BOOT_slot ≠ c.tgt ∧ ∀ (w : Wait),
      w ∈ s.dev.waits → ¬(w.op = 1824 ∧ w.target = c.tgt)) ∧ (c.buf 16 24).fab = true ∧
      (ladRead (c.get 12 4 + 1) (c.buf 16 24).addr (c.get 12 4) (s.mem, s.dev)).snd.snd = none) ∧
    (∃ (r : Fin 4096), ∃ (s : State), ∃ (c : Cmd), s.dev.front (↑r) 1824 = some c ∧ ((c.tgt < 2 ∧ c.bad [(12, 12,
      255), (24, 1, 1)] = false ∧ 1 ≤ c.get 12 4 ∧ c.get 12 4 ≤ 16711680 ∧
      (c.buf 16 24).bad (c.get 12 4) = false) ∧ s.dev.fld TCH_BOOT TCH_BOOT_slot ≠ c.tgt ∧ ∀ (w : Wait),
      w ∈ s.dev.waits → ¬(w.op = 1824 ∧ w.target = c.tgt)) ∧ (c.buf 16 24).fab = true ∧ ∃ (code : Nat),
      (ladRead ((fun (c : Cmd) => c.get 12 4) c + 1) ((fun (c : Cmd) => c.buf 16 24) c).addr ((fun (c : Cmd) => c.get 12 4) c) (s.mem,
      s.dev)).snd.snd = some code) ∧
    (∃ (r : Fin 4096), ∃ (s : State), ∃ (c : Cmd), s.dev.front (↑r) 1824 = some c ∧ (c.tgt < 2 ∧ c.bad [(12, 12, 255),
      (24, 1, 1)] = false ∧ 1 ≤ c.get 12 4 ∧ c.get 12 4 ≤ 16711680 ∧ (c.buf 16 24).bad (c.get 12 4) = false) ∧
      s.dev.fld TCH_BOOT TCH_BOOT_slot = c.tgt) ∧
    (∃ (r : Fin 4096), ∃ (s : State), ∃ (c : Cmd), s.dev.front (↑r) 1825 = some c ∧ c.tgt < 2 ∧ c.bad [] = false ∧
      s.mem.slotVerified c.tgt = true) ∧
    (∃ (r : Fin 4096), ∃ (s : State), ∃ (c : Cmd), s.dev.front (↑r) 1825 = some c ∧ c.tgt < 2 ∧ c.bad [] = false ∧
      s.mem.slotVerified c.tgt = false) ∧
    (∃ (s : State), (s.dev.progJob = none ∨ (s.dev.fls.erasing.isSome && s.dev.fls.forced) = true ∨
      (s.dev.fls.frozen && !s.dev.fls.progLeft) = true ∨ s.dev.fls.erasing ≠ none ∧ s.dev.fls.susp = false ∧
      ∃ (at0 : Nat), s.dev.fls.resumeAt = some at0 ∧ s.dev.now < at0 + 800000) ∧ ∃ (bad : Bool), True) ∧
    (∃ (s : State), ∃ (j : FlsJob), s.dev.progJob = some j ∧ (s.dev.fls.erasing.isSome && s.dev.fls.forced) = false ∧
      (s.dev.fls.frozen && !s.dev.fls.progLeft) = false ∧ ¬(s.dev.fls.erasing ≠ none ∧ s.dev.fls.susp = false ∧
      ∃ (at0 : Nat), s.dev.fls.resumeAt = some at0 ∧ s.dev.now < at0 + 800000) ∧ ∃ (x : Nat), ∃ (b : List Byte),
      x + b.length ≤ 59768832 ∧ ∃ (clear : Bool), ∃ (rest : List FlsAct), j.acts = FlsAct.prog x b clear :: rest ∧
      ¬(clear = true ∨ jobErases j = true ∨ jobBlank s.mem j = true) ∧ ∃ (bad : Bool), True) :=
  ⟨⟨3, (cmds 3 [desc 0x711 0 0 7 0 [(12, 5), (17, 144)]] (id)), _, rfl, by decide⟩,
   ⟨3, (cmds 3 [desc 0x720 0 0 7 0 [(12, 40), (17,
     144)]] (fun d => ((fun d => d.modPcie fun p => { p with busMaster := false } : Dev → Dev) d).wr TCH_BOOT 0x4)),
     _, rfl, by decide⟩,
   ⟨3, (cmds 3 [desc 0x720 0 0 7 0 [(12, 40), (17, 144)]] (fun d => ((id : Dev → Dev) d).wr TCH_BOOT 0x4)), _, rfl,
     by decide⟩,
   ⟨3, (cmds 3 [desc 0x720 0 0 7 0 [(12, 40), (17, 16), (19, 1), (24,
     1)]] (fun d => ((fun d => d.wr (ING_BANK_OWN 0) 8 : Dev → Dev) d).wr TCH_BOOT 0x4)), _, rfl, by decide⟩,
   ⟨3, (cmds 3 [desc 0x720 0 0 7 0 [(12, 40), (17, 16), (19, 1), (24,
     1)]] (fun d => ((id : Dev → Dev) d).wr TCH_BOOT 0x4)), _, rfl, by decide, by decide, _, rfl⟩,
   ⟨3, (cmds 3 [desc 0x720 0 0 7 0 [(12, 40), (17, 144)]] (fun d => ((id : Dev → Dev) d).wr TCH_BOOT 0x0)), _, rfl,
     by decide⟩,
   ⟨3, (withMem (fun m => m.setSpan (flsAddr (slotAt 1)) [0, 0, 0,
     0]) (cmds 3 [desc 0x721 0 0 7 1 []] (fun d => d.wr TCH_BOOT 0x0))), _, rfl, by decide⟩,
   ⟨3, (cmds 3 [desc 0x721 0 0 7 0 []] (fun d => d.wr TCH_BOOT 0x0)), _, rfl, by decide⟩,
   ⟨(cmds 3 [desc 0x701 0 0 7 0 [(14, 5), (16, 8), (21, 144)]] (id)), by decide, false, by decide⟩,
   ⟨(withMem (fun m => (m.setByte 0x4050001 0xF0).setByte 0x4060000 0) (run fun d => { (fl (fun f => { (f) with jobs := [⟨3, 0x0703, [.prog 0x50000 [1, 2, 3] false], 0, 0, []⟩] }) (evOn d)) with waits := [⟨3, 9, 0x0703, 0, [], 0, 0, 0⟩, ⟨4, 9, 0x0703, 0, [], 0, 0, 0⟩] })),
     _, rfl, by decide, by decide, by decide, 0x50000, ([1, 2, 3] : List Byte), by decide, false,
     ([] : List FlsAct), by decide, by decide, false, by decide⟩⟩

theorem meets_FlashCommands_4 :
    (∃ (s : State), ∃ (j : FlsJob), s.dev.progJob = some j ∧ (s.dev.fls.erasing.isSome && s.dev.fls.forced) = false ∧
      (s.dev.fls.frozen && !s.dev.fls.progLeft) = false ∧ ¬(s.dev.fls.erasing ≠ none ∧ s.dev.fls.susp = false ∧
      ∃ (at0 : Nat), s.dev.fls.resumeAt = some at0 ∧ s.dev.now < at0 + 800000) ∧ ∃ (x : Nat), ∃ (b : List Byte),
      x + b.length ≤ 59768832 ∧ ∃ (clear : Bool), ∃ (rest : List FlsAct), j.acts = FlsAct.prog x b clear :: rest ∧
      (clear = true ∨ jobErases j = true ∨ jobBlank s.mem j = true)) ∧
    (∃ (s : State), (s.dev.fls.erasing = none ∨ s.dev.fls.susp = true ∨ s.dev.fls.frozen = true) ∧ ∃ (bad : Bool),
      True) ∧
    (∃ (s : State), s.dev.fls.frozen = true ∨ s.dev.fls.susp = false ∨ s.dev.progJob ≠ none ∧
      s.dev.fls.forced = false) ∧
    (∃ (s : State), s.dev.fls.frozen = false ∧ s.dev.fls.susp = true ∧ (s.dev.progJob = none ∨
      s.dev.fls.forced = true)) ∧
    (∃ (s : State), ∃ (sec : Nat), s.dev.fls.erasing = some sec ∧ ∃ (j : FlsJob), s.dev.eraseJob sec = some j ∧
      j.limit ≠ 0 ∧ s.dev.fls.forced = false ∧ (s.dev.now - s.dev.fls.eraseAt) / 800000 < j.limit) ∧
    (∃ (s : State), ∃ (sec : Nat), s.dev.fls.erasing = some sec ∧ ∃ (j : FlsJob), s.dev.eraseJob sec = some j ∧
      j.limit ≠ 0 ∧ s.dev.fls.forced = false ∧ j.limit ≤ (s.dev.now - s.dev.fls.eraseAt) / 800000) ∧
    (∃ (s : State), s.dev.fls.erasing = none ∨ s.dev.fls.forced = true) :=
  ⟨⟨(id (run fun d => { (fl (fun f => { (f) with jobs := [⟨3, 0x0703, [.prog 0x50000 [1, 2, 3] false], 0, 0, []⟩] }) (evOn d)) with waits := [⟨3, 9, 0x0703, 0, [], 0, 0, 0⟩, ⟨4, 9, 0x0703, 0, [], 0, 0, 0⟩] })),
     _, rfl, by decide, by decide, by decide, 0x50000, ([1, 2, 3] : List Byte), by decide, false,
     ([] : List FlsAct), by decide⟩,
   ⟨(cmds 3 [desc 0x701 0 0 7 0 [(14, 5), (16, 8), (21, 144)]] (id)), by decide, false, by decide⟩,
   ⟨(cmds 3 [desc 0x701 0 0 7 0 [(14, 5), (16, 8), (21, 144)]] (id)), by decide⟩,
   ⟨(cmds 3 [desc 0x701 0 0 7 0 [(14, 5), (16, 8), (21,
     144)]] (fl fun f => { f with erasing := some 5, susp := true })), by decide⟩,
   ⟨(id (run fun d => { (fl (fun f => { ({ f with erasing := some 5 }) with jobs := [⟨3, 0x0703, [.erase 5], 0, 50, []⟩] }) (evOn d)) with waits := [⟨3, 9, 0x0703, 0, [], 0, 0, 0⟩, ⟨4, 9, 0x0703, 0, [], 0, 0, 0⟩] })),
     _, rfl, _, rfl, by decide⟩,
   ⟨((run fun d => { (fl (fun f => { ({ f with erasing := some 5, eraseAt := 0 }) with jobs := [⟨3, 0x0702, [.erase 5], 0, 50, []⟩] }) (evOn d)) with waits := [⟨3, 9, 0x0702, 0, [], 0, 0, 0⟩], now := 100000000 })),
     _, rfl, _, rfl, by decide⟩,
   ⟨(cmds 3 [desc 0x701 0 0 7 0 [(14, 5), (16, 8), (21, 144)]] (id)), by decide⟩⟩

theorem meets_SecurityAndDebugCommands_1 :
    (∃ (r : Fin 4096), ∃ (s : State), ∃ (c : Cmd), s.dev.front (↑r) 2049 = some c ∧ (1 ≤ c.tgt ∧ c.tgt ≤ 15 ∧
      c.bad [] = false) ∧ mget none s.dev.hlm.sess c.tgt ≠ none) ∧
    (∃ (r : Fin 4096), ∃ (s : State), ∃ (c : Cmd), s.dev.front (↑r) 2049 = some c ∧ (1 ≤ c.tgt ∧ c.tgt ≤ 15 ∧
      c.bad [] = false) ∧ mget none s.dev.hlm.sess c.tgt = none) ∧
    (∃ (r : Fin 4096), ∃ (s : State), ∃ (c : Cmd), s.dev.front (↑r) 2050 = some c ∧ c.badNone = false ∧ c.bad [(12, 2,
      255)] = false ∧ c.get 12 2 ||| authBits = authBits) ∧
    (∃ (r : Fin 4096), ∃ (s : State), ∃ (c : Cmd), s.dev.front (↑r) 2050 = some c ∧ c.badNone = false ∧
      c.get 12 2 ||| authBits ≠ authBits) ∧
    (∃ (r : Fin 4096), ∃ (s : State), ∃ (c : Cmd), s.dev.front (↑r) 2051 = some c ∧ (c.badNone = false ∧ c.bad [(12,
      1, 255)] = false ∧ 1 ≤ c.byte 12 ∧ c.byte 12 ≤ 4) ∧ s.dev.lifeMay (c.byte 12) = true ∧ c.byte 12 ≠ 4) ∧
    (∃ (r : Fin 4096), ∃ (s : State), ∃ (c : Cmd), s.dev.front (↑r) 2051 = some c ∧ (c.badNone = false ∧ c.bad [(12,
      1, 255)] = false ∧ 1 ≤ c.byte 12 ∧ c.byte 12 ≤ 4) ∧ c.byte 12 = 4 ∧ s.dev.lifecycle ≠ 4) ∧
    (∃ (r : Fin 4096), ∃ (s : State), ∃ (c : Cmd), s.dev.front (↑r) 2051 = some c ∧ (c.badNone = false ∧ c.bad [(12,
      1, 255)] = false ∧ 1 ≤ c.byte 12 ∧ c.byte 12 ≤ 4) ∧ s.dev.lifeMay (c.byte 12) = false) ∧
    (∃ (r : Fin 4096), ∃ (s : State), ∃ (c : Cmd), s.dev.front (↑r) 2052 = some c ∧ plain c) ∧
    (∃ (r : Fin 4096), ∃ (s : State), ∃ (c : Cmd), s.dev.front (↑r) 2064 = some c ∧ ((c.badNone = false ∧ c.bad [(12,
      12, 255), (24, 1, 1)] = false ∧ c.get 20 4 = 140 ∧ (c.buf 12 24).bad 140 = false) ∧ s.dev.lifecycle = 0 ∧
      s.dev.ownerKey = false) ∧ (c.buf 12 24).fab = false ∧ s.dev.hostOk = false) ∧
    (∃ (r : Fin 4096), ∃ (s : State), ∃ (c : Cmd), s.dev.front (↑r) 2064 = some c ∧ (c.badNone = false ∧ c.bad [(12,
      12, 255), (24, 1, 1)] = false ∧ c.get 20 4 = 140 ∧ (c.buf 12 24).bad 140 = false) ∧ (s.dev.lifecycle ≠ 0 ∨
      s.dev.ownerKey = true)) :=
  ⟨⟨3,
     (cmds 3 [desc 0x801 0 0 7 1 []] (fun d => d.modHlm fun h => { h with sess := ⟨[(1, some ⟨5, []⟩), (3, some ⟨6, [4]⟩)]⟩ })),
     _, rfl, by decide⟩,
   ⟨3, (cmds 3 [desc 0x801 0 0 7 1 []] (id)), _, rfl, by decide⟩,
   ⟨3, (cmds 3 [desc 0x802 0 0 7 0 []] (id)), _, rfl, by decide⟩,
   ⟨3, (cmds 3 [desc 0x802 0 0 7 0 [(12, 255), (13, 255)]] (id)), _, rfl, by decide⟩,
   ⟨3, (cmds 3 [desc 0x803 0 0 7 0 [(12, 1)]] (otpK 0 true)), _, rfl, by decide⟩,
   ⟨3, (cmds 3 [desc 0x803 0 0 7 0 [(12, 4)]] (otpK 0 true)), _, rfl, by decide⟩,
   ⟨3, (cmds 3 [desc 0x803 0 0 7 0 [(12, 1)]] (otpK 0 false)), _, rfl, by decide⟩,
   ⟨3, (cmds 3 [desc 0x804 0 0 7 0 []] (id)), _, rfl, by unfold plain; decide⟩,
   ⟨3, (cmds 3 [desc 0x810 0 0 7 0 [(13, 144), (20,
     140)]] (fun d => otpK 0 false (d.modPcie fun p => { p with busMaster := false }))), _, rfl, by decide⟩,
   ⟨3, (cmds 3 [desc 0x810 0 0 7 0 [(13, 144), (20, 140)]] (fun d => otpK 0 true (d))), _, rfl, by decide⟩⟩

theorem meets_SecurityAndDebugCommands_2 :
    (∃ (r : Fin 4096), ∃ (s : State), ∃ (c : Cmd), s.dev.front (↑r) 2305 = some c ∧ c.badNone = false ∧ c.bad [(12, 8,
      255), (20, 1, 1)] = false ∧ (c.buf 12 20).bad 768 = false ∧ s.dev.dumpDone ↑r = none) ∧
    (∃ (r : Fin 4096), ∃ (s : State), ∃ (w : Wait),
      List.find? (fun (w : Wait) => w.sq == ↑r && w.op == 2305 && w.aux.getD 3 0 == 31) s.dev.waits = some w ∧
      w.aux.getD 0 0 ≠ 1 ∧ s.dev.hostOk = false) ∧
    (∃ (r : Fin 4096), ∃ (s : State), ∃ (w : Wait),
      List.find? (fun (w : Wait) => w.sq == ↑r && w.op == 2305 && w.aux.getD 3 0 == 31) s.dev.waits = some w ∧
      w.aux.getD 0 0 ≠ 1 ∧ s.dev.hostOk = true) ∧
    (∃ (r : Fin 4096), ∃ (s : State), ∃ (w : Wait),
      List.find? (fun (w : Wait) => w.sq == ↑r && w.op == 2305 && w.aux.getD 3 0 == 31) s.dev.waits = some w ∧
      w.aux.getD 0 0 = 1) ∧
    (∃ (b : Nat), ∃ (r : Fin 4096), ∃ (s : State), ∃ (c : Cmd), s.dev.front (↑r) 2306 = some c ∧
      (bankOfTarget c.tgt = some b ∧ b ≠ 71 ∧ (b < 64 → b % 16 ≠ 15 ∧ s.dev.badCluster (b / 16) = false ∧
      s.dev.clusterFree (b / 16)) ∧ c.bad [] = false) ∧ s.dev.bankFree b = true) ∧
    (∃ (b : Nat), ∃ (r : Fin 4096), ∃ (s : State), ∃ (c : Cmd), s.dev.front (↑r) 2306 = some c ∧
      (bankOfTarget c.tgt = some b ∧ b ≠ 71 ∧ (b < 64 → b % 16 ≠ 15 ∧ s.dev.badCluster (b / 16) = false ∧
      s.dev.clusterFree (b / 16)) ∧ c.bad [] = false) ∧ s.dev.bankFree b = false) ∧
    (∃ (r : Fin 4096), ∃ (s : State), ∃ (c : Cmd), s.dev.front (↑r) 2307 = some c ∧ (c.badNone = false ∧ c.bad [(12,
      12, 255), (24, 1, 1)] = false ∧ c.get 12 2 ≤ 2047 ∧ 1 ≤ c.get 14 2 ∧ c.get 14 2 ≤ 2048 ∧
      (c.buf 16 24).bad (512 * c.get 14 2) = false ∧
      s.dev.flashWay (List.map (fun (i : Nat) => 896 + i / 128) (List.map (fun (i : Nat) => (c.get 12 2 + i) % 2048) (List.range (c.get 14 2)))) = FlashWay.now) ∧
      (c.buf 16 24).fab = false ∧ s.dev.hostOk = false) ∧
    (∃ (r : Fin 4096), ∃ (s : State), ∃ (c : Cmd), s.dev.front (↑r) 2307 = some c ∧ (c.badNone = false ∧ c.bad [(12,
      12, 255), (24, 1, 1)] = false ∧ c.get 12 2 ≤ 2047 ∧ 1 ≤ c.get 14 2 ∧ c.get 14 2 ≤ 2048 ∧
      (c.buf 16 24).bad (512 * c.get 14 2) = false ∧
      s.dev.flashWay (List.map (fun (i : Nat) => 896 + i / 128) (List.map (fun (i : Nat) => (c.get 12 2 + i) % 2048) (List.range (c.get 14 2)))) = FlashWay.now) ∧
      (c.buf 16 24).fab = false ∧ s.dev.hostOk = true) ∧
    (∃ (r : Fin 4096), ∃ (s : State), ∃ (c : Cmd), s.dev.front (↑r) 2307 = some c ∧ (c.badNone = false ∧ c.bad [(12,
      12, 255), (24, 1, 1)] = false ∧ c.get 12 2 ≤ 2047 ∧ 1 ≤ c.get 14 2 ∧ c.get 14 2 ≤ 2048 ∧
      (c.buf 16 24).bad (512 * c.get 14 2) = false ∧
      s.dev.flashWay (List.map (fun (i : Nat) => 896 + i / 128) (List.map (fun (i : Nat) => (c.get 12 2 + i) % 2048) (List.range (c.get 14 2)))) = FlashWay.now) ∧
      (c.buf 16 24).fab = true) ∧
    (∃ (r : Fin 4096), ∃ (s : State), ∃ (c : Cmd), s.dev.front (↑r) 2561 = some c ∧ ((c.badNone = false ∧ c.bad [(12,
      8, 255), (20, 1, 1)] = false ∧ (c.buf 12 20).bad 32 = false) ∧ s.dev.noEntropy = false) ∧
      (c.buf 12 20).fab = false ∧ s.dev.hostOk = false) :=
  ⟨⟨3, (cmds 3 [desc 0x901 0 0 7 0 [(13, 144)]] (id)), _, rfl, by decide⟩,
   ⟨3,
     ({ (cmds 3 [] id) with dev := { ((cmds 3 [] id).dev.modPcie fun p => { p with busMaster := false }) with waits := [⟨3, 7, 0x0901, 0, [0, 36864, 2048, 31] ++ (List.range 96), 1, 0, 0⟩] } }),
     _, rfl, by decide⟩,
   ⟨3,
     ({ (cmds 3 [] id) with dev := { ((cmds 3 [] id).dev.modPcie fun p => { p with busMaster := true }) with waits := [⟨3, 7, 0x0901, 0, [0, 36864, 2048, 31] ++ (List.range 96), 1, 0, 0⟩] } }),
     _, rfl, by decide⟩,
   ⟨3,
     ({ (cmds 3 [] id) with dev := { ((cmds 3 [] id).dev.modPcie fun p => { p with busMaster := true }) with waits := [⟨3, 7, 0x0901, 0, [1, 16781312, 2048, 31] ++ (List.range 96), 1, 0, 0⟩] } }),
     _, rfl, by decide⟩,
   ⟨0, 3, (cmds 3 [desc 0x902 0 0 7 0 []] (id)), _, rfl, by unfold Dev.clusterFree; decide, by decide⟩,
   ⟨0, 3, (cmds 3 [desc 0x902 0 0 7 0 []] (fun d => regsD [(ING_BANK_OWN 0, 1), (ING_BANK_OWN 64, 1),
     (ING_BANK_SHARE 16, 1)] d)), _, rfl, by unfold Dev.clusterFree; decide, by decide⟩,
   ⟨3, (cmds 3 [desc 0x903 0 0 7 0 [(14, 1), (17,
     144)]] (fun d => d.modPcie fun p => { p with busMaster := false })), _, rfl, by decide⟩,
   ⟨3, (cmds 3 [desc 0x903 0 0 7 0 [(14, 1), (17, 144)]] (id)), _, rfl, by decide⟩,
   ⟨3, (cmds 3 [desc 0x903 0 0 7 0 [(14, 1), (17, 16), (19, 1), (24, 1)]] (id)), _, rfl, by decide⟩,
   ⟨3, (cmds 3 [desc 0xA01 0 0 7 0 [(13,
     144)]] (fun d => { (d.modPcie fun p => { p with busMaster := false }).setB HLM_STAT HLM_STAT_ent_ok true with now := 77 })),
     _, rfl, by decide⟩⟩

theorem meets_SecurityAndDebugCommands_3 :
    (∃ (r : Fin 4096), ∃ (s : State), ∃ (c : Cmd), s.dev.front (↑r) 2561 = some c ∧ ((c.badNone = false ∧ c.bad [(12,
      8, 255), (20, 1, 1)] = false ∧ (c.buf 12 20).bad 32 = false) ∧ s.dev.noEntropy = false) ∧
      (c.buf 12 20).fab = false ∧ s.dev.hostOk = true) ∧
    (∃ (r : Fin 4096), ∃ (s : State), ∃ (c : Cmd), s.dev.front (↑r) 2561 = some c ∧ ((c.badNone = false ∧ c.bad [(12,
      8, 255), (20, 1, 1)] = false ∧ (c.buf 12 20).bad 32 = false) ∧ s.dev.noEntropy = false) ∧
      (c.buf 12 20).fab = true) ∧
    (∃ (r : Fin 4096), ∃ (s : State), ∃ (c : Cmd), s.dev.front (↑r) 2561 = some c ∧ (c.badNone = false ∧ c.bad [(12,
      8, 255), (20, 1, 1)] = false ∧ (c.buf 12 20).bad 32 = false) ∧ s.dev.noEntropy = true) ∧
    (∃ (r : Fin 4096), ∃ (s : State), ∃ (c : Cmd), s.dev.front (↑r) 2562 = some c ∧ (c.badNone = false ∧ c.bad [(12,
      1, 255), (16, 8, 255), (24, 1, 1)] = false ∧ c.byte 12 = 1 ∧ (c.buf 16 24).bad 96 = false) ∧
      (c.buf 16 24).fab = false ∧ s.dev.hostOk = false) ∧
    (∃ (r : Fin 4096), ∃ (s : State), ∃ (c : Cmd), s.dev.front (↑r) 2562 = some c ∧ (c.badNone = false ∧ c.bad [(12,
      1, 255), (16, 8, 255), (24, 1, 1)] = false ∧ c.byte 12 = 1 ∧ (c.buf 16 24).bad 96 = false) ∧
      (c.buf 16 24).fab = false ∧ s.dev.hostOk = true ∧ (((s.mem, s.dev).snd.lifecycle = 0 ∨ (s.mem,
      s.dev).snd.lifecycle = 4) ∨ (s.mem, s.dev).snd.unlockGood 1 (s.mem.hostSpan (c.buf 16 24).addr 96) = true)) ∧
    (∃ (r : Fin 4096), ∃ (s : State), ∃ (c : Cmd), s.dev.front (↑r) 2562 = some c ∧ (c.badNone = false ∧ c.bad [(12,
      1, 255), (16, 8, 255), (24, 1, 1)] = false ∧ c.byte 12 = 1 ∧ (c.buf 16 24).bad 96 = false) ∧
      (c.buf 16 24).fab = true ∧ (ladRead (96 + 1) (c.buf 16 24).addr 96 (s.mem, s.dev)).snd.snd = none ∧
      (((ladRead (96 + 1) (c.buf 16 24).addr 96 (s.mem, s.dev)).fst.snd.lifecycle = 0 ∨
      (ladRead (96 + 1) (c.buf 16 24).addr 96 (s.mem, s.dev)).fst.snd.lifecycle = 4) ∨
      (ladRead (96 + 1) (c.buf 16 24).addr 96 (s.mem,
      s.dev)).fst.snd.unlockGood 1 (ladRead (96 + 1) (c.buf 16 24).addr 96 (s.mem, s.dev)).snd.fst = true)) ∧
    (∃ (r : Fin 4096), ∃ (s : State), ∃ (c : Cmd), s.dev.front (↑r) 2562 = some c ∧ c.badNone = false ∧ c.bad [(12, 1,
      255), (16, 8, 255), (24, 1, 1)] = false ∧ c.byte 12 = 2 ∧ (c.buf 16 24).bad 96 = false) ∧
    (∃ (r : Fin 4096), ∃ (s : State), ∃ (c : Cmd), s.dev.front (↑r) 2563 = some c ∧ plain c) ∧
    (∃ (r : Fin 4096), ∃ (s : State), ∃ (c : Cmd), s.dev.front (↑r) 2576 = some c ∧ (c.badNone = false ∧ c.bad [(12,
      16, 255), (28, 1, 3)] = false ∧ c.get 12 4 % 4 = 0 ∧ 4 ≤ c.get 16 4 ∧ c.get 16 4 ≤ 4096 ∧
      c.get 16 4 % 4 = 0 ∧ c.get 12 4 + c.get 16 4 ≤ 2 ^ 32 ∧
      (c.buf 20 28).bad (if bit (c.byte 28) 1 = true then 2 * c.get 16 4 else c.get 16 4) = false) ∧
      1 ≤ s.dev.dbgLevel ∧ (c.buf 20 28).fab = false ∧
      (peekWords (bit (c.byte 28) 1) (c.get 16 4 / 4) (c.get 12 4) (s.mem, s.dev)).fst.snd.hostOk = true) ∧
    (∃ (r : Fin 4096), ∃ (s : State), ∃ (c : Cmd), s.dev.front (↑r) 2576 = some c ∧ (c.badNone = false ∧ c.bad [(12,
      16, 255), (28, 1, 3)] = false ∧ c.get 12 4 % 4 = 0 ∧ 4 ≤ c.get 16 4 ∧ c.get 16 4 ≤ 4096 ∧
      c.get 16 4 % 4 = 0 ∧ c.get 12 4 + c.get 16 4 ≤ 2 ^ 32 ∧
      (c.buf 20 28).bad (if bit (c.byte 28) 1 = true then 2 * c.get 16 4 else c.get 16 4) = false) ∧
      s.dev.dbgLevel < 1) :=
  ⟨⟨3, (cmds 3 [desc 0xA01 0 0 7 0 [(13,
     144)]] (fun d => { (d).setB HLM_STAT HLM_STAT_ent_ok true with now := 77 })), _, rfl, by decide⟩,
   ⟨3, (cmds 3 [desc 0xA01 0 0 7 0 [(13, 16), (15, 1), (20,
     1)]] (fun d => { (d).setB HLM_STAT HLM_STAT_ent_ok true with now := 77 })), _, rfl, by decide⟩,
   ⟨3, (cmds 3 [desc 0xA01 0 0 7 0 [(13,
     144)]] (fun d => { (d).setB HLM_STAT HLM_STAT_ent_ok false with now := 77 })), _, rfl, by decide⟩,
   ⟨3, (cmds 3 [desc 0xA02 0 0 7 0 [(12, 1), (17,
     144)]] (fun d => otpK 0 true ((d.modPcie fun p => { p with busMaster := false }).modHlm fun h => { h with chal := some [1] }))),
     _, rfl, by decide⟩,
   ⟨3, (cmds 3 [desc 0xA02 0 0 7 0 [(12, 1), (17,
     144)]] (fun d => otpK 0 true ((d).modHlm fun h => { h with chal := some [1] }))), _, rfl, by decide⟩,
   ⟨3, (cmds 3 [desc 0xA02 0 0 7 0 [(12, 1), (17, 16), (19, 1), (24,
     1)]] (fun d => otpK 0 true ((d.wr (ING_BANK_OWN 0) 8).modHlm fun h => { h with chal := some [1] }))), _, rfl,
     by decide⟩,
   ⟨3, (cmds 3 [desc 0xA02 0 0 7 0 [(12, 2), (17,
     144)]] (fun d => otpK 0 true ((d).modHlm fun h => { h with chal := some [1] }))), _, rfl, by decide⟩,
   ⟨3, (cmds 3 [desc 0xA03 0 0 7 0 []] (id)), _, rfl, by unfold plain; decide⟩,
   ⟨3, (cmds 3 [desc 0xA10 0 0 7 0 [(15, 2), (16, 4), (21, 144)]] (fun d => d.wr DBG_STAT 0x14000000)), _, rfl,
     by decide⟩,
   ⟨3, (cmds 3 [desc 0xA10 0 0 7 0 [(15, 2), (16, 4), (21, 144)]] (id)), _, rfl, by decide⟩⟩

theorem meets_MemoryCommands_1 :
    (∃ (r : Fin 4096), ∃ (s : State), ∃ (c : Cmd), s.dev.front (↑r) 2817 = some c ∧ c.badNone = false ∧
      (c.get 12 4 % 4 = 0 ∧ c.get 16 4 % 4 = 0 ∧ 4 ≤ c.get 16 4 ∧ c.get 16 4 ≤ 2 ^ 24 ∧
      ladRange (c.get 12 4) (c.get 16 4) = true) ∧ c.bad [(12, 16, 255)] = false ∧ s.dev.hostOk = false) ∧
    (∃ (r : Fin 4096), ∃ (s : State), ∃ (c : Cmd), s.dev.front (↑r) 2817 = some c ∧ c.badNone = false ∧
      (c.get 12 4 % 4 = 0 ∧ c.get 16 4 % 4 = 0 ∧ 4 ≤ c.get 16 4 ∧ c.get 16 4 ≤ 2 ^ 24 ∧
      ladRange (c.get 12 4) (c.get 16 4) = true) ∧ c.bad [(12, 16, 255)] = false ∧ s.dev.hostOk = true) ∧
    (∃ (r : Fin 4096), ∃ (s : State), ∃ (c : Cmd), s.dev.front (↑r) 2817 = some c ∧ c.badNone = false ∧
      (c.get 12 4 % 4 = 0 ∧ c.get 16 4 % 4 = 0 ∧ 4 ≤ c.get 16 4 ∧ c.get 16 4 ≤ 2 ^ 24 ∧
      ladRange (c.get 12 4) (c.get 16 4) = true) ∧ c.bad [(12, 16, 255)] = false ∧ s.dev.hostOk = true ∧
      s.dev.ddrUp = true ∧ 2147483648 ≤ c.get 12 4 ∧ c.get 12 4 + c.get 16 4 ≤ 4026531840 ∧ ∀ (y : Nat),
      c.get 12 4 / 8 * 8 ≤ y → y < c.get 12 4 + c.get 16 4 → s.mem.errAt y = 0) ∧
    (∃ (r : Fin 4096), ∃ (s : State), ∃ (c : Cmd), s.dev.front (↑r) 2818 = some c ∧ c.badNone = false ∧
      (c.get 12 4 % 4 = 0 ∧ c.get 16 4 % 4 = 0 ∧ 4 ≤ c.get 16 4 ∧ c.get 16 4 ≤ 2 ^ 24 ∧
      ladRange (c.get 12 4) (c.get 16 4) = true) ∧ c.bad [(12, 16, 255)] = false ∧ s.dev.hostOk = false) ∧
    (∃ (r : Fin 4096), ∃ (s : State), ∃ (c : Cmd), s.dev.front (↑r) 2818 = some c ∧ c.badNone = false ∧
      (c.get 12 4 % 4 = 0 ∧ c.get 16 4 % 4 = 0 ∧ 4 ≤ c.get 16 4 ∧ c.get 16 4 ≤ 2 ^ 24 ∧
      ladRange (c.get 12 4) (c.get 16 4) = true) ∧ c.bad [(12, 16, 255)] = false ∧ s.dev.hostOk = true) ∧
    (∃ (r : Fin 4096), ∃ (s : State), ∃ (c : Cmd), s.dev.front (↑r) 2818 = some c ∧ c.badNone = false ∧
      (c.get 12 4 % 4 = 0 ∧ c.get 16 4 % 4 = 0 ∧ 4 ≤ c.get 16 4 ∧ c.get 16 4 ≤ 2 ^ 24 ∧
      ladRange (c.get 12 4) (c.get 16 4) = true) ∧ c.bad [(12, 16, 255)] = false ∧ s.dev.hostOk = true ∧
      s.dev.ddrUp = true ∧ 2147483648 ≤ c.get 12 4 ∧ c.get 12 4 + c.get 16 4 ≤ 4026531840 ∧ ∀ (y : Nat),
      c.get 12 4 / 8 * 8 ≤ y → y < c.get 12 4 + c.get 16 4 → s.mem.errAt y = 0) ∧
    (∃ (r : Fin 4096), ∃ (s : State), ∃ (c : Cmd), s.dev.front (↑r) 2819 = some c ∧ c.badNone = false ∧
      (c.get 12 4 % 4 = 0 ∧ c.get 16 4 % 4 = 0 ∧ 4 ≤ c.get 16 4 ∧ c.get 16 4 ≤ 2 ^ 24 ∧
      ladRange (c.get 12 4) (c.get 16 4) = true) ∧ c.bad [(12, 12, 255)] = false ∧ (c.get 20 4 % 4 = 0 ∧
      c.get 16 4 % 4 = 0 ∧ 4 ≤ c.get 16 4 ∧ c.get 16 4 ≤ 2 ^ 24 ∧ ladRange (c.get 20 4) (c.get 16 4) = true) ∧
      (c.get 20 4 ≤ c.get 12 4 ∨ c.get 12 4 + c.get 16 4 ≤ c.get 20 4)) ∧
    (∃ (r : Fin 4096), ∃ (s : State), ∃ (c : Cmd), s.dev.front (↑r) 2819 = some c ∧ c.badNone = false ∧
      (c.get 12 4 % 4 = 0 ∧ c.get 16 4 % 4 = 0 ∧ 4 ≤ c.get 16 4 ∧ c.get 16 4 ≤ 2 ^ 24 ∧
      ladRange (c.get 12 4) (c.get 16 4) = true) ∧ c.bad [(12, 12, 255)] = false ∧ (c.get 20 4 % 4 = 0 ∧
      c.get 16 4 % 4 = 0 ∧ 4 ≤ c.get 16 4 ∧ c.get 16 4 ≤ 2 ^ 24 ∧ ladRange (c.get 20 4) (c.get 16 4) = true) ∧
      (c.get 20 4 ≤ c.get 12 4 ∨ c.get 12 4 + c.get 16 4 ≤ c.get 20 4) ∧ (s.dev.ddrUp = true ∧
      2147483648 ≤ c.get 12 4 ∧ c.get 12 4 + c.get 16 4 ≤ 4026531840 ∧ ∀ (y : Nat),
      c.get 12 4 / 8 * 8 ≤ y → y < c.get 12 4 + c.get 16 4 → s.mem.errAt y = 0) ∧ s.dev.ddrUp = true ∧
      2147483648 ≤ c.get 20 4 ∧ c.get 20 4 + c.get 16 4 ≤ 4026531840 ∧ ∀ (y : Nat),
      c.get 20 4 / 8 * 8 ≤ y → y < c.get 20 4 + c.get 16 4 → s.mem.errAt y = 0) ∧
    (∃ (r : Fin 4096), ∃ (s : State), ∃ (c : Cmd), s.dev.front (↑r) 2820 = some c ∧ c.badNone = false ∧
      (c.get 12 4 % 4 = 0 ∧ c.get 16 4 % 4 = 0 ∧ 4 ≤ c.get 16 4 ∧ c.get 16 4 ≤ 2 ^ 24 ∧
      ladRange (c.get 12 4) (c.get 16 4) = true) ∧ c.bad [(12, 12, 255)] = false) ∧
    (∃ (r : Fin 4096), ∃ (s : State), ∃ (c : Cmd), s.dev.front (↑r) 2820 = some c ∧ c.badNone = false ∧
      (c.get 12 4 % 4 = 0 ∧ c.get 16 4 % 4 = 0 ∧ 4 ≤ c.get 16 4 ∧ c.get 16 4 ≤ 2 ^ 24 ∧
      ladRange (c.get 12 4) (c.get 16 4) = true) ∧ c.bad [(12, 12, 255)] = false ∧ s.dev.ddrUp = true ∧
      2147483648 ≤ c.get 12 4 ∧ c.get 12 4 + c.get 16 4 ≤ 4026531840 ∧ ∀ (y : Nat),
      c.get 12 4 / 8 * 8 ≤ y → y < c.get 12 4 + c.get 16 4 → s.mem.errAt y = 0) :=
  ⟨⟨3, (withMem (fun m => (((m.setHost 0x9000 [1, 2, 3, 4, 5, 6, 7,
     8]).setWord 0x80000000 5).setWord 0x1001000 7).setTag 0x80000000 3) (cmds 3 [desc 0xB01 0 0 7 0 [(15, 128),
     (16, 4), (21, 144)]] (fun d => (d.wr MEM_STAT 0xFFFFFFFF).modPcie fun p => { p with busMaster := false }))),
     _, rfl, by decide⟩,
   ⟨3, (withMem (fun m => (((m.setHost 0x9000 [1, 2, 3, 4, 5, 6, 7,
     8]).setWord 0x80000000 5).setWord 0x1001000 7).setTag 0x80000000 3) (cmds 3 [desc 0xB01 0 0 7 0 [(15, 128),
     (16, 4), (21, 144)]] (fun d => d.wr MEM_STAT 0xFFFFFFFF))), _, rfl, by decide⟩,
   ⟨3, (withMem (fun m => (((m.setHost 0x9000 [1, 2, 3, 4, 5, 6, 7,
     8]).setWord 0x80000000 5).setWord 0x1001000 7).setTag 0x80000000 3) (cmds 3 [desc 0xB01 0 0 7 0 [(15, 128),
     (16, 4), (21, 144)]] (fun d => d.wr MEM_STAT 0xFFFFFFFF))), _, rfl, by decide, by decide, by decide,
     by decide, by decide, by decide, by decide, (fun _ _ _ => rfl)⟩,
   ⟨3, (withMem (fun m => (((m.setHost 0x9000 [1, 2, 3, 4, 5, 6, 7,
     8]).setWord 0x80000000 5).setWord 0x1001000 7).setTag 0x80000000 3) (cmds 3 [desc 0xB02 0 0 7 0 [(15, 128),
     (16, 4), (21, 144)]] (fun d => (d.wr MEM_STAT 0xFFFFFFFF).modPcie fun p => { p with busMaster := false }))),
     _, rfl, by decide⟩,
   ⟨3, (withMem (fun m => (((m.setHost 0x9000 [1, 2, 3, 4, 5, 6, 7,
     8]).setWord 0x80000000 5).setWord 0x1001000 7).setTag 0x80000000 3) (cmds 3 [desc 0xB02 0 0 7 0 [(15, 128),
     (16, 4), (21, 144)]] (fun d => d.wr MEM_STAT 0xFFFFFFFF))), _, rfl, by decide⟩,
   ⟨3, (withMem (fun m => (((m.setHost 0x9000 [1, 2, 3, 4, 5, 6, 7,
     8]).setWord 0x80000000 5).setWord 0x1001000 7).setTag 0x80000000 3) (cmds 3 [desc 0xB02 0 0 7 0 [(15, 128),
     (16, 4), (21, 144)]] (fun d => d.wr MEM_STAT 0xFFFFFFFF))), _, rfl, by decide, by decide, by decide,
     by decide, by decide, by decide, by decide, (fun _ _ _ => rfl)⟩,
   ⟨3, (withMem (fun m => (((m.setHost 0x9000 [1, 2, 3, 4, 5, 6, 7,
     8]).setWord 0x80000000 5).setWord 0x1001000 7).setTag 0x80000000 3) (cmds 3 [desc 0xB03 0 0 7 0 [(15, 128),
     (16, 4), (21, 1), (23, 128)]] (fun d => d.wr MEM_STAT 0xFFFFFFFF))), _, rfl, by decide⟩,
   ⟨3, (withMem (fun m => (((m.setHost 0x9000 [1, 2, 3, 4, 5, 6, 7,
     8]).setWord 0x80000000 5).setWord 0x1001000 7).setTag 0x80000000 3) (cmds 3 [desc 0xB03 0 0 7 0 [(15, 128),
     (16, 4), (21, 1), (23, 128)]] (fun d => d.wr MEM_STAT 0xFFFFFFFF))), _, rfl, by decide, by decide, by decide,
     by decide, by decide, ⟨by decide, by decide, by decide, fun _ _ _ => rfl⟩, by decide, by decide, by decide,
     fun _ _ _ => rfl⟩,
   ⟨3, (withMem (fun m => (((m.setHost 0x9000 [1, 2, 3, 4, 5, 6, 7,
     8]).setWord 0x80000000 5).setWord 0x1001000 7).setTag 0x80000000 3) (cmds 3 [desc 0xB04 0 0 7 0 [(15, 128),
     (16, 4), (20, 52), (21, 18), (22, 205), (23, 171)]] (fun d => d.wr MEM_STAT 0xFFFFFFFF))), _, rfl, by decide⟩,
   ⟨3, (withMem (fun m => (((m.setHost 0x9000 [1, 2, 3, 4, 5, 6, 7,
     8]).setWord 0x80000000 5).setWord 0x1001000 7).setTag 0x80000000 3) (cmds 3 [desc 0xB04 0 0 7 0 [(15, 128),
     (16, 4), (20, 52), (21, 18), (22, 205), (23, 171)]] (fun d => d.wr MEM_STAT 0xFFFFFFFF))), _, rfl, by decide,
     by decide, by decide, by decide, by decide, by decide, (fun _ _ _ => rfl)⟩⟩

theorem meets_MemoryCommands_2 :
    (∃ (r : Fin 4096), ∃ (s : State), ∃ (c : Cmd), s.dev.front (↑r) 2817 = some c ∧ c.badNone = false ∧
      (c.get 12 4 % 4 ≠ 0 ∨ c.get 16 4 % 4 ≠ 0 ∨ c.get 16 4 < 4 ∨ 2 ^ 24 < c.get 16 4 ∨
      ladRange (c.get 12 4) (c.get 16 4) = false)) ∧
    (∃ (r : Fin 4096), ∃ (s : State), ∃ (c : Cmd), s.dev.front (↑r) 2818 = some c ∧ c.badNone = false ∧
      (c.get 12 4 % 4 ≠ 0 ∨ c.get 16 4 % 4 ≠ 0 ∨ c.get 16 4 < 4 ∨ 2 ^ 24 < c.get 16 4 ∨
      ladRange (c.get 12 4) (c.get 16 4) = false)) ∧
    (∃ (r : Fin 4096), ∃ (s : State), ∃ (c : Cmd), s.dev.front (↑r) 2819 = some c ∧ c.badNone = false ∧
      (c.get 12 4 % 4 ≠ 0 ∨ c.get 16 4 % 4 ≠ 0 ∨ c.get 16 4 < 4 ∨ 2 ^ 24 < c.get 16 4 ∨
      ladRange (c.get 12 4) (c.get 16 4) = false)) ∧
    (∃ (r : Fin 4096), ∃ (s : State), ∃ (c : Cmd), s.dev.front (↑r) 2820 = some c ∧ c.badNone = false ∧
      (c.get 12 4 % 4 ≠ 0 ∨ c.get 16 4 % 4 ≠ 0 ∨ c.get 16 4 < 4 ∨ 2 ^ 24 < c.get 16 4 ∨
      ladRange (c.get 12 4) (c.get 16 4) = false)) ∧
    (∃ (r : Fin 4096), ∃ (s : State), ∃ (c : Cmd), s.dev.front (↑r) 2819 = some c ∧ c.badNone = false ∧
      c.get 12 4 < c.get 20 4 ∧ c.get 20 4 < c.get 12 4 + c.get 16 4) :=
  ⟨⟨3, (withMem (fun m => (((m.setHost 0x9000 [1, 2, 3, 4, 5, 6, 7,
     8]).setWord 0x80000000 5).setWord 0x1001000 7).setTag 0x80000000 3) (cmds 3 [desc 0xB01 0 0 7 0 [(15, 128),
     (16, 6), (21, 144)]] (fun d => d.wr MEM_STAT 0xFFFFFFFF))), _, rfl, by decide⟩,
   ⟨3, (withMem (fun m => (((m.setHost 0x9000 [1, 2, 3, 4, 5, 6, 7,
     8]).setWord 0x80000000 5).setWord 0x1001000 7).setTag 0x80000000 3) (cmds 3 [desc 0xB02 0 0 7 0 [(15, 128),
     (16, 6), (21, 144)]] (fun d => d.wr MEM_STAT 0xFFFFFFFF))), _, rfl, by decide⟩,
   ⟨3, (withMem (fun m => (((m.setHost 0x9000 [1, 2, 3, 4, 5, 6, 7,
     8]).setWord 0x80000000 5).setWord 0x1001000 7).setTag 0x80000000 3) (cmds 3 [desc 0xB03 0 0 7 0 [(15, 128),
     (16, 6), (21, 1), (23, 128)]] (fun d => d.wr MEM_STAT 0xFFFFFFFF))), _, rfl, by decide⟩,
   ⟨3, (withMem (fun m => (((m.setHost 0x9000 [1, 2, 3, 4, 5, 6, 7,
     8]).setWord 0x80000000 5).setWord 0x1001000 7).setTag 0x80000000 3) (cmds 3 [desc 0xB04 0 0 7 0 [(15, 128),
     (16, 6), (20, 52), (21, 18), (22, 205), (23, 171)]] (fun d => d.wr MEM_STAT 0xFFFFFFFF))), _, rfl, by decide⟩,
   ⟨3, (withMem (fun m => (((m.setHost 0x9000 [1, 2, 3, 4, 5, 6, 7,
     8]).setWord 0x80000000 5).setWord 0x1001000 7).setTag 0x80000000 3) (cmds 3 [desc 0xB03 0 0 7 0 [(15, 128),
     (16, 8), (20, 4), (23, 128)]] (fun d => d.wr MEM_STAT 0xFFFFFFFF))), _, rfl, by decide⟩⟩

theorem meets_CoreCommands_1 :
    (∃ (r : Fin 4096), ∃ (s : State), ∃ (c : Cmd), s.dev.front (↑r) 3073 = some c ∧ ((c.tgt < 16 ∧
      s.dev.badCluster (c.tgt / 4) = false ∧ s.dev.clusterFree (c.tgt / 4)) ∧ (c.bad [(12, 12, 255), (24, 1,
      1)] = false ∧ (c.buf 16 24).bad (c.get 12 4) = false) ∧ s.dev.coreStopped c.tgt = true) ∧
      (c.buf 16 24).fab = false ∧ s.dev.hostOk = false) ∧
    (∃ (r : Fin 4096), ∃ (s : State), ∃ (c : Cmd), s.dev.front (↑r) 3073 = some c ∧ ((c.tgt < 16 ∧
      s.dev.badCluster (c.tgt / 4) = false ∧ s.dev.clusterFree (c.tgt / 4)) ∧ (c.bad [(12, 12, 255), (24, 1,
      1)] = false ∧ (c.buf 16 24).bad (c.get 12 4) = false) ∧ s.dev.coreStopped c.tgt = true) ∧
      (c.buf 16 24).fab = true ∧ ∃ (code : Nat),
      (ladRead ((fun (c : Cmd) => c.get 12 4) c + 1) ((fun (c : Cmd) => c.buf 16 24) c).addr ((fun (c : Cmd) => c.get 12 4) c) (s.mem,
      s.dev)).snd.snd = some code) ∧
    (∃ (r : Fin 4096), ∃ (s : State), ∃ (c : Cmd), s.dev.front (↑r) 3073 = some c ∧ (c.tgt < 16 ∧
      s.dev.badCluster (c.tgt / 4) = false ∧ s.dev.clusterFree (c.tgt / 4)) ∧ (c.bad [(12, 12, 255), (24, 1,
      1)] = false ∧ (c.buf 16 24).bad (c.get 12 4) = false) ∧ s.dev.coreStopped c.tgt = false) ∧
    (∃ (e : Nat), ∃ (r : Fin 4096), ∃ (s : State), ∃ (c : Cmd), s.dev.front (↑r) 3074 = some c ∧ (c.tgt < 16 ∧
      s.dev.badCluster (c.tgt / 4) = false ∧ s.dev.clusterFree (c.tgt / 4)) ∧ c.bad [] = false ∧
      s.dev.coreStopped c.tgt = true ∧ (s.dev.core c.tgt).entry = some e) ∧
    (∃ (r : Fin 4096), ∃ (s : State), ∃ (c : Cmd), s.dev.front (↑r) 3074 = some c ∧ (c.tgt < 16 ∧
      s.dev.badCluster (c.tgt / 4) = false ∧ s.dev.clusterFree (c.tgt / 4)) ∧ c.bad [] = false ∧
      (s.dev.coreStopped c.tgt = false ∨ (s.dev.core c.tgt).entry = none)) ∧
    (∃ (r : Fin 4096), ∃ (s : State), ∃ (c : Cmd), s.dev.front (↑r) 3075 = some c ∧ (c.tgt < 16 ∧
      s.dev.badCluster (c.tgt / 4) = false ∧ s.dev.clusterFree (c.tgt / 4)) ∧ c.bad [] = false ∧
      s.dev.pairedQ (c.tgt / 2) = false) ∧
    (∃ (r : Fin 4096), ∃ (s : State), ∃ (c : Cmd), s.dev.front (↑r) 3075 = some c ∧ (c.tgt < 16 ∧
      s.dev.badCluster (c.tgt / 4) = false ∧ s.dev.clusterFree (c.tgt / 4)) ∧ c.bad [] = false ∧
      s.dev.pairedQ (c.tgt / 2) = true) ∧
    (∃ (q : Nat), ∃ (r : Fin 4096), ∃ (s : State), ∃ (c : Cmd), s.dev.front (↑r) 3088 = some c ∧
      (corePairOf c.tgt = some q ∧ (q < 8 → s.dev.badCluster (q / 2) = false ∧ s.dev.clusterFree (q / 2)) ∧
      c.descs = [c.d0] ∧ c.bad [(12, 1, 255), (14, 2, 255)] = false ∧ c.byte 12 = 1) ∧
      ¬(s.dev.flag (ASY_PAIR_CTL q) ASY_PAIR_CTL_req_split = true ∨
      s.dev.flag (ASY_PAIR_CTL q) ASY_PAIR_CTL_req_merge = true) ∧ s.dev.pairedQ q = true) ∧
    (∃ (q : Nat), ∃ (r : Fin 4096), ∃ (s : State), ∃ (c : Cmd), s.dev.front (↑r) 3088 = some c ∧
      (corePairOf c.tgt = some q ∧ (q < 8 → s.dev.badCluster (q / 2) = false ∧ s.dev.clusterFree (q / 2)) ∧
      c.descs = [c.d0] ∧ c.bad [(12, 1, 255), (14, 2, 255)] = false ∧ c.byte 12 = 1) ∧
      ¬(s.dev.flag (ASY_PAIR_CTL q) ASY_PAIR_CTL_req_split = true ∨
      s.dev.flag (ASY_PAIR_CTL q) ASY_PAIR_CTL_req_merge = true) ∧ s.dev.pairedQ q = false) ∧
    (∃ (q : Nat), ∃ (r : Fin 4096), ∃ (s : State), ∃ (c : Cmd), s.dev.front (↑r) 3088 = some c ∧
      (corePairOf c.tgt = some q ∧ (q < 8 → s.dev.badCluster (q / 2) = false ∧ s.dev.clusterFree (q / 2)) ∧
      c.descs = [c.d0] ∧ c.bad [(12, 1, 255), (14, 2, 255)] = false ∧ c.byte 12 = 1) ∧
      (s.dev.flag (ASY_PAIR_CTL q) ASY_PAIR_CTL_req_split = true ∨
      s.dev.flag (ASY_PAIR_CTL q) ASY_PAIR_CTL_req_merge = true)) :=
  ⟨⟨3, (withMem (fun m => (m.setHost 0x9000 (coreImg [1, 2, 3, 4, 5] 0x30000 8 2 0)).setSpan 0x1001000 (coreImg [1,
     2, 3, 4, 5] 0x30000 8 2 0)) (cmds 3 [desc 0xC01 0 0 7 0 [(12, 5), (13, 1), (17,
     144)]] (fun d => d.modPcie fun p => { p with busMaster := false }))), _, rfl,
     by unfold Dev.clusterFree; decide, by decide⟩,
   ⟨3, (withMem (fun m => (m.setHost 0x9000 (coreImg [1, 2, 3, 4, 5] 0x30000 8 2 0)).setSpan 0x1001000 (coreImg [1,
     2, 3, 4, 5] 0x30000 8 2 0)) (cmds 3 [desc 0xC01 0 0 7 0 [(12, 5), (13, 1), (17, 16), (19, 1), (24,
     1)]] (id))), _, rfl, by unfold Dev.clusterFree; decide, by decide, _, rfl⟩,
   ⟨3, (withMem (fun m => (m.setHost 0x9000 (coreImg [1, 2, 3, 4, 5] 0x30000 8 2 0)).setSpan 0x1001000 (coreImg [1,
     2, 3, 4, 5] 0x30000 8 2 0)) (cmds 3 [desc 0xC01 0 0 7 0 [(12, 5), (13, 1), (17,
     144)]] (fun d => d.modCore 0 fun c => { c with running := true }))), _, rfl,
     by unfold Dev.clusterFree; decide, by decide⟩,
   ⟨0x1030000, 3,
     (cmds 3 [desc 0xC02 0 0 7 0 []] (fun d => d.modCore 0 fun c => { c with entry := some 0x1030000, w := ⟨[(3, 5)]⟩ })),
     _, rfl, by unfold Dev.clusterFree; decide, by decide⟩,
   ⟨3, (cmds 3 [desc 0xC02 0 0 7 0 []] (id)), _, rfl, by unfold Dev.clusterFree; decide, by decide⟩,
   ⟨3, (cmds 3 [desc 0xC03 0 0 7 0 []] (id)), _, rfl, by unfold Dev.clusterFree; decide, by decide⟩,
   ⟨3, (cmds 3 [desc 0xC03 0 0 7 0 []] (fun d => (d.wr (ASY_PAIR_CTL 0) 0x80000000))), _, rfl,
     by unfold Dev.clusterFree; decide, by decide⟩,
   ⟨0, 3, (cmds 3 [desc 0xC10 0 0 7 0 [(12, 1)]] (fun d => d.wr (ASY_PAIR_CTL 0) 0x80000005)), _, rfl,
     by unfold Dev.clusterFree; decide, by decide⟩,
   ⟨0, 3, (cmds 3 [desc 0xC10 0 0 7 0 [(12, 1)]] (id)), _, rfl, by unfold Dev.clusterFree; decide, by decide⟩,
   ⟨0, 3, (cmds 3 [desc 0xC10 0 0 7 0 [(12, 1)]] (fun d => d.wr (ASY_PAIR_CTL 0) 0xC0000005)), _, rfl,
     by unfold Dev.clusterFree; decide, by decide⟩⟩

theorem meets_CoreCommands_2 :
    (∃ (q : Nat), ∃ (r : Fin 4096), ∃ (s : State), ∃ (c : Cmd), s.dev.front (↑r) 3088 = some c ∧
      (corePairOf c.tgt = some q ∧ (q < 8 → s.dev.badCluster (q / 2) = false ∧ s.dev.clusterFree (q / 2)) ∧
      c.descs = [c.d0] ∧ c.bad [(12, 1, 255), (14, 2, 255)] = false ∧ c.byte 12 = 2) ∧
      ¬(s.dev.flag (ASY_PAIR_CTL q) ASY_PAIR_CTL_req_split = true ∨
      s.dev.flag (ASY_PAIR_CTL q) ASY_PAIR_CTL_req_merge = true) ∧ s.dev.pairedQ q = false ∧
      ¬((s.dev.core (2 * q)).byteMode ≠ (s.dev.core (2 * q + 1)).byteMode ∨ s.dev.mirrorUnowned q = true)) ∧
    (∃ (q : Nat), ∃ (r : Fin 4096), ∃ (s : State), ∃ (c : Cmd), s.dev.front (↑r) 3088 = some c ∧
      (corePairOf c.tgt = some q ∧ (q < 8 → s.dev.badCluster (q / 2) = false ∧ s.dev.clusterFree (q / 2)) ∧
      c.descs = [c.d0] ∧ c.bad [(12, 1, 255), (14, 2, 255)] = false ∧ c.byte 12 = 2) ∧
      ¬(s.dev.flag (ASY_PAIR_CTL q) ASY_PAIR_CTL_req_split = true ∨
      s.dev.flag (ASY_PAIR_CTL q) ASY_PAIR_CTL_req_merge = true) ∧ s.dev.pairedQ q = true) ∧
    (∃ (q : Nat), ∃ (r : Fin 4096), ∃ (s : State), ∃ (c : Cmd), s.dev.front (↑r) 3088 = some c ∧
      (corePairOf c.tgt = some q ∧ (q < 8 → s.dev.badCluster (q / 2) = false ∧ s.dev.clusterFree (q / 2)) ∧
      c.descs = [c.d0] ∧ c.bad [(12, 1, 255), (14, 2, 255)] = false ∧ c.byte 12 = 2) ∧
      ¬(s.dev.flag (ASY_PAIR_CTL q) ASY_PAIR_CTL_req_split = true ∨
      s.dev.flag (ASY_PAIR_CTL q) ASY_PAIR_CTL_req_merge = true) ∧ s.dev.pairedQ q = false ∧
      ((s.dev.core (2 * q)).byteMode ≠ (s.dev.core (2 * q + 1)).byteMode ∨ s.dev.mirrorUnowned q = true)) ∧
    (∃ (q : Nat), ∃ (r : Fin 4096), ∃ (s : State), ∃ (c : Cmd), s.dev.front (↑r) 3088 = some c ∧
      (corePairOf c.tgt = some q ∧ (q < 8 → s.dev.badCluster (q / 2) = false ∧ s.dev.clusterFree (q / 2)) ∧
      c.descs = [c.d0] ∧ c.bad [(12, 1, 255), (14, 2, 255)] = false ∧ c.byte 12 = 2) ∧
      (s.dev.flag (ASY_PAIR_CTL q) ASY_PAIR_CTL_req_split = true ∨
      s.dev.flag (ASY_PAIR_CTL q) ASY_PAIR_CTL_req_merge = true)) ∧
    (∃ (p : Fin 8), ∃ (r : Fin 4096), ∃ (s : State), ∃ (c : Cmd), s.dev.front (↑r) 3088 = some c ∧ ((c.tgt = 8 + ↑p ∧
      s.dev.badCluster (↑p / 2) = false ∧ s.dev.clusterFree (↑p / 2) ∧ c.descs = [c.d0] ∧ c.bad [(12, 1, 255),
      (14, 2, 255)] = false ∧ c.byte 12 = 2) ∧ (s.dev.lane (2 * ↑p)).pairReq = 0 ∧
      (s.dev.lane (2 * ↑p)).paired = (2 == 1) ∧ (2 = 2 → s.dev.proposed (2 * ↑p + 1) = [])) ∧
      (askLanes (2 * ↑p) 1 s.dev).admission [2 * ↑p, 2 * ↑p + 1] = none) ∧
    (∃ (p : Fin 8), ∃ (r : Fin 4096), ∃ (s : State), ∃ (c : Cmd), s.dev.front (↑r) 3088 = some c ∧ ((c.tgt = 8 + ↑p ∧
      s.dev.badCluster (↑p / 2) = false ∧ s.dev.clusterFree (↑p / 2) ∧ c.descs = [c.d0] ∧ c.bad [(12, 1, 255),
      (14, 2, 255)] = false ∧ c.byte 12 = 1) ∧ (s.dev.lane (2 * ↑p)).pairReq = 0 ∧
      (s.dev.lane (2 * ↑p)).paired = (1 == 1) ∧ (1 = 2 → s.dev.proposed (2 * ↑p + 1) = [])) ∧
      (clearShadow (2 * ↑p + 1) (askLanes (2 * ↑p) 2 s.dev)).admission [2 * ↑p, 2 * ↑p + 1] = none) ∧
    (∃ (p : Fin 8), ∃ (r : Fin 4096), ∃ (s : State), ∃ (c : Cmd), s.dev.front (↑r) 3088 = some c ∧ ((c.tgt = 8 + ↑p ∧
      s.dev.badCluster (↑p / 2) = false ∧ s.dev.clusterFree (↑p / 2) ∧ c.descs = [c.d0] ∧ c.bad [(12, 1, 255),
      (14, 2, 255)] = false ∧ c.byte 12 = 2) ∧ (s.dev.lane (2 * ↑p)).pairReq = 0 ∧
      (s.dev.lane (2 * ↑p)).paired = (2 == 1) ∧ (2 = 2 → s.dev.proposed (2 * ↑p + 1) = [])) ∧
      (askLanes (2 * ↑p) 1 s.dev).admission [2 * ↑p, 2 * ↑p + 1] ≠ none) ∧
    (∃ (p : Fin 8), ∃ (r : Fin 4096), ∃ (s : State), ∃ (c : Cmd), s.dev.front (↑r) 3088 = some c ∧ ((c.tgt = 8 + ↑p ∧
      s.dev.badCluster (↑p / 2) = false ∧ s.dev.clusterFree (↑p / 2) ∧ c.descs = [c.d0] ∧ c.bad [(12, 1, 255),
      (14, 2, 255)] = false ∧ c.byte 12 = 1) ∧ (s.dev.lane (2 * ↑p)).pairReq = 0 ∧
      (s.dev.lane (2 * ↑p)).paired = (1 == 1) ∧ (1 = 2 → s.dev.proposed (2 * ↑p + 1) = [])) ∧
      (clearShadow (2 * ↑p + 1) (askLanes (2 * ↑p) 2 s.dev)).admission [2 * ↑p, 2 * ↑p + 1] ≠ none) ∧
    (∃ (p : Fin 8), ∃ (r : Fin 4096), ∃ (s : State), ∃ (c : Cmd), s.dev.front (↑r) 3088 = some c ∧ (c.tgt = 8 + ↑p ∧
      s.dev.badCluster (↑p / 2) = false ∧ s.dev.clusterFree (↑p / 2) ∧ c.descs = [c.d0] ∧ c.bad [(12, 1, 255),
      (14, 2, 255)] = false ∧ c.byte 12 = 2) ∧ (s.dev.lane (2 * ↑p)).pairReq = 0 ∧
      (s.dev.lane (2 * ↑p)).paired = false ∧ s.dev.proposed (2 * ↑p + 1) ≠ []) ∧
    (∃ (p : Fin 8), ∃ (r : Fin 4096), ∃ (s : State), ∃ (c : Cmd), s.dev.front (↑r) 3088 = some c ∧ (c.tgt = 8 + ↑p ∧
      s.dev.badCluster (↑p / 2) = false ∧ s.dev.clusterFree (↑p / 2) ∧ c.descs = [c.d0] ∧ c.bad [(12, 1, 255),
      (14, 2, 255)] = false ∧ c.byte 12 = 1) ∧ ¬(s.dev.lane (2 * ↑p)).pairReq = 0) :=
  ⟨⟨0, 3, (cmds 3 [desc 0xC10 0 0 7 0 [(12, 2)]] (id)), _, rfl, by unfold Dev.clusterFree; decide, by decide⟩,
   ⟨0, 3, (cmds 3 [desc 0xC10 0 0 7 0 [(12, 2)]] (fun d => d.wr (ASY_PAIR_CTL 0) 0x80000005)), _, rfl,
     by unfold Dev.clusterFree; decide, by decide⟩,
   ⟨0, 3, (cmds 3 [desc 0xC10 0 0 7 0 [(12, 2)]] (fun d => d.modCore 1 fun c => { c with byteMode := true })), _,
     rfl, by unfold Dev.clusterFree; decide, by decide⟩,
   ⟨0, 3, (cmds 3 [desc 0xC10 0 0 7 0 [(12, 2)]] (fun d => d.wr (ASY_PAIR_CTL 0) 0xC0000005)), _, rfl,
     by unfold Dev.clusterFree; decide, by decide⟩,
   ⟨0, 3, (cmds 3 [desc 0xC10 0 0 7 8 [(12, 2)]] (id)), _, rfl, by unfold Dev.clusterFree; decide, by decide⟩,
   ⟨0, 3, (cmds 3 [desc 0xC10 0 0 7 8 [(12,
     1)]] (fun d => (d.modLane 0 fun l => { l with paired := true, primary := true }).modLane 1 fun l => { l with paired := true })),
     _, rfl, by unfold Dev.clusterFree; decide, by decide⟩,
   ⟨0, 3, (cmds 3 [desc 0xC10 0 0 7 8 [(12, 2)]] (fun d => regsD [(PLN_SLOT_CFG 0 2, 0xFFFFFFFF)] d)), _, rfl,
     by unfold Dev.clusterFree; decide, by decide⟩,
   ⟨0, 3, (cmds 3 [desc 0xC10 0 0 7 8 [(12, 1)]] (fun d => regsD [(PLN_SLOT_CFG 0 2,
     0xFFFFFFFF)] ((d.modLane 0 fun l => { l with paired := true, primary := true }).modLane 1 fun l => { l with paired := true }))),
     _, rfl, by unfold Dev.clusterFree; decide, by decide⟩,
   ⟨0, 3, (cmds 3 [desc 0xC10 0 0 7 8 [(12, 2)]] (fun d => regsD [(PLN_SLOT_CFG 1 2, 0x80000000), (PLN_SLOT_CFG 1 0,
     0xFFFFFFFF)] d)), _, rfl, by unfold Dev.clusterFree; decide, by decide⟩,
   ⟨0, 3, (cmds 3 [desc 0xC10 0 0 7 8 [(12, 1)]] (fun d => d.modLane 0 fun l => { l with pairReq := 1 })), _, rfl,
     by unfold Dev.clusterFree; decide, by decide⟩⟩

theorem meets_CoreCommands_3 :
    (∃ (p : Fin 8), ∃ (r : Fin 4096), ∃ (s : State), ∃ (c : Cmd), s.dev.front (↑r) 3088 = some c ∧ (c.tgt = 8 + ↑p ∧
      s.dev.badCluster (↑p / 2) = false ∧ s.dev.clusterFree (↑p / 2) ∧ c.descs = [c.d0] ∧ c.bad [(12, 1, 255),
      (14, 2, 255)] = false ∧ c.byte 12 = 2) ∧ ¬(s.dev.lane (2 * ↑p)).pairReq = 0) ∧
    (∃ (p : Fin 8), ∃ (r : Fin 4096), ∃ (s : State), ∃ (c : Cmd), s.dev.front (↑r) 3088 = some c ∧ (c.tgt = 8 + ↑p ∧
      s.dev.badCluster (↑p / 2) = false ∧ s.dev.clusterFree (↑p / 2) ∧ c.descs = [c.d0] ∧ c.bad [(12, 1, 255),
      (14, 2, 255)] = false ∧ c.byte 12 = 1) ∧ (s.dev.lane (2 * ↑p)).pairReq = 0 ∧
      (s.dev.lane (2 * ↑p)).paired = false) ∧
    (∃ (p : Fin 8), ∃ (r : Fin 4096), ∃ (s : State), ∃ (c : Cmd), s.dev.front (↑r) 3088 = some c ∧ (c.tgt = 8 + ↑p ∧
      s.dev.badCluster (↑p / 2) = false ∧ s.dev.clusterFree (↑p / 2) ∧ c.descs = [c.d0] ∧ c.bad [(12, 1, 255),
      (14, 2, 255)] = false ∧ c.byte 12 = 2) ∧ (s.dev.lane (2 * ↑p)).pairReq = 0 ∧
      (s.dev.lane (2 * ↑p)).paired = true) ∧
    (∃ (r : Fin 4096), ∃ (s : State), ∃ (c : Cmd), s.dev.front (↑r) 3104 = some c ∧ s.dev.badCluster c.tgt = false ∧
      s.dev.clusterFree c.tgt ∧ c.bad [(12, 1, 255)] = false ∧ ∃ (i : Nat), i < 8 ∧ (c.byte 12).testBit i = true ∧
      s.dev.egOn (c.tgt * 8 + i) = false) :=
  ⟨⟨0, 3, (cmds 3 [desc 0xC10 0 0 7 8 [(12, 2)]] (fun d => d.modLane 0 fun l => { l with pairReq := 1 })), _, rfl,
     by unfold Dev.clusterFree; decide, by decide⟩,
   ⟨0, 3, (cmds 3 [desc 0xC10 0 0 7 8 [(12, 1)]] (id)), _, rfl, by unfold Dev.clusterFree; decide, by decide⟩,
   ⟨0, 3, (cmds 3 [desc 0xC10 0 0 7 8 [(12,
     2)]] (fun d => (d.modLane 0 fun l => { l with paired := true, primary := true }).modLane 1 fun l => { l with paired := true })),
     _, rfl, by unfold Dev.clusterFree; decide, by decide⟩,
   ⟨3, (cmds 3 [desc 0xC20 0 0 7 0 [(12, 1)]] id), _, rfl, by decide, by unfold Dev.clusterFree; decide, by decide,
     0, by decide⟩⟩

theorem meets_ResetSources_1 :
    (∃ (s : State), s.dev.inReset = true) ∧
    (∃ (s : State), s.dev.inReset = true ∧ ∃ (ppm : Option Nat), True) ∧
    (∃ (s : State), s.dev.inReset = false) ∧
    (∃ (s : State), s.dev.inReset = false ∧ s.dev.flag TCH_WDT_CFG TCH_WDT_CFG_en = true ∧
      s.dev.flag TCH_WDT_CFG TCH_WDT_CFG_frozen = false ∧ s.dev.fld TCH_WDT_LEFT TCH_WDT_LEFT_left = 0) ∧
    (∃ (s : State), s.dev.inReset = false ∧ (s.dev.flag TCH_WDT_CFG TCH_WDT_CFG_en = false ∨
      s.dev.flag TCH_WDT_CFG TCH_WDT_CFG_frozen = true ∨ s.dev.fld TCH_WDT_LEFT TCH_WDT_LEFT_left ≠ 0)) ∧
    (∃ (s : State), s.dev.inReset = false ∧ ∃ (ppm : Option Nat), True) ∧
    (∃ (s : State),   ∃ (k : Nat),
      List.findSome?           (fun (x : Due) =>             match x with             | Due.reset j => some j             | x => none)           s.dev.due =         some k ∧
            k ≠ 2) ∧
    (∃ (s : State),   ∃ (k : Nat),
      List.findSome?           (fun (x : Due) =>             match x with             | Due.reset j => some j             | x => none)           s.dev.due =         some k ∧
            k = 2 ∧ (s.dev.fld TCH_BOOT TCH_BOOT_stage < 5 ∨ 8 < s.dev.fld TCH_BOOT TCH_BOOT_stage)) ∧
    (∃ (s : State),   ∃ (k : Nat),
      List.findSome?           (fun (x : Due) =>             match x with             | Due.reset j => some j             | x => none)           s.dev.due =         some k ∧
            k = 2 ∧ 5 ≤ s.dev.fld TCH_BOOT TCH_BOOT_stage ∧ s.dev.fld TCH_BOOT TCH_BOOT_stage ≤ 8) ∧
    (∃ (s : State), ∀ (k : Nat), ¬Due.reset k ∈ s.dev.due) :=
  ⟨⟨(run fun d => (fun d => { d with clkHeld := true }) (up 0 0 0 (busy) d)), by decide⟩,
   ⟨(run fun d => (fun d => { d with clkHeld := true }) (up 0 0 0 (busy) d)), by decide, none, by decide⟩,
   ⟨(run fun d => (fun d => d.modTch fun t => { t with prov := some (rec1 1), provT := 5000000 }) (up 9 0 0 (busy) d)),
     by decide⟩,
   ⟨(run fun d => (fun d => d.modTch fun t => { t with prov := some (rec1 1), provT := 5000000 }) (up 9 0 0 (busy) d)),
     by decide⟩,
   ⟨(run fun d => (fun d => d.modTch fun t => { t with prov := some (rec1 1), provT := 5000000 }) (up 9 0 0 (id) d)),
     by decide⟩,
   ⟨(run fun d => (fun d => d.modTch fun t => { t with prov := some (rec1 1), provT := 5000000 }) (up 9 0 0 (busy) d)),
     by decide, none, by decide⟩,
   ⟨(run fun d => (fun d => { d with due := [.reset 3, .reset 2] }) (up 0 0 0 (busy) d)), by decide⟩,
   ⟨(run fun d => (fun d => { d with due := [.reset 2] }) (up 0 0 0 (busy) d)), by decide⟩,
   ⟨(run fun d => up 6 0 0 (fun d => { d with due := [.reset 2] }) d), 2, rfl, by decide⟩,
   ⟨State.reset, fun k h => by cases (h : Due.reset k ∈ [])⟩⟩

theorem meets_ResetSources_2 :
    (∃ (s : State), s.dev.pcie.perst = true) ∧
    (∃ (s : State), s.dev.pcie.perst = false ∧ s.dev.inReset = true) ∧
    (∃ (s : State), s.dev.pcie.perst = false ∧ s.dev.inReset = false ∧
      s.dev.flag GLB_PCIE_CTL GLB_PCIE_CTL_perst_dev = true) ∧
    (∃ (s : State), s.dev.pcie.perst = false ∧ s.dev.inReset = false ∧
      s.dev.flag GLB_PCIE_CTL GLB_PCIE_CTL_perst_dev = false) ∧
    (∃ (s : State), s.dev.inReset = false ∧ s.dev.linkUp = true ∧
      s.dev.flag GLB_PCIE_CTL GLB_PCIE_CTL_perst_dev = true) ∧
    (∃ (s : State), s.dev.inReset = false ∧ s.dev.linkUp = true ∧
      s.dev.flag GLB_PCIE_CTL GLB_PCIE_CTL_perst_dev = false) ∧
    (∃ (s : State), s.dev.linkUp = false) ∧
    (∃ (s : State), ∃ (runs : Bool), s.dev.pcie.perst = false) ∧
    (∃ (s : State), ∃ (runs : Bool), s.dev.pcie.perst = true ∧ s.dev.inReset = false ∧
      s.dev.fld GLB_PCIE_CTL GLB_PCIE_CTL_refclk_sel < 3) ∧
    (∃ (aux : Bool), ∃ (mv : Fin 65536), ∃ (other : Fin 65536), ∃ (s : State), s.dev.tch.valid = false ∨
      (if aux = true then 1550 else 810) < ↑mv) :=
  ⟨⟨(run fun d => (fun d => (d.setF GLB_PCIE_CTL GLB_PCIE_CTL_refclk_sel 2).modPcie fun p => { p with perst := true }) (up 0 0 0 (busy) d)),
     by decide⟩,
   ⟨(run fun d => (fun d => { d with clkHeld := true }) (up 0 0 0 (busy) d)), by decide⟩,
   ⟨(run fun d => up 6 0 0 (fun d => d.setB GLB_PCIE_CTL GLB_PCIE_CTL_perst_dev true) d), by decide⟩,
   ⟨(run fun d => (fun d => d.modTch fun t => { t with prov := some (rec1 1), provT := 5000000 }) (up 9 0 0 (busy) d)),
     by decide⟩,
   ⟨(run fun d => up 0 0 0 (fun d => (busy d).setB GLB_PCIE_CTL GLB_PCIE_CTL_perst_dev true) d), by decide⟩,
   ⟨(run fun d => (fun d => d.modTch fun t => { t with prov := some (rec1 1), provT := 5000000 }) (up 9 0 0 (busy) d)),
     by decide⟩,
   ⟨(run fun d => (fun d => d.modTch fun t => { t with prov := some (rec1 1), provT := 5000000 }) (up 9 0 0 (id) d)),
     by decide⟩,
   ⟨(run fun d => (fun d => d.modTch fun t => { t with prov := some (rec1 1), provT := 5000000 }) (up 9 0 0 (busy) d)),
     true, by decide⟩,
   ⟨(run fun d => (fun d => (d.setF GLB_PCIE_CTL GLB_PCIE_CTL_refclk_sel 2).modPcie fun p => { p with perst := true }) (up 0 0 0 (busy) d)),
     true, by decide⟩,
   ⟨true, 1551, 3000, (run fun d => up 6 0 0 (id) d), by decide⟩⟩

theorem meets_ResetSources_3 :
    ∃ (aux : Bool), ∃ (mv : Fin 65536), ∃ (other : Fin 65536), ∃ (s : State), s.dev.tch.valid = true ∧
      ↑mv ≤ if aux = true then 1550 else 810 :=
  ⟨true, 1550, 3000, (run fun d => up 6 0 0 (id) d), by decide⟩

theorem meets_StartUp_1 :
    (∃ (bm : Fin 4), ∃ (s : State), s.dev.tch.valid = false ∨ s.dev.clkHeld = true ∨
      4 ≤ s.dev.fld TCH_BOOT TCH_BOOT_stage) ∧
    (∃ (bm : Fin 4), ∃ (s : State), s.dev.tch.valid = true ∧ s.dev.clkHeld = false ∧
      s.dev.fld TCH_BOOT TCH_BOOT_stage = 0) ∧
    (∃ (bm : Fin 4), ∃ (s : State), s.dev.tch.valid = true ∧ s.dev.clkHeld = false ∧
      s.dev.fld TCH_BOOT TCH_BOOT_stage = 1 ∧ s.dev.flag GLB_CLK_STAT GLB_CLK_STAT_main_lock = true ∧
      s.dev.flag GLB_CLK_STAT GLB_CLK_STAT_link_lock = true) ∧
    (∃ (bm : Fin 4), ∃ (s : State), s.dev.tch.valid = true ∧ s.dev.clkHeld = false ∧
      s.dev.fld TCH_BOOT TCH_BOOT_stage = 1 ∧ ¬(s.dev.flag GLB_CLK_STAT GLB_CLK_STAT_main_lock = true ∧
      s.dev.flag GLB_CLK_STAT GLB_CLK_STAT_link_lock = true)) ∧
    (∃ (bm : Fin 4), ∃ (s : State), s.dev.tch.valid = true ∧ s.dev.clkHeld = false ∧
      s.dev.fld TCH_BOOT TCH_BOOT_stage = 2) ∧
    (∃ (bm : Fin 4), ∃ (s : State), s.dev.tch.valid = true ∧ s.dev.clkHeld = false ∧
      s.dev.fld TCH_BOOT TCH_BOOT_stage = 3 ∧ s.dev.fld TCH_BOOT TCH_BOOT_boot_mode = 2) ∧
    (∃ (bm : Fin 4), ∃ (s : State), s.dev.tch.valid = true ∧ s.dev.clkHeld = false ∧
      s.dev.fld TCH_BOOT TCH_BOOT_stage = 3 ∧ s.dev.fld TCH_BOOT TCH_BOOT_boot_mode ≠ 2) ∧
    (∃ (s : State), s.dev.fld TCH_BOOT TCH_BOOT_stage = 1) ∧
    (∃ (s : State), s.dev.fld TCH_BOOT TCH_BOOT_stage ≠ 1) ∧
    (∃ (s : State), s.dev.fld TCH_BOOT TCH_BOOT_stage ≠ 0 ∧ s.dev.inReset = false) :=
  ⟨⟨0, (run fun d => (fun d => { d with clkHeld := true }) (up 2 0 2 id d)), by decide⟩,
   ⟨0, (run fun d => up 0 0 0 (id) d), by decide⟩,
   ⟨0, (run fun d => up 1 0 0 (fun d => d.wr GLB_CLK_STAT 0xFFFFFFFF) d), by decide⟩,
   ⟨0, (run fun d => up 1 0 0 (id) d), by decide⟩,
   ⟨0, (run fun d => up 2 0 0 (id) d), by decide⟩,
   ⟨0, (run fun d => up 3 0 0 (fun d => d.setF TCH_BOOT TCH_BOOT_boot_mode 2) d), by decide⟩,
   ⟨0, (run fun d => (fun d => otpK 1 true d) (up 3 0 1 id d)), by decide⟩,
   ⟨(run fun d => up 1 0 0 (id) d), by decide⟩,
   ⟨(run fun d => (fun d => otpK 1 true d) (up 3 0 2 id d)), by decide⟩,
   ⟨(run fun d => (fun d => otpK 1 true d) (up 3 0 2 id d)), by decide⟩⟩

theorem meets_StartUp_2 :
    (∃ (s : State), s.dev.fld TCH_BOOT TCH_BOOT_stage = 0 ∨ s.dev.inReset = true) ∧
    (∃ (s : State), 6 ≤ s.dev.fld TCH_BOOT TCH_BOOT_stage ∧ s.dev.fld TCH_BOOT TCH_BOOT_stage ≤ 8 ∧
      s.dev.pcie.perst = false ∧ s.dev.pcie.dlDown = false ∧ ((s.dev.core 16).running = true ∨
      (s.dev.core 17).running = true) ∧ s.dev.flag GLB_PCIE_STAT GLB_PCIE_STAT_fw_ready = false) ∧
    (∃ (s : State), ¬(6 ≤ s.dev.fld TCH_BOOT TCH_BOOT_stage ∧ s.dev.fld TCH_BOOT TCH_BOOT_stage ≤ 8 ∧
      s.dev.pcie.perst = false ∧ s.dev.pcie.dlDown = false ∧ ((s.dev.core 16).running = true ∨
      (s.dev.core 17).running = true) ∧ s.dev.flag GLB_PCIE_STAT GLB_PCIE_STAT_fw_ready = false)) ∧
    (∃ (w : Writer), ∃ (c : Fin 4), ∃ (s : State), s.dev.accepts w GLB_RST_CTL = true ∧
      s.dev.fld GLB_RST_CTL GLB_RST_CTL_cl_rel &&& partMask s.dev.part = s.dev.fld GLB_RST_CTL GLB_RST_CTL_cl_rel ∧
      s.dev.hasCluster ↑c = true ∧ (s.dev.fld GLB_RST_CTL GLB_RST_CTL_cl_rel).testBit ↑c = false ∧
      ∃ (imgs : List CoreImage), (List.map CoreImage.core imgs).Nodup) ∧
    (∃ (w : Writer), ∃ (c : Fin 4), ∃ (s : State), s.dev.accepts w GLB_RST_CTL = true ∧
      s.dev.fld GLB_RST_CTL GLB_RST_CTL_cl_rel &&& partMask s.dev.part = s.dev.fld GLB_RST_CTL GLB_RST_CTL_cl_rel ∧
      s.dev.hasCluster ↑c = true ∧ (s.dev.fld GLB_RST_CTL GLB_RST_CTL_cl_rel).testBit ↑c = true ∧
      s.dev.atRest ↑c = true) ∧
    (∃ (w : Writer), ∃ (c : Fin 4), ∃ (s : State), s.dev.accepts w GLB_RST_CTL = true ∧
      s.dev.fld GLB_RST_CTL GLB_RST_CTL_cl_rel &&& partMask s.dev.part = s.dev.fld GLB_RST_CTL GLB_RST_CTL_cl_rel ∧
      s.dev.hasCluster ↑c = true ∧ (s.dev.fld GLB_RST_CTL GLB_RST_CTL_cl_rel).testBit ↑c = true ∧
      s.dev.atRest ↑c = false) :=
  ⟨⟨(run fun d => (fun d => { d with clkHeld := true }) (up 2 0 2 id d)), by decide⟩,
   ⟨(run fun d => up 6 0 0 (fun d => d.modCore 16 fun c => { c with running := true }) d), by decide⟩,
   ⟨(run fun d => (fun d => otpK 1 true d) (up 3 0 2 id d)), by decide⟩,
   ⟨.dap, 0, (run fun d => (fun d => otpK 1 true d) (up 3 0 2 id d)), by decide, by decide, by decide, by decide,
     ([] : List CoreImage), by decide⟩,
   ⟨.dap, 0, (run fun d => up 9 0 0 (fun d => (d.wr GLB_RST_CTL 0xFFFFFFFF)) d), by decide⟩,
   ⟨.dap, 0, (run fun d => up 9 0 0 (fun d => (d.wr GLB_RST_CTL 0xFFFFFFFF).setF (AXS_STATE 0) AXS_STATE_state 3) d),
     by decide⟩⟩

theorem meets_SuppliesLogAndEntropy_1 :
    (∃ (vcore : Fin 65536), ∃ (vaux : Fin 65536), ∃ (s : State), s.dev.tch.valid = true ∨ ↑vcore ≤ 870 ∨ ↑vaux ≤ 1680) ∧
    (∃ (vcore : Fin 65536), ∃ (vaux : Fin 65536), ∃ (s : State), s.dev.tch.valid = false ∧ 870 < ↑vcore ∧
      1680 < ↑vaux) ∧
    (∃ (aux : Bool), ∃ (mv : Fin 65536), ∃ (s : State), s.dev.tch.valid = false ∨
      (if aux = true then 1660 else 850) ≤ ↑mv) ∧
    (∃ (aux : Bool), ∃ (mv : Fin 65536), ∃ (s : State), s.dev.tch.valid = true ∧
      ↑mv < if aux = true then 1660 else 850) ∧
    (∃ (aux : Bool), ∃ (mv : Fin 65536), ∃ (s : State), ∃ (low : Fin 65536),
      s.dev.flag TCH_SUP_STAT (if aux = true then TCH_SUP_STAT_vaux_warn else TCH_SUP_STAT_vcore_warn) = false ∨
      ↑mv ≤ (if aux = true then 1660 else 850) + 20) ∧
    (∃ (aux : Bool), ∃ (mv : Fin 65536), ∃ (s : State), ∃ (low : Fin 65536),
      s.dev.flag TCH_SUP_STAT (if aux = true then TCH_SUP_STAT_vaux_warn else TCH_SUP_STAT_vcore_warn) = true ∧
      (if aux = true then 1660 else 850) + 20 < ↑mv ∧
      s.dev.flag TCH_SUP_STAT (if aux = true then TCH_SUP_STAT_vcore_warn else TCH_SUP_STAT_vaux_warn) = true) ∧
    (∃ (aux : Bool), ∃ (mv : Fin 65536), ∃ (s : State), ∃ (low : Fin 65536),
      s.dev.flag TCH_SUP_STAT (if aux = true then TCH_SUP_STAT_vaux_warn else TCH_SUP_STAT_vcore_warn) = true ∧
      (if aux = true then 1660 else 850) + 20 < ↑mv ∧
      s.dev.flag TCH_SUP_STAT (if aux = true then TCH_SUP_STAT_vcore_warn else TCH_SUP_STAT_vaux_warn) = false) ∧
    (∃ (mv : Fin 65536), ∃ (s : State), s.dev.tch.valid = true) ∧
    (∃ (s : State), ∃ (r : TchRec), ∃ (l : List TchRec), s.dev.tchQueue = r :: l ∧
      (s.dev.flag TCH_STAT TCH_STAT_ready = false ∨ s.dev.tchRoom = false)) ∧
    (∃ (s : State), ∃ (r : TchRec), ∃ (l : List TchRec), s.dev.tchQueue = r :: l ∧
      s.dev.flag TCH_STAT TCH_STAT_ready = true ∧ s.dev.tchRoom = true) :=
  ⟨⟨0, 0, (run id), by decide⟩,
   ⟨871, 1681, (run id), by decide⟩,
   ⟨true, 0, (run id), by decide⟩,
   ⟨true, 0, (run fun d => (fun d => d) ((up 5 0 0 id d).wr TCH_SUP_STAT 0)), by decide⟩,
   ⟨true, 0, (run id), 0, by decide⟩,
   ⟨true, 1681, (run fun d => (fun d => d) ((up 5 0 0 id d).wr TCH_SUP_STAT 0xC0000000)), 0, by decide⟩,
   ⟨true, 1681, (run fun d => (fun d => d) ((up 5 0 0 id d).wr TCH_SUP_STAT 0x40000000)), 0, by decide⟩,
   ⟨0, (run fun d => (fun d => d) ((up 5 0 0 id d).wr TCH_SUP_STAT 0)), by decide⟩,
   ⟨(run fun d => (fun d => d.modTch fun t => { t with ringErase := some 897 }) (oldLog 16 15 [rec1 1] ((up 5 0 0 id d).wr TCH_STAT 0xC0000000))),
     _, _, rfl, by decide⟩,
   ⟨(run fun d => (fun d => oldLog 5 4 [rec1 1,
     rec1 30] (d.modTch fun t => { t with prov := some (rec1 9), provMv := 700, provN := 3, provT := 5000000 })) ((up 5 0 0 id d).wr TCH_SUP_STAT 0)),
     _, _, rfl, by decide⟩⟩

theorem meets_SuppliesLogAndEntropy_2 :
    (∃ (s : State), s.dev.tchQueue = []) ∧
    (∃ (test : Fin 2), ∃ (s : State), s.dev.flag HLM_STAT HLM_STAT_ent_ok = false) ∧
    (∃ (test : Fin 2), ∃ (s : State), s.dev.flag HLM_STAT HLM_STAT_ent_ok = true) ∧
    (∃ (test : Fin 2), ∃ (s : State), s.dev.flag HLM_STAT HLM_STAT_ent_ok = false ∧
      3 ≤ s.dev.fld TCH_BOOT TCH_BOOT_stage) ∧
    (∃ (test : Fin 2), ∃ (s : State), s.dev.flag HLM_STAT HLM_STAT_ent_ok = true ∨
      s.dev.fld TCH_BOOT TCH_BOOT_stage < 3) ∧
    (∃ (test : Fin 2), ∃ (s : State), s.dev.hlm.nonceAt + 8000000000 ≤ s.dev.now) ∧
    (∃ (test : Fin 2), ∃ (s : State), s.dev.hlm.tapChalAt + 8000000000 ≤ s.dev.now) ∧
    (∃ (test : Fin 2), ∃ (s : State), s.dev.hlm.chalAt + 8000000000 ≤ s.dev.now) ∧
    (∃ (test : Fin 2), ∃ (s : State), ¬s.dev.hlm.nonceAt + 8000000000 ≤ s.dev.now) ∧
    (∃ (test : Fin 2), ∃ (s : State), ¬s.dev.hlm.tapChalAt + 8000000000 ≤ s.dev.now) :=
  ⟨⟨(run id), by decide⟩,
   ⟨0, (run id), by decide⟩,
   ⟨0,
     (run fun d => { ((up 2 0 0 id d).setB HLM_STAT HLM_STAT_ent_ok true).modHlm (fun h => { h with nonce := some [1], chal := some [2], tapChal := some [3] }) with now := 0 }),
     by decide⟩,
   ⟨0, (run fun d => (fun d => d) ((up 5 0 0 id d).wr TCH_SUP_STAT 0)), by decide⟩,
   ⟨0, (run id), by decide⟩,
   ⟨0,
     (run fun d => { ((up 2 0 0 id d).setB HLM_STAT HLM_STAT_ent_ok true).modHlm (fun h => { h with nonce := some [1], chal := some [2], tapChal := some [3] }) with now := 8000000000 }),
     by decide⟩,
   ⟨0,
     (run fun d => { ((up 2 0 0 id d).setB HLM_STAT HLM_STAT_ent_ok true).modHlm (fun h => { h with nonce := some [1], chal := some [2], tapChal := some [3] }) with now := 8000000000 }),
     by decide⟩,
   ⟨0,
     (run fun d => { ((up 2 0 0 id d).setB HLM_STAT HLM_STAT_ent_ok true).modHlm (fun h => { h with nonce := some [1], chal := some [2], tapChal := some [3] }) with now := 8000000000 }),
     by decide⟩,
   ⟨0, (run id), by decide⟩,
   ⟨0, (run id), by decide⟩⟩

theorem meets_SuppliesLogAndEntropy_3 :
    ∃ (test : Fin 2), ∃ (s : State), ¬s.dev.hlm.chalAt + 8000000000 ≤ s.dev.now :=
  ⟨0, (run id), by decide⟩

theorem meets_SolderRoundsAndSlots_1 :
    (∃ (p : Fin 8), ∃ (s : State), s.dev.flag (SLD_CTL ↑p) SLD_CTL_en = false ∨ (s.dev.sld ↑p).inRound = true ∨
      s.dev.now < (s.dev.sld ↑p).slotAt ∨
      Option.any (fun (t : Nat) => decide (s.dev.now < t + s.dev.fld (SLD_CTL ↑p) SLD_CTL_round_iv * 800)) (s.dev.sld ↑p).roundAt = true) ∧
    (∃ (p : Fin 8), ∃ (s : State), s.dev.flag (SLD_CTL ↑p) SLD_CTL_en = true ∧ (s.dev.sld ↑p).inRound = false ∧
      ¬(s.dev.now < (s.dev.sld ↑p).slotAt ∨
      Option.any (fun (t : Nat) => decide (s.dev.now < t + s.dev.fld (SLD_CTL ↑p) SLD_CTL_round_iv * 800)) (s.dev.sld ↑p).roundAt = true) ∧
      s.dev.flag (SLD_STAT ↑p) SLD_STAT_list_req = false ∧
      List.filter (s.dev.sldListed ↑p) (List.range 128) = [] ∧ s.dev.sldPend (↑p) 0 = false) ∧
    (∃ (p : Fin 8), ∃ (s : State), s.dev.flag (SLD_CTL ↑p) SLD_CTL_en = true ∧ (s.dev.sld ↑p).inRound = false ∧
      ¬(s.dev.now < (s.dev.sld ↑p).slotAt ∨
      Option.any (fun (t : Nat) => decide (s.dev.now < t + s.dev.fld (SLD_CTL ↑p) SLD_CTL_round_iv * 800)) (s.dev.sld ↑p).roundAt = true) ∧
      s.dev.flag (SLD_STAT ↑p) SLD_STAT_list_req = false ∧
      (List.filter (s.dev.sldListed ↑p) (List.range 128) ≠ [] ∨ s.dev.sldPend (↑p) 0 = true)) ∧
    (∃ (p : Fin 8), ∃ (s : State), s.dev.flag (SLD_CTL ↑p) SLD_CTL_en = true ∧ (s.dev.sld ↑p).inRound = false ∧
      ¬(s.dev.now < (s.dev.sld ↑p).slotAt ∨
      Option.any (fun (t : Nat) => decide (s.dev.now < t + s.dev.fld (SLD_CTL ↑p) SLD_CTL_round_iv * 800)) (s.dev.sld ↑p).roundAt = true) ∧
      s.dev.flag (SLD_STAT ↑p) SLD_STAT_list_req = true) ∧
    (∃ (p : Fin 8), ∃ (s : State), ((s.dev.sld ↑p).inRound = false ∨ (s.dev.sld ↑p).bcast = true ∨
      (s.dev.sld ↑p).todo = []) ∧ ∃ (r : Option (List Bool)), True) ∧
    (∃ (p : Fin 8), ∃ (s : State), ∃ (n : Nat), ∃ (rest : List Nat),
      ((fun (d : Dev) => d.sld ↑p) s.dev).todo = n :: rest ∧ (s.dev.sld ↑p).inRound = true ∧
      (s.dev.sld ↑p).bcast = false ∧ 1 ≤ n ∧ n < 128 ∧ s.dev.flag (SLD_CTL ↑p) SLD_CTL_en = true ∧ ∃ (k : Nat),
      k < 3 ∧ (s.dev.slotKind s.mem (↑p) n ≠ k ∨
      s.dev.now < (s.dev.sld ↑p).slotAt + 64 * if k = 0 then 30 else if k = 1 then 162 else 174) ∧
      ∃ (r : Option (List Bool)), True) ∧
    (∃ (p : Fin 8), ∃ (s : State), ∃ (n : Nat), ∃ (rest : List Nat),
      ((fun (d : Dev) => d.sld ↑p) s.dev).todo = n :: rest ∧ (s.dev.sld ↑p).inRound = true ∧
      (s.dev.sld ↑p).bcast = false ∧ 1 ≤ n ∧ n < 128 ∧ s.dev.flag (SLD_CTL ↑p) SLD_CTL_en = true ∧
      ∃ (l : List Bool), l.length = 13 ∧ crcOver 4 3 15 (bitsOf 7 n ++ List.take 12 l) = 0 ∧
      l.getD 12 false = true ∧ s.dev.slotKind s.mem (↑p) n = 0 ∧
      ((s.dev.sld ↑p).slotAt + 64 * if 0 = 0 then 30 else if 0 = 1 then 162 else 174) ≤ s.dev.now) ∧
    (∃ (p : Fin 8), ∃ (s : State), ∃ (n : Nat), ∃ (rest : List Nat),
      ((fun (d : Dev) => d.sld ↑p) s.dev).todo = n :: rest ∧ (s.dev.sld ↑p).inRound = true ∧
      (s.dev.sld ↑p).bcast = false ∧ 1 ≤ n ∧ n < 128 ∧ s.dev.flag (SLD_CTL ↑p) SLD_CTL_en = true ∧
      ∃ (l : List Bool), l.length = 13 ∧ crcOver 4 3 15 (bitsOf 7 n ++ List.take 12 l) = 0 ∧
      l.getD 12 false = true ∧ s.dev.slotKind s.mem (↑p) n = 2 ∧
      ((s.dev.sld ↑p).slotAt + 64 * if 2 = 0 then 30 else if 2 = 1 then 162 else 174) ≤ s.dev.now) ∧
    (∃ (p : Fin 8), ∃ (s : State), ∃ (n : Nat), ∃ (rest : List Nat),
      ((fun (d : Dev) => d.sld ↑p) s.dev).todo = n :: rest ∧ (s.dev.sld ↑p).inRound = true ∧
      (s.dev.sld ↑p).bcast = false ∧ 1 ≤ n ∧ n < 128 ∧ s.dev.flag (SLD_CTL ↑p) SLD_CTL_en = true ∧
      s.dev.slotKind s.mem (↑p) n = 1 ∧
      ((s.dev.sld ↑p).slotAt + 64 * if 1 = 0 then 30 else if 1 = 1 then 162 else 174) ≤ s.dev.now ∧
      ∃ (l : List Bool), l.length = 145 ∧ crcOver 16 4129 65535 (List.take 144 l) = 0 ∧ l.getD 144 false = true) ∧
    (∃ (p : Fin 8), ∃ (s : State), ∃ (n : Nat), ∃ (rest : List Nat),
      ((fun (d : Dev) => d.sld ↑p) s.dev).todo = n :: rest ∧ (s.dev.sld ↑p).inRound = true ∧
      (s.dev.sld ↑p).bcast = false ∧ 1 ≤ n ∧ n < 128 ∧ s.dev.flag (SLD_CTL ↑p) SLD_CTL_en = true ∧
      s.dev.slotKind s.mem (↑p) n < 3 ∧
      ((s.dev.sld ↑p).slotAt + 64 * if s.dev.slotKind s.mem (↑p) n = 0 then 30 else if s.dev.slotKind s.mem (↑p) n = 1 then 162 else 174) ≤ s.dev.now ∧
      s.dev.sldPresent (↑p) n = true ∧ (s.dev.sld ↑p).tries < s.dev.fld (SLD_CTL ↑p) SLD_CTL_retries) :=
  ⟨⟨0, (run fun d => (fun d => d) (sldP 0 0 d)), by decide⟩,
   ⟨0, (run fun d => (fun d => d.wr (SLD_LIST 0 0) 0) (sldP 0 0x80000001 d)), by decide⟩,
   ⟨0, (run fun d => (fun d => d) (sldP 0 0x80000001 d)), by decide⟩,
   ⟨0, (run fun d => (fun d => d.setB (SLD_STAT 0) SLD_STAT_list_req true) (sldP 0 0x80000001 d)), by decide⟩,
   ⟨0, (run fun d => (fun d => d) (sldP 0 0 d)), by decide, none, by decide⟩,
   ⟨0, (run fun d => (fun d => d) (slot 0 [5] 0 0 false (sldP 0 0x80030000 d))), _, _, rfl, by decide, by decide,
     by decide, by decide, by decide, 2, by decide, by decide, none, by decide⟩,
   ⟨0, (run fun d => (fun d => d) (slot 0 [5] 0 0 false (sldP 0 0x80030000 d))), _, _, rfl, by decide, by decide,
     by decide, by decide, by decide, (shortOk 5 0 : List Bool), by decide⟩,
   ⟨0, (run fun d => (fun d => d.wr (SLD_CMD_PEND 0 0) 0x21) (slot 0 [5] 0 0 false (sldP 0 0x80030000 d))), _, _,
     rfl, by decide, by decide, by decide, by decide, by decide, (shortOk 5 0 : List Bool), by decide⟩,
   ⟨0,
     (withMem (fun m => (m.setWord (bankAddr 71 (stateWord 0 5)) 0x80030202).setSpan (bankAddr 71 (commandBox 0 5)) [1,
     2, 3]) (run fun d => (fun d => d) (slot 0 [5] 0 0 false (sldP 0 0x80030000 d)))), _, _, rfl, by decide,
     by decide, by decide, by decide, by decide, by decide, by decide,
     (longOk ((List.range 16).map fun i => BitVec.ofNat 8 (i + 2)) : List Bool), by decide⟩,
   ⟨0, (run fun d => (fun d => d.wr (SLD_PRESENT 0 0) 0x20) (slot 0 [5] 0 0 false (sldP 0 0xF7030000 d))), _, _, rfl,
     by decide⟩⟩

theorem meets_SolderRoundsAndSlots_2 :
    (∃ (p : Fin 8), ∃ (s : State), ∃ (n : Nat), ∃ (rest : List Nat),
      ((fun (d : Dev) => d.sld ↑p) s.dev).todo = n :: rest ∧ (s.dev.sld ↑p).inRound = true ∧
      (s.dev.sld ↑p).bcast = false ∧ 1 ≤ n ∧ n < 128 ∧ s.dev.flag (SLD_CTL ↑p) SLD_CTL_en = true ∧
      s.dev.slotKind s.mem (↑p) n < 3 ∧
      ((s.dev.sld ↑p).slotAt + 64 * if s.dev.slotKind s.mem (↑p) n = 0 then 30 else if s.dev.slotKind s.mem (↑p) n = 1 then 162 else 174) ≤ s.dev.now ∧
      (s.dev.sldPresent (↑p) n = false ∨ s.dev.fld (SLD_CTL ↑p) SLD_CTL_retries ≤ (s.dev.sld ↑p).tries)) ∧
    (∃ (p : Fin 8), ∃ (s : State), (s.dev.sld ↑p).inRound = false ∨ (s.dev.sld ↑p).bcast = false ∨
      s.dev.now < (s.dev.sld ↑p).slotAt + 64 * 162) ∧
    (∃ (p : Fin 8), ∃ (s : State), (s.dev.sld ↑p).inRound = true ∧ (s.dev.sld ↑p).bcast = true ∧
      s.dev.flag (SLD_CTL ↑p) SLD_CTL_en = true ∧ (s.dev.sld ↑p).todo ≠ [] ∧
      (s.dev.sld ↑p).slotAt + 64 * 162 ≤ s.dev.now) ∧
    (∃ (w : Writer), ∃ (p : Fin 8), ∃ (i : Fin 4), ∃ (v : Word), ∃ (s : State), s.dev.sound (SLD_CMD_PEND ↑p ↑i) v) ∧
    (∃ (w : Writer), ∃ (p : Fin 8), ∃ (i : Fin 4), ∃ (v : Word), ∃ (s : State), s.dev.sound (SLD_CTL ↑p) v ∧
      (s.dev.flag (SLD_STAT ↑p) SLD_STAT_list_req = false ∨ (s.dev.sld ↑p).inRound = true)) ∧
    (∃ (w : Writer), ∃ (p : Fin 8), ∃ (i : Fin 4), ∃ (v : Word), ∃ (s : State),
      s.dev.sound (SLD_STAT ↑p) (v ||| 1073741824) ∧ (s.dev.flag (SLD_CTL ↑p) SLD_CTL_en = true ∨
      (s.dev.sld ↑p).inRound = true)) ∧
    (∃ (w : Writer), ∃ (p : Fin 8), ∃ (i : Fin 4), ∃ (v : Word), ∃ (s : State),
      s.dev.sound (SLD_STAT ↑p) (v ||| 1073741824) ∧ s.dev.accepts w (SLD_STAT ↑p) = true ∧
      s.dev.flag (SLD_CTL ↑p) SLD_CTL_en = false ∧ (s.dev.sld ↑p).inRound = false) :=
  ⟨⟨0, (run fun d => (fun d => d) (slot 0 [5] 0 0 false (sldP 0 0x80030000 d))), _, _, rfl, by decide⟩,
   ⟨0, (run fun d => (fun d => d) (sldP 0 0 d)), by decide⟩,
   ⟨0, (run fun d => (fun d => d) (slot 0 [5] 0 0 true (sldP 0 0x80030000 d))), by decide⟩,
   ⟨(.core 16 0 : Writer), 0, 0, 0xFFFFFFFF, (run fun d => (fun d => d) (sldP 0 0 d)), sound_of (by decide)⟩,
   ⟨(.core 16 0 : Writer), 0, 0, 0xFFFFFFFF, (run fun d => (fun d => d) (sldP 0 0 d)), sound_of (by decide),
     by decide⟩,
   ⟨(.core 16 0 : Writer), 0, 0, 0xFFFFFFFF,
     (run fun d => (fun d => d.modSld 0 fun s => { s with inRound := true }) (sldP 0 0 d)), sound_of (by decide),
     by decide⟩,
   ⟨.dap, 0, 0, 0xFFFFFFFF, (run fun d => (fun d => d) (sldP 0 0 d)), sound_of (by decide), by decide⟩⟩

theorem meets_SeamFrames_1 :
    (∃ (a : Fin 2), ∃ (f : Frame), ∃ (s : State), s.dev.portWorks ↑a = false ∨ f.typ ≠ 1 ∧ 1 ≤ f.typ ∧ f.typ ≤ 11) ∧
    (∃ (a : Fin 2), ∃ (f : Frame), ∃ (s : State), s.dev.portWorks ↑a = true ∧ (f.typ = 0 ∨ 11 < f.typ ∨ f.typ = 1 ∧
      f.crcOk = false)) ∧
    (∃ (a : Fin 2), ∃ (f : Frame), ∃ (s : State), s.dev.portWorks ↑a = false ∨ f.typ ≠ 2 ∧ 1 ≤ f.typ ∧ f.typ ≤ 11) ∧
    (∃ (a : Fin 2), ∃ (f : Frame), ∃ (s : State), s.dev.portWorks ↑a = true ∧ (f.typ = 0 ∨ 11 < f.typ ∨ f.typ = 2 ∧
      f.crcOk = false)) ∧
    (∃ (a : Fin 2), ∃ (f : Frame), ∃ (s : State), s.dev.portWorks ↑a = false ∨ f.typ ≠ 3 ∧ 1 ≤ f.typ ∧ f.typ ≤ 11) ∧
    (∃ (a : Fin 2), ∃ (f : Frame), ∃ (s : State), s.dev.portWorks ↑a = true ∧ (f.typ = 0 ∨ 11 < f.typ ∨ f.typ = 3 ∧
      f.crcOk = false)) ∧
    (∃ (a : Fin 2), ∃ (f : Frame), ∃ (s : State), s.dev.portWorks ↑a = false ∨ f.typ ≠ 4 ∧ 1 ≤ f.typ ∧ f.typ ≤ 11) ∧
    (∃ (a : Fin 2), ∃ (f : Frame), ∃ (s : State), s.dev.portWorks ↑a = true ∧ (f.typ = 0 ∨ 11 < f.typ ∨ f.typ = 4 ∧
      f.crcOk = false)) ∧
    (∃ (a : Fin 2), ∃ (f : Frame), ∃ (s : State), s.dev.portWorks ↑a = false ∨ f.typ ≠ 5 ∧ 1 ≤ f.typ ∧ f.typ ≤ 11) ∧
    (∃ (a : Fin 2), ∃ (f : Frame), ∃ (s : State), s.dev.portWorks ↑a = true ∧ (f.typ = 0 ∨ 11 < f.typ ∨ f.typ = 5 ∧
      f.crcOk = false)) :=
  ⟨⟨0, (fr 0 3 5 [] : Frame), (run id), by decide⟩,
   ⟨0, (fr 0 3 5 [] : Frame), (run fun d => (fun d => d) (mq (fun q => q) (sem 0 0xC0000000 0xC0000000 d))),
     by decide⟩,
   ⟨0, (fr 0 3 5 [] : Frame), (run id), by decide⟩,
   ⟨0, (fr 0 3 5 [] : Frame), (run fun d => (fun d => d) (mq (fun q => q) (sem 0 0xC0000000 0xC0000000 d))),
     by decide⟩,
   ⟨0, (fr 0 3 5 [] : Frame), (run id), by decide⟩,
   ⟨0, (fr 0 3 5 [] : Frame), (run fun d => (fun d => d) (mq (fun q => q) (sem 0 0xC0000000 0xC0000000 d))),
     by decide⟩,
   ⟨0, (fr 0 3 5 [] : Frame), (run id), by decide⟩,
   ⟨0, (fr 0 3 5 [] : Frame), (run fun d => (fun d => d) (mq (fun q => q) (sem 0 0xC0000000 0xC0000000 d))),
     by decide⟩,
   ⟨0, (fr 0 3 5 [] : Frame), (run id), by decide⟩,
   ⟨0, (fr 0 3 5 [] : Frame), (run fun d => (fun d => d) (mq (fun q => q) (sem 0 0xC0000000 0xC0000000 d))),
     by decide⟩⟩

theorem meets_SeamFrames_2 :
    (∃ (a : Fin 2), ∃ (f : Frame), ∃ (s : State), s.dev.portWorks ↑a = false ∨ f.typ ≠ 6 ∧ 1 ≤ f.typ ∧ f.typ ≤ 11) ∧
    (∃ (a : Fin 2), ∃ (f : Frame), ∃ (s : State), s.dev.portWorks ↑a = true ∧ (f.typ = 0 ∨ 11 < f.typ ∨ f.typ = 6 ∧
      f.crcOk = false)) ∧
    (∃ (a : Fin 2), ∃ (f : Frame), ∃ (s : State), s.dev.portWorks ↑a = false ∨ f.typ ≠ 7 ∧ 1 ≤ f.typ ∧ f.typ ≤ 11) ∧
    (∃ (a : Fin 2), ∃ (f : Frame), ∃ (s : State), s.dev.portWorks ↑a = true ∧ (f.typ = 0 ∨ 11 < f.typ ∨ f.typ = 7 ∧
      f.crcOk = false)) ∧
    (∃ (a : Fin 2), ∃ (f : Frame), ∃ (s : State), s.dev.portWorks ↑a = false ∨ f.typ ≠ 8 ∧ 1 ≤ f.typ ∧ f.typ ≤ 11) ∧
    (∃ (a : Fin 2), ∃ (f : Frame), ∃ (s : State), s.dev.portWorks ↑a = true ∧ (f.typ = 0 ∨ 11 < f.typ ∨ f.typ = 8 ∧
      f.crcOk = false)) ∧
    (∃ (a : Fin 2), ∃ (f : Frame), ∃ (s : State), s.dev.portWorks ↑a = false ∨ f.typ ≠ 9 ∧ 1 ≤ f.typ ∧ f.typ ≤ 11) ∧
    (∃ (a : Fin 2), ∃ (f : Frame), ∃ (s : State), s.dev.portWorks ↑a = true ∧ (f.typ = 0 ∨ 11 < f.typ ∨ f.typ = 9 ∧
      f.crcOk = false)) ∧
    (∃ (a : Fin 2), ∃ (f : Frame), ∃ (s : State), s.dev.portWorks ↑a = false ∨ f.typ ≠ 10 ∧ 1 ≤ f.typ ∧ f.typ ≤ 11) ∧
    (∃ (a : Fin 2), ∃ (f : Frame), ∃ (s : State), s.dev.portWorks ↑a = true ∧ (f.typ = 0 ∨ 11 < f.typ ∨ f.typ = 10 ∧
      f.crcOk = false)) :=
  ⟨⟨0, (fr 0 3 5 [] : Frame), (run id), by decide⟩,
   ⟨0, (fr 0 3 5 [] : Frame), (run fun d => (fun d => d) (mq (fun q => q) (sem 0 0xC0000000 0xC0000000 d))),
     by decide⟩,
   ⟨0, (fr 0 3 5 [] : Frame), (run id), by decide⟩,
   ⟨0, (fr 0 3 5 [] : Frame), (run fun d => (fun d => d) (mq (fun q => q) (sem 0 0xC0000000 0xC0000000 d))),
     by decide⟩,
   ⟨0, (fr 0 3 5 [] : Frame), (run id), by decide⟩,
   ⟨0, (fr 0 3 5 [] : Frame), (run fun d => (fun d => d) (mq (fun q => q) (sem 0 0xC0000000 0xC0000000 d))),
     by decide⟩,
   ⟨0, (fr 0 3 5 [] : Frame), (run id), by decide⟩,
   ⟨0, (fr 0 3 5 [] : Frame), (run fun d => (fun d => d) (mq (fun q => q) (sem 0 0xC0000000 0xC0000000 d))),
     by decide⟩,
   ⟨0, (fr 0 3 5 [] : Frame), (run id), by decide⟩,
   ⟨0, (fr 0 3 5 [] : Frame), (run fun d => (fun d => d) (mq (fun q => q) (sem 0 0xC0000000 0xC0000000 d))),
     by decide⟩⟩

theorem meets_SeamFrames_3 :
    (∃ (a : Fin 2), ∃ (f : Frame), ∃ (s : State), s.dev.portWorks ↑a = false ∨ f.typ ≠ 11 ∧ 1 ≤ f.typ ∧ f.typ ≤ 11) ∧
    (∃ (a : Fin 2), ∃ (f : Frame), ∃ (s : State), s.dev.portWorks ↑a = true ∧ (f.typ = 0 ∨ 11 < f.typ ∨ f.typ = 11 ∧
      f.crcOk = false)) ∧
    (∃ (a : Fin 2), ∃ (f : Frame), f.crcOk = true ∧ ∃ (s : State), s.dev.portWorks ↑a = true ∧ f.typ = 9 ∧
      s.dev.keeper = false) ∧
    (∃ (a : Fin 2), ∃ (f : Frame), f.crcOk = true ∧ ∃ (s : State), s.dev.portWorks ↑a = true ∧ f.typ = 9 ∧
      s.dev.keeper = true) ∧
    (∃ (a : Fin 2), ∃ (f : Frame), f.crcOk = true ∧ ∃ (s : State), s.dev.portWorks ↑a = true ∧ f.typ = 10) ∧
    (∃ (a : Fin 2), ∃ (f : Frame), f.crcOk = true ∧ ∃ (s : State), s.dev.portWorks ↑a = true ∧ f.typ = 11) ∧
    (∃ (a : Fin 2), ∃ (f : Frame), f.crcOk = true ∧ ∃ (s : State), s.dev.portWorks ↑a = true ∧ f.typ = 7 ∧
      ¬(s.dev.member = true ∧ dget f.pay 8 2 ≠ 1023 ∧ dget f.pay 8 2 < s.dev.fld SEM_STAT SEM_STAT_keeper_node)) ∧
    (∃ (a : Fin 2), ∃ (f : Frame), f.crcOk = true ∧ ∃ (s : State), s.dev.portWorks ↑a = true ∧ f.typ = 7 ∧
      ¬¬(s.dev.member = true ∧ dget f.pay 8 2 ≠ 1023 ∧ dget f.pay 8 2 < s.dev.fld SEM_STAT SEM_STAT_keeper_node)) ∧
    (∃ (a : Fin 2), ∃ (f : Frame), f.crcOk = true ∧ ∃ (s : State), s.dev.portWorks ↑a = true ∧ ∃ (t0 : Nat),
      mget none s.dev.sem.probe ↑a = some t0 ∧ f.typ = 8 ∧ ¬(s.dev.member = true ∧ dget f.pay 8 2 ≠ 1023 ∧
      dget f.pay 8 2 < s.dev.fld SEM_STAT SEM_STAT_keeper_node)) ∧
    (∃ (a : Fin 2), ∃ (f : Frame), f.crcOk = true ∧ ∃ (s : State), s.dev.portWorks ↑a = true ∧ f.typ = 3 ∧
      s.dev.semEn = true ∧ s.dev.member = true ∧ (f.dst = s.dev.semNode ∨ f.dst = 1023) ∧ f.src ≠ s.dev.semNode ∧
      s.dev.sem.seen.contains (f.src, dget f.pay 0 1 % 8, dget f.pay 4 8) = false) :=
  ⟨⟨0, (fr 0 3 5 [] : Frame), (run id), by decide⟩,
   ⟨0, (fr 0 3 5 [] : Frame), (run fun d => (fun d => d) (mq (fun q => q) (sem 0 0xC0000000 0xC0000000 d))),
     by decide⟩,
   ⟨0, (fr 9 3 5 (leBytes 2 7) : Frame), by decide,
     (run fun d => (fun d => d) (mq (fun q => q) (sem 0 0xC0000000 0xC0000000 d))), by decide⟩,
   ⟨0, (fr 9 3 5 (leBytes 2 7) : Frame), by decide,
     (run fun d => (fun d => d) (mq (fun q => q) (sem 0xF0050000 0xC0000000 0xC0000000 d))), by decide⟩,
   ⟨0, (fr 10 3 5 [] : Frame), by decide,
     (run fun d => (fun d => d) (mq (fun q => q) (sem 0 0xC0000000 0xC0000000 d))), by decide⟩,
   ⟨0, (fr 11 3 0x3FF [] : Frame), by decide,
     (run fun d => (fun d => d) (mq (fun q => q) (sem 0 0xC0000000 0xC0000000 d))), by decide⟩,
   ⟨0, (fr 7 3 0x3FF (leBytes 8 100 ++ leBytes 2 0x3FF) : Frame), by decide,
     (run fun d => (fun d => d) (mq (fun q => q) (sem 0 0xC0000000 0xC0000000 d))), by decide⟩,
   ⟨0, (fr 7 3 0x3FF (leBytes 8 100 ++ leBytes 2 1) : Frame), by decide,
     (run fun d => (fun d => d) (mq (fun q => q) (sem 0x80030000 0xC0000000 0xC0000000 d))), by decide⟩,
   ⟨0, (fr 8 3 5 (leBytes 8 100 ++ leBytes 2 0x3FF) : Frame), by decide,
     (run fun d => (fun d => d) (mq (fun q => { q with probe := ⟨[(0, some 10), (1, some 300)]⟩, trips := ⟨[(0, List.replicate 16 250)]⟩ }) (sem 0 0xC0000000 0xC0000000 d))),
     by decide, _, rfl, by decide⟩,
   ⟨0, (fr 3 3 5 (leBytes 4 2 ++ leBytes 8 1000) : Frame), by decide,
     (run fun d => (fun d => d) (mq (fun q => q) (sem 0x80030000 0xC0000000 0xC0000000 d))), by decide⟩⟩

theorem meets_SeamFrames_4 :
    (∃ (a : Fin 2), ∃ (f : Frame), f.crcOk = true ∧ ∃ (s : State), s.dev.portWorks ↑a = true ∧ f.typ = 3 ∧
      s.dev.semEn = true ∧ s.dev.member = true ∧ (f.dst = s.dev.semNode ∨ f.dst = 1023) ∧ f.src ≠ s.dev.semNode ∧
      s.dev.sem.seen.contains (f.src, dget f.pay 0 1 % 8, dget f.pay 4 8) = true) ∧
    (∃ (a : Fin 2), ∃ (f : Frame), f.crcOk = true ∧ ∃ (s : State), s.dev.portWorks ↑a = true ∧ f.typ = 4 ∧
      s.dev.semEn = true ∧ f.dst = s.dev.semNode ∧ mget none s.dev.sem.lastId f.src ≠ some (dget f.pay 0 2) ∧
      mget none s.dev.sem.rx f.src = none ∧ ∃ (i : Nat),
      List.find? (fun (i : Nat) => !(s.dev.fld SEM_MBX_STAT SEM_MBX_STAT_full).testBit i) (List.range 8) = some i ∧
      1 ≤ dget f.pay 4 2 ∧ dget f.pay 4 2 ≤ 256 ∧ dget f.pay 2 2 = 0 ∧ f.pay.length = 8 + dget f.pay 4 2 ∧
      2147483648 ≤ BitVec.toNat (s.dev.rd SEM_MBX_BASE) / 8192 * 8192 ∧ s.dev.ddrUp = true ∧ ∀ (x : Nat),
      BitVec.toNat (s.dev.rd SEM_MBX_BASE) / 8192 * 8192 + i * 1024 ≤ x → x < BitVec.toNat (s.dev.rd SEM_MBX_BASE) / 8192 * 8192 + (i + 1) * 1024 → s.mem.errAt x = 0) ∧
    (∃ (a : Fin 2), ∃ (f : Frame), f.crcOk = true ∧ ∃ (s : State), s.dev.portWorks ↑a = true ∧ f.typ = 4 ∧
      s.dev.semEn = true ∧ f.dst = s.dev.semNode ∧ mget none s.dev.sem.lastId f.src ≠ some (dget f.pay 0 2) ∧
      mget none s.dev.sem.rx f.src = none ∧ 1 ≤ dget f.pay 4 2 ∧ dget f.pay 4 2 ≤ 256 ∧ dget f.pay 2 2 = 0 ∧
      s.dev.fld SEM_MBX_STAT SEM_MBX_STAT_full = 255) ∧
    (∃ (a : Fin 2), ∃ (f : Frame), f.crcOk = true ∧ ∃ (s : State), s.dev.portWorks ↑a = true ∧ f.typ = 4 ∧
      s.dev.semEn = true ∧ f.dst = s.dev.semNode ∧ mget none s.dev.sem.lastId f.src ≠ some (dget f.pay 0 2) ∧
      mget none s.dev.sem.rx f.src = none ∧ 256 < dget f.pay 4 2) ∧
    (∃ (a : Fin 2), ∃ (f : Frame), f.crcOk = true ∧ ∃ (s : State), s.dev.portWorks ↑a = true ∧ ∃ (q : SemMsg),
      q ∈ s.dev.sem.msgs ∧ f.typ = 5 ∧ f.dst = s.dev.semNode ∧ q.dest = f.src ∧ q.id = dget f.pay 0 2 ∧
      q.sent = true ∧ dget f.pay 2 1 = 0) ∧
    (∃ (a : Fin 2), ∃ (f : Frame), f.crcOk = true ∧ ∃ (s : State), s.dev.portWorks ↑a = true ∧ ∃ (q : SemMsg),
      q ∈ s.dev.sem.msgs ∧ f.typ = 5 ∧ f.dst = s.dev.semNode ∧ q.dest = f.src ∧ q.id = dget f.pay 0 2 ∧
      q.sent = true ∧ dget f.pay 2 1 ≠ 0) ∧
    (∃ (a : Fin 2), ∃ (f : Frame), f.crcOk = true ∧ ∃ (s : State), s.dev.portWorks ↑a = true ∧ f.typ = 6 ∧
      s.dev.keeper = false ∧ (s.dev.member = true ∨ s.dev.sem.joinSent = false)) ∧
    (∃ (a : Fin 2), ∃ (f : Frame), f.crcOk = true ∧ ∃ (s : State), s.dev.portWorks ↑a = true ∧ f.typ = 6 ∧
      s.dev.keeper = false ∧ s.dev.member = false ∧ s.dev.sem.joinSent = true ∧
      s.dev.inLayout s.dev.semNode = true) ∧
    (∃ (a : Fin 2), ∃ (f : Frame), f.crcOk = true ∧ ∃ (s : State), s.dev.portWorks ↑a = true ∧ f.typ = 2 ∧
      s.dev.keeper = false ∧ s.dev.time.mode ≠ 2) ∧
    (∃ (a : Fin 2), ∃ (f : Frame), f.crcOk = true ∧ ∃ (s : State), s.dev.portWorks ↑a = true ∧ f.typ = 1 ∧
      s.dev.keeper = false ∧ s.dev.member = true ∧ s.dev.semEn = true ∧ f.pass = false ∧
      s.dev.portWorks (1 - ↑a) = true ∧
      ((paySections f.pay).any fun (x : Section) => x.fst == s.dev.semNode) = true ∧
      2147483648 ≤ BitVec.toNat (s.dev.rd SEM_TX_BASE) / 512 * 512 + s.dev.fld SEM_SECT SEM_SECT_sel * 256 ∧
      BitVec.toNat (s.dev.rd SEM_TX_BASE) / 512 * 512 + s.dev.fld SEM_SECT SEM_SECT_sel * 256 < 4026531840 ∧
      s.dev.ddrUp = true ∧ (∀ (x : Nat),
      BitVec.toNat (s.dev.rd SEM_TX_BASE) / 512 * 512 + s.dev.fld SEM_SECT SEM_SECT_sel * 256 ≤ x → x < BitVec.toNat (s.dev.rd SEM_TX_BASE) / 512 * 512 + s.dev.fld SEM_SECT SEM_SECT_sel * 256 + 512 → s.mem.errAt x = 0) ∧
      ∃ (len : Nat),
      List.find? (fun (e : Nat × Nat) => e.fst == s.dev.semNode) s.dev.sem.layout = some (s.dev.semNode, len) ∧
      len < 512) :=
  ⟨⟨0, (fr 3 3 5 (leBytes 4 2 ++ leBytes 8 1000) : Frame), by decide,
     (run fun d => (fun d => d) (mq (fun q => { q with seen := [(3, 2, 1000), (3, 2, 10)] }) (sem 0x80030000 0xC0000000 0xC0000000 d))),
     by decide⟩,
   ⟨0, (fr 4 3 5 (mboxPay 9 0 4 4)), by decide, (run fun d => mq (fun q => q) (sem 0 0xC0000000 0xC0000000 d)),
     by decide, by decide, by decide, by decide, by decide, by decide, _, rfl, by decide, by decide, by decide,
     by decide, by decide, by decide, fun _ _ _ => rfl⟩,
   ⟨0, (fr 4 3 5 (mboxPay 9 0 4 4) : Frame), by decide,
     (run fun d => (fun d => d.wr SEM_MBX_STAT 0xFF) (mq (fun q => q) (sem 0 0xC0000000 0xC0000000 d))),
     by decide⟩,
   ⟨0, (fr 4 3 5 (mboxPay 9 0 300 256) : Frame), by decide,
     (run fun d => (fun d => d) (mq (fun q => q) (sem 0 0xC0000000 0xC0000000 d))), by decide⟩,
   ⟨0, (fr 5 3 5 (leBytes 2 9 ++ [0, 0])), by decide,
     (run fun d => mq (fun q => { q with msgs := [msg 3 9 1 true false, msg 3 10 0 false false] }) (sem 0 0xC0000000 0xC0000000 d)),
     by decide, msg 3 9 1 true false, by decide⟩,
   ⟨0, (fr 5 3 5 (leBytes 2 9 ++ [1, 0])), by decide,
     (run fun d => mq (fun q => { q with msgs := [msg 3 9 1 true false, msg 3 10 0 false false] }) (sem 0 0xC0000000 0xC0000000 d)),
     by decide, msg 3 9 1 true false, by decide⟩,
   ⟨0, (fr 6 3 0x3FF (leBytes 4 4 ++ leBytes 4 512 ++ leBytes 2 2 ++ [0,
     0] ++ leBytes 4 0x70005 ++ leBytes 4 0x10003) : Frame), by decide,
     (run fun d => (fun d => d) (mq (fun q => q) (sem 0 0xC0000000 0xC0000000 d))), by decide⟩,
   ⟨0, (fr 6 3 0x3FF (leBytes 4 4 ++ leBytes 4 512 ++ leBytes 2 2 ++ [0,
     0] ++ leBytes 4 0x70005 ++ leBytes 4 0x10003) : Frame), by decide,
     (run fun d => (fun d => d) (mq (fun q => { q with layout := [(5, 7)], joinSent := true }) (sem 0 0xC0000000 0xC0000000 d))),
     by decide⟩,
   ⟨0, (fr 2 3 0x3FF (leBytes 8 1000000 ++ [5, 0, 0, 0] ++ leBytes 4 77) : Frame), by decide,
     (run fun d => (fun d => d) (mq (fun q => q) (sem 0 0xC0000000 0xC0000000 d))), by decide⟩,
   ⟨0, (fr 1 3 0x3FF (cyclicPay 6 2 [(3, true, [1, 2]), (5, false, [0, 0, 0, 0, 0, 0, 0])])), by decide,
     (run fun d => mq (fun q => { q with layout := [(3, 2), (5, 7)] }) (sem 0x80030000 0xC0000000 0xC0000000 d)),
     by decide, by decide, by decide, by decide, by decide, by decide, by decide, by decide, by decide, by decide,
     by decide, fun _ _ _ => rfl, 7, by decide⟩⟩

theorem meets_SeamFrames_5 :
    (∃ (a : Fin 2), ∃ (f : Frame), f.crcOk = true ∧ ∃ (s : State), s.dev.portWorks ↑a = true ∧ f.typ = 1 ∧
      s.dev.keeper = false ∧ s.dev.member = true ∧ f.pass = true ∧
      2147483648 ≤ BitVec.toNat (s.dev.rd SEM_RX_BASE) / 524288 * 524288 + dget f.pay 0 4 % 2 * 262144 ∧
      s.dev.ddrUp = true) ∧
    (∃ (s : State), s.dev.keeper = false ∨ s.dev.sem.cycDue = false) ∧
    (∃ (s : State), s.dev.keeper = true ∧ s.dev.sem.cycDue = true ∧ (s.dev.portWorks 0 = true ∨
      s.dev.portWorks 1 = true) ∧ ((s.dev.semCycle + 1) % s.dev.epochLen ≠ 0 ∨ s.dev.member = false)) ∧
    (∃ (s : State), s.dev.keeper = true ∧ s.dev.sem.cycDue = true ∧ (s.dev.portWorks 0 = true ∨
      s.dev.portWorks 1 = true) ∧ (s.dev.semCycle + 1) % s.dev.epochLen = 0 ∧ s.dev.member = true) ∧
    (∃ (s : State), s.dev.sem.next = none ∨ s.dev.epochDue = false) ∧
    (∃ (s : State), ∃ (l : List (Nat × Nat)), s.dev.sem.next = some l ∧ s.dev.epochDue = true ∧
      ((l.any fun (x : Nat × Nat) => x.fst == s.dev.semNode) = true ∨ s.dev.member = false)) ∧
    (∃ (s : State), ∃ (l : List (Nat × Nat)), s.dev.sem.next = some l ∧ s.dev.epochDue = true ∧
      (l.any fun (x : Nat × Nat) => x.fst == s.dev.semNode) = true ∧ (s.dev.sem.joinSent = true ∨
      s.dev.keeper = true)) ∧
    (∃ (s : State), ∃ (l : List (Nat × Nat)), s.dev.sem.next = some l ∧ s.dev.epochDue = true ∧
      (l.any fun (x : Nat × Nat) => x.fst == s.dev.semNode) = false ∧ s.dev.member = true) :=
  ⟨⟨0,
     ({ fr 1 3 0x3FF (cyclicPay 6 2 [(3, true, [1, 2]), (5, false, [0, 0, 0, 0, 0, 0, 0])]) with pass := true } : Frame),
     by decide, (run fun d => (fun d => d) (mq (fun q => q) (sem 0x80030000 0xC0000000 0xC0000000 d))), by decide⟩,
   ⟨(run id), by decide⟩,
   ⟨(run fun d => (fun d => d) (mq (fun q => { q with cycDue := true }) (sem 0xF0050000 0xC0000000 0xC0000000 d))),
     by decide⟩,
   ⟨(run fun d => (fun d => d.setF SEM_CYC SEM_CYC_epoch_len 1) (mq (fun q => { q with cycDue := true }) (sem 0xF0050000 0xC0000000 0xC0000000 d))),
     by decide⟩,
   ⟨(run id), by decide⟩,
   ⟨(run fun d => (fun d => d) (mq (fun q => { q with next := some [(3, 7)], nextEpoch := 9, nextCycle := 0, layout := [(5, 7), (6, 3)], msgs := [msg 6 9 1 true false] }) (sem 0 0xC0000000 0xC0000000 d))),
     _, rfl, by decide⟩,
   ⟨(run fun d => (fun d => d) (mq (fun q => { q with next := some [(5, 7), (6, 1)], nextEpoch := 9, nextCycle := 0, joinSent := true, joining := true }) (sem 0 0xC0000000 0xC0000000 d))),
     _, rfl, by decide⟩,
   ⟨(run fun d => (fun d => d) (mq (fun q => { q with next := some [(3, 7)], nextEpoch := 9, nextCycle := 0, layout := [(5, 7), (6, 3)], msgs := [msg 6 9 1 true false] }) (sem 0x80030000 0xC0000000 0xC0000000 d))),
     _, rfl, by decide⟩⟩

theorem meets_SeamFormation_1 :
    (∃ (c : Fin 4), ∃ (k : Fin 8), ∃ (s : State), ∀ (x : Due), x ∈ s.dev.due → ∀ (u : Nat) (l : Option Nat),
      x = Due.seamEvent (↑c) (↑k) u l → s.dev.seamNow (↑c) u l = false) ∧
    (∃ (c : Fin 4), ∃ (k : Fin 8), ∃ (s : State), ∃ (u : Nat), ∃ (l : Option Nat),
      Due.seamEvent (↑c) (↑k) u l ∈ s.dev.due ∧ s.dev.seamNow (↑c) u l = true ∧ s.dev.clusterRuns ↑c = true) ∧
    (∃ (c : Fin 4), ∃ (k : Fin 8), ∃ (s : State), ∃ (u : Nat), ∃ (l : Option Nat),
      Due.seamEvent (↑c) (↑k) u l ∈ s.dev.due ∧ s.dev.seamNow (↑c) u l = true ∧ s.dev.clusterRuns ↑c = false) ∧
    (∃ (n : Fin 1024), ∃ (s : State),
      List.find? (fun (q : SemMsg) => q.dest == ↑n && q.sent && (q.again && decide (1 ≤ q.age) || decide (4 ≤ q.age))) s.dev.sem.msgs = none) ∧
    (∃ (n : Fin 1024), ∃ (s : State), ∃ (q : SemMsg),
      List.find? (fun (q : SemMsg) => q.dest == ↑n && q.sent && (q.again && decide (1 ≤ q.age) || decide (4 ≤ q.age))) s.dev.sem.msgs = some q) ∧
    (∃ (a : Fin 2), ∃ (s : State), s.dev.portWorks ↑a = false ∨ s.dev.probeDue ↑a = false) ∧
    (∃ (a : Fin 2), ∃ (s : State), s.dev.portWorks ↑a = true ∧ s.dev.probeDue ↑a = true) ∧
    (∃ (s : State), ¬(s.dev.keeper = false ∧ s.dev.member = false ∧ s.dev.semEn = true ∧
      s.dev.flag SEM_CTL SEM_CTL_keeper_cap = true ∧ s.dev.sem.heardAt + 4 * s.dev.semTc ≤ s.dev.now ∧
      ¬(s.dev.sem.claiming = true ∧ s.dev.sem.claimCyc = some s.dev.semCycle))) ∧
    (∃ (s : State), s.dev.keeper = false ∧ s.dev.member = false ∧ s.dev.semEn = true ∧
      s.dev.flag SEM_CTL SEM_CTL_keeper_cap = true ∧ s.dev.sem.heardAt + 4 * s.dev.semTc ≤ s.dev.now ∧
      ¬(s.dev.sem.claiming = true ∧ s.dev.sem.claimCyc = some s.dev.semCycle)) ∧
    (∃ (s : State), ¬(s.dev.keeper = false ∧ s.dev.sem.claiming = true ∧ 4 ≤ s.dev.sem.claimRun ∧
      s.dev.sem.claimCyc ≠ some s.dev.semCycle ∧ s.dev.semEn = true)) :=
  ⟨⟨0, 2, State.reset, fun x h => by cases (h : x ∈ [])⟩,
   ⟨0, 2, (run fun d => { (d) with due := [.seamEvent 0 2 0 none] }), 0, none, by decide⟩,
   ⟨0, 2,
     (run fun d => { ((d.modCluster 0 fun c => { c with halted := true }).wr GLB_CLK_STAT 0xFFFFFFFF) with due := [.seamEvent 0 2 0 none] }),
     0, none, by decide⟩,
   ⟨3, (run id), by decide⟩,
   ⟨3,
     (run fun d => (fun d => d) (mq (fun q => { q with msgs := [msg 3 9 4 true false] }) (sem 0 0xC0000000 0xC0000000 d))),
     _, rfl⟩,
   ⟨0, (run id), by decide⟩,
   ⟨0, (run fun d => (fun d => d) (mq (fun q => q) (sem 0 0xC0000000 0xC0000000 d))), by decide⟩,
   ⟨(run id), by decide⟩,
   ⟨(run fun d => (fun d => { evOn d with now := 400000, time := { d.time with master := 1600000 } }) (mq (fun q => q) (sem 0 0xC0000000 0xC0000000 d))),
     by decide⟩,
   ⟨(run id), by decide⟩⟩

theorem meets_SeamFormation_2 :
    (∃ (s : State), s.dev.keeper = false ∧ s.dev.sem.claiming = true ∧ 4 ≤ s.dev.sem.claimRun ∧
      s.dev.sem.claimCyc ≠ some s.dev.semCycle ∧ s.dev.semEn = true) ∧
    (∃ (s : State), s.dev.keeper = true ∨ s.dev.member = false ∨ ¬s.dev.sem.heardAt + 4 * s.dev.semTc ≤ s.dev.now) ∧
    (∃ (s : State), s.dev.keeper = false ∧ s.dev.member = true ∧ s.dev.sem.heardAt + 4 * s.dev.semTc ≤ s.dev.now) ∧
    (∃ (n : Fin 2), ∃ (s : State), ∃ (crc : Bool), s.dev.flag (SEM_PORT_STAT ↑n) SEM_PORT_STAT_up = false ∨
      crc = true ∧ mget 0 s.dev.sem.crcRun ↑n < s.dev.fld SEM_KEEP SEM_KEEP_crc_lim) ∧
    (∃ (n : Fin 2), ∃ (s : State), s.dev.flag (SEM_PORT_STAT ↑n) SEM_PORT_STAT_up = true ∧ ∃ (crc : Bool),
      crc = true → s.dev.fld SEM_KEEP SEM_KEEP_crc_lim ≤ mget 0 s.dev.sem.crcRun ↑n) ∧
    (∃ (n : Fin 2), ∃ (s : State), s.dev.flag (SEM_PORT_STAT ↑n) SEM_PORT_STAT_up = true) ∧
    (∃ (n : Fin 2), ∃ (s : State), s.dev.flag (SEM_PORT_STAT ↑n) SEM_PORT_STAT_up = false) ∧
    (∃ (w : Writer), ∃ (v : Word), ∃ (s : State), s.dev.accepts w SEM_CTL = true ∧ s.dev.sound SEM_CTL v ∧
      s.dev.semNode < 1000 ∧ s.dev.semEn = false) ∧
    (∃ (w : Writer), ∃ (v : Word), ∃ (s : State), s.dev.accepts w SEM_CTL = true ∧ s.dev.sound SEM_CTL v ∧
      s.dev.semNode < 1000 ∧ s.dev.semEn = true ∧ fget SEM_CTL_en v = 1) ∧
    (∃ (w : Writer), ∃ (v : Word), ∃ (s : State), s.dev.accepts w SEM_CTL = true ∧ s.dev.sound SEM_CTL v ∧
      s.dev.semNode < 1000 ∧ s.dev.semEn = true ∧ fget SEM_CTL_en v = 0) :=
  ⟨⟨(run fun d => (fun d => d) (mq (fun q => { q with claiming := true, claimRun := 4, claimCyc := some 3 }) (sem 0 0xC0000000 0xC0000000 d))),
     by decide⟩,
   ⟨(run id), by decide⟩,
   ⟨(run fun d => (fun d => { evOn d with now := 400000, time := { d.time with master := 1600000 } }) (mq (fun q => q) (sem 0x80030000 0xC0000000 0xC0000000 d))),
     by decide⟩,
   ⟨0, (run id), true, by decide⟩,
   ⟨0, (run fun d => (fun d => d) (mq (fun q => q) (sem 0 0xC0000000 0xC0000000 d))), by decide, false, by decide⟩,
   ⟨0, (run fun d => (fun d => d) (mq (fun q => q) (sem 0 0xC0000000 0xC0000000 d))), by decide⟩,
   ⟨0, (run id), by decide⟩,
   ⟨.dap, 0, (run id), by decide, sound_of (by decide), by decide⟩,
   ⟨.dap, 0x80000005, (run fun d => (fun d => d) (mq (fun q => q) (sem 0 0xC0000000 0xC0000000 d))), by decide,
     sound_of (by decide), by decide⟩,
   ⟨.dap, 0, (run fun d => (fun d => d) (mq (fun q => q) (sem 0 0xC0000000 0xC0000000 d))), by decide,
     sound_of (by decide), by decide⟩⟩

theorem meets_TapAndDebugger_1 :
    (∃ (si : Nat), ∃ (s : State), s.dev.scanOk = true) ∧
    (∃ (si : Nat), ∃ (s : State), s.dev.scanOk = false) ∧
    (∃ (ir : Fin 64), ∃ (s : State), ↑ir ∈ [0, 1, 2, 16, 17, 18, 19]) ∧
    (∃ (ir : Fin 64), ∃ (s : State), ¬↑ir ∈ [0, 1, 2, 16, 17, 18, 19]) ∧
    (∃ (s : State), ∃ (c : List Byte), s.dev.hlm.tapChal = some c ∧ ¬s.dev.hlm.tapChalAt + 8000000000 ≤ s.dev.now) ∧
    (∃ (s : State), s.dev.hlm.tapChal = none ∨ s.dev.hlm.tapChalAt + 8000000000 ≤ s.dev.now) ∧
    (∃ (sig : List Byte), ∃ (level : Fin 256), ∃ (s : State), s.dev.flag DBG_STAT DBG_STAT_resp_busy = true) ∧
    (∃ (sig : List Byte), ∃ (level : Fin 256), ∃ (s : State), s.dev.flag DBG_STAT DBG_STAT_resp_busy = false ∧
      sig.length = 96) ∧
    (∃ (sig : List Byte), ∃ (level : Fin 256), ∃ (s : State), s.dev.tap.resp = none) ∧
    (∃ (sig : List Byte), ∃ (level : Fin 256), ∃ (s : State), ∃ (lvl : Nat), s.dev.tap.resp = some (sig, lvl) ∧
      (lvl = 1 ∨ lvl = 2) ∧ ((s.dev.lifecycle = 0 ∨ s.dev.lifecycle = 4) ∨ s.dev.ownerKey = true ∧
      s.dev.now < s.dev.hlm.tapChalAt + 8000000000 ∧ ∃ (c : List Byte), s.dev.hlm.tapChal = some c ∧
      Config.ecdsaOk keyOwner (c ++ [BitVec.ofNat 8 lvl]) sig = true)) :=
  ⟨⟨0, (run id), by decide⟩,
   ⟨0, (run fun d => (fun d => d) (lc 2 0 d)), by decide⟩,
   ⟨0, (run id), by decide⟩,
   ⟨0x3F, (run id), by decide⟩,
   ⟨(run fun d => (fun d => { d.modHlm fun h => { h with tapChal := some (List.replicate 32 3), tapChalAt := 7 } with now := 8000000006 }) (lc 0 0 d)),
     _, rfl, by decide⟩,
   ⟨(run id), by decide⟩,
   ⟨([] : List Byte), 0,
     (run fun d => (fun d => (tapS (fun t => { t with resp := some (List.replicate 96 1, 2), resData := 77, resTag := 3, resStat := 2 }) d).setB DBG_STAT DBG_STAT_resp_busy true) (lc 0 0 d)),
     by decide⟩,
   ⟨(List.replicate 96 1 : List Byte), 0, (run id), by decide⟩,
   ⟨([] : List Byte), 0, (run id), by decide⟩,
   ⟨(List.replicate 96 1 : List Byte), 0,
     (run fun d => (fun d => ((tapS (fun t => { t with resp := some (List.replicate 96 1, 1) }) d).setB DBG_STAT DBG_STAT_resp_busy true).modHlm fun h => { h with tapChal := some (List.replicate 32 3), otp := ⟨[(0x090, 5)]⟩ }) (lc 0 0 d)),
     1, by decide⟩⟩

theorem meets_TapAndDebugger_2 :
    (∃ (sig : List Byte), ∃ (level : Fin 256), ∃ (s : State), ∃ (lvl : Nat), s.dev.tap.resp = some (sig, lvl) ∧
      ¬((lvl = 1 ∨ lvl = 2) ∧ ((s.dev.lifecycle = 0 ∨ s.dev.lifecycle = 4) ∨ s.dev.ownerKey = true ∧
      s.dev.now < s.dev.hlm.tapChalAt + 8000000000 ∧ ∃ (c : List Byte), s.dev.hlm.tapChal = some c ∧
      Config.ecdsaOk keyOwner (c ++ [BitVec.ofNat 8 lvl]) sig = true))) ∧
    (∃ (v : Word), ∃ (s : State), s.dev.tapFull = false) ∧
    (∃ (v : Word), ∃ (s : State), s.dev.tapFull = true) ∧
    (∃ (addr : Word), ∃ (v : Word), ∃ (tag : Option (Fin 16)), ∃ (s : State), s.dev.tap.acc.isSome = true) ∧
    (∃ (addr : Word), ∃ (v : Word), ∃ (tag : Option (Fin 16)), ∃ (s : State), s.dev.tap.acc = none ∧
      s.dev.dbgLevel = 0) ∧
    (∃ (addr : Word), ∃ (v : Word), ∃ (tag : Option (Fin 16)), ∃ (s : State), s.dev.tap.acc = none ∧
      s.dev.dbgLevel = 1) ∧
    (∃ (addr : Word), ∃ (v : Word), ∃ (tag : Option (Fin 16)), ∃ (s : State), s.dev.tap.acc = none ∧
      1 ≤ s.dev.dbgLevel) ∧
    (∃ (addr : Word), ∃ (v : Word), ∃ (tag : Option (Fin 16)), ∃ (s : State), s.dev.tap.acc = none ∧
      2 ≤ s.dev.dbgLevel) ∧
    (∃ (c : Fin 4), ∃ (s : State), s.dev.clusterRuns ↑c = false ∨ (s.dev.cluster ↑c).halting = false) ∧
    (∃ (c : Fin 4), ∃ (s : State), s.dev.clusterRuns ↑c = true ∧ (s.dev.cluster ↑c).halting = true ∧
      (s.dev.cluster ↑c).relPend = false) :=
  ⟨⟨[], 3, (run fun d => { d with tap := { d.tap with resp := some ([], 3) } }), 3, rfl,
     fun h => by revert h; exact fun h => absurd h.1 (by decide)⟩,
   ⟨0, (run id), by decide⟩,
   ⟨0, (run fun d => (fun d => d) (lc 0 2 d)), by decide⟩,
   ⟨0, 0, none,
     (run fun d => (fun d => tapS (fun t => { t with acc := some ⟨true, false, false, 0, 0, 0⟩, resData := 5, resTag := 6, resStat := 1 }) d) (lc 0 0 d)),
     by decide⟩,
   ⟨0, 0, none, (run id), by decide⟩,
   ⟨0, 0, none, (run fun d => (fun d => d) (lc 0 1 d)), by decide⟩,
   ⟨0, 0, none, (run fun d => (fun d => d) (lc 0 1 d)), by decide⟩,
   ⟨0, 0, none, (run fun d => (fun d => d) (lc 0 2 d)), by decide⟩,
   ⟨0, (run id), by decide⟩,
   ⟨1, (run fun d => (fun d => d.modCluster 1 fun c => { c with halting := true }) (lc 0 0 d)), by decide⟩⟩

theorem meets_TapAndDebugger_3 :
    (∃ (cs : Fin 16), ∃ (s : State), s.dev.tapFull = false) ∧
    (∃ (cs : Fin 16), ∃ (s : State), s.dev.tapFull = true) ∧
    (∃ (j : Fin 2), ∃ (js : Fin 4), ∃ (s : State), s.dev.tapFull = false) ∧
    (∃ (j : Fin 2), ∃ (js : Fin 4), ∃ (s : State), s.dev.tapFull = true) ∧
    (∃ (j : Fin 2), ∃ (js : Fin 4), ∃ (s : State), s.dev.tapFull = true ∧ s.dev.fld TCH_BOOT TCH_BOOT_stage ≠ 15) ∧
    (∃ (w : Writer), ∃ (v : Word), ∃ (s : State), w ≠ Writer.dap ∨ s.dev.tapFull = false) ∧
    (∃ (w : Writer), ∃ (v : Word), ∃ (s : State), s.dev.tapFull = true ∧ fget DBG_WDT_FREEZE_freeze v = 1) ∧
    (∃ (w : Writer), ∃ (v : Word), ∃ (s : State), s.dev.tapFull = true ∧ fget DBG_WDT_FREEZE_freeze v = 0 ∧
      s.dev.flag TCH_WDT_CFG TCH_WDT_CFG_frozen = true) :=
  ⟨⟨0, (run id), by decide⟩,
   ⟨0, (run fun d => (fun d => d) (lc 0 2 d)), by decide⟩,
   ⟨0, 0, (run id), by decide⟩,
   ⟨0, 0, (run fun d => (fun d => d) (lc 0 2 d)), by decide⟩,
   ⟨0, 0, (run fun d => (fun d => d) (lc 0 2 d)), by decide⟩,
   ⟨.dap, 0, (run id), by decide⟩,
   ⟨.dap, 0xFFFFFFFF, (run fun d => (fun d => d) (lc 0 2 d)), by decide⟩,
   ⟨.dap, 0, (run fun d => (fun d => d.wr TCH_WDT_CFG 0xFFFFFFFF) (lc 0 2 d)), by decide⟩⟩

theorem meets_EventCountersAndCaptures_1 :
    (∃ (e : Fin 96), ∃ (s : State), s.dev.evcRuns ↑e = true ∧ ¬Due.evcThr (↑e) false ∈ s.dev.due ∧
      ¬Due.evcThr (↑e) true ∈ s.dev.due) ∧
    (∃ (e : Fin 96), ∃ (s : State), s.dev.evcRuns ↑e = true ∧ (Due.evcThr (↑e) false ∈ s.dev.due ∨
      Due.evcThr (↑e) true ∈ s.dev.due)) ∧
    (∃ (e : Fin 96), ∃ (s : State), s.dev.evcRuns ↑e = true ∧ mget 0 s.dev.evcAt ↑e = s.dev.now + 1) ∧
    (∃ (e : Fin 96), ∃ (s : State), s.dev.evcRuns ↑e = true ∧ s.dev.flag (EVC_CFG ↑e) EVC_CFG_en = true ∧
      s.dev.wide64 (EVC_CNT_LO ↑e) = 2 ^ 48 - 1 ∧ mget 0 s.dev.evcAt ↑e ≠ s.dev.now + 1) ∧
    (∃ (e : Fin 96), ∃ (s : State), s.dev.evcRuns ↑e = true ∧ (s.dev.flag (EVC_CFG ↑e) EVC_CFG_en = false ∨
      s.dev.wide64 (EVC_CNT_LO ↑e) ≠ 2 ^ 48 - 1)) ∧
    (∃ (e : Fin 96), ∃ (s : State), s.dev.evcRuns ↑e = true ∧ ∃ (w : Writer), ∃ (v : Word), fget EVC_CFG_clr v = 1 ∧
      evcReserved (↑e) v = false) ∧
    (∃ (e : Fin 96), ∃ (s : State), s.dev.evcRuns ↑e = true ∧ ∃ (w : Writer), s.dev.accepts w (EVC_THR_HI ↑e) = true ∧
      ∃ (v : Word), True) ∧
    (∃ (e : Fin 96), ∃ (s : State), s.dev.evcRuns ↑e = true) ∧
    (∃ (w : Writer), ∃ (v : Word), v ≠ 0 ∧ ∃ (s : State), True) ∧
    (∃ (n : Fin 64), ∃ (s : State), s.dev.clusterRuns (↑n / 16) = false) :=
  ⟨⟨0, (run id), by decide⟩,
   ⟨0,
     (run fun d => evOn { regsD [(EVC_CFG 0, 0), (EVC_THR_HI 0, 0xFFFF)] (d.setWide (EVC_CNT_LO 0) (2 ^ 48 - 1)) with due := [.evcThr 0 false] }),
     by decide⟩,
   ⟨0, (run fun d => (fun d => { d with evcAt := ⟨[(0, 1)]⟩ }) (regsD [(EVC_CFG 0,
     0x84000000)] (d.setWide (EVC_CNT_LO 0) (2 ^ 48 - 1)))), by decide⟩,
   ⟨0,
     (run fun d => evOn { regsD [(EVC_CFG 0, 0x80000000), (EVC_THR_HI 0, 0xFFFF)] (d.setWide (EVC_CNT_LO 0) (2 ^ 48 - 1)) with due := [] }),
     by decide⟩,
   ⟨0, (run id), by decide⟩,
   ⟨0, (run id), by decide, (.core 16 0 : Writer), 0x00400130, by decide⟩,
   ⟨0, (run id), by decide, .dap, by decide, 0, by decide⟩,
   ⟨0, (run id), by decide⟩,
   ⟨(.core 16 0 : Writer), 0xFFFFFFFF, by decide, (run id), by decide⟩,
   ⟨0, (run fun d => (fun d => { d with evcClr := [0], clkHeld := true }) (regsD [(EVC_CFG 0,
     0x84000000)] (d.setWide (EVC_CNT_LO 0) (2 ^ 48 - 1)))), by decide⟩⟩

theorem meets_EventCountersAndCaptures_2 :
    (∃ (n : Fin 64), ∃ (s : State), s.dev.clusterRuns (↑n / 16) = true ∧
      s.dev.flag (EVC_CFG ↑n) EVC_CFG_snap_en = true) ∧
    (∃ (k : Fin 8), ∃ (s : State), ¬(s.dev.fldIf (DBG_CAP_STAT ↑k) DBG_CAP_STAT_running ≠ 0 ∧
      s.dev.clusterRuns (axCl (s.dev.cap ↑k).axis) = true ∧ (s.dev.axis (s.dev.cap ↑k).axis).smpRef ≠ 0 ∧
      (s.dev.cap ↑k).recd ≠ (s.dev.axis (s.dev.cap ↑k).axis).smpRef ∧
      (s.dev.cluster (axCl (s.dev.cap ↑k).axis)).ref = (s.dev.axis (s.dev.cap ↑k).axis).smpRef + 288) ∧
      ∃ (full : Bool), True) ∧
    (∃ (k : Fin 8), ∃ (s : State), s.dev.fldIf (DBG_CAP_STAT ↑k) DBG_CAP_STAT_running ≠ 0 ∧
      s.dev.clusterRuns (axCl (s.dev.cap ↑k).axis) = true ∧ (s.dev.axis (s.dev.cap ↑k).axis).smpRef ≠ 0 ∧
      (s.dev.cap ↑k).recd ≠ (s.dev.axis (s.dev.cap ↑k).axis).smpRef ∧
      (s.dev.cluster (axCl (s.dev.cap ↑k).axis)).ref = (s.dev.axis (s.dev.cap ↑k).axis).smpRef + 288) ∧
    (∃ (k : Fin 8), ∃ (s : State),
      (s.dev.capBytes (↑k) ((s.dev.copy (axCl (s.dev.cap ↑k).axis) + 2 ^ 64 - 288) % 2 ^ 64)).length = (s.dev.cap ↑k).recSize ∧
      (s.dev.fldIf (DBG_CAP_STAT ↑k) DBG_CAP_STAT_running ≠ 0 ∧
      s.dev.clusterRuns (axCl (s.dev.cap ↑k).axis) = true ∧ (s.dev.axis (s.dev.cap ↑k).axis).smpRef ≠ 0 ∧
      (s.dev.cap ↑k).recd ≠ (s.dev.axis (s.dev.cap ↑k).axis).smpRef ∧
      (s.dev.cluster (axCl (s.dev.cap ↑k).axis)).ref = (s.dev.axis (s.dev.cap ↑k).axis).smpRef + 288) ∧
      BitVec.toNat (s.dev.rd (DBG_CAP_WPTR ↑k)) + (s.dev.cap ↑k).recSize ≤ (s.dev.cap ↑k).size ∧
      2147483648 ≤ (s.dev.cap ↑k).base ∧ s.dev.ddrUp = true ∧ (∀ (x : Nat),
      ((s.dev.cap ↑k).base + BitVec.toNat (s.dev.rd (DBG_CAP_WPTR ↑k))) / 8 * 8 ≤ x → x < (s.dev.cap ↑k).base + BitVec.toNat (s.dev.rd (DBG_CAP_WPTR ↑k)) + (s.dev.cap ↑k).recSize → s.mem.errAt x = 0) ∧
      (s.dev.cap ↑k).base + (s.dev.cap ↑k).size ≤ 4026531840) ∧
    (∃ (k : Fin 8), ∃ (s : State), (s.dev.fldIf (DBG_CAP_STAT ↑k) DBG_CAP_STAT_running ≠ 0 ∧
      s.dev.clusterRuns (axCl (s.dev.cap ↑k).axis) = true ∧ (s.dev.axis (s.dev.cap ↑k).axis).smpRef ≠ 0 ∧
      (s.dev.cap ↑k).recd ≠ (s.dev.axis (s.dev.cap ↑k).axis).smpRef ∧
      (s.dev.cluster (axCl (s.dev.cap ↑k).axis)).ref = (s.dev.axis (s.dev.cap ↑k).axis).smpRef + 288) ∧
      (s.dev.cap ↑k).wrap = false ∧
      (s.dev.cap ↑k).size < BitVec.toNat (s.dev.rd (DBG_CAP_WPTR ↑k)) + (s.dev.cap ↑k).recSize) :=
  ⟨⟨0,
     (run fun d => evOn { regsD [(EVC_CFG 0, 0xFFFFFFFF), (EVC_THR_HI 0, 0xFFFF)] (d.setWide (EVC_CNT_LO 0) (2 ^ 48 - 1)) with due := [] }),
     by decide⟩,
   ⟨0, (run id), by decide, true, by decide⟩,
   ⟨0, (run fun d => (fun d => d) ((((regsD [(DBG_CAP_STAT 0, 0x80000000), (DBG_CAP_WPTR 0, 0), (MEM_STAT,
     0xFFFFFFFF)] d).modCap 0 fun c => { c with axis := 0, specs := [0, 0x1234], base := 0x80000000, size := 256, recSize := 32 }).modAxis 0 fun a => { a with smpRef := 1000 }).modCluster 0 fun c => { c with ref := 1288 })),
     by decide⟩,
   ⟨0, (run fun d => (((regsD [(DBG_CAP_STAT 0, 0x80000000), (DBG_CAP_WPTR 0, 0), (MEM_STAT,
     0xFFFFFFFF)] d).modCap 0 fun c => { c with axis := 0, specs := [0, 0x1234], base := 0x80000000, size := 256, recSize := 32 }).modAxis 0 fun a => { a with smpRef := 1000 }).modCluster 0 fun c => { c with ref := 1288 }),
     by decide, by decide, by decide, by decide, by decide, fun _ _ _ => rfl, by decide⟩,
   ⟨0, (run fun d => (fun d => d) ((((regsD [(DBG_CAP_STAT 0, 0x80000000), (DBG_CAP_WPTR 0, 256), (MEM_STAT,
     0xFFFFFFFF)] d).modCap 0 fun c => { c with axis := 0, specs := [0, 0x1234], base := 0x80000000, size := 256, recSize := 32 }).modAxis 0 fun a => { a with smpRef := 1000 }).modCluster 0 fun c => { c with ref := 1288 })),
     by decide⟩⟩

theorem meets_StepRunsTheFrontCommand :
    (∃ (c : Instr), ∃ (rest : List Instr), ∃ (s : State), s.pending = c :: rest) ∧
    (∃ (s : State), s.pending = []) :=
  ⟨⟨.syncInEdge, [], { State.reset with pending := [.syncInEdge] }, rfl⟩,
   ⟨State.reset, rfl⟩⟩

theorem meets_EveryStepKeepsMemoryCanonical :
    ∃ (s : State), s.mem.wf = true :=
  ⟨(run id), by decide⟩

theorem meets_ResetState :
    ∃ (c : Nat), c < 4 :=
  ⟨0, by decide⟩

theorem meets_PwmCombinationsAreDiscarded :
    (∃ (w : Writer), w ≠ Writer.dap ∧ ∃ (a : Fin 64), ∃ (addr : Word), BitVec.toNat addr = PWM_CFG ↑a ∧ ∃ (v : Word),
      ∃ (s : State), s.dev.regDead w (PWM_CFG ↑a) = false ∧ s.dev.accepts w (PWM_CFG ↑a) = true ∧
      (fget PWM_CFG_upd_div v = 3 ∨ fget PWM_CFG_dbl v = 1 ∧ (fget PWM_CFG_center v = 0 ∨
      fget PWM_CFG_upd_div v ≠ 0))) ∧
    (∃ (w : Writer), w ≠ Writer.dap ∧ ∃ (a : Fin 64), ∃ (addr : Word), BitVec.toNat addr = PWM_CFG ↑a ∧ ∃ (v : Word),
      ∃ (s : State), s.dev.regDead w (PWM_CFG ↑a) = false ∧ s.dev.accepts w (PWM_CFG ↑a) = true ∧
      ¬(fget PWM_CFG_upd_div v = 3 ∨ fget PWM_CFG_dbl v = 1 ∧ (fget PWM_CFG_center v = 0 ∨
      fget PWM_CFG_upd_div v ≠ 0)) ∧ s.dev.axSt ↑a = stRetired) :=
  ⟨⟨(.core 16 0 : Writer), by decide, 0, (w32 (PWM_CFG 0) : Word), by decide, 0xFFFFFFFF,
     (run fun d => unlockRegWrite (.core 16 0) (PWM_UNLOCK 0) 0xA5C3 d), by decide⟩,
   ⟨(.core 16 0 : Writer), by decide, 0, (w32 (PWM_CFG 0) : Word), by decide, (w32 (PWM_CFG 0) : Word),
     (run fun d => unlockRegWrite (.core 16 0) (PWM_UNLOCK 0) 0xA5C3 d), by decide⟩⟩

end Witnesses

end Sys2Proof.Tests
end

/-!
PROOFS. The write of PWM_CFG (R120): where a register write in a cluster's window goes, what a write that its block
discards leaves, and the two outcomes of the write of PWM_CFG.
-/
namespace Sys2Proof.Machine

/-! ## Discarded writes and closed windows (R12) -/

theorem closeAt_rd (w : Writer) (addr : Nat) (d : Dev) (a : Nat) : (closeAt w addr d).rd a = d.rd a := by
  unfold closeAt
  split
  · rfl
  · split <;> rfl

theorem closeAt_frame (l : List Nat) (w : Writer) (addr : Nat) (d : Dev) :
    ChangesOnly l Dev.noWindows d (closeAt w addr d) := by
  unfold closeAt
  split
  · exact .refl _ _ d
  · split
    · exact .parts rfl rfl rfl
    · exact .refl _ _ d

theorem discardWrite_rd (w : Writer) (addr : Nat) (d : Dev) (a : Nat) : (discardWrite w addr d).rd a = d.rd a := by
  unfold discardWrite
  split
  · split
    · rfl
    · exact closeWindow_rd _ _ _ d a
  · rfl

theorem discardWrite_frame (l : List Nat) (w : Writer) (addr : Nat) (d : Dev) :
    ChangesOnly l Dev.noWindows d (discardWrite w addr d) := by
  unfold discardWrite
  split
  · split
    · exact .refl _ _ d
    · exact closeWindow_frame l Dev.noWindows (fun _ => rfl) _ addr w d
  · exact .refl _ _ d

theorem Dev.accepts_when_setB (d : Dev) (w : Writer) (addr : Nat) (c : Bool) (a : Nat) (f : Fld) (b : Bool) :
    (when c (·.setB a f b) d).accepts w addr = d.accepts w addr := by
  cases c <;> rfl

/-! ## Where a register write in a cluster's window goes (R26, R27) -/

/-- A write to a register of a cluster, outside the windows of the PLN block and the unlock registers: its block takes it,
and the writer's window closes. -/
theorem regWrite_cluster {w : Writer} {addr : Nat} (v : Word) (imgs : List CoreImage) {x : MD} {k : RegClass}
    {ix : List Nat} (hlo : 0x02800000 ≤ addr) (hhi : addr < 0x02F00000) (hp : plnWindow addr = none)
    (hr : regAt addr = some (k, ix)) (hu : unlockOf k addr ≠ some addr) (hd : x.2.regDead w addr = false) :
    (regWrite w addr v imgs x).1 =
      ((regWriteBlock k ix w addr v imgs x).1, closeAt w addr (regWriteBlock k ix w addr v imgs x).2) := by
  have hhlm : ¬ addr < 0x02400000 := by omega
  have hbell : bellAt addr = none := if_neg (by omega)
  have hmsix : msixAt addr = none := by
    unfold msixAt; rw [if_neg (by omega), if_neg (by omega)]
  simp [regWrite, hd, hlmHidden, hhlm, hbell, hmsix, hp, hr, hu]

/-- The windows of the PLN block end at offset 0xC000 of its cluster (R71). -/
theorem plnWindow_beyond {addr : Nat} (h : 0xC000 ≤ (addr - 0x02800000) % 0x00200000) : plnWindow addr = none := by
  unfold plnWindow
  split
  · rfl
  · dsimp only
    rw [if_neg (by omega), if_neg (by omega)]

/-- The PWM block takes the writes of its registers. -/
theorem regWriteBlock_pwm {k : RegClass} (ix : List Nat) (w : Writer) {addr : Nat} (v : Word) (imgs : List CoreImage)
    (x : MD) (hlo : 0x02800000 ≤ addr) (hb : (addr - 0x02800000) % 0x00200000 / 0x10000 = 2)
    (hu : unlockOf k addr ≠ some addr) :
    regWriteBlock k ix w addr v imgs x = (x.1, pwmWrite k.name ix w addr v x.2) := by
  unfold regWriteBlock
  rw [if_neg fun h => hu h.2, if_neg (by omega), if_neg (by omega), if_neg (by omega), if_neg (by omega),
    if_neg (by omega), if_neg (by omega), if_neg (by omega), if_neg (by omega), if_neg (by omega), hb]
  rfl

/-! ## The register PWM_CFG (R136) -/

/-- The row of PWM_CFG in the tables. -/
def pwmCfgRow : RegClass :=
  ⟨.PWM_CFG, 0x2820000, [[(4, 0x200000), (16, 0x40)]], 0, some (0x28204FC, 1), .any,
    [⟨PWM_CFG_center, .rwp, 1⟩, ⟨PWM_CFG_dbl, .rwp, 0⟩, ⟨PWM_CFG_upd_pt, .rwp, 0⟩, ⟨PWM_CFG_upd_div, .rwp, 0⟩]⟩

theorem regAt_PWM_CFG : ∀ a : Fin 64, regAt (PWM_CFG a) = some (pwmCfgRow, [a.val]) := by decide

theorem unlockOf_PWM_CFG (a : Fin 64) : unlockOf pwmCfgRow (PWM_CFG a) ≠ some (PWM_CFG a) := by
  intro h
  have hu : 0x28204FC + (PWM_CFG a - 0x2820000) / 0x200000 * 0x200000 = PWM_CFG a := Option.some.inj h
  unfold PWM_CFG at hu
  omega

theorem noiseReg_PWM_CFG : ∀ a : Fin 64, noiseReg (PWM_CFG a) = false := by decide

theorem PWM_CFG_ne_PWM_GSTAT (a : Fin 64) (c : Nat) : PWM_CFG a ≠ PWM_GSTAT c := by
  unfold PWM_CFG PWM_GSTAT; omega

/-- A write of PWM_CFG by a master other than the debugger, where the cluster answers: the register's own meaning, and the
writer's window closes. -/
theorem yields_registerWrite_PWM_CFG {w : Writer} {a : Fin 64} {addr : Word} (v : Word) {s : State} {P : State → Prop}
    (haddr : addr.toNat = PWM_CFG a) (hd : s.dev.regDead w (PWM_CFG a) = false) (hw : w ≠ .dap) :
    Yields (exec (.registerWrite w addr v) s) P ↔
      P { s with dev := closeAt w (PWM_CFG a) (pwmCfgWrite w a v s.dev) } := by
  have hlo : 0x02800000 ≤ PWM_CFG a := by unfold PWM_CFG; omega
  have hhi : PWM_CFG a < 0x02F00000 := by unfold PWM_CFG; omega
  have hblock : (PWM_CFG a - 0x02800000) % 0x00200000 / 0x10000 = 2 := by unfold PWM_CFG; omega
  have halign : PWM_CFG a % 4 = 0 := by unfold PWM_CFG; omega
  have hwrite := regWrite_cluster (x := (s.mem, s.dev)) v [] hlo hhi (plnWindow_beyond (by omega))
    (regAt_PWM_CFG a) (unlockOf_PWM_CFG a) hd
  rw [regWriteBlock_pwm _ _ _ _ _ hlo hblock (unlockOf_PWM_CFG a)] at hwrite
  rw [exec_registerWrite, execRegisterWrite, yields_updB, if_neg (by simp [haddr, halign, hw]), haddr, hwrite]
  rfl

/-! ## The write of PWM_CFG (R120, R135) -/

/-- The word sets a combination that R120 excludes. -/
def PwmCfgReserved (v : Word) : Prop :=
  fget PWM_CFG_upd_div v = 3 ∨ (fget PWM_CFG_dbl v = 1 ∧ (fget PWM_CFG_center v = 0 ∨ fget PWM_CFG_upd_div v ≠ 0))

/-- A reserved combination is discarded with cfg_err, after adm_lock where the write would change a locked setting. -/
theorem pwmCfgWrite_reserved {w : Writer} {a : Nat} {v : Word} {d : Dev} (ha : d.accepts w (PWM_CFG a) = true)
    (hv : PwmCfgReserved v) : ∃ lock : Bool, pwmCfgWrite w a v d = discardWrite w (PWM_CFG a)
      ((when lock (·.setB (PWM_GSTAT (axCl a)) PWM_GSTAT_adm_lock true) d).setB (PWM_GSTAT (axCl a)) PWM_GSTAT_cfg_err
        true) :=
  ⟨_, if_pos ⟨(Dev.accepts_when_setB ..).trans ha, hv⟩⟩

/-- Where no axis is admitted, any other combination is written. -/
theorem pwmCfgWrite_retired {w : Writer} {a : Nat} {v : Word} {d : Dev} (hv : ¬ PwmCfgReserved v)
    (hs : d.axSt a = stRetired) : pwmCfgWrite w a v d = plainWrite w (PWM_CFG a) v d := by
  unfold PwmCfgReserved at hv
  simp [pwmCfgWrite, lockedWrite, hs, hv]

theorem pwmCfgWrite_reserved_frame {w : Writer} {a : Nat} {v : Word} {d : Dev} (ha : d.accepts w (PWM_CFG a) = true)
    (hv : PwmCfgReserved v) : ChangesOnly [PWM_GSTAT (axCl a)] Dev.noWindows d (pwmCfgWrite w a v d) := by
  obtain ⟨lock, h⟩ := pwmCfgWrite_reserved ha hv
  have hmem : PWM_GSTAT (axCl a) ∈ [PWM_GSTAT (axCl a)] := List.mem_singleton_self _
  rw [h]
  exact ((ChangesOnly.when lock _ d fun x => .setB x hmem _ _).trans (.setB _ hmem _ _)).trans
    (discardWrite_frame _ w _ _)

theorem pwmCfgWrite_reserved_cfg_err {w : Writer} {a : Nat} {v : Word} {d : Dev} (ha : d.accepts w (PWM_CFG a) = true)
    (hv : PwmCfgReserved v) : (pwmCfgWrite w a v d).flag (PWM_GSTAT (axCl a)) PWM_GSTAT_cfg_err = true := by
  obtain ⟨lock, h⟩ := pwmCfgWrite_reserved ha hv
  rw [h, Dev.flag, Dev.fld, discardWrite_rd]
  exact Dev.flag_setB_same _ _ PWM_GSTAT_cfg_err true (by decide) (by decide)

/-- Every field of PWM_CFG reads as an accepted plain write set it. -/
theorem plainWrite_PWM_CFG_fld {w : Writer} {a : Fin 64} (v : Word) {d : Dev} (ha : d.accepts w (PWM_CFG a) = true)
    {f : FieldDesc} (hf : f ∈ pwmCfgRow.fields) :
    (plainWrite w (PWM_CFG a) v d).fld (PWM_CFG a) f.fld = fget f.fld v := by
  have hacc : ∀ g ∈ pwmCfgRow.fields, g.acc = .rwp := by decide
  rw [plainWrite_accepted_fld w v d (regAt_PWM_CFG a) rfl ha hf, hacc f hf]
  rfl

/-- Settles O60: the write goes to the meaning of PWM_CFG, which discards a reserved combination and writes any other. -/
theorem pwmCombinationsAreDiscarded : Obligations.PwmCombinationsAreDiscarded := by
  intro w a addr v s bad haddr hd ha hw
  constructor
  · intro hbad
    rw [yields_registerWrite_PWM_CFG v haddr hd hw]
    have hframe := (pwmCfgWrite_reserved_frame ha hbad).trans (closeAt_frame _ w (PWM_CFG a) _)
    have hcfg : PWM_CFG a ∉ [PWM_GSTAT (axCl a)] := by
      rw [List.mem_singleton]; exact PWM_CFG_ne_PWM_GSTAT a _
    have hpart := congrArg Dev.part hframe.rest
    refine ⟨rfl, hframe.rd hpart hcfg (noiseReg_PWM_CFG a), ?_, hframe⟩
    rw [Dev.flag, Dev.fld, closeAt_rd]
    exact pwmCfgWrite_reserved_cfg_err ha hbad
  · intro hgood hst
    rw [yields_registerWrite_PWM_CFG v haddr hd hw, pwmCfgWrite_retired hgood hst]
    refine ⟨rfl, fun f hf => ?_, ?_⟩
    · have hfield : ∃ g ∈ pwmCfgRow.fields, g.fld = f := by
        revert f; decide
      obtain ⟨g, hg, rfl⟩ := hfield
      rw [Dev.fld, closeAt_rd]
      exact plainWrite_PWM_CFG_fld v ha hg
    · exact (plainWrite_accepted_frame w v s.dev (regAt_PWM_CFG a) rfl ha (List.mem_singleton_self _) fun _ => rfl).trans
        (closeAt_frame _ w (PWM_CFG a) _)

end Sys2Proof.Machine

/-!
PROOFS. The TAP's IDCODE (R471): what the row yields, and the fields of the value it shifts out.
-/
namespace Sys2Proof.Machine

/-! ## The fields of IDCODE (R471) -/

/-- The part code fits the low digit that 0x9D40 leaves free, so no field of IDCODE carries into the next. -/
theorem partCode_lt (p : Part) : partCode p < 2 ^ 4 := by
  cases p <;> decide

theorem idcodeOf_version (p : Part) : idcodeOf p / 2 ^ 28 = 1 := by
  have := partCode_lt p
  unfold idcodeOf
  omega

theorem idcodeOf_part (p : Part) : idcodeOf p / 2 ^ 12 % 2 ^ 16 = 0x9D40 + partCode p := by
  have := partCode_lt p
  unfold idcodeOf
  omega

theorem idcodeOf_manufacturer (p : Part) : idcodeOf p / 2 % 2 ^ 11 = 0x41D := by
  unfold idcodeOf
  omega

theorem idcodeOf_lowest_bit (p : Part) : idcodeOf p % 2 = 1 := by
  unfold idcodeOf
  omega

/-! ## The row of IDCODE (R470, R471) -/

/-- IDCODE only selects its instruction and captures its value in the TAP. -/
theorem yields_idcode {s : State} {P : State → Prop} : Yields (exec .idcode s) P ↔
    P { s with dev := s.dev.modTap fun t => { t with ir := 0x02, dr := idcodeOf s.dev.part } } := by
  rw [exec_idcode]
  exact yields_upd

/-- Settles O59: the row captures idcodeOf of the part, whose fields are read off its sum, and its value part by part. -/
theorem idcodeNamesThePart : Obligations.IdcodeNamesThePart := by
  intro s
  rw [yields_idcode]
  refine ⟨rfl, rfl, idcodeOf_version _, ?_, idcodeOf_manufacturer _, idcodeOf_lowest_bit _, ?_⟩
  · exact idcodeOf_part s.dev.part
  · show idcodeOf s.dev.part = _
    cases s.dev.part <;> rfl

end Sys2Proof.Machine
